-- ==== Sys2Proof/Word.lean ====
section
/-! DEFINITION. Sys2Proof/Word.lean: the word types of the spec (00_scope.md R4, R5, R8), the index types of its
dies, clusters, cores, ports, mills and functions, and the small data types that the commands carry. -/

namespace Sys2Proof

/-- One byte (R4). -/
abbrev Byte := BitVec 8
/-- A 32-bit register or word (R8). -/
abbrev Word := BitVec 32
/-- A 64-bit quantity: two consecutive words, low word first (R9). -/
abbrev DWord := BitVec 64

/-- A compute die CD0 to CD7, and with it the deep-store stack of the same number (R32). -/
abbrev Die := Fin 8
/-- A cluster index i = 16y + x of one die (Table CORE-1). -/
abbrev Clu := Fin 160
/-- A port P0 to P63 (Table SCO-1). -/
abbrev Port := Fin 64
/-- A mill M0 to M15 (Table SCO-1). -/
abbrev MillIx := Fin 16
/-- A function: 0 the physical function, n the virtual function n (04_cores_clusters.md R188). -/
abbrev Fn := Fin 513

/-- One core: its die, its cluster and its index in the cluster (Table ARC-1). -/
structure CoreId where
  d : Die
  i : Clu
  c : Fin 64
deriving DecidableEq, Repr

/-- The cluster number 160 d + i of a die's cluster, from 0 to 1,279. -/
def cluNo (d : Die) (i : Clu) : Nat := 160 * d.val + i.val

/-- The cluster number of a core. -/
def CoreId.clu (k : CoreId) : Nat := cluNo k.d k.i

/-- The core's number in the device, 64 to a cluster. -/
def CoreId.no (k : CoreId) : Nat := 64 * k.clu + k.c.val

/-- A host descriptor: function, ring and submission index (14_host.md R518). -/
structure DescRef where
  fn : Fn
  ring : Fin 8
  idx : Word
deriving DecidableEq, Repr

/-- The upsets that the reads of one step meet, given by the environment: 16-byte lines of the stores, each with the bits of
it that are struck, and 64-byte codewords of deep store, each with the 8-bit symbols of it that are struck
(04 R134 R135, 06_deep_store.md R233 to R235). Keys are store keys and device deep-store addresses. `lost` names
pseudo-channels that are lost whole, 32 per stack (06 R242). -/
structure Upsets where
  store : List (Nat × Nat)
  deep : List (Nat × Nat)
  lost : List Nat
deriving DecidableEq, Repr

/-- No upset. -/
def Upsets.none : Upsets := ⟨[], [], []⟩
/-- The lines whose reads are corrected: one bit struck (04 R134). -/
def Upsets.storeCe (u : Upsets) : List Nat := (u.store.filter fun e => e.2 == 1).map (·.1)
/-- The lines struck beyond correction: two bits (04 R134). -/
def Upsets.storeUe (u : Upsets) : List Nat := (u.store.filter fun e => decide (2 ≤ e.2)).map (·.1)
/-- The codewords whose reads are corrected: one or two symbols struck (R233). -/
def Upsets.deepCe (u : Upsets) : List Nat := (u.deep.filter fun e => decide (1 ≤ e.2) && decide (e.2 ≤ 2)).map (·.1)
/-- The codewords struck beyond correction: three or four symbols (R233). -/
def Upsets.deepUe (u : Upsets) : List Nat := (u.deep.filter fun e => decide (3 ≤ e.2)).map (·.1)

/-- An operand of a command with the upsets that the command's reads meet. -/
structure Met (α : Type) where
  what : α
  ups : Upsets
deriving DecidableEq, Repr

/-- What the mill meets in its own stores as it takes a frame (11_mills.md R445). -/
inductive MillUpset where
  | none    -- nothing
  | ce      -- a corrected error
  | ue      -- an uncorrectable error in the stream's own state
  | ueCode  -- an uncorrectable error in the code store or a shared image
deriving DecidableEq, Repr

/-- What the sensors read at a health evaluation (16_power_health.md R577, R590, R592; 17 R629), temperatures in quarter
degrees: the islands by number (one not named reads as before), the hottest switch-die sensor, the eight stacks, and the
on-die power estimate in W. -/
structure Readings where
  temps : List (Nat × Int)
  switchDie : Int
  stackTemps : List Int
  watts : Nat
deriving DecidableEq, Repr

/-- The self-test's failures (18_startup_faults.md R643): clusters, mills, and the packet buffer or a table bank. -/
structure SelfTest where
  clusters : List Nat
  mills : List Nat
  banks : Bool
deriving DecidableEq, Repr

/-- The tries of one PMBus transaction with one rail (17 R622, R623). -/
structure RailTry where
  rail : Nat
  failures : Nat
  value : Nat
deriving DecidableEq, Repr

/-- Where a signal is lost: on one port, or, by a fault of optical engine OEk, on its four ports together
(01_architecture.md R33, 15_links.md R563). -/
inductive SignalAt where
  | port (p : Port)
  | engine (k : Fin 16)
deriving DecidableEq, Repr

/-- The ports that lose their signal: OEk serves P(4k) to P(4k+3) (R33). -/
def SignalAt.ports : SignalAt → List Nat
  | .port p => [p.val]
  | .engine k => [4 * k.val, 4 * k.val + 1, 4 * k.val + 2, 4 * k.val + 3]

/-- The read of host memory that ended in an error (14_host.md R511): one made for a descriptor, or to fetch it; a doorbell
poll; the ring entries that a poll reads; the completion head of a ring. -/
inductive HostRead where
  | desc (r : DescRef)
  | poll (fn : Fn)
  | entries (fn : Fn)
  | head (fn : Fn) (ring : Fin 8)
deriving DecidableEq, Repr

/-- The sticky arithmetic flags (02_engines.md R92). -/
structure FpFlags where
  flushed : Bool
  nangen : Bool
  infgen : Bool
  ovf : Bool
deriving DecidableEq, Repr

/-- No flag set. -/
def FpFlags.none : FpFlags := ⟨false, false, false, false⟩
/-- The OR of two flag sets. -/
def FpFlags.or (a b : FpFlags) : FpFlags :=
  ⟨a.flushed || b.flushed, a.nangen || b.nangen, a.infgen || b.infgen, a.ovf || b.ovf⟩

/-- An exact number with the special values of IEEE 754-2019: a finite one is (-1)^neg x m x 2^q. -/
inductive Num where
  | nan
  | inf (neg : Bool)
  | fin (neg : Bool) (m : Nat) (q : Int)
deriving DecidableEq, Repr

/-- The plain element formats (Table ENG-3, R62, Table CORE-5). -/
inductive Fmt where
  | fp4 | e2m3 | e3m2 | e4m3 | e5m2 | bf16 | fp16 | fp32 | int4 | int8 | int32
deriving DecidableEq, Repr

/-- A partial word (Table ENG-6). -/
structure PartialWord where
  sig : Int
  exp : Int
  nan : Bool
  pinf : Bool
  ninf : Bool
  negz : Bool
deriving DecidableEq, Repr

/-- A long-accumulator image (Table ENG-7). -/
structure Image where
  val : Int
  cnt : Nat
  nan : Bool
  pinf : Bool
  ninf : Bool
  nonnegz : Bool
deriving DecidableEq, Repr

/-- The empty accumulator (R76). -/
def Image.empty : Image := ⟨0, 0, false, false, false, false⟩

/-- One entry of a column's accumulator bank (R68 R70 R73 R74): on the exact path `e` is fixed to the quantum;
`some0` says that a product has been entered, `allNegZ` that every one was -0, `term` that a nonzero term entered. -/
structure BankEntry where
  s : Int
  e : Int
  term : Bool
  some0 : Bool
  allNegZ : Bool
  nan : Bool
  pinf : Bool
  ninf : Bool
deriving DecidableEq, Repr

/-- The entry at the start of a seam. -/
def BankEntry.start (e : Int) : BankEntry := ⟨0, e, false, false, true, false, false, false⟩

/-- What a tile gathers (03_conversion.md Table CNV-6, R119). -/
structure TileAcc where
  amax : Nat
  nz : Nat
  tail : Nat
  ovfn : Nat
  nonfin : Nat
  zb : Nat
  nb : Nat
  sclip : Nat
  flags : FpFlags
deriving DecidableEq, Repr

/-- A tile's start. -/
def TileAcc.empty : TileAcc := ⟨0, 0, 0, 0, 0, 0, 0, 0, FpFlags.none⟩

/-- What an emission gathers: the tile's counts and the flags of la_emit. -/
structure EmitAcc where
  t : TileAcc
  fl : FpFlags
deriving DecidableEq, Repr

/-- An emission's start. -/
def EmitAcc.empty : EmitAcc := ⟨TileAcc.empty, FpFlags.none⟩

/-- An octet of the hash accumulator: its tag, an output row and a column group, and its 8 entries
(05_sparse.md R206). -/
structure Octet where
  r : Nat
  g : Nat
  ents : List BankEntry
deriving DecidableEq, Repr

/-- A parameter block with its effective settings (04_cores_clusters.md R151, R152, Table CORE-6, Table CNV-1). `present`
tells PARAM = none apart; `named` says that an override is named; `slot` and `recAt` are none where 0xFFFF_FFFF. -/
structure Params where
  present : Bool
  wsc : Nat
  asc : Nat
  osc : Nat
  gw : Nat
  ga : Nat
  g : Nat
  slot : Option Nat
  recAt : Option Nat
  a : Nat
  b : Nat
  lo : Nat
  hi : Nat
  clip : Bool
  close : Bool
  sat : Bool
  fit : Bool
  ftz : Bool
  margin : Nat
  named : Bool
  rsv : Bool
deriving DecidableEq, Repr

end Sys2Proof
end

