-- ==== Sys2Proof/Syntax.lean ====
section
/-! DEFINITION. Sys2Proof/Syntax.lean: the commands, one constructor per row of spec/opcode_table.json, in its order. -/

namespace Sys2Proof

/-- A command: one row of the spec's table of operations and events. -/
inductive Instr where
  /-- REGISTER_WRITE (R15). -/
  | registerWrite (off : Nat) (v : Word)
  /-- BAR0_UNSUPPORTED_ACCESS (R10). -/
  | bar0UnsupportedAccess (off : Nat) (size : Nat)
  /-- REG64_LOW_WRITE (R14). -/
  | reg64LowWrite (off : Nat) (v : Word)
  /-- REG64_HIGH_WRITE (R11). -/
  | reg64HighWrite (off : Nat) (v : Word)
  /-- REG64_LOW_READ (R12). -/
  | reg64LowRead (off : Nat)
  /-- LOCK (R644). -/
  | lock
  /-- CLUSTER_OWNER_WRITE (R189). -/
  | clusterOwnerWrite (d : Die) (i : Clu) (v : DWord)
  /-- DST_LAYOUT_WRITE (R228). -/
  | dstLayoutWrite (v : Word)
  /-- GRANULE_OWNER_WRITE (R231). -/
  | granuleOwnerWrite (g : Fin 6144) (v : Word)
  /-- FAB_TABLE_READ (R661). -/
  | fabTableRead
  /-- FAB_TABLE_WRITE (R293). -/
  | fabTableWrite
  /-- FAB_EPOCH_ARM (R297). -/
  | fabEpochArm
  /-- FAB_EPOCH_FLIP (R295). -/
  | fabEpochFlip
  /-- EPOCH_FLIP_AT (R295). -/
  | epochFlipAt
  /-- RETENTION_END (R296). -/
  | retentionEnd
  /-- CIR_TABLE_READ (R661). -/
  | cirTableRead
  /-- CIR_TABLE_WRITE (R338). -/
  | cirTableWrite
  /-- CIR_ARM (R339). -/
  | cirArm
  /-- CIR_FLIP (R339). -/
  | cirFlip
  /-- MIL_TABLE_READ (R661). -/
  | milTableRead
  /-- MIL_TABLE_WRITE (R450). -/
  | milTableWrite
  /-- MILL_VERSION_WRITE (R447). -/
  | millVersionWrite (m : MillIx) (v : Word)
  /-- POLICER_COMMIT (R376). -/
  | policerCommit (k : Fin 1026) (v : Word)
  /-- SHAPER_COMMIT (R376). -/
  | shaperCommit (k : Fin 1026) (v : Word)
  /-- MIRROR_TARGET_WRITE (R374). -/
  | mirrorTargetWrite (v : Word)
  /-- RESOURCE_CLAIM_WRITE (R613). -/
  | resourceClaimWrite (off : Nat) (v : Word)
  /-- FAULT_RECORD_CLEAR (R650). -/
  | faultRecordClear (v : Word)
  /-- AGECLR (R656). -/
  | ageclr
  /-- DEVICE_RESET_WRITE (R632). -/
  | deviceResetWrite
  /-- TIME_SET (R476). -/
  | timeSet (v : Word)
  /-- GANG_ENABLE (R487). -/
  | gangEnable (v : Word)
  /-- BOND_WRITE (R494). -/
  | bondWrite (b : Fin 8) (v : Word)
  /-- BARRIER_COMMIT (R497). -/
  | barrierCommit (b : Fin 64) (v : Word)
  /-- HISTOGRAM_SNAP (R368). -/
  | histogramSnap
  /-- PORT_ENABLE_WRITE (R564). -/
  | portEnableWrite (p : Port) (v : Word)
  /-- PORT_RETRAIN (R564). -/
  | portRetrain (p : Port)
  /-- PORT_WIDTH_REQUEST (R565). -/
  | portWidthRequest (p : Port) (w : BitVec 2)
  /-- PORT_UNRETIRE (R563). -/
  | portUnretire (p : Port)
  /-- JOB_LEVEL_WRITE (R572). -/
  | jobLevelWrite (j : Fin 512) (v : Word)
  /-- LAMP_ENTER (R588). -/
  | lampEnter
  /-- LAMP_WAKE (R589). -/
  | lampWake
  /-- MAINTENANCE_REQUEST (R598). -/
  | maintenanceRequest (v : Word)
  /-- UART_DATA_WRITE (R615). -/
  | uartDataWrite (host : Bool) (b : Byte)
  /-- UART_DATA_READ (R617). -/
  | uartDataRead (host : Bool)
  /-- SPI_READ (R626). -/
  | spiRead (spBusy : Bool)
  /-- SPI_PROGRAM (R626). -/
  | spiProgram (spBusy : Bool)
  /-- SPI_ERASE (R626). -/
  | spiErase (spBusy : Bool)
  /-- SPI_OP_DONE (R626). -/
  | spiOpDone (timedOut : Bool)
  /-- LIST_START (R148). -/
  | listStart (k : Met CoreId)
  /-- DESCRIPTOR_COMPLETE (R143). -/
  | descriptorComplete (k : Met CoreId)
  /-- NOP (R149). -/
  | nop (k : CoreId)
  /-- MATMUL (R157). -/
  | matmul (k : CoreId) (u : Upsets)
  /-- CONVERT (R158). -/
  | convert (k : CoreId) (u : Upsets)
  /-- SPARSE (R197). -/
  | sparse (k : CoreId) (u : Upsets)
  /-- REDUCE_SUM_IMAGES (R161). -/
  | reduceSumImages (k : CoreId) (u : Upsets)
  /-- REDUCE_SUM_PARTIALS (R161). -/
  | reduceSumPartials (k : CoreId) (u : Upsets)
  /-- REDUCE_MAX (R161). -/
  | reduceMax (k : CoreId) (u : Upsets)
  /-- REDUCE_MIN (R161). -/
  | reduceMin (k : CoreId) (u : Upsets)
  /-- COPY (R162). -/
  | copy (k : CoreId) (u : Upsets)
  /-- COPY_COMPLETE (R164). -/
  | copyComplete (k : CoreId) (n : Nat) (u : Upsets)
  /-- WAIT_TALLY (R166). -/
  | waitTally (k : CoreId)
  /-- WAIT_TIME (R166). -/
  | waitTime (k : CoreId)
  /-- WAIT_COMPLETE (R396). -/
  | waitComplete (k : CoreId)
  /-- WAIT_TIMEOUT (R167). -/
  | waitTimeout (k : CoreId)
  /-- WAIT_TIME_REACHED (R475). -/
  | waitTimeReached (k : CoreId)
  /-- LOOP (R169). -/
  | loop (k : Met CoreId)
  /-- STAGE (R184). -/
  | stage (k : Met CoreId)
  /-- PILLAR_MARK (R172). -/
  | pillarMark (k : CoreId)
  /-- PILLAR_CLEAR (R171). -/
  | pillarClear (k : CoreId)
  /-- QUANTUM_EXPIRE (R177). -/
  | quantumExpire (d : Die) (i : Clu)
  /-- CONTEXT_SWITCH_START (R178). -/
  | contextSwitchStart (d : Die) (i : Clu)
  /-- CONTEXT_SAVE_DONE (R182). -/
  | contextSaveDone (d : Die) (i : Met Clu)
  /-- CONTEXT_RESTORE_DONE (R182). -/
  | contextRestoreDone (d : Die) (i : Clu) (u : Upsets)
  /-- FRAME_ADMIT (R342). -/
  | frameAdmit (n : Nat)
  /-- SHAPER_PASS (R346). -/
  | shaperPass (k : Fin 1026)
  /-- ADMIT_RESUME (R342). -/
  | admitResume (n : Nat)
  /-- FRAME_ARRIVE (R270). -/
  | frameArrive (p : Port)
  /-- CIRCUIT_FRAME_ARRIVE (R311). -/
  | circuitFrameArrive (p : Port) (t : DWord)
  /-- CAGE_SLOT_START (R309). -/
  | cageSlotStart (p : Port)
  /-- PORT_TRANSMIT (R658). -/
  | portTransmit (p : Port)
  /-- DIE_LINK_SEND (R355). -/
  | dieLinkSend (d : Die)
  /-- MESH_PACKET_ARRIVE (R273). -/
  | meshPacketArrive (d : Die) (n : Met Nat)
  /-- SUMP_READBACK (R364). -/
  | sumpReadback (q : Fin 72) (u : Upsets)
  /-- QUEUE_AVG_UPDATE (R358). -/
  | queueAvgUpdate
  /-- HISTOGRAM_SAMPLE (R367). -/
  | histogramSample
  /-- CANARY_SEND (R369). -/
  | canarySend (n : Fin 8)
  /-- CANARY_ARRIVE (R369). -/
  | canaryArrive
  /-- MIRROR_RECORD_WRITE (R373). -/
  | mirrorRecordWrite (u : Upsets)
  /-- REMOTE_WRITE (R382). -/
  | remoteWrite (q : Met (Fin 9))
  /-- REMOTE_READ (R398). -/
  | remoteRead (q : Fin 9) (u : Upsets)
  /-- REMOTE_ATOMIC (R401). -/
  | remoteAtomic (q : Fin 9)
  /-- ATOMIC_INTEGER_ADD (R401). -/
  | atomicIntegerAdd (u : Upsets)
  /-- ATOMIC_SWAP (R401). -/
  | atomicSwap (u : Upsets)
  /-- ATOMIC_COMPARE_SWAP (R401). -/
  | atomicCompareSwap (u : Upsets)
  /-- ATOMIC_FLOATING_ADD (R403). -/
  | atomicFloatingAdd (u : Upsets)
  /-- RDATA_ARRIVE (R399). -/
  | rdataArrive (q : Met (Fin 9))
  /-- ATRESP_ARRIVE (R399). -/
  | atrespArrive (q : Met (Fin 9))
  /-- REQUEST_TIMEOUT (R400). -/
  | requestTimeout (t : BitVec 12)
  /-- MILL_HANDLER (R421). -/
  | millHandler (m : MillIx) (e : MillUpset)
  /-- MILL_NOP (R425). -/
  | millNop (m : MillIx)
  /-- ADD (R425). -/
  | add (m : MillIx)
  /-- SUB (R425). -/
  | sub (m : MillIx)
  /-- AND (R425). -/
  | and (m : MillIx)
  /-- OR (R425). -/
  | or (m : MillIx)
  /-- XOR (R425). -/
  | xor (m : MillIx)
  /-- SHL (R425). -/
  | shl (m : MillIx)
  /-- SHR (R425). -/
  | shr (m : MillIx)
  /-- MUL (R425). -/
  | mul (m : MillIx)
  /-- ADDI (R425). -/
  | addi (m : MillIx)
  /-- ANDI (R425). -/
  | andi (m : MillIx)
  /-- ORI (R425). -/
  | ori (m : MillIx)
  /-- SHLI (R425). -/
  | shli (m : MillIx)
  /-- SHRI (R425). -/
  | shri (m : MillIx)
  /-- FLD (R425). -/
  | fld (m : MillIx)
  /-- CADD (R425). -/
  | cadd (m : MillIx)
  /-- CSET (R425). -/
  | cset (m : MillIx)
  /-- BEQ (R425). -/
  | beq (m : MillIx)
  /-- BNE (R425). -/
  | bne (m : MillIx)
  /-- BLTU (R425). -/
  | bltu (m : MillIx)
  /-- BGEU (R425). -/
  | bgeu (m : MillIx)
  /-- JMP (R425). -/
  | jmp (m : MillIx)
  /-- END (R421). -/
  | endHandler (m : MillIx)
  /-- ACC (R430). -/
  | acc (m : MillIx)
  /-- ACLR (R430). -/
  | aclr (m : MillIx)
  /-- EMIT (R430). -/
  | emit (m : MillIx)
  /-- SORT (R434). -/
  | sort (m : MillIx)
  /-- TAKE (R436). -/
  | take (m : MillIx)
  /-- GATH_RANK (R437). -/
  | gathRank (m : MillIx)
  /-- GATH_ARRIVAL (R437). -/
  | gathArrival (m : MillIx)
  /-- DISP (R439). -/
  | disp (m : MillIx)
  /-- FLUSH (R441). -/
  | flush (m : MillIx)
  /-- SCLR (R442). -/
  | sclr (m : MillIx)
  /-- STREAM_REMOVE_DONE (R419). -/
  | streamRemoveDone (m : MillIx) (n : Byte)
  /-- CIRCUIT_REQUEST (R317). -/
  | circuitRequest
  /-- CIRCUIT_GRANT (R318). -/
  | circuitGrant
  /-- CIRCUIT_REFUSE (R318). -/
  | circuitRefuse
  /-- CIRCUIT_TEARDOWN (R320). -/
  | circuitTeardown
  /-- TEARDOWN_FORWARD (R320). -/
  | teardownForward (cid : BitVec 16)
  /-- CIRCUIT_HANDSHAKE_TIMEOUT (R319). -/
  | circuitHandshakeTimeout (cid : BitVec 16)
  /-- CIRCUIT_CLOSE_SEND (R663). -/
  | circuitCloseSend (cid : BitVec 16)
  /-- SHIFT_CHANGE_BELL (R333). -/
  | shiftChangeBell
  /-- SHIFT_CHANGE_START (R335). -/
  | shiftChangeStart
  /-- SHIFT_CHANGE_FLIP (R335). -/
  | shiftChangeFlip
  /-- DELAY_EXCHANGE_START (R480). -/
  | delayExchangeStart (p : Port) (t : DWord)
  /-- DELAY_REQUEST (R480). -/
  | delayRequest (p : Port) (t : DWord)
  /-- DELAY_REPLY_SEND (R480). -/
  | delayReplySend (p : Port)
  /-- DELAY_REPLY (R480). -/
  | delayReply (p : Port) (t : DWord)
  /-- BURST_SEND (R484). -/
  | burstSend (t : DWord)
  /-- TSYNC_BURST_FRAME (R485). -/
  | tsyncBurstFrame (p : Port) (t : DWord)
  /-- BURST_RELAY (R486). -/
  | burstRelay (t : DWord)
  /-- HOLDOVER_ENTER (R487). -/
  | holdoverEnter
  /-- STANDBY_TAKEOVER (R490). -/
  | standbyTakeover (t : DWord)
  /-- REFERENCE_LOSS (R474). -/
  | referenceLoss
  /-- GSYNC_CAPTURE (R629). -/
  | gsyncCapture
  /-- GSYNC_PULSE (R507). -/
  | gsyncPulse
  /-- BARRIER_ARRIVAL (R497). -/
  | barrierArrival
  /-- BARRIER_START_BELL (R497). -/
  | barrierStartBell
  /-- DOORBELL_POLL (R518). -/
  | doorbellPoll (fn : Fn) (data : List Byte) (entries : List Byte)
  /-- DESCRIPTOR_FETCH (R524). -/
  | descriptorFetch (fn : Fn) (ring : Fin 8) (cqh : Word) (data : List Byte)
  /-- HOST_NOP (R525). -/
  | hostNop (r : DescRef)
  /-- LAUNCH (R528). -/
  | launch (r : DescRef)
  /-- HCOPY (R529). -/
  | hcopy (r : DescRef) (data : List Byte) (u : Upsets)
  /-- RREAD (R530). -/
  | rread (r : DescRef)
  /-- RATOMIC (R530). -/
  | ratomic (r : DescRef)
  /-- MSEND (R531). -/
  | msend (r : DescRef) (data : List Byte)
  /-- FCTL_ENABLE (R542). -/
  | fctlEnable (r : DescRef)
  /-- FCTL_DISABLE (R542). -/
  | fctlDisable (r : DescRef)
  /-- FCTL_RESET (R538). -/
  | fctlReset (r : DescRef)
  /-- FBIND (R533). -/
  | fbind (r : DescRef)
  /-- CLOWN_ASSIGN (R532). -/
  | clownAssign (r : DescRef)
  /-- CLOWN_RELEASE (R532). -/
  | clownRelease (r : DescRef)
  /-- GRAN_ASSIGN (R532). -/
  | granAssign (r : DescRef)
  /-- GRAN_RELEASE (R532). -/
  | granRelease (r : DescRef)
  /-- SETREG (R532). -/
  | setreg (r : DescRef)
  /-- TBLWR (R532). -/
  | tblwr (r : DescRef) (data : List Byte)
  /-- TBLRD (R532). -/
  | tblrd (r : DescRef)
  /-- WIN_LOAD (R385). -/
  | winLoad (r : DescRef)
  /-- WIN_REMOVE (R386). -/
  | winRemove (r : DescRef)
  /-- WIN_READ_RECORD (R389). -/
  | winReadRecord (r : DescRef)
  /-- WIN_READ_CLEAR (R389). -/
  | winReadClear (r : DescRef)
  /-- CIR_OPEN (R663). -/
  | cirOpen (r : DescRef)
  /-- CIR_CLOSE (R663). -/
  | cirClose (r : DescRef)
  /-- HOST_DESCRIPTOR_COMPLETE (R534). -/
  | hostDescriptorComplete (r : DescRef)
  /-- MSIX_MTIME_EXPIRE (R536). -/
  | msixMtimeExpire (fn : Fn) (vec : Fin 64)
  /-- MSIX_UNMASK (R536). -/
  | msixUnmask (fn : Fn) (vec : Fin 64)
  /-- HOST_ACCESS_ERROR (R511). -/
  | hostAccessError (r : HostRead)
  /-- VF_ENABLE (R542). -/
  | vfEnable (fn : Fn)
  /-- VF_DISABLE (R542). -/
  | vfDisable (fn : Fn)
  /-- VF_RESET (R542). -/
  | vfReset (fn : Fn)
  /-- FLR (R538). -/
  | flr (fn : Fn)
  /-- VF_ENABLE_CLEAR (R538). -/
  | vfEnableClear
  /-- TEARDOWN_DRAIN_END (R538). -/
  | teardownDrainEnd (fn : Fn)
  /-- TEARDOWN_DONE (R538). -/
  | teardownDone (fn : Fn)
  /-- DRAIN_BELL (R541). -/
  | drainBell
  /-- LINK_UNIT_RECEIVE (R552). -/
  | linkUnitReceive (p : Port) (data : List Byte) (ucw : Bool) (fec : List (Nat × Nat))
  /-- LINK_REPLAY_TIMEOUT (R553). -/
  | linkReplayTimeout (p : Port)
  /-- LINK_IDLE_SEND (R551). -/
  | linkIdleSend (p : Port)
  /-- TRAINING_UNIT_RECEIVE (R557). -/
  | trainingUnitReceive (p : Port) (data : List Byte) (good : Byte)
  /-- TRAIN_RETRY (R559). -/
  | trainRetry (p : Port)
  /-- LANE_FAIL (R565). -/
  | laneFail (p : Port) (l : Fin 8)
  /-- WREQ (R565). -/
  | wreq (p : Port) (cw : Word)
  /-- WACK (R565). -/
  | wack (p : Port)
  /-- WIDTH_SWITCH (R565). -/
  | widthSwitch (p : Port)
  /-- FAILING_BELLS_END (R567). -/
  | failingBellsEnd (p : Port)
  /-- FAIL_RECEIVE (R567). -/
  | failReceive (p : Port)
  /-- FAILING_TIMEOUT (R567). -/
  | failingTimeout (p : Port)
  /-- SIGNAL_LOSS (R563). -/
  | signalLoss (p : SignalAt)
  /-- PORT_DRAIN_END (R564). -/
  | portDrainEnd (p : Port)
  /-- DOWN_TIMEOUT (R563). -/
  | downTimeout (p : Port)
  /-- LINK_REPORT (R568). -/
  | linkReport
  /-- LINK_REPORT_TIMEOUT (R568). -/
  | linkReportTimeout (p : Port)
  /-- HEALTH_EVALUATE (R578). -/
  | healthEvaluate (r : Readings)
  /-- THERMAL_LIMIT (R590). -/
  | thermalLimit (d : Die) (i : Clu)
  /-- GRANT_SWITCH (R579). -/
  | grantSwitch (d : Die) (i : Clu)
  /-- DROOP (R591). -/
  | droop (d : Die) (i : Clu)
  /-- POWER_TELEMETRY (R592). -/
  | powerTelemetry (w : Nat)
  /-- DOZE_ENTER (R584). -/
  | dozeEnter (d : Die) (i : Clu)
  /-- ISLAND_WAKE (R585). -/
  | islandWake (d : Die) (i : Clu)
  /-- WAKE_COMPLETE (R585). -/
  | wakeComplete (d : Die) (i : Clu)
  /-- LAMP_ALARM (R589). -/
  | lampAlarm
  /-- LAMP_EXIT_COMPLETE (R589). -/
  | lampExitComplete
  /-- AGE_SWEEP (R593). -/
  | ageSweep
  /-- SCRUB_SLICE_DUE (R596). -/
  | scrubSliceDue (d : Die) (u : Upsets)
  /-- MAINTENANCE_END (R599). -/
  | maintenanceEnd (act : Fin 5) (unit : Fin 64) (slow : List (Nat × Nat)) (u : Upsets)
  /-- MAINTENANCE_LATE (R600). -/
  | maintenanceLate (n : Nat)
  /-- ROW_SPARE_COPY_DONE (R239). -/
  | rowSpareCopyDone (n : Nat)
  /-- IDENT (R619). -/
  | ident
  /-- STATUS (R619). -/
  | status
  /-- TEMP (R619). -/
  | temp
  /-- POWER (R619). -/
  | power
  /-- CAP_READ (R619). -/
  | capRead
  /-- CAP_WRITE (R620). -/
  | capWrite (w : BitVec 16) (pecOk : Bool)
  /-- ALERT_RESPONSE (R621). -/
  | alertResponse (won : Bool)
  /-- SMB_TIMEOUT (R619). -/
  | smbTimeout
  /-- PMBUS_IOUT_POLL (R622). -/
  | pmbusIoutPoll (rails : List RailTry)
  /-- PMB_ALERT (R614). -/
  | pmbAlert (rails : List RailTry)
  /-- BUS_RECOVERY (R624). -/
  | busRecovery (freed : Bool)
  /-- BUS_RECOVERY_REPEAT (R624). -/
  | busRecoveryRepeat (freed : Bool)
  /-- UART_RX_FRAME (R616). -/
  | uartRxFrame (b : Byte) (stop : Bool)
  /-- GPIO_EDGE (R630). -/
  | gpioEdge (n : Fin 16) (level : Bool)
  /-- GPIO_PULSE (R630). -/
  | gpioPulse (n : Fin 16)
  /-- WAKE_N (R614). -/
  | wakeN
  /-- IMON_SAMPLE (R629). -/
  | imonSample (mv : List Nat)
  /-- SYSCLK_LOSS (R611). -/
  | sysclkLoss
  /-- BYPASS (R627). -/
  | bypass
  /-- IDCODE (R627). -/
  | idcode
  /-- SAMPLE_PRELOAD (R627). -/
  | samplePreload (pins : DWord)
  /-- EXTEST (R628). -/
  | extest
  /-- CLAMP (R628). -/
  | clamp
  /-- HIGHZ (R628). -/
  | highz
  /-- TRST (R628). -/
  | trst
  /-- COLD_RESET (R633). -/
  | coldReset
  /-- DEVICE_RESET (R635). -/
  | deviceReset
  /-- HOT_RESET (R633). -/
  | hotReset
  /-- BOOT_LINK_TRAINED (R641). -/
  | bootLinkTrained
  /-- BOOT_IMAGE_SELECT (R639). -/
  | bootImageSelect
  /-- BOOT_STORES_READY (R641). -/
  | bootStoresReady
  /-- SELF_TEST (R643). -/
  | selfTest (f : SelfTest)
  /-- BOOT_READY (R641). -/
  | bootReady
  /-- FAULT_BELL_RECEIVE (R654). -/
  | faultBellReceive
  /-- RESET_RELEASE (R641). -/
  | resetRelease (straps : BitVec 2) (sfdp : Option Byte)
  /-- DROOP_RECOVERY (R591). -/
  | droopRecovery (d : Die) (i : Clu)
  /-- UART_BYTE_SENT (R615). -/
  | uartByteSent
  /-- BAR0_ACCESS_WAKE (R589). -/
  | bar0AccessWake (off : Nat)
deriving DecidableEq, Repr

end Sys2Proof
end

