-- ==== Sys2Proof/Machine/Bits.lean ====
section
/-! DEFINITION. Sys2Proof/Machine/Bits.lean: bit fields, little-endian byte runs (R4, R5), sign extension, saturating
counters and the CRC-32C of the fabric (07_fabric_routing.md R251), on natural numbers and byte lists. -/

namespace Sys2Proof.Machine

/-- The field hi:lo of a number (R5). -/
def bits (w hi lo : Nat) : Nat := (w >>> lo) % 2 ^ (hi + 1 - lo)

/-- Bit i of a number. -/
def bit (w i : Nat) : Bool := w.testBit i

/-- A number with its field hi:lo replaced. -/
def setBits (w hi lo v : Nat) : Nat :=
  (w >>> (hi + 1)) <<< (hi + 1) + ((v % 2 ^ (hi + 1 - lo)) <<< lo) + w % 2 ^ lo

/-- A truth value as a bit. -/
def b2n (b : Bool) : Nat := if b then 1 else 0

/-- The two's-complement value of the low w bits of a number. -/
def sext (w n : Nat) : Int :=
  let m := n % 2 ^ w
  if m < 2 ^ (w - 1) then (m : Int) else (m : Int) - (2 ^ w : Nat)

/-- The low w bits of an integer's two's complement. -/
def twos (w : Nat) (z : Int) : Nat := (z % ((2 ^ w : Nat) : Int)).toNat

/-- The value of a little-endian byte run (R4). -/
def leNat : List Byte → Nat
  | [] => 0
  | b :: r => b.toNat + 256 * leNat r

/-- The n bytes, little-endian, of a number (R4). -/
def leBytes : Nat → Nat → List Byte
  | 0, _ => []
  | n + 1, v => BitVec.ofNat 8 v :: leBytes n (v / 256)

/-- n zero bytes. -/
def zeros (n : Nat) : List Byte := List.replicate n 0#8

/-- Byte i of a run; 0 beyond its end. -/
def byteAt (bs : List Byte) (i : Nat) : Nat := (bs.getD i 0#8).toNat

/-- The little-endian value of n bytes at offset i of a run. -/
def leAt (bs : List Byte) (i n : Nat) : Nat := leNat ((bs.drop i).take n)

/-- A run with n bytes at offset i replaced by v. -/
def leSet (bs : List Byte) (i n v : Nat) : List Byte :=
  bs.take i ++ leBytes n v ++ bs.drop (i + n)

/-- Are all bytes from offset i, n of them, zero? -/
def zeroAt (bs : List Byte) (i n : Nat) : Bool := leAt bs i n == 0

/-- A run cut or padded with zero bytes to n bytes. -/
def padTo (n : Nat) (bs : List Byte) : List Byte := bs.take n ++ zeros (n - bs.length)

/-- A counter that holds at its largest value (the counters of the spec hold, they never wrap). -/
def satAdd (w c n : Nat) : Nat := min (2 ^ w - 1) (c + n)

/-- n divided by d, rounded up. -/
def ceilDiv (n d : Nat) : Nat := (n + d - 1) / d

/-- One bit step of the reflected CRC-32C. -/
def crcStep (c : Nat) : Nat := if c % 2 = 1 then (c / 2) ^^^ 0x82F63B78 else c / 2

/-- One byte into a reflected CRC-32C. -/
def crcByte (c : Nat) (b : Byte) : Nat :=
  crcStep (crcStep (crcStep (crcStep (crcStep (crcStep (crcStep (crcStep (c ^^^ b.toNat))))))))

/-- The CRC-32C of a byte run: reflected, initial value and final XOR all ones. -/
def crc32c (bs : List Byte) : Nat := (bs.foldl crcByte 0xFFFFFFFF) ^^^ 0xFFFFFFFF

/-- The numbers from a, n of them. -/
def upto (a n : Nat) : List Nat := (List.range n).map (· + a)

/-- n positions from o cut at every multiple of m: the pieces as (first, length). -/
def cutAt (m : Nat) (o n : Nat) (fuel : Nat) : List (Nat × Nat) :=
  match fuel with
  | 0 => []
  | k + 1 =>
    if n = 0 then []
    else
      let c := min n (m - o % m)
      (o, c) :: cutAt m (o + c) (n - c) k

/-- n positions from o cut at every 4,096. -/
def cut4k (o n : Nat) : List (Nat × Nat) := cutAt 4096 o n (n / 4096 + 2)

/-- The first element of a list that meets a test, with the list without it. -/
def takeFirst {α : Type} (p : α → Bool) : List α → Option (α × List α)
  | [] => none
  | x :: r => if p x then some (x, r) else (takeFirst p r).map fun (y, t) => (y, x :: t)

/-- A list with its first element that meets a test replaced. -/
def updFirst {α : Type} (p : α → Bool) (f : α → α) : List α → List α
  | [] => []
  | x :: r => if p x then f x :: r else x :: updFirst p f r

/-- An element put into a sorted list before the first one it may precede. -/
def insertBy {α : Type} (le : α → α → Bool) (x : α) : List α → List α
  | [] => [x]
  | y :: r => if le x y then x :: y :: r else y :: insertBy le x r

/-- A list sorted by an order. -/
def sortBy {α : Type} (le : α → α → Bool) : List α → List α
  | [] => []
  | x :: r => insertBy le x (sortBy le r)

/-- Does a number occur in a list? -/
def memNat (n : Nat) (l : List Nat) : Bool := l.any (· == n)

/-- A sparse map: entries by rising key. -/
abbrev SMap (α : Type) := List (Nat × α)

/-- The entry at a key. -/
def SMap.find {α : Type} (m : SMap α) (k : Nat) : Option α :=
  match m with
  | [] => none
  | (j, a) :: r => if j = k then some a else SMap.find r k

/-- The entry at a key, or a default. -/
def SMap.getD {α : Type} (m : SMap α) (k : Nat) (d : α) : α := (SMap.find m k).getD d

/-- The map without a key. -/
def SMap.erase {α : Type} (m : SMap α) (k : Nat) : SMap α :=
  match m with
  | [] => []
  | (j, a) :: r => if j = k then SMap.erase r k else (j, a) :: SMap.erase r k

/-- The map with a key set; keys stay in rising order. -/
def SMap.put {α : Type} (m : SMap α) (k : Nat) (v : α) : SMap α :=
  match m with
  | [] => [(k, v)]
  | (j, a) :: r =>
    if j < k then (j, a) :: SMap.put r k v else if j = k then (k, v) :: r else (k, v) :: (j, a) :: r

/-- The map with a key set, where a default value is not listed. -/
def SMap.setD {α : Type} [DecidableEq α] (m : SMap α) (k : Nat) (d v : α) : SMap α :=
  if v = d then SMap.erase m k else SMap.put m k v

/-- One byte of a sparse memory; an unlisted byte reads 0. -/
def memRead (m : List (Nat × Byte)) (a : Nat) : Byte := SMap.getD m a 0#8

/-- A byte written to a sparse memory, in canonical form. -/
def memWrite (m : List (Nat × Byte)) (a : Nat) (b : Byte) : List (Nat × Byte) := SMap.setD m a 0#8 b

/-- n bytes of a sparse memory from an address. -/
def memReadN (m : List (Nat × Byte)) (a n : Nat) : List Byte := (upto a n).map (memRead m)

/-- A byte run written to a sparse memory from an address up. -/
def memWriteN (m : List (Nat × Byte)) (a : Nat) (bs : List Byte) : List (Nat × Byte) :=
  match bs with
  | [] => m
  | b :: r => memWriteN (memWrite m a b) (a + 1) r

/-- A sparse memory whose bytes from a to a + n - 1 all read 0. -/
def memClear (m : List (Nat × Byte)) (a n : Nat) : List (Nat × Byte) :=
  m.filter fun e => e.1 < a || a + n ≤ e.1

/-- The listed bytes from a to a + n - 1, with their addresses taken from a. -/
def memSlice (m : List (Nat × Byte)) (a n : Nat) : List (Nat × Byte) :=
  (m.filter fun e => a ≤ e.1 && e.1 < a + n).map fun e => (e.1 - a, e.2)

/-- A sparse memory whose bytes from a to a + n - 1 are those of a slice. -/
def memPlace (m : List (Nat × Byte)) (a n : Nat) (sl : List (Nat × Byte)) : List (Nat × Byte) :=
  sl.foldl (fun m e => memWrite m (a + e.1) e.2) (memClear m a n)

/-- The canonical form of a sparse memory: addresses strictly rise and no listed byte is 0. -/
def Mem.wf : List (Nat × Byte) → Bool
  | [] => true
  | (_, b) :: [] => b != 0#8
  | (a, b) :: (a', b') :: r => b != 0#8 && decide (a < a') && Mem.wf ((a', b') :: r)

/-- A received status as this device reports it: codes 10 to 15 are never reported, and count as FAULT (00 R25, R26; log
93). -/
def reported (st : Nat) : Nat := if st ≤ 9 then st else 9

end Sys2Proof.Machine
end

