-- ==== Sys2Proof/Machine/Flags.lean ====
section
/-! DEFINITION. Sys2Proof/Machine/Flags.lean: the number formats, the exact arithmetic over them and the sticky flags
it sets: element formats (02_engines.md R60 to R63), columns (R64 to R75), long accumulators (R76 to R82), order
(R85 to R88), subnormals (R89 to R92), and the conversion unit (03_conversion.md R95 to R124). -/

namespace Sys2Proof.Machine

/-! ### Exact values -/

/-- m x 2^e rounded toward minus infinity to an integer. -/
def scaleFloor (m : Int) (e : Int) : Int :=
  if 0 ≤ e then m * 2 ^ e.toNat else m / 2 ^ (-e).toNat

/-- The signed integer of a sign and a magnitude. -/
def signed (neg : Bool) (m : Nat) : Int := if neg then -(m : Int) else m

/-- floor(log2(n/d x 2^q)) for n and d above 0. -/
def floorLog2 (n d : Nat) (q : Int) : Int :=
  let k : Int := (Nat.log2 n : Int) - (Nat.log2 d : Int)
  (if d * 2 ^ k.toNat ≤ n * 2 ^ (-k).toNat then k else k - 1) + q

/-- Is n/d x 2^q at least m x 2^p? -/
def geScaled (n d : Nat) (q : Int) (m : Nat) (p : Int) : Bool :=
  m * d * 2 ^ (p - q).toNat ≤ n * 2 ^ (q - p).toNat

/-- The exact sum of two dyadic values, as a signed integer on the finer grid. -/
def addDyadic (m1 q1 m2 q2 : Int) : Int × Int :=
  let q := min q1 q2
  (m1 * 2 ^ (q1 - q).toNat + m2 * 2 ^ (q2 - q).toNat, q)

/-- n/d x 2^(-0) rounded to an integer, ties to even. -/
def rneNat (n d : Nat) : Nat :=
  let k := n / d
  let r := n % d
  if 2 * r > d ∨ (2 * r = d ∧ k % 2 = 1) then k + 1 else k

/-! ### Formats (R60 to R63) -/

/-- Exponent bits of a floating-point format (Table ENG-3). -/
def ebits : Fmt → Nat
  | .fp4 => 2 | .e2m3 => 2 | .e3m2 => 3 | .e4m3 => 4 | .e5m2 => 5 | .fp16 => 5 | .bf16 => 8 | .fp32 => 8
  | .int4 => 0 | .int8 => 0 | .int32 => 0
/-- Mantissa bits of a floating-point format (Table ENG-3). -/
def mbits : Fmt → Nat
  | .fp4 => 1 | .e2m3 => 3 | .e3m2 => 2 | .e4m3 => 3 | .e5m2 => 2 | .fp16 => 10 | .bf16 => 7 | .fp32 => 23
  | .int4 => 0 | .int8 => 0 | .int32 => 0
/-- Exponent bias of a floating-point format (Table ENG-3). -/
def bias : Fmt → Nat
  | .fp4 => 1 | .e2m3 => 1 | .e3m2 => 3 | .e4m3 => 7 | .e5m2 => 15 | .fp16 => 15 | .bf16 => 127 | .fp32 => 127
  | .int4 => 0 | .int8 => 0 | .int32 => 0
/-- Element width in bits. -/
def widthOf : Fmt → Nat
  | .fp4 => 4 | .e2m3 => 6 | .e3m2 => 6 | .e4m3 => 8 | .e5m2 => 8 | .fp16 => 16 | .bf16 => 16 | .fp32 => 32
  | .int4 => 4 | .int8 => 8 | .int32 => 32
/-- Is the format one of integers? -/
def isInt : Fmt → Bool
  | .int4 => true | .int8 => true | .int32 => true
  | .fp4 => false | .e2m3 => false | .e3m2 => false | .e4m3 => false | .e5m2 => false
  | .fp16 => false | .bf16 => false | .fp32 => false
/-- Is the format BF16, FP16 or FP32, the ones that FTZ governs (R89)? -/
def isWide : Fmt → Bool
  | .fp16 => true | .bf16 => true | .fp32 => true
  | .fp4 => false | .e2m3 => false | .e3m2 => false | .e4m3 => false | .e5m2 => false
  | .int4 => false | .int8 => false | .int32 => false
/-- Does the format have infinities (Table ENG-3)? -/
def hasInf : Fmt → Bool
  | .e5m2 => true | .fp16 => true | .bf16 => true | .fp32 => true
  | .fp4 => false | .e2m3 => false | .e3m2 => false | .e4m3 => false
  | .int4 => false | .int8 => false | .int32 => false
/-- The exponent of a format's smallest normal value. -/
def emin (f : Fmt) : Int := 1 - (bias f : Int)
/-- The logarithm of a plain narrow format's quantum (Table ENG-5). -/
def quantumLog : Fmt → Int
  | .fp4 => -1 | .e2m3 => -3 | .e3m2 => -4 | .e4m3 => -9 | .e5m2 => -16
  | .int4 => 0 | .int8 => 0 | .int32 => 0 | .bf16 => -133 | .fp16 => -24 | .fp32 => -149
/-- The canonical NaN of a format (R63); 0 where it has none. -/
def canonNan : Fmt → Nat
  | .fp32 => 0x7FC00000 | .bf16 => 0x7FC0 | .fp16 => 0x7E00 | .e4m3 => 0x7F | .e5m2 => 0x7E
  | .fp4 => 0 | .e2m3 => 0 | .e3m2 => 0 | .int4 => 0 | .int8 => 0 | .int32 => 0
/-- The code of a format's largest finite magnitude, positive (Table CNV-3). -/
def maxCode : Fmt → Nat
  | .fp4 => 0x7 | .e2m3 => 0x1F | .e3m2 => 0x1F | .e4m3 => 0x7E | .e5m2 => 0x7B | .fp16 => 0x7BFF
  | .bf16 => 0x7F7F | .fp32 => 0x7F7FFFFF | .int4 => 0x7 | .int8 => 0x7F | .int32 => 0x7FFFFFFF
/-- A magnitude code with a sign, in a floating-point format. -/
def withSign (f : Fmt) (neg : Bool) (c : Nat) : Nat := if neg then c + 2 ^ (widthOf f - 1) else c
/-- The code of an infinity. -/
def infCode (f : Fmt) (neg : Bool) : Nat := withSign f neg ((2 ^ ebits f - 1) * 2 ^ mbits f)
/-- The code of the largest finite value of a sign; the integers' negative end is the smallest code value. -/
def maxSigned (f : Fmt) (neg : Bool) : Nat :=
  if isInt f then (if neg then 2 ^ (widthOf f - 1) else maxCode f) else withSign f neg (maxCode f)

/-- The value of an element code (Table ENG-3, R62). -/
def decodeElem (f : Fmt) (code : Nat) : Num :=
  if isInt f then
    let z := sext (widthOf f) code
    .fin (z < 0) z.natAbs 0
  else
    let mb := mbits f
    let m := code % 2 ^ mb
    let e := (code / 2 ^ mb) % 2 ^ ebits f
    let s := bit code (widthOf f - 1)
    if hasInf f ∧ e = 2 ^ ebits f - 1 then (if m = 0 then .inf s else .nan)
    else if f = .e4m3 ∧ e = 15 ∧ m = 7 then .nan
    else if e = 0 then .fin s m (1 - (bias f : Int) - mb)
    else .fin s (m + 2 ^ mb) ((e : Int) - bias f - mb)

/-- An element as a core reads it: with FTZ a wide subnormal is a zero of its sign and sets FLUSHED (R89, R91). -/
def readElem (f : Fmt) (ftz : Bool) (code : Nat) : Num × FpFlags :=
  let m := code % 2 ^ mbits f
  let e := (code / 2 ^ mbits f) % 2 ^ ebits f
  if ftz ∧ isWide f ∧ e = 0 ∧ m ≠ 0 then
    (.fin (bit code (widthOf f - 1)) 0 0, { FpFlags.none with flushed := true })
  else (decodeElem f code, FpFlags.none)

/-- Is an FP32 code a normal finite value, as a per-tensor scale must be (R81)? -/
def normalFp32 (code : Nat) : Bool :=
  let e := (code / 2 ^ 23) % 256
  e != 0 && e != 255
/-- Is an FP32 code finite? -/
def finiteFp32 (code : Nat) : Bool := (code / 2 ^ 23) % 256 != 255
/-- Is an FP32 code a NaN? -/
def isNanFp32 (code : Nat) : Bool := (code / 2 ^ 23) % 256 == 255 && code % 2 ^ 23 != 0

/-- FP32 1.0. -/
def one32 : Nat := 0x3F800000

/-- The unbiased exponent of a normal FP32 scale (R75, R82). -/
def scaleExp (code : Nat) : Int := ((code / 2 ^ 23) % 256 : Nat) - (127 : Int)
/-- The signed significand of a normal FP32 scale, on the grid 2^-23 (R80, R82). -/
def scaleSig (code : Nat) : Int := signed (bit code 31) (code % 2 ^ 23 + 2 ^ 23)

/-- A number times 2^k. -/
def Num.shift : Num → Int → Num
  | .nan, _ => .nan
  | .inf n, _ => .inf n
  | .fin n m q, k => .fin n m (q + k)

/-- Is a number a zero? -/
def Num.isZero : Num → Bool
  | .fin _ m _ => m == 0
  | .nan => false
  | .inf _ => false

/-- The exact product; zero times infinity is an invalid operation and is flagged. The product of two infinities is an
infinity by the exclusive OR of their signs and is not flagged: R73 names infinity with a nonzero finite value alone
(DESIGN CHOICE, log 91). -/
def Num.mul : Num → Num → Num × Bool
  | .nan, _ => (.nan, false)
  | _, .nan => (.nan, false)
  | .inf a, .inf b => (.inf (a != b), false)
  | .inf a, .fin b m _ => if m = 0 then (.nan, true) else (.inf (a != b), false)
  | .fin a m _, .inf b => if m = 0 then (.nan, true) else (.inf (a != b), false)
  | .fin a m q, .fin b n r => (.fin (a != b) (m * n) (q + r), false)

/-- The exact sum under IEEE 754-2019: an exact zero is -0 only if both operands are -0; opposite infinities make a
NaN, and say so. -/
def Num.add : Num → Num → Num × Bool
  | .nan, _ => (.nan, false)
  | _, .nan => (.nan, false)
  | .inf a, .inf b => if a = b then (.inf a, false) else (.nan, true)
  | .inf a, .fin _ _ _ => (.inf a, false)
  | .fin _ _ _, .inf b => (.inf b, false)
  | .fin a m q, .fin b n r =>
    let s := addDyadic (signed a m) q (signed b n) r
    if s.1 = 0 then (.fin (a && b && m == 0 && n == 0) 0 0, false)
    else (.fin (s.1 < 0) s.1.natAbs s.2, false)

/-! ### Order (R85 to R87) -/

/-- Is a (not a NaN) below b, with -0 below +0 (R86)? -/
def Num.lt : Num → Num → Bool
  | .nan, _ => false
  | _, .nan => false
  | .inf a, .inf b => a && !b
  | .inf a, .fin _ _ _ => a
  | .fin _ _ _, .inf b => !b
  | .fin a m q, .fin b n r =>
    if m == 0 && n == 0 then a && !b
    else (addDyadic (signed b n) r (-(signed a m)) q).1 > 0

/-- IEEE 754-2019 maximum and minimum (R86) of two numbers. -/
def Num.max (a b : Num) : Num :=
  match a, b with
  | .nan, _ => .nan
  | _, .nan => .nan
  | x, y => if Num.lt x y then y else x
/-- IEEE 754-2019 minimum (R86). -/
def Num.min (a b : Num) : Num :=
  match a, b with
  | .nan, _ => .nan
  | _, .nan => .nan
  | x, y => if Num.lt y x then y else x

/-- The maximum or minimum of two element codes of one format, as a code: the canonical NaN if either is a NaN (R86),
a flushed subnormal as its zero (R89). -/
def pickCode (isMax : Bool) (f : Fmt) (ftz : Bool) (a b : Nat) : Nat × FpFlags :=
  let x := readElem f ftz a
  let y := readElem f ftz b
  let fl := x.2.or y.2
  let ca := if x.2.flushed then withSign f (bit a (widthOf f - 1)) 0 else a
  let cb := if y.2.flushed then withSign f (bit b (widthOf f - 1)) 0 else b
  if x.1 = .nan ∨ y.1 = .nan then (canonNan f, fl)
  else if isMax then (if Num.lt x.1 y.1 then cb else ca, fl)
  else (if Num.lt y.1 x.1 then cb else ca, fl)

/-- The place of a code in IEEE 754-2019 totalOrder (R87), as an integer that rises with it; integers by value. -/
def totalKey (f : Fmt) (code : Nat) : Int :=
  if isInt f then sext (widthOf f) code
  else
    let mag := code % 2 ^ (widthOf f - 1)
    if bit code (widthOf f - 1) then -(mag : Int) - 1 else mag

/-! ### Columns (R64 to R75) -/

/-- The growth loop of R71: the exact sum x x 2^xq on the least grid from 2^e up that keeps 56 bits; the fuel bounds the
search, and a sum of two 56-bit terms needs one step of it. -/
def growTo (x xq : Int) : Nat → Int → Int × Int
  | 0, e => (scaleFloor x (xq - e), e)
  | n + 1, e =>
    let s := scaleFloor x (xq - e)
    if -(2 ^ 55 : Int) ≤ s ∧ s < 2 ^ 55 then (s, e) else growTo x xq n (e + 1)

/-- One term m x 2^q enters a wide entry (R71): the entry then holds the floor of the exact sum on its grid. -/
def columnAdd (en : BankEntry) (m : Int) (q : Int) : BankEntry :=
  if m = 0 then en
  else
    let t : Int := q + (Nat.log2 m.natAbs + 1 : Nat)
    let e0 : Int := if en.term then en.e else t - 54
    let s0 : Int := if en.term then en.s else 0
    let x := addDyadic s0 e0 m q
    let r := growTo x.1 x.2 64 (max e0 (t - 54))
    { en with s := r.1, e := r.2, term := true }

/-- The special flags and the zero-sign record of one product (R73, R74), and whether it made a NaN. -/
def enterFlags (en : BankEntry) (p : Num) (isInteger : Bool) : BankEntry :=
  let en := { en with some0 := true }
  match p with
  | .nan => { en with nan := true, allNegZ := false }
  | .inf false => { en with pinf := true, allNegZ := false }
  | .inf true => { en with ninf := true, allNegZ := false }
  | .fin n m _ => { en with allNegZ := en.allNegZ && m == 0 && n && !isInteger }

/-- One product enters an entry: exactly on the narrow path (R68), as a truncated term otherwise (R71). -/
def enterProduct (narrow integer : Bool) (en : BankEntry) (a b : Num) : BankEntry × FpFlags :=
  let p := Num.mul a b
  let en1 := enterFlags en p.1 integer
  let fl := { FpFlags.none with nangen := p.2 }
  match p.1 with
  | .fin n m q =>
    if narrow then ({ en1 with s := en1.s + scaleFloor (signed n m) (q - en1.e), term := true }, fl)
    else (columnAdd en1 (signed n m) q, fl)
  | .nan => (en1, fl)
  | .inf _ => (en1, fl)

/-- The products of one MX block enter an entry (R69): their exact sum, scaled, is one term; under a scale code 0xFF every
element is NaN (Table CNV-2). The block sum is kept on the grid 2^qb. Where a product of the block is NaN or infinite the
finite products still enter as the block's term, beside the flags (DESIGN CHOICE, log 91). -/
def enterBlock (integer : Bool) (en : BankEntry) (ps : List (Num × Num)) (ea eb : Nat) (qb : Int) :
    BankEntry × FpFlags :=
  if ea = 0xFF ∨ eb = 0xFF then ({ en with some0 := true, nan := true, allNegZ := false }, FpFlags.none)
  else
    let r := ps.foldl (fun (acc : BankEntry × Int × FpFlags) ab =>
        let p := Num.mul ab.1 ab.2
        let en1 := enterFlags acc.1 p.1 integer
        let sum := match p.1 with
          | .fin n m q => acc.2.1 + scaleFloor (signed n m) (q - qb)
          | .nan => acc.2.1
          | .inf _ => acc.2.1
        (en1, sum, acc.2.2.or { FpFlags.none with nangen := p.2 })) (en, 0, FpFlags.none)
    (columnAdd r.1 r.2.1 (qb + (ea : Int) + eb - 254), r.2.2)

/-- The partial word an entry emits at a seam's end (R67, R74, R75): `scales` is the sum of the unbiased exponents of the
per-tensor scales; a wide entry without a nonzero term emits SIG 0 and EXP 0. -/
def emitEntry (narrow : Bool) (en : BankEntry) (scales : Int) : PartialWord :=
  let negz := en.some0 && en.allNegZ
  if narrow ∨ en.term then
    { sig := en.s, exp := en.e + scales, nan := en.nan, pinf := en.pinf, ninf := en.ninf, negz := negz }
  else { sig := 0, exp := 0, nan := en.nan, pinf := en.pinf, ninf := en.ninf, negz := negz }

/-- The 16 bytes of a partial word (Table ENG-6). -/
def PartialWord.bytes (w : PartialWord) : List Byte :=
  leBytes 12 (twos 96 w.sig) ++ leBytes 2 (twos 16 w.exp) ++
    leBytes 2 (b2n w.nan + 2 * b2n w.pinf + 4 * b2n w.ninf + 8 * b2n w.negz)

/-- A partial word read from its 16 bytes (Table ENG-6). -/
def PartialWord.ofBytes (bs : List Byte) : PartialWord :=
  { sig := sext 96 (leAt bs 0 12), exp := sext 16 (leAt bs 12 2), nan := bit (byteAt bs 14) 0,
    pinf := bit (byteAt bs 14) 1, ninf := bit (byteAt bs 14) 2, negz := bit (byteAt bs 14) 3 }

/-! ### Long accumulators (R76 to R82) -/

/-- The 48 bytes of an image (Table ENG-7). -/
def Image.bytes (a : Image) : List Byte :=
  leBytes 40 (twos 320 a.val) ++ leBytes 4 a.cnt ++
    leBytes 4 (b2n a.nan + 2 * b2n a.pinf + 4 * b2n a.ninf + 8 * b2n a.nonnegz)

/-- An image read from its 48 bytes (Table ENG-7). -/
def Image.ofBytes (bs : List Byte) : Image :=
  { val := sext 320 (leAt bs 0 40), cnt := leAt bs 40 4, nan := bit (byteAt bs 44) 0,
    pinf := bit (byteAt bs 44) 1, ninf := bit (byteAt bs 44) 2, nonnegz := bit (byteAt bs 44) 3 }

/-- VAL holds 320 bits, two's complement (Table ENG-7). -/
def wrap320 (z : Int) : Int := sext 320 (twos 320 z)

/-- la_count (R78). -/
def laCount (a : Image) (n : Nat) : Image × FpFlags :=
  if a.cnt + n > 2 ^ 32 - 1 then
    ({ a with cnt := 2 ^ 32 - 1, nan := true }, { FpFlags.none with nangen := !a.nan })
  else ({ a with cnt := a.cnt + n }, FpFlags.none)

/-- la_enter (R78): a partial word enters an image exactly. -/
def laEnter (a : Image) (w : PartialWord) : Image × FpFlags :=
  let c := laCount a 1
  let a1 := { c.1 with nan := c.1.nan || w.nan, pinf := c.1.pinf || w.pinf, ninf := c.1.ninf || w.ninf,
                       nonnegz := c.1.nonnegz || !w.negz }
  if w.nan ∨ w.pinf ∨ w.ninf then (a1, c.2)
  else if geScaled w.sig.natAbs 1 w.exp 1 128 then
    (if w.sig < 0 then { a1 with ninf := true } else { a1 with pinf := true }, { c.2 with infgen := true })
  else ({ a1 with val := wrap320 (a1.val + scaleFloor w.sig (w.exp + 159)) }, c.2)

/-- la_combine (R78): a := a + b, exactly. -/
def laCombine (a b : Image) : Image × FpFlags :=
  let c := laCount a b.cnt
  ({ c.1 with nan := c.1.nan || b.nan, pinf := c.1.pinf || b.pinf, ninf := c.1.ninf || b.ninf,
              nonnegz := c.1.nonnegz || b.nonnegz, val := wrap320 (c.1.val + b.val) }, c.2)

/-- The exact value that la_emit holds before it rounds (R80), with `ga` and `gb` the signed significands of the
per-tensor scales on the grid 2^-23. -/
def laValue (a : Image) (ga gb : Int) : Num × FpFlags :=
  if a.nan ∨ (a.pinf ∧ a.ninf) then (.nan, { FpFlags.none with nangen := !a.nan })
  else if a.pinf then (.inf false, FpFlags.none)
  else if a.ninf then (.inf true, FpFlags.none)
  else
    let v := a.val * ga * gb
    if v = 0 then
      let neg := decide (a.cnt > 0) && !a.nonnegz
      (.fin (if ga * gb < 0 then !neg else neg) 0 0, FpFlags.none)
    else (.fin (v < 0) v.natAbs (-159 - 46), FpFlags.none)

/-- The significand 1.0 on the grid 2^-23: no per-tensor scale (R80). -/
def sigOne : Int := 2 ^ 23

/-- round_rne (R80): one rounding to FP32, BF16 or FP16, ties to even. -/
def roundRne (neg : Bool) (m : Nat) (q : Int) (f : Fmt) (ftz : Bool) : Nat × FpFlags :=
  if m = 0 then (withSign f neg 0, FpFlags.none)
  else
    let ql := max (floorLog2 m 1 q) (emin f) - (mbits f : Int)
    let k := rneNat (m * 2 ^ (q - ql).toNat) (2 ^ (ql - q).toNat)
    let mag := (ql + mbits f + (bias f : Int) - 1).toNat * 2 ^ mbits f + k
    if mag > maxCode f then (infCode f neg, { FpFlags.none with infgen := true })
    else if mag < 2 ^ mbits f ∧ 0 < mag ∧ ftz then (withSign f neg 0, { FpFlags.none with flushed := true })
    else (withSign f neg mag, FpFlags.none)

/-- emit_int32 (R80). -/
def emitInt32 (neg : Bool) (m : Nat) (q : Int) : Nat × FpFlags :=
  let n := rneNat (m * 2 ^ q.toNat) (2 ^ (-q).toNat)
  if neg then
    (if n > 2 ^ 31 then (0x80000000, { FpFlags.none with ovf := true }) else (twos 32 (-(n : Int)), FpFlags.none))
  else (if n > 2 ^ 31 - 1 then (0x7FFFFFFF, { FpFlags.none with ovf := true }) else (n, FpFlags.none))

/-- The code that la_emit writes for a value (R80). -/
def emitNum (v : Num) (f : Fmt) (ftz : Bool) : Nat × FpFlags :=
  if f = .int32 then
    match v with
    | .nan => (0x80000000, { FpFlags.none with ovf := true })
    | .inf false => (0x7FFFFFFF, { FpFlags.none with ovf := true })
    | .inf true => (0x80000000, { FpFlags.none with ovf := true })
    | .fin n m q => emitInt32 n m q
  else
    match v with
    | .nan => (canonNan f, FpFlags.none)
    | .inf n => (infCode f n, FpFlags.none)
    | .fin n m q => roundRne n m q f ftz

/-- la_emit (R80). -/
def laEmit (a : Image) (f : Fmt) (ga gb : Int) (ftz : Bool) : Nat × FpFlags :=
  let v := laValue a ga gb
  let e := emitNum v.1 f ftz
  (e.1, v.2.or e.2)

/-! ### Conversion (R98, R105 to R114) -/

/-- The fused step (R98): v x a + b, then the clip; the invalid product sets NANGEN. -/
def fused (v a b lo hi : Num) (clip : Bool) : Num × FpFlags :=
  let p := Num.mul v a
  let t := (Num.add p.1 b).1
  let t := if clip then Num.min (Num.max t lo) hi else t
  (t, { FpFlags.none with nangen := p.2 })

/-- The overflow threshold of a destination (Table CNV-3), as a magnitude n x 2^q; `mx` for MXINT8 elements. -/
def thr (f : Fmt) (mx neg : Bool) : Nat × Int :=
  match f with
  | .fp4 => (7, 0) | .e2m3 => (31, -2) | .e3m2 => (30, 0) | .e4m3 => (464, 0) | .e5m2 => (61440, 0)
  | .fp16 => (65520, 0) | .bf16 => (511, 119) | .fp32 => (2 ^ 25 - 1, 103)
  | .int4 => (if neg then 17 else 15, -1)
  | .int8 => (if neg then 257 else 255, if mx then -7 else -1)
  | .int32 => (2 ^ 32 + (if neg then 1 else 0) - (if neg then 0 else 1), -1)

/-- What one element's rounding gives: the code, whether it overflowed (R107) and the flags. -/
structure ElemOut where
  code : Nat
  ovf : Bool
  flags : FpFlags
deriving DecidableEq, Repr

/-- The overflow result of Table CNV-3 with the flags of R107. -/
def overflow (f : Fmt) (neg sat : Bool) : ElemOut :=
  let fl := { FpFlags.none with ovf := true }
  if !sat ∧ f = .e4m3 then ⟨0x7F, true, { fl with nangen := true }⟩
  else if !sat ∧ hasInf f then ⟨infCode f neg, true, { fl with infgen := true }⟩
  else ⟨maxSigned f neg, true, fl⟩

/-- encode (R105): one finite value n/d x 2^q of a sign rounds once, ties to even. -/
def encode (neg : Bool) (n d : Nat) (q : Int) (f : Fmt) (mx sat : Bool) : ElemOut :=
  if n = 0 then ⟨if isInt f then 0 else withSign f neg 0, false, FpFlags.none⟩
  else if geScaled n d q (thr f mx neg).1 (thr f mx neg).2 then overflow f neg sat
  else
    let ql : Int := if isInt f then (if mx then -6 else 0) else max (floorLog2 n d q) (emin f) - (mbits f : Int)
    let k := rneNat (n * 2 ^ (q - ql).toNat) (d * 2 ^ (ql - q).toNat)
    if isInt f then ⟨twos (widthOf f) (signed neg k), false, FpFlags.none⟩
    else
      let mag := (ql + mbits f + (bias f : Int) - 1).toNat * 2 ^ mbits f + k
      ⟨withSign f neg mag, false, FpFlags.none⟩

/-- The settings of one conversion (Table CNV-1): destination, saturation, fit, flush and the divisor g. -/
structure CvtParams where
  dst : Fmt
  mx : Bool
  sat : Bool
  fit : Bool
  ftz : Bool
  g : Nat
deriving DecidableEq, Repr

/-- |x| rounded toward plus infinity to FP32, as a positive code (R119). -/
def roundUp32 (n d : Nat) (q : Int) : Nat :=
  if n = 0 then 0
  else
    let ql := max (floorLog2 n d q) (-126) - 23
    let k := ceilDiv (n * 2 ^ (q - ql).toNat) (d * 2 ^ (ql - q).toNat)
    min 0x7F800000 ((ql + 149).toNat * 2 ^ 23 + k)

/-- A source value seen by the tile: AMAX, NZ and NONFIN (R109, R119). -/
def TileAcc.see (t : TileAcc) (x : Num) : TileAcc :=
  match x with
  | .fin _ m q =>
    if m = 0 then t
    else { t with amax := max t.amax (roundUp32 m 1 q), nz := satAdd 32 t.nz 1 }
  | .nan => { t with nonfin := satAdd 32 t.nonfin 1 }
  | .inf _ => { t with nonfin := satAdd 32 t.nonfin 1 }

/-- The magnitude and sign of a value divided by g (R116), as a sign, a numerator, a denominator and an exponent. -/
def divG (neg : Bool) (m : Nat) (q : Int) (g : Nat) : Bool × Nat × Nat × Int :=
  (neg != bit g 31, m, (scaleSig g).natAbs, q + 23 - scaleExp g)

/-- FTZ on a written wide result (R108). -/
def flushOut (f : Fmt) (ftz : Bool) (neg : Bool) (o : ElemOut) : ElemOut :=
  let mag := o.code % 2 ^ (widthOf f - 1)
  if ftz ∧ isWide f ∧ 0 < mag ∧ mag < 2 ^ mbits f then
    ⟨withSign f neg 0, o.ovf, { o.flags with flushed := true }⟩
  else o

/-- Is a written code a zero of its format? -/
def zeroCode (f : Fmt) (c : Nat) : Bool := if isInt f then c == 0 else c % 2 ^ (widthOf f - 1) == 0

/-- One overflow, flag and tailing of an element enters the tile's counts. -/
def TileAcc.note (t : TileAcc) (o : ElemOut) (tailing : Bool) : TileAcc :=
  { t with ovfn := satAdd 32 t.ovfn (b2n o.ovf), flags := t.flags.or o.flags, tail := satAdd 32 t.tail (b2n tailing) }

/-- A non-finite input of a plain destination (Table CNV-4). -/
def nonFinite (f : Fmt) (sat : Bool) (x : Num) : ElemOut :=
  match x with
  | .nan =>
    if hasInf f ∨ f = .e4m3 then ⟨canonNan f, false, FpFlags.none⟩
    else ⟨0, false, { FpFlags.none with ovf := true }⟩
  | .inf n =>
    if hasInf f then ⟨infCode f n, false, FpFlags.none⟩
    else if f = .e4m3 ∧ !sat then ⟨0x7F, false, { FpFlags.none with ovf := true, nangen := true }⟩
    else ⟨maxSigned f n, false, { FpFlags.none with ovf := true }⟩
  | .fin _ _ _ => ⟨0, false, FpFlags.none⟩

/-- One value converted to a plain destination (R105 to R109, R114). -/
def cvtPlain (p : CvtParams) (t : TileAcc) (x : Num) : Nat × TileAcc :=
  let t := TileAcc.see t x
  let x := match x with
    | .inf n => Num.inf (n != bit p.g 31)
    | .nan => .nan
    | .fin n m q => .fin n m q
  match x with
  | .fin n m q =>
    let y := divG n m q p.g
    let o := flushOut p.dst p.ftz y.1 (encode y.1 y.2.1 y.2.2.1 y.2.2.2 p.dst false p.sat)
    (o.code, TileAcc.note t o (m != 0 && zeroCode p.dst o.code && !o.flags.flushed))
  | .nan => let o := nonFinite p.dst p.sat .nan; (o.code, TileAcc.note t o false)
  | .inf n => let o := nonFinite p.dst p.sat (.inf n); (o.code, TileAcc.note t o false)

/-- The largest exponent of an element type (R111). -/
def emax : Fmt → Int
  | .fp4 => 2 | .e2m3 => 2 | .e3m2 => 4 | .e4m3 => 8 | .e5m2 => 15
  | .int8 => 0 | .int4 => 0 | .int32 => 0 | .fp16 => 15 | .bf16 => 127 | .fp32 => 127

/-- The larger of two magnitudes over one denominator. -/
def maxMag (a b : Nat × Int) : Nat × Int :=
  if a.1 = 0 then b else if b.1 = 0 then a else if geScaled a.1 1 a.2 b.1 b.2 then a else b

/-- block_scale (R111): the scale code of a block of values divided by g, and whether it was clamped. -/
def blockScale (ys : List Num) (f : Fmt) (fit sat : Bool) (g : Nat) : Nat × Bool :=
  if ys.any (· == .nan) then (0xFF, false)
  else if !sat ∧ !hasInf f ∧ (ys.any fun y => y == .inf true || y == .inf false) then (0xFF, false)
  else
    let a := ys.foldl (fun acc y => match y with
      | .fin _ m q => maxMag acc (m, q)
      | .nan => acc
      | .inf _ => acc) (0, 0)
    if a.1 = 0 then (0, false)
    else
      let y := divG false a.1 a.2 g
      let e0 := floorLog2 y.2.1 y.2.2.1 y.2.2.2 - emax f
      let th := thr f true false
      let e := if fit ∧ geScaled y.2.1 y.2.2.1 (y.2.2.2 - e0) th.1 th.2 then e0 + 1 else e0
      ((min (max e (-127)) 127 + 127).toNat, decide (e < -127) || decide (e > 127))

/-- One element of an MX block whose scale is `code` (R105, R109, R110). -/
def mxElem (p : CvtParams) (code : Nat) (x : Num) : ElemOut :=
  match x with
  | .fin n m q =>
    let y := divG n m q p.g
    encode y.1 y.2.1 y.2.2.1 (y.2.2.2 - ((code : Int) - 127)) p.dst true p.sat
  | .nan => ⟨0, false, FpFlags.none⟩
  | .inf n =>
    let n := n != bit p.g 31
    if hasInf p.dst then ⟨infCode p.dst n, false, FpFlags.none⟩
    else if p.sat then ⟨maxSigned p.dst n, false, { FpFlags.none with ovf := true }⟩
    else ⟨0, false, { FpFlags.none with ovf := true, nangen := true }⟩

/-- One block converted to an MX destination: its scale code, its element codes and the tile's counts
(R110 to R114). An infinity sets the flags of Table CNV-4 also where a NaN of its block takes the scale to 0xFF (R109). -/
def cvtBlock (p : CvtParams) (t : TileAcc) (xs : List Num) : Nat × List Nat × TileAcc :=
  let t := xs.foldl TileAcc.see t
  let sc := blockScale xs p.dst p.fit p.sat p.g
  let t := { t with sclip := satAdd 16 t.sclip (b2n sc.2) }
  if sc.1 = 0xFF then
    let inf := !hasInf p.dst && xs.any fun x => x == .inf true || x == .inf false
    let t := { t with nb := satAdd 16 t.nb 1, flags := t.flags.or { FpFlags.none with ovf := inf, nangen := inf && !p.sat } }
    (0xFF, xs.map fun _ => 0, t)
  else
    let os := xs.map fun x => (x, mxElem p sc.1 x)
    let allZero := xs.all Num.isZero
    let lost := os.any fun xo => xo.2.ovf && decide (p.dst = .e4m3) && !p.sat
    if lost then
      let t := os.foldl (fun t xo => TileAcc.note t xo.2 false) t
      (0xFF, xs.map fun _ => 0, { t with nb := satAdd 16 t.nb 1 })
    else
      let t := os.foldl (fun t xo =>
        TileAcc.note t xo.2 (match xo.1 with
          | .fin _ m _ => m != 0 && zeroCode p.dst xo.2.code
          | .nan => false
          | .inf _ => false)) t
      (sc.1, os.map fun xo => xo.2.code, { t with zb := satAdd 16 t.zb (b2n allZero) })

/-- The 32 bytes of a tile record (Table CNV-6). -/
def TileAcc.bytes (t : TileAcc) (g : Nat) : List Byte :=
  leBytes 4 t.amax ++ leBytes 4 g ++ leBytes 4 t.nz ++ leBytes 4 t.tail ++ leBytes 4 t.ovfn ++ leBytes 4 t.nonfin ++
    leBytes 2 t.zb ++ leBytes 2 t.nb ++ leBytes 2 t.sclip ++
    leBytes 2 (b2n t.flags.flushed + 2 * b2n t.flags.nangen + 4 * b2n t.flags.infgen + 8 * b2n t.flags.ovf)

/-- close (R121): a slot's new SCALE from its AMAX, for a plain destination. An AMAX that is not above 0, a negative word or
a NaN that software has written among them, leaves SCALE; an infinity closes as the largest scale. -/
def closeScale (amax : Nat) (old : Nat) (f : Fmt) (margin : Nat) : Nat :=
  match decodeElem .fp32 amax, decodeElem f (maxCode f) with
  | .fin neg m q, .fin _ mf qf =>
    if m = 0 ∨ neg then old
    else
      let r := roundUp32 m mf (q - qf)
      if r ≥ 0x7F800000 then 0x7F7FFFFF
      else match decodeElem .fp32 r with
        | .fin _ k p =>
          if geScaled k 1 (p + margin) (2 ^ 24 - 1) 104 then 0x7F7FFFFF
          else if geScaled k 1 (p + margin) 1 (-126) then (roundUp32 k 1 (p + margin)) else 0x00800000
        | .nan => old
        | .inf _ => 0x7F7FFFFF
  | .inf false, _ => 0x7F7FFFFF
  | _, _ => old

/-- The 16 bytes of a scale slot after a tile's update, and its close where asked (R119 to R121). AMAX rises by the maximum of
R86; a tile without a finite value counts as one of +0 (DESIGN CHOICE, log 91: it shows only where software has written a
negative AMAX). -/
def slotUpdate (old : List Byte) (t : TileAcc) (close : Bool) (f : Fmt) (margin : Nat) : List Byte :=
  let amax := (pickCode true .fp32 false (leAt old 4 4) t.amax).1
  let cnt := satAdd 32 (leAt old 8 4) 1
  let nf := bit (byteAt old 12) 0 || t.nonfin != 0
  if close then leBytes 4 (closeScale amax (leAt old 0 4) f margin) ++ zeros 12
  else leBytes 4 (leAt old 0 4) ++ leBytes 4 amax ++ leBytes 4 cnt ++ leBytes 4 (b2n nf)

/-- n elements of w bits packed into bytes, element i at bit i x w (R103). -/
def packElems (w : Nat) (codes : List Nat) : List Byte :=
  leBytes (ceilDiv (w * codes.length) 8) (codes.foldr (fun c acc => acc * 2 ^ w + c % 2 ^ w) 0)

/-- Element i, of w bits, of a packed run (R103). -/
def unpackElem (w : Nat) (run : Nat) (i : Nat) : Nat := (run >>> (w * i)) % 2 ^ w

end Sys2Proof.Machine
end

