-- ==== Sys2Proof/Config.lean ====
section
/-! DEFINITION. Sys2Proof/Config.lean: what one part fixes (fused values, log 5) and the free values the spec leaves
open (log 11). None has a body: no proof can see a value of it. -/

namespace Sys2Proof

/-- The n-th free value: a 64-bit value that the spec leaves undefined (log 11). -/
opaque Config.freeValue : Nat → BitVec 64

/-- The fused identity of the device (15_links.md `PRT_DEVID`; log 5). -/
opaque Config.devid : BitVec 64

/-- The fused FMAX of an island, by cluster number (16_power_health.md R594; log 5). -/
opaque Config.fmax : Nat → BitVec 5

/-- The fused SENS: per-island slowdown sensitivity (16_power_health.md R594; log 5). -/
opaque Config.sens : BitVec 8

/-- The fused voltage V(c) of a die for code c, in tenths of a mV (16_power_health.md R576; log 5). -/
opaque Config.volt : Nat → Nat → BitVec 16

/-- The device's stepping, counted A0 = 0 (18_startup_faults.md R639; log 5). -/
opaque Config.stepping : BitVec 4

end Sys2Proof
end

