-- ==== Sys2Proof/Machine/State.lean ====
section
/-! DEFINITION. Sys2Proof/Machine/State.lean: the state of one package as plain data: every register, table, store,
queue, counter and mode the spec gives it (INVENTORY.md, '## State'), the queue of waiting commands, and the state right
after a cold reset. -/

namespace Sys2Proof.Machine

/-- Why the machine stops with a fault. -/
inductive Fault where
  /-- Raised by a command whose data operand has not the length its row fixes: there is no such command (safe: the model
  stops where the hardware is never asked). -/
  | malformedCommand
deriving DecidableEq, Repr

/-- Why a command has no meaning in the model. -/
inductive Refusal where
  /-- Raised by an arm of exec for a row that is not modelled yet (safe). -/
  | notModelled (mnemonic : String)
deriving DecidableEq, Repr

/-! ### Frames (07_fabric_routing.md) -/

/-- A Myrik frame: the header fields of Table FAB-1 and the payload (R245, R246). `rsv1` is byte 1 bit 7, `rsv14` bytes
14 to 15 bits 15:13. -/
structure Frame where
  typ : Nat
  cls : Nat
  epoch : Nat
  mc : Bool
  gal : Bool
  grly : Bool
  defl : Bool
  hops : Nat
  rsv1 : Nat
  dst : Nat
  src : Nat
  job : Nat
  status : Nat
  age : Nat
  flow : Nat
  cid : Nat
  len : Nat
  gcoord : Nat
  rsv14 : Nat
  offset : Nat
  tally : Nat
  tsw : Nat
  ecrc : Nat
  payload : List Byte
deriving DecidableEq, Repr

/-- Where a frame came into this device: from a core (its function, its launched list and, for a COPY, the copy's name),
from the host bridge for a descriptor, from a mill's stream, from the device itself, or from a port. -/
inductive Origin where
  | core (no fn launch copy : Nat)
  | host (fn ring idx : Nat)
  | reply (d : Nat)
  | mill (m stream fn pc : Nat)
  | device (scl : Nat)
  | port (p : Nat)
deriving DecidableEq, Repr

/-! ### Cores and clusters (04_cores_clusters.md) -/

/-- A launched list (R140): its name, its function, its start address, the host descriptor that launched it and the
time base when it was launched (18_startup_faults.md R654). -/
structure Launch where
  id : Nat
  fn : Nat
  addr : Nat
  host : Nat × Nat × Nat
  time : Nat
deriving DecidableEq, Repr

/-- One active loop (R169): its index p, its body length, its remaining passes, and its entries (TGT, STRIDE) with their
offsets. -/
structure LoopSt where
  p : Nat
  back : Nat
  remaining : Nat
  entries : List (Nat × Int)
  offs : List Int
deriving DecidableEq, Repr

/-- What a running STAGE has still to do after its current sub-list (R184). -/
inductive StageTodo where
  | sub (addr : Nat)
  | offload
  | keepEnd
deriving DecidableEq, Repr

/-- The outer list of a running STAGE: where it stands, its loops and the STAGE descriptor's bytes. -/
structure OuterSt where
  base : Nat
  idx : Nat
  loops : List LoopSt
  desc : List Byte
  todo : List StageTodo
deriving DecidableEq, Repr

/-- How far the descriptor at hand has come: issued and not yet carried out, a WAIT that waits since a lamp time, or
carried out and not yet completed. -/
inductive Phase where
  | issued
  | waiting (since : Nat)
  | done
deriving DecidableEq, Repr

/-- How far the descriptor at hand has been carried out where it stands at a tile boundary inside it (R45, R157, R159, R161,
R162; 05 R215):
- a MATMUL: the seam steps and emissions done, the emission's counts, the bytes at IMG as the descriptor started (R156), and
  the transient images of the block in hand (R155);
- a REDUCE: the outputs done, the emission's counts, and the values of the MX block in hand;
- a SPARSE: the stored rows done, the live octets, the raw spilled records with their slots, and the emission's counts;
- a COPY: the 4 KiB pieces moved. -/
inductive Part where
  | matmul (steps : Nat) (ea : EmitAcc) (init : List Byte) (ims : List Image)
  | reduce (outs : Nat) (ea : EmitAcc) (vals : List Num)
  | sparse (rows : Nat) (octs : List Octet) (recs : List (Nat × Octet)) (ea : EmitAcc)
  | copy (pieces : Nat)
deriving DecidableEq, Repr

/-- A running list (R139 to R143): the (sub-)list's base and index, its loops, the 64 bytes of the descriptor at hand as
issued, and the outer list of a STAGE. `copy` names the COPY whose frames must be admitted before it completes (R164).
`par` is the parameter block of the descriptor at hand with its g and its defaults, `seam` the die's default SEAM, and `det`
`GLB_MODE.DET`, all read once, as it was issued (03 R117; 13 R503, Table DET-4). `part` is its progress at a tile boundary. -/
structure RunList where
  launch : Launch
  base : Nat
  idx : Nat
  loops : List LoopSt
  desc : List Byte
  phase : Phase
  outer : Option OuterSt
  copy : Nat
  det : Bool
  par : Option Params
  seam : Nat
  part : Option Part
deriving DecidableEq, Repr

/-- An asynchronous copy (R145): its name, its function and list, its descriptor as issued, the tally it adds to, its offload
of a STAGE (the SAVE range) where it is one, the pieces of it that have been moved, and whether it is paused (R178). -/
structure AsyncCopy where
  id : Nat
  fn : Nat
  launch : Nat
  desc : List Byte
  dt : Nat
  save : Option (Nat × Nat)
  moved : Nat
  paused : Bool
deriving DecidableEq, Repr

/-- One function's sequencer state on one core: queued launches, the running list, asynchronous copies and the
per-work-list flags. -/
structure SeqSt where
  queue : List Launch
  run : Option RunList
  copies : List AsyncCopy
  flags : FpFlags
deriving DecidableEq, Repr

/-- A pillar of a cluster (R171): base and length. -/
structure Pillar where
  base : Nat
  len : Nat
deriving DecidableEq, Repr

/-- A KEEPG protection (R184): cluster, function, and the GATH range. -/
structure KeepG where
  clu : Nat
  fn : Nat
  base : Nat
  len : Nat
deriving DecidableEq, Repr

/-- A switch in progress (R182): the incoming slot, whether the save is still running (else the restore), how many 4 KiB
blocks of the transfer are done, and the ns that the block in transfer has taken. -/
structure SwitchSt where
  slot : Nat
  saving : Bool
  blocks : Nat
  ns : Nat
deriving DecidableEq, Repr

/-- A cluster's sharing state (R175 to R182): when the resident slot's quantum started, whether it has expired, and a
switch in progress. -/
structure SlotSt where
  start : Nat
  expired : Bool
  switch : Option SwitchSt
deriving DecidableEq, Repr

/-- The cores, clusters and stores. Keys: cores 64 (160 d + i) + c, then functions; clusters 160 d + i; pillar slots 8
per cluster; store bytes 2^24 x cluster number + local address (Table CORE-2). `storeUe` lists the lines with a
standing uncorrectable error, true once their first detection has counted as an event (R135). -/
structure ComputeSt where
  seqs : List (Nat × List (Nat × SeqSt))
  pillars : List (Nat × Pillar)
  keepg : List KeepG
  slots : List (Nat × SlotSt)
  store : List Host.Cell
  storeUe : List (Nat × Bool)
deriving DecidableEq, Repr

/-! ### Deep store and memory operations (06_deep_store.md, 10_memory_ops.md) -/

/-- A row being copied to a spare (06 R239). -/
structure RowCopy where
  row : Nat
  spare : Nat
deriving DecidableEq, Repr

/-- Deep store: its bytes by device address, the 64-byte codewords with a standing uncorrectable error (R235), the
retired rows in use (R240: a row and the spare it was copied to, oldest first; of a row's entries the last is the mapping in
use, and a spare once taken is never free again), what the boot flash's record says of them, the copies in progress (R239), the banks with no free spare (R241), where each
stack's scrub pass stands, and the pseudo-channels that are lost, 32 per stack (R242). Rows are numbered by `rowNo`. -/
structure DeepSt where
  mem : List Host.Cell
  ue : List Nat
  rowMap : List (Nat × Nat)
  rowLog : List (Nat × Nat)
  copies : List RowCopy
  exhausted : List Nat
  scrubPos : List (Nat × Nat)
  lost : List Nat
deriving DecidableEq, Repr

/-- A translation window, as its 32 bytes read (Table MEM-1). -/
structure Window where
  obase : Nat
  job : Nat
  mcg : Bool
  len : Nat
  fn : Nat
  taddr : Nat
  die : Nat
  deep : Bool
  clidx : Nat
  ep : Nat
  slo : Nat
  shi : Nat
  perm : Nat
deriving DecidableEq, Repr

/-- One entry of the refusal log (Table MEM-6). -/
structure RefLog where
  time : Nat
  src : Nat
  dst : Nat
  job : Nat
  typ : Nat
  reason : Nat
  offset : Nat
deriving DecidableEq, Repr

/-- An outstanding READ or ATOMIC request (10 R399): whom it serves, what it expects and when its frame was admitted. -/
structure Request where
  fn : Nat
  ring : Nat
  idx : Nat
  dst : Nat
  src : Nat
  job : Nat
  admitted : Option Nat
deriving DecidableEq, Repr

/-- An atomic waiting at its unit (10 R402), with its name `uid`: the frame, its window, and its target: deep store or a cluster by number, the
address, the die and the owning function. -/
structure AtomicOp where
  f : Frame
  win : Nat
  deep : Bool
  addr : Nat
  die : Nat
  clu : Nat
  fn : Nat
  uid : Nat
deriving DecidableEq, Repr

/-- A tally (R392, Table MEM-3): COUNT, the owning function, and VALID. -/
structure Tally where
  count : Nat
  fn : Nat
  valid : Bool
deriving DecidableEq, Repr

/-- A tally that no function holds. -/
def Tally.free : Tally := ⟨0, 0, false⟩

/-- Memory operations: windows by number, the refusal record's counters and log, the next log entry, tallies by
16,384 die + index, requests by RTAG, atomics in order. -/
structure RemoteSt where
  windows : List (Nat × Window)
  refCounts : List (Nat × Nat)
  refLog : List (Nat × RefLog)
  refNext : Nat
  tallies : List (Nat × Tally)
  requests : List (Nat × Request)
  atomics : List AtomicOp
deriving DecidableEq, Repr

/-! ### Host interface (14_host.md) -/

/-- One ring of a function (R517): its entry's fields and its running indices. `sqt` is the last tail seen, `head` the
completion head last read, `done` the completion records written, `stopped` a ring stopped with RSTAT. -/
structure Ring where
  entry : List Byte
  sqt : Nat
  sqh : Nat
  done : Nat
  head : Nat
  stopped : Bool
deriving DecidableEq, Repr

/-- One core's list of a LAUNCH (R528): the core, the list's name, its end status (none while it runs), the stopping
index, and its flags. -/
structure LaunchRes where
  core : Nat
  id : Nat
  status : Option Nat
  didx : Nat
  flags : FpFlags
deriving DecidableEq, Repr

/-- How far a host descriptor has come: fetched and not yet started, working, or ended with a status. -/
inductive HdPhase where
  | fetched
  | working
  | ended (status : Nat)
deriving DecidableEq, Repr

/-- A host descriptor fetched and not completed (R524, R527, R534); `waitFor` names the frames that a window removal waits
for (10 R386), and `moved` counts the bytes that an HCOPY has moved (R516). -/
structure HostDesc where
  fn : Nat
  ring : Nat
  idx : Nat
  bytes : List Byte
  phase : HdPhase
  lists : List LaunchRes
  drops : Nat
  result : Nat
  waitFor : List Nat
  moved : Nat
deriving DecidableEq, Repr

/-- The stages of a teardown (Table HST-10): none; the drain wait, with the lamp time in ns when it began; and the final
zeroing of the clusters that the function held alone. -/
inductive Teardown where
  | idle
  | draining (start : Nat)
  | zeroing (alone : List Nat)
deriving DecidableEq, Repr

/-- One function's live host state (R518 to R524, R538): poll interval and due time in ns of the lamp clock, last GEN seen,
last tails seen, ring entries as last taken, rings, teardown. -/
structure FnSt where
  interval : Nat
  due : Nat
  gen : Option Nat
  sqts : List Nat
  entries : List (List Byte)
  rings : List (Nat × Ring)
  teardown : Teardown
deriving DecidableEq, Repr

/-- One MSI-X vector (R536): its mask, its pending bit, its count and the time of the first counted completion with the
ring entry's MTIME; and the address and data of its table entry (R513). -/
structure Vector where
  masked : Bool
  pending : Bool
  count : Nat
  first : Nat
  mtime : Nat
  addr : Nat
  data : Nat
deriving DecidableEq, Repr

/-- A vector after a reset of its function's configuration space: masked (log 51). -/
def Vector.start : Vector := ⟨true, false, 0, 0, 0, 0, 0⟩

/-- The host interface: functions by number, descriptors in fetch order, vectors by 64 fn + vector; NumVFs and VF Enable of the
SR-IOV capability, and the codes of Max Payload Size and Max Read Request Size (128 bytes shifted by the code; R509); the
errors reported through AER by function; the function that was served last (R516); and the lamp time in ns from which the
poller may read again (R520). -/
structure HostSt where
  fns : List (Nat × FnSt)
  descs : List HostDesc
  vectors : List (Nat × Vector)
  numVfs : Nat
  vfEnable : Bool
  payload : Fin 3
  readReq : Fin 6
  aer : List (Nat × Nat)
  turn : Nat
  readAt : Nat
deriving DecidableEq, Repr

/-! ### Time and faults (13_time_determinism.md R473, 18_startup_faults.md) -/

/-- A resource whose events are counted (18 R645, Table BOOT-6). -/
inductive Res where
  | row (n : Nat)
  | lane (n : Nat)
  | port (p : Nat)
  | mill (m : Nat)
  | cluster (g : Nat)
deriving DecidableEq, Repr

/-- Fault counting and the boot-flash records: the lamp-tick times of the last events by resource, newest first (R645);
the fault record's entries with the resources retired (R648, R650). -/
structure FaultSt where
  events : List (Res × List Nat)
  retiring : List Res
  record : List Res
deriving DecidableEq, Repr

/-! ### The device's frames in hand, its outputs, its time -/

/-- A frame in this device: its name, the frame, where it came in. -/
structure Pkt where
  uid : Nat
  f : Frame
  org : Origin
deriving DecidableEq, Repr

/-- What the device puts out, in order (the model's own record, log 2). -/
inductive Emission where
  | linkUnit (port : Nat) (bytes : List Byte)
  | hostWrite (fn addr : Nat) (bytes : List Byte)
  | msix (fn vec addr data : Nat)
  | aer (fn : Nat)
  | pin (name : String) (level : Bool)
  | uart (b : Byte)
  | smbus (bytes : List Byte)
  | pcieUr (off : Nat)
  | read (off v : Nat)
  | tdo (v : Nat)
deriving DecidableEq, Repr

/-- The time base (13 R473): `now` counts 2^-32 ns in 96 bits; `lamp` counts ns of the lamp clock since the cold reset;
whether the 10 MHz input is lost (R474); the lamp time of the last GSYNC edge captured; the last multiple of the period at
which GSYNC out gave a pulse. -/
structure TimeSt where
  now : Nat
  lamp : Nat
  refLost : Bool
  capAt : Option Nat
  pulse : Nat
deriving DecidableEq, Repr

/-! ### The switch die (07, 08, 09) -/

/-- Where a translated frame goes (10 R382): the window, deep store or clusters, the target address, its die, the named
clusters of the die, and the owning function. -/
structure Target where
  win : Nat
  deep : Bool
  addr : Nat
  die : Nat
  clus : List Nat
  fn : Nat
deriving DecidableEq, Repr

/-- A frame in a packet, control, circuit or mill queue: its name, where it came in, when it entered (time base in ns),
whether it lies in the sump (R364), and the coordinate of a gallery copy that this device sent as its source (R289,
R569), and its translation once the receiver's checks have passed (10 R387). -/
structure QEntry where
  uid : Nat
  f : Frame
  org : Origin
  since : Nat
  sump : Bool
  gsrc : Option Nat
  tgt : Option Target
deriving DecidableEq, Repr

/-- A packet queue (R364): its frames, head first, and its average depth in 1/256 B (R358). -/
structure PktQ where
  frames : List QEntry
  avg : Nat
deriving DecidableEq, Repr

/-- A frame that waits for its shaper (R347): the shaper's number. -/
structure DoorPkt where
  k : Nat
  pkt : Pkt
deriving DecidableEq, Repr

/-- A frame that waits for room (R342), judged under an epoch (R660); `policed` frames have passed policing; `via` names the
port of a copy that waits for that port's control queue (R302) or of a bell that leaves by it (08 R316); `gsrc` is as in
`QEntry`; `cid` names the circuit that a bound frame waits for (08 R308, R365). -/
structure WaitPkt where
  pkt : Pkt
  policed : Bool
  epoch : Nat
  via : Option Nat
  gsrc : Option Nat
  cid : Option Nat
deriving DecidableEq, Repr

/-- A frame received on a port and not yet at the door: replayed or not (R550). -/
structure RxPkt where
  f : Frame
  rpl : Bool
deriving DecidableEq, Repr

/-- A mesh packet (Table FAB-7): KIND, ORD, PIDX, NPKT, CR, AGE, DX, DY, SCL, DSEQ (by cluster: the source cluster's for KIND 1,
each destination cluster's else, log 94), LADDR, TALLY, FN, MASK as the clusters it has still to serve, and its payload. Beside
it: the frame's name, its window, its flow (SRC, DST, JOB, FLOW) and what it adds to its tally. -/
structure MeshPkt where
  uid : Nat
  win : Nat
  flow : Nat × Nat × Nat × Nat
  kind : Nat
  ord : Bool
  idx : Nat
  npkt : Nat
  cr : Nat
  age : Nat
  dx : Nat
  dy : Nat
  scl : Nat
  dseq : List (Nat × Nat)
  addr : Nat
  tally : Nat
  tinc : Nat
  fn : Nat
  mask : List Nat
  bytes : List Byte
deriving DecidableEq, Repr

/-- The mesh of one die (R272 to R283): packets at the clusters' local ports and at the edge ports by column, head first;
packets at the routers' inputs (router, input: 0 north, 1 east, 2 south, 3 west, 4 edge) and on the links to them; how many more
cycles a router does not inject (R279); packets held out of order at clusters and at the die-link interface; packets accepted at
their cluster and not yet written; and the next DSEQ given and expected: by source cluster at the die link, by destination
cluster on the way in (R281). -/
structure MeshSt where
  inject : List (Nat × List MeshPkt)
  edge : List (Nat × List MeshPkt)
  ins : List (Nat × Nat × MeshPkt)
  links : List (Nat × Nat × MeshPkt)
  quiet : List (Nat × Nat)
  holder : List (Nat × MeshPkt)
  iface : List MeshPkt
  ready : List (Nat × MeshPkt)
  sent : List (Nat × Nat)
  got : List (Nat × Nat)
  sentTo : List (Nat × Nat)
  gotAt : List (Nat × Nat)
deriving DecidableEq, Repr

/-- A committed policer setting (R352, R376) in register units, with its buckets in 1/(1000 x 2^32) B and the time base
(2^-32 ns) of the last update. -/
structure Policer where
  en : Bool
  cir : Nat
  pir : Nat
  cbs : Nat
  pbs : Nat
  tc : Nat
  tp : Nat
  last : Nat
deriving DecidableEq, Repr

/-- A committed shaper setting (R346, R376) in register units, with its bucket and its last update as in a policer. -/
structure Shaper where
  en : Bool
  rate : Nat
  depth : Nat
  ovh : Nat
  tok : Nat
  last : Nat
deriving DecidableEq, Repr

/-- The fabric's tables, door, queues, mesh and observers. Tables are keyed bank x size + index (R257, R284, R288);
`flipAt` is the lamp time in ns of the last flip and `hold` the HOLD it took (R296). `throttles` lists the die-wide
(none) and per-function throttles that stand (R351). Bins are keyed 16 q + k (R367); `probeSeq` is each slot's next
sequence number (R369) and `probeAt` the lamp time in ns when it last sent; mirror counters are keyed 64 x point + unit (R371).
`sink` holds the circuit frames that pass into a die link (08 R312), by die; `avgAt` and `sampleAt` are the lamp times, in 1/5 ns,
of the last update of the averages and of the last histogram sample (R358, R367). -/
structure FabSt where
  routes : List (Nat × Nat)
  groups : List (Nat × Nat)
  gallery : List (Nat × Nat)
  flipAt : Nat
  hold : Nat
  door : List DoorPkt
  waiting : List WaitPkt
  queues : List (Nat × PktQ)
  ctlq : List (Nat × List QEntry)
  rx : List (Nat × List RxPkt)
  sink : List (Nat × List QEntry)
  mesh : List (Nat × MeshSt)
  recv : List QEntry
  throttles : List (Nat × Option Nat)
  pol : List (Nat × Policer)
  shp : List (Nat × Shaper)
  liveDep : List (Nat × Nat)
  liveDly : List (Nat × Nat)
  probeSeq : List (Nat × Nat)
  probeAt : List (Nat × Nat)
  avgAt : Nat
  sampleAt : Nat
  mirCnt : List (Nat × Nat)
  mirSeq : Nat
  mirRecs : List (List Byte)
  mirBuf : List (List Byte)
deriving DecidableEq, Repr

/-- A circuit frame that goes on in a later slot (R311): the port, the slot's number and the frame. -/
structure SlotFrame where
  port : Nat
  slot : Nat
  e : QEntry
deriving DecidableEq, Repr

/-- What an 8-lane port has put into a slot of its wire (R305, R658): the slot, the bytes of it that are used or withheld, and the
first slot whose guard is still free. -/
structure WireSt where
  slot : Nat
  used : Nat
  guard : Nat
deriving DecidableEq, Repr

/-- A TEARDOWN to be forwarded (R320): the CID, the port it leaves by, the status it carries and the time base in ns at
which it is due. -/
structure TearFwd where
  cid : Nat
  port : Nat
  status : Nat
  due : Nat
deriving DecidableEq, Repr

/-- A circuit descriptor that waits (R663): fn, ring, index, its CID and the lamp time in ns when REQUEST was sent. -/
structure CirWait where
  fn : Nat
  ring : Nat
  idx : Nat
  cid : Nat
  since : Nat
deriving DecidableEq, Repr

/-- Circuits: the tables keyed bank x 65,536 + index (R306, R307), each CID's live state and last refusal status as the
word of Table 2 of `CIR_TSEL`, the source queues by CID, frames waiting for slots, what the ports' slots carry, TEARDOWNs to forward, open and close
descriptors that wait, CIDs closing at their source (R663), the lamp time in ns when the drain of a shift change ends (R335),
and whether the time base has reached the `CIR_SHIFTAT` that stands (R477). -/
structure CirSt where
  entries : List (Nat × Nat)
  cages : List (Nat × Nat)
  live : List (Nat × Nat)
  srcq : List (Nat × List QEntry)
  slots : List SlotFrame
  wire : List (Nat × WireSt)
  fwd : List TearFwd
  opens : List CirWait
  closes : List CirWait
  closing : List Nat
  drain : Option Nat
  fired : Bool
deriving DecidableEq, Repr

/-! ### Ports and links (15) -/

/-- A frame sent on a link and not yet acknowledged (R554): its LSEQ, the frame as it was before it was sent, and what
its queue entry held. -/
structure SentFrame where
  lseq : Nat
  e : QEntry
deriving DecidableEq, Repr

/-- A control unit or a width change in progress (R565): the mask and width asked for, and the agreed switch with its
codeword count. -/
structure WidthSt where
  mask : Nat
  width : Nat
  at0 : Option Nat
deriving DecidableEq, Repr

/-- A port's link layer (R551 to R568): the next LSEQ, unacknowledged frames, the LSEQ expected, NAK to send, the lamp time
of the last ACK advance, of link errors in the window, and of the last change of state; why the port stops taking new frames (R564: 0
disable, 1 retrain) and since when; a width change; the peer named at the last training and whether it is retraining after it was UP (`wasUp`); the
frames in doubt that wait for a report (R568), and since when; the bells sent in FAILING; whether FAIL has been sent; when a
failed training is tried again; RESULT as held on this side: ACTIVE, WIDTH, LVL; the lanes received cleanly; the usable
lanes of the last training; the control units received and not acted on: the ACK of their head and their body. -/
structure PortSt where
  next : Nat
  unacked : List SentFrame
  ack : Nat
  nak : Bool
  advanced : Nat
  errs : List Nat
  since : Nat
  stopping : Option (Nat × Nat)
  width : Option WidthSt
  wasUp : Bool
  lastPeer : Nat
  doubt : List SentFrame
  bells : Nat
  failSent : Bool
  retry : Option Nat
  doubtAt : Nat
  result : Option (Nat × Nat × Nat)
  good : Nat
  lanes : Nat
  ctlIn : List (Nat × List Byte)
deriving DecidableEq, Repr

/-! ### Mills (11) -/

/-- A record of a sort section: KEY, IDX, TAG (bytes 8 to 13), RANK, and whether `disp` holds it (R442). -/
structure SortRec where
  key : Nat
  idx : Nat
  tag : Nat
  rank : Nat
  disp : Bool
deriving DecidableEq, Repr

/-- A gather frame held under DETL (R437): its RANK, its OFFSET, its counter index and its payload. -/
structure HeldGath where
  rank : Nat
  offset : Nat
  ctr : Nat
  payload : List Byte
deriving DecidableEq, Repr

/-- A partly filled dispatch frame of a slot (R440): the offset of its first record and its bytes. -/
structure DispFrame where
  slot : Nat
  offset : Nat
  bytes : List Byte
deriving DecidableEq, Repr

/-- A stream (Table MIL-4): its 48 loaded bytes, its live state, its registers g8 to g15, its sort section in order, its
held gather frames, whether a removal waits (R419), the host descriptors (function, ring, index) that wait for it, and whether
the last command of the table window does (R451). -/
structure StreamSt where
  bytes : List Byte
  state : Nat
  trap : Nat
  tpc : Nat
  frames : Nat
  refused : Nat
  flags : Nat
  regs : List Nat
  sort : List SortRec
  held : List HeldGath
  removing : Bool
  waiters : List (Nat × Nat × Nat)
  byWin : Bool
deriving DecidableEq, Repr

/-- A handler that runs (R421): the stream, the frame, the next address, the registers g1 to g7, and the instructions
executed. -/
structure HandlerSt where
  stream : Nat
  f : Frame
  pc : Nat
  regs : List Nat
  count : Nat
deriving DecidableEq, Repr

/-- One mill (Table MIL-1): code words, streams, the register blocks written for its streams, accumulators, counters,
dispatch slots as 16-byte numbers with their COUNT and OVER, the partly filled dispatch frames, its input (R413) and its
handler. -/
structure MillSt where
  code : List (Nat × Nat)
  streams : List (Nat × StreamSt)
  blocks : List (Nat × List Byte)
  accs : List (Nat × Image)
  ctrs : List (Nat × Nat)
  slots : List (Nat × Nat)
  counts : List (Nat × Nat × Nat)
  disp : List DispFrame
  inq : List QEntry
  run : Option HandlerSt
deriving DecidableEq, Repr

/-! ### Delay exchanges, gang and barriers (13) -/

/-- A port's delay exchanges (R480), in 1/64 ns: the send times of requests with no reply yet, the arrival times of requests
not yet answered, the last 16 round trips less 256 ns, how many of the first 16 are still to start, the lamp time in ns
when the next one is due, and the responder's offset by the last exchange, in 1/128 ns. -/
structure DelaySt where
  reqs : List Nat
  replies : List Nat
  samples : List Int
  left : Nat
  due : Nat
  offset : Int
deriving DecidableEq, Repr

/-- No exchange on a port. -/
def DelaySt.start : DelaySt := ⟨[], [], [], 0, 0, 0⟩

/-- A burst arriving on a port (R485), in 1/64 ns: its source, its length, the next BSEQ, the first frame's arrival, the sum
of timestamp less arrival, and whether it is already partial. -/
structure BurstRx where
  src : Nat
  blen : Nat
  next : Nat
  first : Nat
  sum : Int
  dead : Bool
deriving DecidableEq, Repr

/-- The gang (R483 to R493): the lamp times in ns of the last complete burst and of the last complete master burst (or of
EN), consecutive good bursts in ACQUIRE, when the next own burst is due, the sources whose bursts are to be relayed, bursts
arriving by port; each barrier's local and device counts (R497); the words of `GNG_BAR` written and not yet
committed, by 4 b + w; and the ports that have left their bond (15 R562). -/
structure GangSt where
  burstAt : Option Nat
  masterAt : Nat
  good : Nat
  nextBurst : Nat
  relay : List Nat
  bursts : List (Nat × BurstRx)
  bars : List (Nat × Nat × Nat)
  barHeld : List (Nat × Nat)
  left : List Nat
deriving DecidableEq, Repr

/-! ### Power, health and maintenance (16) -/

/-- An island's live state: a rise of its grant whose voltage is rising (the code and the lamp time in ns when the clock
switches, R579); its temperature in quarter degrees; whether it is held by THROT, since when it is at 105 degrees and whether
that has acted (R590); the neighbours it is clamped with, since when the clamp's conditions to clear hold and whether the
clamp lowered it for temperature (R581); since when its rail droops (R591); since when it is idle (R584); whether a wake event
stands for it and when its wake started (R585). -/
structure IslSt where
  rise : Option (Nat × Nat)
  temp : Int
  throt : Bool
  hot : Option Nat
  limited : Bool
  clampWith : List Nat
  clampOk : Option Nat
  clampT : Bool
  droop : Option Nat
  idleAt : Nat
  wake : Bool
  waking : Option Nat
deriving DecidableEq, Repr

/-- A deferred maintenance request (R598): its activity, its unit, the lamp time in ns, and whether it is marked late. -/
structure Deferred where
  act : Nat
  unit : Nat
  since : Nat
  late : Bool
deriving DecidableEq, Repr

/-- One record of the ageing record (R595): the time base in ns, the cluster, old MARGIN and FMAX, new MARGIN and FMAX. -/
structure AgeRec where
  time : Nat
  clu : Nat
  oldMargin : Nat
  oldFmax : Nat
  margin : Nat
  fmax : Nat
deriving DecidableEq, Repr

/-- Power and health: the lamp state (0 run, 1 lamp, 2 leaving it) and since when; islands by number; the hottest switch-die
sensor and the stacks in quarter degrees, each stack's discarded readings in a row; whether THERMTRIP_N is low; the on-die
power estimate in W and its correction; whether the cap holds grants; maintenance running and deferred, and the last request of
`PWR_MREQ`; when each stack's last scrub slice and the last sweep fell due; the ageing record; the VCORE set points in mV. -/
structure PowerSt where
  lamp : Nat
  since : Nat
  isl : List (Nat × IslSt)
  switchTemp : Int
  stackTemps : List Int
  stackBad : List Nat
  tripped : Bool
  watts : Nat
  corr : Int
  capHold : Bool
  running : List (Nat × Nat)
  deferred : List Deferred
  lastReq : Option (Nat × Nat)
  scrubAt : List (Nat × Nat)
  sweepAt : Nat
  ages : List AgeRec
  rails : List Nat
deriving DecidableEq, Repr

/-! ### Package management (17) -/

/-- A flash operation in progress (R626): OP, address, the 64 bytes of a program, and the lamp time in ns when it began. -/
structure SpiOp where
  op : Nat
  addr : Nat
  data : List Byte
  since : Nat
deriving DecidableEq, Repr

/-- The management interfaces: whether SMB0_ALERT_N is low; the receive FIFO with FE marks and the transmit FIFO; the console
log; per IMON input its last good mean in mV, its discarded readings in a row and whether its rail fell back; READ_IOUT by
rail; when SMB1's recovery repeats and whether BUS_STUCK was set for it; the flash (an unlisted byte reads 0xFF) and its operation; the test port's instruction
(0 IDCODE, 1 BYPASS, 2 SAMPLE/PRELOAD, 3 EXTEST, 4 CLAMP, 5 HIGHZ) and its boundary register; when each pulse pin's timer
expires (lamp time in ns); the straps; whether RESET_N is low;
whether the lamp clock runs on the internal oscillator (R611). -/
structure MgmtSt where
  alert : Bool
  rx : List (Nat × Bool)
  tx : List Byte
  log : List Byte
  imon : List Nat
  imonBad : List Nat
  imonFell : List Nat
  iout : List (Nat × Nat)
  stuck : Option (Nat × Bool)
  flash : List Host.Cell
  spi : Option SpiOp
  jtag : Nat
  boundary : Nat
  pulses : List (Nat × Nat)
  straps : Nat
  inReset : Bool
  osc : Bool
deriving DecidableEq, Repr

/-! ### The whole state -/

/-- The state of the block. `regs` lists the BAR0 words that differ from their reset values; `held` is a low word held
for its high word (R11, R14), `captured` the high words captured by low-word reads, by offset (R12); `outbox` the frames of local
origin not yet at the door, `inbox` the frames delivered here and not yet acted on. `pending`, `out`, `freeCtr`, `nextId` and
`ups` are the model's own (log 1 to 4, log 66): `ups` holds the upsets of the command at hand that no read has met yet, and none
between commands. -/
structure State where
  pending : List Instr
  regs : List (Nat × Nat)
  held : Option (Nat × Nat)
  captured : List (Nat × Nat)
  time : TimeSt
  comp : ComputeSt
  deep : DeepSt
  rem : RemoteSt
  host : HostSt
  flt : FaultSt
  fab : FabSt
  cir : CirSt
  ports : List (Nat × PortSt)
  mills : List (Nat × MillSt)
  sendTbl : List (Nat × Nat)
  delay : List (Nat × DelaySt)
  gang : GangSt
  power : PowerSt
  mgmt : MgmtSt
  outbox : List Pkt
  inbox : List Pkt
  out : List Emission
  freeCtr : Nat
  nextId : Nat
  ups : Upsets
deriving DecidableEq, Repr

/-! ### After reset (18_startup_faults.md R633, Table BOOT-2) -/

/-- The management interfaces after a cold reset: RESET_N is low, every queue is empty. -/
def MgmtSt.start : MgmtSt :=
  { alert := false, rx := [], tx := [], log := [], imon := List.replicate 9 0, imonBad := List.replicate 9 0,
    imonFell := [], iout := [], stuck := none, flash := [], spi := none, jtag := 0, boundary := 0, pulses := [],
    straps := 0, inReset := true, osc := false }

/-- Power and health after a cold reset. -/
def PowerSt.start : PowerSt :=
  { lamp := 0, since := 0, isl := [], switchTemp := 0, stackTemps := List.replicate 8 0, stackBad := List.replicate 8 0,
    tripped := false, watts := 0, corr := 0, capHold := false, running := [], deferred := [], lastReq := none,
    scrubAt := [], sweepAt := 0, ages := [], rails := List.replicate 8 0 }

/-- The fabric after a reset. -/
def FabSt.start : FabSt :=
  { routes := [], groups := [], gallery := [], flipAt := 0, hold := 0, door := [], waiting := [], queues := [], ctlq := [],
    rx := [], sink := [], mesh := [], recv := [], throttles := [], pol := [], shp := [], liveDep := [], liveDly := [], probeSeq := [], probeAt := [],
    avgAt := 0, sampleAt := 0,
    mirCnt := [], mirSeq := 0, mirRecs := [], mirBuf := [] }

/-- The circuits after a reset. -/
def CirSt.start : CirSt :=
  { entries := [], cages := [], live := [], srcq := [], slots := [], wire := [], fwd := [], opens := [], closes := [], closing := [],
    drain := none, fired := false }

/-- The gang and barrier unit after a reset. -/
def GangSt.start : GangSt :=
  { burstAt := none, masterAt := 0, good := 0, nextBurst := 0, relay := [], bursts := [], bars := [], barHeld := [], left := [] }

/-- The host interface after a reset: no function enabled; 512 virtual functions (log 46). -/
def HostSt.start : HostSt :=
  { fns := [], descs := [], vectors := [], numVfs := 512, vfEnable := false, payload := 0, readReq := 2, aer := [], turn := 0,
    readAt := 0 }

/-- The machine right after a cold reset, PHASE ROM, with RESET_N still low, an empty flash and no command waiting. -/
def State.reset : State :=
  { pending := [], regs := [], held := none, captured := [],
    time := ⟨0, 0, false, none, 0⟩,
    comp := ⟨[], [], [], [], [], []⟩,
    deep := ⟨[], [], [], [], [], [], [], []⟩,
    rem := ⟨[], [], [], 0, [], [], []⟩,
    host := HostSt.start,
    flt := ⟨[], [], []⟩,
    fab := FabSt.start, cir := CirSt.start, ports := [], mills := [], sendTbl := [], delay := [],
    gang := GangSt.start, power := PowerSt.start, mgmt := MgmtSt.start,
    outbox := [], inbox := [], out := [], freeCtr := 0, nextId := 0, ups := Upsets.none }

end Sys2Proof.Machine
end

