-- ==== Sys2Proof/Machine/Mesh.lean ====
section
/-! DEFINITION. Sys2Proof/Machine/Mesh.lean: a frame as bytes, its mesh packets, and one cycle of a die's mesh: ranking,
routing, deflection, acceptance, injection and re-sequencing (07_fabric_routing.md R245 to R251, R272 to R283). -/

namespace Sys2Proof.Machine

/-! ### Frames as bytes (R245, R246) -/

/-- The 28 header bytes before ECRC. -/
def Frame.head (f : Frame) : List Byte :=
  leBytes 1 (f.typ + 16 * f.cls + 64 * f.epoch) ++
  leBytes 1 (b2n f.mc + 2 * b2n f.gal + 4 * b2n f.grly + 8 * b2n f.defl + 16 * f.hops + 128 * f.rsv1) ++
  leBytes 2 f.dst ++ leBytes 2 f.src ++ leBytes 2 (f.job + 4096 * f.status) ++ leBytes 2 f.age ++ leBytes 2 f.flow ++
  leBytes 2 f.cid ++ leBytes 2 (f.len + 512 * f.gcoord + 8192 * f.rsv14) ++ leBytes 6 f.offset ++ leBytes 2 f.tally ++
  leBytes 4 f.tsw

/-- The frame as it lies on a link. -/
def Frame.toBytes (f : Frame) : List Byte := f.head ++ leBytes 4 f.ecrc ++ f.payload

/-- The frame that bytes hold. -/
def Frame.ofBytes (b : List Byte) : Frame :=
  let b0 := byteAt b 0
  let b1 := byteAt b 1
  let w6 := leAt b 6 2
  let w14 := leAt b 14 2
  { typ := b0 % 16, cls := b0 / 16 % 4, epoch := b0 / 64, mc := bit b1 0, gal := bit b1 1, grly := bit b1 2,
    defl := bit b1 3, hops := b1 / 16 % 8, rsv1 := b1 / 128, dst := leAt b 2 2, src := leAt b 4 2, job := w6 % 4096,
    status := w6 / 4096, age := leAt b 8 2, flow := leAt b 10 2, cid := leAt b 12 2, len := w14 % 512,
    gcoord := w14 / 512 % 16, rsv14 := w14 / 8192, offset := leAt b 16 6, tally := leAt b 22 2, tsw := leAt b 24 4,
    ecrc := leAt b 28 4, payload := b.drop 32 }

/-! ### Packets (R272, R273, Table FAB-7) -/

/-- A byte run cut into packets of at most 256 bytes. -/
def cutPackets (bs : List Byte) : Nat → List (List Byte)
  | 0 => []
  | n + 1 => if bs.isEmpty then [] else bs.take 256 :: cutPackets (bs.drop 256) n

/-- LINES of a packet: its payload lines, 16 written as 0. -/
def MeshPkt.lines (p : MeshPkt) : Nat := (p.bytes.length + 15) / 16 % 16

/-- The mesh header of a packet: 16 bytes, or 48 for a multicast (Table FAB-7). -/
def MeshPkt.header (p : MeshPkt) : List Byte :=
  leBytes 1 (p.kind + 4 * b2n p.ord + 8 * p.idx) ++ leBytes 1 (p.npkt + 32 * p.cr) ++ leBytes 2 p.age ++
  leBytes 1 (p.dx + 16 * p.dy) ++ leBytes 1 p.scl ++ leBytes 2 (p.dseq.headD (0, 0)).2 ++ leBytes 4 p.addr ++
  leBytes 2 p.tally ++ leBytes 2 (p.fn + 1024 * p.lines) ++
  (if p.kind = 2 then leBytes 20 (p.mask.foldl (fun m i => m + 2 ^ i) 0) ++ zeros 12 else [])

/-- CR of a frame's packets: 3 control, 2 circuit, 0 packet. -/
def crOf (cls : Nat) : Nat := if cls = 3 then 3 else if cls = 0 then 2 else 0

/-- An empty mesh. -/
def MeshSt.empty : MeshSt :=
  { inject := [], edge := [], ins := [], links := [], quiet := [], holder := [], iface := [], ready := [], sent := [],
    got := [], sentTo := [], gotAt := [] }

/-- The packets on their way to clusters or at them, in the order of their way. -/
def MeshSt.inward (m : MeshSt) : List MeshPkt :=
  (m.ready.map (·.2) ++ m.holder.map (·.2) ++ m.links.map (·.2.2) ++ m.ins.map (·.2.2) ++
    m.edge.flatMap (·.2)).filter fun p => p.kind != 1

/-- Is a packet of this frame on its way to the die link? -/
def MeshSt.crossing (m : MeshSt) (uid : Nat) : Bool :=
  let hit : MeshPkt → Bool := fun p => p.kind == 1 && p.uid == uid
  (m.inject.any fun q => q.2.any hit) || (m.ins.any fun x => hit x.2.2) || (m.links.any fun x => hit x.2.2) || m.iface.any hit

/-! ### The way of a packet (R274, R276, R277, R283) -/

/-- The neighbour of router 16y + x to the north (0, larger y), east (1, larger x), south (2) or west (3; log 94). -/
def meshNbr (r dir : Nat) : Option Nat :=
  if dir = 0 then (if r / 16 < 9 then some (r + 16) else none)
  else if dir = 1 then (if r % 16 < 15 then some (r + 1) else none)
  else if dir = 2 then (if 16 ≤ r then some (r - 16) else none)
  else (if 0 < r % 16 then some (r - 1) else none)

/-- The router that a packet makes for: the edge router of its column, its cluster, or, for a multicast that has one column
left, the lowest cluster named in it, and else the lowest column named, on row DY (R274, R283). -/
def MeshPkt.goal (p : MeshPkt) : Nat :=
  if p.kind = 1 then 16 * p.dy + p.dx
  else
    let x := p.mask.foldl (fun m i => min m (i % 16)) 15
    if p.mask.all fun i => i % 16 == x then p.mask.foldl min 159 else 16 * p.dy + x

/-- The outputs that reduce the distance from router r to router g, the larger offset first, X first when equal (R277). -/
def preferred (r g : Nat) : List Nat :=
  let ox := (g % 16 : Int) - (r % 16 : Int)
  let oy := (g / 16 : Int) - (r / 16 : Int)
  let xs := if 0 < ox then [1] else if ox < 0 then [3] else []
  let ys := if 0 < oy then [0] else if oy < 0 then [2] else []
  if oy.natAbs ≤ ox.natAbs then xs ++ ys else ys ++ xs

/-- A packet's age in units of 4 ns (R253). -/
def ageOf (now4 age : Nat) : Nat := (now4 % 65536 + 65536 - age % 65536) % 65536

/-- What a router has done with the packets of a cycle: outputs left, packets sent by direction, packets accepted here, and
packets that found no output. -/
structure HopSt where
  free : List Nat
  outs : List (Nat × MeshPkt)
  here : List MeshPkt
  stay : List MeshPkt
deriving DecidableEq, Repr

/-- A packet leaves by its first free preferred output, else by the first free one: a deflection (R277). -/
def leave (r : Nat) (a : HopSt) (p : MeshPkt) : HopSt :=
  match ((preferred r p.goal ++ [0, 1, 2, 3]).find? fun d => memNat d a.free) with
  | some d => { a with free := a.free.filter (· != d), outs := a.outs ++ [(d, p)] }
  | none => { a with stay := a.stay ++ [p] }

/-- A packet at router r: accepted here, at most two in a cycle and while the holder has room (R278, R281); a multicast goes
on with the clusters it has still to serve, and splits at a column that holds some of them, where outputs allow it (R283);
`left` packets have still to be ranked. -/
def hop (r : Nat) (room : MeshPkt → Nat → Bool) (left : Nat) (a : HopSt) (p : MeshPkt) : HopSt :=
  let home := if p.kind = 1 then p.goal == r else memNat r p.mask
  let takes := home && decide (a.here.length < 2) && room p a.here.length
  if p.kind = 1 then (if takes then { a with here := a.here ++ [p] } else leave r a p)
  else
    let b := if takes then { a with here := a.here ++ [{ p with mask := [r] }] } else a
    let q := if takes then { p with mask := p.mask.filter (· != r) } else p
    let mine := q.mask.filter fun i => i % 16 == r % 16
    let rest := q.mask.filter fun i => i % 16 != r % 16
    if q.mask.isEmpty then b
    else if r / 16 = p.dy ∧ !mine.isEmpty ∧ !rest.isEmpty ∧ left + 2 ≤ b.free.length then
      leave r (leave r b { q with mask := mine }) { q with mask := rest }
    else leave r b q

/-- Packets in rank order through a router. -/
def hops (r : Nat) (room : MeshPkt → Nat → Bool) (a : HopSt) : List MeshPkt → HopSt
  | [] => a
  | p :: ps => hops r room (hop r room ps.length a p) ps

/-! ### Re-sequencing (R281) -/

/-- Held packets that are next in order are released: by source cluster at the die-link interface. -/
def drainIface (m : MeshSt) (scl : Nat) : Nat → MeshSt
  | 0 => m
  | n + 1 =>
    match takeFirst (fun p : MeshPkt => p.scl == scl && (p.dseq.headD (0, 0)).2 == SMap.getD m.got scl 0) m.iface with
    | none => m
    | some (_, rest) =>
      drainIface { m with iface := rest, got := SMap.setD m.got scl 0 ((SMap.getD m.got scl 0 + 1) % 65536) } scl n

/-- DSEQ of a packet for a destination cluster. -/
def MeshPkt.seqFor (p : MeshPkt) (i : Nat) : Nat := SMap.getD p.dseq i 0

/-- Held packets of a cluster that are next in order become ready. -/
def drainHolder (m : MeshSt) (i : Nat) : Nat → MeshSt
  | 0 => m
  | n + 1 =>
    match takeFirst (fun x : Nat × MeshPkt => x.1 == i && x.2.seqFor i == SMap.getD m.gotAt i 0) m.holder with
    | none => m
    | some (x, rest) =>
      drainHolder { m with
        holder := rest
        ready := m.ready ++ [x]
        gotAt := SMap.setD m.gotAt i 0 ((SMap.getD m.gotAt i 0 + 1) % 65536) } i n

/-- Has the holder of a router's own destination room for a packet: the next in order, or below 1,024 at the die link and 64
at a cluster? `k` packets are accepted beside it in this cycle. -/
def holderRoom (m : MeshSt) (r : Nat) (p : MeshPkt) (k : Nat) : Bool :=
  if p.kind = 1 then
    !p.ord || (p.dseq.headD (0, 0)).2 == SMap.getD m.got p.scl 0 || decide (m.iface.length + k < 1024)
  else
    (p.ord && p.seqFor r == SMap.getD m.gotAt r 0) ||
    decide ((m.holder.filter fun x => x.1 == r).length + (m.ready.filter fun x => x.1 == r).length + k < 64)

/-- A packet accepted at router r: into the die-link interface, or at the cluster. -/
def accept (m : MeshSt) (r : Nat) (p : MeshPkt) : MeshSt :=
  if p.kind = 1 then
    if p.ord then
      let m := { m with iface := m.iface ++ [p] }
      drainIface m p.scl m.iface.length
    else m
  else if p.ord then
    let m := { m with holder := m.holder ++ [(r, p)] }
    drainHolder m r m.holder.length
  else { m with ready := m.ready ++ [(r, p)] }

/-! ### One mesh cycle -/

/-- Does packet a rank before packet b: CR, then age, then input (R276)? -/
def rankLe (now4 : Nat) (a b : Nat × MeshPkt) : Bool :=
  let x := ageOf now4 a.2.age
  let y := ageOf now4 b.2.age
  decide (b.2.cr < a.2.cr) || (a.2.cr == b.2.cr && (decide (y < x) || (x == y && decide (a.1 ≤ b.1))))

/-- The packet that a local port injects next, with the rest of its queue: no new frame of a function that is throttled
(09 R351). An ordered packet takes the next DSEQ of its source cluster (R281). -/
def nextInject (shut : Nat → Bool) (m : MeshSt) (r : Nat) : Option (MeshPkt × List MeshPkt) :=
  (takeFirst (fun p : MeshPkt => p.idx != 0 || !shut p.fn) (SMap.getD m.inject r [])).map fun x =>
    ({ x.1 with dseq := [(r, if x.1.ord then SMap.getD m.sent r 0 else 0)] }, x.2)

/-- Where a local packet goes in this cycle: an output that the ranked packets left free, or its own router's edge port. -/
def injectHop (m : MeshSt) (r : Nat) (a : HopSt) (p : MeshPkt) : Option HopSt :=
  let c := hop r (holderRoom m r) 0 a p
  if a.stay.length < c.stay.length then none else some c

/-- One cycle of router r of a mesh: its inputs are ranked and get their outputs; a packet of the edge joins them where its
neighbours leave it an output (log 94); then its local port injects, where no urgent packet was ranked in the last 32 cycles
(R276 to R279). `mhz` is the clock of the router's island. -/
def routerCycle (now4 mhz : Nat) (shut : Nat → Bool) (old m : MeshSt) (r : Nat) : MeshSt :=
  let mine := (old.ins.filter fun x => x.1 == r).map (·.2)
  let dirs := [0, 1, 2, 3].filter fun d => (meshNbr r d).isSome
  let edge := if r < 16 ∧ mine.length < dirs.length then (SMap.getD m.edge r []).head? else none
  let ranked := sortBy (rankLe now4) (mine ++ (edge.toList.map fun p => (4, p)))
  let a := hops r (holderRoom m r) ⟨dirs, [], [], []⟩ (ranked.map (·.2))
  let urgent := ranked.any fun x => decide (128 * 1000 < 4 * ageOf now4 x.2.age * mhz)
  let quiet := if urgent then 32 else SMap.getD m.quiet r 0 - 1
  let loc := match (if quiet = 0 then nextInject shut m r else none) with
    | some (p, rest) => (injectHop m r a p).map fun b => (b, p, rest)
    | none => none
  let b := match loc with
    | some (b, _, _) => b
    | none => a
  let m := match loc with
    | some (_, p, rest) =>
      { m with
        inject := SMap.setD m.inject r [] rest
        sent := if p.ord then SMap.setD m.sent r 0 ((SMap.getD m.sent r 0 + 1) % 65536) else m.sent }
    | none => m
  let m := { m with
    ins := (m.ins.filter fun x => x.1 != r) ++ b.stay.map fun p => (r, 4, p)
    edge := if edge.isSome then SMap.setD m.edge r [] ((SMap.getD m.edge r []).drop 1) else m.edge
    quiet := SMap.setD m.quiet r 0 quiet
    links := m.links ++ b.outs.filterMap fun o => (meshNbr r o.1).map fun n => (n, (o.1 + 2) % 4, o.2) }
  b.here.foldl (fun m p => accept m r p) m

/-- Is nothing on its way in a mesh? -/
def MeshSt.still (m : MeshSt) : Bool :=
  m.inject.isEmpty && m.edge.isEmpty && m.ins.isEmpty && m.links.isEmpty && m.quiet.isEmpty

/-- One mesh cycle of a die (R272, R276): every router that has packets works, and the packets on the links reach their
next routers, two cycles for each hop (Table FAB-8). -/
def meshCycle (now4 : Nat) (mhz : Nat → Nat) (shut : Nat → Bool) (m : MeshSt) : MeshSt :=
  if m.still then m
  else
    let rs := (m.ins.map (·.1) ++ m.inject.map (·.1) ++ m.edge.map (·.1) ++ m.quiet.map (·.1)).eraseDups
    let t := rs.foldl (fun t r => routerCycle now4 (mhz r) shut m t r) { m with links := [] }
    { t with ins := t.ins ++ m.links }

/-! ### Entering a mesh -/

/-- A core's frame enters the mesh at its cluster's local port as NPKT packets for the edge router of its column; packet 0
carries the Myrik header at the start of its payload (R272 to R274). -/
def injectFrame (m : MeshSt) (now4 uid i fn : Nat) (ord : Bool) (f : Frame) : MeshSt :=
  let ps := cutPackets f.toBytes 17
  let l := (ps.zip (List.range ps.length)).map fun x =>
    { uid := uid, win := 0, flow := (f.src, f.dst, f.job, f.flow), kind := 1, ord := ord, idx := x.2, npkt := ps.length,
      cr := 0, age := now4 % 65536, dx := i % 16, dy := 0, scl := i, dseq := [],
      addr := 0, tally := f.tally, tinc := 0, fn := fn, mask := [], bytes := x.1 : MeshPkt }
  { m with inject := SMap.setD m.inject i [] (SMap.getD m.inject i [] ++ l) }

/-- A delivered frame's packets enter at the edge router of their column: one packet for each 256 bytes of payload, KIND 0 for
one cluster and KIND 2 with MASK for several (R272 to R274, R285). Ordered packets take the next DSEQ of each destination
cluster (R281). -/
def edgeFrame (m : MeshSt) (uid win addr fn tinc : Nat) (clus : List Nat) (f : Frame) (mc : Bool) : MeshSt :=
  let ord := f.cls != 2
  let ps := cutPackets f.payload 17
  let x0 := clus.foldl (fun c i => min c (i % 16)) 15
  let l := (ps.zip (List.range ps.length)).map fun x =>
    { uid := uid, win := win, flow := (f.src, f.dst, f.job, f.flow), kind := if mc then 2 else 0, ord := ord, idx := x.2,
      npkt := ps.length, cr := crOf f.cls, age := f.age, dx := x0, dy := if mc then 0 else clus.headD 0 / 16, scl := 0xFF,
      dseq := clus.map fun i => (i, if ord then (SMap.getD m.sentTo i 0 + x.2) % 65536 else 0),
      addr := addr + 256 * x.2, tally := f.tally, tinc := tinc, fn := fn, mask := clus, bytes := x.1 : MeshPkt }
  if clus.isEmpty then m
  else
    { m with
      edge := SMap.put m.edge x0 (SMap.getD m.edge x0 [] ++ l)
      sentTo := if ord then
          clus.foldl (fun t i => SMap.setD t i 0 ((SMap.getD t i 0 + ps.length) % 65536)) m.sentTo
        else m.sentTo }

end Sys2Proof.Machine
end

