-- ==== Sys2Proof/Machine/Regs.lean ====
section
/-! DEFINITION. Sys2Proof/Machine/Regs.lean: the BAR0 registers of every chapter (00_scope.md R8 R9 R15 R19 R20): their
offsets, their fields with access types and reset values, and the reset word of an offset. -/

namespace Sys2Proof.Machine

/-- The access types of Table SCO-3; fields not listed are RSV. -/
inductive Acc where
  | rw | ro | wo | w1c | w1s | rwl
deriving DecidableEq, Repr

/-- One field of a register: bits hi:lo, access, reset value. -/
structure FieldRow where
  hi : Nat
  lo : Nat
  acc : Acc
  reset : Nat
deriving DecidableEq, Repr

/-- One register or register array: base offset, index dimensions (count, stride), 32-bit words, fields. -/
structure RegRow where
  base : Nat
  dims : List (Nat × Nat)
  words : Nat
  fields : List FieldRow
deriving DecidableEq, Repr

/-- `GLB_ID` (13 R507). -/
def R.glbId : Nat := 0x0
/-- `GLB_LOCK` (13 R507). -/
def R.glbLock : Nat := 0x4
/-- `GLB_MODE` (13 R507). -/
def R.glbMode : Nat := 0x8
/-- `GLB_STATUS` (13 R507). -/
def R.glbStatus : Nat := 0xC
/-- `GLB_RST` (18 R656). -/
def R.glbRst : Nat := 0x10
/-- `GLB_BOOT` (18 R656). -/
def R.glbBoot : Nat := 0x14
/-- `GLB_FWIN` (18 R656). -/
def R.glbFwin : Nat := 0x18
/-- `GLB_FCTL` (18 R656). -/
def R.glbFctl : Nat := 0x1C
/-- `GLB_FAULT` (18 R656). -/
def R.glbFault : Nat := 0x20
/-- `GLB_FSTAT` (18 R656). -/
def R.glbFstat : Nat := 0x24
/-- `GLB_FBELL` (18 R656). -/
def R.glbFbell : Nat := 0x28
/-- `GLB_FREC` (18 R656). -/
def R.glbFrec : Nat := 0x30
/-- `GLB_CNT_RETIRE` (18 R656). -/
def R.glbCntRetire : Nat := 0x34
/-- `GLB_CNT_EVICT` (18 R656). -/
def R.glbCntEvict : Nat := 0x38
/-- `PWR_CTL` (16 R602). -/
def R.pwrCtl : Nat := 0x100000
/-- `PWR_STAT` (16 R602). -/
def R.pwrStat : Nat := 0x100004
/-- `PWR_DOZET` (16 R602). -/
def R.pwrDozet : Nat := 0x100008
/-- `PWR_THERM` (16 R602). -/
def R.pwrTherm : Nat := 0x10000C
/-- `PWR_CAP` (16 R602). -/
def R.pwrCap : Nat := 0x100010
/-- `PWR_ALARM` (16 R602). -/
def R.pwrAlarm : Nat := 0x100018
/-- `PWR_MREQ` (16 R602). -/
def R.pwrMreq : Nat := 0x100020
/-- `PWR_MSTAT` (16 R602). -/
def R.pwrMstat : Nat := 0x100024
/-- `PWR_MLOG` (16 R602). -/
def R.pwrMlog : Nat := 0x100028
/-- `PWR_AGE` (16 R602). -/
def R.pwrAge : Nat := 0x100030
/-- `PWR_MCMP`, index a (16 R602). -/
def R.pwrMcmp (a : Nat) : Nat := 0x100040 + 0x4 * a
/-- `PWR_CNT_CLAMP` (16 R602). -/
def R.pwrCntClamp : Nat := 0x100060
/-- `PWR_CNT_DROOP` (16 R602). -/
def R.pwrCntDroop : Nat := 0x100064
/-- `PWR_CNT_THROT` (16 R602). -/
def R.pwrCntThrot : Nat := 0x100068
/-- `PWR_CNT_MLATE` (16 R602). -/
def R.pwrCntMlate : Nat := 0x10006C
/-- `PWR_ISL`, index k (16 R602). -/
def R.pwrIsl (k : Nat) : Nat := 0x110000 + 0x4 * k
/-- `PWR_ISLM`, index k (16 R602). -/
def R.pwrIslm (k : Nat) : Nat := 0x120000 + 0x4 * k
/-- `TB_NOW` (13 R507). -/
def R.tbNow : Nat := 0x180000
/-- `TB_SET` (13 R507). -/
def R.tbSet : Nat := 0x180008
/-- `TB_CTL` (13 R507). -/
def R.tbCtl : Nat := 0x180010
/-- `TB_RATE` (13 R507). -/
def R.tbRate : Nat := 0x180014
/-- `TB_STAT` (13 R507). -/
def R.tbStat : Nat := 0x180018
/-- `TB_GSCAP` (13 R507). -/
def R.tbGscap : Nat := 0x180020
/-- `HST_DRAIN` (14 R543). -/
def R.hstDrain : Nat := 0x200000
/-- `HST_STAT` (14 R543). -/
def R.hstStat : Nat := 0x200004
/-- `HST_ELOG` (14 R543). -/
def R.hstElog : Nat := 0x200008
/-- `HST_DLOG` (14 R543). -/
def R.hstDlog : Nat := 0x20000C
/-- `HST_CNT_POLL` (14 R543). -/
def R.hstCntPoll : Nat := 0x200010
/-- `HST_CNT_HIT` (14 R543). -/
def R.hstCntHit : Nat := 0x200014
/-- `VF_CTL`, index n (14 R543). -/
def R.vfCtl (n : Nat) : Nat := 0x300000 + 0x40 * n
/-- `VF_STATUS`, index n (14 R543). -/
def R.vfStatus (n : Nat) : Nat := 0x300004 + 0x40 * n
/-- `VF_BIND`, index n (14 R543). -/
def R.vfBind (n : Nat) : Nat := 0x300008 + 0x40 * n
/-- `VF_DB`, index n (14 R543). -/
def R.vfDb (n : Nat) : Nat := 0x300010 + 0x40 * n
/-- `VF_TALLY`, index n, d (14 R543). -/
def R.vfTally (n d : Nat) : Nat := 0x300020 + 0x40 * n + 0x4 * d
/-- `FAB_EPOCH` (07 R298). -/
def R.fabEpoch : Nat := 0x400000
/-- `FAB_FLIPAT` (07 R298). -/
def R.fabFlipat : Nat := 0x400008
/-- `FAB_RETAIN` (07 R298). -/
def R.fabRetain : Nat := 0x400010
/-- `FAB_DRAIN` (07 R298). -/
def R.fabDrain : Nat := 0x400014
/-- `FAB_HASHSEED` (07 R298). -/
def R.fabHashseed : Nat := 0x400018
/-- `FAB_LIMITS` (07 R298). -/
def R.fabLimits : Nat := 0x40001C
/-- `FAB_COORD` (07 R298). -/
def R.fabCoord : Nat := 0x400020
/-- `FAB_TSEL` (07 R298). -/
def R.fabTsel : Nat := 0x400040
/-- `FAB_TCMD` (07 R298). -/
def R.fabTcmd : Nat := 0x400044
/-- `FAB_STAT` (07 R298). -/
def R.fabStat : Nat := 0x400060
/-- `FAB_CNT_ECRC` (07 R298). -/
def R.fabCntEcrc : Nat := 0x400070
/-- `FAB_CNT_MALFORM` (07 R298). -/
def R.fabCntMalform : Nat := 0x400074
/-- `FAB_CNT_EPOCH` (07 R298). -/
def R.fabCntEpoch : Nat := 0x400078
/-- `FAB_CNT_HOPS` (07 R298). -/
def R.fabCntHops : Nat := 0x40007C
/-- `FAB_CNT_NOROUTE` (07 R298). -/
def R.fabCntNoroute : Nat := 0x400080
/-- `FAB_CNT_UNREACH` (07 R298). -/
def R.fabCntUnreach : Nat := 0x400084
/-- `FAB_TDATA`, index w (07 R298). -/
def R.fabTdata (w : Nat) : Nat := 0x400100 + 0x4 * w
/-- `CIR_CTL` (08 R337). -/
def R.cirCtl : Nat := 0x600000
/-- `CIR_SHIFTAT` (08 R337). -/
def R.cirShiftat : Nat := 0x600008
/-- `CIR_SRCQ` (08 R337). -/
def R.cirSrcq : Nat := 0x600010
/-- `CIR_PTMO` (08 R337). -/
def R.cirPtmo : Nat := 0x600014
/-- `CIR_TSEL` (08 R337). -/
def R.cirTsel : Nat := 0x600040
/-- `CIR_TCMD` (08 R337). -/
def R.cirTcmd : Nat := 0x600044
/-- `CIR_STAT` (08 R337). -/
def R.cirStat : Nat := 0x600060
/-- `CIR_CNT_FALLBACK` (08 R337). -/
def R.cirCntFallback : Nat := 0x600070
/-- `CIR_CNT_SLOTMISS` (08 R337). -/
def R.cirCntSlotmiss : Nat := 0x600074
/-- `CIR_CNT_OVERRUN` (08 R337). -/
def R.cirCntOverrun : Nat := 0x600078
/-- `CIR_TDATA`, index w (08 R337). -/
def R.cirTdata (w : Nat) : Nat := 0x600100 + 0x4 * w
/-- `CIR_PORT`, index p (08 R337). -/
def R.cirPort (p : Nat) : Nat := 0x601000 + 0x4 * p
/-- `SWQ_CTL` (09 R375). -/
def R.swqCtl : Nat := 0x800000
/-- `SWQ_EDSEED` (09 R375). -/
def R.swqEdseed : Nat := 0x800004
/-- `SWQ_EDP`, index i (09 R375). -/
def R.swqEdp (i : Nat) : Nat := 0x800010 + 0x4 * i
/-- `SWQ_HCTL` (09 R375). -/
def R.swqHctl : Nat := 0x800020
/-- `SWQ_STAT` (09 R375). -/
def R.swqStat : Nat := 0x800024
/-- `SWQ_CNT_OVERCAP` (09 R375). -/
def R.swqCntOvercap : Nat := 0x800030
/-- `SWQ_CNT_SUMP` (09 R375). -/
def R.swqCntSump : Nat := 0x800034
/-- `SWQ_CRX` (09 R375). -/
def R.swqCrx : Nat := 0x800038
/-- `SWQ_Q`, index q, w (09 R375). -/
def R.swqQ (q w : Nat) : Nat := 0x800200 + 0x10 * q + 0x4 * w
/-- `SWQ_CNY0`, index s (09 R375). -/
def R.swqCny0 (s : Nat) : Nat := 0x800800 + 0x20 * s
/-- `SWQ_CNY1`, index s (09 R375). -/
def R.swqCny1 (s : Nat) : Nat := 0x800804 + 0x20 * s
/-- `SWQ_CNY2`, index s (09 R375). -/
def R.swqCny2 (s : Nat) : Nat := 0x800808 + 0x20 * s
/-- `SWQ_CNY3`, index s (09 R375). -/
def R.swqCny3 (s : Nat) : Nat := 0x80080C + 0x20 * s
/-- `SWQ_CNY4`, index s (09 R375). -/
def R.swqCny4 (s : Nat) : Nat := 0x800810 + 0x20 * s
/-- `SWQ_CNY5`, index s (09 R375). -/
def R.swqCny5 (s : Nat) : Nat := 0x800814 + 0x20 * s
/-- `SWQ_CNY6`, index s (09 R375). -/
def R.swqCny6 (s : Nat) : Nat := 0x800818 + 0x20 * s
/-- `SWQ_HDEP`, index q, k (09 R375). -/
def R.swqHdep (q k : Nat) : Nat := 0x801000 + 0x40 * q + 0x4 * k
/-- `SWQ_HDLY`, index q, k (09 R375). -/
def R.swqHdly (q k : Nat) : Nat := 0x803000 + 0x40 * q + 0x4 * k
/-- `POL_CFG0`, index k (09 R375). -/
def R.polCfg0 (k : Nat) : Nat := 0x900000 + 0x10 * k
/-- `POL_CFG1`, index k (09 R375). -/
def R.polCfg1 (k : Nat) : Nat := 0x900004 + 0x10 * k
/-- `POL_CFG2`, index k (09 R375). -/
def R.polCfg2 (k : Nat) : Nat := 0x900008 + 0x10 * k
/-- `POL_CFG3`, index k (09 R375). -/
def R.polCfg3 (k : Nat) : Nat := 0x90000C + 0x10 * k
/-- `POL_CLASS`, index n (09 R375). -/
def R.polClass (n : Nat) : Nat := 0x908000 + 0x4 * n
/-- `POL_CNT`, index n, w (09 R375). -/
def R.polCnt (n w : Nat) : Nat := 0x90A000 + 0x10 * n + 0x4 * w
/-- `POL_STAT` (09 R375). -/
def R.polStat : Nat := 0x90F000
/-- `SHP_CFG0`, index k (09 R375). -/
def R.shpCfg0 (k : Nat) : Nat := 0xA00000 + 0x8 * k
/-- `SHP_CFG1`, index k (09 R375). -/
def R.shpCfg1 (k : Nat) : Nat := 0xA00004 + 0x8 * k
/-- `SHP_STAT` (09 R375). -/
def R.shpStat : Nat := 0xA0F000
/-- `MIR_CTL` (09 R375). -/
def R.mirCtl : Nat := 0xB00000
/-- `MIR_PIN` (09 R375). -/
def R.mirPin : Nat := 0xB00008
/-- `MIR_PEG` (09 R375). -/
def R.mirPeg : Nat := 0xB00010
/-- `MIR_JOB` (09 R375). -/
def R.mirJob : Nat := 0xB00018
/-- `MIR_RBASE` (09 R375). -/
def R.mirRbase : Nat := 0xB00020
/-- `MIR_RSIZE` (09 R375). -/
def R.mirRsize : Nat := 0xB00028
/-- `MIR_PROD` (09 R375). -/
def R.mirProd : Nat := 0xB00030
/-- `MIR_CONS` (09 R375). -/
def R.mirCons : Nat := 0xB00034
/-- `MIR_CNT_LOST` (09 R375). -/
def R.mirCntLost : Nat := 0xB00038
/-- `MIR_STAT` (09 R375). -/
def R.mirStat : Nat := 0xB0003C
/-- `MIL_ID` (11 R449). -/
def R.milId : Nat := 0xC00000
/-- `MIL_STAT` (11 R449). -/
def R.milStat : Nat := 0xC00004
/-- `MIL_TRAP` (11 R449). -/
def R.milTrap : Nat := 0xC00008
/-- `MIL_TSEL` (11 R449). -/
def R.milTsel : Nat := 0xC00040
/-- `MIL_TCMD` (11 R449). -/
def R.milTcmd : Nat := 0xC00044
/-- `MIL_TDATA`, index w (11 R449). -/
def R.milTdata (w : Nat) : Nat := 0xC00100 + 0x4 * w
/-- `MIL_UNIT`, index n (11 R449). -/
def R.milUnit (n : Nat) : Nat := 0xC01000 + 0x4 * n
/-- `MIL_CNT`, index n, w (11 R449). -/
def R.milCnt (n w : Nat) : Nat := 0xC02000 + 0x20 * n + 0x4 * w
/-- `PRT_CTL`, index p (15 R573). -/
def R.prtCtl (p : Nat) : Nat := 0x1000000 + 0x4000 * p
/-- `PRT_STAT`, index p (15 R573). -/
def R.prtStat (p : Nat) : Nat := 0x1000004 + 0x4000 * p
/-- `PRT_LANE`, index p (15 R573). -/
def R.prtLane (p : Nat) : Nat := 0x1000008 + 0x4000 * p
/-- `PRT_ELIM`, index p (15 R573). -/
def R.prtElim (p : Nat) : Nat := 0x100000C + 0x4000 * p
/-- `PRT_LVL`, index p (15 R573). -/
def R.prtLvl (p : Nat) : Nat := 0x1000010 + 0x4000 * p
/-- `PRT_DEVID`, index p (15 R573). -/
def R.prtDevid (p : Nat) : Nat := 0x1000018 + 0x4000 * p
/-- `PRT_PEER`, index p (15 R573). -/
def R.prtPeer (p : Nat) : Nat := 0x1000020 + 0x4000 * p
/-- `PRT_PEERX`, index p (15 R573). -/
def R.prtPeerx (p : Nat) : Nat := 0x1000028 + 0x4000 * p
/-- `PRT_CNT`, index p, w (15 R573). -/
def R.prtCnt (p w : Nat) : Nat := 0x1000040 + 0x4000 * p + 0x4 * w
/-- `PRT_FEC`, index p, l (15 R573). -/
def R.prtFec (p l : Nat) : Nat := 0x1000080 + 0x4000 * p + 0x4 * l
/-- `PRT_JLVL`, index j (15 R573). -/
def R.prtJlvl (j : Nat) : Nat := 0x1002000 + 0x4 * j
/-- `DST_LAYOUT` (06 R243). -/
def R.dstLayout : Nat := 0x1200000
/-- `DST_SCRUB` (06 R243). -/
def R.dstScrub : Nat := 0x1200004
/-- `DST_STAT` (06 R243). -/
def R.dstStat : Nat := 0x1200008
/-- `DST_ECC` (06 R243). -/
def R.dstEcc : Nat := 0x120000C
/-- `DST_ELOG` (06 R243). -/
def R.dstElog : Nat := 0x1200010
/-- `DST_SPARE`, index d (06 R243). -/
def R.dstSpare (d : Nat) : Nat := 0x1200020 + 0x4 * d
/-- `DST_OWN`, index g (06 R243). -/
def R.dstOwn (g : Nat) : Nat := 0x1210000 + 0x4 * g
/-- `CPX_QUANTUM`, index d (04 R187). -/
def R.cpxQuantum (d : Nat) : Nat := 0x140E000 + 0x100000 * d
/-- `CPX_CLERR`, index d (04 R187). -/
def R.cpxClerr (d : Nat) : Nat := 0x140E004 + 0x100000 * d
/-- `CPX_STECC`, index d (04 R187). -/
def R.cpxStecc (d : Nat) : Nat := 0x140E008 + 0x100000 * d
/-- `CPX_STELOG`, index d (04 R187). -/
def R.cpxStelog (d : Nat) : Nat := 0x140E00C + 0x100000 * d
/-- `CPX_FPMODE`, index d (02 R94). -/
def R.cpxFpmode (d : Nat) : Nat := 0x140F000 + 0x100000 * d
/-- `CPX_FPSTAT`, index d (02 R94). -/
def R.cpxFpstat (d : Nat) : Nat := 0x140F004 + 0x100000 * d
/-- `CPX_CNVMODE`, index d (03 R125). -/
def R.cpxCnvmode (d : Nat) : Nat := 0x140F100 + 0x100000 * d
/-- `CPX_CNVTAIL`, index d (03 R125). -/
def R.cpxCnvtail (d : Nat) : Nat := 0x140F104 + 0x100000 * d
/-- `CPX_CNVOVFN`, index d (03 R125). -/
def R.cpxCnvovfn (d : Nat) : Nat := 0x140F108 + 0x100000 * d
/-- `CPX_SPILL`, index d (05 R220). -/
def R.cpxSpill (d : Nat) : Nat := 0x140F200 + 0x100000 * d
/-- `CPX_SPSTAT`, index d (05 R220). -/
def R.cpxSpstat (d : Nat) : Nat := 0x140F204 + 0x100000 * d
/-- `CPX_SPCNT`, index d (05 R220). -/
def R.cpxSpcnt (d : Nat) : Nat := 0x140F208 + 0x100000 * d
/-- `CPX_CLOWN`, index d, i (04 R187). -/
def R.cpxClown (d i : Nat) : Nat := 0x1410000 + 0x100000 * d + 0x8 * i
/-- `GNG_CTL` (13 R507). -/
def R.gngCtl : Nat := 0x1C00000
/-- `GNG_SRC` (13 R507). -/
def R.gngSrc : Nat := 0x1C00004
/-- `GNG_UEP` (13 R507). -/
def R.gngUep : Nat := 0x1C00008
/-- `GNG_UP` (13 R507). -/
def R.gngUp : Nat := 0x1C0000C
/-- `GNG_DOWNM` (13 R507). -/
def R.gngDownm : Nat := 0x1C00010
/-- `GNG_DOWNS` (13 R507). -/
def R.gngDowns : Nat := 0x1C00018
/-- `GNG_STAT` (13 R507). -/
def R.gngStat : Nat := 0x1C00020
/-- `GNG_OFS` (13 R507). -/
def R.gngOfs : Nat := 0x1C00024
/-- `GNG_HOLD` (13 R507). -/
def R.gngHold : Nat := 0x1C00028
/-- `GNG_DPER` (13 R507). -/
def R.gngDper : Nat := 0x1C0002C
/-- `GNG_CNT_PARTIAL` (13 R507). -/
def R.gngCntPartial : Nat := 0x1C00040
/-- `GNG_CNT_BREF` (13 R507). -/
def R.gngCntBref : Nat := 0x1C00044
/-- `GNG_CNT_LATE` (13 R507). -/
def R.gngCntLate : Nat := 0x1C00048
/-- `GNG_PDLY`, index p (13 R507). -/
def R.gngPdly (p : Nat) : Nat := 0x1C00100 + 0x4 * p
/-- `GNG_BOND`, index b (13 R507). -/
def R.gngBond (b : Nat) : Nat := 0x1C00200 + 0x4 * b
/-- `GNG_BAR0`, index b (13 R507). -/
def R.gngBar0 (b : Nat) : Nat := 0x1C01000 + 0x10 * b
/-- `GNG_BAR1`, index b (13 R507). -/
def R.gngBar1 (b : Nat) : Nat := 0x1C01004 + 0x10 * b
/-- `GNG_BAR2`, index b (13 R507). -/
def R.gngBar2 (b : Nat) : Nat := 0x1C01008 + 0x10 * b
/-- `GNG_BAR3`, index b (13 R507). -/
def R.gngBar3 (b : Nat) : Nat := 0x1C0100C + 0x10 * b
/-- `MGT_CTL` (17 R631). -/
def R.mgtCtl : Nat := 0x1E00000
/-- `MGT_OWN` (17 R631). -/
def R.mgtOwn : Nat := 0x1E00004
/-- `MGT_STAT` (17 R631). -/
def R.mgtStat : Nat := 0x1E00008
/-- `UART_CTL` (17 R631). -/
def R.uartCtl : Nat := 0x1E10000
/-- `UART_STAT` (17 R631). -/
def R.uartStat : Nat := 0x1E10004
/-- `UART_DATA` (17 R631). -/
def R.uartData : Nat := 0x1E10008
/-- `I2C_CTL` (17 R631). -/
def R.i2cCtl : Nat := 0x1E20000
/-- `I2C_STAT` (17 R631). -/
def R.i2cStat : Nat := 0x1E20004
/-- `I2C_CNT_RECOV` (17 R631). -/
def R.i2cCntRecov : Nat := 0x1E20008
/-- `SPI_INFO` (17 R631). -/
def R.spiInfo : Nat := 0x1E30000
/-- `SPI_ADDR` (17 R631). -/
def R.spiAddr : Nat := 0x1E30004
/-- `SPI_CMD` (17 R631). -/
def R.spiCmd : Nat := 0x1E30008
/-- `SPI_DATA`, index w (17 R631). -/
def R.spiData (w : Nat) : Nat := 0x1E30040 + 0x4 * w
/-- `GPIO_CFG`, index n (17 R631). -/
def R.gpioCfg (n : Nat) : Nat := 0x1E40000 + 0x4 * n
/-- `GPIO_IN` (17 R631). -/
def R.gpioIn : Nat := 0x1E40040
/-- `GPIO_OUT` (17 R631). -/
def R.gpioOut : Nat := 0x1E40044
/-- `GPIO_EVT` (17 R631). -/
def R.gpioEvt : Nat := 0x1E40048

/-- The registers of the block at 0x0. -/
def regTable00 : List RegRow := [
  ⟨0x0, [], 1, [⟨31, 16, .ro, 0x9640⟩, ⟨15, 12, .ro, 0x0⟩, ⟨11, 8, .ro, 0x0⟩]⟩,
  ⟨0x4, [], 1, [⟨0, 0, .w1s, 0x0⟩]⟩,
  ⟨0x8, [], 1, [⟨0, 0, .rwl, 0x0⟩]⟩,
  ⟨0xC, [], 1, [⟨0, 0, .w1c, 0x0⟩]⟩,
  ⟨0x10, [], 1, [⟨1, 1, .wo, 0x0⟩, ⟨0, 0, .wo, 0x0⟩]⟩,
  ⟨0x14, [], 1, [⟨31, 28, .ro, 0x0⟩, ⟨27, 27, .ro, 0x0⟩, ⟨26, 26, .ro, 0x1⟩, ⟨10, 0, .ro, 0x0⟩]⟩,
  ⟨0x18, [], 1, [⟨31, 16, .rwl, 0x3E8⟩, ⟨3, 0, .rwl, 0x3⟩]⟩,
  ⟨0x1C, [], 1, [⟨1, 1, .rwl, 0x1⟩, ⟨0, 0, .rwl, 0x1⟩]⟩,
  ⟨0x20, [], 1, [⟨31, 31, .ro, 0x0⟩, ⟨19, 8, .ro, 0x0⟩, ⟨7, 0, .ro, 0x0⟩]⟩,
  ⟨0x24, [], 1, [⟨4, 4, .w1c, 0x0⟩, ⟨3, 3, .w1c, 0x0⟩, ⟨2, 2, .w1c, 0x0⟩, ⟨1, 1, .w1c, 0x0⟩, ⟨0, 0, .w1c, 0x0⟩]⟩,
  ⟨0x28, [], 2, [⟨63, 63, .w1c, 0x0⟩, ⟨59, 48, .ro, 0x0⟩, ⟨47, 32, .ro, 0x0⟩, ⟨19, 8, .ro, 0x0⟩, ⟨7, 0, .ro, 0x0⟩]⟩,
  ⟨0x30, [], 1, [⟨31, 31, .wo, 0x0⟩, ⟨26, 24, .rw, 0x0⟩, ⟨10, 0, .rw, 0x0⟩]⟩,
  ⟨0x34, [], 1, [⟨31, 0, .rw, 0x0⟩]⟩,
  ⟨0x38, [], 1, [⟨31, 0, .rw, 0x0⟩]⟩]

/-- The registers of the block at 0x100000. -/
def regTable01 : List RegRow := [
  ⟨0x100000, [], 1, [⟨8, 8, .rwl, 0x1⟩, ⟨1, 1, .wo, 0x0⟩, ⟨0, 0, .wo, 0x0⟩]⟩,
  ⟨0x100004, [], 1, [⟨7, 7, .w1c, 0x0⟩, ⟨6, 6, .w1c, 0x0⟩, ⟨5, 5, .w1c, 0x0⟩, ⟨4, 4, .w1c, 0x0⟩, ⟨3, 3, .w1c, 0x0⟩, ⟨2, 2, .w1c, 0x0⟩, ⟨1, 1, .w1c, 0x0⟩, ⟨0, 0, .w1c, 0x0⟩]⟩,
  ⟨0x100008, [], 1, [⟨15, 0, .rwl, 0x64⟩]⟩,
  ⟨0x10000C, [], 1, [⟨15, 8, .rwl, 0x64⟩, ⟨7, 0, .rwl, 0x5F⟩]⟩,
  ⟨0x100010, [], 1, [⟨11, 0, .rwl, 0xA28⟩]⟩,
  ⟨0x100018, [], 2, [⟨63, 0, .rw, 0x0⟩]⟩,
  ⟨0x100020, [], 1, [⟨31, 31, .wo, 0x0⟩, ⟨18, 16, .rw, 0x0⟩, ⟨13, 8, .rw, 0x0⟩, ⟨3, 0, .ro, 0x0⟩]⟩,
  ⟨0x100024, [], 1, [⟨12, 8, .ro, 0x0⟩, ⟨4, 0, .ro, 0x0⟩]⟩,
  ⟨0x100028, [], 1, [⟨31, 31, .w1c, 0x0⟩, ⟨26, 24, .ro, 0x0⟩, ⟨21, 16, .ro, 0x0⟩, ⟨15, 0, .ro, 0x0⟩]⟩,
  ⟨0x100030, [], 1, [⟨31, 31, .rwl, 0x1⟩, ⟨23, 16, .ro, 0x0⟩, ⟨7, 0, .rwl, 0x18⟩]⟩,
  ⟨0x100040, [(0x5, 0x4)], 1, [⟨12, 8, .ro, 0x0⟩, ⟨4, 0, .ro, 0x0⟩]⟩,
  ⟨0x100060, [], 1, [⟨31, 0, .rw, 0x0⟩]⟩,
  ⟨0x100064, [], 1, [⟨31, 0, .rw, 0x0⟩]⟩,
  ⟨0x100068, [], 1, [⟨31, 0, .rw, 0x0⟩]⟩,
  ⟨0x10006C, [], 1, [⟨31, 0, .rw, 0x0⟩]⟩,
  ⟨0x110000, [(0x500, 0x4)], 1, [⟨31, 31, .ro, 0x0⟩, ⟨30, 30, .rwl, 0x1⟩, ⟨29, 28, .ro, 0x1⟩, ⟨27, 24, .ro, 0x0⟩, ⟨20, 16, .ro, 0x0⟩, ⟨12, 8, .ro, 0x0⟩, ⟨4, 0, .rwl, 0xC⟩]⟩,
  ⟨0x120000, [(0x500, 0x4)], 1, [⟨23, 16, .ro, 0x0⟩, ⟨15, 8, .ro, 0x0⟩, ⟨7, 0, .ro, 0x0⟩]⟩,
  ⟨0x180000, [], 2, [⟨63, 0, .ro, 0x0⟩]⟩,
  ⟨0x180008, [], 2, [⟨63, 0, .rwl, 0x0⟩]⟩,
  ⟨0x180010, [], 1, [⟨31, 31, .rwl, 0x0⟩, ⟨16, 16, .rwl, 0x0⟩, ⟨15, 0, .rwl, 0x3E8⟩]⟩,
  ⟨0x180014, [], 1, [⟨31, 0, .ro, 0x0⟩]⟩,
  ⟨0x180018, [], 1, [⟨4, 4, .w1c, 0x0⟩, ⟨3, 3, .w1c, 0x0⟩, ⟨2, 2, .w1c, 0x0⟩, ⟨1, 1, .w1c, 0x0⟩, ⟨0, 0, .w1c, 0x0⟩]⟩,
  ⟨0x180020, [], 2, [⟨63, 0, .ro, 0x0⟩]⟩]

/-- The registers of the block at 0x200000. -/
def regTable02 : List RegRow := [
  ⟨0x200000, [], 1, [⟨9, 0, .rwl, 0x28⟩]⟩,
  ⟨0x200004, [], 1, [⟨2, 2, .w1c, 0x0⟩, ⟨1, 1, .w1c, 0x0⟩, ⟨0, 0, .w1c, 0x0⟩]⟩,
  ⟨0x200008, [], 1, [⟨31, 31, .w1c, 0x0⟩, ⟨13, 10, .ro, 0x0⟩, ⟨9, 0, .ro, 0x0⟩]⟩,
  ⟨0x20000C, [], 1, [⟨31, 31, .w1c, 0x0⟩, ⟨27, 16, .ro, 0x0⟩, ⟨15, 0, .ro, 0x0⟩]⟩,
  ⟨0x200010, [], 1, [⟨31, 0, .rw, 0x0⟩]⟩,
  ⟨0x200014, [], 1, [⟨31, 0, .rw, 0x0⟩]⟩]

/-- The registers of the block at 0x300000. -/
def regTable03 : List RegRow := [
  ⟨0x300000, [(0x201, 0x40)], 1, [⟨2, 2, .wo, 0x0⟩, ⟨1, 1, .wo, 0x0⟩, ⟨0, 0, .wo, 0x0⟩]⟩,
  ⟨0x300004, [(0x201, 0x40)], 1, [⟨3, 3, .w1c, 0x0⟩, ⟨2, 2, .ro, 0x1⟩, ⟨1, 0, .ro, 0x0⟩]⟩,
  ⟨0x300008, [(0x201, 0x40)], 2, [⟨44, 44, .rwl, 0x0⟩, ⟨43, 32, .rwl, 0x0⟩, ⟨31, 16, .rwl, 0x0⟩, ⟨15, 15, .rwl, 0x0⟩, ⟨11, 0, .rwl, 0x0⟩]⟩,
  ⟨0x300010, [(0x201, 0x40)], 2, [⟨63, 12, .rwl, 0x0⟩, ⟨0, 0, .rwl, 0x0⟩]⟩,
  ⟨0x300020, [(0x201, 0x40), (0x8, 0x4)], 1, [⟨30, 16, .rwl, 0x0⟩, ⟨13, 0, .rwl, 0x0⟩]⟩]

/-- The registers of the block at 0x400000. -/
def regTable04 : List RegRow := [
  ⟨0x400000, [], 1, [⟨12, 12, .wo, 0x0⟩, ⟨8, 8, .rwl, 0x0⟩, ⟨4, 4, .ro, 0x0⟩, ⟨2, 2, .ro, 0x0⟩, ⟨1, 0, .ro, 0x0⟩]⟩,
  ⟨0x400008, [], 2, [⟨63, 0, .rwl, 0x0⟩]⟩,
  ⟨0x400010, [], 1, [⟨6, 0, .rwl, 0x8⟩]⟩,
  ⟨0x400014, [], 1, [⟨23, 0, .ro, 0x0⟩]⟩,
  ⟨0x400018, [], 1, [⟨31, 16, .ro, 0x0⟩, ⟨15, 0, .rwl, 0x0⟩]⟩,
  ⟨0x40001C, [], 1, [⟨2, 0, .rwl, 0x5⟩]⟩,
  ⟨0x400020, [], 1, [⟨23, 20, .rwl, 0x0⟩, ⟨19, 16, .rwl, 0x0⟩, ⟨15, 12, .rwl, 0x0⟩, ⟨11, 8, .rwl, 0x0⟩, ⟨7, 4, .rwl, 0x0⟩, ⟨3, 0, .rwl, 0x0⟩]⟩,
  ⟨0x400040, [], 1, [⟨20, 20, .rw, 0x0⟩, ⟨17, 16, .rw, 0x0⟩, ⟨15, 0, .rw, 0x0⟩]⟩,
  ⟨0x400044, [], 1, [⟨8, 8, .ro, 0x0⟩, ⟨7, 4, .ro, 0x0⟩, ⟨1, 1, .wo, 0x0⟩, ⟨0, 0, .wo, 0x0⟩]⟩,
  ⟨0x400060, [], 1, [⟨7, 7, .w1c, 0x0⟩, ⟨6, 6, .w1c, 0x0⟩, ⟨5, 5, .w1c, 0x0⟩, ⟨4, 4, .w1c, 0x0⟩, ⟨3, 3, .w1c, 0x0⟩, ⟨2, 2, .w1c, 0x0⟩, ⟨1, 1, .w1c, 0x0⟩, ⟨0, 0, .w1c, 0x0⟩]⟩,
  ⟨0x400070, [], 1, [⟨31, 0, .rw, 0x0⟩]⟩,
  ⟨0x400074, [], 1, [⟨31, 0, .rw, 0x0⟩]⟩,
  ⟨0x400078, [], 1, [⟨31, 0, .rw, 0x0⟩]⟩,
  ⟨0x40007C, [], 1, [⟨31, 0, .rw, 0x0⟩]⟩,
  ⟨0x400080, [], 1, [⟨31, 0, .rw, 0x0⟩]⟩,
  ⟨0x400084, [], 1, [⟨31, 0, .rw, 0x0⟩]⟩,
  ⟨0x400100, [(0x30, 0x4)], 1, [⟨31, 0, .rw, 0x0⟩]⟩]

/-- The registers of the block at 0x600000. -/
def regTable06 : List RegRow := [
  ⟨0x600000, [], 1, [⟨19, 16, .rwl, 0x4⟩, ⟨12, 12, .wo, 0x0⟩, ⟨8, 8, .rwl, 0x0⟩, ⟨0, 0, .ro, 0x0⟩]⟩,
  ⟨0x600008, [], 2, [⟨63, 0, .rwl, 0x0⟩]⟩,
  ⟨0x600010, [], 1, [⟨8, 0, .rwl, 0x40⟩]⟩,
  ⟨0x600014, [], 1, [⟨7, 0, .rwl, 0x64⟩]⟩,
  ⟨0x600040, [], 1, [⟨20, 20, .rw, 0x0⟩, ⟨17, 16, .rw, 0x0⟩, ⟨15, 0, .rw, 0x0⟩]⟩,
  ⟨0x600044, [], 1, [⟨8, 8, .ro, 0x0⟩, ⟨7, 4, .ro, 0x0⟩, ⟨1, 1, .wo, 0x0⟩, ⟨0, 0, .wo, 0x0⟩]⟩,
  ⟨0x600060, [], 1, [⟨5, 5, .w1c, 0x0⟩, ⟨4, 4, .w1c, 0x0⟩, ⟨3, 3, .w1c, 0x0⟩, ⟨2, 2, .w1c, 0x0⟩, ⟨1, 1, .w1c, 0x0⟩, ⟨0, 0, .w1c, 0x0⟩]⟩,
  ⟨0x600070, [], 1, [⟨31, 0, .rw, 0x0⟩]⟩,
  ⟨0x600074, [], 1, [⟨31, 0, .rw, 0x0⟩]⟩,
  ⟨0x600078, [], 1, [⟨31, 0, .rw, 0x0⟩]⟩,
  ⟨0x600100, [(0x2, 0x4)], 1, [⟨31, 0, .rw, 0x0⟩]⟩,
  ⟨0x601000, [(0x40, 0x4)], 1, [⟨31, 31, .ro, 0x0⟩, ⟨29, 24, .ro, 0x0⟩, ⟨5, 0, .ro, 0x0⟩]⟩]

/-- The registers of the block at 0x800000. -/
def regTable08 : List RegRow := [
  ⟨0x800000, [], 1, [⟨19, 16, .rwl, 0x4⟩, ⟨7, 0, .rwl, 0xC0⟩]⟩,
  ⟨0x800004, [], 1, [⟨31, 0, .rwl, 0x2545F491⟩]⟩,
  ⟨0x800010, [(0x4, 0x4)], 1, [⟨31, 31, .rwl, 0x1⟩, ⟨23, 16, .rwl, 0x0⟩, ⟨15, 8, .rwl, 0x0⟩, ⟨7, 0, .rwl, 0x0⟩]⟩,
  ⟨0x800020, [], 1, [⟨31, 31, .wo, 0x0⟩, ⟨15, 0, .rw, 0x4E2⟩]⟩,
  ⟨0x800024, [], 1, [⟨1, 1, .w1c, 0x0⟩, ⟨0, 0, .w1c, 0x0⟩]⟩,
  ⟨0x800030, [], 1, [⟨31, 0, .rw, 0x0⟩]⟩,
  ⟨0x800034, [], 1, [⟨31, 0, .rw, 0x0⟩]⟩,
  ⟨0x800038, [], 2, [⟨63, 48, .ro, 0x0⟩, ⟨47, 32, .ro, 0x0⟩, ⟨31, 0, .ro, 0x0⟩]⟩,
  ⟨0x800200, [(0x48, 0x10), (0x4, 0x4)], 1, [⟨31, 0, .ro, 0x0⟩]⟩,
  ⟨0x800800, [(0x8, 0x20)], 1, [⟨31, 31, .rw, 0x0⟩, ⟨23, 8, .rw, 0x0⟩, ⟨2, 2, .rw, 0x0⟩, ⟨1, 0, .rw, 0x0⟩]⟩,
  ⟨0x800804, [(0x8, 0x20)], 1, [⟨27, 16, .rw, 0x0⟩, ⟨15, 0, .rw, 0x0⟩]⟩,
  ⟨0x800808, [(0x8, 0x20)], 1, [⟨31, 0, .ro, 0x0⟩]⟩,
  ⟨0x80080C, [(0x8, 0x20)], 1, [⟨31, 0, .rw, 0x0⟩]⟩,
  ⟨0x800810, [(0x8, 0x20)], 1, [⟨31, 0, .ro, 0x0⟩]⟩,
  ⟨0x800814, [(0x8, 0x20)], 1, [⟨31, 0, .rw, 0x0⟩]⟩,
  ⟨0x800818, [(0x8, 0x20)], 1, [⟨31, 0, .rw, 0x0⟩]⟩,
  ⟨0x801000, [(0x48, 0x40), (0x10, 0x4)], 1, [⟨31, 0, .ro, 0x0⟩]⟩,
  ⟨0x803000, [(0x48, 0x40), (0x10, 0x4)], 1, [⟨31, 0, .ro, 0x0⟩]⟩]

/-- The registers of the block at 0x900000. -/
def regTable09 : List RegRow := [
  ⟨0x900000, [(0x402, 0x10)], 1, [⟨31, 31, .rwl, 0x0⟩, ⟨23, 0, .rwl, 0x0⟩]⟩,
  ⟨0x900004, [(0x402, 0x10)], 1, [⟨23, 0, .rwl, 0x0⟩]⟩,
  ⟨0x900008, [(0x402, 0x10)], 1, [⟨23, 0, .rwl, 0x0⟩]⟩,
  ⟨0x90000C, [(0x402, 0x10)], 1, [⟨23, 0, .rwl, 0x0⟩]⟩,
  ⟨0x908000, [(0x201, 0x4)], 1, [⟨5, 5, .rwl, 0x0⟩, ⟨3, 3, .rwl, 0x0⟩, ⟨1, 1, .rwl, 0x0⟩, ⟨0, 0, .rwl, 0x1⟩]⟩,
  ⟨0x90A000, [(0x201, 0x10), (0x3, 0x4)], 1, [⟨31, 0, .rw, 0x0⟩]⟩,
  ⟨0x90F000, [], 1, [⟨0, 0, .w1c, 0x0⟩]⟩]

/-- The registers of the block at 0xA00000. -/
def regTable0A : List RegRow := [
  ⟨0xA00000, [(0x402, 0x8)], 1, [⟨31, 31, .rwl, 0x0⟩, ⟨23, 0, .rwl, 0x0⟩]⟩,
  ⟨0xA00004, [(0x402, 0x8)], 1, [⟨31, 23, .rwl, 0x0⟩, ⟨22, 0, .rwl, 0x0⟩]⟩,
  ⟨0xA0F000, [], 1, [⟨0, 0, .w1c, 0x0⟩]⟩]

/-- The registers of the block at 0xB00000. -/
def regTable0B : List RegRow := [
  ⟨0xB00000, [], 1, [⟨31, 31, .rwl, 0x0⟩, ⟨30, 30, .rwl, 0x0⟩, ⟨23, 16, .rwl, 0x1⟩, ⟨15, 0, .rwl, 0x0⟩]⟩,
  ⟨0xB00008, [], 2, [⟨63, 0, .rwl, 0x0⟩]⟩,
  ⟨0xB00010, [], 2, [⟨63, 0, .rwl, 0x0⟩]⟩,
  ⟨0xB00018, [], 1, [⟨31, 31, .rwl, 0x0⟩, ⟨11, 0, .rwl, 0x0⟩]⟩,
  ⟨0xB00020, [], 2, [⟨63, 12, .rwl, 0x0⟩]⟩,
  ⟨0xB00028, [], 1, [⟨4, 0, .rwl, 0x6⟩]⟩,
  ⟨0xB00030, [], 1, [⟨31, 0, .ro, 0x0⟩]⟩,
  ⟨0xB00034, [], 1, [⟨31, 0, .rw, 0x0⟩]⟩,
  ⟨0xB00038, [], 1, [⟨31, 0, .rw, 0x0⟩]⟩,
  ⟨0xB0003C, [], 1, [⟨2, 2, .w1c, 0x0⟩, ⟨1, 1, .w1c, 0x0⟩, ⟨0, 0, .w1c, 0x0⟩]⟩]

/-- The registers of the block at 0xC00000. -/
def regTable0C : List RegRow := [
  ⟨0xC00000, [], 1, [⟨15, 0, .ro, 0x2⟩]⟩,
  ⟨0xC00004, [], 1, [⟨2, 2, .w1c, 0x0⟩, ⟨1, 1, .w1c, 0x0⟩, ⟨0, 0, .w1c, 0x0⟩]⟩,
  ⟨0xC00008, [], 2, [⟨63, 63, .w1c, 0x0⟩, ⟨47, 44, .ro, 0x0⟩, ⟨43, 36, .ro, 0x0⟩, ⟨27, 24, .ro, 0x0⟩, ⟨23, 12, .ro, 0x0⟩, ⟨11, 0, .ro, 0x0⟩]⟩,
  ⟨0xC00040, [], 1, [⟨18, 16, .rw, 0x0⟩, ⟨15, 0, .rw, 0x0⟩]⟩,
  ⟨0xC00044, [], 1, [⟨8, 8, .ro, 0x0⟩, ⟨7, 4, .ro, 0x0⟩, ⟨1, 1, .wo, 0x0⟩, ⟨0, 0, .wo, 0x0⟩]⟩,
  ⟨0xC00100, [(0x10, 0x4)], 1, [⟨31, 0, .rw, 0x0⟩]⟩,
  ⟨0xC01000, [(0x10, 0x4)], 1, [⟨31, 31, .ro, 0x0⟩, ⟨30, 24, .ro, 0x0⟩, ⟨19, 16, .rwl, 0x1⟩, ⟨15, 0, .rwl, 0x0⟩]⟩,
  ⟨0xC02000, [(0x10, 0x20), (0x7, 0x4)], 1, [⟨31, 0, .rw, 0x0⟩]⟩]

/-- The registers of the block at 0x1000000. -/
def regTable10 : List RegRow := [
  ⟨0x1000000, [(0x40, 0x4000)], 1, [⟨31, 31, .rwl, 0x1⟩, ⟨9, 8, .rwl, 0x0⟩, ⟨0, 0, .wo, 0x0⟩]⟩,
  ⟨0x1000004, [(0x40, 0x4000)], 1, [⟨25, 25, .w1c, 0x0⟩, ⟨24, 24, .w1c, 0x0⟩, ⟨23, 23, .w1c, 0x0⟩, ⟨22, 22, .w1c, 0x0⟩, ⟨21, 21, .w1c, 0x0⟩, ⟨20, 20, .w1c, 0x0⟩, ⟨19, 19, .w1c, 0x0⟩, ⟨18, 18, .w1c, 0x0⟩, ⟨17, 17, .w1c, 0x0⟩, ⟨16, 16, .w1c, 0x0⟩, ⟨11, 8, .ro, 0x0⟩, ⟨5, 4, .ro, 0x0⟩, ⟨2, 0, .ro, 0x0⟩]⟩,
  ⟨0x1000008, [(0x40, 0x4000)], 1, [⟨31, 24, .w1c, 0x0⟩, ⟨23, 16, .ro, 0x0⟩, ⟨15, 8, .ro, 0x0⟩]⟩,
  ⟨0x100000C, [(0x40, 0x4000)], 1, [⟨31, 16, .rwl, 0x3E8⟩, ⟨15, 0, .rwl, 0x40⟩]⟩,
  ⟨0x1000010, [(0x40, 0x4000)], 1, [⟨11, 8, .rwl, 0xF⟩, ⟨7, 4, .ro, 0x1⟩, ⟨3, 0, .ro, 0x1⟩]⟩,
  ⟨0x1000018, [(0x40, 0x4000)], 2, [⟨63, 0, .ro, 0x0⟩]⟩,
  ⟨0x1000020, [(0x40, 0x4000)], 2, [⟨63, 0, .ro, 0x0⟩]⟩,
  ⟨0x1000028, [(0x40, 0x4000)], 1, [⟨31, 16, .ro, 0x0⟩, ⟨5, 0, .ro, 0x0⟩]⟩,
  ⟨0x1000040, [(0x40, 0x4000), (0x6, 0x4)], 1, [⟨31, 0, .rw, 0x0⟩]⟩,
  ⟨0x1000080, [(0x40, 0x4000), (0x8, 0x4)], 1, [⟨31, 0, .rw, 0x0⟩]⟩,
  ⟨0x1002000, [(0x200, 0x4)], 1, [⟨31, 28, .rwl, 0x0⟩, ⟨27, 24, .rwl, 0x0⟩, ⟨23, 20, .rwl, 0x0⟩, ⟨19, 16, .rwl, 0x0⟩, ⟨15, 12, .rwl, 0x0⟩, ⟨11, 8, .rwl, 0x0⟩, ⟨7, 4, .rwl, 0x0⟩, ⟨3, 0, .rwl, 0x0⟩]⟩]

/-- The registers of the block at 0x1200000. -/
def regTable12 : List RegRow := [
  ⟨0x1200000, [], 1, [⟨8, 8, .rwl, 0x1⟩, ⟨4, 0, .rwl, 0x4⟩]⟩,
  ⟨0x1200004, [], 1, [⟨31, 31, .rwl, 0x1⟩, ⟨7, 0, .rwl, 0x18⟩]⟩,
  ⟨0x1200008, [], 1, [⟨3, 3, .w1c, 0x0⟩, ⟨2, 2, .w1c, 0x0⟩, ⟨1, 1, .w1c, 0x0⟩, ⟨0, 0, .w1c, 0x0⟩]⟩,
  ⟨0x120000C, [], 1, [⟨31, 16, .rw, 0x0⟩, ⟨15, 0, .rw, 0x0⟩]⟩,
  ⟨0x1200010, [], 2, [⟨63, 63, .w1c, 0x0⟩, ⟨62, 62, .ro, 0x0⟩, ⟨61, 60, .ro, 0x0⟩, ⟨50, 48, .ro, 0x0⟩, ⟨44, 40, .ro, 0x0⟩, ⟨33, 32, .ro, 0x0⟩, ⟨20, 17, .ro, 0x0⟩, ⟨16, 0, .ro, 0x0⟩]⟩,
  ⟨0x1200020, [(0x8, 0x4)], 1, [⟨31, 16, .ro, 0x0⟩, ⟨15, 0, .ro, 0x0⟩]⟩,
  ⟨0x1210000, [(0x1800, 0x4)], 1, [⟨31, 31, .rwl, 0x0⟩, ⟨30, 30, .ro, 0x0⟩, ⟨9, 0, .rwl, 0x0⟩]⟩]

/-- The registers of the block at 0x1400000. -/
def regTable14 : List RegRow := [
  ⟨0x140E000, [(0x8, 0x100000)], 1, [⟨15, 0, .rwl, 0x7D0⟩]⟩,
  ⟨0x140E004, [(0x8, 0x100000)], 1, [⟨23, 16, .ro, 0x0⟩, ⟨2, 2, .w1c, 0x0⟩, ⟨1, 1, .w1c, 0x0⟩, ⟨0, 0, .w1c, 0x0⟩]⟩,
  ⟨0x140E008, [(0x8, 0x100000)], 1, [⟨31, 16, .rw, 0x0⟩, ⟨15, 0, .rw, 0x0⟩]⟩,
  ⟨0x140E00C, [(0x8, 0x100000)], 1, [⟨31, 31, .w1c, 0x0⟩, ⟨30, 30, .ro, 0x0⟩, ⟨29, 24, .ro, 0x0⟩, ⟨23, 16, .ro, 0x0⟩, ⟨13, 0, .ro, 0x0⟩]⟩,
  ⟨0x140F000, [(0x8, 0x100000)], 1, [⟨8, 8, .rwl, 0x1⟩, ⟨7, 4, .rwl, 0xC⟩, ⟨1, 1, .rwl, 0x1⟩, ⟨0, 0, .rwl, 0x0⟩]⟩,
  ⟨0x140F004, [(0x8, 0x100000)], 1, [⟨4, 4, .w1c, 0x0⟩, ⟨3, 3, .w1c, 0x0⟩, ⟨2, 2, .w1c, 0x0⟩, ⟨1, 1, .w1c, 0x0⟩, ⟨0, 0, .w1c, 0x0⟩]⟩,
  ⟨0x140F100, [(0x8, 0x100000)], 1, [⟨10, 8, .rwl, 0x0⟩, ⟨0, 0, .rwl, 0x1⟩]⟩,
  ⟨0x140F104, [(0x8, 0x100000)], 1, [⟨31, 0, .rw, 0x0⟩]⟩,
  ⟨0x140F108, [(0x8, 0x100000)], 1, [⟨31, 0, .rw, 0x0⟩]⟩,
  ⟨0x140F200, [(0x8, 0x100000)], 1, [⟨22, 16, .rwl, 0x0⟩, ⟨5, 0, .rwl, 0x0⟩]⟩,
  ⟨0x140F204, [(0x8, 0x100000)], 1, [⟨2, 2, .w1c, 0x0⟩, ⟨1, 1, .w1c, 0x0⟩, ⟨0, 0, .w1c, 0x0⟩]⟩,
  ⟨0x140F208, [(0x8, 0x100000)], 1, [⟨31, 0, .rw, 0x0⟩]⟩,
  ⟨0x1410000, [(0x8, 0x100000), (0xA0, 0x8)], 2, [⟨63, 63, .ro, 0x0⟩, ⟨62, 62, .ro, 0x0⟩, ⟨53, 52, .ro, 0x0⟩, ⟨51, 48, .rwl, 0x0⟩, ⟨41, 32, .rwl, 0x0⟩, ⟨29, 20, .rwl, 0x0⟩, ⟨19, 10, .rwl, 0x0⟩, ⟨9, 0, .rwl, 0x0⟩]⟩]

/-- The registers of the block at 0x1C00000. -/
def regTable1C : List RegRow := [
  ⟨0x1C00000, [], 1, [⟨31, 31, .rwl, 0x0⟩, ⟨29, 28, .rwl, 0x0⟩, ⟨27, 24, .rwl, 0x8⟩, ⟨23, 16, .rwl, 0xA⟩, ⟨11, 0, .rwl, 0x0⟩]⟩,
  ⟨0x1C00004, [], 1, [⟨31, 16, .rwl, 0x0⟩, ⟨15, 0, .rwl, 0x0⟩]⟩,
  ⟨0x1C00008, [], 1, [⟨15, 0, .rwl, 0x0⟩]⟩,
  ⟨0x1C0000C, [], 1, [⟨31, 31, .rwl, 0x0⟩, ⟨29, 24, .rwl, 0x0⟩, ⟨23, 23, .rwl, 0x0⟩, ⟨21, 16, .rwl, 0x0⟩, ⟨15, 15, .rwl, 0x0⟩, ⟨13, 8, .rwl, 0x0⟩, ⟨7, 7, .rwl, 0x0⟩, ⟨5, 0, .rwl, 0x0⟩]⟩,
  ⟨0x1C00010, [], 2, [⟨63, 0, .rwl, 0x0⟩]⟩,
  ⟨0x1C00018, [], 2, [⟨63, 0, .rwl, 0x0⟩]⟩,
  ⟨0x1C00020, [], 1, [⟨8, 8, .w1c, 0x0⟩, ⟨7, 7, .w1c, 0x0⟩, ⟨6, 6, .w1c, 0x0⟩, ⟨5, 5, .w1c, 0x0⟩, ⟨4, 4, .w1c, 0x0⟩, ⟨3, 3, .ro, 0x0⟩, ⟨2, 0, .ro, 0x0⟩]⟩,
  ⟨0x1C00024, [], 1, [⟨31, 0, .ro, 0x0⟩]⟩,
  ⟨0x1C00028, [], 1, [⟨31, 0, .ro, 0x0⟩]⟩,
  ⟨0x1C0002C, [], 1, [⟨7, 0, .rwl, 0x1⟩]⟩,
  ⟨0x1C00040, [], 1, [⟨31, 0, .rw, 0x0⟩]⟩,
  ⟨0x1C00044, [], 1, [⟨31, 0, .rw, 0x0⟩]⟩,
  ⟨0x1C00048, [], 1, [⟨31, 0, .rw, 0x0⟩]⟩,
  ⟨0x1C00100, [(0x40, 0x4)], 1, [⟨31, 31, .ro, 0x0⟩, ⟨30, 24, .ro, 0x0⟩, ⟨23, 0, .ro, 0x0⟩]⟩,
  ⟨0x1C00200, [(0x8, 0x4)], 1, [⟨31, 31, .rwl, 0x0⟩, ⟨9, 8, .rwl, 0x0⟩, ⟨5, 0, .rwl, 0x0⟩]⟩,
  ⟨0x1C01000, [(0x40, 0x10)], 1, [⟨31, 31, .rwl, 0x0⟩, ⟨30, 24, .rwl, 0x0⟩, ⟨23, 12, .rwl, 0x0⟩, ⟨11, 0, .rwl, 0x0⟩]⟩,
  ⟨0x1C01004, [(0x40, 0x10)], 1, [⟨27, 16, .rwl, 0x0⟩, ⟨12, 0, .rwl, 0x0⟩]⟩,
  ⟨0x1C01008, [(0x40, 0x10)], 1, [⟨31, 16, .rwl, 0x0⟩, ⟨15, 0, .rwl, 0x0⟩]⟩,
  ⟨0x1C0100C, [(0x40, 0x10)], 1, [⟨31, 4, .rwl, 0x0⟩]⟩]

/-- The registers of the block at 0x1E00000. -/
def regTable1E : List RegRow := [
  ⟨0x1E00000, [], 1, [⟨2, 2, .rwl, 0x1⟩, ⟨1, 1, .rwl, 0x1⟩, ⟨0, 0, .rwl, 0x1⟩]⟩,
  ⟨0x1E00004, [], 1, [⟨11, 10, .ro, 0x0⟩, ⟨9, 0, .ro, 0x7⟩]⟩,
  ⟨0x1E00008, [], 1, [⟨31, 31, .w1c, 0x0⟩, ⟨30, 30, .w1c, 0x0⟩, ⟨3, 0, .ro, 0x0⟩]⟩,
  ⟨0x1E10000, [], 1, [⟨31, 31, .rwl, 0x1⟩, ⟨30, 30, .rwl, 0x0⟩, ⟨29, 29, .rwl, 0x0⟩, ⟨28, 28, .rwl, 0x0⟩, ⟨15, 0, .rwl, 0x1B2⟩]⟩,
  ⟨0x1E10004, [], 1, [⟨9, 9, .w1c, 0x0⟩, ⟨8, 8, .w1c, 0x0⟩, ⟨6, 0, .ro, 0x0⟩]⟩,
  ⟨0x1E10008, [], 1, [⟨8, 8, .ro, 0x0⟩, ⟨7, 0, .rw, 0x0⟩]⟩,
  ⟨0x1E20000, [], 1, [⟨7, 7, .rwl, 0x1⟩, ⟨6, 0, .ro, 0x58⟩]⟩,
  ⟨0x1E20004, [], 1, [⟨2, 2, .w1c, 0x0⟩, ⟨1, 1, .w1c, 0x0⟩, ⟨0, 0, .w1c, 0x0⟩]⟩,
  ⟨0x1E20008, [], 1, [⟨31, 0, .rw, 0x0⟩]⟩,
  ⟨0x1E30000, [], 1, [⟨31, 31, .ro, 0x0⟩, ⟨7, 0, .ro, 0x0⟩]⟩,
  ⟨0x1E30004, [], 1, [⟨31, 0, .rw, 0x0⟩]⟩,
  ⟨0x1E30008, [], 1, [⟨31, 31, .ro, 0x0⟩, ⟨27, 24, .ro, 0x0⟩, ⟨1, 0, .wo, 0x0⟩]⟩,
  ⟨0x1E30040, [(0x10, 0x4)], 1, [⟨31, 0, .rw, 0x0⟩]⟩,
  ⟨0x1E40000, [(0x10, 0x4)], 1, [⟨31, 16, .rwl, 0x0⟩, ⟨15, 8, .rwl, 0x0⟩, ⟨7, 6, .rwl, 0x0⟩, ⟨5, 4, .rwl, 0x0⟩, ⟨3, 3, .rwl, 0x0⟩, ⟨2, 0, .rwl, 0x0⟩]⟩,
  ⟨0x1E40040, [], 1, [⟨15, 0, .ro, 0x0⟩]⟩,
  ⟨0x1E40044, [], 1, [⟨15, 0, .rw, 0x0⟩]⟩,
  ⟨0x1E40048, [], 1, [⟨15, 0, .w1c, 0x0⟩]⟩]

/-- The register rows that may hold an offset: those of its block of Table SCO-4. -/
def regBlock (off : Nat) : List RegRow :=
  if off / 0x100000 = 0x0 then regTable00 else
  if off / 0x100000 = 0x1 then regTable01 else
  if off / 0x100000 = 0x2 then regTable02 else
  if off / 0x100000 = 0x3 then regTable03 else
  if off / 0x100000 = 0x4 then regTable04 else
  if off / 0x100000 = 0x6 then regTable06 else
  if off / 0x100000 = 0x8 then regTable08 else
  if off / 0x100000 = 0x9 then regTable09 else
  if off / 0x100000 = 0xA then regTable0A else
  if off / 0x100000 = 0xB then regTable0B else
  if off / 0x100000 = 0xC then regTable0C else
  if off / 0x100000 = 0x10 then regTable10 else
  if off / 0x100000 = 0x12 then regTable12 else
  if 0x14 ≤ off / 0x100000 ∧ off / 0x100000 ≤ 0x1B then regTable14 else
  if off / 0x100000 = 0x1C then regTable1C else
  if off / 0x100000 = 0x1E then regTable1E else
  []

/-- The word of a row that an offset names, where it names one: strides are tried from the first dimension on. -/
def RegRow.word (r : RegRow) (off : Nat) : Option Nat :=
  if off < r.base ∨ off % 4 ≠ 0 then none
  else
    let rest := r.dims.foldl (fun (acc : Option Nat) d =>
      match acc with
      | none => none
      | some x => if x / d.2 < d.1 then some (x % d.2) else none) (some (off - r.base))
    match rest with
    | some x => if x < 4 * r.words then some (x / 4) else none
    | none => none

/-- The row and word that hold an offset; none for an offset that no chapter assigns (R19). -/
def regAt (off : Nat) : Option (RegRow × Nat) :=
  (regBlock off).findSome? fun r => (RegRow.word r off).map fun w => (r, w)

/-- The part of a field that lies in word w of its register, as bits hi:lo of that word. -/
def FieldRow.inWord (f : FieldRow) (w : Nat) : Option (Nat × Nat × Nat) :=
  if f.hi < 32 * w ∨ 32 * w + 31 < f.lo then none
  else some (min f.hi (32 * w + 31) - 32 * w, max f.lo (32 * w) - 32 * w, max f.lo (32 * w) - f.lo)

/-- The reset value of word w of a row. -/
def RegRow.resetWord (r : RegRow) (w : Nat) : Nat :=
  bits (r.fields.foldl (fun acc f => acc + f.reset * 2 ^ f.lo) 0) (32 * w + 31) (32 * w)

/-- The word an offset holds after reset, from the field tables. -/
def resetWord (off : Nat) : Nat :=
  match regAt off with
  | some (r, w) => RegRow.resetWord r w
  | none => 0

/-- A word after a BAR0 write under the access types of Table SCO-3 (R15, R17): `locked` is `GLB_LOCK`. -/
def RegRow.write (r : RegRow) (w : Nat) (locked : Bool) (old v : Nat) : Nat :=
  r.fields.foldl (fun acc f =>
    match FieldRow.inWord f w with
    | none => acc
    | some (hi, lo, _) =>
      match f.acc with
      | .rw => setBits acc hi lo (bits v hi lo)
      | .rwl => if locked then acc else setBits acc hi lo (bits v hi lo)
      | .ro => acc
      | .wo => acc
      | .w1c => setBits acc hi lo (bits old hi lo - (bits old hi lo &&& bits v hi lo))
      | .w1s => setBits acc hi lo (bits old hi lo ||| bits v hi lo)) old

/-- Has word w of a row an RW-L field? -/
def RegRow.hasLocked (r : RegRow) (w : Nat) : Bool :=
  r.fields.any fun f => f.acc == .rwl && (FieldRow.inWord f w).isSome

end Sys2Proof.Machine
end

