-- ==== Sys2Proof/Machine/Ops.lean ====
section
/-! DEFINITION. Sys2Proof/Machine/Ops.lean: the shared operations over the state: registers, the stores and deep store
with their error rules, tallies, functions and clusters, bell frames, and the end of a work list. -/

namespace Sys2Proof.Machine

/-- The outcome of a command. -/
abbrev Out := Host.Outcome State Fault Refusal

/-! ### Registers (00_scope.md R8 to R19) -/

/-- The reset word of an offset: the tables' value, but for the registers whose reset differs by index or is fused. -/
def resetReg (off : Nat) : Nat :=
  if off = R.swqEdp 0 ∨ off = R.swqEdp 2 then 0x8020F0A0
  else if off = R.swqEdp 1 ∨ off = R.swqEdp 3 then 0x8080A040
  else if off = R.pwrMcmp 0 then 0x1F
  else if off = R.pwrMcmp 1 then 0x1B
  else if off = R.pwrMcmp 2 then 0x1D
  else if off = R.pwrMcmp 3 then 0x1807
  else if off = R.pwrMcmp 4 then 0x0817
  else if off = R.pwrAge then setBits (resetWord off) 23 16 Config.sens.toNat
  else if R.pwrIsl 0 ≤ off ∧ off < R.pwrIsl 1280 then
    setBits (resetWord off) 20 16 (Config.fmax ((off - R.pwrIsl 0) / 4)).toNat
  else if R.prtCtl 0 ≤ off ∧ off < R.prtCtl 64 ∧ (off - R.prtCtl 0) % 0x4000 = 0x18 then
    Config.devid.toNat % 2 ^ 32
  else if R.prtCtl 0 ≤ off ∧ off < R.prtCtl 64 ∧ (off - R.prtCtl 0) % 0x4000 = 0x1C then
    Config.devid.toNat / 2 ^ 32
  else resetWord off

/-- The word at a BAR0 offset. -/
def rd (s : State) (off : Nat) : Nat := (SMap.find s.regs off).getD (resetReg off)

/-- The state with a word at a BAR0 offset; a word equal to its reset value is not listed. -/
def wr (s : State) (off v : Nat) : State :=
  { s with regs := SMap.setD s.regs off (resetReg off) (v % 2 ^ 32) }

/-- A field of a word. -/
def getF (s : State) (off hi lo : Nat) : Nat := bits (rd s off) hi lo
/-- The state with a field of a word set. -/
def setF (s : State) (off hi lo v : Nat) : State := wr s off (setBits (rd s off) hi lo v)
/-- Is bit i of a word set? -/
def flag (s : State) (off i : Nat) : Bool := bit (rd s off) i
/-- The state with bit i of a word set. -/
def raise (s : State) (off i : Nat) : State := setF s off i i 1
/-- The state with a counter field raised by n; it holds at its largest value. -/
def bumpF (s : State) (off hi lo n : Nat) : State := setF s off hi lo (satAdd (hi + 1 - lo) (getF s off hi lo) n)
/-- The state with a 32-bit counter raised by n; it holds at 0xFFFF_FFFF. -/
def bump (s : State) (off n : Nat) : State := bumpF s off 31 0 n
/-- A 64-bit register: two words, the low word first (R9). -/
def rd64 (s : State) (off : Nat) : Nat := rd s off % 2 ^ 32 + 2 ^ 32 * rd s (off + 4)
/-- The state with both words of a 64-bit register. -/
def wr64 (s : State) (off v : Nat) : State := wr (wr s off (v % 2 ^ 32)) (off + 4) (v / 2 ^ 32)

/-- Is `GLB_LOCK` set? -/
def locked (s : State) : Bool := flag s R.glbLock 0

/-! ### Time (13_time_determinism.md R473) -/

/-- The time base in ns. -/
def nowNs (s : State) : Nat := s.time.now / 2 ^ 32
/-- The lamp clock in ticks of 20 ns (R6). -/
def lampTick (s : State) : Nat := s.time.lamp / 20

/-! ### Mills (11_mills.md) -/

/-- The mill Mn. -/
def millOf (s : State) (m : Nat) : MillSt := SMap.getD s.mills m ⟨[], [], [], [], [], [], [], [], [], none⟩
/-- The state with a mill. -/
def setMill (s : State) (m : Nat) (x : MillSt) : State :=
  { s with mills := SMap.setD s.mills m ⟨[], [], [], [], [], [], [], [], [], none⟩ x }
/-- The stream bytes of a stream that was never loaded. -/
def StreamSt.blank : StreamSt := ⟨zeros 48, 0, 0, 0, 0, 0, 0, List.replicate 8 0, [], [], false, [], false⟩
/-- A stream of a mill. -/
def streamOf (s : State) (m n : Nat) : StreamSt := SMap.getD (millOf s m).streams n StreamSt.blank
/-- The state with a stream of a mill. -/
def setStream (s : State) (m n : Nat) (x : StreamSt) : State :=
  setMill s m { millOf s m with streams := SMap.setD (millOf s m).streams n StreamSt.blank x }
/-- VALID of a stream entry (Table MIL-4). -/
def StreamSt.valid (x : StreamSt) : Bool := bit (leAt x.bytes 0 2) 12
/-- JOB of a stream entry. -/
def StreamSt.job (x : StreamSt) : Nat := leAt x.bytes 2 2 % 4096
/-- FN of a stream entry. -/
def StreamSt.fn (x : StreamSt) : Nat := leAt x.bytes 4 2 % 1024

/-! ### Functions, their bindings and their clusters -/

/-- `VF_BIND` of a function. -/
def bindOf (s : State) (fn : Nat) : Nat := rd64 s (R.vfBind fn)
/-- The job tag bound to a function. -/
def fnJob (s : State) (fn : Nat) : Nat := bits (bindOf s fn) 11 0
/-- The endpoint bound to a function. -/
def fnEp (s : State) (fn : Nat) : Nat := bits (bindOf s fn) 31 16
/-- Are job and endpoint bound? -/
def fnBound (s : State) (fn : Nat) : Bool := bit (bindOf s fn) 15
/-- `VF_STATUS.STATE`: 0 DISABLED, 1 ENABLED, 2 TEARDOWN (Table HST-11). -/
def fnState (s : State) (fn : Nat) : Nat := getF s (R.vfStatus fn) 1 0
/-- Every function number. -/
def allFns : List Nat := List.range 513

/-- `CPX_CLOWN` of a cluster, by cluster number. -/
def clownOff (g : Nat) : Nat := R.cpxClown (g / 160) (g % 160)
/-- The ownership word of a cluster. -/
def clown (s : State) (g : Nat) : Nat := rd64 s (clownOff g)
/-- Is a slot of a cluster valid? -/
def slotValid (s : State) (g sl : Nat) : Bool := bit (clown s g) (48 + sl)
/-- The lowest bit of a slot's function: 0, 10, 20, 32. -/
def fnLo (sl : Nat) : Nat := if sl = 3 then 32 else 10 * sl
/-- The function of a slot. -/
def slotFn (s : State) (g sl : Nat) : Nat := bits (clown s g) (fnLo sl + 9) (fnLo sl)
/-- Does a function hold a valid slot of a cluster? -/
def holds (s : State) (g fn : Nat) : Bool := (List.range 4).any fun sl => slotValid s g sl && slotFn s g sl == fn
/-- The slot a function holds on a cluster. -/
def slotOf (s : State) (g fn : Nat) : Option Nat :=
  (List.range 4).find? fun sl => slotValid s g sl && slotFn s g sl == fn
/-- The resident slot of a cluster (R175). -/
def resSlot (s : State) (g : Nat) : Nat := bits (clown s g) 53 52
/-- Is a cluster fenced (R190)? -/
def fenced (s : State) (g : Nat) : Bool := bit (clown s g) 63
/-- How many slots of a cluster are valid. -/
def validSlots (s : State) (g : Nat) : Nat := ((List.range 4).filter (slotValid s g)).length
/-- Is a cluster time-sliced (R175)? -/
def timeSliced (s : State) (g : Nat) : Bool := decide (1 < validSlots s g)
/-- Does a cluster hold a pillar? -/
def hasPillar (s : State) (g : Nat) : Bool := s.comp.pillars.any fun e => e.1 / 8 == g
/-- The sharing state of a cluster. -/
def slotSt (s : State) (g : Nat) : SlotSt := SMap.getD s.comp.slots g ⟨0, false, none⟩
/-- Does a function run on a cluster now: resident, not fenced, no switch in progress (R175, R178, R190)? -/
def runsOn (s : State) (g fn : Nat) : Bool :=
  !fenced s g && slotValid s g (resSlot s g) && slotFn s g (resSlot s g) == fn && (slotSt s g).switch.isNone

/-- The function resident on a cluster and able to run. -/
def resident (s : State) (g : Nat) : Option Nat :=
  if fenced s g ∨ !slotValid s g (resSlot s g) ∨ (slotSt s g).switch.isSome then none
  else some (slotFn s g (resSlot s g))

/-! ### Islands (16 R583 to R585) -/

/-- The live state of an island that nothing has changed. -/
def IslSt.blank : IslSt :=
  { rise := none, temp := 0, throt := false, hot := none, limited := false, clampWith := [], clampOk := none,
    clampT := false, droop := none, idleAt := 0, wake := false, waking := none }
/-- The live state of an island. -/
def islOf (s : State) (g : Nat) : IslSt := SMap.getD s.power.isl g IslSt.blank
/-- The state with an island's live state. -/
def setIsl (s : State) (g : Nat) (x : IslSt) : State :=
  { s with power := { s.power with isl := SMap.setD s.power.isl g IslSt.blank x } }
/-- Is the island of a cluster in doze (R586)? -/
def dozing (s : State) (g : Nat) : Bool := getF s (R.pwrIsl g) 29 28 == 2
/-- The function resident on a cluster that is awake. -/
def residentAwake (s : State) (g : Nat) : Option Nat := if dozing s g then none else resident s g
/-- A wake event stands for a cluster's island (R585). -/
def wakeIsl (s : State) (g : Nat) : State :=
  if dozing s g then setIsl s g { islOf s g with wake := true } else s

/-- Is an island busy (R584): a list that is not in a WAIT, an asynchronous copy, or a context transfer? A spill is part of
its SPARSE's step. -/
def busy (s : State) (g : Nat) : Bool :=
  (slotSt s g).switch.isSome ||
  s.comp.seqs.any fun e => e.1 / 64 == g && e.2.any fun f => !f.2.copies.isEmpty || (match f.2.run with
    | none => false
    | some r => match r.phase with
      | .waiting _ => false
      | .issued => true
      | .done => true)
/-- The time from which an island counts as idle moves on where it was busy before or is after a command. -/
def markBusy (g : Nat) (s t : State) : State :=
  if busy s g || busy t g then setIsl t g { islOf t g with idleAt := t.time.lamp } else t

/-! ### Local addresses (Table CORE-2) -/

/-- A cluster-local address of n bytes, in canonical form: the alias range is the issuing core's face store. None where
a byte is unmapped (R137). -/
def localAt (own : Option Nat) (a n : Nat) : Option Nat :=
  if a < 0x400000 then (if a % 0x10000 + n ≤ 0xC000 then some a else none)
  else if a < 0x440000 then (if a + n ≤ 0x440000 then some a else none)
  else if 0x800000 ≤ a ∧ a + n ≤ 0x80C000 ∧ a < 0x80C000 then own.map fun c => 0x10000 * c + (a - 0x800000)
  else none

/-- The store key of a local address of a cluster. -/
def storeKey (g a : Nat) : Nat := g * 2 ^ 24 + a

/-- n bytes of a cluster's stores. -/
def readStore (s : State) (g a n : Nat) : List Byte := memReadN s.comp.store (storeKey g a) n

/-! ### Errors of the stores (04 R134, R135) -/

/-- Does a run of n bytes at a key touch the line at `line`? -/
def touches (a n line : Nat) : Bool := decide (line < a + n) && decide (a < line + 16)

/-- Does a run of n bytes at a key cover the whole line at `line`? -/
def covers (a n line : Nat) : Bool := decide (a ≤ line) && decide (line + 16 ≤ a + n)

/-- `CPX_STELOG` and `CPX_STECC` for an uncorrectable error at a line's key (R135). -/
def logStoreUe (s : State) (line : Nat) : State :=
  let g := line / 2 ^ 24
  let a := line % 2 ^ 24
  let d := g / 160
  let s := bumpF s (R.cpxStecc d) 31 16 1
  if flag s (R.cpxStelog d) 31 then s
  else
    let cs := decide (0x400000 ≤ a)
    let core := if cs then 0 else a / 0x10000
    let ln := if cs then (a - 0x400000) / 16 else a % 0x10000 / 16
    wr s (R.cpxStelog d) (2 ^ 31 + 2 ^ 30 * b2n cs + 2 ^ 24 * core + 2 ^ 16 * (g % 160) + ln)

/-- Newly struck uncorrectable lines join those that stand. -/
def strikeStore (s : State) (ls : List Nat) : State :=
  let ue := ls.foldl (fun m l => if (SMap.find m (l / 16 * 16)).isSome then m else SMap.put m (l / 16 * 16) false) s.comp.storeUe
  { s with comp := { s.comp with storeUe := ue } }

/-- The first standing uncorrectable line that one of some runs (key, length) touches. -/
def firstUe (s : State) (runs : List (Nat × Nat)) : Option (Nat × Bool) :=
  runs.findSome? fun r => s.comp.storeUe.find? fun e => touches r.1 r.2 e.1

/-- A byte run written to the stores at a key: a wholly covered line loses its error; a line in error that is covered in
part keeps its bytes and is met as a read meets it (R135). Answers the lines so met. -/
def writeKey (s : State) (a : Nat) (bs : List Byte) : State × List Nat :=
  let n := bs.length
  let hit := s.comp.storeUe.filter fun e => touches a n e.1 && !covers a n e.1
  let ue := s.comp.storeUe.filter fun e => !covers a n e.1
  let mem :=
    if hit.isEmpty then memWriteN s.comp.store a bs
    else ((upto a n).zip bs).foldl (fun m p =>
      if hit.any fun e => touches p.1 1 e.1 then m else memWrite m p.1 p.2) s.comp.store
  ({ s with comp := { s.comp with store := mem, storeUe := ue } }, hit.map (·.1))

/-! ### Deep store (06 R222 to R235) -/

/-- The size of one stack. -/
def stackSize : Nat := 0x3000000000
/-- The size of deep store. -/
def deepSize : Nat := 0x18000000000
/-- The pseudo-channel of a stack offset (R223). -/
def pcOf (o : Nat) : Nat :=
  (o / 2 ^ 8 ^^^ o / 2 ^ 13 ^^^ o / 2 ^ 18 ^^^ o / 2 ^ 23 ^^^ o / 2 ^ 28 ^^^ o / 2 ^ 33) % 32
/-- The offset within the pseudo-channel (R223). -/
def pcOffset (o : Nat) : Nat := (o / 2 ^ 13) * 2 ^ 8 + o % 2 ^ 8
/-- Stack, pseudo-channel, stack group, bank and row of a device address (R222, R223). -/
def dramOf (a : Nat) : Nat × Nat × Nat × Nat × Nat :=
  let o := a % stackSize
  let p := pcOffset o
  (a / stackSize, pcOf o, p / 2 ^ 31, p / 2 ^ 10 % 16, p / 2 ^ 14 % 2 ^ 17)
/-- The number of a row: stack, pseudo-channel, group, bank and row in one number. -/
def rowNo (a : Nat) : Nat :=
  let x := dramOf a
  (((x.1 * 32 + x.2.1) * 3 + x.2.2.1) * 16 + x.2.2.2.1) * 2 ^ 17 + x.2.2.2.2

/-- `DST_LAYOUT.SUMP`. -/
def sumpUnits (s : State) : Nat := getF s R.dstLayout 4 0
/-- The start of the sump in each stack (Table DST-1). -/
def sumpStart (s : State) : Nat := 0x2FFC000000 - sumpUnits s * 0x10000000
/-- The start of the context-save region in each stack (Table DST-1). -/
def ctxStart (s : State) : Nat := sumpStart s - getF s R.dstLayout 8 8 * 0x84800000
/-- The granules of each stack's general area (Table DST-1, R229). -/
def genGranules (s : State) : Nat := ctxStart s / 0x10000000
/-- Does granule g lie in the general area? -/
def inGeneral (s : State) (g : Nat) : Bool := decide (g % 768 < genGranules s) && decide (g < 6144)
/-- Is granule g valid and owned by a function? -/
def ownsGranule (s : State) (fn g : Nat) : Bool := flag s (R.dstOwn g) 31 && getF s (R.dstOwn g) 9 0 == fn
/-- Does every byte of n bytes at a device address lie in granules of a function (R230)? -/
def ownsDeep (s : State) (fn a n : Nat) : Bool :=
  (upto (a / 0x10000000) ((a + n - 1) / 0x10000000 + 1 - a / 0x10000000)).all fun g => ownsGranule s fn g && inGeneral s g

/-- n bytes of deep store. -/
def readDeep (s : State) (a n : Nat) : List Byte := memReadN s.deep.mem a n
/-- A byte run written to deep store: a codeword written whole loses its error. -/
def writeDeep (s : State) (a : Nat) (bs : List Byte) : State :=
  let n := bs.length
  { s with deep := { s.deep with
      mem := memWriteN s.deep.mem a bs,
      ue := s.deep.ue.filter fun c => !(decide (a ≤ c) && decide (c + 64 ≤ a + n)) } }
/-- Newly struck uncorrectable codewords join those that stand. -/
def strikeDeep (s : State) (cs : List Nat) : State :=
  { s with deep := { s.deep with
      ue := cs.foldl (fun l c => if memNat (c / 64 * 64) l then l else l ++ [c / 64 * 64]) s.deep.ue } }
/-- The codewords of a list that n bytes at a device address touch. -/
def deepHits (cs : List Nat) (a n : Nat) : List Nat :=
  cs.filter fun c => decide (c / 64 * 64 < a + n) && decide (a < c / 64 * 64 + 64)
/-- `DST_ELOG` and `DST_ECC.UE` for an uncorrectable read by a reader SRC (R235). -/
def logDeepUe (s : State) (src c : Nat) : State :=
  let s := bumpF s R.dstEcc 31 16 1
  if flag s (R.dstElog + 4) 31 then s
  else
    let x := dramOf c
    wr64 s R.dstElog (2 ^ 63 + 2 ^ 62 + src * 2 ^ 60 + x.1 * 2 ^ 48 + x.2.1 * 2 ^ 40 + x.2.2.1 * 2 ^ 32 +
      x.2.2.2.1 * 2 ^ 17 + x.2.2.2.2)

/-! ### Context images and where a function's stores lie (04 R180, R183, Table CORE-15) -/

/-- The device address of a slot's context image (R180, 06 R225). -/
def imageBase (s : State) (g sl : Nat) : Nat := g / 160 * stackSize + ctxStart s + (160 * sl + g % 160) * 0x350000

/-- The offset of a local address in a context image (Table CORE-15). -/
def imageOffset (a : Nat) : Nat :=
  if 0x400000 ≤ a then 0x300000 + (a - 0x400000) else a / 0x10000 * 0xC000 + a % 0x10000

/-- Is a function's local address of a cluster held by the live stores: the resident slot's, and during a switch by blocks of
4 KiB (R46, R183)? -/
def isLive (s : State) (g fn a : Nat) : Bool :=
  match slotOf s g fn with
  | none => true
  | some sl => match (slotSt s g).switch with
    | none => sl == resSlot s g
    | some w =>
      if w.saving then sl == resSlot s g && decide (w.blocks ≤ imageOffset a / 4096)
      else sl == w.slot && decide (imageOffset a / 4096 < w.blocks)

/-- The device address of a function's local address in its context image. -/
def imageAddr (s : State) (g fn a : Nat) : Nat := imageBase s g ((slotOf s g fn).getD 0) + imageOffset a

/-- Do the stacks hold a context-save region (Table DST-1)? -/
def hasImages (s : State) : Bool := flag s R.dstLayout 8

/-- n bytes of a context image; zeros where no stack holds one (log 67). -/
def readImage (s : State) (a n : Nat) : List Byte := if hasImages s then readDeep s a n else zeros n
/-- A byte run written to a context image; it goes nowhere where no stack holds one (log 67). -/
def writeImage (s : State) (a : Nat) (bs : List Byte) : State := if hasImages s then writeDeep s a bs else s

/-- n bytes at a local address of a cluster as pieces, each within one block of a context image. -/
def placeCuts (a n : Nat) : List (Nat × Nat) :=
  (cut4k (imageOffset a) n).map fun c => (a + (c.1 - imageOffset a), c.2)

/-- n bytes of a function's stores of a cluster, live or saved. -/
def readPlace (s : State) (g fn a n : Nat) : List Byte :=
  (placeCuts a n).flatMap fun c =>
    if isLive s g fn c.1 then readStore s g c.1 c.2 else readImage s (imageAddr s g fn c.1) c.2

/-- The runs of store keys and of deep-store addresses that n bytes of a function's stores of a cluster are. -/
def placeRuns (s : State) (g fn a n : Nat) : List (Nat × Nat) × List (Nat × Nat) :=
  let cs := placeCuts a n
  ((cs.filter fun c => isLive s g fn c.1).map fun c => (storeKey g c.1, c.2),
   (cs.filter fun c => !isLive s g fn c.1 && hasImages s).map fun c => (imageAddr s g fn c.1, c.2))

/-! ### Tallies (10 R391 to R395) -/

/-- The tallies of a function on a die: base and count. -/
def tallyRange (s : State) (fn d : Nat) : Nat × Nat :=
  (getF s (R.vfTally fn d) 13 0, getF s (R.vfTally fn d) 30 16)
/-- The count of a function's tally on a die. -/
def tallyCount (s : State) (fn d idx : Nat) : Nat :=
  (SMap.getD s.rem.tallies (16384 * d + (tallyRange s fn d).1 + idx) Tally.free).count
/-- n is added to a function's tally on a die, modulo 2^32 (R393), which the function then holds (R392; log 96); an index
that is not the function's changes nothing. -/
def tallyAdd (s : State) (fn d idx n : Nat) : State :=
  if idx < (tallyRange s fn d).2 then
    let k := 16384 * d + (tallyRange s fn d).1 + idx
    let x : Tally := ⟨((SMap.getD s.rem.tallies k Tally.free).count + n) % 2 ^ 32, fn, true⟩
    { s with rem := { s.rem with tallies := SMap.setD s.rem.tallies k Tally.free x } }
  else s
/-- Has a count passed a target (R395)? -/
def tallyPassed (count target : Nat) : Bool := decide ((count + (2 ^ 32 - target % 2 ^ 32)) % 2 ^ 32 < 2 ^ 31)

/-! ### Output, free values and names -/

/-- Something is put out. -/
def emit (s : State) (e : Emission) : State := { s with out := s.out ++ [e] }
/-- A fresh free value of w bits (log 3): a value that the spec leaves undefined. -/
def fresh (s : State) (w : Nat) : Nat × State :=
  ((Config.freeValue s.freeCtr).toNat % 2 ^ w, { s with freeCtr := s.freeCtr + 1 })
/-- n fresh free bytes. -/
def freshBytes (s : State) (n : Nat) : List Byte × State :=
  ((upto s.freeCtr n).map fun i => (Config.freeValue i).setWidth 8, { s with freeCtr := s.freeCtr + n })
/-- A new name (log 4). -/
def newId (s : State) : Nat × State := (s.nextId, { s with nextId := s.nextId + 1 })

/-! ### Frames of local origin (07 R252; 18 R653) -/

/-- A frame with every field at 0. -/
def Frame.blank : Frame :=
  { typ := 0, cls := 0, epoch := 0, mc := false, gal := false, grly := false, defl := false, hops := 0, rsv1 := 0,
    dst := 0, src := 0, job := 0, status := 0, age := 0, flow := 0, cid := 0, len := 0, gcoord := 0, rsv14 := 0,
    offset := 0, tally := 0xFFFF, tsw := 0, ecrc := 0, payload := [] }

/-- A frame joins those of local origin that wait for the door. -/
def sendFrame (s : State) (org : Origin) (f : Frame) : State :=
  let r := newId s
  { r.2 with outbox := r.2.outbox ++ [⟨r.1, f, org⟩] }

/-- A BELL frame of local origin (07 Table FAB-3, R250). -/
def sendBell (s : State) (mc : Bool) (dst src job code arg : Nat) (payload : List Byte) : State :=
  sendFrame s (.device 0x7F1) { Frame.blank with
    typ := 6, cls := 3, mc := mc, dst := dst, src := src, job := job, len := payload.length / 16,
    tsw := code + 256 * arg, payload := payload }

/-- The frames of local origin that are not yet admitted: at the door, in a shaper's line, or waiting (09 R342). -/
def localPending (s : State) : List Pkt := s.outbox ++ s.fab.door.map (·.pkt) ++ s.fab.waiting.map (·.pkt)

/-- Is a frame of the COPY of this name not yet admitted (04 R164)? -/
def copyPending (s : State) (id : Nat) : Bool :=
  (localPending s).any fun p => match p.org with
    | .core _ _ _ c => c == id && id != 0
    | .host _ _ _ => false
    | .reply _ => false
    | .mill _ _ _ _ => false
    | .device _ => false
    | .port _ => false

/-- A byte run cut at every boundary of k bytes of its offset. -/
def cutEvery (k off : Nat) (bs : List Byte) (fuel : Nat) : List (Nat × List Byte) :=
  match fuel with
  | 0 => []
  | n + 1 =>
    if bs.isEmpty then []
    else
      let m := k - off % k
      (off, bs.take m) :: cutEvery k (off + m) (bs.drop m) n

/-- A byte run cut at every 4,096-byte boundary of its offset (10 R379). -/
def cutRun (off : Nat) (bs : List Byte) (fuel : Nat) : List (Nat × List Byte) := cutEvery 4096 off bs fuel

/-! ### Writes to host memory (14 R509, R510) -/

/-- The writes that carry bytes to host memory for a function: each within one aligned block of Max Payload Size. -/
def hostTlps (s : State) (fn addr : Nat) (bs : List Byte) : List Emission :=
  let k := 128 * 2 ^ s.host.payload.val
  (cutEvery k addr bs (bs.length / k + 2)).map fun p => .hostWrite fn p.1 p.2
/-- A write to host memory for a function. -/
def hostWrite (s : State) (fn addr : Nat) (bs : List Byte) : State := { s with out := s.out ++ hostTlps s fn addr bs }

/-! ### The mesh of a die (07 R272) -/

/-- The mesh of a die. -/
def meshOf (s : State) (d : Nat) : MeshSt := SMap.getD s.fab.mesh d MeshSt.empty
/-- The state with the mesh of a die. -/
def setMesh (s : State) (d : Nat) (m : MeshSt) : State :=
  { s with fab := { s.fab with mesh := SMap.setD s.fab.mesh d MeshSt.empty m } }

/-- A core's frame joins those that wait for the door, and its packets enter the mesh of its die, ordered where its function's
WRITE frames are (07 R272 to R274, R281; 09 R344). -/
def sendCore (s : State) (no fn : Nat) (org : Origin) (f : Frame) : State :=
  let t := sendFrame s org f
  let g := no / 64
  setMesh t (g / 160)
    (injectFrame (meshOf s (g / 160)) (nowNs s / 4) s.nextId (g % 160) fn (!flag s (R.polClass fn) 0) f)

/-- Has a frame of local origin still packets on their way to the die link? -/
def crossing (s : State) (p : Pkt) : Bool :=
  match p.org with
  | .core no _ _ _ => (meshOf s (no / 10240)).crossing p.uid
  | .host _ _ _ => false
  | .reply _ => false
  | .mill _ _ _ _ => false
  | .device _ => false
  | .port _ => false

/-- The WRITE frames of one run of a core's function to an endpoint (10 R377 to R379). -/
def sendRun (s : State) (no : Nat) (org : Origin) (fn ep rt off : Nat) (bs : List Byte) : State :=
  (cutRun off bs (bs.length / 4096 + 2)).foldl (fun s p =>
    sendCore s no fn org { Frame.blank with
      typ := 0, cls := 1, dst := ep, src := fnEp s fn, job := fnJob s fn, len := p.2.length / 16,
      offset := p.1, tally := rt, tsw := 1, payload := p.2 }) s

/-! ### The end of a work list (04 R142, R147; 14 R528) -/

/-- The sequencer state of a function on a core. -/
def seqOf (s : State) (core fn : Nat) : SeqSt :=
  SMap.getD (SMap.getD s.comp.seqs core []) fn ⟨[], none, [], FpFlags.none⟩
/-- The state with a function's sequencer state on a core. -/
def setSeq (s : State) (core fn : Nat) (q : SeqSt) : State :=
  let m := SMap.setD (SMap.getD s.comp.seqs core []) fn ⟨[], none, [], FpFlags.none⟩ q
  { s with comp := { s.comp with seqs := SMap.setD s.comp.seqs core [] m } }
/-- The state with the running list of a function on a core. -/
def setRun (s : State) (core fn : Nat) (r : RunList) : State := setSeq s core fn { seqOf s core fn with run := some r }

/-- A list's end is reported to the LAUNCH that waits for it (14 R528, R534). -/
def reportList (s : State) (l : Launch) (status didx : Nat) (fl : FpFlags) : State :=
  let set : LaunchRes → LaunchRes := fun r =>
    if r.id = l.id then { r with status := some status, didx := didx, flags := fl } else r
  let upd : HostDesc → HostDesc := fun h =>
    if h.fn = l.host.1 ∧ h.ring = l.host.2.1 ∧ h.idx = l.host.2.2 then { h with lists := h.lists.map set } else h
  { s with host := { s.host with descs := s.host.descs.map upd } }

/-- The running list of a function on a core ends with a status and the index that stopped it. -/
def endList (s : State) (core fn status didx : Nat) : State :=
  let q := seqOf s core fn
  match q.run with
  | none => s
  | some r => reportList (setSeq s core fn { q with run := none }) r.launch status didx q.flags

/-- The index from the start of the list at which a running list stands: the STAGE's inside a sub-list (R142). -/
def RunList.index (r : RunList) : Nat :=
  match r.outer with
  | some o => o.idx
  | none => r.idx

/-- The running list of a function on a core stops at the descriptor at hand (R142). -/
def stopList (s : State) (core fn status : Nat) : State :=
  match (seqOf s core fn).run with
  | none => s
  | some r => endList s core fn status (RunList.index r)

/-- Every list, running or queued, of one core and function that meets a test ends with a status, no descriptor having
stopped it. -/
def stopSeq (s : State) (core fn status : Nat) (p : Launch → Bool) : State :=
  let s1 := match (seqOf s core fn).run with
    | none => s
    | some r => if p r.launch then endList s core fn status 0xFFFF else s
  let q := seqOf s1 core fn
  let s2 := setSeq s1 core fn { q with queue := q.queue.filter fun l => !p l }
  (q.queue.filter p).foldl (fun s l => reportList s l status 0xFFFF FpFlags.none) s2

/-- The (core, function) pairs that have a sequencer state. -/
def seqKeys (s : State) : List (Nat × Nat) := s.comp.seqs.flatMap fun e => e.2.map fun f => (e.1, f.1)

/-- Every list that meets a test on core, function and launch ends with a status. -/
def stopLists (s : State) (status : Nat) (p : Nat → Nat → Launch → Bool) : State :=
  (seqKeys s).foldl (fun s k => stopSeq s k.1 k.2 status (p k.1 k.2)) s

/-- The flags a list raises: its own set and the die's `CPX_FPSTAT` (02 R92). -/
def raiseFlags (s : State) (core fn : Nat) (fl : FpFlags) : State :=
  let q := seqOf s core fn
  let s := setSeq s core fn { q with flags := q.flags.or fl }
  let off := R.cpxFpstat (core / 10240)
  let w := b2n fl.flushed + 2 * b2n fl.nangen + 4 * b2n fl.infgen + 8 * b2n fl.ovf
  wr s off (rd s off ||| w)

/-- A held low word is discarded by a write to any other BAR0 offset than its register's (00 R14). -/
def dropHeld (s : State) (base : Nat) : State :=
  match s.held with
  | none => s
  | some (o, _) => if o = base then s else { s with held := none }

end Sys2Proof.Machine
end

