-- ==== Sys2Proof/Machine/Faults.lean ====
section
/-! DEFINITION. Sys2Proof/Machine/Faults.lean: the windowed count of events, retirement, FAULT bells and device faults
(18_startup_faults.md R645 to R653), and the errors of the stores that feed them (04 R135, 06 R234 to R242). -/

namespace Sys2Proof.Machine

/-! ### FAULT bells (R653) -/

/-- The functions bound to a job tag. -/
def boundFns (s : State) (job : Nat) : List Nat := allFns.filter fun fn => fnBound s fn && fnJob s fn == job
/-- The job tags bound on the device, each once. -/
def boundJobs (s : State) : List Nat := ((allFns.filter (fnBound s)).map (fnJob s)).eraseDups

/-- The FAULT bell of a job (R653): to `GNG_SRC.MEP` and to the drain group of each function bound to the job. -/
def faultBell (s : State) (cause unit job : Nat) : State :=
  let payload := leBytes 8 Config.devid.toNat ++ leBytes 8 (nowNs s)
  let src := getF s R.gngUep 15 0
  let s := sendBell s false (getF s R.gngSrc 15 0) src job 1 (cause + 256 * unit) payload
  (boundFns s job).foldl (fun s fn =>
    if bit (bindOf s fn) 44 then
      sendBell s true (bits (bindOf s fn) 43 32) src job 1 (cause + 256 * unit) payload
    else s) s

/-- The FAULT bells of several jobs. -/
def faultBells (s : State) (cause unit : Nat) (jobs : List Nat) : State :=
  jobs.foldl (fun s j => faultBell s cause unit j) s

/-! ### Device faults (R651) -/

/-- A stream traps with a code at an address (11 R444): its handler stops, STATE is 2, and the first trap since VALID was
cleared is logged. -/
def trapStream (s : State) (m n code pc : Nat) : State :=
  let x := streamOf s m n
  let s := setStream s m n { x with state := 2, trap := code, tpc := pc }
  let s := match (millOf s m).run with
    | some h => if h.stream = n then setMill s m { millOf s m with run := none } else s
    | none => s
  let s := raise s R.milStat 1
  if flag s (R.milTrap + 4) 31 then s
  else wr64 s R.milTrap (2 ^ 63 + 2 ^ 44 * m + 2 ^ 36 * n + 2 ^ 24 * code + 2 ^ 12 * pc + x.job)

/-- The VALID streams of a mill. -/
def validStreams (s : State) (m : Nat) : List Nat :=
  ((millOf s m).streams.filter fun e => StreamSt.valid e.2).map (·.1)

/-- A stream of its own traps (11 R444), which ends its collective: its job gets a FAULT bell (12 R467; log 98). -/
def trapOne (s : State) (m n code pc : Nat) : State :=
  faultBell (trapStream s m n code pc) 0x12 m (streamOf s m n).job

/-- Every VALID stream of a mill is trapped with MEM. The address is that of its running handler, else its ENTRY (log 26). -/
def trapMill (s : State) (m : Nat) : State :=
  (validStreams s m).foldl (fun s n =>
    let pc := match (millOf s m).run with
      | some h => if h.stream = n then h.pc else leAt (streamOf s m n).bytes 0 2 % 4096
      | none => leAt (streamOf s m n).bytes 0 2 % 4096
    trapStream s m n 13 pc) s

/-- Every VALID stream of a mill is trapped with MEM, and each of their jobs gets a FAULT bell (11 R445, R446; 12 R467). -/
def trapJobs (s : State) (m : Nat) : State :=
  faultBells (trapMill s m) 0x12 m ((validStreams s m).map fun n => (streamOf s m n).job).eraseDups

/-- Every stream of every mill is trapped with MEM (R651; 11 R444). -/
def trapAllStreams (s : State) : State := (List.range 16).foldl trapMill s

/-- SMB0_ALERT_N goes low (17 R621). -/
def alertLow (s : State) : State :=
  if s.mgmt.alert then s else emit { s with mgmt := { s.mgmt with alert := true } } (.pin "SMB0_ALERT_N" false)

/-- A device fault (R651): the first one is recorded, stops every list with FAULT, traps every stream and sends the
FAULT bells; later ones change nothing. -/
def deviceFault (s : State) (cause unit : Nat) : State :=
  if flag s R.glbFault 31 then s
  else
    let s := wr s R.glbFault (2 ^ 31 + 256 * unit + cause)
    let s := if flag s R.mgtCtl 0 then emit s (.pin "FAULT_N" false) else s
    let s := trapAllStreams (stopLists (alertLow s) 9 fun _ _ _ => true)
    faultBells s cause unit (boundJobs s)

/-! ### The windowed count (R645 to R647) -/

/-- Is a resource retired? -/
def isRetired (s : State) : Res → Bool
  | .row _ => false
  | .lane n => bit (rd s (R.prtLane (n / 8))) (24 + n % 8)
  | .port p => flag s (R.prtStat p) 25
  | .mill m => flag s (R.milUnit m) 31
  | .cluster g => fenced s g

/-- The stack of a row's number. -/
def rowStack (n : Nat) : Nat := n / (2 ^ 17 * 16 * 3 * 32)

/-- The times kept for a resource. -/
def timesOf (s : State) (r : Res) : List Nat := ((s.flt.events.find? fun e => e.1 == r).map (·.2)).getD []

/-- Does an entry of the event lists track a row of a stack? -/
def tracksStack (d : Nat) (e : Res × List Nat) : Bool :=
  match e.1 with
  | .row m => rowStack m == d
  | .lane _ => false
  | .port _ => false
  | .mill _ => false
  | .cluster _ => false

/-- A row that is new to a full table of its stack replaces the entry whose newest event is oldest (R647). -/
def makeRoom (s : State) (r : Res) : State :=
  match r with
  | .row n =>
    let mine := s.flt.events.filter (tracksStack (rowStack n))
    if s.flt.events.any (fun e => e.1 == r) ∨ mine.length < 1024 then s
    else
      let oldest := mine.foldl (fun (acc : Res × List Nat) e => if e.2.headD 0 < acc.2.headD 0 then e else acc)
        (mine.headD (r, []))
      let s := raise (bump s R.glbCntEvict 1) R.glbFstat 2
      { s with flt := { s.flt with events := s.flt.events.filter fun e => e.1 != oldest.1 } }
  | .lane _ => s
  | .port _ => s
  | .mill _ => s
  | .cluster _ => s

/-- The state with the times of a resource. -/
def setTimes (s : State) (r : Res) (ts : List Nat) : State :=
  let rest := s.flt.events.filter fun e => e.1 != r
  { s with flt := { s.flt with events := if ts.isEmpty then rest else rest ++ [(r, ts)] } }

/-- n events on a resource at this lamp tick (R645, R646): the new state, and whether it is marked lasting. -/
def event (s : State) (r : Res) (n : Nat) : State × Bool :=
  if isRetired s r ∨ s.flt.retiring.contains r then (s, false)
  else
    let s := makeRoom s r
    let limit := getF s R.glbFwin 3 0
    let now := lampTick s
    let ts := (List.replicate n now ++ timesOf s r).take limit
    if ts.length = limit ∧ now - ts.getLastD now ≤ getF s R.glbFwin 31 16 * 500000 then (setTimes s r [], true)
    else (setTimes s r ts, false)

/-- Is a record's new entry written to the boot flash? Whether that write fails is a free bit; a failure sets RECERR, and the
entry is then not there for the next boot (R638, log 6). -/
def recordWrite (s : State) : Bool × State :=
  let r := fresh s 1
  if r.1 = 0 then (true, r.2) else (false, raise r.2 R.glbFstat 3)

/-- A retirement is counted and recorded in the fault record (R638, R648). -/
def recordRetired (s : State) (r : Res) : State :=
  let w := recordWrite (raise (bump s R.glbCntRetire 1) R.glbFstat 1)
  let s := w.2
  { s with flt := { s.flt with
      record := if w.1 && !s.flt.record.contains r then s.flt.record ++ [r] else s.flt.record } }

/-! ### Clusters (R648, R649; 04 R190) -/

/-- The clusters (by number) that a copy of a core's list touches: SPACE 0 and SPACE 1 operands of its descriptor. -/
def copyClusters (core : Nat) (desc : List Byte) : List Nat :=
  let g := core / 64
  let one : Nat → List Nat := fun o =>
    let sp := byteAt desc (o + 7) / 64
    if sp = 0 then [g] else if sp = 1 then [g / 160 * 160 + byteAt desc (o + 4)] else []
  one 8 ++ one 16

/-- The asynchronous copies that touch a cluster stop; the lists of theirs that still run stop with FAULT (04 R147). -/
def stopCopiesOn (s : State) (g : Nat) : State :=
  (seqKeys s).foldl (fun s k =>
    let q := seqOf s k.1 k.2
    let hit := q.copies.filter fun c => memNat g (copyClusters k.1 c.desc)
    if hit.isEmpty then s
    else
      let s := setSeq s k.1 k.2 { q with copies := q.copies.filter fun c => !memNat g (copyClusters k.1 c.desc) }
      match q.run with
      | some r => if hit.any (fun c => c.launch == r.launch.id) then stopList s k.1 k.2 9 else s
      | none => s) s

/-- A cluster is fenced (R648, R649): at once, its transfer stops, the lists of every function on it stop with FAULT, and
the jobs of its functions get FAULT bells. -/
def fenceCluster (s : State) (g : Nat) : State :=
  let s := setF s (clownOff g + 4) 31 31 1
  let s := recordRetired s (.cluster g)
  let s := { s with comp := { s.comp with slots := SMap.setD s.comp.slots g ⟨0, false, none⟩ { slotSt s g with switch := none } } }
  let s := stopLists s 9 fun core _ _ => core / 64 == g
  let s := stopCopiesOn s g
  let fns := ((List.range 4).filter (slotValid s g)).map (slotFn s g)
  faultBells s 0x15 g ((fns.map (fnJob s)).eraseDups)

/-- n events on a cluster, with its fence where they mark it lasting. -/
def clusterEvent (s : State) (g n : Nat) : State :=
  let r := event s (.cluster g) n
  if r.2 then fenceCluster r.1 g else r.1

/-! ### Mills (11 R445, R446) -/

/-- A mill is bypassed: BYP is set, its streams trap with MEM, and each VALID stream's job gets a FAULT bell. -/
def bypassMill (s : State) (m : Nat) : State := trapJobs (setF s (R.milUnit m) 31 31 1) m

/-- An event on a mill, with its bypass where it marks the mill lasting (R645, R648). -/
def millEvent (s : State) (m : Nat) : State :=
  let r := event s (.mill m) 1
  if r.2 then bypassMill (recordRetired r.1 (.mill m)) m else r.1

/-! ### Rows (06 R238 to R242) -/

/-- The bank of a row: stack, pseudo-channel, group and bank in one number. -/
def rowBank (n : Nat) : Nat := n / 2 ^ 17
/-- The granule that holds a row (06 R223, R229). -/
def rowGranule (n : Nat) : Nat :=
  let bankNo := rowBank n
  let sid := bankNo / 16 % 3
  let p := sid * 2 ^ 31 + (n % 2 ^ 17) * 2 ^ 14 + (bankNo % 16) * 2 ^ 10
  768 * rowStack n + p * 32 / 2 ^ 28

/-- The spares of a bank that rows have been copied to or are being copied to (R239). -/
def sparesUsed (s : State) (b : Nat) : Nat :=
  (s.deep.rowMap.filter fun e => rowBank e.1 == b).length + (s.deep.copies.filter fun c => rowBank c.row == b).length

/-- A bank has no free spare: its stack counts it, and more than 64 such banks are a device fault (R242, `DST_SPARE.EXH`). -/
def exhaustBank (s : State) (b : Nat) : State :=
  if memNat b s.deep.exhausted then s
  else
    let d := rowStack (b * 2 ^ 17)
    let s := { s with deep := { s.deep with exhausted := s.deep.exhausted ++ [b] } }
    let s := bumpF s (R.dstSpare d) 31 16 1
    if getF s (R.dstSpare d) 31 16 > 64 then deviceFault s 0x06 0 else s

/-- A row marked lasting (R239, R241): its copy into the bank's next spare starts; where none is free, its granule turns
BAD. -/
def retireRow (s : State) (n : Nat) : State :=
  let used := sparesUsed s (rowBank n)
  if used < 32 then
    let s := { s with
      deep := { s.deep with copies := s.deep.copies ++ [⟨n, used⟩] }
      flt := { s.flt with retiring := s.flt.retiring ++ [.row n] } }
    if used = 31 then exhaustBank s (rowBank n) else s
  else setF (raise s R.dstStat 2) (R.dstOwn (rowGranule n)) 30 30 1

/-- n events on the row of a device address. -/
def rowEvent (s : State) (a n : Nat) : State :=
  let r := event s (.row (rowNo a)) n
  if r.2 then retireRow r.1 (rowNo a) else r.1

/-! ### Reads that meet errors -/

/-- The upsets of the command at hand that a run of reads does not meet. -/
def Upsets.past (u : Upsets) (st dp : List (Nat × Nat)) : Upsets :=
  { u with
    store := u.store.filter fun e => !(st.any fun r => touches r.1 r.2 (e.1 / 16 * 16)),
    deep := u.deep.filter fun e => !(dp.any fun r => !(deepHits [e.1] r.1 r.2).isEmpty) }

/-- A pseudo-channel is lost: a device fault (R242). -/
def losePc (s : State) (c : Nat) : State :=
  if memNat c s.deep.lost then s
  else deviceFault { s with deep := { s.deep with lost := s.deep.lost ++ [c] } } 0x06 0

/-- A command's upsets stand while it is carried out (log 66): lines and codewords struck beyond correction join those in
error, pseudo-channels are lost, and the corrected ones are met by the first read that touches them; none is left over. -/
def meeting (u : Upsets) (f : State → State) (s : State) : State :=
  let t := f { strikeDeep (strikeStore (u.lost.foldl losePc s) u.storeUe) u.deepUe with ups := u }
  { t with ups := Upsets.none }

/-- The first codeword that n bytes at a device address touch and that lies in a lost pseudo-channel: every read there is
uncorrectable (R242, log 66). -/
def lostHit (s : State) (a n : Nat) : Option Nat :=
  if n = 0 ∨ s.deep.lost.isEmpty then none
  else ((upto (a / 256) ((a + n - 1) / 256 + 1 - a / 256)).find? fun i =>
    memNat (i * 256 / stackSize * 32 + pcOf (i * 256 % stackSize)) s.deep.lost).map fun i => max a (i * 256) / 64 * 64

/-- The reads of one step from the stores, as runs (key, length), meet their errors (04 R134, R135): corrected lines are
counted; the first uncorrectable line is counted, logged and, at its first detection, counts as an event on its
cluster. Answers whether one was met. -/
def meetStore (s : State) (runs : List (Nat × Nat)) : State × Bool :=
  let s1 := (Upsets.storeCe s.ups).foldl (fun s l =>
    if runs.any fun r => touches r.1 r.2 (l / 16 * 16) then bumpF s (R.cpxStecc (l / 2 ^ 24 / 160)) 15 0 1 else s) s
  let s := { s1 with ups := Upsets.past s.ups runs [] }
  match firstUe s runs with
  | none => (s, false)
  | some (l, seen) =>
    let s := logStoreUe s l
    if seen then (s, true)
    else
      let s := { s with comp := { s.comp with storeUe := SMap.put s.comp.storeUe l true } }
      (clusterEvent s (l / 2 ^ 24) 1, true)

/-- The reads of one step from deep store, as runs (address, length), meet their errors (06 R234, R235, R238): each
corrected codeword counts and is an event on its row; the first uncorrectable one is counted, logged for reader SRC and
counts as three. Answers whether one was met. -/
def meetDeep (s : State) (src : Nat) (runs : List (Nat × Nat)) : State × Bool :=
  let s1 := (Upsets.deepCe s.ups).foldl (fun s c =>
    if runs.any fun r => !(deepHits [c] r.1 r.2).isEmpty then rowEvent (bumpF s R.dstEcc 15 0 1) c 1 else s) s
  let s := { s1 with ups := Upsets.past s.ups [] runs }
  match runs.findSome? fun r => ((deepHits s.deep.ue r.1 r.2).head?).or (lostHit s r.1 r.2) with
  | none => (s, false)
  | some c => (rowEvent (logDeepUe s src c) c 3, true)

/-- A byte run written to the stores; each line that it covers in part is read first, and one in error is met as a read meets
it (R135). Answers whether one was met. -/
def putStore (s : State) (a : Nat) (bs : List Byte) : State × Bool :=
  let n := bs.length
  let parts := if n = 0 then [] else
    (if a % 16 = 0 ∧ 16 ≤ n then [] else [(a / 16 * 16, 16)]) ++
      (if (a + n) % 16 = 0 ∨ (a + n) / 16 = a / 16 then [] else [((a + n) / 16 * 16, 16)])
  let r := writeKey s a bs
  if r.2.isEmpty ∧ s.ups.store.isEmpty then (r.1, false) else meetStore r.1 parts

/-- A byte run written for a function at a local address of a cluster: to its live stores, or to its image (R46, R183).
Answers whether a line in error was met. -/
def putPlace (s : State) (g fn a : Nat) (bs : List Byte) : State × Bool :=
  (placeCuts a bs.length).foldl (fun acc c =>
    let piece := (bs.drop (c.1 - a)).take c.2
    if isLive acc.1 g fn c.1 then
      let w := putStore acc.1 (storeKey g c.1) piece
      (w.1, acc.2 || w.2)
    else (writeImage acc.1 (imageAddr acc.1 g fn c.1) piece, acc.2)) (s, false)

/-- The reads of one step meet their errors: store runs, then deep-store runs for reader SRC (04 R135, 06 R235). Answers
whether an uncorrectable one was met. -/
def meetRuns (s : State) (src : Nat) (rs : List (Nat × Nat) × List (Nat × Nat)) : State × Bool :=
  let a := meetStore s rs.1
  if a.2 then a else meetDeep a.1 src rs.2

end Sys2Proof.Machine
end

