-- ==== Sys2Proof/Machine/Frames.lean ====
section
/-! DEFINITION. Sys2Proof/Machine/Frames.lean: a frame as bytes, its check value, its flow hash, its malformed forms, and
the tables that route it (07_fabric_routing.md). -/

namespace Sys2Proof.Machine

/-! ### Size and check (R245, R251) -/

/-- The bytes of a frame, 32 + 16 x LEN (R342). -/
def Frame.size (f : Frame) : Nat := 32 + 16 * f.len

/-- ECRC (R251): the fields that change on the way are taken as zero. -/
def Frame.crc (f : Frame) : Nat :=
  let cid := if f.typ = 0 ∨ f.typ = 5 ∨ f.typ = 7 then 0 else f.cid
  let g := { f with cls := 0, grly := false, defl := false, hops := 0, age := 0, gcoord := 0, cid := cid }
  crc32c (Frame.head g ++ zeros 4 ++ f.payload)

/-- RLEN of a READ (Table FAB-3). -/
def Frame.rlen (f : Frame) : Nat := f.tsw % 512
/-- AOP of an ATOMIC. -/
def Frame.aop (f : Frame) : Nat := f.tsw % 16
/-- SIZE of an ATOMIC. -/
def Frame.asize (f : Frame) : Nat := f.tsw / 16 % 4
/-- TINC of a WRITE. -/
def Frame.tinc (f : Frame) : Nat := f.tsw % 65536
/-- CODE of a BELL. -/
def Frame.code (f : Frame) : Nat := f.tsw % 256
/-- ARG of a BELL. -/
def Frame.arg (f : Frame) : Nat := f.tsw / 256
/-- RANK of a MILL frame. -/
def Frame.rank (f : Frame) : Nat := f.tsw % 4096
/-- STREAM of a MILL frame. -/
def Frame.stream (f : Frame) : Nat := f.tsw / 4096 % 256

/-- BSEQ of a TSYNC. -/
def Frame.bseq (f : Frame) : Nat := f.tsw % 256
/-- BLEN of a TSYNC. -/
def Frame.blen (f : Frame) : Nat := f.tsw / 256 % 256

/-- A circuit bell (Table FAB-4). -/
def Frame.isCircuitBell (f : Frame) : Bool := f.typ == 6 && decide (2 ≤ f.code) && decide (f.code ≤ 5)

/-! ### Check 2 of Table FAB-6 (R247 to R250, R255) -/

/-- The classes a type may use (Table FAB-2). -/
def classOk (f : Frame) : Bool :=
  if f.typ = 0 ∨ f.typ = 5 then decide (f.cls < 3)
  else if f.typ < 5 then f.cls == 1 || f.cls == 2
  else if f.typ = 7 then true
  else f.cls == 3

/-- The LEN a type may carry (Table FAB-2), and a payload of LEN lines (R255). -/
def lenOk (f : Frame) : Bool :=
  (f.payload.length == 16 * f.len) &&
  (if f.typ = 0 ∨ f.typ = 2 ∨ f.typ = 5 then decide (1 ≤ f.len) && decide (f.len ≤ 256)
   else if f.typ = 3 then f.len == (if f.aop = 2 then 3 else 2)
   else if f.typ = 6 then decide (f.len ≤ 1)
   else f.len == 1)

/-- The operand size of an ATOMIC. -/
def atomicBytes (size : Nat) : Nat := if size = 0 then 4 else if size = 1 then 8 else 16

/-- OFFSET's alignment and the AOP and SIZE of an ATOMIC (R249). -/
def offsetOk (f : Frame) : Bool :=
  if f.typ = 0 ∨ f.typ = 1 ∨ f.typ = 2 ∨ f.typ = 5 then f.offset % 16 == 0
  else if f.typ = 3 then decide (f.aop < 4) && decide (f.asize < 3) && f.offset % atomicBytes f.asize == 0
  else true

/-- The reserved fields (R255, Tables FAB-1 and FAB-3) are 0. -/
def reservedOk (f : Frame) : Bool :=
  f.rsv1 == 0 && f.rsv14 == 0 && (!f.mc || decide (f.dst < 4096)) && (!f.gal || f.mc) &&
  (f.status == 0 || f.typ == 2 || f.typ == 4) &&
  (if f.typ = 0 ∨ f.typ = 5 ∨ f.typ = 7 then f.cls == 0 || f.cid == 0
   else if f.typ = 6 ∨ f.typ = 8 then f.cid == 0 else true) &&
  (if f.typ = 0 then decide (f.tsw < 2 ^ 16)
   else if f.typ = 1 then decide (f.tsw < 2 ^ 9) && zeroAt f.payload 8 8
   else if f.typ = 2 ∨ f.typ = 4 then f.tsw == 0
   else if f.typ = 3 then decide (f.tsw < 2 ^ 6) && zeroAt f.payload 8 8
   else if f.typ = 5 then decide (f.tsw < 2 ^ 20)
   else if f.typ = 7 then f.tsw / 2 % 2 ^ 15 == 0
   else if f.typ = 8 then decide (f.tsw < 2 ^ 16) && zeroAt f.payload 8 8
   else true)

/-- Is a frame well formed in the parts of check 2 that need no route entry? -/
def wellFormed (f : Frame) : Bool :=
  decide (f.typ < 9) && classOk f && lenOk f && offsetOk f && reservedOk f &&
  (f.typ != 6 || (decide (1 ≤ f.code) && decide (f.code ≤ 8))) &&
  (f.typ != 8 || (if f.blen = 0 then decide (f.bseq < 2) else decide (2 ≤ f.blen) && decide (f.bseq < f.blen)))

/-! ### Flow hash (R263) -/

/-- A 16-bit rotation left. -/
def rotl16 (x n : Nat) : Nat := (x <<< n) % 65536 ||| (x % 65536) >>> (16 - n)

/-- FLOW of a frame (R263). -/
def flowHash (src dst job scl seed : Nat) : Nat :=
  let h := src ^^^ rotl16 dst 8 ^^^ job ^^^ rotl16 scl 4 ^^^ seed
  let h := (h ^^^ (h >>> 7)) % 65536
  (h ^^^ ((h <<< 5) % 65536)) % 65536

/-- The scl of a frame's sender (R263, Table FAB-11). -/
def Origin.scl : Origin → Nat
  | .core no _ _ _ => no / 64
  | .host fn _ _ => 0x500 + fn
  | .reply _ => 0x7F0
  | .mill m _ _ _ => 0x780 + m
  | .device c => c
  | .port _ => 0

/-! ### Tables and banks (R257, R284, R288, R291 to R294) -/

/-- `FAB_EPOCH.CUR`. -/
def curEpoch (s : State) : Nat := getF s R.fabEpoch 1 0
/-- The route entry of an endpoint in a bank. -/
def routeOf (s : State) (bank dst : Nat) : Nat := SMap.getD s.fab.routes (65536 * bank + dst % 65536) 0
/-- The group entry of a group in a bank. -/
def groupOf (s : State) (bank g : Nat) : Nat := SMap.getD s.fab.groups (4096 * bank + g % 4096) 0
/-- The gallery map's word of dimension 1 to 3 and coordinate c in a bank. -/
def galleryOf (s : State) (bank dim c : Nat) : Nat := SMap.getD s.fab.gallery (48 * bank + 16 * (dim - 1) + c) 0

/-- Route-entry fields (Table FAB-5). -/
def rtValid (e : Nat) : Bool := bit e 32
/-- LOCAL. -/
def rtLocal (e : Nat) : Bool := bit e 33
/-- LKIND. -/
def rtKind (e : Nat) : Nat := bits e 35 34
/-- LUNIT. -/
def rtUnit (e : Nat) : Nat := bits e 39 36
/-- MCG. -/
def rtMcg (e : Nat) : Bool := bit e 45
/-- GRP. -/
def rtGrp (e : Nat) : Nat := bits e 57 46
/-- GLINE. -/
def rtLine (e : Nat) : Nat := bits e 42 41
/-- The valid candidates of an entry, in slot order. -/
def rtPorts (e : Nat) : List Nat :=
  ((List.range 4).filter fun k => bit e (8 * k + 7)).map fun k => bits e (8 * k + 5) (8 * k)

/-- Group-entry fields (Table FAB-9): PMASK. -/
def grpPorts (g : Nat) : List Nat := (List.range 64).filter (bit g)
/-- DMASK. -/
def grpDies (g : Nat) : List Nat := (List.range 8).filter fun d => bit g (64 + d)
/-- VALID. -/
def grpValid (g : Nat) : Bool := bit g 72
/-- GDIM. -/
def grpDim (g : Nat) : Nat := bits g 74 73
/-- The clusters of CMASK d. -/
def grpClusters (g d : Nat) : List Nat := (List.range 160).filter fun i => bit g (128 + 160 * d + i)

/-- The bank that routes an epoch, where the door accepts it (R294). -/
def epochBank (s : State) (e : Nat) : Option Nat :=
  let c := curEpoch s
  if e = c ∨ (e = (c + 3) % 4 ∧ flag s R.fabEpoch 4) ∨ (e = (c + 1) % 4 ∧ flag s R.fabEpoch 8) then some (e % 2)
  else none

/-- The device's own coordinate in a dimension (`FAB_COORD`). -/
def ownCoord (s : State) (dim : Nat) : Nat := getF s R.fabCoord (4 * dim - 1) (4 * dim - 4)

/-! ### Ports (R261; 15_links.md R560, R571) -/

/-- The link state of a port at reset. -/
def PortSt.blank : PortSt :=
  { next := 0, unacked := [], ack := 0, nak := false, advanced := 0, errs := [], since := 0, stopping := none,
    width := none, wasUp := false, lastPeer := 0, doubt := [], bells := 0, failSent := false, retry := none,
    doubtAt := 0, result := none, good := 0, lanes := 0, ctlIn := [] }
/-- A port's link state. -/
def portOf (s : State) (p : Nat) : PortSt :=
  SMap.getD s.ports p PortSt.blank
/-- The state with a port's link state. -/
def setPort (s : State) (p : Nat) (x : PortSt) : State :=
  { s with ports := SMap.setD s.ports p PortSt.blank x }
/-- `PRT_STAT.STATE` (Table LNK-4). -/
def portState (s : State) (p : Nat) : Nat := getF s (R.prtStat p) 2 0
/-- Is a port up (R560): UP, and taking new frames? -/
def portUp (s : State) (p : Nat) : Bool := portState s p == 2 && (portOf s p).stopping.isNone
/-- The protocol level that a job requires (R571). -/
def jobLevel (s : State) (job : Nat) : Nat :=
  getF s (R.prtJlvl (job / 8)) (4 * (job % 8) + 3) (4 * (job % 8))
/-- Is a port usable for frames of a job (R261, R571)? -/
def usable (s : State) (p job : Nat) : Bool :=
  portUp s p && decide (jobLevel s job ≤ getF s (R.prtStat p) 11 8)

end Sys2Proof.Machine
end

