-- ==== Sys2Proof/Machine/Routing.lean ====
section
/-! DEFINITION. Sys2Proof/Machine/Routing.lean: the packet queues with their caps and their places in pool and sump
(09_queues_qos.md), circuit caps (08_circuits_delivery.md), translation windows, and the route of a frame on this device
(07_fabric_routing.md R256 to R290). -/

namespace Sys2Proof.Machine

/-! ### Queues (R342, R364) -/

/-- The packet queue q: ports take q = p, die links q = 64 + d. -/
def queueOf (s : State) (q : Nat) : PktQ := SMap.getD s.fab.queues q ⟨[], 0⟩
/-- The state with a packet queue. -/
def setQueue (s : State) (q : Nat) (x : PktQ) : State :=
  { s with fab := { s.fab with queues := SMap.setD s.fab.queues q ⟨[], 0⟩ x } }
/-- The control queue of a port (R302). -/
def ctlOf (s : State) (p : Nat) : List QEntry := SMap.getD s.fab.ctlq p []
/-- The state with a control queue. -/
def setCtl (s : State) (p : Nat) (l : List QEntry) : State :=
  { s with fab := { s.fab with ctlq := SMap.setD s.fab.ctlq p [] l } }
/-- The source queue of a circuit. -/
def srcqOf (s : State) (cid : Nat) : List QEntry := SMap.getD s.cir.srcq cid []
/-- The state with the source queue of a circuit. -/
def setSrcq (s : State) (cid : Nat) (l : List QEntry) : State :=
  { s with cir := { s.cir with srcq := SMap.setD s.cir.srcq cid [] l } }

/-- The bytes of a run of queue entries. -/
def bytesOf (l : List QEntry) : Nat := l.foldl (fun n e => n + e.f.size) 0
/-- The bytes queued in packet queue q, in the buffer and the sump. -/
def depthOf (s : State) (q : Nat) : Nat := bytesOf (queueOf s q).frames
/-- The bytes in mill m's input. -/
def millDepth (s : State) (m : Nat) : Nat := bytesOf (millOf s m).inq

/-- The unacknowledged frames of a port, which keep their space (15 R554), with those that wait for a link report. -/
def heldSent (s : State) (p : Nat) : List QEntry := ((portOf s p).unacked ++ (portOf s p).doubt).map (·.e)

/-- The bytes of the queue pool in use (Table SWQ-2, R365, R413, 15 R554). -/
def poolUsed (s : State) : Nat :=
  (s.fab.queues.foldl (fun n e => n + bytesOf (e.2.frames.filter fun x => !x.sump)) 0) +
  (s.ports.foldl (fun n e => n + bytesOf ((heldSent s e.1).filter fun x => !x.sump && x.f.cls != 3)) 0) +
  (s.cir.srcq.foldl (fun n e => n + bytesOf e.2) 0) +
  (s.mills.foldl (fun n e => n + (millDepth s e.1 - 512 * 1024)) 0)
/-- The queue pool: 56 MiB. -/
def poolSize : Nat := 56 * 1024 * 1024
/-- Has the pool room for a frame? -/
def poolRoom (s : State) (f : Frame) : Bool := decide (poolUsed s + f.size ≤ poolSize)
/-- The sump share of a packet queue (R364). -/
def sumpShare (s : State) : Nat := sumpUnits s * 0x10000000 / 9
/-- The bytes of packet queue q in its sump share. -/
def sumpUsed (s : State) (q : Nat) : Nat :=
  bytesOf ((queueOf s q).frames.filter (·.sump)) + (if q < 64 then bytesOf ((heldSent s q).filter (·.sump)) else 0)
/-- Where packet queue q can place a frame: the pool (false), the sump (true), or nowhere (R364, R366). -/
def placeAt (s : State) (q : Nat) (f : Frame) : Option Bool :=
  if poolRoom s f && !((queueOf s q).frames.any (·.sump)) then some false
  else if sumpUsed s q + f.size ≤ sumpShare s then some true
  else none

/-! ### Circuits' share of a port (R304 to R307, R328, R329) -/

/-- The cage entry of a slot of a port in a bank. -/
def cageOf (s : State) (bank p slot : Nat) : Nat := SMap.getD s.cir.cages (65536 * bank + 1024 * p + slot % 1024) 0
/-- The circuit entry of a CID in a bank. -/
def cirEntry (s : State) (bank cid : Nat) : Nat := SMap.getD s.cir.entries (65536 * bank + cid % 65536) 0
/-- `CIR_CTL.BANK`. -/
def cirBank (s : State) : Nat := getF s R.cirCtl 0 0
/-- The reserved slots of a port in a bank. -/
def cageSlots (s : State) (bank p : Nat) : List Nat :=
  (s.cir.cages.filter fun e => decide (65536 * bank + 1024 * p ≤ e.1) && decide (e.1 < 65536 * bank + 1024 * (p + 1)) &&
    bit e.2 16).map fun e => e.1 % 1024
/-- L60: the most reserved slots in any 60 consecutive slots, counted cyclically (R328). -/
def l60 (s : State) (bank p : Nat) : Nat :=
  let sl := cageSlots s bank p
  sl.foldl (fun m a => max m (sl.filter fun b => decide ((b + 1024 - a) % 1024 < 60)).length) 0
/-- PKTCAP of a port in a bank (R328). -/
def pktCap (s : State) (bank p : Nat) : Nat := (59 - l60 s bank p) * 4128

/-- The clock of an island in MHz: code c runs at 400 + 50 c; a dozing island counts as 400 (16 R576, R583). -/
def islandMHz (s : State) (g : Nat) : Nat :=
  if getF s (R.pwrIsl g) 29 28 = 2 then 400 else 400 + 50 * getF s (R.pwrIsl g) 12 8
/-- The clock of row y = 0 of a die, in MHz: its slowest island (log 30). -/
def rowMHz (s : State) (d : Nat) : Nat :=
  (List.range 16).foldl (fun m x => min m (islandMHz s (160 * d + x))) 1300
/-- DLCAP of a die link (R355). -/
def dlCap (s : State) (d : Nat) : Nat := (1440 * min 4000000 (4096 * rowMHz s d) / 4128000 - 1) * 4128

/-- The cap of packet queue q (R328, R355). -/
def capOf (s : State) (q : Nat) : Nat := if q < 64 then pktCap s (cirBank s) q else dlCap s (q - 64)
/-- The cap that admission uses: the smaller of both banks' while a CIR bank is armed (R357). -/
def admCap (s : State) (q : Nat) : Nat :=
  if q < 64 ∧ flag s R.cirCtl 8 then min (pktCap s 0 q) (pktCap s 1 q) else capOf s q
/-- LCAP of a cap (R356). -/
def lcapOf (s : State) (cap : Nat) : Nat := cap * getF s R.swqCtl 7 0 / 256

/-! ### Translation windows (10 R382) -/

/-- The bytes of a frame's extent (R382). -/
def extentLen (f : Frame) : Nat :=
  if f.typ = 0 ∨ f.typ = 2 then f.len * 16
  else if f.typ = 1 then f.rlen * 16
  else if f.typ = 3 then (if f.asize = 0 then 4 else if f.asize = 1 then 8 else 48)
  else 16

/-- Does a window match a frame (R382)? -/
def winMatches (w : Window) (f : Frame) : Bool :=
  w.job == f.job && w.mcg == f.mc && w.ep == f.dst && decide (w.obase ≤ f.offset) &&
  decide (f.offset + extentLen f ≤ w.obase + w.len)

/-- The window that a frame matches, with its number. -/
def windowOf (s : State) (f : Frame) : Option (Nat × Window) := s.rem.windows.find? fun e => winMatches e.2 f

/-! ### Routes -/

/-- Where a copy of a frame goes on this device. -/
inductive Tgt where
  | port (p : Nat)
  | ctl (p : Nat)
  | die (d : Nat)
  | sink (d : Nat)
  | mill (m : Nat)
  | recv
  | inbox
deriving DecidableEq, Repr

/-- A copy of a frame: where it goes, its header, and the coordinate it is for where this device is its gallery
source. -/
structure Copy where
  tgt : Tgt
  f : Frame
  gsrc : Option Nat
deriving DecidableEq, Repr

/-- What the lookup of a frame gives: its copies, how many copies are unreachable (R268, R287), and whether it names a
port although HOPS is 7 (R254). -/
structure Routed where
  copies : List Copy
  lost : Nat
  hops : Bool
deriving DecidableEq, Repr

/-- The port target of a frame by its class. -/
def portTgt (f : Frame) (p : Nat) : Tgt := if f.cls = 3 then .ctl p else .port p

/-- The first of some ports with the shallowest packet queue (R265). -/
def shallowest (s : State) : List Nat → Option Nat
  | [] => none
  | p :: r =>
    match shallowest s r with
    | none => some p
    | some q => if depthOf s p ≤ depthOf s q then some p else some q

/-- The choice among usable ports by class (R264, R265, R266). -/
def choosePort (s : State) (f : Frame) (ports : List Nat) : Option Nat :=
  if f.cls = 2 then shallowest s ports
  else if f.cls = 3 then ports.head?
  else ports[(f.flow * ports.length) >>> 16]?

/-- The gallery map's port for a coordinate, where it is valid. -/
def mapPort (s : State) (bank dim c : Nat) : Option Nat :=
  let e := galleryOf s bank dim c
  if bit e 7 then some (bits e 5 0) else none

/-- The gallery ports that a detour may take, in ascending coordinate order (R267). -/
def detourPorts (s : State) (bank dim : Nat) (f : Frame) (arr : Option Nat) : List Nat :=
  (List.range 16).filterMap fun c =>
    match mapPort s bank dim c with
    | some p => if usable s p f.job && arr != some p then some p else none
    | none => none

/-- The port that a unicast frame leaves by, with the frame as it leaves (R261 to R267). -/
def unicastPort (s : State) (bank : Nat) (f : Frame) (arr : Option Nat) : Option (Nat × Frame) :=
  let e := routeOf s bank f.dst
  match choosePort s f ((rtPorts e).filter fun p => usable s p f.job) with
  | some p => some (p, f)
  | none =>
    if bit e 40 && !f.defl && rtLine e != 0 then
      (choosePort s f (detourPorts s bank (rtLine e) f arr)).map fun p => (p, { f with defl := true })
    else none

/-- The relay for coordinate c (R290): the line member with the lowest coordinate other than the source's own and c
whose port is up. -/
def relayPort (s : State) (bank dim c : Nat) (f : Frame) : Option Nat :=
  (List.range 16).findSome? fun r =>
    if r = c ∨ r = ownCoord s dim then none
    else match mapPort s bank dim r with
      | some p => if usable s p f.job then some p else none
      | none => none

/-- A gallery source's copy for coordinate c (R289, R290): none where the map has no entry, and otherwise the copy, or
nothing where it is lost. -/
def galleryCopy (s : State) (bank dim : Nat) (f : Frame) (c : Nat) : Option (Option Copy) :=
  match mapPort s bank dim c with
  | none => none
  | some p =>
    if usable s p f.job then some (some ⟨portTgt f p, f, some c⟩)
    else some ((relayPort s bank dim c f).map fun r =>
      ⟨portTgt f r, { f with grly := true, gcoord := c }, some c⟩)

/-- What a multicast frame delivers on this device (R285, R289, R654): bells and canaries are consumed by the switch die;
other frames go to each named die's link, or straight to the receiver's checks where no window matches. -/
def groupLocal (s : State) (g : Nat) (f : Frame) : List Copy :=
  if f.typ = 6 then [⟨.inbox, f, none⟩]
  else if (grpDies g).isEmpty then []
  else if f.typ = 7 then [⟨.inbox, f, none⟩]
  else if (windowOf s f).isSome then (grpDies g).map fun d => ⟨.die d, f, none⟩
  else [⟨.recv, f, none⟩]

/-- The lookup of a frame on this device under a bank: `arr` is its arrival port, none for a frame of local origin. A reply to
the host bridge (LKIND 2) goes to the receiver's checks, where its request waits for it (R259; 10 R399). -/
def lookup (s : State) (bank : Nat) (f : Frame) (arr : Option Nat) : Routed :=
  if f.mc then
    let g := groupOf s bank f.dst
    if f.gal then
      if arr.isNone then
        let cs := ((List.range 16).filter (· != ownCoord s (grpDim g))).filterMap (galleryCopy s bank (grpDim g) f)
        ⟨cs.filterMap id ++ groupLocal s g f, (cs.filter (·.isNone)).length, false⟩
      else if f.grly then
        let h := { f with grly := false }
        match mapPort s bank (grpDim g) f.gcoord with
        | some p => if usable s p f.job then ⟨[⟨portTgt h p, h, none⟩], 0, false⟩ else ⟨[], 1, false⟩
        | none => ⟨[], 1, false⟩
      else ⟨groupLocal s g f, 0, false⟩
    else
      let ps := (grpPorts g).filter fun p => arr != some p
      let ok := ps.filter fun p => usable s p f.job
      ⟨ok.map (fun p => ⟨portTgt f p, f, none⟩) ++ groupLocal s g f, ps.length - ok.length, false⟩
  else
    let e := routeOf s bank f.dst
    if rtLocal e then
      if rtKind e = 0 then
        if f.typ = 6 ∨ f.typ = 7 then ⟨[⟨.inbox, f, none⟩], 0, false⟩
        else match windowOf s f with
          | some (_, w) => ⟨[⟨.die (if w.deep then w.taddr / stackSize else w.die), f, none⟩], 0, false⟩
          | none => ⟨[⟨.recv, f, none⟩], 0, false⟩
      else if rtKind e = 1 then ⟨[⟨.mill (rtUnit e), f, none⟩], 0, false⟩
      else if rtKind e = 2 ∧ (f.typ = 2 ∨ f.typ = 4) then ⟨[⟨.recv, f, none⟩], 0, false⟩
      else ⟨[⟨.inbox, f, none⟩], 0, false⟩
    else match unicastPort s bank f arr with
      | some (p, h) => ⟨[⟨portTgt h p, h, none⟩], 0, false⟩
      | none => ⟨[], 1, false⟩

/-- Does a target lie beyond a port? -/
def Tgt.isPort : Tgt → Bool
  | .port _ => true
  | .ctl _ => true
  | .die _ => false
  | .sink _ => false
  | .mill _ => false
  | .recv => false
  | .inbox => false

/-- The lookup, where a frame whose HOPS is 7 is never sent out of a port (R254). -/
def routeFrame (s : State) (bank : Nat) (f : Frame) (arr : Option Nat) : Routed :=
  let r := lookup s bank f arr
  if 7 ≤ f.hops ∧ r.copies.any (fun c => c.tgt.isPort) then ⟨[], 0, true⟩ else r

/-! ### Placing (R360, R361, R364) -/

/-- A queue entry made now. -/
def mkEntry (s : State) (uid : Nat) (org : Origin) (c : Copy) (sump : Bool) : QEntry :=
  ⟨uid, c.f, org, nowNs s, sump, c.gsrc, none⟩

/-- A copy put where it goes; a frame that finds no place in a packet queue raises the device fault NOROOM (R366). The
second component says that a packet queue or a mill input went beyond its cap. -/
def putCopy (s : State) (uid : Nat) (org : Origin) (c : Copy) : State × Bool :=
  match c.tgt with
  | .port p =>
    match placeAt s p c.f with
    | some sp =>
      let s := if sp then bump s R.swqCntSump 1 else s
      let q := queueOf s p
      let s := setQueue s p { q with frames := q.frames ++ [mkEntry s uid org c sp] }
      (s, decide (capOf s p < depthOf s p))
    | none => (deviceFault s 0x05 0, false)
  | .die d =>
    match placeAt s (64 + d) c.f with
    | some sp =>
      let s := if sp then bump s R.swqCntSump 1 else s
      let q := queueOf s (64 + d)
      let s := setQueue s (64 + d) { q with frames := q.frames ++ [mkEntry s uid org c sp] }
      (s, decide (capOf s (64 + d) < depthOf s (64 + d)))
    | none => (deviceFault s 0x05 0, false)
  | .sink d =>
    ({ s with fab := { s.fab with
        sink := SMap.put s.fab.sink d (SMap.getD s.fab.sink d [] ++ [mkEntry s uid org c false]) } }, false)
  | .ctl p => (setCtl s p (ctlOf s p ++ [mkEntry s uid org c false]), false)
  | .mill m =>
    let x := millOf s m
    let s := setMill s m { x with inq := x.inq ++ [mkEntry s uid org c false] }
    (s, decide (512 * 1024 < millDepth s m))
  | .recv => ({ s with fab := { s.fab with recv := s.fab.recv ++ [mkEntry s uid org c false] } }, false)
  | .inbox => ({ s with inbox := s.inbox ++ [⟨uid, c.f, org⟩] }, false)

/-- A frame or copy discarded as unreachable (R268, R287): counted, and a FAULT bell to its job. -/
def unreachable (s : State) (job n : Nat) : State :=
  (List.range n).foldl (fun s _ => faultBell (raise (bump s R.fabCntUnreach 1) R.fabStat 5) 0x10 0 job) s

/-- A refusal at the door under a check's counter and flag (Table FAB-6, `FAB_STAT`: HOPS is bit 4, NOROUTE bit 3). -/
def doorCount (s : State) (chk : Nat) : State :=
  let off := if chk = 0 then R.fabCntEcrc else if chk = 1 then R.fabCntMalform else if chk = 2 then R.fabCntEpoch
    else if chk = 3 then R.fabCntHops else R.fabCntNoroute
  raise (bump s off 1) R.fabStat (if chk = 3 then 4 else if chk = 4 then 3 else chk)

/-- The control queue that a copy finds full (R302). -/
def fullCtl (s : State) (c : Copy) : Option Nat :=
  match c.tgt with
  | .ctl p => if 64 ≤ (ctlOf s p).length then some p else none
  | .port _ => none
  | .die _ => none
  | .sink _ => none
  | .mill _ => none
  | .recv => none
  | .inbox => none

/-- The mill that a copy is bound for. -/
def Copy.mill (c : Copy) : Option Nat :=
  match c.tgt with
  | .mill m => some m
  | .port _ => none
  | .ctl _ => none
  | .die _ => none
  | .sink _ => none
  | .recv => none
  | .inbox => none

/-- The copies of a frame in transit go straight to their queues (R361). A control copy that finds its port's control queue
full waits for that queue alone, as it is (R302). -/
def transitPut (s : State) (uid : Nat) (org : Origin) (cs : List Copy) : State :=
  let r := cs.foldl (fun (acc : State × Bool) c =>
    match fullCtl acc.1 c with
    | some p =>
      ({ acc.1 with fab := { acc.1.fab with
          waiting := acc.1.fab.waiting ++ [⟨⟨uid, c.f, org⟩, false, c.f.epoch, some p, c.gsrc, none⟩] } }, acc.2)
    | none =>
      let x := putCopy acc.1 uid org c
      match c.mill with
      | some m => (if x.2 then raise (bump x.1 (R.milCnt m 5) 1) R.milStat 2 else x.1, acc.2)
      | none => (x.1, acc.2 || x.2)) (s, false)
  if r.2 then raise (bump r.1 R.swqCntOvercap 1) R.swqStat 1 else r.1

/-- A frame in transit goes through the lookup and its copies are placed (R361). -/
def forward (s : State) (uid : Nat) (org : Origin) (f : Frame) (arr : Option Nat) : State :=
  let r := routeFrame s (f.epoch % 2) f arr
  if r.hops then doorCount s 3
  else transitPut (unreachable s f.job r.lost) uid org r.copies

end Sys2Proof.Machine
end

