-- ==== Sys2Proof/Machine/Admission.lean ====
section
/-! DEFINITION. Sys2Proof/Machine/Admission.lean: the door checks (07 R270), mirroring (09 R371 to R373), classes, shapers,
policers, early drop and the local cap, and the completion of a frame's header (09 R341 to R366, 07 R252). -/

namespace Sys2Proof.Machine

/-! ### Door checks (Table FAB-6) -/

/-- The first check that a frame fails at the door: 0 ECRC, 1 MALFORM, 2 EPOCH, 3 HOPS, 4 NOROUTE. TSYNC frames are never
routed (13 R479) and meet checks 1 and 2 only. -/
def doorCheck (s : State) (f : Frame) (port : Option Nat) : Option Nat :=
  if port.isSome ∧ f.crc ≠ f.ecrc then some 0
  else if !wellFormed f then some 1
  else
    let bank := match port with
      | none => some (curEpoch s % 2)
      | some _ => epochBank s f.epoch
    match bank with
    | none => if f.typ = 8 then none else some 2
    | some b =>
      let e := routeOf s b f.dst
      let here := !f.mc && rtValid e && rtLocal e
      if here && f.typ != 8 && ((f.typ == 5) != (rtKind e == 1)) then some 1
      else if f.typ = 8 then none
      else if !here ∧ getF s R.fabLimits 2 0 < f.hops then some 3
      else if f.mc then
        (let g := groupOf s b f.dst
         if !grpValid g || (f.gal && grpDim g == 0) then some 4 else none)
      else if !rtValid e then some 4
      else none

/-! ### Mirroring (09 R371 to R373) -/

/-- The records that the mirror partition holds: 64 MiB in each stack, 160 bytes each. -/
def mirrorRoom : Nat := 8 * (64 * 1024 * 1024 / 160)

/-- Is a mirror point selected: 0 port ingress, 1 port egress, 2 die link into the switch die, 3 out of it? -/
def mirrorAt (s : State) (point unit : Nat) : Bool :=
  if point = 0 then bit (rd64 s R.mirPin) unit
  else if point = 1 then bit (rd64 s R.mirPeg) unit
  else flag s R.mirCtl (16 + unit)

/-- A mirror point sees a frame (R371); every Nth counted frame becomes a record (Table SWQ-3). -/
def mirrorSee (s : State) (point unit verdict : Nat) (f : Frame) : State :=
  if !flag s R.mirCtl 31 || !mirrorAt s point unit ||
      (flag s R.mirJob 31 && getF s R.mirJob 11 0 != f.job) then s
  else
    let k := 64 * point + unit
    let n := SMap.getD s.fab.mirCnt k 0 + 1
    if n < getF s R.mirCtl 15 0 then { s with fab := { s.fab with mirCnt := SMap.setD s.fab.mirCnt k 0 n } }
    else
      let s := { s with fab := { s.fab with mirCnt := SMap.erase s.fab.mirCnt k } }
      if mirrorRoom ≤ s.fab.mirRecs.length then raise (bump s R.mirCntLost 1) R.mirStat 1
      else
        let r := leBytes 8 (nowNs s) ++ leBytes 1 point ++ leBytes 1 unit ++ leBytes 2 verdict ++ leBytes 4 f.size ++
          leBytes 8 s.fab.mirSeq ++ zeros 8 ++ padTo 128 (f.toBytes.take 128)
        { s with fab := { s.fab with mirRecs := s.fab.mirRecs ++ [r], mirSeq := s.fab.mirSeq + 1 } }

/-! ### Who sent a frame -/

/-- The function that a frame of local origin serves, for cores, host descriptors and mills. -/
def Origin.fn : Origin → Option Nat
  | .core _ fn _ _ => some fn
  | .host fn _ _ => some fn
  | .reply _ => none
  | .mill _ _ fn _ => some fn
  | .device _ => none
  | .port _ => none

/-- The sender for the order of frames at the door: frames of one sender are taken in the order they were sent, those of one
cluster's cores and function in the order they left its cluster (07 R281, R282). -/
def Origin.sender : Origin → Origin
  | .core no fn _ _ => .core (no / 64 * 64) fn 0 0
  | .host fn _ _ => .host fn 0 0
  | .reply d => .reply d
  | .mill m _ _ _ => .mill m 0 0 0
  | .device c => .device c
  | .port p => .port p

/-- The compute die whose door hold a frame occupies (R351). -/
def Origin.die : Origin → Option Nat
  | .core no _ _ _ => some (no / 10240)
  | .host _ _ _ => none
  | .reply _ => none
  | .mill _ _ _ _ => none
  | .device _ => none
  | .port _ => none

/-- Is the frame from a core? -/
def Origin.isCore (o : Origin) : Bool := (Origin.die o).isSome

/-- The list of a launch, if it still runs on its core, stops with a status (R271). -/
def stopLaunch (s : State) (core fn launch status : Nat) : State :=
  match (seqOf s core fn).run with
  | some r => if r.launch.id = launch then stopList s core fn status else s
  | none => s

/-- A host descriptor's phase is set to ended with a status. -/
def endHost (s : State) (fn ring idx status : Nat) : State :=
  { s with host := { s.host with descs := s.host.descs.map fun h =>
      if h.fn = fn ∧ h.ring = ring ∧ h.idx = idx then { h with phase := .ended status } else h } }

/-- A stream removal that a TBLWR waits for has ended (14 R532): one more entry is done; it ends with OK at its last entry,
else it goes on with the next. -/
def resumeTable (s : State) (fn ring idx : Nat) : State :=
  { s with host := { s.host with descs := s.host.descs.map fun h =>
      if h.fn = fn ∧ h.ring = ring ∧ h.idx = idx then
        { h with
          result := h.result + 1
          phase := if leAt h.bytes 24 4 ≤ h.result + 1 then .ended 0 else .fetched }
      else h } }

/-- The requests of a host descriptor are outstanding no longer. -/
def dropRequests (s : State) (fn ring idx : Nat) : State :=
  { s with rem := { s.rem with requests := s.rem.requests.filter fun e =>
      !(e.2.fn == fn && e.2.ring == ring && e.2.idx == idx) } }

/-- The request of a host descriptor counts its 1 ms from now (10 R400); a dropped frame counts as admitted (R343). -/
def markAdmitted (s : State) (o : Origin) : State :=
  match o with
  | .host fn r i =>
    { s with rem := { s.rem with requests := s.rem.requests.map fun e =>
        if e.2.fn = fn ∧ e.2.ring = r ∧ e.2.idx = i then (e.1, { e.2 with admitted := some s.time.lamp }) else e } }
  | .core _ _ _ _ => s
  | .reply _ => s
  | .mill _ _ _ _ => s
  | .device _ => s
  | .port _ => s

/-- A frame of local origin is refused at the door (R271; 11 R444 code DOOR): its sender stops. -/
def stopSender (s : State) (o : Origin) : State :=
  match o with
  | .core no fn l _ => stopLaunch s no fn l 4
  | .host fn r i => endHost (dropRequests s fn r i) fn r i 4
  | .reply _ => s
  | .mill m n _ pc => if (streamOf s m n).state = 1 then trapOne s m n 14 pc else s
  | .device _ => s
  | .port _ => s

/-- A frame dropped at admission (R343): counted for its function under a reason, and, where a core sent it, for the
descriptor of its work list (14 Table HST-9). -/
def dropFrame (s : State) (o : Origin) (reason : Nat) : State :=
  let s := match o.fn with
    | some fn => bump (markAdmitted s o) (R.polCnt fn reason) 1
    | none => s
  let hit : HostDesc → Bool := fun h => match o with
    | .core _ _ l _ => h.lists.any fun x => x.id == l
    | .host _ _ _ => false
    | .reply _ => false
    | .mill _ _ _ _ => false
    | .device _ => false
    | .port _ => false
  { s with host := { s.host with descs := updFirst hit (fun h => { h with drops := h.drops + 1 }) s.host.descs } }

/-! ### Buckets (R346 to R353) -/

/-- The bucket unit: a byte is 1000 x 2^32 units, so that 4 MB/s is 4 units in 2^-32 ns. -/
def byteUnits : Nat := 1000 * 2 ^ 32
/-- A policer. -/
def polOf (s : State) (k : Nat) : Policer := SMap.getD s.fab.pol k ⟨false, 0, 0, 0, 0, 0, 0, 0⟩
/-- The state with a policer. -/
def setPol (s : State) (k : Nat) (p : Policer) : State :=
  { s with fab := { s.fab with pol := SMap.setD s.fab.pol k ⟨false, 0, 0, 0, 0, 0, 0, 0⟩ p } }
/-- A shaper. -/
def shpOf (s : State) (k : Nat) : Shaper := SMap.getD s.fab.shp k ⟨false, 0, 0, 0, 0, 0⟩
/-- The state with a shaper. -/
def setShp (s : State) (k : Nat) (p : Shaper) : State :=
  { s with fab := { s.fab with shp := SMap.setD s.fab.shp k ⟨false, 0, 0, 0, 0, 0⟩ p } }
/-- A policer's buckets at the time base now (R352). -/
def Policer.tick (p : Policer) (now : Nat) : Policer :=
  let dt := now - p.last
  { p with
    tc := min (p.cbs * 64 * byteUnits) (p.tc + 4 * p.cir * dt)
    tp := min (p.pbs * 64 * byteUnits) (p.tp + 4 * p.pir * dt)
    last := now }
/-- A shaper's bucket at the time base now (R346, R348). -/
def Shaper.tick (p : Shaper) (now : Nat) : Shaper :=
  let dt := now - p.last
  { p with
    tok := min (p.depth * 64 * byteUnits) (p.tok + 4 * p.rate * dt)
    last := now }
/-- The marker (R352): 0 green, 1 yellow, 2 red, for b bytes. -/
def Policer.mark (p : Policer) (b : Nat) : Nat × Policer :=
  if !p.en then (0, p)
  else if p.tp < b * byteUnits then (2, p)
  else if p.tc < b * byteUnits then (1, { p with tp := p.tp - b * byteUnits })
  else (0, { p with tc := p.tc - b * byteUnits, tp := p.tp - b * byteUnits })
/-- A shaper's overhead, two's complement in 9 bits. -/
def Shaper.counted (p : Shaper) (size : Nat) : Nat := ((size : Int) + sext 9 p.ovh).toNat
/-- A shaper passes a frame of some bytes, or not (R346, R348). -/
def Shaper.pass (p : Shaper) (size : Nat) : Option Shaper :=
  if !p.en then some p
  else if p.counted size * byteUnits ≤ p.tok then some { p with tok := p.tok - p.counted size * byteUnits }
  else none

/-! ### Early drop (R358 to R360) -/

/-- The queue number of a copy: ports p, die links 64 + d, mill inputs 72 + m. -/
def Copy.queue (c : Copy) : Option Nat :=
  match c.tgt with
  | .port p => some p
  | .ctl _ => none
  | .die d => some (64 + d)
  | .sink _ => none
  | .mill m => some (72 + m)
  | .recv => none
  | .inbox => none

/-- The depth of queue number q. -/
def depthQ (s : State) (q : Nat) : Nat := if q < 72 then depthOf s q else millDepth s (q - 72)
/-- LCAP of queue number q as admission uses it (R356, R357, R413). -/
def lcapQ (s : State) (q : Nat) : Nat := lcapOf s (if q < 72 then admCap s q else 512 * 1024)
/-- One step of the xorshift generator (R359). -/
def xorshift (x : Nat) : Nat :=
  let x := (x ^^^ (x <<< 13)) % 2 ^ 32
  let x := x ^^^ (x >>> 17)
  (x ^^^ (x <<< 5)) % 2 ^ 32

/-- A green (0) or yellow (1) frame meets the early-drop profile of a queue (R359). -/
def earlyDrop1 (s : State) (q colour : Nat) : State × Bool :=
  let w := rd s (R.swqEdp (colour + (if 64 ≤ q ∧ q < 72 then 2 else 0)))
  let l := lcapQ s q
  let a := (queueOf s q).avg
  let mn := bits w 7 0
  let mx := bits w 15 8
  if !bit w 31 then (s, false)
  else if a ≤ mn * l then (s, false)
  else if mx * l ≤ a then (s, true)
  else
    let x := xorshift (rd s R.swqEdseed)
    (wr s R.swqEdseed x, decide (x / 65536 < bits w 23 16 * 256 * (a - mn * l) / ((mx - mn) * l)))

/-- A frame is judged against its queues in ascending order and stops at the first that drops it. -/
def earlyDrop (s : State) (qs : List Nat) (colour : Nat) : State × Bool :=
  qs.foldl (fun acc q => if acc.2 then acc else earlyDrop1 acc.1 q colour) (s, false)

/-- The queues of a routed frame, ascending. -/
def queuesOf (r : Routed) : List Nat := sortBy (fun a b => decide (a ≤ b)) (r.copies.filterMap Copy.queue)

/-! ### The header (R252) -/

/-- The header completed in this order: EPOCH, FLOW, AGE, CLASS, CID, ECRC. -/
def completeHeader (s : State) (o : Origin) (cls cid : Nat) (f : Frame) : Frame :=
  let flow := flowHash f.src f.dst f.job (Origin.scl o) (getF s R.fabHashseed 31 16)
  let cid := if f.typ = 0 ∨ f.typ = 5 ∨ f.typ = 7 then cid else f.cid
  let g := { f with epoch := curEpoch s, flow := flow, age := nowNs s / 4 % 65536, cls := cls, cid := cid }
  { g with ecrc := Frame.crc g }

/-! ### The door hold's throttles (R351) -/

/-- The bytes of core frames of a die in its door hold, of one function or of all. -/
def doorBytes (s : State) (d : Nat) (fn : Option Nat) : Nat :=
  ((s.fab.door.map (·.pkt) ++ s.fab.waiting.map (·.pkt)).filter fun p =>
    Origin.die p.org == some d && (fn.isNone || Origin.fn p.org == fn)).foldl (fun n p => n + p.f.size) 0

/-- A throttle after a change: raised above its threshold, lifted below it, and kept at it. -/
def throttle1 (s : State) (d : Nat) (fn : Option Nat) : State :=
  let b := doorBytes s d fn
  let t := if fn.isSome then 32 * 1024 else 256 * 1024
  let l := s.fab.throttles.filter (· != (d, fn))
  if t < b then { s with fab := { s.fab with throttles := l ++ [(d, fn)] } }
  else if b < t then { s with fab := { s.fab with throttles := l } }
  else s

/-- The throttles that a frame's function and die stand under, updated. -/
def throttle (s : State) (o : Origin) : State :=
  match Origin.die o with
  | some d => throttle1 (throttle1 s d (Origin.fn o)) d none
  | none => s

/-! ### Admission (R342) -/

/-- A frame waits at the door; `cid` is the circuit that a bound frame waits for. -/
def waitAtDoor (s : State) (p : Pkt) (policed : Bool) (cid : Option Nat) : State :=
  throttle { s with fab := { s.fab with
    waiting := s.fab.waiting ++ [⟨p, policed, curEpoch s, none, none, cid⟩] } } p.org

/-- Can every copy be placed (R342, R360, R302)? Answers the state with all of them placed. -/
def placeAll (s : State) (p : Pkt) (cs : List Copy) : Option State :=
  cs.foldl (fun acc c =>
    match acc with
    | none => none
    | some s =>
      let ok := match c.tgt with
        | .port q => (placeAt s q c.f).isSome
        | .die d => (placeAt s (64 + d) c.f).isSome
        | .sink _ => true
        | .ctl q => decide ((ctlOf s q).length < 64)
        | .mill _ => true
        | .recv => true
        | .inbox => true
      if ok then some (putCopy s p.uid p.org c).1 else none) (some s)

/-- The last part of admission: a frame that is not policed waits at the local cap; every frame waits for a place; then it
is placed and accepted. Answers whether it waits. -/
def settle (s : State) (p : Pkt) (policed : Bool) : State × Bool :=
  let f := completeHeader s p.org p.f.cls 0 p.f
  let r := routeFrame s (curEpoch s % 2) f none
  if r.hops then (stopSender (doorCount s 3) p.org, false)
  else if !policed && (queuesOf r).any (fun q => decide (lcapQ s q < depthQ s q + f.size)) then (waitAtDoor s p policed none, true)
  else match placeAll s p r.copies with
    | none => (waitAtDoor s p policed none, true)
    | some t => (unreachable (markAdmitted t p.org) f.job r.lost, false)

/-- Does a policed frame that waits for a place stand in the line of a frame's function and class (R347)? -/
def sameLine (p : Pkt) (w : WaitPkt) : Bool :=
  w.policed && Origin.fn w.pkt.org == Origin.fn p.org && w.pkt.f.cls == p.f.cls

/-- Does a waiting frame belong to a frame's ordered flow (07 R282: SRC, DST, JOB and scl)? -/
def sameFlow (p : Pkt) (w : WaitPkt) : Bool :=
  w.via.isNone && p.f.cls == 1 && w.pkt.f.cls == 1 && w.pkt.f.src == p.f.src && w.pkt.f.dst == p.f.dst &&
  w.pkt.f.job == p.f.job && Origin.scl w.pkt.org == Origin.scl p.org

/-- A policed frame that its shaper has passed: policing, early drop, the local cap (R342), then its place, where no
earlier frame of its line waits for one. The second component is the verdict of Table SWQ-3. -/
def police (s : State) (p : Pkt) : State × Nat :=
  match Origin.fn p.org with
  | none => (s, 0)
  | some fn =>
    let k := 2 * fn + p.f.cls - 1
    let m := Policer.mark ((polOf s k).tick s.time.now) p.f.size
    let s := setPol s k m.2
    if m.1 = 2 then (dropFrame s p.org 0, 1)
    else
      let f := completeHeader s p.org p.f.cls 0 p.f
      let qs := queuesOf (routeFrame s (curEpoch s % 2) f none)
      let e := earlyDrop s qs m.1
      if e.2 then (dropFrame e.1 p.org 1, 2)
      else if qs.any (fun q => decide (lcapQ e.1 q < depthQ e.1 q + f.size)) then (dropFrame e.1 p.org 2, 3)
      else if e.1.fab.waiting.any (sameLine p) then (waitAtDoor e.1 p true none, 5)
      else
        let r := settle e.1 p true
        (r.1, if r.2 then 5 else 0)

/-- The open source circuit that a frame's DST and JOB match (R308), on which binding has not stopped (R663). -/
def sourceCid (s : State) (dst job : Nat) : Option Nat :=
  let b := cirBank s
  ((s.cir.entries.filter fun e => decide (e.1 / 65536 = b) && bit e.2 14 && bits e.2 13 12 == 1 &&
    bits e.2 31 16 == dst && bits e.2 43 32 == job && SMap.getD s.cir.live (e.1 % 65536) 0 % 4 == 2 &&
    !memNat (e.1 % 65536) s.cir.closing).map (·.1 % 65536)).head?

/-- A fall-back is counted (R324). -/
def countFallback (s : State) : State := raise (bump s R.cirCntFallback 1) R.cirStat 3

/-- A frame that may bind to a circuit (R308, R412): a WRITE or MILL frame of a core, or a canary of a probe slot. A multicast
names a group, not an endpoint, and binds to none. -/
def mayBind (o : Origin) (f : Frame) : Bool :=
  !f.mc && ((o.isCore && (f.typ == 0 || f.typ == 5)) || (f.typ == 7 && (f.tsw % 2 == 1 || zeroAt f.payload 8 8)))

/-- The class of a frame that is not bound, and whether it is policed (Table SWQ-1). A canary of CLASS 0 that no circuit
takes falls back to CLASS 1 (log 31). -/
def doorClass (s : State) (o : Origin) (f : Frame) : Nat × Bool :=
  let one : Nat → Nat := fun b => if flag s (R.polClass ((Origin.fn o).getD 0)) b then 2 else 1
  if f.typ = 6 ∨ f.typ = 8 then (3, false)
  else if f.typ = 7 then (if f.cls = 0 then 1 else f.cls, false)
  else match o with
    | .core _ _ _ _ => (one f.typ, true)
    | .host _ _ _ => (one f.typ, true)
    | .mill _ _ _ _ => (1, false)
    | .reply _ => (f.cls, false)
    | .device _ => (f.cls, false)
    | .port _ => (f.cls, false)

/-- A frame that is not bound goes through admission: the door hold of its shaper, or straight on. -/
def admitPacket (s : State) (p : Pkt) : State × Nat :=
  let c := doorClass s p.org p.f
  let p := { p with f := { p.f with cls := c.1 } }
  if !c.2 then
    if s.fab.waiting.any (sameFlow p) then (waitAtDoor s p false none, 5)
    else
      let r := settle s p false
      (r.1, if r.2 then 5 else 0)
  else
    let k := 2 * (Origin.fn p.org).getD 0 + c.1 - 1
    let held := s.fab.door.any fun x => x.k == k
    let sh := (shpOf s k).tick s.time.now
    match (if held then none else sh.pass p.f.size) with
    | some sh' => police (setShp s k sh') p
    | none => (throttle { s with fab := { s.fab with door := s.fab.door ++ [⟨k, p⟩] } } p.org, 5)

/-- A bound frame enters its circuit's source queue (R307, R342, R365), overflows it (R326), or waits for pool room, behind the
frames of its circuit that wait (Table CIR-1). `first` says that no frame of its circuit precedes it at the door. -/
def admitBound (s : State) (p : Pkt) (cid : Nat) (first : Bool) : State × Nat :=
  if getF s R.cirSrcq 8 0 ≤ (srcqOf s cid).length then
    admitPacket (bump (countFallback s) R.cirCntOverrun 1) p
  else if !poolRoom s p.f || (!first && s.fab.waiting.any fun w => w.cid == some cid) then
    (waitAtDoor s p false (some cid), 5)
  else
    let f := completeHeader s p.org 0 cid p.f
    let e : QEntry := ⟨p.uid, f, p.org, nowNs s, false, none, none⟩
    (setSrcq s cid (srcqOf s cid ++ [e]), 0)

/-- A frame that has passed the door checks: bound to a circuit, or a packet. -/
def admitPkt (s : State) (p : Pkt) (first : Bool) : State × Nat :=
  match (if mayBind p.org p.f then sourceCid s p.f.dst p.f.job else none) with
  | some cid => admitBound s p cid first
  | none => admitPacket s p

/-- The send table marks a core's frame as a MILL frame (11 R411). -/
def markSend (s : State) (o : Origin) (f : Frame) : Frame :=
  if !o.isCore || f.typ != 0 || f.mc then f
  else match s.sendTbl.find? fun e => bit e.2 26 && bits e.2 15 0 == f.dst && some (bits e.2 25 16) == Origin.fn o with
    | some e => { f with typ := 5, tsw := bits e.2 51 40 + 4096 * bits e.2 39 32 }
    | none => f

/-- The group alias (R260). -/
def aliasGroup (s : State) (f : Frame) : Frame :=
  let e := routeOf s (curEpoch s % 2) f.dst
  if !f.mc && rtValid e && rtMcg e then { f with mc := true, dst := rtGrp e } else f

/-- Is a function closed to new frames (Table HST-10)? -/
def closedFn (s : State) (o : Origin) : Bool :=
  match Origin.fn o with
  | some fn => fnState s fn != 1
  | none => false

/-- A frame of local origin at the door (R342): the mark of the send table, the alias, the door checks, admission. -/
def atDoor (s : State) (p : Pkt) : State :=
  if closedFn s p.org then s
  else
    let f := aliasGroup s (markSend s p.org p.f)
    let r := match doorCheck s f none with
      | some chk => (stopSender (doorCount s chk) p.org, 4)
      | none => admitPkt s { p with f := f } false
    match Origin.die p.org with
    | some d => mirrorSee r.1 2 d r.2 p.f
    | none => r.1

/-- Frames that wait in admission are judged again at a flip (R660): those that fail on the new bank are discarded,
counted, and stop their senders. -/
def rejudge (s : State) : State :=
  let gone : Pkt → Option Nat := fun p => match p.org with
    | .port _ => none
    | .core _ _ _ _ => doorCheck s p.f none
    | .host _ _ _ => doorCheck s p.f none
    | .reply _ => doorCheck s p.f none
    | .mill _ _ _ _ => doorCheck s p.f none
    | .device _ => doorCheck s p.f none
  let all := s.fab.door.map (·.pkt) ++ (s.fab.waiting.filter (·.via.isNone)).map (·.pkt)
  let t := { s with fab := { s.fab with
    door := s.fab.door.filter fun x => (gone x.pkt).isNone
    waiting := s.fab.waiting.filter fun x => x.via.isSome || (gone x.pkt).isNone } }
  all.foldl (fun t p => match gone p with
    | some chk => throttle (stopSender (doorCount t chk) p.org) p.org
    | none => t) t

end Sys2Proof.Machine
end

