-- ==== Sys2Proof/Machine/PortOps.lean ====
section
/-! DEFINITION. Sys2Proof/Machine/PortOps.lean: circuit bells, the closing of circuits and their fall-backs
(08_circuits_delivery.md R316 to R325, R662), and what happens to a port's frames when it leaves UP (15_links.md R563 to
R569, R657). -/

namespace Sys2Proof.Machine

/-! ### Circuits -/

/-- The live state of a CID: 0 CLOSED, 1 PENDING, 2 OPEN. -/
def cirState (s : State) (cid : Nat) : Nat := SMap.getD s.cir.live cid 0 % 4
/-- The state with a CID's live state. -/
def setCir (s : State) (cid st : Nat) : State :=
  { s with cir := { s.cir with live := SMap.setD s.cir.live cid 0 (setBits (SMap.getD s.cir.live cid 0) 1 0 st) } }
/-- The active entry of a CID. -/
def cirNow (s : State) (cid : Nat) : Nat := cirEntry s (cirBank s) cid
/-- EPORT, IPORT, ROLE, VALID of a circuit entry (Table CIR-4). -/
def cirEport (e : Nat) : Nat := bits e 5 0
/-- IPORT. -/
def cirIport (e : Nat) : Nat := bits e 11 6
/-- ROLE. -/
def cirRole (e : Nat) : Nat := bits e 13 12
/-- VALID. -/
def cirValid (e : Nat) : Bool := bit e 14

/-- A circuit bell with a DST and JOB leaves by a port (R316): it waits where the port's control queue is full, and is not
sent where the port is not up. -/
def sendCirBellTo (s : State) (port dst job code cid status : Nat) : State :=
  if !portUp s port then s
  else
    let f := completeHeader s (.device 0x7F1) 3 0 { Frame.blank with
      typ := 6, cls := 3, dst := dst, src := getF s R.gngUep 15 0, job := job,
      tsw := code + 256 * (cid + 65536 * status) }
    let r := newId s
    let s := r.2
    if 64 ≤ (ctlOf s port).length then
      { s with fab := { s.fab with
          waiting := s.fab.waiting ++ [⟨⟨r.1, f, .device 0x7F1⟩, false, curEpoch s, some port, none, none⟩] } }
    else setCtl s port (ctlOf s port ++ [⟨r.1, f, .device 0x7F1, nowNs s, false, none, none⟩])

/-- A circuit bell of a CID leaves by a port with the DST and JOB of its active entry. -/
def sendCirBell (s : State) (port code cid status : Nat) : State :=
  sendCirBellTo s port (bits (cirNow s cid) 31 16) (bits (cirNow s cid) 43 32) code cid status

/-- A frame that falls back takes CLASS 1 with CID 0 (R324); it is counted. -/
def fallBack (s : State) (e : QEntry) : State × QEntry :=
  let cid := if e.f.typ = 0 ∨ e.f.typ = 5 ∨ e.f.typ = 7 then 0 else e.f.cid
  (countFallback s, { e with f := { e.f with cls := 1, cid := cid }, sump := false })

/-- The port that a frame came in by. -/
def Origin.arr : Origin → Option Nat
  | .core _ _ _ _ => none
  | .host _ _ _ => none
  | .reply _ => none
  | .mill _ _ _ _ => none
  | .device _ => none
  | .port p => some p

/-- A frame falls back and is routed by the route table from this device on, as a frame that enters anew (R324). -/
def fallBackOn (s : State) (e : QEntry) : State :=
  let r := fallBack s e
  let n := newId r.1
  forward n.2 n.1 e.org r.2.f e.org.arr

/-- The circuit frames that wait for slots of a port and meet a test can use no slot any more: they fall back (R303, R324). -/
def dropSlots (s : State) (p : Nat) (test : SlotFrame → Bool) : State :=
  let hit : SlotFrame → Bool := fun x => x.port == p && test x
  (s.cir.slots.filter hit).foldl (fun s x => fallBackOn s x.e)
    { s with cir := { s.cir with slots := s.cir.slots.filter fun x => !hit x } }

/-- The open descriptors of a CID that still wait complete with a status (R319, R663). -/
def endOpens (s : State) (cid status : Nat) : State :=
  let hit := s.cir.opens.filter fun w => w.cid == cid
  let s := { s with cir := { s.cir with opens := s.cir.opens.filter fun w => w.cid != cid } }
  hit.foldl (fun s w => endHost s w.fn w.ring w.idx status) s

/-- The close descriptors of a CID that still wait complete with a status (R663). -/
def endCloses (s : State) (cid status : Nat) : State :=
  let hit := s.cir.closes.filter fun w => w.cid == cid
  let s := { s with cir := { s.cir with
    closes := s.cir.closes.filter fun w => w.cid != cid
    closing := s.cir.closing.filter (· != cid) } }
  hit.foldl (fun s w => endHost s w.fn w.ring w.idx status) s

/-- The frames of a CID's source queue fall back at once (R662). -/
def emptySource (s : State) (cid : Nat) : State :=
  let l := srcqOf s cid
  l.foldl fallBackOn (setSrcq s cid [])

/-- A CID closes at this device with no shift change: its source frames fall back; an open that waits completes with a
status (R321, R662, R663). A close descriptor of it completes with OK, since the CID is CLOSED (log 32). -/
def closeCid (s : State) (cid openStatus : Nat) : State :=
  let s := setCir s cid 0
  let s := endOpens s cid openStatus
  endCloses (emptySource s cid) cid 0

/-- Is a TEARDOWN of a CID that this device formed still to leave it? -/
def tearPending (s : State) (cid : Nat) : Bool :=
  let hit : Frame → Origin → Bool := fun f o => f.isCircuitBell && f.code == 5 && f.arg % 65536 == cid &&
    o == .device 0x7F1
  (s.fab.ctlq.any fun q => q.2.any fun e => hit e.f e.org) || (s.fab.waiting.any fun w => hit w.pkt.f w.pkt.org)

/-- The close descriptors of a CID complete with OK once its TEARDOWN has left the source (R663). -/
def finishClose (s : State) (cid : Nat) : State :=
  if memNat cid s.cir.closing || tearPending s cid then s else endCloses s cid 0

/-- The CIDs that are PENDING or OPEN. -/
def liveCids (s : State) : List Nat := (s.cir.live.filter fun e => e.2 % 4 != 0).map (·.1)

/-- A port that fails closes every CID that uses it (R321, Table CIR-5). -/
def closeOnPort (s : State) (p : Nat) : State :=
  (liveCids s).foldl (fun s cid =>
    let e := cirNow s cid
    let usesI := cirRole e != 1 && cirIport e == p
    let usesE := cirRole e != 2 && cirEport e == p
    if !usesI && !usesE then s
    else
      let pend := cirState s cid == 1
      let s := closeCid s cid 9
      if cirRole e = 0 then
        if usesI then sendCirBell s (cirEport e) 5 cid 9
        else sendCirBell s (cirIport e) (if pend then 4 else 5) cid 9
      else s) s

/-! ### Frames of a port that leaves UP -/

/-- A frame that this device has to send elsewhere (R569): CLASS 0 falls back; a gallery copy that this device sent as its
source goes to a relay; any other multicast copy is unreachable; TSYNC frames are discarded; every other frame goes
through the lookup as in transit. -/
def reroute (s : State) (e0 : QEntry) : State :=
  let r := if e0.f.cls = 0 then fallBack s e0 else (s, e0)
  let s := r.1
  let e := r.2
  let b := e.f.epoch % 2
  if e.f.typ = 8 then s
  else if e.f.mc then
    match e.gsrc with
    | none => unreachable s e.f.job 1
    | some c =>
      match relayPort s b (grpDim (groupOf s b e.f.dst)) c e.f with
      | some p => transitPut s e.uid e.org [⟨portTgt e.f p, { e.f with grly := true, gcoord := c }, some c⟩]
      | none => unreachable s e.f.job 1
  else forward s e.uid e.org e.f e.org.arr

/-- Frames moved off a port (R657). -/
def rerouteAll (s : State) (l : List QEntry) : State := l.foldl reroute s

/-- Every frame that a port has not begun to send, but for some bells that stay, leaves its queues for the lookup
(R657). -/
def clearPort (s : State) (p keepBells : Nat) : State :=
  let q := queueOf s p
  let ctl := ctlOf s p
  let bells := (ctl.filter fun e => e.f.typ == 6).take keepBells
  let stay : QEntry → Bool := fun e => bells.any fun b => b.uid == e.uid
  let moved := q.frames ++ (s.cir.slots.filter fun x => x.port == p).map (·.e) ++ ctl.filter fun e => !stay e
  let s := setCtl (setQueue s p { q with frames := [] }) p (ctl.filter stay)
  let s := { s with cir := { s.cir with slots := s.cir.slots.filter fun x => x.port != p } }
  rerouteAll s moved

/-- The state of a port changes (Table LNK-4). -/
def setPortState (s : State) (p st : Nat) : State :=
  setPort (setF s (R.prtStat p) 2 0 st) p { portOf s p with since := s.time.lamp }

/-- A port leaves UP: DOWNEV is set, its width, level and active lanes are no longer in use (log 33), and its LAGV is 0
(08 R314). -/
def leftUp (s : State) (p st : Nat) : State :=
  let s := setPortState s p st
  let s := raise s (R.prtStat p) 16
  let s := setF (setF s (R.prtStat p) 11 8 0) (R.prtStat p) 5 4 0
  let s := setF s (R.prtLane p) 15 8 0
  setF s (R.cirPort p) 31 31 0

/-- Is LSEQ a below ACK b, modulo 2^14? -/
def seqBelow (a b : Nat) : Bool := decide (0 < (b + 16384 - a) % 16384) && decide ((b + 16384 - a) % 16384 < 8192)

/-- The frames in doubt of a port are resolved by a peer's ACK (R568): those below it are delivered, the rest are
re-routed; `report` counts them. -/
def resolveDoubt (s : State) (p ack : Nat) (report : Bool) : State :=
  let x := portOf s p
  let done := x.doubt.filter fun f => seqBelow f.lseq ack
  let rest := x.doubt.filter fun f => !seqBelow f.lseq ack
  let s := setPort s p { x with doubt := [] }
  let s := if report then bump (bump s (R.prtCnt p 4) done.length) (R.prtCnt p 3) rest.length else s
  rerouteAll s (rest.map (·.e))

/-- The link report to a port's peer (R568). -/
def sendReport (s : State) (p : Nat) : State :=
  let ack := (portOf s p).ack
  sendFrame s (.device 0x7F3) { Frame.blank with
    typ := 0, cls := 1, dst := getF s (R.prtPeerx p) 31 16, src := getF s R.gngUep 15 0, job := 0xFFF, len := 1,
    offset := 0x400 + 16 * getF s (R.prtPeerx p) 5 0,
    payload := leBytes 8 Config.devid.toNat ++ leBytes 2 ack ++ zeros 6 }

/-- A port goes DOWN, or RETIRED where it is held (R563, R567): the peer's ACK resolves the frames in doubt, or they wait
for a report. -/
def goDown (s : State) (p : Nat) (ack : Option Nat) : State :=
  let s := leftUp s p (if flag s (R.prtStat p) 25 then 5 else 4)
  let x := portOf s p
  let s := setPort s p { x with doubt := x.unacked, doubtAt := s.time.lamp, unacked := [], wasUp := false, ctlIn := [], stopping := none, width := none, errs := [], nak := false }
  match ack with
  | some a => resolveDoubt s p a false
  | none => sendReport s p

/-- A port enters FAILING (Table LNK-6): no longer up, circuits closed, queued frames re-routed but for the bells it
sends. -/
def startFailing (s : State) (p : Nat) : State :=
  let s := setPortState s p 3
  let s := raise s (R.prtStat p) 17
  let s := setPort s p { portOf s p with bells := 0, failSent := false, stopping := none, width := none }
  let s := setF s (R.cirPort p) 31 31 0
  clearPort (closeOnPort s p) p 16

/-- n events on a port; one marked lasting is retired (R648), and fails if it is UP. -/
def portEvent (s : State) (p : Nat) : State :=
  let r := event s (.port p) 1
  if r.2 then
    let s := raise (recordRetired r.1 (.port p)) (R.prtStat p) 25
    if portState s p = 2 then startFailing s p else s
  else r.1

/-- A port reaches its error limit (R567): it enters FAILING, which counts as one event on it. -/
def enterFailing (s : State) (p : Nat) : State :=
  if portState s p = 2 then portEvent (startFailing s p) p else s

/-- One link error of a port (R567): the errors of the last WIN microseconds are kept; at LIMIT the port fails. -/
def linkError (s : State) (p : Nat) : State :=
  let x := portOf s p
  let win := getF s (R.prtElim p) 31 16 * 1000
  let errs := (s.time.lamp :: x.errs).filter fun t => decide (s.time.lamp ≤ t + win)
  let s := setPort s p { x with errs := errs }
  if getF s (R.prtElim p) 15 0 ≤ errs.length then enterFailing s p else s

end Sys2Proof.Machine
end

