-- ==== Sys2Proof/Machine/Operands.lean ====
section
/-! DEFINITION. Sys2Proof/Machine/Operands.lean: the operand forms of work-list descriptors (04_cores_clusters.md): the
address spaces of Table CORE-1, format codes (Table CORE-5), parameter blocks (Table CORE-6), how operand bytes are read
and written, and the runs of a remote operand (10_memory_ops.md R378). Statuses are those of Table SCO-5. -/

namespace Sys2Proof.Machine

/-- The space of an operand address: bits 63:62 (R136). -/
def space (w : Nat) : Nat := w / 2 ^ 62 % 4

/-- The cluster number that a SPACE 0 or SPACE 1 operand of a core names. -/
def opClu (core w : Nat) : Nat := if space w = 0 then core / 64 else core / 64 / 160 * 160 + bits w 39 32

/-- The core index that the alias range means: only in the own cluster (R137). -/
def opOwn (core w : Nat) : Option Nat := if space w = 0 then some (core % 64) else none

/-- The store key of byte o of a SPACE 0 or SPACE 1 operand. -/
def opKey (core w o : Nat) : Option Nat :=
  (localAt (opOwn core w) (w % 2 ^ 32 + o) 1).map fun a => storeKey (opClu core w) a

/-- The function whose list or copy a core carries out: the one resident on its cluster (R175). -/
def coreFn (s : State) (core : Nat) : Nat := slotFn s (core / 64) (resSlot s (core / 64))

/-- Are the bits that the operand's space does not use 0 (R136)? -/
def opReserved (w : Nat) : Bool :=
  match space w with
  | 0 => bits w 61 32 == 0
  | 1 => bits w 61 40 == 0
  | 2 => bits w 61 41 == 0
  | _ => bits w 61 48 == 0

/-- The check of an operand and the runs (offset, length) it touches (R136, R137, R230): 0, 4 RANGE or 6 DENIED. -/
def checkOp (s : State) (core fn w : Nat) (spaces : List Nat) (runs : List (Nat × Nat)) : Nat :=
  let runs := runs.filter fun r => r.2 != 0
  if !memNat (space w) spaces ∨ !opReserved w then 4
  else match space w with
    | 0 => if runs.all fun r => (localAt (opOwn core w) (w % 2 ^ 32 + r.1) r.2).isSome then 0 else 4
    | 1 =>
      if bits w 39 32 < 160 ∧ (runs.all fun r => (localAt none (w % 2 ^ 32 + r.1) r.2).isSome) then
        (if holds s (opClu core w) fn && !fenced s (opClu core w) then 0 else 6)
      else 4
    | 2 =>
      if runs.all fun r => bits w 40 0 + r.1 + r.2 ≤ deepSize then
        (if runs.all fun r => ownsDeep s fn (bits w 40 0 + r.1) r.2 then 0 else 6)
      else 4
    | _ => if runs.all fun r => bits w 47 0 + r.1 + r.2 ≤ 2 ^ 48 then 0 else 4

/-- The check that an operand lies in the issuing core's own face store (R138). -/
def checkFace (core w : Nat) (runs : List (Nat × Nat)) : Nat :=
  if space w = 0 ∧ opReserved w ∧ (runs.all fun r =>
      r.2 == 0 || match localAt (some (core % 64)) (w % 2 ^ 32 + r.1) r.2 with
        | some a => a / 0x10000 == core % 64 && decide (a < 0x400000)
        | none => false) then 0 else 4

/-- The check of an own-cluster local address of n bytes: mapped, or RANGE (R137). -/
def checkLocal (core a n : Nat) : Nat := if (localAt (some (core % 64)) a n).isSome then 0 else 4

/-- n bytes at offset o of an operand in deep store or in the stores; where the function is not resident on the cluster that a
SPACE 1 operand names, its stores there are its saved image (R46, R136; 14 R539). -/
def getOp (s : State) (core w o n : Nat) : List Byte :=
  if space w = 2 then readDeep s (bits w 40 0 + o) n
  else match localAt (opOwn core w) (w % 2 ^ 32 + o) 1 with
    | some a =>
      if space w = 0 then readStore s (core / 64) a n
      else readPlace s (opClu core w) (coreFn s core) a n
    | none => zeros n

/-- n bytes at an own-cluster local address. -/
def getLocal (s : State) (core a n : Nat) : List Byte :=
  match localAt (some (core % 64)) a n with
  | some x => readStore s (core / 64) x n
  | none => zeros n

/-- The run of deep-store addresses of n bytes at offset o of an operand, where it lies there. -/
def deepRun (w o n : Nat) : List (Nat × Nat) := if n ≠ 0 ∧ space w = 2 then [(bits w 40 0 + o, n)] else []

/-- Runs of store keys and runs of deep-store addresses, as reads meet their errors. -/
abbrev Runs := List (Nat × Nat) × List (Nat × Nat)
/-- The runs of two reads. -/
def Runs.and (a b : Runs) : Runs := (a.1 ++ b.1, a.2 ++ b.2)

/-- The runs that n bytes at offset o of an operand are. -/
def opRun (s : State) (core w o n : Nat) : Runs :=
  if n = 0 then ([], [])
  else if space w = 2 then ([], deepRun w o n)
  else if space w = 3 then ([], [])
  else match localAt (opOwn core w) (w % 2 ^ 32 + o) 1 with
    | some a => if space w = 0 then ([(storeKey (core / 64) a, n)], []) else placeRuns s (opClu core w) (coreFn s core) a n
    | none => ([], [])
/-- The runs that some extents (offset, length) of an operand are. -/
def opRuns (s : State) (core w : Nat) (rs : List (Nat × Nat)) : Runs :=
  (rs.flatMap fun r => (opRun s core w r.1 r.2).1, rs.flatMap fun r => (opRun s core w r.1 r.2).2)
/-- The run of store keys of n bytes at an own-cluster local address. -/
def localRun (core a n : Nat) : List (Nat × Nat) :=
  match localAt (some (core % 64)) a n with
  | some x => [(storeKey (core / 64) x, n)]
  | none => []

/-- Adjoining writes of one step joined into runs (10 R378). -/
def mergeRuns : List (Nat × List Byte) → List (Nat × List Byte)
  | [] => []
  | (o, b) :: r =>
    match mergeRuns r with
    | [] => [(o, b)]
    | (o', b') :: t => if o + b.length = o' then (o, b ++ b') :: t else (o, b) :: (o', b') :: t

/-- Adjoining extents of one step joined into runs (10 R378). -/
def mergeExts : List (Nat × Nat) → List (Nat × Nat)
  | [] => []
  | (o, n) :: r =>
    match mergeExts r with
    | [] => [(o, n)]
    | (o', n') :: t => if o + n = o' then (o, n + n') :: t else (o, n) :: (o', n') :: t

/-- Do the runs of each step of a SPACE 3 operand start and end at multiples of 16 (10 R378)? -/
def runsOk (w : Nat) (steps : List (List (Nat × Nat))) : Bool :=
  space w != 3 || steps.all fun st => (mergeExts st).all fun r => (bits w 47 0 + r.1) % 16 == 0 && r.2 % 16 == 0

/-- Where a descriptor's remote output goes: endpoint and receiver tally. -/
structure Remote where
  ep : Nat
  rt : Nat
deriving DecidableEq, Repr

/-- The writes (offset, bytes) of one step to an operand: to the stores, to deep store, or as WRITE frames, run by run.
Answers whether a line in error was met. -/
def putOp (s : State) (core fn : Nat) (org : Origin) (rm : Remote) (w : Nat) (ws : List (Nat × List Byte)) :
    State × Bool :=
  if space w = 3 then
    ((mergeRuns ws).foldl (fun s r => sendRun s core org fn rm.ep rm.rt (bits w 47 0 + r.1) r.2) s, false)
  else if space w = 2 then (ws.foldl (fun s r => writeDeep s (bits w 40 0 + r.1) r.2) s, false)
  else ws.foldl (fun acc r =>
    match localAt (opOwn core w) (w % 2 ^ 32 + r.1) 1 with
    | some a =>
      let p := if space w = 0 then putStore acc.1 (storeKey (core / 64) a) r.2
        else putPlace acc.1 (opClu core w) (coreFn acc.1 core) a r.2
      (p.1, acc.2 || p.2)
    | none => acc) (s, false)

/-- Bytes written at an own-cluster local address. -/
def putLocal (s : State) (core a : Nat) (bs : List Byte) : State × Bool :=
  match localAt (some (core % 64)) a bs.length with
  | some x => putStore s (storeKey (core / 64) x) bs
  | none => (s, false)

/-- Elements of `wd` bits packed for a write at offset o; the bits of a last part byte that no element fills keep what
the store holds. -/
def packInto (s : State) (core w o wd : Nat) (codes : List Nat) : List Byte :=
  let bs := packElems wd codes
  let r := wd * codes.length % 8
  if r = 0 ∨ 3 ≤ space w then bs
  else
    let old := byteAt (getOp s core w (o + bs.length - 1) 1) 0
    leSet bs (bs.length - 1) 1 (byteAt bs (bs.length - 1) % 2 ^ r + old / 2 ^ r * 2 ^ r)

/-! ### Formats (Table CORE-5) -/

/-- An element format: its elements and whether it is block-scaled. -/
structure EFmt where
  f : Fmt
  mx : Bool
deriving DecidableEq, Repr

/-- The format of a code of Table CORE-5. -/
def fmtOf : Nat → Option EFmt
  | 0x00 => some ⟨.fp4, false⟩ | 0x01 => some ⟨.e2m3, false⟩ | 0x02 => some ⟨.e3m2, false⟩
  | 0x03 => some ⟨.e4m3, false⟩ | 0x04 => some ⟨.e5m2, false⟩ | 0x05 => some ⟨.bf16, false⟩
  | 0x06 => some ⟨.fp16, false⟩ | 0x07 => some ⟨.fp32, false⟩ | 0x08 => some ⟨.int4, false⟩
  | 0x09 => some ⟨.int8, false⟩ | 0x0A => some ⟨.int32, false⟩
  | 0x10 => some ⟨.fp4, true⟩ | 0x11 => some ⟨.e2m3, true⟩ | 0x12 => some ⟨.e3m2, true⟩
  | 0x13 => some ⟨.e4m3, true⟩ | 0x14 => some ⟨.e5m2, true⟩ | 0x15 => some ⟨.int8, true⟩
  | _ => none

/-- The row of Table ENG-2 that a format stands in: 0 narrow floating, 1 integer, 2 half, 3 FP32. -/
def pairRow (e : EFmt) : Nat :=
  match e.f with
  | .fp4 => 0 | .e2m3 => 0 | .e3m2 => 0 | .e4m3 => 0 | .e5m2 => 0
  | .int4 => 1 | .int8 => 1 | .int32 => 4
  | .bf16 => 2 | .fp16 => 2 | .fp32 => 3

/-- Is a pair of operand formats permitted (R58, Table ENG-2)? -/
def pairOk (w a : EFmt) : Bool := pairRow w == pairRow a && pairRow w != 4
/-- Are both formats plain and narrow, so that the column sums exactly (R68)? -/
def plainNarrow (w a : EFmt) : Bool := !w.mx && !a.mx && pairRow w < 2 && pairRow a < 2
/-- The quantum's logarithm of an element as the block path forms it (Table ENG-5, R62). -/
def elemQuantum (e : EFmt) : Int := if e.mx && e.f == .int8 then -6 else quantumLog e.f

/-- An element read in a format: an MXINT8 element weighs 2^-6 (R62). -/
def readIn (e : EFmt) (ftz : Bool) (code : Nat) : Num × FpFlags :=
  let r := readElem e.f ftz code
  if e.mx && e.f == .int8 then (Num.shift r.1 (-6), r.2) else r

/-- The bytes that n elements of a format take (R103). -/
def elemBytes (e : EFmt) (n : Nat) : Nat := ceilDiv (widthOf e.f * n) 8

/-- Is a format a destination of the conversion unit (Table CNV-1)? -/
def isDst (e : EFmt) : Bool := e.f != .int32

/-- The output formats of MATMUL, SPARSE and sums: elements, partial words (0xFE) or images (0xFF). -/
inductive OFmt where
  | elems (e : EFmt)
  | words
  | images
deriving DecidableEq, Repr

/-- The output format of a code. -/
def ofmtOf (c : Nat) : Option OFmt :=
  if c = 0xFE then some .words else if c = 0xFF then some .images else (fmtOf c).map .elems

/-! ### Parameter blocks (R151, R152, Table CORE-6, Table CNV-1) -/

/-- The die of a core. -/
def coreDie (core : Nat) : Nat := core / 10240

/-- The values when PARAM is none (Table CNV-1). -/
def Params.default (s : State) (core : Nat) : Params :=
  let d := coreDie core
  { present := false, wsc := 0, asc := 0, osc := 0, gw := one32, ga := one32, g := one32, slot := none, recAt := none,
    a := one32, b := 0, lo := 0, hi := 0, clip := false, close := false, sat := flag s (R.cpxFpmode d) 1,
    fit := flag s (R.cpxCnvmode d) 0, ftz := flag s (R.cpxFpmode d) 0, margin := getF s (R.cpxCnvmode d) 10 8,
    named := false, rsv := false }

/-- An address field whose 0xFFFF_FFFF means none. -/
def noneAddr (a : Nat) : Option Nat := if a = 0xFFFFFFFF then none else some a

/-- The parameter block a descriptor names, with g taken from its slot where it names one (R117, R151). It is read once, as
the descriptor is issued. -/
def readParams (s : State) (core addr : Nat) : Params :=
  match noneAddr addr with
  | none => Params.default s core
  | some a =>
    let b := getLocal s core a 64
    let d := Params.default s core
    let cfg := byteAt b 60
    let slot := noneAddr (leAt b 36 4)
    { present := true, wsc := leAt b 0 8, asc := leAt b 8 8, osc := leAt b 16 8, gw := leAt b 24 4, ga := leAt b 28 4,
      g := match slot with
        | none => leAt b 32 4
        | some x => leNat (getLocal s core x 4)
      slot := slot, recAt := noneAddr (leAt b 40 4), a := leAt b 44 4, b := leAt b 48 4, lo := leAt b 52 4,
      hi := leAt b 56 4, clip := bit cfg 0, close := bit cfg 1,
      sat := if bit cfg 3 then bit cfg 2 else d.sat, fit := if bit cfg 5 then bit cfg 4 else d.fit,
      ftz := if bit cfg 7 then bit cfg 6 else d.ftz,
      margin := if bit (byteAt b 61) 3 then byteAt b 61 % 8 else d.margin,
      named := bit cfg 3 || bit cfg 5 || bit cfg 7 || bit (byteAt b 61) 3,
      rsv := byteAt b 61 / 16 != 0 || leAt b 62 2 != 0 }

/-- The store runs of a parameter block and of its slot's SCALE, as a descriptor reads them when it is issued. -/
def paramRuns (s : State) (core addr : Nat) : List (Nat × Nat) :=
  match noneAddr addr with
  | none => []
  | some a =>
    localRun core a 64 ++ match (readParams s core addr).slot with
      | none => []
      | some x => localRun core x 4

/-- The first status that is not OK. -/
def firstBad : List Nat → Nat
  | [] => 0
  | x :: r => if x = 0 then firstBad r else x

/-- RANGE unless a condition holds. -/
def need (c : Bool) : Nat := if c then 0 else 4

/-- The checks of a parameter block's own fields: GW, GA, and G or the SCALE of its slot are normal finite values, whatever the
descriptor does with them (R81, R100, R118, R137, R150, R151). -/
def checkParams (core addr : Nat) (p : Params) (mx : Bool) : Nat :=
  match noneAddr addr with
  | none => need (!mx)
  | some a => firstBad [checkLocal core a 64, need (!p.rsv),
      (match p.slot with | none => 0 | some x => firstBad [checkLocal core x 16, need (x % 16 == 0)]),
      (match p.recAt with | none => 0 | some x => firstBad [checkLocal core x 32, need (x % 32 == 0)]),
      need (normalFp32 p.gw && normalFp32 p.ga && normalFp32 p.g)]

/-- The checks of the conversion parameters that both paths share (Table CNV-1). They bind a descriptor that converts;
where nothing is converted, CLOSE, SLOT and REC have no effect (log 91). -/
def checkConv (p : Params) (e : EFmt) : Nat :=
  firstBad [need (isDst e), need (!p.close || (p.slot.isSome && !e.mx))]

/-- LO is not above HI and neither is a NaN (Table CNV-1). -/
def clipOk (p : Params) : Bool :=
  !p.clip || (!isNanFp32 p.lo && !isNanFp32 p.hi &&
    !(match decodeElem .fp32 p.hi, decodeElem .fp32 p.lo with
      | .fin _ 0 _, .fin _ 0 _ => false
      | h, l => Num.lt h l))

/-- The checks of a fused conversion's parameters (Table CNV-1). -/
def checkFused (p : Params) (e : EFmt) : Nat :=
  firstBad [checkConv p e, need (finiteFp32 p.a && finiteFp32 p.b), need (clipOk p)]

/-- Is an output of these elements a fused conversion: with a parameter block, and for every format that la_emit does
not write (R79, R95, log 20)? -/
def isFused (p : Params) (e : EFmt) : Bool :=
  e.f != .int32 && (e.mx || !isWide e.f || p.present)

/-- The settings of a conversion. -/
def Params.cvt (p : Params) (e : EFmt) : CvtParams :=
  { dst := e.f, mx := e.mx, sat := p.sat, fit := p.fit, ftz := p.ftz, g := p.g }

/-- Overrides are DENIED while `CPX_FPMODE.WLOVR` is 0 (R101). -/
def checkOver (s : State) (core : Nat) (named : Bool) : Nat :=
  if named && !flag s (R.cpxFpmode (coreDie core)) 8 then 6 else 0

/-- A tally index of the issuing function on the core's die (R150): RANGE beyond its tallies, DENIED where the index falls
in another function's range. -/
def checkTally (s : State) (core fn idx : Nat) : Nat :=
  let d := coreDie core
  let r := tallyRange s fn d
  if idx < r.2 then 0
  else if allFns.any fun o => o != fn && decide ((tallyRange s o d).1 ≤ r.1 + idx) &&
      decide (r.1 + idx < (tallyRange s o d).1 + (tallyRange s o d).2) then 6
  else 4

/-- A tally index that may be 0xFFFF for none. -/
def checkTallyOpt (s : State) (core fn idx : Nat) : Nat := if idx = 0xFFFF then 0 else checkTally s core fn idx

end Sys2Proof.Machine
end

