-- ==== Sys2Proof/Machine/Engine.lean ====
section
/-! DEFINITION. Sys2Proof/Machine/Engine.lean: what MATMUL, CONVERT and REDUCE check at issue and compute
(04_cores_clusters.md R153 to R161, 02_engines.md, 03_conversion.md): layouts, columns, emission, slots and records. -/

namespace Sys2Proof.Machine

/-! ### Shared emission -/

/-- A run of n elements of a format at offset o of an operand, as codes. -/
def readCodes (s : State) (core w o : Nat) (e : EFmt) (n : Nat) : List Nat :=
  let run := leNat (getOp s core w o (elemBytes e n))
  (List.range n).map (unpackElem (widthOf e.f) run)

/-- A list cut into pieces of n. -/
def chunks (n : Nat) (l : List Num) (fuel : Nat) : List (List Num) :=
  match fuel with
  | 0 => []
  | k + 1 => if l.isEmpty then [] else l.take n :: chunks n (l.drop n) k

/-- Values converted to codes by the conversion unit, with the block scales of an MX destination (R99, R105, R111). -/
def cvtRun (c : CvtParams) (t : TileAcc) (xs : List Num) : List Nat × List Nat × TileAcc :=
  if c.mx then
    (chunks 32 xs xs.length).foldl (fun acc b =>
      let r := cvtBlock c acc.2.2 b
      (acc.1 ++ r.2.1, acc.2.1 ++ [r.1], r.2.2)) ([], [], t)
  else
    xs.foldl (fun acc x =>
      let r := cvtPlain c acc.2.2 x
      (acc.1 ++ [r.1], acc.2.1, r.2)) ([], [], t)

/-- One row of la_emit's exact values written as elements of a format (R79, R80, R98): codes and MX scales. What reading the
operands, la_enter and la_emit raise goes to the list's flags and not into the tile's record (R123, log 91). -/
def emitRow (p : Params) (e : EFmt) (vals : List Num) (acc : EmitAcc) : List Nat × List Nat × EmitAcc :=
  if isFused p e then
    let d := decodeElem .fp32
    let fs := vals.map fun v => fused v (d p.a) (d p.b) (d p.lo) (d p.hi) p.clip
    let t := fs.foldl (fun (t : TileAcc) f => { t with flags := t.flags.or f.2 }) acc.t
    let r := cvtRun (Params.cvt p e) t (fs.map (·.1))
    (r.1, r.2.1, { acc with t := r.2.2 })
  else
    vals.foldl (fun a v =>
      let r := emitNum v e.f p.ftz
      (a.1 ++ [r.1], a.2.1, { a.2.2 with fl := a.2.2.fl.or r.2 })) ([], [], acc)

/-- A 32-bit counter raised by what a step counts; where it counts nothing, the counter is not written. -/
def countOf (s : State) (off n : Nat) : State := if n = 0 then s else bump s off n

/-- What a step of an operation adds: the die's counts and the flags, as they arise (R92, R107, R114, R124). -/
def noteStep (s : State) (core fn : Nat) (old new : EmitAcc) : State :=
  let d := coreDie core
  raiseFlags (countOf (countOf s (R.cpxCnvtail d) (new.t.tail - old.t.tail)) (R.cpxCnvovfn d) (new.t.ovfn - old.t.ovfn)) core fn
    (new.fl.or new.t.flags)

/-- A tile's end (R120, R121, R123): the slot's update and the record. Answers whether a line in error was met. -/
def endTile (s : State) (core : Nat) (p : Params) (e : EFmt) (t : TileAcc) : State × Bool :=
  let a := match p.slot with
    | none => (s, false)
    | some x =>
      let m := meetStore s (localRun core x 16)
      if m.2 then m else putLocal m.1 core x (slotUpdate (getLocal m.1 core x 16) t p.close e.f p.margin)
  let b := match p.recAt with
    | none => (a.1, false)
    | some x => putLocal a.1 core x (TileAcc.bytes t p.g)
  (b.1, a.2 || b.2)

/-! ### Steps between tile boundaries (01 R45; 04 R157, R159, R161, R162) -/

/-- What a run of an operation leaves: the state, whether an uncorrectable error was met, and where the operation stands at a
tile boundary; none once it has been carried out. -/
structure OpRes where
  s : State
  ue : Bool
  part : Option Part

/-- Steps from j on, n at most: up to the first that is bad, or the first alone. Answers the next step's number. -/
def stepsFrom {α : Type} (f : α → Nat → α) (bad : α → Bool) (one : Bool) : Nat → Nat → α → α × Nat
  | 0, j, a => (a, j)
  | n + 1, j, a =>
    let b := f a j
    if bad b || one then (b, j + 1) else stepsFrom f bad one n (j + 1) b

/-- An output's end: the tile's end where it was converted (R120 to R123). -/
def endFused (s : State) (core : Nat) (p : Params) (o : Option EFmt) (t : TileAcc) (ue : Bool) : OpRes :=
  match o with
  | some e =>
    if isFused p e && !ue then
      let r := endTile s core p e t
      ⟨r.1, r.2, none⟩
    else ⟨s, ue, none⟩
  | none => ⟨s, ue, none⟩

/-- The element format of an output format. -/
def OFmt.elem : OFmt → Option EFmt
  | .elems e => some e
  | .words => none
  | .images => none

/-! ### MATMUL (R153 to R157) -/

/-- A MATMUL descriptor (Table CORE-7) with its formats decoded. -/
structure MatmulD where
  wf : EFmt
  af : EFmt
  of : OFmt
  seam : Nat
  acc : Bool
  w : Nat
  a : Nat
  c : Nat
  m : Nat
  n : Nat
  k0 : Nat
  kn : Nat
  astr : Nat
  cstr : Nat
  img : Nat
  param : Nat
  rm : Remote
  imgr : Nat
deriving DecidableEq, Repr

/-- The die's default SEAM (R64). -/
def seamDefault (s : State) (core : Nat) : Nat := getF s (R.cpxFpmode (coreDie core)) 7 4
/-- The seam width of a descriptor: its SEAM field, or the default (R64). -/
def seamOf (dflt f : Nat) : Nat := if f = 0 then dflt else f

/-- The fields of a MATMUL under a default SEAM, where its format codes are listed. -/
def matmulD (dflt : Nat) (b : List Byte) : Option MatmulD :=
  match fmtOf (byteAt b 4), fmtOf (byteAt b 5), ofmtOf (byteAt b 6) with
  | some wf, some af, some o => some {
      wf := wf, af := af, of := o, seam := seamOf dflt (byteAt b 7 % 32), acc := bit (byteAt b 7) 5,
      w := leAt b 8 8, a := leAt b 16 8, c := leAt b 24 8, m := leAt b 32 2, n := leAt b 34 2,
      k0 := leAt b 36 4, kn := leAt b 40 4, astr := leAt b 44 2, cstr := leAt b 46 2, img := leAt b 48 4,
      param := leAt b 52 4, rm := ⟨leAt b 56 2, leAt b 58 2⟩, imgr := byteAt b 60 }
  | _, _, _ => none

/-- The seams that the K range meets, as pieces (first, end) counted from K0 (R64); an empty range meets none. -/
def MatmulD.seams (d : MatmulD) : List (Nat × Nat) :=
  let w := 2 ^ d.seam
  if d.kn = 0 then [] else (upto (d.k0 / w) ((d.k0 + d.kn - 1) / w + 1 - d.k0 / w)).map fun i =>
    (max d.k0 (i * w) - d.k0, min (d.k0 + d.kn) ((i + 1) * w) - d.k0)

/-- Are images kept (R155)? -/
def MatmulD.kept (d : MatmulD) : Bool := decide (1 < (MatmulD.seams d).length) || d.acc || d.of == .images
/-- The rows of a block (R157). -/
def MatmulD.mb (d : MatmulD) : Nat :=
  if MatmulD.kept d && d.of != .images then (if d.imgr = 0 then 64 else d.imgr) else 64
/-- The weight groups of 8 K indices. -/
def MatmulD.kt (d : MatmulD) : Nat := ceilDiv d.kn 8
/-- The K blocks of 32. -/
def MatmulD.kb (d : MatmulD) : Nat := ceilDiv d.kn 32

/-- Row blocks and column blocks in R157's order: first row, rows, first column, columns. -/
def blocksOf (m mb n : Nat) : List (Nat × Nat × Nat × Nat) :=
  (List.range (ceilDiv m mb)).flatMap fun i =>
    (List.range (ceilDiv n 32)).map fun j => (i * mb, min mb (m - i * mb), j * 32, min 32 (n - j * 32))

/-- The extents that a MATMUL writes to C at each step (R154, R157). -/
def MatmulD.outSteps (d : MatmulD) : List (List (Nat × Nat)) :=
  match d.of with
  | .words => (blocksOf d.m (MatmulD.mb d) d.n).flatMap fun bl =>
      (List.range (MatmulD.seams d).length).map fun si =>
        (upto bl.1 bl.2.1).map fun r => (((si * d.m + r) * d.n + bl.2.2.1) * 16, 16 * bl.2.2.2)
  | .images => [(List.range d.m).map fun r => (r * d.n * 48, d.n * 48)]
  | .elems e => (blocksOf d.m (MatmulD.mb d) d.n).map fun bl =>
      (upto bl.1 bl.2.1).map fun r => (16 * d.cstr * r + elemBytes e bl.2.2.1, elemBytes e bl.2.2.2)

/-- The extents that a MATMUL writes to OSC at each step: the scales of an MX output (R154). -/
def MatmulD.scaleSteps (d : MatmulD) : List (List (Nat × Nat)) :=
  match d.of with
  | .words => []
  | .images => []
  | .elems e =>
    if e.mx then (blocksOf d.m (MatmulD.mb d) d.n).map fun bl =>
      (upto bl.1 bl.2.1).map fun r => (r * (d.n / 32) + bl.2.2.1 / 32, 1)
    else []

/-- Is any of a descriptor's formats block-scaled? -/
def OFmt.mx : OFmt → Bool
  | .elems e => e.mx
  | .words => false
  | .images => false

/-- The operand runs of a MATMUL in its face store: weights and activations (R154). -/
def MatmulD.wRuns (d : MatmulD) : List (Nat × Nat) := [(0, d.n / 8 * MatmulD.kt d * (8 * widthOf d.wf.f))]
/-- The activation rows (R154). -/
def MatmulD.aRuns (d : MatmulD) : List (Nat × Nat) :=
  (List.range d.m).map fun r => (16 * d.astr * r, elemBytes d.af d.kn)

/-- The checks of a MATMUL at issue (R58, R66, R79, R81, R100, R101, R137, R138, R150, R151, R155, R378). Of R66 the start of the
K range is checked; a descriptor does not name the end of K, so any end may be it (log 62). Where nothing is converted, CLOSE,
SLOT and REC have no effect and CLOSE is not checked (R100, log 91). -/
def checkMatmul (s : State) (core fn : Nat) (b : List Byte) : Nat :=
  match matmulD (seamDefault s core) b with
  | none => 4
  | some d =>
    let p := readParams s core d.param
    let spaces := if d.of = .images then [0] else [0, 1, 3]
    firstBad [
      need (zeroAt b 61 3 && byteAt b 7 / 64 == 0),
      need (pairOk d.wf d.af),
      (match d.of with
        | .elems e => need (isDst e || pairRow d.wf == 1)
        | .words => 0
        | .images => 0),
      need (decide (8 ≤ d.seam) && decide (d.seam ≤ 16)),
      need (decide (1 ≤ d.m) && d.n % 8 == 0 && (!OFmt.mx d.of || d.n % 32 == 0)),
      need (d.k0 % 2 ^ d.seam == 0),
      need (decide (d.imgr ≤ 64)),
      (if MatmulD.kept d && d.of != .images then
        firstBad [need (d.img != 0xFFFFFFFF), checkFace core d.img [(0, MatmulD.mb d * 32 * 48)]]
       else if d.img = 0xFFFFFFFF then 0 else checkLocal core d.img 1),
      checkParams core d.param p (d.wf.mx || d.af.mx || OFmt.mx d.of),
      (match d.of with
        | .elems e => if isFused p e then checkFused p e else 0
        | .words => 0
        | .images => 0),
      checkFace core d.w (MatmulD.wRuns d),
      checkFace core d.a (MatmulD.aRuns d),
      (if d.of = .images then checkFace core d.c (MatmulD.outSteps d).flatten
       else checkOp s core fn d.c spaces (MatmulD.outSteps d).flatten),
      need (runsOk d.c (MatmulD.outSteps d)),
      (if d.wf.mx then checkOp s core fn p.wsc [0] [(0, d.n * MatmulD.kb d)] else 0),
      (if d.af.mx then checkOp s core fn p.asc [0] [(0, d.m * MatmulD.kb d)] else 0),
      (if OFmt.mx d.of then checkOp s core fn p.osc [0, 1, 3] [(0, d.m * d.n / 32)] else 0),
      need (!OFmt.mx d.of || runsOk p.osc (MatmulD.scaleSteps d)),
      checkOver s core (p.named || byteAt b 7 % 32 != 0)]

/-- The store runs that one seam of one block reads: activation rows, weight tiles and scales (R154, R157). -/
def MatmulD.readRuns (s : State) (core : Nat) (d : MatmulD) (p : Params) (bl : Nat × Nat × Nat × Nat) (sm : Nat × Nat) : Runs :=
  let wa := widthOf d.af.f
  let kt := MatmulD.kt d
  let kb := MatmulD.kb d
  let ka := sm.1 * wa / 8
  let nk := ceilDiv sm.2 8 - sm.1 / 8
  let nb := ceilDiv sm.2 32 - sm.1 / 32
  let rows := upto bl.1 bl.2.1
  let a := opRuns s core d.a (rows.map fun r => (16 * d.astr * r + ka, ceilDiv (sm.2 * wa) 8 - ka))
  let w := opRuns s core d.w ((upto (bl.2.2.1 / 8) (ceilDiv bl.2.2.2 8)).map fun g =>
    ((g * kt + sm.1 / 8) * (8 * widthOf d.wf.f), nk * (8 * widthOf d.wf.f)))
  let x := if d.af.mx then opRuns s core p.asc (rows.map fun r => (r * kb + sm.1 / 32, nb)) else ([], [])
  let y := if d.wf.mx then opRuns s core p.wsc ((upto bl.2.2.1 bl.2.2.2).map fun c => (c * kb + sm.1 / 32, nb)) else ([], [])
  (a.and w).and (x.and y)

/-- The products of one output over one seam piece enter one entry, in ascending K (R52, R65 to R74), and its partial
word is formed (R67). `av` and `wv` give the operands at a K index, `asc` and `wsc` the scales of a K block. -/
def seamWord (wf af : EFmt) (scales : Int) (av wv : Nat → Num) (asc wsc : Nat → Nat) (ks ke : Nat) :
    PartialWord × FpFlags :=
  let integer := pairRow wf == 1
  if plainNarrow wf af then
    let r := (upto ks (ke - ks)).foldl (fun acc k =>
        let e := enterProduct true integer acc.1 (av k) (wv k)
        (e.1, acc.2.or e.2)) (BankEntry.start (quantumLog wf.f + quantumLog af.f), FpFlags.none)
    (emitEntry true r.1 scales, r.2)
  else if wf.mx || af.mx then
    let qb := elemQuantum wf + elemQuantum af
    let r := (upto (ks / 32) (ceilDiv ke 32 - ks / 32)).foldl (fun acc kb =>
        let lo := max ks (32 * kb)
        let ps := (upto lo (min ke (32 * kb + 32) - lo)).map fun k => (av k, wv k)
        let e := enterBlock integer acc.1 ps (asc kb) (wsc kb) qb
        (e.1, acc.2.or e.2)) (BankEntry.start 0, FpFlags.none)
    (emitEntry false r.1 scales, r.2)
  else
    let r := (upto ks (ke - ks)).foldl (fun acc k =>
        let e := enterProduct false integer acc.1 (av k) (wv k)
        (e.1, acc.2.or e.2)) (BankEntry.start 0, FpFlags.none)
    (emitEntry false r.1 scales, r.2)

/-- The operands of a MATMUL, read from the face store (R154). -/
structure MatmulIn where
  av : Nat → Nat → Num
  wv : Nat → Nat → Num
  asc : Nat → Nat → Nat
  wsc : Nat → Nat → Nat
  fl : FpFlags

/-- The operands of one seam of one block as R154 lays them; FLUSHED where FTZ reads a subnormal as zero (R91). -/
def matmulIn (s : State) (core : Nat) (d : MatmulD) (p : Params) (bl : Nat × Nat × Nat × Nat) (sm : Nat × Nat) : MatmulIn :=
  let wRun := leNat (getOp s core d.w 0 (d.n / 8 * MatmulD.kt d * (8 * widthOf d.wf.f)))
  let wcode := fun c k => unpackElem (widthOf d.wf.f) wRun ((c / 8 * MatmulD.kt d + k / 8) * 64 + 8 * (k % 8) + c % 8)
  let arow := fun r => leNat (getOp s core d.a (16 * d.astr * r) (elemBytes d.af d.kn))
  let acode := fun r k => unpackElem (widthOf d.af.f) (arow r) k
  let ks := upto sm.1 (sm.2 - sm.1)
  let flush := (upto bl.1 bl.2.1).any (fun r => ks.any fun k => (readIn d.af p.ftz (acode r k)).2.flushed) ||
    (upto bl.2.2.1 bl.2.2.2).any fun c => ks.any fun k => (readIn d.wf p.ftz (wcode c k)).2.flushed
  { av := fun r k => (readIn d.af p.ftz (acode r k)).1
    wv := fun c k => (readIn d.wf p.ftz (wcode c k)).1
    asc := fun r kb => if d.af.mx then byteAt (getOp s core p.asc (r * MatmulD.kb d + kb) 1) 0 else 127
    wsc := fun c kb => if d.wf.mx then byteAt (getOp s core p.wsc (c * MatmulD.kb d + kb) 1) 0 else 127
    fl := { FpFlags.none with flushed := p.ftz && flush } }

/-- The partial word of output (r, c) over a seam piece. -/
def matmulWord (d : MatmulD) (p : Params) (x : MatmulIn) (r c : Nat) (sm : Nat × Nat) : PartialWord × FpFlags :=
  seamWord d.wf d.af (scaleExp p.gw + scaleExp p.ga) (x.av r) (x.wv c) (x.asc r) (x.wsc c) sm.1 sm.2

/-- Where image (r, c) of a block is kept: at C for OFMT 0xFF, else at IMG, 32 images to a row of the block (R155,
log 21). -/
def keptAt (d : MatmulD) (bl : Nat × Nat × Nat × Nat) (r c : Nat) : Nat :=
  if d.of = .images then d.c % 2 ^ 32 + (r * d.n + c) * 48 else d.img + ((r - bl.1) * 32 + (c - bl.2.2.1)) * 48

/-- What a MATMUL carries from step to step: the state, the emission's counts, the bytes at IMG as the descriptor started, the
transient images of the block, and whether an uncorrectable error was met. -/
structure MatmulAcc where
  s : State
  ea : EmitAcc
  init : List Byte
  ims : List Image
  ue : Bool
deriving DecidableEq, Repr

/-- The outputs of a block, row by row. -/
def blockCells (bl : Nat × Nat × Nat × Nat) : List (Nat × Nat) :=
  (upto bl.1 bl.2.1).flatMap fun r => (upto bl.2.2.1 bl.2.2.2).map fun c => (r, c)

/-- The image that output (r, c) of a block starts from: the one at C, or at IMG as the descriptor started, with ACC = 1, else an
empty one (R156). -/
def startImage (s : State) (core : Nat) (d : MatmulD) (init : List Byte) (bl : Nat × Nat × Nat × Nat) (r c : Nat) : Image :=
  if !d.acc then Image.empty
  else if d.of = .images then Image.ofBytes (getLocal s core (keptAt d bl r c) 48)
  else Image.ofBytes ((init.drop (((r - bl.1) * 32 + (c - bl.2.2.1)) * 48)).take 48)

/-- The image of output (r, c) of a block before its i-th seam: the starting one, the kept one, or the transient one. -/
def imageAt (a : MatmulAcc) (core : Nat) (d : MatmulD) (bl : Nat × Nat × Nat × Nat) (i r c : Nat) : Image :=
  if i = 0 then startImage a.s core d a.init bl r c
  else if MatmulD.kept d then Image.ofBytes (getLocal a.s core (keptAt d bl r c) 48)
  else a.ims.getD ((r - bl.1) * bl.2.2.2 + (c - bl.2.2.1)) Image.empty

/-- The runs of the kept images of a block that a step reads. -/
def imageRuns (core : Nat) (d : MatmulD) (bl : Nat × Nat × Nat × Nat) : Runs :=
  ((blockCells bl).flatMap fun rc => localRun core (keptAt d bl rc.1 rc.2) 48, [])

/-- One seam of a block (R157): the engines' rows, one partial word per output, written to C or entered into its image. -/
def seamStep (core fn : Nat) (org : Origin) (d : MatmulD) (p : Params) (bl : Nat × Nat × Nat × Nat) (i : Nat)
    (a : MatmulAcc) : MatmulAcc :=
  let sm := (MatmulD.seams d).getD i (0, 0)
  let runs := MatmulD.readRuns a.s core d p bl sm
  let m := meetRuns a.s 0 (if MatmulD.kept d && (i != 0 || (d.acc && d.of == .images)) then runs.and (imageRuns core d bl) else runs)
  if m.2 then { a with s := m.1, ue := true }
  else
    let a := { a with s := m.1 }
    let x := matmulIn a.s core d p bl sm
    let ws := (blockCells bl).map fun rc => (rc, matmulWord d p x rc.1 rc.2 sm)
    let fl := ws.foldl (fun f w => f.or w.2.2) (a.ea.fl.or x.fl)
    if d.of = .words then
      let out := (upto bl.1 bl.2.1).map fun r => (((i * d.m + r) * d.n + bl.2.2.1) * 16,
        (ws.filter fun w => w.1.1 == r).flatMap fun w => PartialWord.bytes w.2.1)
      let w := putOp a.s core fn org d.rm d.c out
      { a with s := w.1, ea := { a.ea with fl := fl }, ue := w.2 }
    else
      let ims := ws.map fun w => (w.1, laEnter (imageAt a core d bl i w.1.1 w.1.2) w.2.1)
      let fl := ims.foldl (fun f m => f.or m.2.2) fl
      let w := if MatmulD.kept d then ims.foldl (fun (q : State × Bool) m =>
          let w := putLocal q.1 core (keptAt d bl m.1.1 m.1.2) (Image.bytes m.2.1)
          (w.1, q.2 || w.2)) (a.s, false) else (a.s, false)
      { a with s := w.1, ea := { a.ea with fl := fl }, ims := if MatmulD.kept d then [] else ims.map (·.2.1), ue := w.2 }

/-- The end of a block (R157): its images are emitted to C as elements; with no seam, kept images are the starting ones. -/
def blockStep (core fn : Nat) (org : Origin) (d : MatmulD) (p : Params) (bl : Nat × Nat × Nat × Nat) (a : MatmulAcc) : MatmulAcc :=
  let k := (MatmulD.seams d).length
  match d.of with
  | .words => a
  | .images =>
    if k != 0 || d.acc then a
    else
      let w := (blockCells bl).foldl (fun (q : State × Bool) rc =>
        let w := putLocal q.1 core (keptAt d bl rc.1 rc.2) (Image.bytes Image.empty)
        (w.1, q.2 || w.2)) (a.s, false)
      { a with s := w.1, ue := w.2 }
  | .elems e =>
    let m := meetRuns a.s 0 (if k != 0 && MatmulD.kept d then imageRuns core d bl else ([], []))
    if m.2 then { a with s := m.1, ue := true }
    else
      let a := { a with s := m.1 }
      let res := (upto bl.1 bl.2.1).foldl (fun (q : EmitAcc × List (Nat × List Byte) × List (Nat × List Byte)) r =>
          let vals := (upto bl.2.2.1 bl.2.2.2).map fun c =>
            laValue (imageAt a core d bl k r c) (scaleSig p.gw) (scaleSig p.ga)
          let em := emitRow p e (vals.map (·.1)) { q.1 with fl := vals.foldl (fun f v => f.or v.2) q.1.fl }
          let o := 16 * d.cstr * r + elemBytes e bl.2.2.1
          (em.2.2, q.2.1 ++ [(o, packInto a.s core d.c o (widthOf e.f) em.1)],
            q.2.2 ++ [(r * (d.n / 32) + bl.2.2.1 / 32, em.2.1.map (BitVec.ofNat 8))])) (a.ea, [], [])
      let o1 := putOp a.s core fn org d.rm d.c res.2.1
      let o2 := if e.mx then putOp o1.1 core fn org d.rm p.osc res.2.2 else (o1.1, false)
      { a with s := o2.1, ea := res.1, ims := [], ue := o1.2 || o2.2 }

/-- Step j of a MATMUL: of its blocks in order, each seam and then the block's end; each ends at a tile boundary (R157). -/
def matmulStep (core fn : Nat) (org : Origin) (d : MatmulD) (p : Params) (a : MatmulAcc) (j : Nat) : MatmulAcc :=
  let k := (MatmulD.seams d).length + 1
  let bl := (blocksOf d.m (MatmulD.mb d) d.n).getD (j / k) (0, 0, 0, 0)
  let b := if j % k + 1 = k then blockStep core fn org d p bl a else seamStep core fn org d p bl (j % k) a
  { b with s := noteStep b.s core fn a.ea b.ea }

/-- Where a MATMUL goes on: at a tile boundary, or at its start, where the images at IMG are read (R156). -/
def matmulFrom (s : State) (core : Nat) (d : MatmulD) (part : Option Part) : Nat × MatmulAcc :=
  let fresh : Nat × MatmulAcc :=
    if d.acc && d.of != .images then
      let m := meetRuns s 0 (localRun core d.img (MatmulD.mb d * 32 * 48), [])
      (0, ⟨m.1, EmitAcc.empty, getLocal m.1 core d.img (MatmulD.mb d * 32 * 48), [], m.2⟩)
    else (0, ⟨s, EmitAcc.empty, [], [], false⟩)
  match part with
  | some (.matmul j ea init ims) => (j, ⟨s, ea, init, ims, false⟩)
  | some (.reduce _ _ _) => fresh
  | some (.sparse _ _ _ _) => fresh
  | some (.copy _) => fresh
  | none => fresh

/-- What MATMUL does (R157): every block in order, then the tile's end; or its steps up to the next tile boundary. -/
def runMatmul (s : State) (core fn : Nat) (org : Origin) (d : MatmulD) (p : Params) (one : Bool) (part : Option Part) : OpRes :=
  let total := (blocksOf d.m (MatmulD.mb d) d.n).length * ((MatmulD.seams d).length + 1)
  let a := matmulFrom s core d part
  if a.2.ue then ⟨a.2.s, true, none⟩
  else
    let r := stepsFrom (matmulStep core fn org d p) (fun a => a.ue) one (total - a.1) a.1 a.2
    if r.1.ue then ⟨r.1.s, true, none⟩
    else if r.2 < total then ⟨r.1.s, false, some (.matmul r.2 r.1.ea r.1.init r.1.ims)⟩
    else endFused r.1.s core p (OFmt.elem d.of) r.1.ea.t false

/-! ### CONVERT (R158) -/

/-- A CONVERT descriptor (Table CORE-8) with its formats decoded. -/
structure ConvertD where
  sf : EFmt
  df : EFmt
  axis : Nat
  src : Nat
  dst : Nat
  rows : Nat
  cols : Nat
  sstr : Nat
  dstr : Nat
  param : Nat
  rm : Remote
deriving DecidableEq, Repr

/-- The fields of a CONVERT, where its format codes are listed. -/
def convertD (b : List Byte) : Option ConvertD :=
  match fmtOf (byteAt b 4), fmtOf (byteAt b 5) with
  | some sf, some df => some {
      sf := sf, df := df, axis := byteAt b 6, src := leAt b 8 8, dst := leAt b 16 8, rows := leAt b 24 2,
      cols := leAt b 26 2, sstr := leAt b 28 4, dstr := leAt b 32 4, param := leAt b 36 4,
      rm := ⟨leAt b 40 2, leAt b 42 2⟩ }
  | _, _ => none

/-- The source rows of a CONVERT. -/
def ConvertD.srcRuns (d : ConvertD) : List (Nat × Nat) :=
  (List.range d.rows).map fun r => (d.sstr * r, elemBytes d.sf d.cols)
/-- The destination rows, each one step (10 R378). -/
def ConvertD.outSteps (d : ConvertD) : List (List (Nat × Nat)) :=
  (List.range d.rows).map fun r => [(d.dstr * r, elemBytes d.df d.cols)]
/-- The scale of the block that holds element (r, c): its byte in a scale array (R158). -/
def ConvertD.scaleAt (d : ConvertD) (r c : Nat) : Nat :=
  if d.axis = 0 then r * (d.cols / 32) + c / 32 else c * (d.rows / 32) + r / 32
/-- The destination scales written with each tile row: the blocks of that row; with AXIS 1, those of a row of blocks with its
last row (log 22, 10 R378). -/
def ConvertD.scaleRow (d : ConvertD) (r : Nat) : List (Nat × Nat) :=
  if !d.df.mx then []
  else if d.axis = 0 then [(r * (d.cols / 32), d.cols / 32)]
  else if r % 32 = 31 then (List.range d.cols).map fun c => (ConvertD.scaleAt d r c, 1)
  else []
/-- The destination scales written at each step (10 R378). -/
def ConvertD.scaleSteps (d : ConvertD) : List (List (Nat × Nat)) := (List.range d.rows).map (ConvertD.scaleRow d)

/-- The checks of a CONVERT at issue (R81, R96, R100, R137, R150, R151, R158, R378). -/
def checkConvert (s : State) (core fn : Nat) (b : List Byte) : Nat :=
  match convertD b with
  | none => 4
  | some d =>
    let p := readParams s core d.param
    let mx := d.sf.mx || d.df.mx
    firstBad [
      need (zeroAt b 7 1 && zeroAt b 44 20),
      need (decide (d.axis ≤ 1) && isDst d.df),
      need (decide (1 ≤ d.rows) && decide (1 ≤ d.cols) && decide (d.rows * d.cols ≤ 65536)),
      need (d.sstr % 16 == 0 && d.dstr % 16 == 0),
      need (!mx || (if d.axis = 0 then d.cols else d.rows) % 32 == 0),
      checkParams core d.param p mx,
      checkConv p d.df,
      checkOp s core fn d.src [0, 1] (ConvertD.srcRuns d),
      checkOp s core fn d.dst [0, 1, 3] (ConvertD.outSteps d).flatten,
      need (runsOk d.dst (ConvertD.outSteps d)),
      (if d.sf.mx then checkOp s core fn p.asc [0] [(0, d.rows * d.cols / 32)] else 0),
      (if d.df.mx then checkOp s core fn p.osc [0, 1, 3] [(0, d.rows * d.cols / 32)] else 0),
      need (!d.df.mx || runsOk p.osc (ConvertD.scaleSteps d)),
      checkOver s core p.named]

/-- The runs that a CONVERT reads. -/
def ConvertD.readRuns (s : State) (core : Nat) (d : ConvertD) (p : Params) : Runs :=
  (opRuns s core d.src (ConvertD.srcRuns d)).and
    (if d.sf.mx then opRun s core p.asc 0 (d.rows * d.cols / 32) else ([], []))

/-- Element (r, c) of a CONVERT's source: its value after the source's block scale and per-tensor scale (R96, R104,
R115), with FLUSHED where FTZ reads it as zero. -/
def convertSrc (s : State) (core : Nat) (d : ConvertD) (p : Params) (r c : Nat) : Num × FpFlags :=
  let run := leNat (getOp s core d.src (d.sstr * r) (elemBytes d.sf d.cols))
  let v := readIn d.sf p.ftz (unpackElem (widthOf d.sf.f) run c)
  let ga := Num.fin (bit p.ga 31) (scaleSig p.ga).natAbs (scaleExp p.ga - 23)
  if d.sf.mx then
    let sc := byteAt (getOp s core p.asc (ConvertD.scaleAt d r c) 1) 0
    if sc = 0xFF then (.nan, v.2) else ((Num.mul (Num.shift v.1 ((sc : Int) - 127)) ga).1, v.2)
  else ((Num.mul v.1 ga).1, v.2)

/-- The lines of a tile along the axis of the blocks: rows for AXIS 0, columns for AXIS 1 (R158). An element lies where R158
places it, row by row, also with AXIS 1, where R103 alone would place the elements of a block side by side (log 22). -/
def ConvertD.lines (d : ConvertD) : List (List (Nat × Nat)) :=
  if d.df.mx && d.axis == 1 then (List.range d.cols).map fun c => (List.range d.rows).map fun r => (r, c)
  else (List.range d.rows).map fun r => (List.range d.cols).map fun c => (r, c)

/-- What CONVERT does (R95, R158): the tile is read and converted line by line (log 25), written row by row with its scales,
then ends. It has no tile boundary inside. -/
def runConvert (s : State) (core fn : Nat) (org : Origin) (d : ConvertD) (p : Params) : OpRes :=
  let m := meetRuns s 0 (ConvertD.readRuns s core d p)
  if m.2 then ⟨m.1, true, none⟩
  else
    let res := (ConvertD.lines d).foldl (fun (a : List Nat × List Nat × TileAcc) ln =>
        let vs := ln.map fun rc => convertSrc m.1 core d p rc.1 rc.2
        let t := vs.foldl (fun (t : TileAcc) v => { t with flags := t.flags.or v.2 }) a.2.2
        let r := cvtRun (Params.cvt p d.df) t (vs.map (·.1))
        (a.1 ++ r.1, a.2.1 ++ r.2.1, r.2.2)) ([], [], TileAcc.empty)
    let code : Nat → Nat → Nat := fun r c =>
      res.1.getD (if d.df.mx && d.axis == 1 then c * d.rows + r else r * d.cols + c) 0
    let step : State × Bool → Nat → State × Bool := fun acc r =>
      let codes := (List.range d.cols).map (code r)
      let w := putOp acc.1 core fn org d.rm d.dst [(d.dstr * r, packInto acc.1 core d.dst (d.dstr * r) (widthOf d.df.f) codes)]
      let w2 := putOp w.1 core fn org d.rm p.osc ((ConvertD.scaleRow d r).map fun e =>
        (e.1, ((res.2.1.drop e.1).take e.2).map (BitVec.ofNat 8)))
      (w2.1, acc.2 || w.2 || w2.2)
    let a := (List.range d.rows).foldl step (m.1, false)
    let s1 := noteStep a.1 core fn EmitAcc.empty ⟨res.2.2, FpFlags.none⟩
    if a.2 then ⟨s1, true, none⟩
    else
      let e := endTile s1 core p d.df res.2.2
      ⟨e.1, e.2, none⟩

/-! ### REDUCE (R160, R161) -/

/-- A REDUCE descriptor (Table CORE-10). -/
structure ReduceD where
  rop : Nat
  ifmt : Nat
  ofc : Nat
  src : Nat
  dst : Nat
  cnt : Nat
  nout : Nat
  istr : Nat
  param : Nat
  rm : Remote
deriving DecidableEq, Repr

/-- The fields of a REDUCE. -/
def reduceD (b : List Byte) : ReduceD :=
  { rop := byteAt b 4, ifmt := byteAt b 5, ofc := byteAt b 6, src := leAt b 8 8, dst := leAt b 16 8, cnt := leAt b 24 4,
    nout := leAt b 28 4, istr := leAt b 32 4, param := leAt b 36 4, rm := ⟨leAt b 40 2, leAt b 42 2⟩ }

/-- The bits of one input: 384 for an image, 128 for a partial word, the element size for MAX and MIN (R160). -/
def ReduceD.inBits (d : ReduceD) : Nat :=
  if d.rop = 0 then 384 else if d.rop = 1 then 128
  else match fmtOf d.ifmt with
    | some e => widthOf e.f
    | none => 8
/-- The bits of one output (R160). -/
def ReduceD.outBits (d : ReduceD) : Nat :=
  match ofmtOf d.ofc with
  | some (.elems e) => widthOf e.f
  | some .words => 128
  | some .images => 384
  | none => 8
/-- Input j of output o: its bit offset in SRC (R160). -/
def ReduceD.inAt (d : ReduceD) (o j : Nat) : Nat := o * ReduceD.inBits d + 8 * j * d.istr
/-- The byte run that holds input j of output o. -/
def ReduceD.inRun (d : ReduceD) (o j : Nat) : Nat × Nat :=
  let a := ReduceD.inAt d o j
  (a / 8, ceilDiv (a + ReduceD.inBits d) 8 - a / 8)
/-- Every input run. -/
def ReduceD.inRuns (d : ReduceD) : List (Nat × Nat) :=
  (List.range d.cnt).map fun j =>
    let a := 8 * j * d.istr
    (a / 8, ceilDiv (a + d.nout * ReduceD.inBits d) 8 - a / 8)

/-- The checks of a REDUCE at issue (R79, R81, R100, R137, R150, R160, R378). -/
def checkReduce (s : State) (core fn : Nat) (b : List Byte) : Nat :=
  let d := reduceD b
  let p := readParams s core d.param
  let of := ofmtOf d.ofc
  firstBad [
    need (zeroAt b 7 1 && zeroAt b 44 20),
    need (decide (d.rop ≤ 3) && decide (1 ≤ d.cnt) && decide (d.cnt ≤ 65535) && decide (1 ≤ d.nout)),
    (if d.rop < 2 then need (d.ifmt == 0 && of.isSome && of != some .words)
     else need (d.ifmt == d.ofc && decide (d.ifmt ≤ 0x0A))),
    checkParams core d.param p (match of with | some o => OFmt.mx o | none => false),
    (match of with
      | some (.elems e) =>
        if d.rop < 2 ∧ isFused p e then firstBad [checkFused p e, need (!e.mx || d.nout % 32 == 0)] else 0
      | some .words => 0
      | some .images => 0
      | none => 4),
    checkOp s core fn d.src [0, 1] (ReduceD.inRuns d),
    checkOp s core fn d.dst [0, 1, 3] [(0, ceilDiv (d.nout * ReduceD.outBits d) 8)],
    need (space d.dst != 3 || (ReduceD.outBits d % 128 == 0 && d.dst % 16 == 0)),
    (match of with
      | some (.elems e) => if e.mx then checkOp s core fn p.osc [0, 1] [(0, d.nout / 32)] else 0
      | some .words => 0
      | some .images => 0
      | none => 0),
    checkOver s core p.named]

/-- The runs of the inputs of one output. -/
def ReduceD.readRuns (s : State) (core : Nat) (d : ReduceD) (o : Nat) : Runs :=
  opRuns s core d.src ((List.range d.cnt).map (ReduceD.inRun d o))

/-- The sum of an output's inputs (R161): from an empty image, la_combine of images or la_enter of partial words. -/
def reduceImage (s : State) (core : Nat) (d : ReduceD) (o : Nat) : Image × FpFlags :=
  (List.range d.cnt).foldl (fun acc j =>
    let r := ReduceD.inRun d o j
    let bs := getOp s core d.src r.1 r.2
    let e := if d.rop = 0 then laCombine acc.1 (Image.ofBytes bs) else laEnter acc.1 (PartialWord.ofBytes bs)
    (e.1, acc.2.or e.2)) (Image.empty, FpFlags.none)

/-- The maximum or minimum of an output's inputs, in ascending j (R86, R161). -/
def reducePick (s : State) (core : Nat) (d : ReduceD) (e : EFmt) (ftz : Bool) (o : Nat) : Nat × FpFlags :=
  let code := fun j =>
    let r := ReduceD.inRun d o j
    (leNat (getOp s core d.src r.1 r.2) >>> (ReduceD.inAt d o j % 8)) % 2 ^ widthOf e.f
  (upto 1 (d.cnt - 1)).foldl (fun acc j =>
    let r := pickCode (d.rop == 2) e.f ftz acc.1 (code j)
    (r.1, acc.2.or r.2)) (pickCode (d.rop == 2) e.f ftz (code 0) (code 0))

/-- An element written at its place in an output of packed elements; bits that share its bytes keep what the store holds. -/
def putElem (s : State) (core fn : Nat) (org : Origin) (rm : Remote) (w wd o code : Nat) : State × Bool :=
  let lo := wd * o / 8
  let n := ceilDiv (wd * o + wd) 8 - lo
  let old := if wd % 8 = 0 then 0 else leNat (getOp s core w lo n)
  let sh := wd * o % 8
  let v := old % 2 ^ sh + code % 2 ^ wd * 2 ^ sh + old / 2 ^ (sh + wd) * 2 ^ (sh + wd)
  putOp s core fn org rm w [(lo, leBytes n v)]

/-- What a REDUCE carries from output to output: the state, the emission's counts, the values of the MX block in hand, and
whether an uncorrectable error was met. -/
structure ReduceAcc where
  s : State
  ea : EmitAcc
  vals : List Num
  ue : Bool
deriving DecidableEq, Repr

/-- One output of a sum (R79, R98, R160, R161): an image, or an element; those of an MX block are written with its last. -/
def reduceSumStep (core fn : Nat) (org : Origin) (d : ReduceD) (p : Params) (a : ReduceAcc) (o : Nat) : ReduceAcc :=
  let im := reduceImage a.s core d o
  match ofmtOf d.ofc with
  | some .images =>
    let w := putOp a.s core fn org d.rm d.dst [(o * 48, Image.bytes im.1)]
    { a with s := w.1, ea := { a.ea with fl := a.ea.fl.or im.2 }, ue := w.2 }
  | some (.elems e) =>
    let v := laValue im.1 (scaleSig p.gw) (scaleSig p.ga)
    let ea := { a.ea with fl := (a.ea.fl.or im.2).or v.2 }
    if e.mx then
      let vals := a.vals ++ [v.1]
      if o % 32 ≠ 31 then { a with ea := ea, vals := vals }
      else
        let em := emitRow p e vals ea
        let w := putOp a.s core fn org d.rm d.dst [(elemBytes e (o - 31), packElems (widthOf e.f) em.1)]
        let w2 := putOp w.1 core fn org d.rm p.osc [(o / 32, em.2.1.map (BitVec.ofNat 8))]
        { a with s := w2.1, ea := em.2.2, vals := [], ue := w.2 || w2.2 }
    else
      let em := emitRow p e [v.1] ea
      let w := putElem a.s core fn org d.rm d.dst (widthOf e.f) o (em.1.headD 0)
      { a with s := w.1, ea := em.2.2, ue := w.2 }
  | some .words => a
  | none => a

/-- One output of MAX or MIN (R86, R161). -/
def reducePickStep (core fn : Nat) (org : Origin) (d : ReduceD) (p : Params) (a : ReduceAcc) (o : Nat) : ReduceAcc :=
  match fmtOf d.ifmt with
  | none => a
  | some e =>
    let r := reducePick a.s core d e p.ftz o
    let w := putElem a.s core fn org d.rm d.dst (widthOf e.f) o r.1
    { a with s := w.1, ea := { a.ea with fl := a.ea.fl.or r.2 }, ue := w.2 }

/-- One output of a REDUCE, at whose end stands a tile boundary (R161). -/
def reduceStep (core fn : Nat) (org : Origin) (d : ReduceD) (p : Params) (a : ReduceAcc) (o : Nat) : ReduceAcc :=
  let m := meetRuns a.s 0 (ReduceD.readRuns a.s core d o)
  if m.2 then { a with s := m.1, ue := true }
  else
    let a := { a with s := m.1 }
    let b := if d.rop < 2 then reduceSumStep core fn org d p a o else reducePickStep core fn org d p a o
    { b with s := noteStep b.s core fn a.ea b.ea }

/-- Where a REDUCE goes on. -/
def reduceFrom (s : State) (part : Option Part) : Nat × ReduceAcc :=
  match part with
  | some (.reduce o ea vals) => (o, ⟨s, ea, vals, false⟩)
  | some (.matmul _ _ _ _) => (0, ⟨s, EmitAcc.empty, [], false⟩)
  | some (.sparse _ _ _ _) => (0, ⟨s, EmitAcc.empty, [], false⟩)
  | some (.copy _) => (0, ⟨s, EmitAcc.empty, [], false⟩)
  | none => (0, ⟨s, EmitAcc.empty, [], false⟩)

/-- What REDUCE does (R160, R161): its outputs in order, then the tile's end; or the next output alone. -/
def runReduce (s : State) (core fn : Nat) (org : Origin) (d : ReduceD) (p : Params) (one : Bool) (part : Option Part) : OpRes :=
  let a := reduceFrom s part
  let r := stepsFrom (reduceStep core fn org d p) (fun a => a.ue) one (d.nout - a.1) a.1 a.2
  if r.1.ue then ⟨r.1.s, true, none⟩
  else if r.2 < d.nout then ⟨r.1.s, false, some (.reduce r.2 r.1.ea r.1.vals)⟩
  else endFused r.1.s core p (if d.rop < 2 then (ofmtOf d.ofc).bind OFmt.elem else none) r.1.ea.t false

end Sys2Proof.Machine
end

