-- ==== Sys2Proof/Machine/Sparse.lean ====
section
/-! DEFINITION. Sys2Proof/Machine/Sparse.lean: SPARSE (05_sparse.md): the compressed structure, the walk, the hash
accumulator with its spills, and the flushes. -/

namespace Sys2Proof.Machine

/-- A SPARSE descriptor (Table CORE-9) with its formats decoded. -/
structure SparseD where
  vf : EFmt
  df : EFmt
  of : OFmt
  seam : Nat
  trans : Bool
  acc : Bool
  rp : Nat
  ci : Nat
  val : Nat
  d : Nat
  c : Nat
  row0 : Nat
  nrow : Nat
  n : Nat
  param : Nat
  rm : Remote
deriving DecidableEq, Repr

/-- The fields of a SPARSE under a default SEAM, where its format codes are listed. -/
def sparseD (dflt : Nat) (b : List Byte) : Option SparseD :=
  match fmtOf (byteAt b 4), fmtOf (byteAt b 5), ofmtOf (byteAt b 6) with
  | some vf, some df, some o => some {
      vf := vf, df := df, of := o, seam := seamOf dflt (byteAt b 7 % 32), trans := bit (byteAt b 7) 5,
      acc := bit (byteAt b 7) 6, rp := leAt b 8 8, ci := leAt b 16 8, val := leAt b 24 8, d := leAt b 32 8,
      c := leAt b 40 8, row0 := leAt b 48 4, nrow := leAt b 52 2, n := leAt b 54 2, param := leAt b 56 4,
      rm := ⟨leAt b 60 2, leAt b 62 2⟩ }
  | _, _, _ => none

/-- A structure's header (Table SPA-1). -/
structure SparseH where
  nr : Nat
  kc : Nat
  rb : Nat
  kb : Nat
  nnz : Nat
  maxnz : Nat
  iw : Nat
  rsv : Bool
deriving DecidableEq, Repr

/-- The header at RP (R192). -/
def sparseH (s : State) (core : Nat) (d : SparseD) : SparseH :=
  let b := getOp s core d.rp 0 32
  { nr := leAt b 0 4, kc := leAt b 4 4, rb := leAt b 8 4, kb := leAt b 12 4, nnz := leAt b 16 4, maxnz := leAt b 20 2,
    iw := byteAt b 22, rsv := !zeroAt b 23 9 }

/-- The output rows (R198). -/
def SparseD.rows (d : SparseD) (h : SparseH) : Nat := if d.trans then h.kc else d.nrow
/-- The first reduction index and their number (R197, R198). -/
def SparseD.range (d : SparseD) (h : SparseH) : Nat × Nat :=
  if d.trans then (h.rb + d.row0, d.nrow) else (h.kb, h.kc)
/-- The first seam that the reduction range meets and how many it meets (R200). -/
def SparseD.seams (d : SparseD) (h : SparseH) : Nat × Nat :=
  let r := SparseD.range d h
  (r.1 / 2 ^ d.seam, (r.1 + r.2 - 1) / 2 ^ d.seam + 1 - r.1 / 2 ^ d.seam)
/-- The D rows that the structure may name. -/
def SparseD.dRows (d : SparseD) (h : SparseH) : Nat := if d.trans then d.nrow else h.kc
/-- The bytes of one D row. -/
def SparseD.dRow (d : SparseD) : Nat := elemBytes d.df d.n
/-- The bits of one output element. -/
def SparseD.outBits (d : SparseD) : Nat :=
  match d.of with
  | .elems e => widthOf e.f
  | .words => 128
  | .images => 384

/-- The extents written to C at each step: a row's outputs; with partial words, a row's words of one seam, or a seam's
words of every row in the transposed direction (R154, R202, R208; 10 R378). -/
def SparseD.outSteps (d : SparseD) (h : SparseH) : List (List (Nat × Nat)) :=
  let m := SparseD.rows d h
  match d.of with
  | .words =>
    if d.trans then (List.range (SparseD.seams d h).2).map fun si => [(si * m * d.n * 16, m * d.n * 16)]
    else (List.range m).flatMap fun r => (List.range (SparseD.seams d h).2).map fun si => [((si * m + r) * d.n * 16, d.n * 16)]
  | .images => (List.range m).map fun r => [(r * d.n * 48, d.n * 48)]
  | .elems e => (List.range m).map fun r => [(r * elemBytes e d.n, elemBytes e d.n)]

/-- The scales written at each step: a row's. -/
def SparseD.scaleSteps (d : SparseD) (h : SparseH) : List (List (Nat × Nat)) :=
  if OFmt.mx d.of then (List.range (SparseD.rows d h)).map fun r => [(r * (d.n / 32), d.n / 32)] else []

/-- The checks of a SPARSE at issue (Table SPA-2, R195, R198, R201, R203, R216, R150). ACC = 1 is accepted with every OFMT and
starts the images at C of OFMT 0xFF alone, since no other has an image to start from (R159, log 21). Where nothing is
converted, CLOSE, SLOT and REC have no effect and CLOSE is not checked (R100, log 91). -/
def checkSparse (s : State) (core fn : Nat) (b : List Byte) : Nat :=
  match sparseD (seamDefault s core) b with
  | none => 4
  | some d =>
    let h := sparseH s core d
    let p := readParams s core d.param
    let rg := SparseD.range d h
    let atSeam := fun k => k % 2 ^ d.seam == 0
    firstBad [
      need (byteAt b 7 / 128 == 0),
      need (pairOk d.vf d.df),
      need (decide (8 ≤ d.seam) && decide (d.seam ≤ 16)),
      need (decide (1 ≤ d.nrow) && decide (8 ≤ d.n) && d.n % 8 == 0),
      checkOp s core fn d.rp [0, 1] [(0, 32)],
      need (decide (1 ≤ h.nr) && decide (h.nr ≤ 2 ^ 24) && decide (1 ≤ h.kc) && decide (h.kc ≤ 2 ^ 31) &&
        decide (h.maxnz ≤ 4096) && decide (h.iw ≤ 1) && (h.iw == 1 || decide (h.kc ≤ 65536)) && !h.rsv),
      need (decide (d.row0 + d.nrow ≤ h.nr)),
      need (!d.df.mx || d.n % 32 == 0),
      need (d.n * SparseD.outBits d % 128 == 0),
      need (!OFmt.mx d.of || d.n % 32 == 0),
      (match d.of with
        | .elems e => need ((isDst e || pairRow d.vf == 1) && !d.trans && (SparseD.seams d h).2 == 1)
        | .words => 0
        | .images => 0),
      (if d.trans then need (atSeam rg.1 && (atSeam (rg.1 + d.nrow) || h.rb + d.row0 + d.nrow == h.rb + h.nr))
       else need (plainNarrow d.vf d.df || atSeam h.kb)),
      checkParams core d.param p (d.vf.mx || d.df.mx || OFmt.mx d.of),
      (match d.of with
        | .elems e => if isFused p e then checkFused p e else 0
        | .words => 0
        | .images => 0),
      checkOp s core fn d.rp [0, 1] [(0, 32 + 4 * (h.nr + 1))],
      checkOp s core fn d.ci [0, 1] [(0, h.nnz * (if h.iw = 0 then 2 else 4))],
      checkOp s core fn d.val [0, 1] [(0, elemBytes d.vf h.nnz)],
      checkFace core d.d [(0, SparseD.dRows d h * SparseD.dRow d)],
      (if d.of = .images then checkFace core d.c (SparseD.outSteps d h).flatten
       else checkOp s core fn d.c [0, 1, 3] (SparseD.outSteps d h).flatten),
      need (runsOk d.c (SparseD.outSteps d h)),
      (if d.vf.mx then checkOp s core fn p.wsc [0] [(0, ceilDiv h.nnz 32)] else 0),
      (if d.df.mx then checkOp s core fn p.asc [0] [(0, SparseD.dRows d h * d.n / 32)] else 0),
      (if OFmt.mx d.of then checkOp s core fn p.osc [0, 1, 3] [(0, SparseD.rows d h * d.n / 32)] else 0),
      need (!OFmt.mx d.of || runsOk p.osc (SparseD.scaleSteps d h)),
      checkOver s core (p.named || byteAt b 7 % 32 != 0)]

/-- The set of a tag (R207). -/
def octetSet (r g : Nat) : Nat := (r ^^^ (r / 32) ^^^ (g * 9)) % 32

/-- Why a SPARSE stops part-way: a content failure or a full spill area (R204, R211), or an uncorrectable error (04 R135). -/
inductive SparseStop where
  | content
  | full
  | error
deriving DecidableEq, Repr

/-- What a SPARSE carries along its walk: the state; the octets, least recently used first; the spilled records with their
slots; the partial words flushed and not yet written, by (seam, row, column); the emission's counts; why it stopped. -/
structure SparseAcc where
  s : State
  octs : List Octet
  recs : List (Nat × Octet)
  words : List (Nat × PartialWord)
  ea : EmitAcc
  stop : Option SparseStop
deriving DecidableEq, Repr

/-- A write met a line in error, or did not: the walk stops with the error, or goes on. -/
def SparseAcc.wrote (a : SparseAcc) (w : State × Bool) : SparseAcc :=
  { a with s := w.1, stop := if w.2 then some .error else a.stop }

/-- Reads meet their errors. -/
def SparseAcc.meet (a : SparseAcc) (rs : Runs) : SparseAcc := SparseAcc.wrote a (meetRuns a.s 0 rs)

/-- What stays fixed along the walk; `det` is `GLB_MODE.DET` at issue (13 R503). -/
structure SparseCtx where
  core : Nat
  fn : Nat
  org : Origin
  d : SparseD
  h : SparseH
  p : Params
  det : Bool

/-- The records that the spill area holds (R211). -/
def spillRoom (s : State) (core : Nat) : Nat := getF s (R.cpxSpill (coreDie core)) 22 16 * 4096 / 144

/-- The records that other cores of a cluster hold for a function in SPARSEs that stand at a tile boundary (R211, R215). -/
def spillsHeld (s : State) (core fn : Nat) : List Nat :=
  s.comp.seqs.flatMap fun e =>
    if e.1 / 64 = core / 64 ∧ e.1 ≠ core then
      match (seqOf s e.1 fn).run.bind fun r => r.part with
      | some (.sparse _ _ recs _) => recs.map (·.1)
      | some (.matmul _ _ _ _) => []
      | some (.reduce _ _ _) => []
      | some (.copy _) => []
      | none => []
    else []

/-- The lowest free record of the spill area. -/
def freeRecord (x : SparseCtx) (a : SparseAcc) : Option Nat :=
  (List.range (spillRoom a.s x.core)).find? fun i =>
    !(a.recs.any fun e => e.1 == i) && !memNat i (spillsHeld a.s x.core x.fn)

/-- The raw spill of an octet into a record: 144 bytes, whose layout the spec leaves open, so free values (R209, log 23). -/
def rawSpill (x : SparseCtx) (a : SparseAcc) (i : Nat) (o : Octet) : SparseAcc :=
  let base := 0x400000 + 4096 * getF a.s (R.cpxSpill (coreDie x.core)) 5 0
  let f := freshBytes a.s 144
  SparseAcc.wrote { a with recs := a.recs ++ [(i, o)] } (putLocal f.2 x.core (base + 144 * i) f.1)

/-- The partial words that an octet emits (R67, R75). -/
def octetWords (x : SparseCtx) (o : Octet) : List PartialWord :=
  o.ents.map fun e => emitEntry (plainNarrow x.d.vf x.d.df) e (scaleExp x.p.gw + scaleExp x.p.ga)

/-- An octet's partial words entered by la_enter into the images at C (R208, R210). -/
def enterImages (x : SparseCtx) (a : SparseAcc) (o : Octet) : SparseAcc :=
  ((List.range 8).zip (octetWords x o)).foldl (fun a w =>
    let off := x.d.c % 2 ^ 32 + (o.r * x.d.n + 8 * o.g + w.1) * 48
    let e := laEnter (Image.ofBytes (getLocal a.s x.core off 48)) w.2
    let pr := putLocal a.s x.core off (Image.bytes e.1)
    SparseAcc.wrote { a with ea := { a.ea with fl := a.ea.fl.or e.2 } } pr) (SparseAcc.meet a (localRun x.core
      (x.d.c % 2 ^ 32 + (o.r * x.d.n + 8 * o.g) * 48) 384, []))

/-- The least recently used octet of a full set leaves: by a partial spill where R210 allows it, else by a raw spill
(R209 to R211, R214); `CPX_SPCNT` counts it. -/
def spillOctet (x : SparseCtx) (a : SparseAcc) (o : Octet) : SparseAcc :=
  let narrow := plainNarrow x.d.vf x.d.df
  let a := { a with octs := a.octs.filter (fun q => !(q.r == o.r && q.g == o.g)) }
  let count : SparseAcc → SparseAcc := fun a => { a with s := bump a.s (R.cpxSpcnt (coreDie x.core)) 1 }
  if x.d.of = .images ∧ (narrow ∨ !x.det) then
    enterImages x (count (if narrow then a else { a with s := raise a.s R.glbStatus 0 })) o
  else
    match freeRecord x a with
    | none => { a with stop := some .full, s := raise a.s (R.cpxSpstat (coreDie x.core)) 1 }
    | some i => rawSpill x (count a) i o

/-- The octet of a tag, brought in: found, reloaded from its record, or fresh (R207, R209); it becomes the most recently
used. -/
def takeOctet (x : SparseCtx) (a : SparseAcc) (r g : Nat) : SparseAcc × Octet :=
  match takeFirst (fun (o : Octet) => o.r == r && o.g == g) a.octs with
  | some (o, rest) => ({ a with octs := rest }, o)
  | none =>
    let mine := a.octs.filter fun o => octetSet o.r o.g == octetSet r g
    let a := if mine.length < 4 then a else match mine.head? with
      | some o => spillOctet x a o
      | none => a
    match takeFirst (fun (e : Nat × Octet) => e.2.r == r && e.2.g == g) a.recs with
    | some (e, rest) =>
      let base := 0x400000 + 4096 * getF a.s (R.cpxSpill (coreDie x.core)) 5 0
      (SparseAcc.meet { a with recs := rest } (localRun x.core (base + 144 * e.1) 144, []), e.2)
    | none => (a, ⟨r, g, List.replicate 8
        (BankEntry.start (if plainNarrow x.d.vf x.d.df then quantumLog x.d.vf.f + quantumLog x.d.df.f else 0))⟩)

/-- An operand element with its block scale applied (R199): a scale of 0xFF makes a NaN. -/
def scaledElem (e : EFmt) (v : Num) (sc : Nat) : Num :=
  if e.mx then (if sc = 0xFF then .nan else Num.shift v ((sc : Int) - 127)) else v

/-- The products of one non-zero with one column group of D row t enter their octet (R199, R206). -/
def sparseGroup (x : SparseCtx) (v : Num) (r t : Nat) (a : SparseAcc) (g : Nat) : SparseAcc :=
  if a.stop.isSome then a
  else
    let q := takeOctet x a r g
    if q.1.stop.isSome then q.1
    else
      let run := leNat (getOp q.1.s x.core x.d.d (t * SparseD.dRow x.d) (SparseD.dRow x.d))
      let prods := (List.range 8).map fun j =>
        let c := 8 * g + j
        let e := readIn x.d.df x.p.ftz (unpackElem (widthOf x.d.df.f) run c)
        let sc := if x.d.df.mx then byteAt (getOp q.1.s x.core x.p.asc (t * (x.d.n / 32) + c / 32) 1) 0 else 127
        let en := enterProduct (plainNarrow x.d.vf x.d.df) (pairRow x.d.vf == 1)
          (q.2.ents.getD j (BankEntry.start 0)) v (scaledElem x.d.df e.1 sc)
        (en.1, en.2.or e.2)
      let fl := prods.foldl (fun f e => f.or e.2) q.1.ea.fl
      { q.1 with octs := q.1.octs ++ [{ q.2 with ents := prods.map (·.1) }], ea := { q.1.ea with fl := fl } }

/-- The flush of some octets and every spilled record, in ascending (r, g) (R208): partial words are kept for the step's
write or entered into images. `si` is the seam, counted from the first of the range. -/
def flushOctets (x : SparseCtx) (si : Nat) (a : SparseAcc) : SparseAcc :=
  let all := sortBy (fun o q => decide (o.r < q.r) || (o.r == q.r && decide (o.g ≤ q.g))) (a.octs ++ a.recs.map (·.2))
  let m := SparseD.rows x.d x.h
  let a := { a with octs := [], recs := [] }
  all.foldl (fun a o =>
    match x.d.of with
    | .images => enterImages x a o
    | .words => { a with words := ((List.range 8).zip (octetWords x o)).foldl (fun ws w =>
          SMap.put ws ((si * m + o.r) * x.d.n + 8 * o.g + w.1) w.2) a.words }
    | .elems _ => { a with words := ((List.range 8).zip (octetWords x o)).foldl (fun ws w =>
          SMap.put ws (o.r * x.d.n + 8 * o.g + w.1) w.2) a.words }) a

/-- The 16 bytes of a word's place: 16 zero bytes where no product entered (R202). -/
def wordBytes (ws : List (Nat × PartialWord)) (k : Nat) : List Byte :=
  match SMap.find ws k with
  | some w => PartialWord.bytes w
  | none => zeros 16

/-- The partial words of a forward row over seams si to si + n - 1 are written, each seam's by a step of its own (R202, R208;
10 R378). -/
def writeSeams (x : SparseCtx) (r si n : Nat) (a : SparseAcc) : SparseAcc :=
  if x.d.of != .words then a
  else
    let m := SparseD.rows x.d x.h
    (upto si n).foldl (fun a i =>
      if a.stop.isSome then a
      else SparseAcc.wrote a (putOp a.s x.core x.fn x.org x.d.rm x.d.c [((i * m + r) * x.d.n * 16,
        (List.range x.d.n).flatMap fun c => wordBytes a.words ((i * m + r) * x.d.n + c))])) a

/-- The end of a forward row: its emitted elements are written (R155, R208). -/
def endRow (x : SparseCtx) (r : Nat) (a : SparseAcc) : SparseAcc :=
  match x.d.of with
  | .images => a
  | .words => { a with words := [] }
  | .elems e =>
    let ims := (List.range x.d.n).map fun c =>
      match SMap.find a.words (r * x.d.n + c) with
      | some w => laEnter Image.empty w
      | none => (Image.empty, FpFlags.none)
    let vals := ims.map fun i => laValue i.1 (scaleSig x.p.gw) (scaleSig x.p.ga)
    let fl := (ims.map (·.2) ++ vals.map (·.2)).foldl FpFlags.or a.ea.fl
    let em := emitRow x.p e (vals.map (·.1)) { a.ea with fl := fl }
    let o := r * elemBytes e x.d.n
    let w := putOp a.s x.core x.fn x.org x.d.rm x.d.c [(o, packInto a.s x.core x.d.c o (widthOf e.f) em.1)]
    let w2 := if e.mx then putOp w.1 x.core x.fn x.org x.d.rm x.p.osc [(r * (x.d.n / 32), em.2.1.map (BitVec.ofNat 8))]
      else (w.1, false)
    SparseAcc.wrote { a with words := [], ea := em.2.2 } (w2.1, w.2 || w2.2)

/-- The end of a transposed seam: every partial word of the seam is written (R202). -/
def endSeam (x : SparseCtx) (si : Nat) (a : SparseAcc) : SparseAcc :=
  let m := SparseD.rows x.d x.h
  match x.d.of with
  | .images => a
  | .elems _ => a
  | .words =>
    let bs := (List.range (m * x.d.n)).flatMap fun k => wordBytes a.words (si * m * x.d.n + k)
    let w := putOp a.s x.core x.fn x.org x.d.rm x.d.c [(si * m * x.d.n * 16, bs)]
    SparseAcc.wrote { a with words := [] } w

/-- Row pointer i (R192). -/
def rowPtr (x : SparseCtx) (s : State) (i : Nat) : Nat := leNat (getOp s x.core x.d.rp (32 + 4 * i) 4)
/-- The column index at a position (R192). -/
def colIdx (x : SparseCtx) (s : State) (k : Nat) : Nat :=
  if x.h.iw = 0 then leNat (getOp s x.core x.d.ci (2 * k) 2) else leNat (getOp s x.core x.d.ci (4 * k) 4)
/-- The value at a position, with its block scale (R194). -/
def sparseVal (x : SparseCtx) (s : State) (k : Nat) : Num × FpFlags :=
  let wd := widthOf x.d.vf.f
  let lo := wd * k / 8
  let run := leNat (getOp s x.core x.d.val lo (ceilDiv (wd * k + wd) 8 - lo))
  let e := readIn x.d.vf x.p.ftz ((run >>> (wd * k % 8)) % 2 ^ wd)
  let sc := if x.d.vf.mx then byteAt (getOp s x.core x.p.wsc (k / 32) 1) 0 else 127
  (scaledElem x.d.vf e.1 sc, e.2)

/-- A content failure (R204). -/
def failContent (x : SparseCtx) (a : SparseAcc) : SparseAcc :=
  { a with stop := some .content, s := raise a.s (R.cpxSpstat (coreDie x.core)) 0 }

/-- What reading the non-zero at a position touches: its index; and its value, its block scale, its D row t and that row's
scales (R192, R194, R195, R205). -/
def idxRuns (x : SparseCtx) (s : State) (k : Nat) : Runs :=
  let iw := if x.h.iw = 0 then 2 else 4
  opRun s x.core x.d.ci (iw * k) iw
/-- The runs of a non-zero's value and of its D row. -/
def valRuns (x : SparseCtx) (s : State) (k t : Nat) : Runs :=
  let wd := widthOf x.d.vf.f
  let lo := wd * k / 8
  let v := opRun s x.core x.d.val lo (ceilDiv (wd * k + wd) 8 - lo)
  let d := opRun s x.core x.d.d (t * SparseD.dRow x.d) (SparseD.dRow x.d)
  let w := if x.d.vf.mx then opRun s x.core x.p.wsc (k / 32) 1 else ([], [])
  let a := if x.d.df.mx then opRun s x.core x.p.asc (t * (x.d.n / 32)) (x.d.n / 32) else ([], [])
  (v.and d).and (w.and a)

/-- One stored row's non-zeros, in ascending column (Table SPA-3): each index is checked as it is read (R193); a forward
row flushes where its reduction index crosses a seam, and its words of the seams passed are written. `prev` is the last index
read, `cur` the seam of a forward row in hand, counted from the first of the range. -/
def walkRow (x : SparseCtx) (i : Nat) : List Nat → Option Nat → Nat → SparseAcc → SparseAcc × Nat
  | [], _, cur, a => (a, cur)
  | k :: ks, prev, cur, a =>
    let a := SparseAcc.meet a (idxRuns x a.s k)
    if a.stop.isSome then (a, cur)
    else
      let j := colIdx x a.s k
      let rising := match prev with
        | some q => decide (q < j)
        | none => true
      if !rising ∨ x.h.kc ≤ j then (failContent x a, cur)
      else
        let sj := (x.h.kb + j) / 2 ^ x.d.seam - (SparseD.seams x.d x.h).1
        let nxt := if x.d.trans then cur else sj
        let a := if cur < nxt then writeSeams x (i - x.d.row0) cur (nxt - cur) (flushOctets x cur a) else a
        let r := if x.d.trans then j else i - x.d.row0
        let t := if x.d.trans then i - x.d.row0 else j
        let a := if a.stop.isSome then a else SparseAcc.meet a (valRuns x a.s k t)
        if a.stop.isSome then (a, nxt)
        else
          let v := sparseVal x a.s k
          let a := { a with ea := { a.ea with fl := a.ea.fl.or v.2 } }
          walkRow x i ks (some j) nxt ((List.range (x.d.n / 8)).foldl (sparseGroup x v.1 r t) a)

/-- Does a transposed row end the seam it lies in, or the walk? -/
def endsSeam (x : SparseCtx) (i : Nat) : Bool :=
  (x.h.rb + i + 1) % 2 ^ x.d.seam == 0 || i + 1 == x.d.row0 + x.d.nrow

/-- One stored row: its pointers are checked (R193), its non-zeros are walked, and what Table SPA-3 flushes at its end is
flushed. -/
def sparseRow (x : SparseCtx) (a : SparseAcc) (i : Nat) : SparseAcc :=
  let a := SparseAcc.meet a (opRun a.s x.core x.d.rp (32 + 4 * i) 8)
  if a.stop.isSome then a
  else
    let lo := rowPtr x a.s i
    let hi := rowPtr x a.s (i + 1)
    if hi < lo ∨ x.h.maxnz < hi - lo ∨ x.h.nnz < hi ∨ (i = 0 ∧ lo ≠ 0) ∨ (i + 1 = x.h.nr ∧ hi ≠ x.h.nnz) then
      failContent x a
    else
      let w := walkRow x i (upto lo (hi - lo)) none 0 a
      if w.1.stop.isSome then w.1
      else
        let sm := SparseD.seams x.d x.h
        if x.d.trans then
          if endsSeam x i then
            let si := (x.h.rb + i) / 2 ^ x.d.seam - sm.1
            endSeam x si (flushOctets x si w.1)
          else w.1
        else
          let a := writeSeams x (i - x.d.row0) w.2 (sm.2 - w.2) (flushOctets x w.2 w.1)
          if a.stop.isSome then a else endRow x (i - x.d.row0) a

/-- The images at C made empty, where ACC is 0 (R155, R156). -/
def clearImages (x : SparseCtx) (s : State) : State × Bool :=
  if x.d.of = .images ∧ !x.d.acc then
    putLocal s x.core (x.d.c % 2 ^ 32) (zeros (SparseD.rows x.d x.h * x.d.n * 48))
  else (s, false)

/-- One stored row as a step: what it counts and raises is noted as it ends, also where it stops (R92, R114, R124). -/
def sparseStep (x : SparseCtx) (a : SparseAcc) (j : Nat) : SparseAcc :=
  let b := sparseRow x a (x.d.row0 + j)
  { b with s := noteStep b.s x.core x.fn a.ea b.ea }

/-- Is the end of a stored row a tile boundary (R215)? A forward row's and a transposed seam's always; else a transposed row's
where the spill area can take every live octet. -/
def rowBoundary (x : SparseCtx) (a : SparseAcc) (j : Nat) : Bool :=
  !x.d.trans || endsSeam x (x.d.row0 + j) ||
    decide (a.octs.length + a.recs.length + (spillsHeld a.s x.core x.fn).length ≤ spillRoom a.s x.core)

/-- At a tile boundary of a transposed row the live octets are raw-spilled (R215). -/
def spillLive (x : SparseCtx) (a : SparseAcc) : SparseAcc :=
  a.octs.foldl (fun a o => if a.stop.isSome then a else
    spillOctet { x with d := { x.d with of := .words } } a o) a

/-- The stored rows from the j-th on, n of them; with `one`, up to the first tile boundary (R215). Answers the next row. -/
def sparseWalk (x : SparseCtx) (one : Bool) : Nat → Nat → SparseAcc → SparseAcc × Nat
  | 0, j, a => (a, j)
  | n + 1, j, a =>
    let b := sparseStep x a j
    if b.stop.isSome then (b, j + 1)
    else if one && rowBoundary x b j then (spillLive x b, j + 1)
    else sparseWalk x one n (j + 1) b

/-- The bytes of C and of its scales left undefined after a failure (R204): free values where they lie in a store. -/
def scrambleC (x : SparseCtx) (s : State) : State :=
  let one : Nat → State → Nat × Nat → State := fun w s e =>
    if space w = 3 then s
    else
      let f := freshBytes s e.2
      (putOp f.2 x.core x.fn x.org x.d.rm w [(e.1, f.1)]).1
  let s := (SparseD.outSteps x.d x.h).flatten.foldl (one x.d.c) s
  if OFmt.mx x.d.of then (SparseD.scaleSteps x.d x.h).flatten.foldl (one x.p.osc) s else s

/-- Where a SPARSE goes on: at a tile boundary, or at its start, where the images at C are made empty. -/
def sparseFrom (x : SparseCtx) (s : State) (part : Option Part) : Nat × SparseAcc :=
  let fresh : Nat × SparseAcc :=
    let c := clearImages x s
    (0, ⟨c.1, [], [], [], EmitAcc.empty, if c.2 then some .error else none⟩)
  match part with
  | some (.sparse j octs recs ea) => (j, ⟨s, octs, recs, [], ea, none⟩)
  | some (.matmul _ _ _ _) => fresh
  | some (.reduce _ _ _) => fresh
  | some (.copy _) => fresh
  | none => fresh

/-- What SPARSE does (R197 to R215), or its rows up to the next tile boundary; and why it stopped, where it did. After a content
failure or a full spill area C is undefined (R204). -/
def runSparse (s : State) (core fn : Nat) (org : Origin) (d : SparseD) (p : Params) (det one : Bool) (part : Option Part) :
    OpRes × Option SparseStop :=
  let x : SparseCtx := ⟨core, fn, org, d, sparseH s core d, p, det⟩
  let a := sparseFrom x s part
  let r := if a.2.stop.isSome then (a.2, 0) else sparseWalk x one (d.nrow - a.1) a.1 a.2
  match r.1.stop with
  | some .error => (⟨r.1.s, true, none⟩, some .error)
  | some .content => (⟨scrambleC x r.1.s, false, none⟩, some .content)
  | some .full => (⟨scrambleC x r.1.s, false, none⟩, some .full)
  | none =>
    if r.2 < d.nrow then (⟨r.1.s, false, some (.sparse r.2 r.1.octs r.1.recs r.1.ea)⟩, none)
    else (endFused r.1.s core p (OFmt.elem d.of) r.1.ea.t false, none)

end Sys2Proof.Machine
end

