-- ==== Sys2Proof/Machine/WorkList.lean ====
section
/-! DEFINITION. Sys2Proof/Machine/WorkList.lean: the core sequencer and the sharing of a cluster (04_cores_clusters.md
R139 to R186): issue with its checks and loops, the rows of the work-list operations, and the context switch. -/

namespace Sys2Proof.Machine

/-! ### Checks of the short descriptors -/

/-- A COPY descriptor (Table CORE-11). -/
structure CopyD where
  shift : Bool
  offload : Bool
  async : Bool
  src : Nat
  dst : Nat
  len : Nat
  rows : Nat
  sstr : Nat
  dstr : Nat
  rm : Remote
deriving DecidableEq, Repr

/-- The fields of a COPY. -/
def copyD (b : List Byte) : CopyD :=
  { shift := bit (byteAt b 4) 0, offload := bit (byteAt b 4) 1, async := bit (byteAt b 1) 1, src := leAt b 8 8,
    dst := leAt b 16 8, len := leAt b 24 4, rows := leAt b 28 4, sstr := leAt b 32 4, dstr := leAt b 36 4,
    rm := ⟨leAt b 40 2, leAt b 42 2⟩ }

/-- The rows of a COPY's source and destination (R162). -/
def CopyD.runs (d : CopyD) (str : Nat) : List (Nat × Nat) := (List.range d.rows).map fun r => (str * r, d.len)

/-- Does a COPY's destination, in the stores, meet the local range [lo, lo + n) of a cluster? -/
def CopyD.meets (core : Nat) (d : CopyD) (g lo n : Nat) : Bool :=
  decide (space d.dst < 2) && opClu core d.dst == g &&
    (CopyD.runs d d.dstr).any fun r => match localAt (opOwn core d.dst) (d.dst % 2 ^ 32 + r.1) r.2 with
      | some a => decide (a < lo + n) && decide (lo < a + r.2)
      | none => false

/-- The checks of a COPY at issue (R137, R150, R163, R173, R185, 10 R378). -/
def checkCopy (s : State) (core fn : Nat) (b : List Byte) : Nat :=
  let d := copyD b
  let store := fun w => decide (space w < 2)
  let g := opClu core d.dst
  firstBad [
    need (byteAt b 4 / 4 == 0 && zeroAt b 5 3 && zeroAt b 44 20),
    need (decide (16 ≤ d.len) && d.len % 16 == 0 && decide (1 ≤ d.rows) && d.sstr % 16 == 0 && d.dstr % 16 == 0),
    need (!(d.shift && d.offload)),
    need (!d.shift || (space d.src == 2 && store d.dst)),
    need (!d.offload || (d.async && ((space d.src == 2 && store d.dst) || (space d.dst == 2 && store d.src)))),
    checkOp s core fn d.src [0, 1, 2] (CopyD.runs d d.sstr),
    checkOp s core fn d.dst [0, 1, 2, 3] (CopyD.runs d d.dstr),
    need (runsOk d.dst ((CopyD.runs d d.dstr).map fun r => [r])),
    (if d.shift && ((s.comp.pillars.any fun e => e.1 / 8 == g && CopyD.meets core d g e.2.base e.2.len) ||
        (s.comp.keepg.any fun k => k.clu == g && k.fn == fn && CopyD.meets core d g k.base k.len)) then 3 else 0)]

/-- The checks of a WAIT at issue (R150, R166): fields of the other mode are not checked (log 24). -/
def checkWait (s : State) (core fn : Nat) (b : List Byte) : Nat :=
  firstBad [need (zeroAt b 5 1 && zeroAt b 24 40), need (decide (byteAt b 4 ≤ 1)),
    (if byteAt b 4 = 0 then checkTally s core fn (leAt b 6 2) else 0)]

/-- The six stride entries of a LOOP: TGT and STRIDE (Table CORE-13). -/
def loopEntries (b : List Byte) : List (Nat × Int) :=
  (List.range 6).map fun x => (leAt b (16 + 8 * x) 2, sext 32 (leAt b (20 + 8 * x) 4))

/-- Is a word of a descriptor of an operation the low half of an operand address (R170)? -/
def lowHalf (op word : Nat) : Bool :=
  match op with
  | 1 => memNat word [2, 4, 6]
  | 2 => memNat word [2, 4]
  | 3 => memNat word [2, 4, 6, 8, 10]
  | 4 => memNat word [2, 4]
  | 5 => memNat word [2, 4]
  | 8 => memNat word [6, 8, 10]
  | 9 => memNat word [2]
  | _ => false

/-- May a stride act on a word of a descriptor of an operation: not in bytes 0 to 7, not in a LOOP, and not on the high half of an
operand address (R170)? -/
def mayStride (op word : Nat) : Bool := decide (2 ≤ word) && op != 7 && !lowHalf op (word - 1)

/-- Byte i of the descriptor in store at an index of a list. -/
def storedByte (s : State) (core base q i : Nat) : Nat := byteAt (getLocal s core (base + 64 * q) 8) i

/-- The checks of a LOOP at issue: its fields, its targets, its body, and the loops that are active (R150, R168 to R170). -/
def checkLoop (s : State) (core : Nat) (r : RunList) (b : List Byte) : Nat :=
  let back := leAt b 4 2
  let others := (r.loops.filter fun l => l.p != r.idx).length + (match r.outer with
    | some o => o.loops.length
    | none => 0)
  firstBad [
    need (zeroAt b 6 2 && zeroAt b 12 4 && (List.range 6).all fun x => zeroAt b (18 + 8 * x) 2),
    need (decide (1 ≤ back) && decide (back ≤ 4095) && decide (1 ≤ leAt b 8 4)),
    need ((loopEntries b).all fun e => e.1 == 0 ||
      (decide (1 ≤ e.1 % 4096) && decide (e.1 % 4096 ≤ back) && decide (2 ≤ e.1 / 4096))),
    need (decide (back ≤ r.idx)),
    need ((loopEntries b).all fun e => e.1 == 0 ||
      mayStride (storedByte s core r.base (r.idx - e.1 % 4096) 0) (e.1 / 4096)),
    need ((upto (r.idx - back) back).all fun q => !bit (storedByte s core r.base q 1) 0),
    need ((r.loops.any fun l => l.p == r.idx) || decide (others < 4))]

/-- A STAGE descriptor (Table CORE-17). -/
structure StageD where
  back : Bool
  recomp : Bool
  offload : Bool
  keepg : Bool
  ot : Nat
  fwd : Nat
  bwd : Nat
  rpl : Nat
  savelen : Nat
  save : Nat
  off : Nat
  gath : Nat
  gathlen : Nat
deriving DecidableEq, Repr

/-- The fields of a STAGE. -/
def stageD (b : List Byte) : StageD :=
  { back := byteAt b 4 == 1, recomp := bit (byteAt b 5) 0, offload := bit (byteAt b 5) 1, keepg := bit (byteAt b 5) 2,
    ot := leAt b 6 2, fwd := leAt b 8 4, bwd := leAt b 12 4, rpl := leAt b 16 4, savelen := leAt b 20 4,
    save := leAt b 24 8, off := leAt b 32 8, gath := leAt b 40 8, gathlen := leAt b 48 4 }

/-- A sub-list's address: 64-byte aligned and mapped (R137, R139). -/
def checkSub (core a : Nat) : Nat := firstBad [need (a % 64 == 0), checkLocal core a 64]

/-- A sub-list's address that is not used: none, or 64-byte aligned and mapped (R137, R139). -/
def checkSubOpt (core a : Nat) : Nat := if a = 0xFFFFFFFF then 0 else checkSub core a

/-- The checks of a STAGE at issue: every field of Table CORE-17, whatever its PASS and its hooks use (R137, R142, R150, R185,
log 24); a sub-list that it runs is not none. -/
def checkStage (s : State) (core fn : Nat) (inner : Bool) (b : List Byte) : Nat :=
  let d := stageD b
  firstBad [
    need (!inner),
    need (decide (byteAt b 4 ≤ 1) && byteAt b 5 / 8 == 0 && zeroAt b 52 12),
    need (!(d.recomp && d.offload)),
    need (d.savelen % 16 == 0 && d.gathlen % 256 == 0),
    (if d.back then 0 else checkSub core d.fwd), (if d.back then checkSub core d.bwd else 0),
    (if d.back && d.recomp then checkSub core d.rpl else 0),
    checkSubOpt core d.fwd, checkSubOpt core d.bwd, checkSubOpt core d.rpl,
    checkTally s core fn d.ot,
    checkOp s core fn d.save [0] [(0, d.savelen)],
    checkOp s core fn d.off [2] [(0, d.savelen)],
    checkOp s core fn d.gath [0] [(0, d.gathlen)]]

/-- The pillar region that a PILLAR names, as a canonical local range (R171). -/
def pillarRange (core : Nat) (b : List Byte) : Nat × Nat :=
  ((localAt (some (core % 64)) (leAt b 8 4) (leAt b 16 4)).getD 0, leAt b 16 4)

/-- The SHIFT copies that a core's functions have outstanding: those under way, and one issued and not yet carried out. -/
def shiftCopies (qs : List (Nat × SeqSt)) : List CopyD :=
  (qs.flatMap fun f => f.2.copies.map (fun c => copyD c.desc) ++ (match f.2.run with
    | some r => if r.phase = .issued && byteAt r.desc 0 == 5 then [copyD r.desc] else []
    | none => [])).filter (·.shift)

/-- Does an outstanding SHIFT copy of a core of the die write into a local range of a cluster (R172)? -/
def shiftInto (s : State) (g lo n : Nat) : Bool :=
  s.comp.seqs.any fun e => e.1 / 64 / 160 == g / 160 && (shiftCopies e.2).any fun d => CopyD.meets e.1 d g lo n

/-- The checks of a PILLAR at issue (R137, R142, R150, R171, R172). -/
def checkPillar (s : State) (core fn : Nat) (b : List Byte) : Nat :=
  let g := core / 64
  let slot := byteAt b 5
  let r := pillarRange core b
  firstBad [
    need (zeroAt b 6 2 && zeroAt b 20 44),
    need (decide (byteAt b 4 ≤ 1) && decide (slot ≤ 7)),
    need (leAt b 8 4 % 256 == 0 && leAt b 16 4 % 256 == 0 && decide (256 ≤ leAt b 16 4)),
    checkOp s core fn (leAt b 8 8) [0] [(0, leAt b 16 4)],
    (if byteAt b 4 = 1 then need (SMap.find s.comp.pillars (8 * g + slot)).isSome
     else if (SMap.find s.comp.pillars (8 * g + slot)).isSome ∨
         (s.comp.pillars.any fun e => e.1 / 8 == g && decide (e.2.base < r.1 + r.2) && decide (r.1 < e.2.base + e.2.len)) ∨
         shiftInto s g r.1 r.2 ∨ timeSliced s g then 3 else 0)]

/-- Every check of a descriptor before any part of it starts (R142, R149, R150): 0, or the refusal status. -/
def checkDesc (s : State) (core fn : Nat) (r : RunList) (b : List Byte) : Nat :=
  let op := byteAt b 0
  firstBad [
    need (byteAt b 1 / 4 == 0 && decide (op ≤ 9)),
    need (!bit (byteAt b 1) 1 || op == 5),
    checkTallyOpt s core fn (leAt b 2 2),
    (match op with
      | 0 => need (zeroAt b 4 60)
      | 1 => checkMatmul s core fn b
      | 2 => checkConvert s core fn b
      | 3 => checkSparse s core fn b
      | 4 => checkReduce s core fn b
      | 5 => checkCopy s core fn b
      | 6 => checkWait s core fn b
      | 7 => checkLoop s core r b
      | 8 => checkStage s core fn r.outer.isSome b
      | _ => checkPillar s core fn b)]

/-! ### Issue (R141, R142, R169, R170) -/

/-- An offset added to a field of an issued copy (R170); none where it is refused. -/
def patchField (b : List Byte) (word : Nat) (offset : Int) : Option (List Byte) :=
  let op := byteAt b 0
  if !mayStride op word then none
  else
    let n := if lowHalf op word then 6 else 4
    let v : Int := (leAt b (4 * word) n : Int) + offset
    if 0 ≤ v ∧ v < (2 ^ (8 * n) : Nat) then some (leSet b (4 * word) n v.toNat) else none

/-- The words of the descriptor at index q that active loops' entries target, with their offsets (R169). -/
def strides (q : Nat) (loops : List LoopSt) : List (Nat × Int) :=
  loops.flatMap fun l => (l.entries.zip l.offs).filterMap fun e =>
    if e.1.1 ≠ 0 ∧ l.p = q + e.1.1 % 4096 then some (e.1.1 / 4096, e.2) else none

/-- Every active loop's offsets added to the descriptor at index q (R169). Offsets to one field are summed before the result is
held against the field's range, so that no order of the loops matters (R170, log 24). -/
def patchLoops (q : Nat) (loops : List LoopSt) (b : List Byte) : Option (List Byte) :=
  let es := strides q loops
  (es.map (·.1)).eraseDups.foldl (fun acc w => acc.bind fun b =>
    patchField b w ((es.filter fun e => e.1 == w).map (·.2)).sum) (some b)

/-- Does an active loop's body hold index q? -/
def inBody (q : Nat) (loops : List LoopSt) : Bool := loops.any fun l => decide (q < l.p) && decide (l.p ≤ q + l.back)

/-- The store runs that the checks of a descriptor read: its parameter block and slot, and a structure's header. -/
def checkRuns (s : State) (core : Nat) (b : List Byte) : List (Nat × Nat) :=
  match byteAt b 0 with
  | 1 => paramRuns s core (leAt b 52 4)
  | 2 => paramRuns s core (leAt b 36 4)
  | 3 => paramRuns s core (leAt b 56 4) ++ (opRun s core (leAt b 8 8) 0 32).1
  | 4 => paramRuns s core (leAt b 36 4)
  | _ => []

/-- The parameter block that a descriptor of some operation names. -/
def paramOf (s : State) (core : Nat) (b : List Byte) : Option Params :=
  match byteAt b 0 with
  | 1 => some (readParams s core (leAt b 52 4))
  | 2 => some (readParams s core (leAt b 36 4))
  | 3 => some (readParams s core (leAt b 56 4))
  | 4 => some (readParams s core (leAt b 36 4))
  | _ => none

/-- The sequencer issues the descriptor at the running list's index (R141, R142): reads it in full, adds the loops'
offsets, checks it, and keeps what it reads once: its parameter block with g, the default SEAM and `GLB_MODE.DET` (03 R117; 13
Table DET-4); a refusal stops the list. -/
def issue (s : State) (core fn : Nat) : State :=
  match (seqOf s core fn).run with
  | none => s
  | some r =>
    let a := r.base + 64 * r.idx
    if checkLocal core a 64 ≠ 0 then stopList s core fn 4
    else
      let m := meetStore s (localRun core a 64)
      if m.2 then stopList m.1 core fn 9
      else match patchLoops r.idx r.loops (getLocal m.1 core a 64) with
        | none => stopList m.1 core fn 4
        | some b =>
          if inBody r.idx r.loops && bit (byteAt b 1) 0 then stopList m.1 core fn 4
          else
            let c := meetStore m.1 (checkRuns m.1 core b)
            if c.2 then stopList c.1 core fn 9
            else
              let st := checkDesc c.1 core fn r b
              if st ≠ 0 then stopList c.1 core fn st
              else setRun c.1 core fn { r with
                desc := b, phase := .issued, copy := 0, det := flag c.1 R.glbMode 0, par := paramOf c.1 core b,
                seam := seamDefault c.1 core, part := none }

/-- A KEEPG protection of a range of a core's cluster (R184). -/
def stageKeep (core fn : Nat) (d : StageD) : KeepG :=
  { clu := core / 64, fn := fn, base := (localAt (some (core % 64)) (d.gath % 2 ^ 32) 0).getD 0, len := d.gathlen }

/-- The COPY descriptor that a STAGE's offload is (R184): SAVE to OFF, adding 1 to OT. -/
def offloadDesc (d : StageD) : List Byte :=
  [5#8, 2#8] ++ leBytes 2 d.ot ++ [2#8, 0#8, 0#8, 0#8] ++ leBytes 8 d.save ++ leBytes 8 d.off ++ leBytes 4 d.savelen ++
    leBytes 4 1 ++ zeros 32

/-- The SAVE range of a STAGE, as store key and length (R186). -/
def saveRange (core : Nat) (d : StageD) : Nat × Nat := ((opKey core d.save 0).getD 0, d.savelen)

/-- What a STAGE does next (R184): its next sub-list, its offload, the end of its protection, or its own end. -/
def stageNext (s : State) (core fn : Nat) : List StageTodo → State
  | [] =>
    match (seqOf s core fn).run with
    | none => s
    | some r =>
      match r.outer with
      | none => s
      | some o => setRun s core fn { r with base := o.base, idx := o.idx, loops := o.loops, desc := o.desc, phase := .done,
                                            outer := none }
  | .sub a :: t =>
    match (seqOf s core fn).run with
    | none => s
    | some r =>
      let o := r.outer.getD ⟨r.base, r.idx, r.loops, r.desc, []⟩
      issue (setRun s core fn { r with base := a, idx := 0, loops := [], outer := some { o with todo := t } }) core fn
  | .offload :: t =>
    match (seqOf s core fn).run with
    | none => s
    | some r =>
      let d := stageD (r.outer.getD ⟨0, 0, [], r.desc, []⟩).desc
      let n := newId s
      let q := seqOf n.2 core fn
      stageNext (setSeq n.2 core fn { q with copies := q.copies ++
        [⟨n.1, fn, r.launch.id, offloadDesc d, d.ot, some (saveRange core d), 0, false⟩] }) core fn t
  | .keepEnd :: t =>
    match (seqOf s core fn).run with
    | none => s
    | some r =>
      let d := stageD (r.outer.getD ⟨0, 0, [], r.desc, []⟩).desc
      stageNext { s with comp := { s.comp with keepg := s.comp.keepg.erase (stageKeep core fn d) } } core fn t

/-- The descriptor at hand completes (R143, R393): its DT rises by 1 unless none or an asynchronous copy's, and the next
descriptor is issued, the sub-list ends, or the list ends OK. -/
def completeDesc (s : State) (core fn : Nat) (r : RunList) : State :=
  let flags := byteAt r.desc 1
  let s := if bit flags 1 ∨ leAt r.desc 2 2 = 0xFFFF then s else tallyAdd s fn (coreDie core) (leAt r.desc 2 2) 1
  if bit flags 0 then
    match r.outer with
    | some o => stageNext s core fn o.todo
    | none => endList s core fn 0 0xFFFF
  else issue (setRun s core fn { r with idx := r.idx + 1 }) core fn

/-! ### The rows -/

/-- The running list of the resident function of a core, where its cluster runs and is awake (R175, R190; 16 R583). -/
def current (s : State) (k : CoreId) : Option (Nat × RunList) :=
  match residentAwake s k.clu with
  | none => none
  | some fn => (seqOf s k.no fn).run.map fun r => (fn, r)

/-- A row of an operation acts where a descriptor of that operation is issued and not yet carried out; else nothing
changes (log 12). -/
def onOp (s : State) (k : CoreId) (p : List Byte → Bool) (f : Nat → RunList → State) : State :=
  match current s k with
  | some (fn, r) => if r.phase = .issued ∧ p r.desc then f fn r else s
  | none => s

/-- Is a descriptor of this operation? -/
def opIs (n : Nat) (b : List Byte) : Bool := byteAt b 0 == n

/-- The descriptor at hand has been carried out: the list goes on, or stops with FAULT where an error was met. -/
def finish (s : State) (core fn : Nat) (ue : Bool) : State :=
  if ue then stopList s core fn 9
  else match (seqOf s core fn).run with
    | none => s
    | some r => setRun s core fn { r with phase := .done, part := none }

/-- What an operation's run leaves: the list stops with FAULT, stands at a tile boundary inside the descriptor, or goes on. -/
def finishOp (r : OpRes) (core fn : Nat) : State :=
  match r.part with
  | none => finish r.s core fn r.ue
  | some p => match (seqOf r.s core fn).run with
    | none => r.s
    | some q => setRun r.s core fn { q with part := some p }

/-- Has the quantum of a core's cluster expired, so that the core stops at its first tile boundary (01 R45; R178)? -/
def expired (s : State) (k : CoreId) : Bool := (slotSt s k.clu).expired

/-- The origin of the frames of a core's list. -/
def coreOrg (core fn : Nat) (r : RunList) : Origin := .core core fn r.launch.id 0

/-- LIST_START (R140, R148): the head of the resident function's queue starts: flags cleared, first descriptor issued. After the
quantum expires none starts (R178). -/
def listStart (k : CoreId) (s : State) : State :=
  match residentAwake s k.clu with
  | none => s
  | some fn =>
    let q := seqOf s k.no fn
    match q.run, q.queue with
    | none, l :: t =>
      if expired s k then s
      else issue (setSeq s k.no fn { q with
        queue := t, run := some ⟨l, l.addr, 0, [], [], .done, none, 0, false, none, 0, none⟩, flags := FpFlags.none }) k.no fn
    | _, _ => s

/-- Has the descriptor at hand nothing left to wait for: carried out; its COPY's frames admitted (R164); room for a STAGE's
offload copy (R145)? -/
def canComplete (s : State) (core fn : Nat) (r : RunList) : Bool :=
  r.phase == .done && !copyPending s r.copy &&
    !(bit (byteAt r.desc 1) 0 && (match r.outer with
      | some o => o.todo.contains .offload && decide (16 ≤ (seqOf s core fn).copies.length)
      | none => false))

/-- DESCRIPTOR_COMPLETE (R143). After the quantum expires the list stays at this boundary (R178). -/
def descriptorComplete (k : CoreId) (s : State) : State :=
  match current s k with
  | some (fn, r) => if !expired s k && canComplete s k.no fn r then completeDesc s k.no fn r else s
  | none => s

/-- NOP (Table CORE-4). -/
def listNop (k : CoreId) (s : State) : State := onOp s k (opIs 0) fun fn _ => finish s k.no fn false

/-- MATMUL (R157). -/
def listMatmul (k : CoreId) (s : State) : State :=
  onOp s k (opIs 1) fun fn r => match matmulD r.seam r.desc, r.par with
    | some d, some p => finishOp (runMatmul s k.no fn (coreOrg k.no fn r) d p (expired s k) r.part) k.no fn
    | _, _ => s

/-- CONVERT (R158). -/
def listConvert (k : CoreId) (s : State) : State :=
  onOp s k (opIs 2) fun fn r => match convertD r.desc, r.par with
    | some d, some p => finishOp (runConvert s k.no fn (coreOrg k.no fn r) d p) k.no fn
    | _, _ => s

/-- SPARSE (R197, R204). -/
def listSparse (k : CoreId) (s : State) : State :=
  onOp s k (opIs 3) fun fn r => match sparseD r.seam r.desc, r.par with
    | some d, some p =>
      let x := runSparse s k.no fn (coreOrg k.no fn r) d p r.det (expired s k) r.part
      match x.2 with
      | some .content => stopList x.1.s k.no fn 4
      | some .full => stopList x.1.s k.no fn 4
      | some .error => finishOp x.1 k.no fn
      | none => finishOp x.1 k.no fn
    | _, _ => s

/-- A REDUCE of some ROP (R160, R161). -/
def listReduce (k : CoreId) (rop : Nat) (s : State) : State :=
  onOp s k (fun b => opIs 4 b && byteAt b 4 == rop) fun fn r => match r.par with
    | some p => finishOp (runReduce s k.no fn (coreOrg k.no fn r) (reduceD r.desc) p (expired s k) r.part) k.no fn
    | none => s

/-- A part of a copy's row: its offsets in the source and the destination, its length, and the 4 KiB of the copy's data that its
first byte lies in. -/
structure CopySeg where
  src : Nat
  dst : Nat
  len : Nat
  piece : Nat
deriving DecidableEq, Repr

/-- A copy's rows in ascending order, cut at every 4 KiB of its data; those of a remote destination where R379 cuts their
frames. -/
def CopyD.segs (d : CopyD) : List CopySeg :=
  (List.range d.rows).flatMap fun r =>
    let o := if space d.dst = 3 then bits d.dst 47 0 + d.dstr * r else r * d.len
    (cut4k o d.len).map fun c => ⟨d.sstr * r + (c.1 - o), d.dstr * r + (c.1 - o), c.2, (r * d.len + (c.1 - o)) / 4096⟩

/-- Neighbouring parts of the same 4 KiB joined into pieces. -/
def groupSegs : List CopySeg → List (List CopySeg)
  | [] => []
  | x :: r => match groupSegs r with
    | [] => [[x]]
    | g :: t => if (g.head?.map (·.piece)) = some x.piece then (x :: g) :: t else [x] :: g :: t

/-- The pieces of a copy, a tile boundary after each (R162). -/
def CopyD.pieces (d : CopyD) : List (List CopySeg) := groupSegs (CopyD.segs d)

/-- Does a byte of an operand lie in a line or codeword in error? -/
def byteBad (s : State) (core w o : Nat) : Bool :=
  let r := opRun s core w o 1
  (firstUe s r.1).isSome || r.2.any fun x => !(deepHits s.deep.ue x.1 x.2).isEmpty || (lostHit s x.1 x.2).isSome

/-- n bytes of an operand as a copy that goes on after an error moves them: those in error are free values. -/
def getFree (s : State) (core w o n : Nat) : List Byte × State :=
  let f := freshBytes s n
  (((List.range n).zip ((getOp s core w o n).zip f.1)).map fun x => if byteBad s core w (o + x.1) then x.2.2 else x.2.1, f.2)

/-- A piece of a copy moves, row by row in ascending order, each part read whole before it is written (R162, log 25). Its reads
meet their errors: a synchronous copy stops there; an asynchronous one goes on with free values for the bytes in error (R147,
log 65). -/
def copyPiece (core fn : Nat) (org : Origin) (d : CopyD) (goOn : Bool) (a : State × Bool) (g : List CopySeg) : State × Bool :=
  let m := meetRuns a.1 0 (opRuns a.1 core d.src (g.map fun x => (x.src, x.len)))
  if m.2 && !goOn then m
  else g.foldl (fun (acc : State × Bool) x =>
    let b := if m.2 then getFree acc.1 core d.src x.src x.len else (getOp acc.1 core d.src x.src x.len, acc.1)
    let w := putOp b.2 core fn org d.rm d.dst [(x.dst, b.1)]
    (w.1, acc.2 || w.2)) (m.1, a.2 || m.2)

/-- The pieces of a copy from the j-th on, or the next one alone. Answers whether an error was met and the next piece. -/
def moveCopy (s : State) (core fn : Nat) (org : Origin) (d : CopyD) (goOn one : Bool) (j : Nat) : (State × Bool) × Nat :=
  let ps := CopyD.pieces d
  stepsFrom (fun a i => copyPiece core fn org d goOn a (ps.getD i [])) (fun a => a.2 && !goOn) one (ps.length - j) j (s, false)

/-- Does a copy touch a dozing cluster (16 R586)? -/
def copyMeetsDoze (s : State) (core : Nat) (desc : List Byte) : Bool := (copyClusters core desc).any (dozing s)
/-- A packet addressed to a dozing cluster is its wake event and waits at the sending core (16 R585, R586). -/
def wakeTargets (s : State) (core : Nat) (desc : List Byte) : State := (copyClusters core desc).foldl wakeIsl s

/-- The piece of a COPY at which it goes on. -/
def copyFrom (r : RunList) : Nat :=
  match r.part with
  | some (.copy j) => j
  | some (.matmul _ _ _ _) => 0
  | some (.reduce _ _ _) => 0
  | some (.sparse _ _ _ _) => 0
  | none => 0

/-- COPY (R143, R145, R162, R164): a synchronous copy moves its rows; an asynchronous one is registered; a seventeenth of its
function on the core waits (log 92). -/
def listCopy (k : CoreId) (s : State) : State :=
  onOp s k (opIs 5) fun fn r =>
    let d := copyD r.desc
    let q := seqOf s k.no fn
    if d.async then
      (if 16 ≤ q.copies.length then s
       else
        let n := newId s
        let c : AsyncCopy := ⟨n.1, fn, r.launch.id, r.desc, leAt r.desc 2 2, none, 0, false⟩
        finish (setSeq n.2 k.no fn { q with copies := q.copies ++ [c] }) k.no fn false)
    else if copyMeetsDoze s k.no r.desc then wakeTargets s k.no r.desc
    else
      let n := if r.copy = 0 then newId s else (r.copy, s)
      let m := moveCopy n.2 k.no fn (.core k.no fn r.launch.id n.1) d false (expired s k) (copyFrom r)
      if m.1.2 then stopList m.1.1 k.no fn 9
      else match (seqOf m.1.1 k.no fn).run with
        | none => m.1.1
        | some r =>
          if m.2 < (CopyD.pieces d).length then setRun m.1.1 k.no fn { r with copy := n.1, part := some (.copy m.2) }
          else setRun m.1.1 k.no fn { r with phase := .done, copy := n.1, part := none }

/-- A list that still runs on a core, by its name, stops with FAULT. -/
def faultLaunch (s : State) (core fn launch : Nat) : State :=
  match (seqOf s core fn).run with
  | some r => if r.launch.id = launch then stopList s core fn 9 else s
  | none => s

/-- The asynchronous copies of a function on a core, changed. -/
def mapCopies (s : State) (core fn : Nat) (f : List AsyncCopy → List AsyncCopy) : State :=
  let q := seqOf s core fn
  setSeq s core fn { q with copies := f q.copies }

/-- An asynchronous copy whose data is complete adds 1 to its DT and is outstanding no more (R164). -/
def endCopy (s : State) (core fn : Nat) (c : AsyncCopy) : State :=
  let s := mapCopies s core fn fun l => l.filter fun x => x.id != c.id
  if c.dt = 0xFFFF then s else tallyAdd s fn (coreDie core) c.dt 1

/-- COPY_COMPLETE (R147, R164, R178): the n-th asynchronous copy of the resident function on the core moves its data, and
adds 1 to its DT once that is complete: written, or its last frame admitted. One that meets an uncorrectable error stops its list
with FAULT, where that still runs, and runs to completion (R135, R147). After the quantum expires it pauses at its next 4 KiB
boundary. -/
def copyComplete (k : CoreId) (n : Nat) (s : State) : State :=
  match residentAwake s k.clu with
  | none => s
  | some fn =>
    match (seqOf s k.no fn).copies[n]? with
    | none => s
    | some c =>
      let d := copyD c.desc
      let total := (CopyD.pieces d).length
      if c.paused then s
      else if copyMeetsDoze s k.no c.desc then wakeTargets s k.no c.desc
      else if total ≤ c.moved then (if copyPending s c.id then s else endCopy s k.no fn c)
      else
        let m := moveCopy s k.no fn (.core k.no fn c.launch c.id) d true (expired s k) c.moved
        let s1 := mapCopies (if m.1.2 then faultLaunch m.1.1 k.no fn c.launch else m.1.1) k.no fn fun l =>
          l.map fun x => if x.id = c.id then { x with moved := m.2, paused := expired s k && decide (m.2 < total) } else x
        if m.2 < total ∨ copyPending s1 c.id then s1 else endCopy s1 k.no fn c

/-- The state with the descriptor at hand in a phase. -/
def setPhase (s : State) (core fn : Nat) (r : RunList) (p : Phase) : State := setRun s core fn { r with phase := p }

/-- WAIT_TALLY (R166): a WAIT of WMODE 0 starts to wait. -/
def waitTally (k : CoreId) (s : State) : State :=
  onOp s k (fun b => opIs 6 b && byteAt b 4 == 0) fun fn r => setPhase s k.no fn r (.waiting (lampTick s))

/-- WAIT_TIME (R166): a WAIT of WMODE 1 completes at once if T has passed, else starts to wait. -/
def waitTime (k : CoreId) (s : State) : State :=
  onOp s k (fun b => opIs 6 b && byteAt b 4 == 1) fun fn r =>
    setPhase s k.no fn r (if leAt r.desc 16 8 ≤ nowNs s then .done else .waiting (lampTick s))

/-- Has the tally that a WAIT names passed its TARGET (R395)? -/
def waitPassed (s : State) (core fn : Nat) (b : List Byte) : Bool :=
  tallyPassed (tallyCount s fn (coreDie core) (leAt b 6 2)) (leAt b 8 4)

/-- A row that ends a WAIT of a mode that waits. A WAIT is a tile boundary while it waits (R166): after the quantum expires, and
while the island dozes, it waits on (R178, log 92). -/
def onWait (s : State) (k : CoreId) (mode : Nat) (f : Nat → RunList → Nat → State) : State :=
  match current s k with
  | none => s
  | some (fn, r) =>
    match r.phase with
    | .waiting t => if byteAt r.desc 4 = mode ∧ !expired s k then f fn r t else s
    | .issued => s
    | .done => s

/-- WAIT_COMPLETE (R395, R396). -/
def waitComplete (k : CoreId) (s : State) : State :=
  onWait s k 0 fun fn r _ => if waitPassed s k.no fn r.desc then setPhase s k.no fn r .done else s

/-- WAIT_TIMEOUT (R167): the list stops with TIMEOUT. -/
def waitTimeout (k : CoreId) (s : State) : State :=
  onWait s k 0 fun fn r t =>
    let limit := leAt r.desc 12 4
    if limit ≠ 0 ∧ limit ≤ lampTick s - t ∧ !waitPassed s k.no fn r.desc then stopList s k.no fn 5 else s

/-- WAIT_TIME_REACHED (13 R475). -/
def waitTimeReached (k : CoreId) (s : State) : State :=
  onWait s k 1 fun fn r _ => if leAt r.desc 16 8 ≤ nowNs s then setPhase s k.no fn r .done else s

/-- LOOP (R169): activates, goes back with its offsets advanced, or deactivates and completes. What R170 refuses was refused at its
issue. After the quantum expires no pass starts (R178). -/
def listLoop (k : CoreId) (s : State) : State :=
  onOp s k (opIs 7) fun fn r =>
    let back := leAt r.desc 4 2
    let ents := loopEntries r.desc
    let others := r.loops.filter fun l => l.p != r.idx
    let l := (r.loops.find? fun l => l.p == r.idx).getD ⟨r.idx, back, leAt r.desc 8 4 - 1, ents, ents.map fun _ => 0⟩
    if l.remaining = 0 then setRun s k.no fn { r with loops := others, phase := .done }
    else
      let l2 : LoopSt := { l with back := back, remaining := l.remaining - 1, entries := ents,
                                  offs := (l.offs.zip ents).map fun e => e.1 + e.2.2 }
      if expired s k then s
      else issue (setRun s k.no fn { r with loops := others ++ [l2], idx := r.idx - back }) k.no fn

/-- The sub-lists and hooks of a STAGE, in order (R184). -/
def stageTodo (d : StageD) : List StageTodo :=
  if d.back then (if d.recomp then [.sub d.rpl] else []) ++ [.sub d.bwd] ++ (if d.keepg then [.keepEnd] else [])
  else [.sub d.fwd] ++ (if d.offload then [.offload] else [])

/-- Does a backward STAGE wait for the forward offload of its SAVE range (R186, log 62)? -/
def stageWaits (s : State) (k : CoreId) (fn : Nat) (d : StageD) : Bool :=
  d.back && d.offload && s.comp.seqs.any fun e => e.2.any fun f => f.1 == fn &&
    f.2.copies.any fun c => c.save == some (saveRange k.no d)

/-- STAGE (R184 to R186): protects, fetches an offload once the forward offload of the same SAVE range is complete, and
starts its first sub-list; after the quantum expires none starts (R178). -/
def listStage (k : CoreId) (s : State) : State :=
  onOp s k (opIs 8) fun fn r =>
    let d := stageD r.desc
    if expired s k || stageWaits s k fn d then s
    else
      let s1 := if !d.back && d.keepg then
          { s with comp := { s.comp with keepg := s.comp.keepg ++ [stageKeep k.no fn d] } }
        else s
      let m := if d.back && d.offload then
          (moveCopy s1 k.no fn (coreOrg k.no fn r) ⟨false, true, false, d.off, d.save, d.savelen, 1, 0, 0, ⟨0, 0xFFFF⟩⟩
            false false 0).1
        else (s1, false)
      if m.2 then stopList m.1 k.no fn 9
      else stageNext (setRun m.1 k.no fn { r with outer := some ⟨r.base, r.idx, r.loops, r.desc, []⟩ }) k.no fn (stageTodo d)

/-- `CPX_CLOWN.PIL` follows the pillars of a cluster. -/
def syncPil (s : State) (g : Nat) : State := setF s (clownOff g + 4) 30 30 (b2n (hasPillar s g))

/-- PILLAR_MARK (R171, R172): the conflicts are judged again as the mark is made. -/
def pillarMark (k : CoreId) (s : State) : State :=
  onOp s k (fun b => opIs 9 b && byteAt b 4 == 0) fun fn r =>
    let st := checkPillar s k.no fn r.desc
    if st ≠ 0 then stopList s k.no fn st
    else
      let rg := pillarRange k.no r.desc
      let s1 := { s with comp := { s.comp with pillars := SMap.put s.comp.pillars (8 * k.clu + byteAt r.desc 5) ⟨rg.1, rg.2⟩ } }
      finish (syncPil s1 k.clu) k.no fn false

/-- PILLAR_CLEAR (R171). -/
def pillarClear (k : CoreId) (s : State) : State :=
  onOp s k (fun b => opIs 9 b && byteAt b 4 == 1) fun fn r =>
    let st := checkPillar s k.no fn r.desc
    if st ≠ 0 then stopList s k.no fn st
    else
      let s1 := { s with comp := { s.comp with pillars := SMap.erase s.comp.pillars (8 * k.clu + byteAt r.desc 5) } }
      finish (syncPil s1 k.clu) k.no fn false

/-! ### Sharing a cluster (R175 to R183) -/

/-- Has a function a launched list on a cluster that is not complete (R177)? -/
def hasList (s : State) (g fn : Nat) : Bool :=
  s.comp.seqs.any fun e => e.1 / 64 == g && e.2.any fun f => f.1 == fn && (f.2.run.isSome || !f.2.queue.isEmpty)

/-- The next valid slot after the resident one, in ascending order with wrap-around, whose function has a list (R177). -/
def nextSlot (s : State) (g : Nat) : Option Nat :=
  ((upto 1 3).map fun j => (resSlot s g + j) % 4).find? fun sl => slotValid s g sl && hasList s g (slotFn s g sl)

/-- The state with a cluster's sharing state. -/
def setSlot (s : State) (g : Nat) (x : SlotSt) : State :=
  { s with comp := { s.comp with slots := SMap.setD s.comp.slots g ⟨0, false, none⟩ x } }

/-- QUANTUM_EXPIRE (R176, R177): once the quantum is over, a switch is requested, or a new quantum starts where no other
slot has a list. -/
def quantumExpire (d : Die) (i : Clu) (s : State) : State :=
  let g := cluNo d i
  let x := slotSt s g
  if fenced s g ∨ !slotValid s g (resSlot s g) ∨ x.expired ∨ x.switch.isSome ∨
      nowNs s < x.start + getF s (R.cpxQuantum d.val) 15 0 * 1000 then s
  else match nextSlot s g with
    | some _ => setSlot s g { x with expired := true }
    | none => setSlot s g { x with start := nowNs s }

/-- Does a core stand at a tile boundary: no list, a descriptor carried out, a WAIT that waits, an operation at a boundary inside
it, or a descriptor that itself waits at its start: a LOOP or STAGE, whose next pass or sub-list has not started, and a COPY that
waits (R145, R166, R178)? -/
def atBoundary (s : State) (k : CoreId) (fn : Nat) : Bool :=
  match (seqOf s k.no fn).run with
  | none => true
  | some r => match r.phase with
    | .done => true
    | .waiting _ => true
    | .issued => r.part.isSome ||
        (opIs 5 r.desc && ((copyD r.desc).async && decide (16 ≤ (seqOf s k.no fn).copies.length) ||
          !(copyD r.desc).async && copyMeetsDoze s k.no r.desc)) ||
        opIs 7 r.desc || opIs 8 r.desc

/-- The asynchronous copies of a function on a cluster go on (R178). -/
def resumeCopies (s : State) (g fn : Nat) : State :=
  (seqKeys s).foldl (fun s x => if x.1 / 64 = g ∧ x.2 = fn then
    mapCopies s x.1 x.2 fun l => l.map fun c => { c with paused := false } else s) s

/-- A quantum starts for the resident slot (R176). -/
def newQuantum (s : State) (g : Nat) : State :=
  resumeCopies (setSlot s g ⟨nowNs s, false, none⟩) g (slotFn s g (resSlot s g))

/-- CONTEXT_SWITCH_START (R178, R182): once every core of the cluster stands at a tile boundary, the save begins. The slot to
switch to is picked as the save begins; where no other slot has a list by then, a new quantum starts (R177, log 92). -/
def contextSwitchStart (d : Die) (i : Clu) (s : State) : State :=
  let g := cluNo d i
  let x := slotSt s g
  let fn := slotFn s g (resSlot s g)
  if fenced s g ∨ !x.expired ∨ x.switch.isSome ∨ !((List.finRange 64).all fun c => atBoundary s ⟨d, i, c⟩ fn) then s
  else match nextSlot s g with
    | some sl => setSlot s g { x with switch := some ⟨sl, true, 0, 0⟩ }
    | none => newQuantum s g

/-- The 4 KiB blocks of a context image (R180, R182). -/
def imageBlocks : Nat := 848

/-- The local address of a block's bytes; none where it holds state of the cores (Table CORE-15). -/
def blockLocal (b : Nat) : Option Nat :=
  let o := 4096 * b
  if o < 0x300000 then some (o / 0xC000 * 0x10000 + o % 0xC000)
  else if o < 0x340000 then some (0x400000 + (o - 0x300000))
  else none

/-- Codewords of deep store written whole lose their errors. -/
def clearUe (s : State) (a n : Nat) : State :=
  { s with deep := { s.deep with ue := s.deep.ue.filter fun c => !(decide (a ≤ c) && decide (c + 64 ≤ a + n)) } }

/-- A block of a cluster's stores is saved to a context image (R182): each line in error is met as it is read, and its bytes in the
image are free values. The cores' state is not laid out in the image, which nothing can read (R181, 06 R227): it stays where it
is (log 67). -/
def saveBlock (s : State) (g img b : Nat) : State :=
  if !hasImages s then s
  else
    let o := img + 4096 * b
    match blockLocal b with
    | none => clearUe s o 4096
    | some a =>
      let k := storeKey g a
      let m := (meetStore s [(k, 4096)]).1
      let bad := (s.comp.storeUe.map (·.1)).filter fun l => decide (k ≤ l) && decide (l < k + 4096)
      let m := (bad.drop 1).foldl (fun s l => (meetStore s [(l, 16)]).1) m
      let t := clearUe { m with deep := { m.deep with mem := memPlace m.deep.mem o 4096 (memSlice m.comp.store k 4096) } } o 4096
      bad.foldl (fun s l => let f := freshBytes s 16; writeDeep f.2 (o + (l - k)) f.1) t

/-- A block of a context image is restored to a cluster's stores, whose lines it writes whole: zeros where no stack holds an image
(14 R539); a codeword in error is met, its bytes are free values, and every list of the incoming function on the cluster stops with
FAULT (06 R235). -/
def restoreBlock (s : State) (g fn img b : Nat) : State :=
  let o := img + 4096 * b
  let m := if hasImages s then meetDeep s 3 [(o, 4096)] else (s, false)
  let s := if m.2 then stopLists m.1 9 fun core f _ => core / 64 == g && f == fn else m.1
  match blockLocal b with
  | none => s
  | some a =>
    let k := storeKey g a
    let sl := if hasImages s then memSlice s.deep.mem o 4096 else []
    let ue := s.comp.storeUe.filter fun e => !(decide (k ≤ e.1) && decide (e.1 < k + 4096))
    let t := { s with comp := { s.comp with store := memPlace s.comp.store k 4096 sl, storeUe := ue } }
    (deepHits s.deep.ue o 4096).foldl (fun s c =>
      let f := freshBytes s 64
      { f.2 with comp := { f.2.comp with store := memWriteN f.2.comp.store (k + (c / 64 * 64 - o)) f.1 } }) t

/-- The next block of a cluster's transfer moves (R182). -/
def moveBlock (s : State) (g : Nat) : State :=
  let x := slotSt s g
  match x.switch with
  | none => s
  | some w =>
    if imageBlocks ≤ w.blocks then s
    else
      let t := if w.saving then saveBlock s g (imageBase s g (resSlot s g)) w.blocks
        else restoreBlock s g (slotFn s g w.slot) (imageBase s g w.slot) w.blocks
      let y := slotSt t g
      match y.switch with
      | none => t
      | some _ => setSlot t g { y with switch := some { w with blocks := w.blocks + 1, ns := 0 } }

/-- The blocks of a cluster's transfer that are still to move. -/
def moveBlocks (s : State) (g : Nat) : State := (List.range imageBlocks).foldl (fun s _ => moveBlock s g) s

/-- CONTEXT_SAVE_DONE (R180, R182): the rest of the outgoing image is written, and the restore begins. -/
def contextSaveDone (d : Die) (i : Clu) (s : State) : State :=
  let g := cluNo d i
  match (slotSt s g).switch with
  | none => s
  | some w =>
    if !w.saving then s
    else
      let t := moveBlocks s g
      match (slotSt t g).switch with
      | none => t
      | some _ => setSlot t g { slotSt t g with switch := some ⟨w.slot, false, 0, 0⟩ }

/-- CONTEXT_RESTORE_DONE (R176, R178, R182; 06 R235): the rest of the incoming image is read; the incoming slot is resident, its
quantum starts and its paused copies go on. -/
def contextRestoreDone (d : Die) (i : Clu) (s : State) : State :=
  let g := cluNo d i
  match (slotSt s g).switch with
  | none => s
  | some w =>
    if w.saving then s
    else
      let t := moveBlocks s g
      match (slotSt t g).switch with
      | none => t
      | some _ => newQuantum (setF t (clownOff g + 4) 21 20 w.slot) g

/-- One ns of a cluster's transfer: a block takes 16 (R182, Table CORE-16, log 67). -/
def transferNs (s : State) (g : Nat) : State :=
  let x := slotSt s g
  match x.switch with
  | none => s
  | some w => if w.ns < 15 then setSlot s g { x with switch := some { w with ns := w.ns + 1 } } else moveBlock s g

/-! ### The rows: the island of the core stays busy through them (16 R584) -/

/-- A row of a core: its reads meet its upsets, and its island stays busy through it. -/
def coreRow (k : CoreId) (u : Upsets) (f : State → State) (s : State) : Out := .next (markBusy k.clu s (meeting u f s))

/-- LIST_START. -/
def execListStart (k : Met CoreId) (s : State) : Out := coreRow k.what k.ups (listStart k.what) s
/-- DESCRIPTOR_COMPLETE. -/
def execDescriptorComplete (k : Met CoreId) (s : State) : Out := coreRow k.what k.ups (descriptorComplete k.what) s
/-- NOP. -/
def execNop (k : CoreId) (s : State) : Out := .next (markBusy k.clu s (listNop k s))
/-- MATMUL. -/
def execMatmul (k : CoreId) (u : Upsets) (s : State) : Out := coreRow k u (listMatmul k) s
/-- CONVERT. -/
def execConvert (k : CoreId) (u : Upsets) (s : State) : Out := coreRow k u (listConvert k) s
/-- SPARSE. -/
def execSparse (k : CoreId) (u : Upsets) (s : State) : Out := coreRow k u (listSparse k) s
/-- REDUCE_SUM_IMAGES. -/
def execReduceSumImages (k : CoreId) (u : Upsets) (s : State) : Out := coreRow k u (listReduce k 0) s
/-- REDUCE_SUM_PARTIALS. -/
def execReduceSumPartials (k : CoreId) (u : Upsets) (s : State) : Out := coreRow k u (listReduce k 1) s
/-- REDUCE_MAX. -/
def execReduceMax (k : CoreId) (u : Upsets) (s : State) : Out := coreRow k u (listReduce k 2) s
/-- REDUCE_MIN. -/
def execReduceMin (k : CoreId) (u : Upsets) (s : State) : Out := coreRow k u (listReduce k 3) s
/-- COPY. -/
def execCopy (k : CoreId) (u : Upsets) (s : State) : Out := coreRow k u (listCopy k) s
/-- COPY_COMPLETE. -/
def execCopyComplete (k : CoreId) (n : Nat) (u : Upsets) (s : State) : Out := coreRow k u (copyComplete k n) s
/-- WAIT_TALLY. -/
def execWaitTally (k : CoreId) (s : State) : Out := .next (markBusy k.clu s (waitTally k s))
/-- WAIT_TIME. -/
def execWaitTime (k : CoreId) (s : State) : Out := .next (markBusy k.clu s (waitTime k s))
/-- WAIT_COMPLETE. -/
def execWaitComplete (k : CoreId) (s : State) : Out := .next (markBusy k.clu s (waitComplete k s))
/-- WAIT_TIMEOUT. -/
def execWaitTimeout (k : CoreId) (s : State) : Out := .next (markBusy k.clu s (waitTimeout k s))
/-- WAIT_TIME_REACHED. -/
def execWaitTimeReached (k : CoreId) (s : State) : Out := .next (markBusy k.clu s (waitTimeReached k s))
/-- LOOP. -/
def execLoop (k : Met CoreId) (s : State) : Out := coreRow k.what k.ups (listLoop k.what) s
/-- STAGE. -/
def execStage (k : Met CoreId) (s : State) : Out := coreRow k.what k.ups (listStage k.what) s
/-- PILLAR_MARK. -/
def execPillarMark (k : CoreId) (s : State) : Out := .next (markBusy k.clu s (pillarMark k s))
/-- PILLAR_CLEAR. -/
def execPillarClear (k : CoreId) (s : State) : Out := .next (markBusy k.clu s (pillarClear k s))
/-- QUANTUM_EXPIRE. -/
def execQuantumExpire (d : Die) (i : Clu) (s : State) : Out := .next (markBusy (cluNo d i) s (quantumExpire d i s))
/-- CONTEXT_SWITCH_START. -/
def execContextSwitchStart (d : Die) (i : Clu) (s : State) : Out := .next (markBusy (cluNo d i) s (contextSwitchStart d i s))
/-- CONTEXT_SAVE_DONE. -/
def execContextSaveDone (d : Die) (i : Met Clu) (s : State) : Out :=
  .next (markBusy (cluNo d i.what) s (meeting i.ups (contextSaveDone d i.what) s))
/-- CONTEXT_RESTORE_DONE. -/
def execContextRestoreDone (d : Die) (i : Clu) (u : Upsets) (s : State) : Out :=
  .next (markBusy (cluNo d i) s (meeting u (contextRestoreDone d i) s))

end Sys2Proof.Machine
end

