-- ==== Sys2Proof/Machine/Remote.lean ====
section
/-! DEFINITION. Sys2Proof/Machine/Remote.lean: the receiver's checks, translation and landing of remote operations, reads,
atomics, replies and their rows (10_memory_ops.md R382 to R407, R659; 04_cores_clusters.md R183). -/

namespace Sys2Proof.Machine

/-! ### Checks (Table MEM-2) -/

/-- What the receiver's checks give: a refusal with its status and reason, or the window and the targets by die. -/
inductive RecvRes where
  | refused (status reason : Nat)
  | passed (win : Nat) (ts : List Target)
deriving DecidableEq, Repr

/-- The targets of a frame through a window, one for each die (R382, R384, R391). -/
def targetsOf (s : State) (f : Frame) (n : Nat) (w : Window) : List Target :=
  let a := w.taddr + (f.offset - w.obase)
  if w.mcg then
    let g := groupOf s (f.epoch % 2) f.dst
    (grpDies g).map fun d => ⟨n, false, a, d, grpClusters g d, w.fn⟩
  else if w.deep then [⟨n, true, a, a / stackSize, [], w.fn⟩]
  else [⟨n, false, a, w.die, [w.clidx], w.fn⟩]

/-- Does a window permit a type (R387)? -/
def permits (w : Window) (typ : Nat) : Bool :=
  if typ = 1 then bit w.perm 1 else if typ = 3 then bit w.perm 2 else bit w.perm 0

/-- The checks of Table MEM-2, in order. -/
def receiverCheck (s : State) (f : Frame) : RecvRes :=
  let typeOk := f.typ == 0 || f.typ == 2 || f.typ == 4 || ((f.typ == 1 || f.typ == 3) && !f.mc)
  if !typeOk ∨ (f.typ = 1 ∧ (f.rlen = 0 ∨ 256 < f.rlen)) then .refused 4 0
  else match windowOf s f with
    | none => .refused 6 1
    | some (n, w) =>
      let ts := targetsOf s f n w
      if f.src < w.slo ∨ w.shi < f.src then .refused 6 2
      else if !permits w f.typ then .refused 6 3
      else if fnState s w.fn ≠ 1 then .refused 8 4
      else if f.tally ≠ 0xFFFF ∧ ts.any (fun t => decide ((tallyRange s w.fn t.die).2 ≤ f.tally)) then .refused 6 5
      else if ts.any (fun t => t.clus.any fun i => !holds s (160 * t.die + i) w.fn) then .refused 6 6
      else if ts.any (fun t => t.clus.any fun i => fenced s (160 * t.die + i)) then .refused 9 7
      else if f.typ = 3 ∧ ((f.asize = 2 ∧ (f.aop ≠ 3 ∨ w.deep)) ∨ (f.aop = 3 ∧ f.asize = 1)) then .refused 4 0
      else if f.typ = 3 ∧ f.aop = 3 ∧ f.asize = 0 ∧ flag s R.glbMode 0 then .refused 6 8
      else .passed n ts

/-- The answer to a READ or ATOMIC (R388, R398, R659). -/
def answer (s : State) (f : Frame) (die status : Nat) (data : List Byte) : State :=
  sendFrame s (.reply die) { Frame.blank with
    typ := f.typ + 1, cls := f.cls, dst := f.src, src := f.dst, job := f.job, status := status, cid := f.cid,
    len := data.length / 16, offset := leAt f.payload 0 6, tally := leAt f.payload 6 2, payload := data }

/-- A refusal is counted and logged (R389, Table MEM-6). -/
def logRefusal (s : State) (f : Frame) (reason : Nat) : State :=
  let e : RefLog := ⟨nowNs s, f.src, f.dst, f.job, f.typ, reason, f.offset⟩
  let c := SMap.getD s.rem.refCounts reason 0
  { s with rem := { s.rem with
      refCounts := SMap.setD s.rem.refCounts reason 0 (satAdd 32 c 1)
      refLog := SMap.put s.rem.refLog s.rem.refNext e
      refNext := (s.rem.refNext + 1) % 16 } }

/-- A refused frame writes nothing and moves no tally; a READ or ATOMIC is answered with the status (R388). -/
def refuseFrame (s : State) (f : Frame) (die status reason : Nat) : State :=
  let s := logRefusal s f reason
  if f.typ = 1 ∨ f.typ = 3 then answer s f die status (zeros 16) else s

/-! ### Landing (R183, R394, R405) -/

/-- A byte run written for a function at a local address of a cluster: to its live stores, or to its image. -/
def landCluster (s : State) (g fn a : Nat) (bs : List Byte) : State := (putPlace s g fn a bs).1

/-- n is added to the tally that an arriving frame names on a die (R393, R394). -/
def landTally (s : State) (fn die tally n : Nat) : State :=
  if tally = 0xFFFF then s else tallyAdd s fn die tally n

/-- What an arriving frame adds to its tally (R393). -/
def tallyInc (f : Frame) : Nat := if f.typ = 0 then f.tinc else 1

/-- A payload written whole at a target, then counted. -/
def land (s : State) (f : Frame) (t : Target) : State :=
  let s := if t.deep then writeDeep s t.addr f.payload
    else t.clus.foldl (fun s i => landCluster s (160 * t.die + i) t.fn t.addr f.payload) s
  landTally s t.fn t.die f.tally (tallyInc f)

/-! ### The frames that arrived -/

/-- The circuit frames that pass into a die link (08 R312). -/
def sinkOf (s : State) (d : Nat) : List QEntry := SMap.getD s.fab.sink d []

/-- The frames that wait for the receiver: those of a die link, circuit frames first (08 R312), or (queue 8) those that match no
window, with the replies for the host bridge. -/
def arrivals (s : State) (q : Nat) : List QEntry :=
  if q < 8 then sinkOf s q ++ (queueOf s (64 + q)).frames else s.fab.recv

/-- The state without the first of them. -/
def dropArrival (s : State) (q : Nat) : State :=
  if q < 8 then
    match sinkOf s q with
    | [] =>
      let x := queueOf s (64 + q)
      setQueue s (64 + q) { x with frames := x.frames.drop 1 }
    | _ :: r => { s with fab := { s.fab with sink := SMap.setD s.fab.sink q [] r } }
  else { s with fab := { s.fab with recv := s.fab.recv.drop 1 } }

/-- The state without the first of them, which the mirror point of its die link sees whatever becomes of it (09 R371). -/
def popArrival (s : State) (q : Nat) : State :=
  match (arrivals s q).head? with
  | none => s
  | some e => dropArrival (if q < 8 then mirrorSee s 3 q 0 e.f else s) q

/-- The state with the frames on the die links changed. -/
def mapArrivals (s : State) (g : Nat → List QEntry → List QEntry) : State :=
  (List.range 8).foldl (fun s d =>
    let x := queueOf s (64 + d)
    let s := setQueue s (64 + d) { x with frames := g d x.frames }
    { s with fab := { s.fab with sink := SMap.setD s.fab.sink d [] (g d (sinkOf s d)) } }) s

/-- The state without any copy of a multicast frame on a die link: it is refused, or served, whole (R388, R399). The mirror
points of its die links have seen them. -/
def dropCopies (s : State) (uid : Nat) : State :=
  let seen := (List.range 8).foldl (fun s d =>
    ((arrivals s d).filter fun e => e.uid == uid).foldl (fun s e => mirrorSee s 3 d 0 e.f) s) s
  mapArrivals seen fun _ l => l.filter fun e => e.uid != uid

/-- The copies of a multicast frame on the die links carry the targets that its checks gave. -/
def markCopies (s : State) (uid : Nat) (ts : List Target) : State :=
  mapArrivals s fun d l => l.map fun e => if e.uid = uid then { e with tgt := ts.find? fun t => t.die == d } else e

/-- The targets of the first waiting frame: as already checked, or by the checks now. -/
def judge (s : State) (e : QEntry) : RecvRes :=
  match e.tgt with
  | some t => .passed t.win [t]
  | none => receiverCheck s e.f

/-! ### Order (R406, Table MEM-5; 07 R282) -/

/-- Are two frames of one ordered flow, or of one circuit? -/
def sameOrder (f g : Frame) : Bool :=
  f.src == g.src && f.dst == g.dst && f.job == g.job &&
  ((f.cls == 1 && g.cls == 1 && f.flow == g.flow) || (f.cls == 0 && g.cls == 0 && f.cid == g.cid))

/-- Is an earlier frame of the same order still queued at the receiver? -/
def aheadQueued (s : State) (e : QEntry) : Bool :=
  (List.range 9).any fun q => (arrivals s q).any fun x => decide (x.uid < e.uid) && sameOrder x.f e.f

/-- Are packets of a frame's flow on their way in a mesh, other than to `clus` of die `d`, where they keep their order
(07 R281)? -/
def aheadMesh (s : State) (f : Frame) (d : Nat) (clus : List Nat) : Bool :=
  decide (f.cls < 2) && s.fab.mesh.any fun m => m.2.inward.any fun p =>
    p.ord && p.flow == (f.src, f.dst, f.job, f.flow) && !(m.1 == d && p.mask.all fun i => memNat i clus && clus == [i])

/-- Does an atomic of a frame's flow wait at its unit? -/
def aheadAtomic (s : State) (f : Frame) : Bool :=
  f.cls != 2 && s.rem.atomics.any fun a => a.f.src == f.src && a.f.dst == f.dst && a.f.job == f.job

/-- Is a target cluster dozing (08 R331; 16 R586)? -/
def targetDozes (s : State) (ts : List Target) : Bool :=
  ts.any fun t => t.clus.any fun i => dozing s (160 * t.die + i)

/-- Do ordered packets go to a cluster of some targets? -/
def packetsTo (s : State) (ts : List Target) : Bool :=
  ts.any fun t => (meshOf s t.die).inward.any fun p => p.ord && p.mask.any fun i => memNat i t.clus

/-- Has a frame to wait before it takes effect whole: for a dozing cluster, for an earlier frame of its flow (Table MEM-5), or for
ordered packets on their way to its cluster? -/
def mustWait (s : State) (e : QEntry) (ts : List Target) : Bool :=
  targetDozes s ts || (e.f.cls != 2 && packetsTo s ts) || aheadQueued s e || aheadMesh s e.f 0 [] || aheadAtomic s e.f

/-! ### REMOTE_WRITE, REMOTE_READ, REMOTE_ATOMIC -/

/-- REMOTE_WRITE (R382, R387, R394): the first waiting frame, where it is a WRITE or of a type no window takes, is refused,
or written whole and counted. A multicast copy on a die link lands on that die; its checks bind every copy. -/
def remoteWrite (q : Fin 9) (s : State) : State :=
  match (arrivals s q.val).head? with
  | none => s
  | some e =>
    if 1 ≤ e.f.typ ∧ e.f.typ ≤ 4 then s
    else match judge s e with
      | .refused st why => refuseFrame (dropCopies (popArrival s q.val) e.uid) e.f 0 st why
      | .passed _ ts =>
        let here := if e.f.mc && q.val < 8 then ts.filter fun t => t.die == q.val else ts
        if mustWait s e here then s
        else
          let s := popArrival s q.val
          here.foldl (fun s t => land s e.f t) (if e.f.mc then markCopies s e.uid ts else s)

/-- n bytes at a target as a reader sees them: the answer's bytes, and whether an uncorrectable error was met (R659). -/
def readTarget (s : State) (t : Target) (n : Nat) : State × List Byte × Bool :=
  if t.deep then
    let r := meetDeep s 0 [(t.addr, n)]
    (r.1, readDeep s t.addr n, r.2)
  else
    let g := 160 * t.die + t.clus.headD 0
    let r := meetRuns s 0 (placeRuns s g t.fn t.addr n)
    (r.1, readPlace s g t.fn t.addr n, r.2)

/-- REMOTE_READ (R398, R659): the first waiting frame, where it is a READ, is checked, read and answered with one RDATA. -/
def remoteRead (q : Fin 9) (s : State) : State :=
  match (arrivals s q.val).head? with
  | none => s
  | some e =>
    if e.f.typ ≠ 1 then s
    else match receiverCheck s e.f with
      | .refused st why => refuseFrame (dropCopies (popArrival s q.val) e.uid) e.f (q.val % 8) st why
      | .passed _ ts =>
        match ts.head? with
        | none => s
        | some t =>
          if mustWait s e ts then s
          else
            let r := readTarget (popArrival s q.val) t (e.f.rlen * 16)
            if r.2.2 then answer r.1 e.f t.die 9 (zeros 16) else answer r.1 e.f t.die 0 r.2.1

/-- REMOTE_ATOMIC (R401, R402): the first waiting frame, where it is an ATOMIC, is checked and queued at the atomic unit of
its target; a cluster's unit holds 64. -/
def remoteAtomic (q : Fin 9) (s : State) : State :=
  match (arrivals s q.val).head? with
  | none => s
  | some e =>
    if e.f.typ ≠ 3 then s
    else match receiverCheck s e.f with
      | .refused st why => refuseFrame (dropCopies (popArrival s q.val) e.uid) e.f (q.val % 8) st why
      | .passed n ts =>
        match ts.head? with
        | none => s
        | some t =>
          let a : AtomicOp := ⟨e.f, n, t.deep, t.addr, t.die, 160 * t.die + t.clus.headD 0, t.fn, e.uid⟩
          if targetDozes s ts || packetsTo s ts || aheadQueued s e || aheadMesh s e.f 0 [] ||
              (!t.deep && decide (64 ≤ (s.rem.atomics.filter fun b => !b.deep && b.clu == a.clu).length)) then s
          else
            let s := popArrival s q.val
            { s with rem := { s.rem with atomics := s.rem.atomics ++ [a] } }

/-! ### Atomics (Table MEM-4, R403, R404) -/

/-- Do two atomics share a unit? -/
def sameUnit (a b : AtomicOp) : Bool :=
  a.deep == b.deep && (if a.deep then a.die == b.die && pcOf a.addr == pcOf b.addr else a.clu == b.clu)

/-- The first waiting atomic of an operation that no earlier one of its unit precedes, with the others. -/
def takeAtomic (aop : Nat) (before : List AtomicOp) : List AtomicOp → Option (AtomicOp × List AtomicOp)
  | [] => none
  | a :: r =>
    if a.f.aop = aop ∧ !before.any (sameUnit a) then some (a, before ++ r) else takeAtomic aop (before ++ [a]) r

/-- The target of an atomic. -/
def AtomicOp.target (a : AtomicOp) : Target := ⟨a.win, a.deep, a.addr, a.die, [a.clu % 160], a.fn⟩

/-- A byte run written at an atomic's target. -/
def writeAtomic (s : State) (a : AtomicOp) (bs : List Byte) : State :=
  if a.deep then
    { s with deep := { s.deep with mem := memWriteN s.deep.mem a.addr bs } }
  else landCluster s a.clu a.fn a.addr bs

/-- One atomic: its old bytes are read; where no error is met the operation gives the bytes to write and the answer's line
(R401, R659). -/
def doAtomic (s : State) (aop : Nat)
    (op : State → AtomicOp → List Byte → State × List Byte × List Byte) : State :=
  match takeAtomic aop [] s.rem.atomics with
  | none => s
  | some (a, rest) =>
    let s := { s with rem := { s.rem with atomics := rest } }
    let n := if a.f.asize = 0 then 4 else if a.f.asize = 1 then 8 else 48
    let r := readTarget s a.target n
    if r.2.2 then answer r.1 a.f a.die 9 (zeros 16)
    else
      let o := op r.1 a r.2.1
      answer (writeAtomic o.1 a o.2.1) a.f a.die 0 (padTo 16 o.2.2)

/-- The operand of an atomic: the low bytes of line 1 (R401). -/
def AtomicOp.operand (a : AtomicOp) : Nat := leAt a.f.payload 16 (atomicBytes a.f.asize)
/-- The compare value: the low bytes of line 2. -/
def AtomicOp.compare (a : AtomicOp) : Nat := leAt a.f.payload 32 (atomicBytes a.f.asize)

/-- ATOMIC_INTEGER_ADD (AOP 0). -/
def atomicIntegerAdd (s : State) : State :=
  doAtomic s 0 fun s a old => (s, leBytes old.length (leNat old + a.operand), old)

/-- ATOMIC_SWAP (AOP 1). -/
def atomicSwap (s : State) : State :=
  doAtomic s 1 fun s a old => (s, leBytes old.length a.operand, old)

/-- ATOMIC_COMPARE_SWAP (AOP 2). -/
def atomicCompareSwap (s : State) : State :=
  doAtomic s 2 fun s a old => (s, if leNat old = a.compare then leBytes old.length a.operand else old, old)

/-- FLUSHED, NANGEN and INFGEN are ORed into a die's `CPX_FPSTAT` (R403, R404). -/
def atomicFlags (s : State) (d : Nat) (fl : FpFlags) : State :=
  let off := R.cpxFpstat d
  wr s off (rd s off ||| (b2n fl.flushed + 2 * b2n fl.nangen + 4 * b2n fl.infgen))

/-- The FP32 sum of R403: FTZ of the target die, one rounding, canonical NaN. -/
def floatSum (ftz : Bool) (a b : Nat) : Nat × FpFlags :=
  let x := readElem .fp32 ftz a
  let y := readElem .fp32 ftz b
  let t := Num.add x.1 y.1
  let e := emitNum t.1 .fp32 ftz
  (e.1, (x.2.or y.2).or (e.2.or { FpFlags.none with nangen := t.2 }))

/-- ATOMIC_FLOATING_ADD (AOP 3; R403, R404): SIZE 0 rounds once and sets NONDET; SIZE 2 enters a partial word exactly. -/
def atomicFloatingAdd (s : State) : State :=
  doAtomic s 3 fun s a old =>
    if a.f.asize = 2 then
      let r := laEnter (Image.ofBytes old) (PartialWord.ofBytes ((a.f.payload.drop 16).take 16))
      let i := r.1
      let fl := b2n i.nan + 2 * b2n i.pinf + 4 * b2n i.ninf + 8 * b2n i.nonnegz
      (atomicFlags s a.die r.2, Image.bytes i, leBytes 4 i.cnt ++ leBytes 1 fl)
    else
      let r := floatSum (flag s (R.cpxFpmode a.die) 0) (leNat old) a.operand
      (raise (atomicFlags s a.die r.2) R.glbStatus 0, leBytes 4 r.1, old)

/-! ### Replies (R399, R400) -/

/-- The state without a request, whose host descriptor ends with a status. -/
def endRequest (s : State) (tag : Nat) (r : Request) (status : Nat) : State :=
  endHost { s with rem := { s.rem with requests := SMap.erase s.rem.requests tag } } r.fn r.ring r.idx status

/-- The RESULT of a host descriptor (14 R530). -/
def setResult (s : State) (r : Request) (v : Nat) : State :=
  { s with host := { s.host with descs := s.host.descs.map fun h =>
      if h.fn = r.fn ∧ h.ring = r.ring ∧ h.idx = r.idx then { h with result := v } else h } }

/-- A reply of a type at the head of a queue (R399): matched by RTAG, SRC and JOB, else counted as LATE; an OK reply is
checked through the windows, written at the return offset and counted; the request ends with the status. -/
def replyArrive (typ : Nat) (q : Fin 9) (s : State) : State :=
  match (arrivals s q.val).head? with
  | none => s
  | some e =>
    let f := e.f
    if f.typ ≠ typ then s
    else
      let popped := dropCopies (popArrival s q.val) e.uid
      match SMap.find s.rem.requests f.cid with
      | none => logRefusal popped f 9
      | some r =>
        if r.dst ≠ f.src ∨ r.job ≠ f.job then logRefusal popped f 9
        else if f.status ≠ 0 then endRequest popped f.cid r (reported f.status)
        else match receiverCheck s f with
          | .refused st why => endRequest (logRefusal popped f why) f.cid r st
          | .passed _ ts =>
            if targetDozes s ts then s
            else
              let s := ts.foldl (fun s t => land s f t) popped
              endRequest (if typ = 4 then setResult s r (leAt f.payload 0 8) else s) f.cid r 0

/-- RDATA_ARRIVE (R399). -/
def rdataArrive (q : Fin 9) (s : State) : State := replyArrive 2 q s
/-- ATRESP_ARRIVE (R399). -/
def atrespArrive (q : Fin 9) (s : State) : State := replyArrive 4 q s

/-- REQUEST_TIMEOUT (R400): a request with no reply 1 ms after its frame was admitted ends with TIMEOUT. -/
def requestTimeout (t : BitVec 12) (s : State) : State :=
  match SMap.find s.rem.requests t.toNat with
  | none => s
  | some r =>
    match r.admitted with
    | none => s
    | some t0 => if s.time.lamp < t0 + 1000000 then s else endRequest s t.toNat r 5

/-! ### The rows -/

/-- REMOTE_WRITE. -/
def execRemoteWrite (q : Met (Fin 9)) (s : State) : Out := .next (meeting q.ups (remoteWrite q.what) s)
/-- REMOTE_READ. -/
def execRemoteRead (q : Fin 9) (u : Upsets) (s : State) : Out := .next (meeting u (remoteRead q) s)
/-- REMOTE_ATOMIC. -/
def execRemoteAtomic (q : Fin 9) (s : State) : Out := .next (remoteAtomic q s)
/-- ATOMIC_INTEGER_ADD. -/
def execAtomicIntegerAdd (u : Upsets) (s : State) : Out := .next (meeting u atomicIntegerAdd s)
/-- ATOMIC_SWAP. -/
def execAtomicSwap (u : Upsets) (s : State) : Out := .next (meeting u atomicSwap s)
/-- ATOMIC_COMPARE_SWAP. -/
def execAtomicCompareSwap (u : Upsets) (s : State) : Out := .next (meeting u atomicCompareSwap s)
/-- ATOMIC_FLOATING_ADD. -/
def execAtomicFloatingAdd (u : Upsets) (s : State) : Out := .next (meeting u atomicFloatingAdd s)
/-- RDATA_ARRIVE. -/
def execRdataArrive (q : Met (Fin 9)) (s : State) : Out := .next (meeting q.ups (rdataArrive q.what) s)
/-- ATRESP_ARRIVE. -/
def execAtrespArrive (q : Met (Fin 9)) (s : State) : Out := .next (meeting q.ups (atrespArrive q.what) s)
/-- REQUEST_TIMEOUT. -/
def execRequestTimeout (t : BitVec 12) (s : State) : Out := .next (requestTimeout t s)

end Sys2Proof.Machine
end

