-- ==== Sys2Proof/Machine/Fabric.lean ====
section
/-! DEFINITION. Sys2Proof/Machine/Fabric.lean: the rows of the switch die: admission, arrival, transmission, die links and
mesh, sump, averages, histograms, canaries and mirror records (07, 08, 09). -/

namespace Sys2Proof.Machine

/-! ### Admission (09 R342, R346) -/

/-- Has the door hold of a frame's die room for it (Table SWQ-2: 2 MiB per die link)? -/
def doorRoom (s : State) (p : Pkt) : Bool :=
  match Origin.die p.org with
  | some d => decide (doorBytes s d none + p.f.size ≤ 2 * 1024 * 1024)
  | none => true

/-- FRAME_ADMIT: the n-th frame of local origin reaches the door, where no earlier one of its sender waits, where every packet of
it has crossed its die's mesh (07 R273, R281), and where the door hold has room. -/
def frameAdmit (n : Nat) (s : State) : State :=
  match s.outbox[n]? with
  | none => s
  | some p =>
    if (s.outbox.take n).any (fun q => Origin.sender q.org == Origin.sender p.org) || crossing s p || !doorRoom s p then s
    else atDoor { s with outbox := s.outbox.eraseIdx n } p

/-- SHAPER_PASS: the first frame that waits for shaper k passes once the bucket holds its tokens, and goes on to
policing. -/
def shaperPass (k : Fin 1026) (s : State) : State :=
  match takeFirst (fun x : DoorPkt => x.k == k.val) s.fab.door with
  | none => s
  | some (x, rest) =>
    match ((shpOf s k.val).tick s.time.now).pass x.pkt.f.size with
    | none => s
    | some sh =>
      let s := setShp { s with fab := { s.fab with door := rest } } k.val sh
      let s := throttle s x.pkt.org
      if closedFn s x.pkt.org then s else (police s x.pkt).1

/-- A waiting frame tried again: none where it still has to wait. A copy that waits for a port's control queue takes its place
there, or is sent elsewhere where its port has gone (15 R657); a bell that a device sent by that port is not. -/
def retryWait (s : State) (w : WaitPkt) : Option State :=
  let p := w.pkt
  match w.via with
  | some port =>
    let e : QEntry := ⟨p.uid, p.f, p.org, nowNs s, false, w.gsrc, none⟩
    if !portUp s port then some (if (Origin.arr p.org).isSome ∨ w.gsrc.isSome then reroute s e else s)
    else if 64 ≤ (ctlOf s port).length then none
    else some (setCtl s port (ctlOf s port ++ [e]))
  | none =>
    if closedFn s p.org then some s
    else
      let t := if w.cid.isSome then (admitPkt s p true).1 else (settle s p w.policed).1
      if t.fab.waiting.any (fun x => x.pkt.uid == p.uid) then none else some t

/-- Does an earlier waiting frame precede a waiting frame: of its sender and port, of its function and class (09 R347), of its
flow (07 R282), or of its circuit (Table CIR-1)? -/
def precedes (x w : WaitPkt) : Bool :=
  (Origin.sender x.pkt.org == Origin.sender w.pkt.org && x.via == w.via) || (w.policed && sameLine w.pkt x) ||
  (w.via.isNone && sameFlow w.pkt x) || (w.cid.isSome && x.cid == w.cid)

/-- ADMIT_RESUME: the n-th waiting frame, which no earlier one precedes, is placed once there is room. -/
def admitResume (n : Nat) (s : State) : State :=
  match s.fab.waiting[n]? with
  | none => s
  | some w =>
    if (s.fab.waiting.take n).any (fun x => precedes x w) then s
    else
      let s0 := { s with fab := { s.fab with waiting := s.fab.waiting.eraseIdx n } }
      match retryWait s0 w with
      | none => s
      | some t => throttle t w.pkt.org

/-! ### Arrival from ports (07 R270, R253; 18 R652) -/

/-- The frames received on a port and not yet at the door. -/
def rxOf (s : State) (p : Nat) : List RxPkt := SMap.getD s.fab.rx p []
/-- The state without the first of them. -/
def popRx (s : State) (p : Nat) : State :=
  { s with fab := { s.fab with rx := SMap.setD s.fab.rx p [] ((rxOf s p).drop 1) } }

/-- Does nothing run any more (R652: THERMTRIP, CLOCK)? -/
def dead (s : State) : Bool :=
  flag s R.glbFault 31 && (getF s R.glbFault 7 0 == 1 || getF s R.glbFault 7 0 == 2)
/-- Is transit stopped on a faulted device (R652)? -/
def transitOff (s : State) : Bool := flag s R.glbFault 31 && !flag s R.glbFctl 1

/-- An accepted frame from a port goes through the lookup; a faulted device carries what R652 allows. -/
def arriveOn (s : State) (p : Nat) (f : Frame) : State :=
  let r := newId s
  let s := r.2
  if dead s then s
  else if transitOff s then
    let x := routeFrame s (f.epoch % 2) f (some p)
    transitPut s r.1 (.port p) (x.copies.filter fun c => !c.tgt.isPort)
  else forward s r.1 (.port p) f (some p)

/-- A frame refused at the door of an arrival port (R270): counted; an ECRC failure is an event on the port. -/
def refuseAtDoor (s : State) (p chk : Nat) : State :=
  let s := doorCount s chk
  if chk = 0 then portEvent s p else s

/-- FRAME_ARRIVE: the first frame received on a port meets the door checks and is routed, delivered or discarded. Circuit
frames and TSYNC frames that pass belong to rows of their own; a replayed circuit frame falls back (15 R555). -/
def frameArrive (p : Port) (s : State) : State :=
  match (rxOf s p.val).head? with
  | none => s
  | some x =>
    let f := x.f
    match doorCheck s f (some p.val) with
    | some chk => refuseAtDoor (mirrorSee (popRx s p.val) 0 p.val 4 f) p.val chk
    | none =>
      if f.typ = 8 ∨ (f.cls = 0 ∧ !x.rpl) then s
      else
        let s := mirrorSee (popRx s p.val) 0 p.val 0 f
        let f := { f with age := nowNs s / 4 % 65536 }
        if f.isCircuitBell then { s with inbox := s.inbox ++ [⟨s.nextId, f, .port p.val⟩], nextId := s.nextId + 1 }
        else if f.cls = 0 then
          arriveOn (countFallback s) p.val { f with cls := 1, cid := 0 }
        else arriveOn s p.val f

/-- A circuit frame falls back on arrival (R323, R324). -/
def fallBackArrive (s : State) (p : Nat) (f : Frame) : State :=
  arriveOn (countFallback s) p { f with cls := 1, cid := 0 }

/-- A copy of a sunk circuit frame passes into its die link ahead of the packet queue (R312). -/
def intoSink (c : Copy) : Copy :=
  match c.tgt with
  | .die d => { c with tgt := .sink d }
  | .port _ => c
  | .ctl _ => c
  | .sink _ => c
  | .mill _ => c
  | .recv => c
  | .inbox => c

/-- CIRCUIT_FRAME_ARRIVE (R311, R312, R323, R325): `t` is the arrival time of the first byte in 1/64 ns of the time base.
The arrival slot is recovered; the frame goes on in slot a + 7 of EPORT, into its sink, or falls back. -/
def circuitFrameArrive (p : Port) (t : DWord) (s : State) : State :=
  match (rxOf s p.val).head? with
  | none => s
  | some x =>
    if x.f.cls ≠ 0 ∨ x.rpl ∨ x.f.typ = 8 then s
    else match doorCheck s x.f (some p.val) with
      | some chk => refuseAtDoor (mirrorSee (popRx s p.val) 0 p.val 4 x.f) p.val chk
      | none =>
        let s := mirrorSee (popRx s p.val) 0 p.val 0 x.f
        let f := { x.f with age := nowNs s / 4 % 65536 }
        let e := cirNow s f.cid
        let slot := (t.toNat - getF s (R.gngPdly p.val) 23 0) / 1536
        let a := slot + getF s (R.cirPort p.val) 5 0
        if dead s then s
        else if !cirValid e || cirRole e == 1 || cirRole e == 3 || cirState s f.cid != 2 ||
            bits e 31 16 != f.dst || bits e 43 32 != f.job || cirIport e != p.val then
          fallBackArrive s p.val f
        else if cirRole e = 0 then
          let g := cageOf s (cirBank s) (cirEport e) (a + 7)
          if 7 ≤ f.hops then doorCount s 3
          else if bit g 16 && bits g 15 0 == f.cid then
            let r := newId s
            { r.2 with cir := { r.2.cir with slots := r.2.cir.slots ++
                [⟨cirEport e, a + 7, ⟨r.1, f, .port p.val, nowNs s, false, none, none⟩⟩] } }
          else
            let s := closeCid (bump s R.cirCntSlotmiss 1) f.cid 9
            let s := sendCirBell (sendCirBell s (cirIport e) 5 f.cid 9) (cirEport e) 5 f.cid 9
            fallBackArrive s p.val f
        else
          let r := newId s
          let l := routeFrame r.2 (f.epoch % 2) f (some p.val)
          if l.hops || l.copies.any (fun c => c.tgt.isPort) then fallBackArrive s p.val f
          else transitPut (unreachable r.2 f.job l.lost) r.1 (.port p.val) (l.copies.map intoSink)

/-! ### Transmission (R254, R304 to R315, R658; 15 R550, R551, R554) -/

/-- The 8-byte head of a link unit (Table LNK-1). -/
def linkHead (s : State) (p kind lseq : Nat) (rpl : Bool) : List Byte :=
  let x := portOf s p
  leBytes 2 (lseq + 16384 * kind) ++ leBytes 2 (x.ack + 16384 * b2n x.nak + 32768 * b2n rpl) ++
  leBytes 1 (getF s (R.prtStat p) 11 8) ++ zeros 3

/-- A link unit: head, body, and the tail with LCRC (R550). -/
def linkUnit (s : State) (p kind lseq : Nat) (rpl : Bool) (body : List Byte) : List Byte :=
  let b := linkHead s p kind lseq rpl ++ body
  b ++ leBytes 4 (crc32c b) ++ zeros 4

/-- A frame as it leaves a port: HOPS has risen by 1 (R254). -/
def outFrame (f : Frame) : Frame := { f with hops := f.hops + 1 }

/-- May a port send one more frame (15 R551)? -/
def linkRoom (s : State) (p : Nat) : Bool := decide ((portOf s p).unacked.length < 8191)

/-- A frame is sent on a port under the next LSEQ and waits for its acknowledgement. -/
def sendOn (s : State) (p : Nat) (e : QEntry) : State :=
  let x := portOf s p
  let g := outFrame e.f
  let s := mirrorSee s 1 p 0 g
  let s := emit s (.linkUnit p (linkUnit s p 0 x.next false g.toBytes))
  setPort s p { x with
    next := (x.next + 1) % 16384
    unacked := x.unacked ++ [⟨x.next, e⟩]
    advanced := if x.unacked.isEmpty then s.time.lamp else x.advanced }

/-- The head of a port's control queue is sent, where there is one. -/
def sendCtl (s : State) (p : Nat) : State :=
  match ctlOf s p with
  | [] => s
  | e :: r =>
    if linkRoom s p then
      let t := sendOn (setCtl s p r) p e
      if e.f.isCircuitBell && e.f.code == 5 then finishClose t (e.f.arg % 65536) else t
    else s

/-- The head of a port's packet queue is sent, where it lies in the buffer. -/
def sendPacket (s : State) (p : Nat) : State :=
  match (queueOf s p).frames with
  | [] => s
  | e :: r =>
    if e.sump || !linkRoom s p then s
    else sendOn (setQueue s p { queueOf s p with frames := r }) p e

/-- The slot that the time base stands in (R304). -/
def slotNow (s : State) : Nat := nowNs s / 24

/-- What an 8-lane port's wire carries in the slots. -/
def wireOf (s : State) (p : Nat) : WireSt := SMap.getD s.cir.wire p ⟨0, 0, 0⟩
/-- The state with a port's wire. -/
def setWire (s : State) (p : Nat) (w : WireSt) : State :=
  { s with cir := { s.cir with wire := SMap.setD s.cir.wire p ⟨0, 0, 0⟩ w } }
/-- Has slot k of a port's wire been given its circuit frame or packet frames? -/
def slotServed (s : State) (p k : Nat) : Bool := decide (k < (wireOf s p).slot)

/-- The first byte of slot k's wire time that a frame may take now: 200 bytes pass in one ns, and the slot's wire time begins
12 ns after its start (R658). -/
def wireFrom (s : State) (p k : Nat) : Nat :=
  max (if slotServed s p k then (wireOf s p).used else 0) (200 * (nowNs s - (24 * k + 12)))

/-- The next packet frame in slot k, where it fits before the guard (R315, R658). -/
def sendInSlot (s : State) (p k : Nat) : Option State :=
  match (queueOf s p).frames.head? with
  | none => none
  | some e =>
    let o := wireFrom s p k + (e.f.size + 16)
    if 4736 < o ∨ e.sump ∨ !linkRoom s p then none
    else some (setWire (sendPacket s p) p { wireOf s p with slot := k + 1, used := o })

/-- Packet frames end to end in slot k, as many as fit (R658). -/
def sendFitting (s : State) (p k : Nat) : Nat → State
  | 0 => s
  | n + 1 =>
    match sendInSlot s p k with
    | none => s
    | some t => sendFitting t p k n

/-- The circuit frame committed to slot k of a port (R309, R311): the frame in transit for it, or the head of the source queue of
its circuit that was there at the start of the preceding slot. From T of a shift change on, sources commit no more frames
(Table CIR-8). -/
def committed (s : State) (p k : Nat) : Option (QEntry × State) :=
  match takeFirst (fun x : SlotFrame => x.port == p && x.slot == k) s.cir.slots with
  | some (x, rest) => some (x.e, { s with cir := { s.cir with slots := rest } })
  | none =>
    let g := cageOf s (cirBank s) p k
    let stopped := s.cir.drain.isSome && decide (rd64 s R.cirShiftat ≤ 24 * k - 24)
    if !bit g 16 ∨ stopped then none
    else match srcqOf s (bits g 15 0) with
      | [] => none
      | e :: r => if e.since + 24 ≤ 24 * k then some (e, setSrcq s (bits g 15 0) r) else none

/-- The head of the control queue goes into the next guard, which carries one control frame: the guard of wire slot w starts
23.68 ns into it (R658). -/
def sendGuard (s : State) (p : Nat) : State :=
  let g := (nowNs s - 12) / 24
  let t := sendCtl s p
  if g < (wireOf s p).guard ∨ (ctlOf s p).isEmpty ∨ !linkRoom s p then s
  else setWire t p { wireOf t p with guard := g + 1 }

/-- CAGE_SLOT_START: on an 8-lane port a slot not yet served carries its committed circuit frame, and nothing else, or packet
frames end to end; a control frame goes in the guard (R305, R315, R658). A circuit frame whose slot has passed falls back. -/
def cageSlotStart (p : Port) (s : State) : State :=
  if !portUp s p.val || getF s (R.prtStat p.val) 5 4 != 3 then s
  else
    let k := slotNow s
    let s := dropSlots s p.val fun x => decide (x.slot < k)
    let s :=
      if slotServed s p.val k then s
      else match (if linkRoom s p.val ∧ nowNs s ≤ 24 * k + 12 then committed s p.val k else none) with
        | some (e, t) => setWire (sendOn t p.val e) p.val { wireOf t p.val with slot := k + 1, used := 4736 }
        | none => sendFitting s p.val k 256
    sendGuard s p.val

/-- PORT_TRANSMIT: a port takes the next frame from its queue. An UP port of 8 lanes sends a packet frame where it fits the slot,
unless the slot has a committed circuit frame, and else a control frame in the guard; a narrower one sends a control frame first.
A FAILING port sends its bells, at most 16 of them and none after 1 microsecond (Table LNK-6). -/
def portTransmit (p : Port) (s : State) : State :=
  let x := portOf s p.val
  if portState s p.val = 3 then
    if 16 ≤ x.bells ∨ x.since + 1000 < s.time.lamp ∨ x.failSent ∨ (ctlOf s p.val).isEmpty then s
    else
      let t := sendCtl s p.val
      setPort t p.val { portOf t p.val with bells := x.bells + 1 }
  else if !portUp s p.val then s
  else if getF s (R.prtStat p.val) 5 4 = 3 then
    let k := slotNow s
    let kept := !slotServed s p.val k && (committed s p.val k).isSome
    match (if kept then none else sendInSlot s p.val k) with
    | some t => t
    | none => sendGuard s p.val
  else if (ctlOf s p.val).isEmpty then sendPacket s p.val else sendCtl s p.val

/-! ### Die links and mesh (R272, R273, R281, R285; 16 R586) -/

/-- DIE_LINK_SEND: the next frame of a die link, where it is a WRITE, is refused by the receiver, written to deep store and
counted, or cut into packets for its clusters, which enter the mesh at the edge (R274, R275). A frame for a dozing cluster is held
at the die-link interface (16 R586). -/
def dieLinkSend (d : Die) (s : State) : State :=
  match (arrivals s d.val).head? with
  | none => s
  | some e =>
    if e.sump ∨ (1 ≤ e.f.typ ∧ e.f.typ ≤ 4) then s
    else match judge s e with
      | .refused st why => refuseFrame (dropCopies (popArrival s d.val) e.uid) e.f 0 st why
      | .passed _ ts =>
        match ts.find? fun t => t.die == d.val with
        | none => popArrival s d.val
        | some t =>
          if targetDozes s [t] || aheadQueued s e || aheadMesh s e.f d.val (if t.deep then [] else t.clus) ||
              aheadAtomic s e.f then s
          else
            let s := popArrival s d.val
            let s := if e.f.mc then markCopies s e.uid ts else s
            if t.deep ∨ t.clus.isEmpty then land s e.f t
            else setMesh s d.val (edgeFrame (meshOf s d.val) e.uid t.win t.addr t.fn (tallyInc e.f) t.clus e.f e.f.mc)

/-- MESH_PACKET_ARRIVE: the n-th of the packets that a die's clusters have accepted is written at its cluster, where the cluster is
awake and no earlier ordered packet for it stands before it; with its frame's last packet on the die the frame counts on the
tally (R273, R394). -/
def meshPacketArrive (d : Die) (n : Nat) (s : State) : State :=
  let m := meshOf s d.val
  match m.ready[n]? with
  | none => s
  | some (i, k) =>
    let g := 160 * d.val + i
    if dozing s g || (k.ord && (m.ready.take n).any fun x => x.2.ord && x.1 == i) then s
    else
      let s := setMesh s d.val { m with ready := m.ready.eraseIdx n }
      if !holds s g k.fn then s
      else
        let s := landCluster s g k.fn k.addr k.bytes
        if (meshOf s d.val).inward.any fun x => x.uid == k.uid then s
        else landTally s k.fn d.val k.tally k.tinc

/-! ### The sump (R364; 06 R234, R235) -/

/-- The errors that one read met in a range of a stack: corrected ones count and are events on their rows; the first
uncorrectable one is counted, logged for reader SRC and counts three. -/
def meetOnce (s : State) (src lo n : Nat) (u : Upsets) : State × Bool :=
  let hit : Nat → Bool := fun a => decide (lo ≤ a) && decide (a < lo + n)
  let s := u.lost.foldl losePc s
  let s := (u.deepCe.filter hit).foldl (fun s c => rowEvent (bumpF s R.dstEcc 15 0 1) c 1) s
  match (u.deepUe.filter hit).head? with
  | none => (s, false)
  | some c => (rowEvent (logDeepUe s src (c / 64 * 64)) c 3, true)

/-- SUMP_READBACK: the first sump frame of packet queue q is read back into the pool, where it has room; an uncorrectable
error discards it, sets SUMPLOSS and is a device fault. -/
def sumpReadback (q : Fin 72) (u : Upsets) (s : State) : State :=
  let x := queueOf s q.val
  match takeFirst (fun e : QEntry => e.sump) x.frames with
  | none => s
  | some (e, rest) =>
    if !poolRoom s e.f then s
    else
      let k := q.val % 8
      let r := meetOnce s 1 (k * stackSize + sumpStart s) (sumpUnits s * 0x10000000) u
      if r.2 then
        deviceFault (raise (setQueue r.1 q.val { x with frames := rest }) R.dstStat 3) 0x04 0
      else
        setQueue r.1 q.val { x with frames := updFirst (fun e : QEntry => e.sump) (fun e => { e with sump := false }) x.frames }

/-! ### Watching the queues (R358, R367, R369) -/

/-- An average after one update, rounded toward minus infinity to 1/256 B (R358). -/
def avgStep (avg depth w : Nat) : Nat :=
  ((avg : Int) + ((256 * depth : Nat) - (avg : Int)) / ((2 ^ w : Nat) : Int)).toNat

/-- QUEUE_AVG_UPDATE: every 64 switch-die cycles (51.2 ns) every queue's average is updated; mill inputs are kept under
72 + m. -/
def queueAvgUpdate (s : State) : State :=
  if 5 * s.time.lamp < s.fab.avgAt + 256 then s
  else
  let s := { s with fab := { s.fab with avgAt := s.fab.avgAt + 256 } }
  (List.range 88).foldl (fun s q =>
    let x := queueOf s q
    setQueue s q { x with avg := avgStep x.avg (depthQ s q) (getF s R.swqCtl 19 16) }) s

/-- The depth bin of R367. -/
def depthBin (n : Nat) : Nat := if n = 0 then 0 else min 15 (max 1 (Nat.log2 n - 8))
/-- The delay bin of R367. -/
def delayBin (n : Nat) : Nat := if n < 32 then 0 else min 15 (Nat.log2 n - 4)

/-- HISTOGRAM_SAMPLE: every `SWQ_HCTL.SPER` switch-die cycles one depth bin and one delay bin of each packet queue rise by 1; a bin
holds at its largest value. -/
def histogramSample (s : State) : State :=
  let per := 4 * getF s R.swqHctl 15 0
  if 5 * s.time.lamp < s.fab.sampleAt + per then s
  else
  let s := { s with fab := { s.fab with sampleAt := s.fab.sampleAt + per } }
  (List.range 72).foldl (fun s q =>
    let wait := match (queueOf s q).frames with
      | [] => 0
      | e :: _ => nowNs s - e.since
    let kd := 16 * q + depthBin (depthOf s q)
    let kw := 16 * q + delayBin wait
    { s with fab := { s.fab with
        liveDep := SMap.put s.fab.liveDep kd (satAdd 32 (SMap.getD s.fab.liveDep kd 0) 1)
        liveDly := SMap.put s.fab.liveDly kw (satAdd 32 (SMap.getD s.fab.liveDly kw 0) 1) } }) s

/-- Is a probe slot's canary due: none sent since it was enabled, or PERIOD microseconds ago (R369; log 95)? -/
def canaryDue (s : State) (k : Nat) : Bool :=
  match SMap.find s.fab.probeAt k with
  | none => true
  | some t => decide (t + 1000 * getF s (R.swqCny0 k) 23 8 ≤ s.time.lamp)

/-- CANARY_SEND: an enabled probe slot whose canary is due sends a CANARY from the device's gang-unit endpoint (log 87). -/
def canarySend (n : Fin 8) (s : State) : State :=
  let k := n.val
  if !flag s (R.swqCny0 k) 31 || !canaryDue s k then s
  else
    let q := SMap.getD s.fab.probeSeq k 0
    let s := bump { s with fab := { s.fab with probeSeq := SMap.put s.fab.probeSeq k ((q + 1) % 8192), probeAt := SMap.put s.fab.probeAt k s.time.lamp } } (R.swqCny5 k) 1
    sendFrame s (.device 0x7F4) { Frame.blank with
      typ := 7, cls := getF s (R.swqCny0 k) 1 0, dst := getF s (R.swqCny1 k) 15 0, src := getF s R.gngUep 15 0,
      job := getF s (R.swqCny1 k) 27 16, len := 1, tsw := getF s (R.swqCny0 k) 2 2 + 65536 * (k + 8 * q),
      payload := leBytes 8 (nowNs s) ++ zeros 8 }

/-- A delay between two times in 32 bits: held at the largest value, and a free value where the clocks' skew makes it
negative (log 35). -/
def delayOf (s : State) (a b : Nat) : Nat × State :=
  if b ≤ a then (min (a - b) (2 ^ 32 - 1), s) else fresh s 32

/-- A returned canary updates its probe slot (R369). -/
def canaryReturn (s : State) (f : Frame) : State :=
  let k := f.tsw / 65536 % 8
  let q := f.tsw / 65536 / 8
  let s := bump s (R.swqCny6 k) 1
  if (q + 1) % 8192 ≠ SMap.getD s.fab.probeSeq k 0 then s
  else
    let r := delayOf s (nowNs s) (leAt f.payload 0 8)
    let w := delayOf r.2 (leAt f.payload 8 8) (leAt f.payload 0 8)
    let s := wr (wr w.2 (R.swqCny2 k) r.1) (R.swqCny4 k) w.1
    if rd s (R.swqCny3 k) < r.1 then wr s (R.swqCny3 k) r.1 else s

/-- CANARY_ARRIVE (R369): the first canary delivered here is echoed, returns to its slot, or is recorded. -/
def canaryArrive (s : State) : State :=
  match takeFirst (fun p : Pkt => p.f.typ == 7) s.inbox with
  | none => s
  | some (p, rest) =>
    let s := { s with inbox := rest }
    let f := p.f
    if f.tsw % 2 = 1 then
      sendFrame s (.device 0x7F4) { Frame.blank with
        typ := 7, cls := if f.cls = 3 then 3 else 1, dst := f.src,
        src := if f.mc then getF s R.gngUep 15 0 else f.dst, job := f.job, len := 1, tsw := f.tsw - 1,
        payload := f.payload.take 8 ++ leBytes 8 (nowNs s) }
    else if !zeroAt f.payload 8 8 then canaryReturn s f
    else
      let r := delayOf s (nowNs s) (leAt f.payload 0 8)
      wr64 r.2 R.swqCrx (r.1 + 2 ^ 32 * (f.tsw / 65536) + 2 ^ 48 * f.src)

/-! ### Mirror records (R373) -/

/-- MIRROR_RECORD_WRITE: the oldest record leaves deep store for the host ring or the service processor's buffer, where it
has room; a record that meets an uncorrectable error is discarded. -/
def mirrorRecordWrite (u : Upsets) (s : State) : State :=
  match s.fab.mirRecs with
  | [] => s
  | r :: rest =>
    let ringSize := 2 ^ getF s R.mirRsize 4 0
    let toSp := flag s R.mirCtl 30
    let room := if toSp then decide ((s.fab.mirBuf.length + 1) * 160 ≤ 131072)
      else decide ((rd s R.mirProd + (2 ^ 32 - rd s R.mirCons)) % 2 ^ 32 < ringSize)
    if !room then s
    else
      let m := (List.range 8).foldl (fun (acc : State × Bool) d =>
        if acc.2 then acc else meetOnce acc.1 2 (d * stackSize + 0x2FFC000000) 0x4000000 u) (s, false)
      let s := { m.1 with fab := { m.1.fab with mirRecs := rest } }
      if m.2 then s
      else if toSp then { s with fab := { s.fab with mirBuf := s.fab.mirBuf ++ [r] } }
      else
        let i := rd s R.mirProd
        wr (hostWrite s 0 (rd64 s R.mirRbase / 4096 * 4096 + 160 * (i % ringSize)) r) R.mirProd (i + 1)

/-! ### The rows -/

/-- FRAME_ADMIT. -/
def execFrameAdmit (n : Nat) (s : State) : Out := .next (frameAdmit n s)
/-- SHAPER_PASS. -/
def execShaperPass (k : Fin 1026) (s : State) : Out := .next (shaperPass k s)
/-- ADMIT_RESUME. -/
def execAdmitResume (n : Nat) (s : State) : Out := .next (admitResume n s)
/-- FRAME_ARRIVE. -/
def execFrameArrive (p : Port) (s : State) : Out := .next (frameArrive p s)
/-- CIRCUIT_FRAME_ARRIVE. -/
def execCircuitFrameArrive (p : Port) (t : DWord) (s : State) : Out := .next (circuitFrameArrive p t s)
/-- CAGE_SLOT_START. -/
def execCageSlotStart (p : Port) (s : State) : Out := .next (cageSlotStart p s)
/-- PORT_TRANSMIT. -/
def execPortTransmit (p : Port) (s : State) : Out := .next (portTransmit p s)
/-- DIE_LINK_SEND. -/
def execDieLinkSend (d : Die) (s : State) : Out := .next (dieLinkSend d s)
/-- MESH_PACKET_ARRIVE. -/
def execMeshPacketArrive (d : Die) (n : Met Nat) (s : State) : Out := .next (meeting n.ups (meshPacketArrive d n.what) s)
/-- SUMP_READBACK. -/
def execSumpReadback (q : Fin 72) (u : Upsets) (s : State) : Out := .next (sumpReadback q u s)
/-- QUEUE_AVG_UPDATE. -/
def execQueueAvgUpdate (s : State) : Out := .next (queueAvgUpdate s)
/-- HISTOGRAM_SAMPLE. -/
def execHistogramSample (s : State) : Out := .next (histogramSample s)
/-- CANARY_SEND. -/
def execCanarySend (n : Fin 8) (s : State) : Out := .next (canarySend n s)
/-- CANARY_ARRIVE. -/
def execCanaryArrive (s : State) : Out := .next (canaryArrive s)
/-- MIRROR_RECORD_WRITE. -/
def execMirrorRecordWrite (u : Upsets) (s : State) : Out := .next (mirrorRecordWrite u s)

end Sys2Proof.Machine
end

