-- ==== Sys2Proof/Machine/Circuit.lean ====
section
/-! DEFINITION. Sys2Proof/Machine/Circuit.lean: the flip of the fabric's banks (07 R295 to R297), circuit bells, closes and
timeouts, and the shift change (08 R316 to R336). -/

namespace Sys2Proof.Machine

/-! ### The flip of the fabric's banks (R269, R295, R296, R660) -/

/-- An armed FAB flip: CUR rises modulo 4, the banks swap, RET sets, ARM clears, the hash seed is taken, and the frames
that wait in admission are judged again. -/
def fabFlip (s : State) : State :=
  let cur := (curEpoch s + 1) % 4
  let s := setF (setF (setF (setF s R.fabEpoch 1 0 cur) R.fabEpoch 2 2 (cur % 2)) R.fabEpoch 4 4 1) R.fabEpoch 8 8 0
  let s := setF s R.fabHashseed 31 16 (getF s R.fabHashseed 15 0)
  rejudge { s with fab := { s.fab with flipAt := s.time.lamp, hold := getF s R.fabRetain 6 0 } }

/-! ### Bells (R316 to R322) -/

/-- The first circuit bell of a code that arrived by a port, its port, and the state without it. -/
def takeCirBell (s : State) (code : Nat) : Option (Frame × Nat × State) :=
  let isIt : Pkt → Bool := fun p => p.f.isCircuitBell && p.f.code == code && (Origin.arr p.org).isSome
  match takeFirst isIt s.inbox with
  | none => none
  | some (p, rest) => some (p.f, (Origin.arr p.org).getD 0, { s with inbox := rest })

/-- The CID of a circuit bell. -/
def bellCid (f : Frame) : Nat := f.arg % 65536
/-- The status of a circuit bell. -/
def bellStatus (f : Frame) : Nat := reported (f.arg / 65536 % 16)

/-- The last refusal status of a CID is recorded in its live word (`CIR_TSEL` TBL 2). -/
def setRefusal (s : State) (cid status : Nat) : State :=
  { s with cir := { s.cir with live := SMap.setD s.cir.live cid 0 (setBits (SMap.getD s.cir.live cid 0) 7 4 status) } }

/-- Is a port up at 8 lanes with a valid lag (R313, R314)? -/
def cirReady (s : State) (p : Nat) : Bool :=
  portUp s p && getF s (R.prtStat p) 5 4 == 3 && flag s (R.cirPort p) 31

/-- A refused REQUEST is answered on its arrival port; the bell's own DST and JOB stand where the entry is not valid. -/
def refuseRequest (s : State) (p : Nat) (f : Frame) (status : Nat) : State :=
  let s := setRefusal s (bellCid f) status
  let e := cirNow s (bellCid f)
  if cirValid e then sendCirBell s p 4 (bellCid f) status
  else sendCirBellTo s p f.dst f.job 4 (bellCid f) status

/-- CIRCUIT_REQUEST (R317): the first REQUEST is checked in order, forwarded, granted or refused. -/
def circuitRequest (s : State) : State :=
  match takeCirBell s 2 with
  | none => s
  | some (f, p, s) =>
    let cid := bellCid f
    let e := cirNow s cid
    if !cirValid e || cirRole e == 1 || cirRole e == 3 || cirIport e != p then refuseRequest s p f 4
    else if cirState s cid ≠ 0 then refuseRequest s p f 3
    else if s.cir.drain.isSome then refuseRequest s p f 2
    else if !flag s (R.cirPort p) 31 || (cirRole e == 0 && !cirReady s (cirEport e)) then refuseRequest s p f 9
    else if cirRole e = 0 then sendCirBell (setCir s cid 1) (cirEport e) 2 cid 0
    else sendCirBell (setCir s cid 2) p 3 cid 0

/-- CIRCUIT_GRANT (R318, R319): a PENDING CID opens; a transit device passes the GRANT back, and the source's open descriptor
completes with OK. -/
def circuitGrant (s : State) : State :=
  match takeCirBell s 3 with
  | none => s
  | some (f, _, s) =>
    let cid := bellCid f
    let e := cirNow s cid
    if cirState s cid ≠ 1 then s
    else
      let s := setCir s cid 2
      if cirRole e = 0 then sendCirBell s (cirIport e) 3 cid 0 else endOpens s cid 0

/-- CIRCUIT_REFUSE (R318, R319, R662): a CID that is not CLOSED closes; a transit device passes the REFUSE back, and the
source's open descriptor completes with the carried status. -/
def circuitRefuse (s : State) : State :=
  match takeCirBell s 4 with
  | none => s
  | some (f, _, s) =>
    let cid := bellCid f
    let e := cirNow s cid
    if cirState s cid = 0 then s
    else
      let s := setRefusal (closeCid s cid (bellStatus f)) cid (bellStatus f)
      if cirRole e = 0 then sendCirBell s (cirIport e) 4 cid (bellStatus f) else s

/-- CIRCUIT_TEARDOWN (R320, R321, R662, R663): the CID closes; a transit device will forward the TEARDOWN, 216 ns later, away
from the side that it came from. -/
def circuitTeardown (s : State) : State :=
  match takeCirBell s 5 with
  | none => s
  | some (f, p, s) =>
    let cid := bellCid f
    let e := cirNow s cid
    let s := closeCid s cid 9
    let due := nowNs s + 216
    if !cirValid e || cirRole e != 0 then s
    else if cirIport e = p then
      { s with cir := { s.cir with fwd := s.cir.fwd ++ [⟨cid, cirEport e, bellStatus f, due⟩] } }
    else if cirEport e = p then
      { s with cir := { s.cir with fwd := s.cir.fwd ++ [⟨cid, cirIport e, bellStatus f, due⟩] } }
    else s

/-- TEARDOWN_FORWARD (R320): a TEARDOWN that is due is sent on. -/
def teardownForward (cid : BitVec 16) (s : State) : State :=
  match takeFirst (fun x : TearFwd => x.cid == cid.toNat && decide (x.due ≤ nowNs s)) s.cir.fwd with
  | none => s
  | some (x, rest) => sendCirBell { s with cir := { s.cir with fwd := rest } } x.port 5 x.cid x.status

/-- CIRCUIT_HANDSHAKE_TIMEOUT (R319, R662): an open with no GRANT and no REFUSE within TMO completes with TIMEOUT; the source
marks the CID CLOSED and sends TEARDOWN. -/
def circuitHandshakeTimeout (cid : BitVec 16) (s : State) : State :=
  let c := cid.toNat
  let late := s.cir.opens.any fun w => w.cid == c && decide (w.since + 1000 * getF s R.cirPtmo 7 0 ≤ s.time.lamp)
  if !late ∨ cirState s c ≠ 1 then s
  else sendCirBell (raise (closeCid s c 5) R.cirStat 2) (cirEport (cirNow s c)) 5 c 5

/-- CIRCUIT_CLOSE_SEND (R320, R663): once the last bound frame of a closing CID has left, the CID is CLOSED and TEARDOWN is
sent; an open that still waits completes with ABORTED; the close completes when the TEARDOWN has left. -/
def circuitCloseSend (cid : BitVec 16) (s : State) : State :=
  let c := cid.toNat
  if memNat c s.cir.closing && (srcqOf s c).isEmpty then
    let s := { s with cir := { s.cir with closing := s.cir.closing.filter (· != c) } }
    let s := endOpens (setCir s c 0) c 8
    finishClose (sendCirBell s (cirEport (cirNow s c)) 5 c 0) c
  else finishClose s c

/-! ### Shift change (R333 to R336) -/

/-- SHIFT_CHANGE_BELL (R333, R334): T is copied into `CIR_SHIFTAT`, or the device is not armed: SHERR and a FAULT bell. -/
def shiftChangeBell (s : State) : State :=
  match takeFirst (fun p : Pkt => p.f.typ == 6 && p.f.code == 7) s.inbox with
  | none => s
  | some (p, rest) =>
    let s := { s with inbox := rest }
    if !flag s R.cirCtl 8 then faultBell (raise s R.cirStat 4) 0x11 0 p.f.job
    else
      let s := wr64 s R.cirShiftat (leAt p.f.payload 0 8)
      { s with cir := { s.cir with fired := false } }

/-- SHIFT_CHANGE_START (R334, R335): the time base has reached T. Unarmed: SHERR and T back to 0. Armed: the drain starts. -/
def shiftChangeStart (s : State) : State :=
  let t := rd64 s R.cirShiftat
  if t = 0 ∨ nowNs s < t ∨ s.cir.fired ∨ s.cir.drain.isSome then s
  else if !flag s R.cirCtl 8 then wr64 (raise s R.cirStat 4) R.cirShiftat 0
  else { s with cir := { s.cir with drain := some (s.time.lamp + 1000 * getF s R.cirCtl 19 16), fired := true } }

/-- Every AUTO entry of the active bank opens whose ports here are up at 8 lanes with a valid lag (R314, R335). -/
def openAuto (s : State) : State :=
  (s.cir.entries.filter fun x => x.1 / 65536 == cirBank s && cirValid x.2 && bit x.2 15).foldl (fun s x =>
    let ok := (cirRole x.2 == 1 || cirReady s (cirIport x.2)) && (cirRole x.2 == 2 || cirReady s (cirEport x.2))
    if ok then setCir s (x.1 % 65536) 2 else s) s

/-- A frame that waited in an old source queue binds to the new bank's source entry, or takes CLASS 1 (R308, R335). -/
def rebind (s : State) (e : QEntry) : State :=
  match sourceCid s e.f.dst e.f.job with
  | some cid =>
    let g := if e.f.typ = 6 ∨ e.f.typ = 8 then e.f else { e.f with cid := cid }
    setSrcq s cid (srcqOf s cid ++ [{ e with f := g, since := nowNs s }])
  | none => fallBackOn s e

/-- The flip of the CIR bank at a shift change: every circuit closes, with the opens and closes that wait; the bank swaps,
ARM clears, AUTO circuits open, waiting source frames bind anew, and frames in transit on an old circuit fall back (R335,
R336). -/
def cirShift (s : State) : State :=
  let waiting := s.cir.srcq.flatMap (·.2)
  let moving := s.cir.slots.map (·.e)
  let s := (liveCids s).foldl (fun s c => setCir s c 0) s
  let s := (s.cir.opens.map (·.cid)).foldl (fun s c => endOpens s c 8) s
  let s := (s.cir.closes.map (·.cid)).foldl (fun s c => endCloses s c 0) s
  let s := { s with cir := { s.cir with srcq := [], slots := [], closing := [] } }
  let s := setF (setF s R.cirCtl 0 0 (1 - cirBank s)) R.cirCtl 8 8 0
  moving.foldl fallBackOn (waiting.foldl rebind (openAuto s))

/-- SHIFT_CHANGE_FLIP (R335): at the end of the drain the FAB banks flip if they are armed, and the CIR bank flips if it
still is. -/
def shiftChangeFlip (s : State) : State :=
  match s.cir.drain with
  | none => s
  | some t =>
    if s.time.lamp < t then s
    else
      let s := { s with cir := { s.cir with drain := none } }
      let s := if flag s R.fabEpoch 8 then fabFlip s else s
      if flag s R.cirCtl 8 then cirShift s else s

/-! ### The rows -/

/-- CIRCUIT_REQUEST. -/
def execCircuitRequest (s : State) : Out := .next (circuitRequest s)
/-- CIRCUIT_GRANT. -/
def execCircuitGrant (s : State) : Out := .next (circuitGrant s)
/-- CIRCUIT_REFUSE. -/
def execCircuitRefuse (s : State) : Out := .next (circuitRefuse s)
/-- CIRCUIT_TEARDOWN. -/
def execCircuitTeardown (s : State) : Out := .next (circuitTeardown s)
/-- TEARDOWN_FORWARD. -/
def execTeardownForward (cid : BitVec 16) (s : State) : Out := .next (teardownForward cid s)
/-- CIRCUIT_HANDSHAKE_TIMEOUT. -/
def execCircuitHandshakeTimeout (cid : BitVec 16) (s : State) : Out := .next (circuitHandshakeTimeout cid s)
/-- CIRCUIT_CLOSE_SEND. -/
def execCircuitCloseSend (cid : BitVec 16) (s : State) : Out := .next (circuitCloseSend cid s)
/-- SHIFT_CHANGE_BELL. -/
def execShiftChangeBell (s : State) : Out := .next (shiftChangeBell s)
/-- SHIFT_CHANGE_START. -/
def execShiftChangeStart (s : State) : Out := .next (shiftChangeStart s)
/-- SHIFT_CHANGE_FLIP. -/
def execShiftChangeFlip (s : State) : Out := .next (shiftChangeFlip s)

end Sys2Proof.Machine
end

