-- ==== Sys2Proof/Machine/Mill.lean ====
section
/-! DEFINITION. Sys2Proof/Machine/Mill.lean: the mills (11_mills.md): the checks at the mill, the handler, the scalar and
bulk instructions of mill code version 1, traps, and the removal of streams. A bulk instruction is done whole where it is
issued, which is one of the orders R422 permits (log 40). -/

namespace Sys2Proof.Machine

/-! ### Words, registers and records -/

/-- What an instruction works on: the mill, its handler and the word. -/
structure MCtx where
  m : Nat
  h : HandlerSt
  w : Nat
deriving DecidableEq, Repr

/-- The fields of an instruction word (Table MIL-6). -/
def MCtx.op (c : MCtx) : Nat := bits c.w 31 26
/-- Field d. -/
def MCtx.d (c : MCtx) : Nat := bits c.w 25 22
/-- Field a. -/
def MCtx.a (c : MCtx) : Nat := bits c.w 21 18
/-- Field b. -/
def MCtx.b (c : MCtx) : Nat := bits c.w 17 14
/-- Field x. -/
def MCtx.x (c : MCtx) : Nat := bits c.w 13 0
/-- Field imm, unsigned. -/
def MCtx.imm (c : MCtx) : Nat := bits c.w 17 0
/-- Field imm, signed. -/
def MCtx.simm (c : MCtx) : Int := sext 18 c.imm

/-- The stream of a handler. -/
def MCtx.st (c : MCtx) (s : State) : StreamSt := streamOf s c.m c.h.stream

/-- A field of n bytes of a stream entry (Table MIL-4). -/
def StreamSt.fld (x : StreamSt) (o n : Nat) : Nat := leAt x.bytes o n

/-- Register gi as a handler reads it: g0 is 0, g1 to g7 are the handler's, g8 to g15 the stream's (R421). -/
def MCtx.reg (c : MCtx) (s : State) (i : Nat) : Nat :=
  if i = 0 then 0 else if i < 8 then c.h.regs.getD (i - 1) 0 else (c.st s).regs.getD (i - 8) 0

/-- The state with the running handler of a mill. -/
def setHandler (s : State) (m : Nat) (h : HandlerSt) : State := setMill s m { millOf s m with run := some h }

/-- Register gi written by a handler, modulo 2^64; g0 ignores writes. -/
def MCtx.setReg (c : MCtx) (s : State) (i v : Nat) : State × HandlerSt :=
  if i = 0 then (s, c.h)
  else if i < 8 then (s, { c.h with regs := c.h.regs.set (i - 1) (v % 2 ^ 64) })
  else (setStream s c.m c.h.stream { c.st s with regs := (c.st s).regs.set (i - 8) (v % 2 ^ 64) }, c.h)

/-- A byte run cut into records of n bytes. -/
def recordsOf (n : Nat) (bs : List Byte) : Nat → List (List Byte)
  | 0 => []
  | k + 1 => if bs.isEmpty then [] else bs.take n :: recordsOf n (bs.drop n) k

/-- The record size of an rf (Table MIL-10); 0 where it is reserved. -/
def rfSize (rf : Nat) : Nat :=
  if rf = 0 then 16 else if rf = 1 then 48 else if rf = 2 then 4 else if rf = 3 ∨ rf = 4 then 2 else 0

/-- The accumulator A(i) of a handler's stream. -/
def accOf (s : State) (m j : Nat) : Image := SMap.getD (millOf s m).accs j Image.empty
/-- The state with an accumulator. -/
def setAcc (s : State) (m j : Nat) (v : Image) : State :=
  setMill s m { millOf s m with accs := SMap.setD (millOf s m).accs j Image.empty v }
/-- A counter of a mill. -/
def ctrOf (s : State) (m j : Nat) : Nat := SMap.getD (millOf s m).ctrs j 0
/-- The state with a counter, modulo 2^32. -/
def setCtr (s : State) (m j v : Nat) : State :=
  setMill s m { millOf s m with ctrs := SMap.setD (millOf s m).ctrs j 0 (v % 2 ^ 32) }

/-- Arithmetic flags ORed into a stream's FLAGS (R431). -/
def streamFlags (s : State) (m n : Nat) (fl : FpFlags) : State :=
  let w := b2n fl.flushed + 2 * b2n fl.nangen + 4 * b2n fl.infgen + 8 * b2n fl.ovf
  setStream s m n { streamOf s m n with flags := (streamOf s m n).flags ||| w }
/-- DETL of a stream. -/
def StreamSt.detl (x : StreamSt) : Bool := bit x.flags 5
/-- NONDET of a stream and of the device (R435, R437, R439). -/
def setNondet (s : State) (m n : Nat) : State :=
  raise (setStream s m n { streamOf s m n with flags := (streamOf s m n).flags ||| 16 }) R.glbStatus 0

/-! ### The handler's step (R421 to R425, R444) -/

/-- What an instruction does: it goes on with a state, the handler's registers and the next address; it ends the handler; or
it traps with a code, what it did before standing. -/
inductive MRes where
  | go (s : State) (h : HandlerSt) (pc : Int)
  | done (s : State)
  | trap (s : State) (code : Nat)
deriving DecidableEq, Repr

/-- An instruction goes on at the next address. -/
def MCtx.goOn (c : MCtx) (s : State) : MRes := .go s c.h ((c.h.pc : Int) + 1)
/-- An instruction writes gd and goes on at the next address. -/
def MCtx.result (c : MCtx) (s : State) (v : Nat) : MRes :=
  let r := c.setReg s c.d v
  .go r.1 r.2 ((c.h.pc : Int) + 1)

/-- The word at an address of a mill's code. -/
def codeWord (s : State) (m pc : Nat) : Nat := SMap.getD (millOf s m).code pc 0

/-- The bytes of a mill's frames that wait at the door, in its output staging. -/
def stagedBytes (s : State) (m : Nat) : Nat :=
  (localPending s).foldl (fun n p => match p.org with
    | .mill k _ _ _ => if k = m then n + p.f.size else n
    | .core _ _ _ _ => n
    | .host _ _ _ => n
    | .reply _ => n
    | .device _ => n
    | .port _ => n) 0
/-- Is a mill's output staging full (Table MIL-1, 09 R363)? -/
def outFull (s : State) (m : Nat) : Bool := decide (512 * 1024 ≤ stagedBytes s m)
/-- Does an instruction put out: `emit`, `take`, `gath`, `disp` and `flush`? -/
def putsOut (op : Nat) : Bool := memNat op [0x22, 0x24, 0x25, 0x26, 0x27]

/-- The instruction at hand of mill m, where its opcode is `op` and `pick` takes the word: more than 1,024 instructions trap
with BUDGET, nonzero unused fields (`used` tells which hold) with OPCODE, a next address beyond 4,095 or below 0 with PC. An
instruction that puts out waits while the output staging is full. -/
def millStep (m op : Nat) (pick : MCtx → Bool) (used : MCtx → Bool) (eff : State → MCtx → MRes) (s : State) : State :=
  match (millOf s m).run with
  | none => s
  | some h =>
    let c : MCtx := ⟨m, h, codeWord s m h.pc⟩
    if c.op ≠ op ∨ !pick c then s
    else if 1024 ≤ h.count then trapOne s m h.stream 9 h.pc
    else if !used c then trapOne s m h.stream 1 h.pc
    else if putsOut op && outFull s m then s
    else match eff s c with
      | .go t g pc =>
        if pc < 0 ∨ 4095 < pc then trapOne (setHandler t m g) m h.stream 11 h.pc
        else setHandler t m { g with pc := pc.toNat, count := h.count + 1 }
      | .done t => setMill t m { millOf t m with run := none }
      | .trap t code => trapOne t m h.stream code h.pc

/-- Any word of the opcode is meant. -/
def anyWord (_ : MCtx) : Bool := true
/-- A form-A instruction with d, a and b. -/
def usesDab (c : MCtx) : Bool := c.x == 0
/-- An instruction without fields. -/
def usesNone (c : MCtx) : Bool := c.w % 2 ^ 26 == 0

/-- A form-A scalar operation. -/
def aluA (m : MillIx) (op : Nat) (f : Nat → Nat → Nat) (s : State) : State :=
  millStep m.val op anyWord usesDab (fun s c => c.result s (f (c.reg s c.a) (c.reg s c.b))) s
/-- A form-B scalar operation on an immediate. -/
def aluB (m : MillIx) (op : Nat) (f : Nat → MCtx → Nat) (s : State) : State :=
  millStep m.val op anyWord anyWord (fun s c => c.result s (f (c.reg s c.a) c)) s
/-- A branch on gd and ga. -/
def branch (m : MillIx) (op : Nat) (p : Nat → Nat → Bool) (s : State) : State :=
  millStep m.val op anyWord anyWord (fun s c =>
    .go s c.h ((c.h.pc : Int) + 1 + (if p (c.reg s c.d) (c.reg s c.a) then c.simm else 0))) s

/-! ### Scalar instructions (Table MIL-7) -/

/-- MILL_NOP. -/
def millNop (m : MillIx) (s : State) : State := millStep m.val 0x00 anyWord usesNone (fun s c => c.goOn s) s
/-- ADD. -/
def millAdd (m : MillIx) (s : State) : State := aluA m 0x01 (· + ·) s
/-- SUB. -/
def millSub (m : MillIx) (s : State) : State := aluA m 0x02 (fun a b => a + 2 ^ 64 - b) s
/-- AND. -/
def millAnd (m : MillIx) (s : State) : State := aluA m 0x03 (· &&& ·) s
/-- OR. -/
def millOr (m : MillIx) (s : State) : State := aluA m 0x04 (· ||| ·) s
/-- XOR. -/
def millXor (m : MillIx) (s : State) : State := aluA m 0x05 (· ^^^ ·) s
/-- SHL. -/
def millShl (m : MillIx) (s : State) : State := aluA m 0x06 (fun a b => a <<< (b % 64)) s
/-- SHR. -/
def millShr (m : MillIx) (s : State) : State := aluA m 0x07 (fun a b => a >>> (b % 64)) s
/-- MUL. -/
def millMul (m : MillIx) (s : State) : State := aluA m 0x08 (· * ·) s
/-- ADDI: imm is signed (R424). -/
def millAddi (m : MillIx) (s : State) : State := aluB m 0x09 (fun a c => twos 64 ((a : Int) + c.simm)) s
/-- ANDI. -/
def millAndi (m : MillIx) (s : State) : State := aluB m 0x0A (fun a c => a &&& c.imm) s
/-- ORI. -/
def millOri (m : MillIx) (s : State) : State := aluB m 0x0B (fun a c => a ||| c.imm) s
/-- SHLI. -/
def millShli (m : MillIx) (s : State) : State := aluB m 0x0C (fun a c => a <<< (c.imm % 64)) s
/-- SHRI. -/
def millShri (m : MillIx) (s : State) : State := aluB m 0x0D (fun a c => a >>> (c.imm % 64)) s

/-- The record size of NREC (Table MIL-8): that of the first instruction from ENTRY up to the first `end`, in address order,
that reads records; 16 bytes without one (log 41). -/
def recSize (s : State) (m : Nat) : Nat → Nat → Nat
  | 0, _ => 16
  | n + 1, pc =>
    let w := codeWord s m pc
    let op := bits w 31 26
    if 4095 < pc ∨ op = 0x16 then 16
    else if op = 0x20 then (if rfSize (w % 8) = 0 then 16 else rfSize (w % 8))
    else if op = 0x23 ∨ op = 0x25 ∨ op = 0x26 then 16
    else recSize s m n (pc + 1)

/-- A frame field of `fld` (Table MIL-8); none where the code is reserved. -/
def frameField (s : State) (c : MCtx) : Option Nat :=
  let f := c.h.f
  let i := c.imm
  if i = 0 then some f.rank
  else if i = 1 then some f.len
  else if i = 2 then some f.offset
  else if i = 3 then some f.src
  else if i = 4 then some f.tally
  else if i = 5 then some f.stream
  else if i = 6 then some (f.payload.length / recSize s c.m 4096 ((c.st s).fld 0 2 % 4096))
  else if i = 7 then some ((c.st s).fld 6 2)
  else if i = 8 then some (nowNs s)
  else if i = 9 then some f.job
  else none

/-- FLD. -/
def millFld (m : MillIx) (s : State) : State :=
  millStep m.val 0x0E anyWord (fun c => c.a == 0) (fun s c =>
    match frameField s c with
    | some v => c.result s v
    | none => .trap s 1) s

/-- CADD: C(ga) rises by imm modulo 2^32; gd is the new value. -/
def millCadd (m : MillIx) (s : State) : State :=
  millStep m.val 0x0F anyWord anyWord (fun s c =>
    let i := c.reg s c.a
    if (c.st s).fld 18 2 ≤ i then .trap s 3
    else
      let j := (c.st s).fld 16 2 + i
      let t := setCtr s c.m j (ctrOf s c.m j + c.imm)
      c.result t (ctrOf t c.m j)) s

/-- CSET: gd is C(ga); C(ga) becomes the low 32 bits of gb. -/
def millCset (m : MillIx) (s : State) : State :=
  millStep m.val 0x10 anyWord usesDab (fun s c =>
    let i := c.reg s c.a
    if (c.st s).fld 18 2 ≤ i then .trap s 3
    else
      let j := (c.st s).fld 16 2 + i
      c.result (setCtr s c.m j (c.reg s c.b)) (ctrOf s c.m j)) s

/-- BEQ. -/
def millBeq (m : MillIx) (s : State) : State := branch m 0x11 (fun d a => d == a) s
/-- BNE. -/
def millBne (m : MillIx) (s : State) : State := branch m 0x12 (fun d a => d != a) s
/-- BLTU. -/
def millBltu (m : MillIx) (s : State) : State := branch m 0x13 (fun d a => decide (d < a)) s
/-- BGEU. -/
def millBgeu (m : MillIx) (s : State) : State := branch m 0x14 (fun d a => decide (a ≤ d)) s
/-- JMP. -/
def millJmp (m : MillIx) (s : State) : State :=
  millStep m.val 0x15 anyWord (fun c => c.d == 0 && c.a == 0) (fun s c =>
    .go s c.h ((c.h.pc : Int) + 1 + c.simm)) s
/-- END: the handler ends. -/
def millEnd (m : MillIx) (s : State) : State := millStep m.val 0x16 anyWord usesNone (fun s _ => .done s) s

/-! ### Output (R412, R426, R427) -/

/-- A destination pair (Table MIL-9). -/
structure Pair where
  dst : Nat
  tally : Nat
  mill : Bool
  mc : Bool
  gal : Bool
  stream : Nat
  rank : Nat
  offset : Nat
deriving DecidableEq, Repr

/-- The pair that gd and gd+1 hold, none where it traps with DEST (R426). -/
def pairOf (s : State) (c : MCtx) : Option Pair :=
  let v := c.reg s c.d
  let o := c.reg s (c.d + 1)
  if c.d = 15 ∨ bits v 39 35 ≠ 0 ∨ bits v 63 60 ≠ 0 ∨ bits o 63 48 ≠ 0 ∨ (bit v 34 ∧ !bit v 33) ∨ o % 16 ≠ 0 then none
  else some ⟨bits v 15 0, bits v 31 16, bit v 32, bit v 33, bit v 34, bits v 47 40, bits v 59 48, o⟩

/-- Output bytes leave as frames from an offset, cut at every 4,096-byte boundary, with TINC 1 (R427). -/
def millOut (s : State) (c : MCtx) (p : Pair) (off : Nat) (bs : List Byte) : State :=
  let x := c.st s
  (cutRun (off % 2 ^ 48) bs (bs.length / 4096 + 2)).foldl (fun s q =>
    sendFrame s (.mill c.m c.h.stream x.fn c.h.pc) { Frame.blank with
      typ := if p.mill then 5 else 0, cls := 1, mc := p.mc, gal := p.gal, dst := p.dst,
      src := getF s (R.milUnit c.m) 15 0, job := x.job, len := q.2.length / 16, offset := q.1 % 2 ^ 48,
      tally := p.tally, tsw := if p.mill then p.rank + 4096 * p.stream else 1, payload := q.2 }) s

/-! ### Sums (R430, R431) -/

/-- A record enters an accumulator (R78, R429, R430). -/
def enterRecord (rf : Nat) (v : Image) (r : List Byte) : Image × FpFlags :=
  if rf = 1 then laCombine v (Image.ofBytes r)
  else if rf = 0 then laEnter v (PartialWord.ofBytes r)
  else
    let f : Fmt := if rf = 2 then .fp32 else if rf = 3 then .bf16 else .fp16
    laEnter v (match decodeElem f (leNat r) with
      | .nan => ⟨0, 0, true, false, false, false⟩
      | .inf n => ⟨0, 0, false, !n, n, false⟩
      | .fin n k q => ⟨signed n k, if k = 0 then 0 else q, false, false, false, k == 0 && n⟩)

/-- Records enter A(j), A(j + 1), …; false where an index reaches ACNT. -/
def enterAll (s : State) (c : MCtx) (rf : Nat) : Nat → List (List Byte) → State × Bool
  | _, [] => (s, true)
  | j, r :: rs =>
    if (c.st s).fld 10 2 ≤ j then (s, false)
    else
      let k := (c.st s).fld 8 2 + j
      let v := enterRecord rf (accOf s c.m k) r
      enterAll (streamFlags (setAcc s c.m k v.1) c.m c.h.stream v.2) c rf (j + 1) rs

/-- ACC: every record of the frame enters A(ga + i). -/
def millAcc (m : MillIx) (s : State) : State :=
  millStep m.val 0x20 anyWord (fun c => c.d == 0 && c.b == 0 && decide (c.x < 8) && rfSize (c.x % 8) != 0) (fun s c =>
    let rf := c.x % 8
    let bs := c.h.f.payload
    if bs.length % rfSize rf ≠ 0 then .trap s 6
    else
      let r := enterAll s c rf (c.reg s c.a) (recordsOf (rfSize rf) bs bs.length)
      if r.2 then c.goOn r.1 else .trap r.1 2) s

/-- ACLR: A(ga) to A(ga + gb - 1) become empty, up to the first index that reaches ACNT, which traps. -/
def millAclr (m : MillIx) (s : State) : State :=
  millStep m.val 0x21 anyWord (fun c => c.d == 0 && c.x == 0) (fun s c =>
    let a := c.reg s c.a
    let n := c.reg s c.b
    let cnt := (c.st s).fld 10 2
    let t := (upto a (min n (cnt - a))).foldl (fun s j => setAcc s c.m ((c.st s).fld 8 2 + j) Image.empty) s
    if n ≠ 0 ∧ cnt < a + n then .trap t 2 else c.goOn t) s

/-- What `emit` writes for one image: the element's code, with its flags (R430). What a non-finite value sets under R109 is
no flag that R431 names. -/
def emitCode (x : StreamSt) (f : Fmt) (v : Image) : Nat × FpFlags :=
  let ga := scaleSig (x.fld 28 4)
  let gb := scaleSig (x.fld 32 4)
  let mode := x.fld 40 1
  if f = .fp32 ∨ f = .bf16 ∨ f = .fp16 ∨ f = .int32 then laEmit v f ga gb (bit mode 1)
  else
    let y := laValue v ga gb
    let r := cvtPlain ⟨f, false, bit mode 0, false, false, x.fld 36 4⟩ TileAcc.empty y.1
    (r.1, match y.1 with
      | .fin _ _ _ => y.2.or r.2.flags
      | .inf _ => y.2
      | .nan => y.2)

/-- Images from A(j) on are emitted, n of them, in ascending order: the codes and image bytes, and false where an index
reaches ACNT. `fmt` none stands for images. -/
def emitAll (s : State) (c : MCtx) (fmt : Option Fmt) (clr : Bool) :
    Nat → Nat → State × List Nat × List Byte × Bool
  | _, 0 => (s, [], [], true)
  | j, n + 1 =>
    if (c.st s).fld 10 2 ≤ j then (s, [], [], false)
    else
      let k := (c.st s).fld 8 2 + j
      let v := accOf s c.m k
      let e : Nat × FpFlags := match fmt with
        | some f => emitCode (c.st s) f v
        | none => (0, FpFlags.none)
      let t := streamFlags (if clr then setAcc s c.m k Image.empty else s) c.m c.h.stream e.2
      let r := emitAll t c fmt clr (j + 1) n
      (r.1, e.1 :: r.2.1, (if fmt.isNone then Image.bytes v else []) ++ r.2.2.1, r.2.2.2)

/-- The part of an output that has left in whole frames when it stops after these bytes (R427, R444). -/
def wholeFrames (off : Nat) (bs : List Byte) : List Byte := bs.take ((off + bs.length) / 4096 * 4096 - off)

/-- EMIT: A(ga) to A(ga + gb - 1) are emitted to the pair (R430, R431); of one that traps with AIDX the frames that are
complete have left. -/
def millEmit (m : MillIx) (s : State) : State :=
  millStep m.val 0x22 anyWord (fun c => decide (c.x < 512)) (fun s c =>
    let code := c.x % 256
    let e := fmtOf code
    let a := c.reg s c.a
    let n := c.reg s c.b
    let bad := match e with
      | some f => f.mx
      | none => code != 0xFF
    if bad then .trap s 8
    else match pairOf s c with
      | none => .trap s 7
      | some p =>
        let w := match e with
          | some f => widthOf f.f
          | none => 384
        if w * n % 128 ≠ 0 then .trap s 7
        else
          -- no more than ACNT + 1 images are looked at: the one beyond traps
          let r := emitAll s c (e.map (·.f)) (bit c.x 8) a (min n 2049)
          let bs := if code = 0xFF then r.2.2.1 else packElems w r.2.1
          if !r.2.2.2 then .trap (millOut r.1 c p p.offset (wholeFrames p.offset bs)) 2
          else c.goOn (millOut r.1 c p p.offset bs)) s

/-! ### Sorting (R433 to R436) -/

/-- The key format of a stream; none is UINT32. -/
def keyFmt (x : StreamSt) : Option Fmt :=
  let k := x.fld 40 1 / 8 % 8
  if k = 0 then some .fp32 else if k = 1 then some .bf16 else if k = 2 then some .fp16
  else if k = 3 then some .int32 else none

/-- KEY as it is kept: bits 31:16 are 0 for BF16 and FP16 keys. -/
def keepKey (x : StreamSt) (key : Nat) : Nat :=
  if keyFmt x = some .bf16 ∨ keyFmt x = some .fp16 then key % 65536 else key

/-- The place of a key in its stream's order. -/
def keyRank (x : StreamSt) (key : Nat) : Int :=
  let v : Int := match keyFmt x with
    | some f => totalKey f key
    | none => key
  if bit (x.fld 40 1) 2 then -v else v

/-- Does record a come strictly before record b in the section (R433; R442 for held dispatch records, whose TAG begins with
the slot)? -/
def recBefore (x : StreamSt) (a b : SortRec) : Bool :=
  let ka : Int := if a.disp then (a.tag % 65536 : Nat) else keyRank x a.key
  let kb : Int := if b.disp then (b.tag % 65536 : Nat) else keyRank x b.key
  if ka ≠ kb then decide (ka < kb)
  else if a.rank ≠ b.rank then decide (a.rank < b.rank)
  else decide (a.idx < b.idx)

/-- Are two records equal in every key? -/
def recEqual (x : StreamSt) (a b : SortRec) : Bool := !recBefore x a b && !recBefore x b a

/-- A record put after every one that does not follow it. -/
def insertRec (x : StreamSt) (r : SortRec) : List SortRec → List SortRec
  | [] => [r]
  | y :: t => if recBefore x r y then r :: y :: t else y :: insertRec x r t

/-- One record enters the section: the new state, and a trap code where it traps (R434, R435, R442). -/
def enterSort (s : State) (c : MCtx) (keep : Nat) (r : SortRec) : State × Option Nat :=
  let x := c.st s
  let full := decide (16 * x.fld 14 2 ≤ x.sort.length)
  let twin := x.sort.any fun y => recEqual x y r && y.tag != r.tag
  if keep = 0 ∧ full then (s, some 4)
  else if twin ∧ x.detl then (s, some 12)
  else
    let s := if twin then setNondet s c.m c.h.stream else s
    let l := insertRec x r x.sort
    (setStream s c.m c.h.stream { c.st s with sort := if keep = 0 then l else l.take keep }, none)

/-- A sort record of a frame (Table MIL-10), with the frame's RANK. -/
def sortRecOf (x : StreamSt) (rank : Nat) (disp : Bool) (b : List Byte) : SortRec :=
  ⟨if disp then leAt b 0 4 else keepKey x (leAt b 0 4), leAt b 4 4, leAt b 8 6, rank, disp⟩

/-- The 16 bytes of a sort record. -/
def SortRec.bytes (r : SortRec) : List Byte := leBytes 4 r.key ++ leBytes 4 r.idx ++ leBytes 6 r.tag ++ leBytes 2 r.rank

/-- Records enter the section in turn, up to the first that traps. -/
def enterSorts (s : State) (c : MCtx) (keep : Nat) : List SortRec → State × Option Nat
  | [] => (s, none)
  | r :: rs =>
    let e := enterSort s c keep r
    match e.2 with
    | some code => (e.1, some code)
    | none => enterSorts e.1 c keep rs

/-- SORT: every record of the frame enters the sort section. -/
def millSort (m : MillIx) (s : State) : State :=
  millStep m.val 0x23 anyWord usesNone (fun s c =>
    let x := c.st s
    let bs := c.h.f.payload
    if x.sort.any (·.disp) then .trap s 15
    else if bs.length % 16 ≠ 0 then .trap s 6
    else
      let e := enterSorts s c (x.fld 24 4) ((recordsOf 16 bs bs.length).map (sortRecOf x c.h.f.rank false))
      match e.2 with
      | some code => .trap e.1 code
      | none => c.goOn e.1) s

/-- TAKE: positions ga to ga + gb - 1 of the section go to the pair; with clr the section is emptied. -/
def millTake (m : MillIx) (s : State) : State :=
  millStep m.val 0x24 anyWord (fun c => decide (c.x < 2)) (fun s c =>
    let x := c.st s
    let l := (x.sort.drop (c.reg s c.a)).take (c.reg s c.b)
    if l.any (·.disp) then .trap s 15
    else match pairOf s c with
      | none => .trap s 7
      | some p =>
        let t := if c.x = 1 then setStream s c.m c.h.stream { x with sort := [] } else s
        c.goOn (millOut t c p p.offset (l.flatMap SortRec.bytes))) s

/-! ### Gathering (R437, R441) -/

/-- GATH, rank mode: the payload leaves unchanged at OFFSET of the pair + RANK x ga + OFFSET of the frame. -/
def millGathRank (m : MillIx) (s : State) : State :=
  millStep m.val 0x25 (fun c => !bit c.x 0) (fun c => decide (c.x < 2)) (fun s c =>
    match pairOf s c with
    | none => .trap s 7
    | some p => c.goOn (millOut s c p (p.offset + c.h.f.rank * c.reg s c.a + c.h.f.offset) c.h.f.payload)) s

/-- The bytes of the held gather frames of a mill's streams, which share its output staging. -/
def heldBytes (s : State) (m : Nat) : Nat :=
  (millOf s m).streams.foldl (fun n e => e.2.held.foldl (fun n h => n + h.payload.length) n) 0

/-- GATH, arrival mode: the payload leaves at OFFSET of the pair + 16 x C(gb), or with DETL is held for `flush`. -/
def millGathArrival (m : MillIx) (s : State) : State :=
  millStep m.val 0x25 (fun c => bit c.x 0) (fun c => decide (c.x < 2)) (fun s c =>
    match pairOf s c with
    | none => .trap s 7
    | some p =>
      let x := c.st s
      let i := c.reg s c.b
      let bs := c.h.f.payload
      if x.fld 18 2 ≤ i then .trap s 3
      else if x.detl then
        (if 512 * 1024 < heldBytes s c.m + bs.length then .trap s 10
         else c.goOn (setStream s c.m c.h.stream { x with held := x.held ++ [⟨c.h.f.rank, c.h.f.offset, i, bs⟩] }))
      else
        let j := x.fld 16 2 + i
        let t := setNondet (setCtr s c.m j (ctrOf s c.m j + c.h.f.len)) c.m c.h.stream
        c.goOn (millOut t c p (p.offset + 16 * ctrOf s c.m j) bs)) s

/-! ### Dispatch (R438 to R442) -/

/-- The 16 bytes of a dispatch slot as a number. -/
def slotWord (s : State) (m k : Nat) : Nat := SMap.getD (millOf s m).slots k 0
/-- COUNT and OVER of a dispatch slot. -/
def slotCounts (s : State) (m k : Nat) : Nat × Nat := SMap.getD (millOf s m).counts k (0, 0)
/-- The state with them. -/
def setCounts (s : State) (m k : Nat) (v : Nat × Nat) : State :=
  setMill s m { millOf s m with counts := SMap.setD (millOf s m).counts k (0, 0) v }

/-- A partly filled dispatch frame leaves: a WRITE whose TINC is its record count (R440). -/
def sendDisp (s : State) (c : MCtx) (d : DispFrame) : State :=
  let x := c.st s
  let w := slotWord s c.m d.slot
  let s := setMill s c.m { millOf s c.m with disp := (millOf s c.m).disp.filter fun e => e.slot != d.slot }
  sendFrame s (.mill c.m c.h.stream x.fn c.h.pc) { Frame.blank with
    typ := 0, cls := 1, dst := bits w 15 0, src := getF s (R.milUnit c.m) 15 0, job := x.job,
    len := d.bytes.length / 16, offset := d.offset % 2 ^ 48, tally := bits w 31 16, tsw := d.bytes.length / 16,
    payload := d.bytes }

/-- A record is placed in dispatch slot k of the mill, or refused for LIMIT (R439, R440). Answers whether it was placed. -/
def placeRec (s : State) (c : MCtx) (k : Nat) (r : SortRec) : State × Bool :=
  let w := slotWord s c.m k
  let n := slotCounts s c.m k
  if bits w 127 96 ≤ n.1 then (bump (setCounts s c.m k (n.1, satAdd 32 n.2 1)) (R.milCnt c.m 6) 1, false)
  else
    let off := bits w 79 32 + 16 * n.1
    let s := setCounts s c.m k (n.1 + 1, n.2)
    let s := match (millOf s c.m).disp.find? fun e => e.slot == k with
      | some d => if d.offset + d.bytes.length = off then s else sendDisp s c d
      | none => s
    let d : DispFrame := ((millOf s c.m).disp.find? fun e => e.slot == k).getD ⟨k, off, []⟩
    let d : DispFrame := { d with bytes := d.bytes ++ SortRec.bytes r }
    let rest := (millOf s c.m).disp.filter fun e => e.slot != k
    let s := setMill s c.m { millOf s c.m with disp := rest ++ [d] }
    (if d.bytes.length = 4096 then sendDisp s c d else s, true)

/-- Records are dealt in turn, up to the first that traps. -/
def dealAll (s : State) (c : MCtx) : List SortRec → State × Option Nat
  | [] => (s, none)
  | r :: rs =>
    let x := c.st s
    let k := r.tag % 65536
    if x.fld 22 2 ≤ k then (s, some 5)
    else if x.detl then
      let e := enterSort s c 0 r
      match e.2 with
      | some code => (e.1, some code)
      | none => dealAll e.1 c rs
    else
      let p := placeRec s c (x.fld 20 2 + k) r
      dealAll (if p.2 then setNondet p.1 c.m c.h.stream else p.1) c rs

/-- DISP: every record of the frame is dealt to its slot, or with DETL held in the sort section. -/
def millDisp (m : MillIx) (s : State) : State :=
  millStep m.val 0x26 anyWord usesNone (fun s c =>
    let x := c.st s
    let bs := c.h.f.payload
    if x.detl && x.sort.any (fun r => !r.disp) then .trap s 15
    else if bs.length % 16 ≠ 0 then .trap s 6
    else
      let e := dealAll s c ((recordsOf 16 bs bs.length).map (sortRecOf x c.h.f.rank true))
      match e.2 with
      | some code => .trap e.1 code
      | none => c.goOn e.1) s

/-- Does a held gather frame come no later than another (R437)? -/
def heldLe (a b : HeldGath) : Bool :=
  if a.rank ≠ b.rank then decide (a.rank < b.rank) else decide (a.offset ≤ b.offset)

/-- FLUSH: held gather frames are placed in order of RANK, OFFSET and arrival; held dispatch records in their order; then
every partly filled dispatch frame of the stream leaves (R437, R441, R442). -/
def millFlush (m : MillIx) (s : State) : State :=
  millStep m.val 0x27 anyWord (fun c => c.w % 2 ^ 22 == 0) (fun s c =>
    match pairOf s c with
    | none => .trap s 7
    | some p =>
      let x := c.st s
      let s := setStream s c.m c.h.stream { x with held := [], sort := if x.sort.any (·.disp) then [] else x.sort }
      let s := (sortBy heldLe x.held).foldl (fun s h =>
        let j := x.fld 16 2 + h.ctr
        let n := ctrOf s c.m j
        millOut (setCtr s c.m j (n + h.payload.length / 16)) c p (p.offset + 16 * n) h.payload) s
      let s := (x.sort.filter (·.disp)).foldl (fun s r => (placeRec s c (x.fld 20 2 + r.tag % 65536) r).1) s
      let mine := (millOf s c.m).disp.filter fun d =>
        decide (x.fld 20 2 ≤ d.slot) && decide (d.slot < x.fld 20 2 + x.fld 22 2)
      c.goOn ((sortBy (fun a b => decide (a.slot ≤ b.slot)) mine).foldl (fun s d => sendDisp s c d) s)) s

/-- SCLR: the sort section is emptied. -/
def millSclr (m : MillIx) (s : State) : State :=
  millStep m.val 0x28 anyWord usesNone (fun s c =>
    c.goOn (setStream s c.m c.h.stream { c.st s with sort := [] })) s

/-! ### MILL_HANDLER and STREAM_REMOVE_DONE -/

/-- What the mill meets in its memories as a handler runs (R445): a corrected error counts; an uncorrectable one traps the
stream, or every stream where it lies in code, and is an event on the mill. -/
def meetMill (s : State) (m n pc : Nat) (e : MillUpset) : State :=
  match e with
  | .none => s
  | .ce => bumpF s (R.milUnit m) 30 24 1
  | .ue => millEvent (trapOne s m n 13 pc) m
  | .ueCode => millEvent (trapJobs s m) m

/-- Is an opcode one of Table MIL-7? -/
def knownOp (op : Nat) : Bool := decide (op ≤ 0x16) || (decide (0x20 ≤ op) && decide (op ≤ 0x28))

/-- The first check of Table MIL-5 that a frame fails, as its counter in `MIL_CNT`. -/
def millCheck (s : State) (m : Nat) (f : Frame) : Option Nat :=
  let x := streamOf s m f.stream
  if flag s (R.milUnit m) 31 then some 4
  else if !x.valid || x.removing || x.job != f.job then some 0
  else if x.state = 2 then some 1
  else if fnState s x.fn ≠ 1 then some 2
  else if x.fld 6 2 ≤ f.rank then some 3
  else none

/-- A refused frame is counted for its reason, and for its stream where that exists (R420). -/
def refuseMill (s : State) (m : Nat) (f : Frame) (why : Nat) : State :=
  let s := bump s (R.milCnt m why) 1
  let x := streamOf s m f.stream
  if x.valid && !x.removing && x.job == f.job then setStream s m f.stream { x with refused := satAdd 32 x.refused 1 }
  else s

/-- MILL_HANDLER (R420 to R423, R444, R445): with no handler running, the frame at the head of the input is refused or its
handler starts; a running handler whose next word is of a reserved opcode traps. -/
def millHandler (m : MillIx) (e : MillUpset) (s : State) : State :=
  let x := millOf s m.val
  match x.run with
  | some h =>
    let s := meetMill s m.val h.stream h.pc e
    if (millOf s m.val).run.isSome && !knownOp (bits (codeWord s m.val h.pc) 31 26) then
      trapOne s m.val h.stream (if 1024 ≤ h.count then 9 else 1) h.pc
    else s
  | none =>
    match x.inq with
    | [] => s
    | q :: rest =>
      let s := setMill s m.val { x with inq := rest }
      match millCheck s m.val q.f with
      | some why => refuseMill s m.val q.f why
      | none =>
        let st := streamOf s m.val q.f.stream
        let entry := st.fld 0 2 % 4096
        let s := setStream s m.val q.f.stream { st with frames := satAdd 32 st.frames 1 }
        meetMill (setHandler s m.val ⟨q.f.stream, q.f, entry, List.replicate 7 0, 0⟩) m.val q.f.stream entry e

/-- VALID of a stream entry cleared. -/
def clearValid (x : StreamSt) : StreamSt :=
  { x with bytes := leSet x.bytes 0 2 (setBits (leAt x.bytes 0 2) 12 12 0), removing := false, waiters := [], byWin := false,
           held := [], sort := x.sort.filter fun r => !r.disp }

/-- STREAM_REMOVE_DONE (R419): a removal that waits ends once no handler of the stream runs: VALID clears, held output is
discarded, and the descriptors and the window command that wait go on. -/
def streamRemoveDone (m : MillIx) (n : Byte) (s : State) : State :=
  let x := streamOf s m.val n.toNat
  let busy := match (millOf s m.val).run with
    | some h => h.stream == n.toNat
    | none => false
  if !x.removing || busy then s
  else
    let s := setStream s m.val n.toNat (clearValid x)
    let s := setMill s m.val { millOf s m.val with disp := (millOf s m.val).disp.filter fun d =>
      !(decide (x.fld 20 2 ≤ d.slot) && decide (d.slot < x.fld 20 2 + x.fld 22 2)) }
    let s := if x.byWin then setF (setF s R.milTcmd 7 4 0) R.milTcmd 8 8 1 else s
    x.waiters.foldl (fun s w => resumeTable s w.1 w.2.1 w.2.2) s

/-! ### The rows -/

/-- MILL_HANDLER. -/
def execMillHandler (m : MillIx) (e : MillUpset) (s : State) : Out := .next (millHandler m e s)
/-- MILL_NOP. -/
def execMillNop (m : MillIx) (s : State) : Out := .next (millNop m s)
/-- ADD. -/
def execAdd (m : MillIx) (s : State) : Out := .next (millAdd m s)
/-- SUB. -/
def execSub (m : MillIx) (s : State) : Out := .next (millSub m s)
/-- AND. -/
def execAnd (m : MillIx) (s : State) : Out := .next (millAnd m s)
/-- OR. -/
def execOr (m : MillIx) (s : State) : Out := .next (millOr m s)
/-- XOR. -/
def execXor (m : MillIx) (s : State) : Out := .next (millXor m s)
/-- SHL. -/
def execShl (m : MillIx) (s : State) : Out := .next (millShl m s)
/-- SHR. -/
def execShr (m : MillIx) (s : State) : Out := .next (millShr m s)
/-- MUL. -/
def execMul (m : MillIx) (s : State) : Out := .next (millMul m s)
/-- ADDI. -/
def execAddi (m : MillIx) (s : State) : Out := .next (millAddi m s)
/-- ANDI. -/
def execAndi (m : MillIx) (s : State) : Out := .next (millAndi m s)
/-- ORI. -/
def execOri (m : MillIx) (s : State) : Out := .next (millOri m s)
/-- SHLI. -/
def execShli (m : MillIx) (s : State) : Out := .next (millShli m s)
/-- SHRI. -/
def execShri (m : MillIx) (s : State) : Out := .next (millShri m s)
/-- FLD. -/
def execFld (m : MillIx) (s : State) : Out := .next (millFld m s)
/-- CADD. -/
def execCadd (m : MillIx) (s : State) : Out := .next (millCadd m s)
/-- CSET. -/
def execCset (m : MillIx) (s : State) : Out := .next (millCset m s)
/-- BEQ. -/
def execBeq (m : MillIx) (s : State) : Out := .next (millBeq m s)
/-- BNE. -/
def execBne (m : MillIx) (s : State) : Out := .next (millBne m s)
/-- BLTU. -/
def execBltu (m : MillIx) (s : State) : Out := .next (millBltu m s)
/-- BGEU. -/
def execBgeu (m : MillIx) (s : State) : Out := .next (millBgeu m s)
/-- JMP. -/
def execJmp (m : MillIx) (s : State) : Out := .next (millJmp m s)
/-- END. -/
def execEndHandler (m : MillIx) (s : State) : Out := .next (millEnd m s)
/-- ACC. -/
def execAcc (m : MillIx) (s : State) : Out := .next (millAcc m s)
/-- ACLR. -/
def execAclr (m : MillIx) (s : State) : Out := .next (millAclr m s)
/-- EMIT. -/
def execEmit (m : MillIx) (s : State) : Out := .next (millEmit m s)
/-- SORT. -/
def execSort (m : MillIx) (s : State) : Out := .next (millSort m s)
/-- TAKE. -/
def execTake (m : MillIx) (s : State) : Out := .next (millTake m s)
/-- GATH_RANK. -/
def execGathRank (m : MillIx) (s : State) : Out := .next (millGathRank m s)
/-- GATH_ARRIVAL. -/
def execGathArrival (m : MillIx) (s : State) : Out := .next (millGathArrival m s)
/-- DISP. -/
def execDisp (m : MillIx) (s : State) : Out := .next (millDisp m s)
/-- FLUSH. -/
def execFlush (m : MillIx) (s : State) : Out := .next (millFlush m s)
/-- SCLR. -/
def execSclr (m : MillIx) (s : State) : Out := .next (millSclr m s)
/-- STREAM_REMOVE_DONE. -/
def execStreamRemoveDone (m : MillIx) (n : Byte) (s : State) : Out := .next (streamRemoveDone m n s)

end Sys2Proof.Machine
end

