-- ==== Sys2Proof/Machine/Time.lean ====
section
/-! DEFINITION. Sys2Proof/Machine/Time.lean: the time base's steps and rate, delay exchanges, bonds, the gang's bursts and
states, GSYNC, and barriers (13_time_determinism.md R473 to R501). Arrival and send times are in 1/64 ns of the time base,
taken at the optical face (R478). -/

namespace Sys2Proof.Machine

/-! ### Steps and rate (R476, R477) -/

/-- The time base steps to a value in 2^-32 ns. -/
def stepTo (s : State) (v : Nat) : State :=
  raise { s with time := { s.time with now := v % 2 ^ 96 } } R.tbStat 4

/-- The time base steps by sum/n in 1/64 ns; what 2^-32 ns cannot hold is rounded either way (log 42). -/
def stepBy (s : State) (sum : Int) (n : Nat) : State :=
  let z := sum * 2 ^ 26
  let r := fresh s 1
  let q := z / (n : Int) + (if z % (n : Int) = 0 then 0 else (r.1 : Int))
  stepTo r.2 ((s.time.now : Int) + q).toNat

/-- A correction by rate: the spec gives only its bound, 1 ns per microsecond (R476; log 42). -/
def correctRate (s : State) : State :=
  let r := fresh s 32
  wr r.2 R.tbRate (twos 32 ((r.1 % 8589935 : Nat) - (4294967 : Int)))

/-- The time base advances by one ns of its reference under the rate correction (R473, R476). -/
def advance (now rate : Nat) : Nat := ((now : Int) + 2 ^ 32 + sext 32 rate).toNat % 2 ^ 96

/-! ### Delay exchanges and lags (R310, R313, R314, R480 to R482, R495) -/

/-- The delay exchanges of a port. -/
def delayExchOf (s : State) (p : Nat) : DelaySt := SMap.getD s.delay p DelaySt.start
/-- The state with them. -/
def setDelay (s : State) (p : Nat) (x : DelaySt) : State :=
  { s with delay := SMap.setD s.delay p DelaySt.start x }

/-- A port comes up: 16 exchanges start (R480, R314). -/
def startExchanges (s : State) (p : Nat) : State :=
  setF (setDelay s p { DelaySt.start with left := 16, due := s.time.lamp }) (R.gngPdly p) 31 31 0

/-- A TSYNC frame leaves a port at once (R479). -/
def sendTsync (s : State) (p src bseq blen ts : Nat) : State :=
  if !linkRoom s p then s
  else
    let f := completeHeader s (.device 0) 3 0 { Frame.blank with
      typ := 8, cls := 3, src := src, job := getF s R.gngCtl 11 0, len := 1, tsw := bseq + 256 * blen,
      payload := leBytes 8 ts ++ zeros 8 }
    let r := newId s
    sendOn r.2 p ⟨r.1, f, .device 0, nowNs s, false, none, none⟩

/-- The first frame received on a port, where it is a TSYNC frame that passes checks 1 and 2 and meets a test; it is
consumed, past the mirror point of the port. -/
def takeTsync (s : State) (p : Nat) (t : Frame → Bool) : Option (Frame × State) :=
  match (rxOf s p).head? with
  | none => none
  | some x =>
    if x.f.typ = 8 ∧ t x.f ∧ (doorCheck s x.f (some p)).isNone ∧ !dead s then
      some (x.f, mirrorSee (popRx s p) 0 p 0 x.f)
    else none

/-- The ports of a bond (R494): BASE and how many, but for those that have left it (15 R562). -/
def bondPorts (s : State) (b : Nat) : List Nat :=
  let w := rd s (R.gngBond b)
  if bit w 31 then (upto (bits w 5 0) (2 ^ bits w 9 8)).filter fun p => !memNat p s.gang.left else []

/-- The bond that a port belongs to. -/
def bondOf (s : State) (p : Nat) : Option Nat := (List.range 8).find? fun b => memNat p (bondPorts s b)

/-- The members of a port's bond that are up and measured, or the port alone. -/
def bondMates (s : State) (p : Nat) : List Nat :=
  match bondOf s p with
  | none => []
  | some b => (bondPorts s b).filter fun q => portState s q == 2 && flag s (R.gngPdly q) 31

/-- d + pad of a bond in 1/64 ns: the largest member d rounded up to a whole ns (R495). -/
def bondTotal (s : State) (mates : List Nat) : Nat :=
  64 * mates.foldl (fun m q => max m (ceilDiv (getF s (R.gngPdly q) 23 0) 64)) 0

/-- The delay that R310 and R311 use for a port: d, or d + pad in a bond, the pad at most 63 ns. -/
def effDelay (s : State) (p : Nat) : Nat :=
  let d := getF s (R.gngPdly p) 23 0
  let mates := bondMates s p
  if memNat p mates then min (bondTotal s mates) (d + 63 * 64) else d

/-- The lag of a delay in 1/64 ns (R310). -/
def lagOf (d : Nat) : Nat := ceilDiv (d + 16 * 64) (24 * 64)

/-- A port's lag after a measurement, while it is up and its 16 exchanges have completed (R310, R313, R314): LAGV is 1 where
it is at most 63; a lag that changed, or went above 63, tears the port's circuits down and sets LAGCHG. -/
def setLag (s : State) (p : Nat) : State :=
  if !portUp s p || !flag s (R.gngPdly p) 31 then s
  else
    let lag := lagOf (effDelay s p)
    let old := getF s (R.cirPort p) 5 0
    let had := flag s (R.cirPort p) 31
    let s := setF (setF s (R.cirPort p) 5 0 (min lag 63)) (R.cirPort p) 31 31 (b2n (decide (lag ≤ 63)))
    if (old ≠ 0 ∧ min lag 63 ≠ old) ∨ (had ∧ 63 < lag) then closeOnPort (raise s R.cirStat 5) p else s

/-- The pad that a member shows (R495); part of a ns is rounded either way (log 42). -/
def setPad (s : State) (p : Nat) : State :=
  let d := getF s (R.gngPdly p) 23 0
  let mates := bondMates s p
  let x := if memNat p mates then effDelay s p - d else 0
  let r := fresh s 1
  let pad := x / 64 + (if x % 64 = 0 then 0 else r.1)
  setF (if x % 64 = 0 then s else r.2) (R.gngPdly p) 30 24 pad

/-- The pads and the lags of ports are set anew (R482, R495). -/
def remeasure (s : State) (ps : List Nat) : State := ps.foldl setLag (ps.foldl setPad s)

/-- A port's d changed, or a member joined its bond: its own and its bond mates' pads and lags are set anew. -/
def measured (s : State) (p : Nat) : State :=
  remeasure s (if memNat p (bondMates s p) then bondMates s p else [p])

/-- The mean of 16 round trips less 256 ns, halved, in 1/64 ns; what does not divide is rounded either way (log 42). -/
def meanDelay (s : State) (l : List Int) : Nat × State :=
  let sum := l.foldl (· + ·) 0
  let r := fresh s 1
  if sum % 32 = 0 then ((sum / 32).toNat % 2 ^ 24, s) else ((sum / 32 + (r.1 : Int)).toNat % 2 ^ 24, r.2)

/-- DELAY_EXCHANGE_START (R480): a request leaves port p at t. -/
def delayExchangeStart (p : Port) (t : DWord) (s : State) : State :=
  let x := delayExchOf s p.val
  if !portUp s p.val || decide (s.time.lamp < x.due) || !linkRoom s p.val || dead s then s
  else
    let due := if 1 < x.left then x.due + 1000 else s.time.lamp + 1000000 * getF s R.gngDper 7 0
    let s := setDelay s p.val { x with reqs := x.reqs ++ [t.toNat], left := x.left - 1, due := due }
    sendTsync s p.val (getF s R.gngUep 15 0) 0 0 t.toNat

/-- DELAY_REQUEST (R480): a request arrives at t and will be answered. -/
def delayRequest (p : Port) (t : DWord) (s : State) : State :=
  match takeTsync s p.val fun f => f.blen == 0 && f.bseq == 0 with
  | none => s
  | some (_, s) =>
    let x := delayExchOf s p.val
    setDelay s p.val { x with replies := x.replies ++ [t.toNat] }

/-- DELAY_REPLY_SEND (R480): the reply leaves 256 ns after its request arrived, carrying that time. -/
def delayReplySend (p : Port) (s : State) : State :=
  let x := delayExchOf s p.val
  match x.replies with
  | [] => s
  | t2 :: r =>
    if s.time.now / 2 ^ 26 < t2 + 256 * 64 ∨ !portUp s p.val ∨ !linkRoom s p.val then s
    else sendTsync (setDelay s p.val { x with replies := r }) p.val (getF s R.gngUep 15 0) 1 0 t2

/-- DELAY_REPLY (R480, R314): a reply that carries t2 arrives at t4, which gives d and the responder's offset
o = t2 - t1 - d; with 16 round trips the port's delay and lag are set. A port that is no longer up measures nothing. -/
def delayReply (p : Port) (t4 : DWord) (s : State) : State :=
  match takeTsync s p.val fun f => f.blen == 0 && f.bseq == 1 with
  | none => s
  | some (f, s) =>
    let x := delayExchOf s p.val
    match x.reqs with
    | [] => s
    | t1 :: r =>
      let trip : Int := (t4.toNat : Int) - t1 - 256 * 64
      let l := (trip :: x.samples).take 16
      let s := setDelay s p.val { x with
        reqs := r
        samples := l
        offset := 2 * ((leAt f.payload 0 8 : Int) - t1) - trip }
      if l.length < 16 ∨ !portUp s p.val then s
      else
        let d := meanDelay s l
        measured (setF (setF d.2 (R.gngPdly p.val) 23 0 d.1) (R.gngPdly p.val) 31 31 1) p.val

/-! ### Bursts (R483 to R493) -/

/-- `GNG_STAT.STATE`. -/
def gangState (s : State) : Nat := getF s R.gngStat 2 0
/-- The state with it. -/
def setGang (s : State) (st : Nat) : State := setF s R.gngStat 2 0 st
/-- The endpoints of master and standby. -/
def masterEp (s : State) : Nat := getF s R.gngSrc 15 0
/-- The standby's endpoint. -/
def standbyEp (s : State) : Nat := getF s R.gngSrc 31 16
/-- The current source's endpoint. -/
def sourceEp (s : State) : Nat := if flag s R.gngStat 3 then standbyEp s else masterEp s

/-- A burst leaves every port of a mask that is up: BLEN frames, 64 ns apart, each with its send time (R484). -/
def sendBurst (s : State) (mask src t : Nat) : State :=
  let n := getF s R.gngCtl 27 24
  ((List.range 64).filter fun p => bit mask p && portUp s p).foldl (fun s p =>
    (List.range n).foldl (fun s i => sendTsync s p src i n (t + 4096 * i)) s) s

/-- The down mask for a source. -/
def downMask (s : State) (src : Nat) : Nat := if src = masterEp s then rd64 s R.gngDownm else rd64 s R.gngDowns

/-- BURST_SEND (R484): a source's burst, due every PER microseconds, its first frame at t. -/
def burstSend (t : DWord) (s : State) : State :=
  if gangState s ≠ 4 ∨ s.time.lamp < s.gang.nextBurst ∨ dead s then s
  else
    let s := { s with gang := { s.gang with nextBurst := s.time.lamp + 1000 * getF s R.gngCtl 23 16 } }
    sendBurst s (if flag s R.gngStat 3 then rd64 s R.gngDowns else rd64 s R.gngDownm) (getF s R.gngUep 15 0) t.toNat

/-- BURST_RELAY (R486): a follower relays a burst of its own after a complete one, its first frame at t. -/
def burstRelay (t : DWord) (s : State) : State :=
  match s.gang.relay with
  | [] => s
  | src :: r => sendBurst { s with gang := { s.gang with relay := r } } (downMask s src) src t.toNat

/-- Is a port the upstream or alternate port toward the master (or the standby) (R483)? -/
def isUpstream (s : State) (standby : Bool) (p : Nat) : Bool :=
  let w := rd s R.gngUp
  let at8 : Nat → Bool := fun o => bit w (o + 7) && bits w (o + 5) o == p
  if standby then at8 16 || at8 24 else at8 0 || at8 8

/-- A burst is discarded as partial (R485). -/
def countPartial (s : State) : State := raise (bump s R.gngCntPartial 1) R.gngStat 5

/-- Is a burst's acceptance window closed at a time in 1/64 ns? -/
def windowClosed (b : BurstRx) (t : Nat) : Bool := decide (b.first + (b.blen * 64 + 200) * 64 < t)

/-- Bursts whose acceptance window has closed with frames missing are discarded (R485). -/
def closeWindows (s : State) : State :=
  let late := s.gang.bursts.filter fun e => !e.2.dead && windowClosed e.2 (s.time.now / 2 ^ 26)
  late.foldl (fun s e =>
    let s := { s with gang := { s.gang with bursts := SMap.erase s.gang.bursts e.1 } }
    if gangState s = 4 then s else countPartial s) s

/-- May a follower use a burst of a source on a port (R485, R491)? -/
def usesBurst (s : State) (src p : Nat) : Bool :=
  if flag s R.gngStat 3 then src == standbyEp s && isUpstream s true p
  else (src == masterEp s && isUpstream s false p) ||
    (src == standbyEp s && isUpstream s true p && decide (s.gang.masterAt + 100000 ≤ s.time.lamp))

/-- A complete burst that a follower uses (R486, R487, R491): `sum` over n frames of timestamp + d - arrival. -/
def useBurst (s : State) (src : Nat) (sum : Int) (n : Nat) : State :=
  let r := fresh s 1
  let o := sum / (n : Int) + (if sum % (n : Int) = 0 then 0 else (r.1 : Int))
  let s := if sum % (n : Int) = 0 then s else r.2
  let s := wr s R.gngOfs (twos 32 (max (-(2 ^ 31)) (min (2 ^ 31 - 1) o)))
  let s := { s with gang := { s.gang with
    burstAt := some s.time.lamp
    masterAt := if src = masterEp s then s.time.lamp else s.gang.masterAt
    relay := s.gang.relay ++ [src] } }
  let s := if src = masterEp s ∧ !flag s R.gngStat 3 then s else setF s R.gngStat 3 3 1
  let big := decide (100 * 64 * n < sum.natAbs)
  let st := gangState s
  if st = 1 then
    if big then { stepBy s sum n with gang := { s.gang with good := 0 } }
    else
      let s := correctRate s
      let good := if sum.natAbs ≤ 2 * 64 * n then s.gang.good + 1 else 0
      if 4 ≤ good then setGang { s with gang := { s.gang with good := 0 } } 2
      else { s with gang := { s.gang with good := good } }
  else
    let s := correctRate s
    if st = 3 then setGang { s with gang := { s.gang with good := 0 } } (if big then 1 else 2) else s

/-- A complete burst on a port: used by a follower, or met by a source (R493), or discarded. -/
def completeBurst (s : State) (p : Nat) (b : BurstRx) : State :=
  if gangState s = 4 then
    (if b.src = getF s R.gngUep 15 0 then s
     else faultBell (raise s R.gngStat 7) 0x13 0 (getF s R.gngCtl 11 0))
  else if usesBurst s b.src p then useBurst s b.src (b.sum + (b.blen : Int) * getF s (R.gngPdly p) 23 0) b.blen
  else countPartial s

/-- TSYNC_BURST_FRAME (R485, R486): a burst frame arrives on port p at t. -/
def tsyncBurstFrame (p : Port) (t : DWord) (s : State) : State :=
  match takeTsync s p.val fun f => f.blen != 0 with
  | none => s
  | some (f, s) =>
    if gangState s = 0 then s
    else
      let s := closeWindows s
      let put : State → Option BurstRx → State := fun s b =>
        { s with gang := { s.gang with bursts := match b with
            | some b => SMap.put s.gang.bursts p.val b
            | none => SMap.erase s.gang.bursts p.val } }
      let ts := leAt f.payload 0 8
      let d : Int := (ts : Int) - t.toNat
      let old := SMap.find s.gang.bursts p.val
      let live : Bool := match old with
        | some b => !b.dead
        | none => false
      let follows : Bool := match old with
        | some b => b.src == f.src && b.blen == f.blen && b.next == f.bseq && !windowClosed b t.toNat
        | none => false
      let partialNow : State → State := fun s => if gangState s = 4 then s else countPartial s
      match old with
      | some b =>
        if follows ∧ live then
          let b := { b with next := b.next + 1, sum := b.sum + d }
          if b.next = b.blen then completeBurst (put s none) p.val b else put s (some b)
        else if f.bseq = 0 then
          put (if live then partialNow s else s) (some ⟨f.src, f.blen, 1, t.toNat, d, false⟩)
        else if live then put (partialNow s) (some { b with dead := true })
        else s
      | none =>
        if f.bseq = 0 then put s (some ⟨f.src, f.blen, 1, t.toNat, d, false⟩)
        else put (partialNow s) (some ⟨f.src, f.blen, f.bseq + 1, t.toNat, 0, true⟩)

/-- HOLDOVER_ENTER (R487): no complete burst for 2 x PER. -/
def holdoverEnter (s : State) : State :=
  match s.gang.burstAt with
  | none => s
  | some t =>
    if gangState s = 2 ∧ t + 2000 * getF s R.gngCtl 23 16 ≤ s.time.lamp then setGang s 3 else s

/-- STANDBY_TAKEOVER (R490): a standby that completed no master burst for 200 microseconds becomes the source; its first
burst leaves at t. -/
def standbyTakeover (t : DWord) (s : State) : State :=
  if getF s R.gngCtl 29 28 ≠ 2 ∨ gangState s = 0 ∨ gangState s = 4 ∨ s.time.lamp < s.gang.masterAt + 200000 ∨ dead s then s
  else
    let s := setF (raise (setGang s 4) R.gngStat 4) R.gngStat 3 3 1
    burstSend t { s with gang := { s.gang with nextBurst := s.time.lamp } }

/-! ### References and GSYNC (R474; `TB_CTL`, `TB_GSCAP`) -/

/-- REFERENCE_LOSS: no edge on the selected 10 MHz input for 1 microsecond. -/
def referenceLoss (s : State) : State :=
  if flag s R.tbCtl 16 ∧ !s.time.refLost then
    raise { s with time := { s.time with refLost := true } } R.tbStat 0
  else s

/-- GSYNC_CAPTURE: a rising edge on GSYNC in captures the time base, but within 1 microsecond of the last captured edge. -/
def gsyncCapture (s : State) : State :=
  let close := match s.time.capAt with
    | some t => decide (s.time.lamp ≤ t + 1000)
    | none => false
  if close then s
  else raise (wr64 { s with time := { s.time with capAt := some s.time.lamp } } R.tbGscap (nowNs s)) R.tbStat 2

/-- GSYNC_PULSE: GSYNC out drives a 100 ns pulse at each multiple of GSOPER microseconds. -/
def gsyncPulse (s : State) : State :=
  let per := 1000 * getF s R.tbCtl 15 0
  if !flag s R.tbCtl 31 || per == 0 || decide (100 ≤ nowNs s % per) || s.time.pulse == nowNs s / per * per then s
  else emit (emit { s with time := { s.time with pulse := nowNs s / per * per } } (.pin "GSYNC_OUT" true))
    (.pin "GSYNC_OUT" false)

/-! ### Barriers (R497 to R499) -/

/-- A barrier's local and device counts. -/
def barOf (s : State) (b : Nat) : Nat × Nat := SMap.getD s.gang.bars b (0, 0)
/-- The state with them. -/
def setBar (s : State) (b : Nat) (v : Nat × Nat) : State :=
  { s with gang := { s.gang with bars := SMap.setD s.gang.bars b (0, 0) v } }

/-- Is a frame delivered here an arrival at the barrier unit, a WRITE below 0x400 of the device's own UEP (R497)? -/
def isArrival (s : State) (f : Frame) : Bool :=
  f.typ == 0 && f.dst == getF s R.gngUep 15 0 && rtKind (routeOf s (f.epoch % 2) f.dst) == 3 && decide (f.offset < 0x400)

/-- The start of a barrier round at the source (R497): the bell with T. -/
def startBarrier (s : State) (b : Nat) : State :=
  let w := rd s (R.gngBar0 b)
  let t := 24 * ceilDiv (s.time.now + bits w 30 24 * 1000 * 2 ^ 32) (24 * 2 ^ 32)
  sendBell s true (getF s (R.gngBar1 b) 27 16) (getF s R.gngUep 15 0) (bits w 11 0) 6 b (leBytes 8 t ++ zeros 8)

/-- An arrival from a device at the source (R497); elsewhere it is lost. -/
def deviceArrival (s : State) (b : Nat) : State :=
  if gangState s ≠ 4 then s
  else
    let n := (barOf s b).2 + 1
    let need := getF s (R.gngBar1 b) 12 0
    if n < need then setBar s b ((barOf s b).1, n)
    else startBarrier (setBar s b ((barOf s b).1, n - need)) b

/-- A local arrival (R497): the last of a round sends one WRITE to the current source. -/
def localArrival (s : State) (b : Nat) : State :=
  let n := (barOf s b).1 + 1
  let need := getF s (R.gngBar0 b) 23 12
  if n < need then setBar s b (n, (barOf s b).2)
  else
    let s := setBar s b (n - need, (barOf s b).2)
    let r := freshBytes s 16
    sendFrame r.2 (.device 0x7F2) { Frame.blank with
      typ := 0, cls := 1, dst := sourceEp s, src := getF s R.gngUep 15 0, job := getF s (R.gngBar0 b) 11 0, len := 1,
      offset := 16 * b, tsw := 1, payload := r.1 }

/-- BARRIER_ARRIVAL (R497, R498): the first arrival delivered here is refused or counted: from a port, or from this device's
own unit, as a device's; any other as a local participant's. -/
def barrierArrival (s : State) : State :=
  match takeFirst (fun p : Pkt => isArrival s p.f) s.inbox with
  | none => s
  | some (p, rest) =>
    let s := { s with inbox := rest }
    let b := p.f.offset / 16
    let w := rd s (R.gngBar0 b)
    if !bit w 31 || bits w 11 0 != p.f.job || p.f.len != 1 then bump s R.gngCntBref 1
    else match p.org with
      | .port _ => deviceArrival s b
      | .device _ => deviceArrival s b
      | .core _ _ _ _ => localArrival s b
      | .host _ _ _ => localArrival s b
      | .mill _ _ _ _ => localArrival s b
      | .reply _ => localArrival s b

/-- BARRIER_START_BELL (R497, R499): the first start bell delivered here makes the local write of T. -/
def barrierStartBell (s : State) : State :=
  match takeFirst (fun p : Pkt => p.f.typ == 6 && p.f.code == 6) s.inbox with
  | none => s
  | some (p, rest) =>
    let s := { s with inbox := rest }
    let b := p.f.arg % 64
    let w2 := rd s (R.gngBar2 b)
    let t := leAt p.f.payload 0 8
    if !flag s (R.gngBar0 b) 31 then s
    else
      let s := if t * 2 ^ 32 < s.time.now + 1000 * 2 ^ 32 then raise (bump s R.gngCntLate 1) R.gngStat 6 else s
      sendFrame s (.device 0x7F2) { Frame.blank with
        typ := 0, cls := 1, dst := bits w2 15 0, src := getF s R.gngUep 15 0, job := getF s (R.gngBar0 b) 11 0, len := 1,
        offset := getF s (R.gngBar3 b) 31 4 * 16, tally := bits w2 31 16, tsw := 1, payload := leBytes 8 t ++ zeros 8 }

/-! ### The rows -/

/-- DELAY_EXCHANGE_START. -/
def execDelayExchangeStart (p : Port) (t : DWord) (s : State) : Out := .next (delayExchangeStart p t s)
/-- DELAY_REQUEST. -/
def execDelayRequest (p : Port) (t : DWord) (s : State) : Out := .next (delayRequest p t s)
/-- DELAY_REPLY_SEND. -/
def execDelayReplySend (p : Port) (s : State) : Out := .next (delayReplySend p s)
/-- DELAY_REPLY. -/
def execDelayReply (p : Port) (t : DWord) (s : State) : Out := .next (delayReply p t s)
/-- BURST_SEND. -/
def execBurstSend (t : DWord) (s : State) : Out := .next (burstSend t s)
/-- TSYNC_BURST_FRAME. -/
def execTsyncBurstFrame (p : Port) (t : DWord) (s : State) : Out := .next (tsyncBurstFrame p t s)
/-- BURST_RELAY. -/
def execBurstRelay (t : DWord) (s : State) : Out := .next (burstRelay t s)
/-- HOLDOVER_ENTER. -/
def execHoldoverEnter (s : State) : Out := .next (holdoverEnter s)
/-- STANDBY_TAKEOVER. -/
def execStandbyTakeover (t : DWord) (s : State) : Out := .next (standbyTakeover t s)
/-- REFERENCE_LOSS. -/
def execReferenceLoss (s : State) : Out := .next (referenceLoss s)
/-- GSYNC_CAPTURE. -/
def execGsyncCapture (s : State) : Out := .next (gsyncCapture s)
/-- GSYNC_PULSE. -/
def execGsyncPulse (s : State) : Out := .next (gsyncPulse s)
/-- BARRIER_ARRIVAL. -/
def execBarrierArrival (s : State) : Out := .next (barrierArrival s)
/-- BARRIER_START_BELL. -/
def execBarrierStartBell (s : State) : Out := .next (barrierStartBell s)

end Sys2Proof.Machine
end

