-- ==== Sys2Proof/Machine/Maint.lean ====
section
/-! DEFINITION. Sys2Proof/Machine/Maint.lean: a port that stops taking new frames (15_links.md R564, R657), and the
maintenance arbiter (16_power_health.md R596 to R601). -/

namespace Sys2Proof.Machine

/-! ### Training units and a port that stops (15 R556, R564) -/

/-- WIDTH of Table LNK-2 that a port asks for. -/
def askedWidth (s : State) (p : Nat) : Nat := 3 - getF s (R.prtCtl p) 9 8
/-- LMAX that a port offers (R570). -/
def offeredMax (s : State) (p : Nat) : Nat := min (getF s (R.prtLvl p) 7 4) (getF s (R.prtLvl p) 11 8)
/-- The lanes that a port offers as received cleanly: a retired lane is not (R566). -/
def offeredGood (s : State) (p : Nat) : Nat := (portOf s p).good &&& (255 - getF s (R.prtLane p) 31 24)

/-- The training unit that a port sends (Table LNK-3). -/
def trainingUnit (s : State) (p : Nat) : List Byte :=
  let x := portOf s p
  let r := x.result.getD (0, 0, 0)
  let b := leBytes 8 Config.devid.toNat ++ leBytes 2 (getF s R.gngUep 15 0) ++ leBytes 1 p ++
    leBytes 1 (askedWidth s p) ++ leBytes 1 (offeredGood s p) ++
    leBytes 1 (getF s (R.prtLvl p) 3 0 + 16 * offeredMax s p) ++
    leBytes 1 (b2n x.wasUp + 2 * b2n x.result.isSome) ++ zeros 1 ++ leBytes 2 (if x.wasUp then x.ack else 0) ++
    leBytes 1 r.1 ++ leBytes 1 r.2.1 ++ leBytes 1 r.2.2 ++ zeros 7
  b ++ leBytes 4 (crc32c b)

/-- A port sends its training unit. -/
def sendTraining (s : State) (p : Nat) : State := emit s (.linkUnit p (trainingUnit s p))

/-- A port enters TRAIN where EN is 1 and it is not retired, RETIRED where it is, else OFF (R556, R563; 16 R588). -/
def startTraining (s : State) (p : Nat) : State :=
  if flag s (R.prtStat p) 25 then setPortState s p 5
  else if !flag s (R.prtCtl p) 31 ∨ s.power.lamp ≠ 0 then setPortState s p 0
  else
    let s := setPortState s p 1
    sendTraining (setPort s p { portOf s p with result := none, retry := none, ctlIn := [] }) p

/-- A port that is UP stops taking new frames: for a disable (0) or a retrain (1). Its circuits close, and its queued frames
enter the lookup at once (R564, R657; 08 R321). -/
def stopPort (s : State) (p why : Nat) : State :=
  let x := portOf s p
  if portState s p ≠ 2 then s
  else match x.stopping with
    | some (_, t) => setPort s p { x with stopping := some (why, t) }
    | none =>
      let s := setPort s p { x with stopping := some (why, s.time.lamp) }
      let s := setF s (R.cirPort p) 31 31 0
      clearPort (closeOnPort s p) p 0

/-! ### The arbiter -/

/-- The optical engine of a port (15 R546). -/
def engineOf (p : Nat) : Nat := p / 4

/-- Are two activities on their units compatible (R597, Table PWR-4)? -/
def compatible (s : State) (a : Nat × Nat) (b : Nat × Nat) : Bool :=
  let w := rd s (R.pwrMcmp a.1)
  bit w b.1 || (bit w (8 + b.1) && engineOf a.2 != engineOf b.2)

/-- The first codeword of a stack's scrub slice, and the codewords of it that a list names. -/
def sliceStart (s : State) (d : Nat) : Nat := d * stackSize + SMap.getD s.deep.scrubPos d 0 * 0x1000000

/-- A scrub slice reads its 16 MiB: every corrected and every uncorrectable codeword in it is met (06 R234 to R238); the pass
goes on with the next slice. -/
def scrubSlice (s : State) (d : Nat) : State :=
  let a := sliceStart s d
  let s := (meetDeep s 3 [(a, 0x1000000)]).1
  let s := ((deepHits s.deep.ue a 0x1000000).drop 1).foldl (fun s c => (meetDeep s 3 [(c / 64 * 64, 64)]).1) s
  let pos := (SMap.getD s.deep.scrubPos d 0 + 1) % 12288
  { s with deep := { s.deep with scrubPos := SMap.setD s.deep.scrubPos d 0 pos } }

/-- A maintenance activity starts: a scrub slice reads; a retrain stops its port (R564); the others run until they end. -/
def startActivity (s : State) (a : Nat × Nat) : State :=
  let s := { s with power := { s.power with running := s.power.running ++ [a] } }
  if a.1 = 0 then scrubSlice s a.2
  else if a.1 = 4 then stopPort s a.2 1
  else s

/-- A request is taken by the arbiter (R598): its status. -/
def requestMaint (s : State) (a : Nat × Nat) : State × Nat :=
  let dup := s.power.running.contains a || s.power.deferred.any fun d => d.act == a.1 && d.unit == a.2
  if dup then (s, 2)
  else if (s.power.running.all (compatible s a)) && (s.power.deferred.all fun d => compatible s a (d.act, d.unit)) then
    (startActivity s a, 0)
  else if 16 ≤ s.power.deferred.length then (s, 2)
  else ({ s with power := { s.power with deferred := s.power.deferred ++ [⟨a.1, a.2, s.time.lamp, false⟩] } }, 1)

/-- Deferred requests start in their order, each that is compatible with all that runs and all deferred before it
(R599). -/
def startDeferred (s : State) : State :=
  (s.power.deferred.foldl (fun (acc : State × List Deferred) d =>
    let a := (d.act, d.unit)
    let s := acc.1
    if (s.power.running.all (compatible s a)) && (acc.2.all fun e => compatible s a (e.act, e.unit)) then
      (startActivity { s with power := { s.power with deferred := s.power.deferred.filter fun e => !(e.act == d.act && e.unit == d.unit) } } a,
        acc.2)
    else (s, acc.2 ++ [d])) (s, [])).1

/-- A retrain that a port starts on its own stops any EYESCAN on its optical engine, which ends ABORTED (R601). -/
def abortScans (s : State) (p : Nat) : State :=
  let hit := s.power.running.filter fun a => a.1 == 3 && engineOf a.2 == engineOf p
  if hit.isEmpty then s
  else
    let last : Bool := match s.power.lastReq with
      | some a => hit.contains a
      | none => false
    let s := { s with power := { s.power with running := s.power.running.filter fun a => !hit.contains a } }
    let s := if last then setF s R.pwrMreq 3 0 8 else s
    startDeferred s

end Sys2Proof.Machine
end

