-- ==== Sys2Proof/Machine/Link.lean ====
section
/-! DEFINITION. Sys2Proof/Machine/Link.lean: the rows of ports and links (15_links.md): link units, training, width changes,
FAILING, going down and link reports. -/

namespace Sys2Proof.Machine

/-! ### The fibre delay as the link layer takes it (R553) -/

/-- d of a port in ns, taken as 2 microseconds until it has been measured. -/
def linkDelay (s : State) (p : Nat) : Nat :=
  if flag s (R.gngPdly p) 31 then ceilDiv (getF s (R.gngPdly p) 23 0) 64 else 2000

/-! ### Sending again (R553, R561) -/

/-- Every unacknowledged frame of a port is sent again, in LSEQ order, with RPL = 1. -/
def resendAll (s : State) (p : Nat) : State :=
  (portOf s p).unacked.foldl (fun s f =>
    emit s (.linkUnit p (linkUnit s p 0 f.lseq true (outFrame f.e.f).toBytes))) s

/-- A resend from NAK or timeout (R553): counted, and one link error. -/
def resend (s : State) (p : Nat) : State :=
  let s := bump (resendAll s p) (R.prtCnt p 2) 1
  linkError (setPort s p { portOf s p with advanced := s.time.lamp }) p

/-- The peer's ACK of a good head: frames below it leave the replay index (R551). -/
def takeAck (s : State) (p ack : Nat) : State :=
  let x := portOf s p
  let rest := x.unacked.filter fun f => !seqBelow f.lseq ack
  if rest.length = x.unacked.length then s else setPort s p { x with unacked := rest, advanced := s.time.lamp }

/-! ### Link units (R550 to R553) -/

/-- The length a link unit must have by its head: none for a reserved KIND. -/
def unitLength (data : List Byte) : Option Nat :=
  let kind := leAt data 0 2 / 16384
  if kind = 0 then some (48 + 16 * (leAt data 22 2 % 512))
  else if kind = 1 then some 32
  else if kind = 2 then some 16
  else none

/-- Has a link unit its true length and LCRC? -/
def lcrcOk (data : List Byte) : Bool :=
  let n := data.length
  unitLength data == some n && leAt data (n - 8) 4 == crc32c (data.take (n - 8))

/-- Symbols corrected on lanes, counted in `PRT_FEC` (R548). -/
def countFec (s : State) (p : Nat) (fec : List (Nat × Nat)) : State :=
  fec.foldl (fun s e => bump s (R.prtFec p (e.1 % 8)) e.2) s

/-- LINK_UNIT_RECEIVE: a unit arrives on a port that carries traffic. `ucw` says that an uncorrectable codeword overlaps it,
`fec` the symbols corrected by lane. A good frame with the LSEQ expected is accepted; every other frame unit is discarded
and sets NAK; a control unit waits for its own row. -/
def linkUnitReceive (p : Port) (data : List Byte) (ucw : Bool) (fec : List (Nat × Nat)) (s : State) : State :=
  if portState s p.val ≠ 2 ∧ portState s p.val ≠ 3 then s
  else
    let s := countFec s p.val fec
    let kind := leAt data 0 2 / 16384
    let good := lcrcOk data && !ucw
    if !good then
      let s := if kind = 0 then setPort s p.val { portOf s p.val with nak := true } else s
      let s := if ucw then linkError (bump s (R.prtCnt p.val 0) 1) p.val else s
      if lcrcOk data then s else linkError (bump s (R.prtCnt p.val 1) 1) p.val
    else
      let w := leAt data 2 2
      let s := takeAck s p.val (w % 16384)
      let s := if bit w 14 && portState s p.val == 2 && !(portOf s p.val).unacked.isEmpty then resend s p.val else s
      let x := portOf s p.val
      if kind = 0 then
        if leAt data 0 2 % 16384 = x.ack ∧ !x.failSent then
          let f := Frame.ofBytes ((data.drop 8).take (data.length - 16))
          let s := setPort s p.val { x with ack := (x.ack + 1) % 16384, nak := false }
          { s with fab := { s.fab with rx := SMap.put s.fab.rx p.val (rxOf s p.val ++ [⟨f, bit w 15⟩]) } }
        else setPort s p.val { x with nak := true }
      else if kind = 1 then
        setPort s p.val { x with ctlIn := x.ctlIn ++ [(w % 16384, (data.drop 8).take 16)] }
      else s

/-- LINK_REPLAY_TIMEOUT: no advance of ACK for 2 d + 1 microsecond resends from the oldest unacknowledged frame. -/
def linkReplayTimeout (p : Port) (s : State) : State :=
  let x := portOf s p.val
  if portState s p.val = 2 ∧ !x.unacked.isEmpty ∧ x.advanced + 2 * linkDelay s p.val + 1000 ≤ s.time.lamp then
    resend s p.val
  else s

/-- Has an UP port a frame that it could send now? -/
def hasFrame (s : State) (p : Nat) : Bool :=
  linkRoom s p && (!(ctlOf s p).isEmpty || match (queueOf s p).frames.head? with
    | some e => !e.sump
    | none => false)

/-- LINK_IDLE_SEND: a port with nothing else to send sends an idle. -/
def linkIdleSend (p : Port) (s : State) : State :=
  if portState s p.val = 2 ∧ !hasFrame s p.val then emit s (.linkUnit p.val (linkUnit s p.val 2 0 false [])) else s

/-! ### Training (R556 to R562) -/

/-- How many of the eight lanes a mask holds. -/
def laneCount (m : Nat) : Nat := ((List.range 8).filter (bit m)).length
/-- The lowest n lanes of a mask. -/
def lowestLanes (m n : Nat) : Nat := (((List.range 8).filter (bit m)).take n).foldl (fun a l => a + 2 ^ l) 0
/-- WIDTH of Table LNK-2 as a number of lanes: 1 two, 2 four, 3 eight. -/
def widthLanes (w : Nat) : Nat := 2 ^ w
/-- The largest WIDTH whose lanes fit a number of lanes; 0 below two. -/
def widestFit (n : Nat) : Nat := if 8 ≤ n then 3 else if 4 ≤ n then 2 else if 2 ≤ n then 1 else 0

/-- A training fails; it is tried again 10 ms later (R559). -/
def trainingFails (s : State) (p : Nat) : State :=
  setPort s p { portOf s p with retry := some (s.time.lamp + 10000000), result := none }

/-- The frames of a retrain (R561): those below the peer's ACK leave the replay index, the rest go again; on a first
training LSEQ starts at 0, and frames of a peer that has lost its count wait for a link report (log 34). -/
def resume (s : State) (p : Nat) (rt : Bool) (ack : Nat) : State :=
  let x := portOf s p
  if x.wasUp ∧ rt then
    let s := setPort s p { x with
      unacked := x.unacked.filter fun f => !seqBelow f.lseq ack
      advanced := s.time.lamp, wasUp := false, nak := false, failSent := false, errs := [] }
    resendAll s p
  else
    setPort s p { x with
      next := 0, ack := 0, nak := false, unacked := [], advanced := s.time.lamp, wasUp := false, failSent := false, errs := []
      doubt := x.doubt ++ x.unacked
      doubtAt := if x.unacked.isEmpty then x.doubtAt else s.time.lamp }

/-- A port reaches UP with RESULT (R560 to R562): its peer, width, lanes and level; a peer other than the last one sets
IDCHG and takes the port out of its bond; delay exchanges start (13 R480). -/
def reachUp (s : State) (p peer uep port rt ack : Nat) (r : Nat × Nat × Nat) : State :=
  let last := (portOf s p).lastPeer
  let s := resume s p (rt % 2 == 1) ack
  let s := setPortState s p 2
  let s := setF (setF s (R.prtStat p) 11 8 r.2.2) (R.prtStat p) 5 4 r.2.1
  let s := setF (setF s (R.prtLane p) 15 8 r.1) (R.prtLane p) 23 16 0
  let s := wr64 s (R.prtPeer p) peer
  let s := setF (setF s (R.prtPeerx p) 31 16 uep) (R.prtPeerx p) 5 0 port
  let s := if last ≠ 0 ∧ last ≠ peer then
      let s := raise s (R.prtStat p) 20
      if (bondOf s p).isSome then { s with gang := { s.gang with left := s.gang.left ++ [p] } } else s
    else s
  startExchanges (setPort s p { portOf s p with lastPeer := peer }) p

/-- TRAINING_UNIT_RECEIVE: a training unit of 32 bytes arrives, `good` being the lanes this side receives cleanly. In TRAIN
the leader decides RESULT, the other side takes it, and both reach UP. At an UP port a unit with no RESULT is the peer's
retrain, which passes the arbiter by (R558, R601); one with a RESULT is a repeat of the training that ended. -/
def trainingUnitReceive (p : Port) (data : List Byte) (good : Byte) (s : State) : State :=
  let n := p.val
  if leAt data 28 4 ≠ crc32c (data.take 28) then s
  else if portState s n = 2 then
    if (portOf s n).stopping.isSome ∨ bit (byteAt data 14) 1 then s else abortScans (stopPort s n 1) n
  else if portState s n ≠ 1 ∨ (portOf s n).retry.isSome then s
  else
    let s := setPort s n { portOf s n with good := good.toNat }
    let peer := leAt data 0 8
    let own := Config.devid.toNat
    let u := byteAt data 12 &&& offeredGood s n
    let lv := byteAt data 13
    let lvl := min (lv / 16) (offeredMax s n)
    let lmin := max (lv % 16) (getF s (R.prtLvl n) 3 0)
    let flags := byteAt data 14
    if peer = own then trainingFails (raise s (R.prtStat n) 22) n
    else if laneCount u < 2 then trainingFails s n
    else if lvl < lmin then trainingFails (raise s (R.prtStat n) 19) n
    else
      let w := min (min (askedWidth s n) (byteAt data 11)) (widestFit (laneCount u))
      let up := fun (s : State) (r : Nat × Nat × Nat) =>
        reachUp (setPort s n { portOf s n with lanes := u }) n peer (leAt data 8 2) (byteAt data 10 % 64) flags (leAt data 16 2) r
      let told := (byteAt data 18, byteAt data 19, byteAt data 20)
      if peer < own then
        let r := (lowestLanes u (widthLanes w), w, lvl)
        let s := sendTraining (setPort s n { portOf s n with result := some r }) n
        if bit flags 1 && told == r then up s r else s
      else if bit flags 1 then
        up (sendTraining (setPort s n { portOf s n with result := some told }) n) told
      else sendTraining s n

/-- TRAIN_RETRY: 10 ms after a failed training the port trains again. -/
def trainRetry (p : Port) (s : State) : State :=
  match (portOf s p.val).retry with
  | some t => if portState s p.val = 1 ∧ t ≤ s.time.lamp then startTraining s p.val else s
  | none => s

/-! ### Width changes (R565, R566; Table LNK-2) -/

/-- A control unit of a port (Table LNK-2). -/
def sendControl (s : State) (p op width mask at0 : Nat) : State :=
  emit s (.linkUnit p (linkUnit s p 1 0 false
    (leBytes 1 op ++ leBytes 1 width ++ leBytes 1 mask ++ zeros 1 ++ leBytes 4 at0 ++ leBytes 8 Config.devid.toNat)))

/-- The lanes of an UP port that are still usable: those of the last training that have not been dropped since. -/
def usableLanes (s : State) (p : Nat) : Nat := (portOf s p).lanes &&& (255 - getF s (R.prtLane p) 23 16)

/-- A port asks for a narrower width, where no change is under way and two lanes are usable. -/
def askWidth (s : State) (p : Nat) : State :=
  let x := portOf s p
  let u := usableLanes s p
  let w := min (askedWidth s p) (widestFit (laneCount u))
  if portState s p ≠ 2 ∨ x.width.isSome ∨ w = 0 then s
  else sendControl (setPort s p { x with width := some ⟨u, w, none⟩ }) p 1 w u 0

/-- LANE_FAIL: the receiver marks an active lane bad: one event on the lane; it falls from ACTIVE into BAD, and WREQ goes
out unless a change is under way. -/
def laneFail (p : Port) (l : Fin 8) (s : State) : State :=
  if portState s p.val ≠ 2 ∨ !flag s (R.prtLane p.val) (8 + l.val) then s
  else
    let s := setF (raise s (R.prtLane p.val) (16 + l.val)) (R.prtLane p.val) (8 + l.val) (8 + l.val) 0
    let r := event s (.lane (8 * p.val + l.val)) 1
    let s := if r.2 then raise (recordRetired r.1 (.lane (8 * p.val + l.val))) (R.prtLane p.val) (24 + l.val) else r.1
    askWidth s p.val

/-- The first control unit received on a port, where its OP is this one; it is consumed. -/
def takeControl (s : State) (p op : Nat) : Option (Nat × List Byte × State) :=
  match (portOf s p).ctlIn with
  | [] => none
  | (a, b) :: r => if byteAt b 0 = op then some (a, b, setPort s p { portOf s p with ctlIn := r }) else none

/-- The codewords of 25.6 ns in 2 d + 1 microsecond, rounded up. -/
def switchLead (s : State) (p : Nat) : Nat := ceilDiv (10 * (2 * linkDelay s p + 1000)) 256

/-- WREQ: a received WREQ is answered with WACK, unless this side has asked too and its DEVID is the lower one (R558).
`cw` is the codeword count of lane 0; AT lies 2 d + 1 microsecond ahead and a free number of codewords more (log 35). -/
def wreq (p : Port) (cw : Word) (s : State) : State :=
  match takeControl s p.val 1 with
  | none => s
  | some (_, b, t) =>
    let x := portOf t p.val
    let decide1 := fun (t : State) (own : Nat) =>
      let u := byteAt b 2 &&& usableLanes t p.val
      let w := min (min own (byteAt b 1)) (widestFit (laneCount u))
      if w = 0 then t
      else
        let m := lowestLanes u (widthLanes w)
        let r := fresh t 16
        let at0 := (cw.toNat + switchLead t p.val + r.1) % 2 ^ 32
        sendControl (setPort r.2 p.val { portOf r.2 p.val with width := some ⟨m, w, some at0⟩ }) p.val 2 w m at0
    if portState t p.val ≠ 2 then t
    else match x.width with
      | none => decide1 t (askedWidth t p.val)
      | some ⟨_, own, none⟩ => if rd64 t (R.prtPeer p.val) < Config.devid.toNat then decide1 t own else t
      | some ⟨_, _, some _⟩ => t

/-- WACK: a received WACK answers this side's WREQ and fixes mask, width and switch point. -/
def wack (p : Port) (s : State) : State :=
  match takeControl s p.val 2 with
  | none => s
  | some (_, b, t) =>
    match (portOf t p.val).width with
    | some ⟨_, _, none⟩ =>
      setPort t p.val { portOf t p.val with width := some ⟨byteAt b 2, byteAt b 1 % 4, some (leAt b 4 4)⟩ }
    | some ⟨_, _, some _⟩ => t
    | none => t

/-- WIDTH_SWITCH: at codeword count AT the port takes its new lanes and width; LANEDROP is set; below 8 lanes its circuits
close, and the frames that wait here for their slots fall back (08 R313, R324). -/
def widthSwitch (p : Port) (s : State) : State :=
  let x := portOf s p.val
  match x.width with
  | some ⟨m, w, some _⟩ =>
    if portState s p.val ≠ 2 then s
    else
      let s := setPort s p.val { x with width := none }
      let s := setF s (R.prtLane p.val) 15 8 m
      let s := raise (setF s (R.prtStat p.val) 5 4 w) (R.prtStat p.val) 18
      if w < 3 then dropSlots (closeOnPort s p.val) p.val fun _ => true else s
  | some ⟨_, _, none⟩ => s
  | none => s

/-! ### FAILING and going down (R563 to R568, Table LNK-6) -/

/-- The port sends FAIL, whose head carries its ACK; what is left in its control queue is routed again (Table LNK-6). -/
def sendFail (s : State) (p : Nat) : State :=
  let s := sendControl (clearPort s p 0) p 3 0 0 0
  setPort s p { portOf s p with failSent := true }

/-- FAILING_BELLS_END: once no bell is left to send, or 16 have gone, or 1 microsecond has passed, the port sends FAIL. -/
def failingBellsEnd (p : Port) (s : State) : State :=
  let x := portOf s p.val
  if portState s p.val = 3 ∧ !x.failSent ∧
      ((ctlOf s p.val).isEmpty ∨ 16 ≤ x.bells ∨ x.since + 1000 ≤ s.time.lamp) then sendFail s p.val
  else s

/-- FAIL_RECEIVE: a received FAIL makes the port send its own, where it has not, and go DOWN with the peer's ACK. -/
def failReceive (p : Port) (s : State) : State :=
  match takeControl s p.val 3 with
  | none => s
  | some (ack, _, t) =>
    if portState t p.val = 2 then
      let t := setPortState t p.val 3
      let t := closeOnPort (setF t (R.cirPort p.val) 31 31 0) p.val
      goDown (sendFail t p.val) p.val (some ack)
    else if portState t p.val = 3 then
      goDown (if (portOf t p.val).failSent then t else sendFail t p.val) p.val (some ack)
    else t

/-- FAILING_TIMEOUT: a failing port goes DOWN when the peer's FAIL has not arrived by 2 d + 1.5 microseconds. -/
def failingTimeout (p : Port) (s : State) : State :=
  let x := portOf s p.val
  if portState s p.val = 3 ∧ x.failSent ∧ x.since + 2 * linkDelay s p.val + 1500 ≤ s.time.lamp then goDown s p.val none
  else s

/-- Ports that lose their signal together (R33, R563): those that carry traffic are DOWN at once; then the circuits of each
close, its queued frames are re-routed (R657), and it sends its link report. -/
def loseSignal (s : State) (ps : List Nat) : State :=
  let ps := ps.filter fun p => portState s p == 2 || portState s p == 3
  let s := ps.foldl (fun s p => setF (setPortState s p 4) (R.cirPort p) 31 31 0) s
  ps.foldl (fun s p => goDown (clearPort (closeOnPort s p) p 0) p none) s

/-- SIGNAL_LOSS: one port loses its signal, or the four of an optical engine do. -/
def signalLoss (p : SignalAt) (s : State) : State := loseSignal s p.ports

/-- PORT_DRAIN_END: a port that has stopped taking new frames leaves UP when every sent frame is acknowledged, or after
16 microseconds. For a retrain the frames still unacknowledged wait for the peer's ACK of the training units (R561); for a
disable they are in doubt (R568), and a port that has EN again trains (Table LNK-4). -/
def portDrainEnd (p : Port) (s : State) : State :=
  let x := portOf s p.val
  match x.stopping with
  | none => s
  | some (why, t) =>
    if !x.unacked.isEmpty ∧ s.time.lamp < t + 16000 then s
    else if why = 1 then
      let s := leftUp s p.val 1
      let s := setPort s p.val { portOf s p.val with stopping := none, width := none, wasUp := true }
      startTraining s p.val
    else
      let s := leftUp s p.val 0
      let s := setPort s p.val { portOf s p.val with
        stopping := none, width := none, doubt := x.unacked, doubtAt := s.time.lamp, unacked := [], nak := false, ctlIn := [] }
      let s := if x.unacked.isEmpty then s else sendReport s p.val
      if flag s (R.prtCtl p.val) 31 then startTraining s p.val else s

/-- DOWN_TIMEOUT: after 1 ms a DOWN port trains again (R563). -/
def downTimeout (p : Port) (s : State) : State :=
  if portState s p.val = 4 ∧ (portOf s p.val).since + 1000000 ≤ s.time.lamp then startTraining s p.val else s

/-! ### Link reports (R568) -/

/-- Is a frame a link report: a WRITE to the gang-unit endpoint at the OFFSET of a port? -/
def isReport (f : Frame) : Bool :=
  f.typ == 0 && f.len == 1 && f.job == 0xFFF && decide (0x400 ≤ f.offset) && decide (f.offset < 0x400 + 16 * 64) &&
  f.offset % 16 == 0

/-- LINK_REPORT: the first report received is handed to its port, where its DEVID is the peer's: the frames in doubt below
its ACK are discarded as delivered, the rest re-routed. -/
def linkReport (s : State) : State :=
  match takeFirst (fun p : Pkt => isReport p.f) s.inbox with
  | none => s
  | some (k, rest) =>
    let s := { s with inbox := rest }
    let p := (k.f.offset - 0x400) / 16
    if leAt k.f.payload 0 8 = rd64 s (R.prtPeer p) then resolveDoubt s p (leAt k.f.payload 8 2 % 16384) true else s

/-- LINK_REPORT_TIMEOUT: with no report 16 microseconds after the port left UP, its frames in doubt are discarded and
counted, RPTLOST is set, and each of their jobs gets a FAULT bell. -/
def linkReportTimeout (p : Port) (s : State) : State :=
  let x := portOf s p.val
  if x.doubt.isEmpty ∨ s.time.lamp < x.doubtAt + 16000 then s
  else
    let s := setPort s p.val { x with doubt := [] }
    let s := raise (bump s (R.prtCnt p.val 5) x.doubt.length) (R.prtStat p.val) 21
    faultBells s 0x14 p.val ((x.doubt.map fun d => d.e.f.job).eraseDups)

/-! ### The rows -/

/-- LINK_UNIT_RECEIVE. -/
def execLinkUnitReceive (p : Port) (data : List Byte) (ucw : Bool) (fec : List (Nat × Nat)) (s : State) : Out :=
  .next (linkUnitReceive p data ucw fec s)
/-- LINK_REPLAY_TIMEOUT. -/
def execLinkReplayTimeout (p : Port) (s : State) : Out := .next (linkReplayTimeout p s)
/-- LINK_IDLE_SEND. -/
def execLinkIdleSend (p : Port) (s : State) : Out := .next (linkIdleSend p s)
/-- TRAINING_UNIT_RECEIVE: 32 bytes (Table LNK-3). -/
def execTrainingUnitReceive (p : Port) (data : List Byte) (good : Byte) (s : State) : Out :=
  if data.length = 32 then .next (trainingUnitReceive p data good s) else .fault .malformedCommand
/-- TRAIN_RETRY. -/
def execTrainRetry (p : Port) (s : State) : Out := .next (trainRetry p s)
/-- LANE_FAIL. -/
def execLaneFail (p : Port) (l : Fin 8) (s : State) : Out := .next (laneFail p l s)
/-- WREQ. -/
def execWreq (p : Port) (cw : Word) (s : State) : Out := .next (wreq p cw s)
/-- WACK. -/
def execWack (p : Port) (s : State) : Out := .next (wack p s)
/-- WIDTH_SWITCH. -/
def execWidthSwitch (p : Port) (s : State) : Out := .next (widthSwitch p s)
/-- FAILING_BELLS_END. -/
def execFailingBellsEnd (p : Port) (s : State) : Out := .next (failingBellsEnd p s)
/-- FAIL_RECEIVE. -/
def execFailReceive (p : Port) (s : State) : Out := .next (failReceive p s)
/-- FAILING_TIMEOUT. -/
def execFailingTimeout (p : Port) (s : State) : Out := .next (failingTimeout p s)
/-- SIGNAL_LOSS. -/
def execSignalLoss (p : SignalAt) (s : State) : Out := .next (signalLoss p s)
/-- PORT_DRAIN_END. -/
def execPortDrainEnd (p : Port) (s : State) : Out := .next (portDrainEnd p s)
/-- DOWN_TIMEOUT. -/
def execDownTimeout (p : Port) (s : State) : Out := .next (downTimeout p s)
/-- LINK_REPORT. -/
def execLinkReport (s : State) : Out := .next (linkReport s)
/-- LINK_REPORT_TIMEOUT. -/
def execLinkReportTimeout (p : Port) (s : State) : Out := .next (linkReportTimeout p s)

end Sys2Proof.Machine
end

