-- ==== Sys2Proof/Machine/Power.lean ====
section
/-! DEFINITION. Sys2Proof/Machine/Power.lean: the rows of power and health (16_power_health.md): grants, clamps, throttling,
doze and lamp, ageing and maintenance; and the spare-row copy (06_deep_store.md R239). -/

namespace Sys2Proof.Machine

/-! ### Islands: codes, voltages, neighbours (R576, R580, R583) -/

/-- `PWR_ISL.GRANT` of an island. -/
def grantOf (s : State) (g : Nat) : Nat := getF s (R.pwrIsl g) 12 8
/-- The state with a grant. -/
def setGrant (s : State) (g c : Nat) : State := setF s (R.pwrIsl g) 12 8 c
/-- The islands next to one in the 16 x 10 mesh of its die. -/
def neighbours (g : Nat) : List Nat :=
  let i := g % 160
  let x := i % 16
  let y := i / 16
  (if 0 < x then [g - 1] else []) ++ (if x < 15 then [g + 1] else []) ++
  (if 0 < y then [g - 16] else []) ++ (if y < 9 then [g + 16] else [])
/-- The voltage of a code on an island in tenths of a mV: V(c) + 5 mV x MARGIN (R576). -/
def voltAt (s : State) (g c : Nat) : Nat := (Config.volt (g / 160) c).toNat + 50 * getF s (R.pwrIsl g) 27 24
/-- The voltage of an island that is not in doze: of a rise in progress the higher one (R579). -/
def runVolt (s : State) (g : Nat) : Nat :=
  voltAt s g (match (islOf s g).rise with
    | some (c, _) => c
    | none => grantOf s g)
/-- The rail of an island: in doze the larger of 0.600 V and the highest neighbour's voltage less 120 mV, followed through at
most `fuel` dozing neighbours (Table PWR-2). -/
def railVolt (s : State) (fuel g : Nat) : Nat :=
  if !dozing s g then runVolt s g
  else match fuel with
    | 0 => 6000
    | n + 1 => (neighbours g).foldl (fun m h => max m (railVolt s n h - 1200)) 6000
/-- Is a the faster of two islands, by code, then by temperature, then by index (R580)? -/
def fasterThan (s : State) (g code h : Nat) : Bool :=
  if code ≠ grantOf s h then decide (grantOf s h < code)
  else if (islOf s g).temp ≠ (islOf s h).temp then decide ((islOf s h).temp < (islOf s g).temp)
  else decide (h < g)
/-- The highest code of an island within 120 mV above a voltage; 0 where there is none. -/
def codeWithin (s : State) (g v : Nat) : Nat :=
  (List.range 19).foldl (fun m c => if voltAt s g c ≤ v + 1200 then c else m) 0
/-- The difference of two temperatures in quarter degrees. -/
def tempGap (s : State) (g h : Nat) : Nat := ((islOf s g).temp - (islOf s h).temp).natAbs

/-! ### Sensors (R590; 17 R629) -/

/-- A quotient that the spec does not say how to round: down or up by a free bit (log 43). -/
def roundFree (s : State) (x d : Int) : Int × State :=
  if x % d = 0 then (x / d, s)
  else
    let r := fresh s 1
    (x / d + (r.1 : Int), r.2)

/-- One stack's reading: outside -20 to 125 degrees it is discarded; the third in a row is a device fault (17 R629). -/
def stackReading (s : State) (d : Nat) (t : Int) : State :=
  let ok := decide (-80 ≤ t) && decide (t ≤ 500)
  let bad := if ok then 0 else s.power.stackBad.getD d 0 + 1
  let p := { s.power with stackBad := s.power.stackBad.set d bad }
  let s := { s with power := if ok then { p with stackTemps := p.stackTemps.set d t } else p }
  if bad = 3 then deviceFault s 0x06 0 else s

/-- The readings of an evaluation: temperatures, and since when an island is at 105 degrees. -/
def takeReadings (s : State) (r : Readings) : State :=
  let s := { s with power := { s.power with switchTemp := r.switchDie, watts := r.watts } }
  let s := r.temps.foldl (fun s e => if e.1 < 1280 then setIsl s e.1 { islOf s e.1 with temp := e.2 } else s) s
  ((List.range 8).zip r.stackTemps).foldl (fun s e => stackReading s e.1 e.2) s

/-- The hottest sensor in quarter degrees. -/
def hottest (s : State) : Int :=
  let m := s.power.stackTemps.foldl max s.power.switchTemp
  (List.range 1280).foldl (fun m g => max m (islOf s g).temp) m

/-- WARN and the thermal trip (R590, R606): at WARN degrees `PWR_STAT.WARN`, at 108 degrees THERMTRIP_N low and a device
fault, whose UNIT is the first island at that temperature, else 0. -/
def sensorLimits (s : State) : State :=
  let m := hottest s
  let s := if (4 * getF s R.pwrTherm 7 0 : Int) ≤ m then
      (if flag s R.pwrStat 2 then s else alertLow (raise s R.pwrStat 2))
    else s
  if m < 432 ∨ s.power.tripped then s
  else
    let unit := ((List.range 1280).find? fun g => decide (432 ≤ (islOf s g).temp)).getD 0
    let s := emit { s with power := { s.power with tripped := true } } (.pin "THERMTRIP_N" false)
    deviceFault s 0x01 unit

/-! ### Power (R592) -/

/-- The package estimate in W: the on-die estimate as the last telemetry corrected it (log 44). -/
def packageWatts (s : State) : Nat := ((s.power.watts : Int) + s.power.corr).toNat
/-- Is the estimate over the cap? -/
def overCap (s : State) : Bool := decide (getF s R.pwrCap 11 0 < packageWatts s)

/-! ### HEALTH_EVALUATE (R577 to R581, R590, R592) -/

/-- The code an island may reach but for its neighbours: target, FMAX, throttle, cap, one code up at most. -/
def ownLimit (s : State) (g : Nat) (ovr hold : Bool) : Nat :=
  let c := grantOf s g
  let x := islOf s g
  let thr := getF s R.pwrTherm 15 8
  let want := min (getF s (R.pwrIsl g) 4 0) (getF s (R.pwrIsl g) 20 16)
  let heat := if (4 * thr : Int) ≤ x.temp then c - 1
    else if x.throt ∧ (4 * thr : Int) - 12 ≤ x.temp then c else want
  let cap := if ovr then (if busy s g && !dozing s g then c - 1 else c) else if hold then c else want
  min (min want heat) (min cap (c + 1))

/-- The neighbours that clamp an island at a code: for voltage or for temperature (R580). -/
def clampers (s : State) (g code : Nat) : List Nat :=
  (neighbours g).filter fun h => fasterThan s g code h &&
    (decide (railVolt s 2 h + 1200 < voltAt s g code) || decide (100 < tempGap s g h))

/-- The code an island reaches with its neighbours, and whether temperature lowers or holds it. -/
def clampLimit (s : State) (g code : Nat) : Nat × Bool :=
  let c := grantOf s g
  let x := islOf s g
  let l := (clampers s g code).foldl (fun m h =>
    let v := if railVolt s 2 h + 1200 < voltAt s g code then codeWithin s g (railVolt s 2 h) else code
    let t := if 100 < tempGap s g h then c - 1 else code
    (min m.1 (min v t), m.2 || (decide (100 < tempGap s g h)))) (code, false)
  if x.clampT ∧ x.clampWith.any (fun h => decide (80 < tempGap s g h)) then (min l.1 c, true) else l

/-- One island's evaluation on the state at its start: the new grant takes effect at once where it falls, and a rise's voltage
starts to rise (R578, R579). -/
def evalIsland (s0 : State) (ovr hold : Bool) (s : State) (g : Nat) : State :=
  let x := islOf s0 g
  let c := grantOf s0 g
  let thr := getF s0 R.pwrTherm 15 8
  let hotNow := decide ((4 * thr : Int) ≤ x.temp)
  let own := ownLimit s0 g ovr hold
  let cl := clampLimit s0 g own
  let new := cl.1
  let by0 := clampers s0 g own
  let acts := !by0.isEmpty && decide (new < own)
  let clamped := flag s0 (R.pwrIsl g) 31
  let s := if hotNow then bump s R.pwrCntThrot 1 else s
  let s := if acts && !clamped then
      raise (bump (raise s (R.pwrIsl g) 31) R.pwrCntClamp 1) R.pwrStat 0
    else s
  let mates := if acts then (x.clampWith ++ by0).eraseDups else x.clampWith
  let calm := clamped && !decide (new < own) && mates.all fun h =>
    decide (voltAt s0 g new ≤ railVolt s0 2 h + 1000) && decide (railVolt s0 2 h ≤ voltAt s0 g new + 1000) &&
    decide (tempGap s0 g h ≤ 80)
  let since := x.clampOk.getD s0.time.lamp
  let clears := calm && decide (since + 1000000 ≤ s0.time.lamp)
  let s := if clears then setF s (R.pwrIsl g) 31 31 0 else s
  let s := if new < c then setGrant s g new else s
  let rise := if new ≤ c then none
    else match x.rise with
      | some r => some r
      | none => some (c + 1, s0.time.lamp + 10 * (voltAt s0 g (c + 1) - voltAt s0 g c))
  let hot := if (420 : Int) ≤ x.temp then some (x.hot.getD s0.time.lamp) else none
  setIsl s g { x with
    rise := rise
    throt := hotNow || (x.throt && decide ((4 * thr : Int) - 12 ≤ x.temp))
    hot := hot
    limited := x.limited && hot.isSome
    clampWith := if clears then [] else mates
    clampOk := if clears || !calm then none else some since
    clampT := !clears && (x.clampT || (acts && cl.2)) }

/-- The rail and the temperature that an island shows (`PWR_ISLM`). -/
def showIsland (s : State) (g : Nat) : State :=
  let v := roundFree s ((railVolt s 2 g : Int) - 5000) 50
  let t := roundFree v.2 (islOf v.2 g).temp 4
  setF (setF t.2 (R.pwrIslm g) 15 8 (twos 8 v.1)) (R.pwrIslm g) 7 0 (twos 8 t.1)

/-- HEALTH_EVALUATE: every 10 microseconds. In the lamp state the islands are off, and only the sensors act. -/
def healthEvaluate (r : Readings) (s : State) : State :=
  let s := sensorLimits (takeReadings s r)
  if s.power.lamp ≠ 0 then s
  else
    let ovr := overCap s
    let hold := s.power.capHold && decide (getF s R.pwrCap 11 0 * 98 < packageWatts s * 100)
    let s := if ovr then raise s R.pwrStat 3 else s
    let s := { s with power := { s.power with capHold := ovr || hold } }
    let t := (List.range 1280).foldl (evalIsland s ovr (ovr || hold)) s
    (List.range 1280).foldl showIsland t

/-- THERMAL_LIMIT: an island at 105 degrees for 100 microseconds is granted code 0, which is one event on its cluster. -/
def thermalLimit (d : Die) (i : Clu) (s : State) : State :=
  let g := cluNo d i
  let x := islOf s g
  match x.hot with
  | none => s
  | some t =>
    if x.limited ∨ s.time.lamp < t + 100000 then s
    else clusterEvent (setGrant (setIsl s g { x with limited := true, rise := none }) g 0) g 1

/-- GRANT_SWITCH: the voltage of a rise is reached and the clock switches; GRANT stays within TGT and FMAX (R577). -/
def grantSwitch (d : Die) (i : Clu) (s : State) : State :=
  let g := cluNo d i
  let x := islOf s g
  match x.rise with
  | none => s
  | some (c, due) =>
    if s.time.lamp < due then s
    else setGrant (setIsl s g { x with rise := none }) g
      (min c (min (getF s (R.pwrIsl g) 4 0) (getF s (R.pwrIsl g) 20 16)))

/-- DROOP: the island's clock halves; counted. -/
def droop (d : Die) (i : Clu) (s : State) : State :=
  let g := cluNo d i
  let x := islOf s g
  if x.droop.isSome ∨ dozing s g then s
  else bump (setIsl s g { x with droop := some s.time.lamp }) R.pwrCntDroop 1

/-- DROOP_RECOVERY: after at least 16 cycles of the halved clock the clock returns to full speed. -/
def droopRecovery (d : Die) (i : Clu) (s : State) : State :=
  let g := cluNo d i
  let x := islOf s g
  match x.droop with
  | none => s
  | some t =>
    if s.time.lamp < t + ceilDiv 32000 (islandMHz s g) then s else setIsl s g { x with droop := none }

/-- POWER_TELEMETRY: regulator telemetry of w W corrects the estimate (R592). -/
def powerTelemetry (w : Nat) (s : State) : State :=
  { s with power := { s.power with corr := (w : Int) - (s.power.watts : Int) } }

/-! ### Doze (R584 to R587) -/

/-- Does a WAIT of one of a cluster's lists wake its island: a tally passed, or its alarm at T - 2 microseconds (R585)? -/
def waitWakes (s : State) (g : Nat) : Bool :=
  s.comp.seqs.any fun e => e.1 / 64 == g && e.2.any fun f => match f.2.run with
    | none => false
    | some r => match r.phase with
      | .issued => false
      | .done => false
      | .waiting _ =>
        if byteAt r.desc 4 = 0 then waitPassed s e.1 f.1 r.desc
        else decide (leAt r.desc 16 8 ≤ nowNs s + 2000)

/-- Is a frame or packet addressed to a cluster held for it (R585, R586)? -/
def frameWaits (s : State) (g : Nat) : Bool :=
  let hits : QEntry → Bool := fun e => match judge s e with
    | .passed _ ts => ts.any fun t => !t.deep && t.clus.any fun i => 160 * t.die + i == g
    | .refused _ _ => false
  ((arrivals s (g / 160)).any hits) || s.fab.recv.any hits ||
  (meshOf s (g / 160)).inward.any fun k => memNat (g % 160) k.mask

/-- Does a wake event stand for a cluster's island? -/
def wakeEvent (s : State) (g : Nat) : Bool := (islOf s g).wake || waitWakes s g || frameWaits s g

/-- The island of a cluster goes into doze. -/
def dozeIsl (s : State) (g : Nat) : State :=
  setF (setIsl s g { islOf s g with wake := false, waking := none, rise := none }) (R.pwrIsl g) 29 28 2

/-- DOZE_ENTER: an island idle for `PWR_DOZET.T` microseconds, with AUTODOZE and DOZEOK set and no slot switch pending,
enters doze, unless a wake event stands (R587). -/
def dozeEnter (d : Die) (i : Clu) (s : State) : State :=
  let g := cluNo d i
  if dozing s g ∨ s.power.lamp ≠ 0 ∨ busy s g ∨ s.time.lamp < (islOf s g).idleAt + 1000 * getF s R.pwrDozet 15 0 ∨
      !flag s R.pwrCtl 8 ∨ !flag s (R.pwrIsl g) 30 ∨ (slotSt s g).expired ∨ wakeEvent s g then s
  else dozeIsl s g

/-- ISLAND_WAKE: a wake event starts a dozing island's wake (R585). -/
def islandWake (d : Die) (i : Clu) (s : State) : State :=
  let g := cluNo d i
  let x := islOf s g
  if !dozing s g ∨ s.power.lamp ≠ 0 ∨ x.waking.isSome ∨ !wakeEvent s g then s
  else setIsl s g { x with waking := some s.time.lamp }

/-- WAKE_COMPLETE: 2 microseconds after its event the island is idle, and what was held for it can go on. -/
def wakeComplete (d : Die) (i : Clu) (s : State) : State :=
  let g := cluNo d i
  let x := islOf s g
  match x.waking with
  | none => s
  | some t =>
    if s.time.lamp < t + 2000 then s
    else setF (setIsl s g { x with wake := false, waking := none, idleAt := s.time.lamp }) (R.pwrIsl g) 29 28 1

/-- Every island of a function's valid slots gets a wake event (a poll hit, R585). -/
def wakeFn (s : State) (fn : Nat) : State :=
  (List.range 1280).foldl (fun s g => if holds s g fn then wakeIsl s g else s) s

/-! ### The lamp state (R588, R589) -/

/-- The package starts to leave lamp. -/
def lampWake (s : State) : State :=
  if s.power.lamp = 1 then { s with power := { s.power with lamp := 2, since := s.time.lamp } } else s

/-- A write of `PWR_CTL.LAMP` = 1 (R588): with no list running or queued, no circuit PENDING or OPEN and no maintenance, every
port goes OFF and every cluster dozes; else LAMPREF is set. -/
def lampEnter (s : State) : State :=
  if s.power.lamp ≠ 0 then s
  else if (s.comp.seqs.any fun e => e.2.any fun f => f.2.run.isSome || !f.2.queue.isEmpty) || !(liveCids s).isEmpty ||
      !s.power.running.isEmpty || !s.power.deferred.isEmpty then raise s R.pwrStat 1
  else
    let s := { s with power := { s.power with lamp := 1, since := s.time.lamp } }
    let s := (List.range 64).foldl (fun s p =>
      if portState s p = 2 then stopPort s p 0
      else if portState s p = 1 ∨ portState s p = 4 then setPortState s p 0 else s) s
    (List.range 1280).foldl dozeIsl s

/-- LAMP_ALARM: the time base reaching `PWR_ALARM` wakes the package from lamp. -/
def lampAlarm (s : State) : State :=
  if rd64 s R.pwrAlarm ≠ 0 ∧ rd64 s R.pwrAlarm ≤ nowNs s then lampWake s else s

/-- LAMP_EXIT_COMPLETE: 40 microseconds after the event the package is in run with every island idle, and ports train. -/
def lampExitComplete (s : State) : State :=
  if s.power.lamp ≠ 2 ∨ s.time.lamp < s.power.since + 40000 then s
  else
    let s := { s with power := { s.power with lamp := 0, since := s.time.lamp } }
    let s := (List.range 1280).foldl (fun s g =>
      setF (setIsl s g { islOf s g with wake := false, waking := none, idleAt := s.time.lamp }) (R.pwrIsl g) 29 28 1) s
    (List.range 64).foldl (fun s p =>
      if (portState s p = 0 ∨ portState s p = 4) ∧ flag s (R.prtCtl p) 31 then startTraining s p else s) s

/-- Is an offset in GLB or in PWR and TB (R583, R589; Table SCO-4)? -/
def answersInLamp (off : Nat) : Bool :=
  decide (off < 0x200000)

/-- BAR0_ACCESS_WAKE: a BAR0 access outside GLB, PWR and TB wakes the package from lamp; the access itself completes after the
wake, as a command of its own (log 45). -/
def bar0AccessWake (off : Nat) (s : State) : State := if answersInLamp off then s else lampWake s

/-! ### Ageing and maintenance (R593 to R600) -/

/-- AGE_SWEEP: `PWR_AGE.PER` hours after the last one, with EN set, a sweep is requested. -/
def ageSweep (s : State) : State :=
  if !flag s R.pwrAge 31 ∨ s.time.lamp < s.power.sweepAt + getF s R.pwrAge 7 0 * 3600000000000 then s
  else (requestMaint { s with power := { s.power with sweepAt := s.time.lamp } } (1, 0)).1

/-- SCRUB_SLICE_DUE: PERIOD x 3,600 / 12,288 s after a stack's last slice, with EN set, a slice is requested; `u` names what
its reads meet. -/
def scrubSliceDue (d : Die) (s : State) : State :=
  let last := SMap.getD s.power.scrubAt d.val 0
  if !flag s R.dstScrub 31 ∨ (s.time.lamp - last) * 12288 < getF s R.dstScrub 7 0 * 3600000000000 then s
  else
    let s := { s with power := { s.power with scrubAt := SMap.setD s.power.scrubAt d.val 0 s.time.lamp } }
    (requestMaint s (0, d.val)).1

/-- MARGIN for a slowdown s in 0.1 % and SENS in 0.01 % (R594). -/
def marginFor (slow sens : Nat) : Nat := if sens = 0 then (if slow = 0 then 0 else 12) else min 12 (ceilDiv (10 * slow) sens)
/-- By how many codes FMAX falls below the fused maximum (R594). -/
def fmaxDrop (slow sens : Nat) : Nat := ceilDiv (10 * slow - 12 * sens) 400

/-- The VCORE set point of a die in tenths of a mV (17 R609): the highest V(FMAX) + 5 mV x MARGIN, plus 40 mV. -/
def railFor (s : State) (d : Nat) : Nat :=
  (List.range 160).foldl (fun m i =>
    max m (voltAt s (160 * d + i) (getF s (R.pwrIsl (160 * d + i)) 20 16))) 0 + 400
/-- Every VCORE is set (17 R609). -/
def setRails (s : State) : State := { s with power := { s.power with rails := (List.range 8).map (railFor s) } }

/-- The re-plan of one island (R594, R595): MARGIN never falls and FMAX never rises; a change is recorded. -/
def replanIsland (s : State) (g : Nat) : State :=
  let sens := getF s R.pwrAge 23 16
  let slow := getF s (R.pwrIslm g) 23 16
  let m0 := getF s (R.pwrIsl g) 27 24
  let f0 := getF s (R.pwrIsl g) 20 16
  let m := max m0 (marginFor slow sens)
  let f := min f0 ((Config.fmax g).toNat - fmaxDrop slow sens)
  if m = m0 ∧ f = f0 then s
  else
    let s := setF (setF s (R.pwrIsl g) 27 24 m) (R.pwrIsl g) 20 16 f
    let w := recordWrite s
    let s := { w.2 with power := { w.2.power with
      ages := if w.1 then w.2.power.ages ++ [⟨nowNs w.2, g, m0, f0, m, f⟩] else w.2.power.ages } }
    let s := raise s R.pwrStat 5
    if f < f0 then raise s R.pwrStat 6 else s

/-- A re-plan ends: every island's steps, and the rails for them. -/
def replan (s : State) : State := setRails ((List.range 1280).foldl replanIsland s)

/-- A sweep ends: the slowdowns measured, in 0.1 %, are recorded (holding at 0xFF) and a re-plan is requested (R593). -/
def sweepEnds (s : State) (slow : List (Nat × Nat)) : State :=
  let s := slow.foldl (fun s e => if e.1 < 1280 then setF s (R.pwrIslm e.1) 23 16 (min 255 e.2) else s) s
  (requestMaint s (2, 0)).1

/-- MAINTENANCE_END: an activity that runs on a unit ends with its effect; a retrain ends once its port has left UP; deferred
requests start. -/
def maintenanceEnd (act : Fin 5) (unit : Fin 64) (slow : List (Nat × Nat)) (s : State) : State :=
  let a := (act.val, unit.val)
  if !s.power.running.contains a ∨ (act.val = 4 ∧ (portOf s unit.val).stopping.isSome) then s
  else
    let s := { s with power := { s.power with running := s.power.running.filter (· != a) } }
    let s := if act.val = 1 then sweepEnds s slow else if act.val = 2 then replan s else s
    startDeferred s

/-- `PWR_MLOG` for a late request: VALID, ACT, UNIT and the activities running. -/
def lateLog (s : State) (x : Deferred) : Nat :=
  2 ^ 31 + 2 ^ 24 * x.act + 2 ^ 16 * x.unit +
    ((List.range 5).filter fun a => s.power.running.any fun r => r.1 == a).foldl (fun m a => m + 2 ^ a) 0

/-- MAINTENANCE_LATE: the n-th deferred request has waited for more than 10 s: MLATE, the count and the log; it stays
queued. -/
def maintenanceLate (n : Nat) (s : State) : State :=
  match s.power.deferred[n]? with
  | none => s
  | some x =>
    if x.late ∨ s.time.lamp ≤ x.since + 10000000000 then s
    else
      let s := { s with power := { s.power with deferred := s.power.deferred.set n { x with late := true } } }
      wr (bump (raise s R.pwrStat 4) R.pwrCntMlate 1) R.pwrMlog (lateLog s x)

/-- ROW_SPARE_COPY_DONE (06 R239, R240): the n-th row copy ends: the mapping switches to the spare, and the retirement is
recorded. -/
def rowSpareCopyDone (n : Nat) (s : State) : State :=
  match s.deep.copies[n]? with
  | none => s
  | some c =>
    let w := recordWrite s
    let s := w.2
    let s := { s with
      deep := { s.deep with copies := s.deep.copies.eraseIdx n, rowMap := s.deep.rowMap ++ [(c.row, c.spare)],
                            rowLog := if w.1 then s.deep.rowLog ++ [(c.row, c.spare)] else s.deep.rowLog }
      flt := { s.flt with retiring := s.flt.retiring.filter (· != .row c.row) } }
    recordRetired (bumpF s (R.dstSpare (rowStack c.row)) 15 0 1) (.row c.row)

/-! ### The rows -/

/-- HEALTH_EVALUATE. -/
def execHealthEvaluate (r : Readings) (s : State) : Out := .next (healthEvaluate r s)
/-- THERMAL_LIMIT. -/
def execThermalLimit (d : Die) (i : Clu) (s : State) : Out := .next (thermalLimit d i s)
/-- GRANT_SWITCH. -/
def execGrantSwitch (d : Die) (i : Clu) (s : State) : Out := .next (grantSwitch d i s)
/-- DROOP. -/
def execDroop (d : Die) (i : Clu) (s : State) : Out := .next (droop d i s)
/-- DROOP_RECOVERY. -/
def execDroopRecovery (d : Die) (i : Clu) (s : State) : Out := .next (droopRecovery d i s)
/-- POWER_TELEMETRY. -/
def execPowerTelemetry (w : Nat) (s : State) : Out := .next (powerTelemetry w s)
/-- DOZE_ENTER. -/
def execDozeEnter (d : Die) (i : Clu) (s : State) : Out := .next (dozeEnter d i s)
/-- ISLAND_WAKE. -/
def execIslandWake (d : Die) (i : Clu) (s : State) : Out := .next (islandWake d i s)
/-- WAKE_COMPLETE. -/
def execWakeComplete (d : Die) (i : Clu) (s : State) : Out := .next (wakeComplete d i s)
/-- LAMP_ALARM. -/
def execLampAlarm (s : State) : Out := .next (lampAlarm s)
/-- LAMP_EXIT_COMPLETE. -/
def execLampExitComplete (s : State) : Out := .next (lampExitComplete s)
/-- BAR0_ACCESS_WAKE. -/
def execBar0AccessWake (off : Nat) (s : State) : Out := .next (bar0AccessWake off s)
/-- AGE_SWEEP. -/
def execAgeSweep (s : State) : Out := .next (ageSweep s)
/-- SCRUB_SLICE_DUE. -/
def execScrubSliceDue (d : Die) (u : Upsets) (s : State) : Out := .next (meeting u (scrubSliceDue d) s)
/-- MAINTENANCE_END. -/
def execMaintenanceEnd (act : Fin 5) (unit : Fin 64) (slow : List (Nat × Nat)) (u : Upsets) (s : State) : Out :=
  .next (meeting u (maintenanceEnd act unit slow) s)
/-- MAINTENANCE_LATE. -/
def execMaintenanceLate (n : Nat) (s : State) : Out := .next (maintenanceLate n s)
/-- ROW_SPARE_COPY_DONE. -/
def execRowSpareCopyDone (n : Nat) (s : State) : Out := .next (rowSpareCopyDone n s)

end Sys2Proof.Machine
end

