-- ==== Sys2Proof/Machine/Tenants.lean ====
section
/-! DEFINITION. Sys2Proof/Machine/Tenants.lean: what a function owns and how it comes and goes: cluster slots
(04_cores_clusters.md R174, R189), granules and the stack layout (06_deep_store.md R228, R231), function states and teardown
(14_host.md R538 to R545, Tables HST-4, HST-10, HST-11). -/

namespace Sys2Proof.Machine

/-! ### Cluster slots (04 R174, R175, R189; 14 R539) -/

/-- VALID of an ownership word. -/
def clValid (w sl : Nat) : Bool := bit w (48 + sl)
/-- The function of a slot of an ownership word. -/
def clFn (w sl : Nat) : Nat := bits w (fnLo sl + 9) (fnLo sl)
/-- The slots. -/
def slots4 : List Nat := List.range 4
/-- The valid slots of an ownership word. -/
def clSlots (w : Nat) : List Nat := slots4.filter (clValid w)
/-- Does slot sl of the old word lose its function in the new one? -/
def slotLost (old new sl : Nat) : Bool := clValid old sl && !(clValid new sl && clFn new sl == clFn old sl)
/-- Does slot sl of the new word gain a function? -/
def slotGained (old new sl : Nat) : Bool := clValid new sl && !(clValid old sl && clFn new sl == clFn old sl)

/-- The cases of R189 that a new ownership word falls into: RANGE, CONFLICT, BUSY. -/
def clownBad (s : State) (g new : Nat) : List Nat :=
  let old := clown s g
  let fns := (clSlots new).map (clFn new)
  (if fns.any (fun f => decide (512 < f)) ∨ fns.eraseDups.length ≠ fns.length then [4] else []) ++
  (if 1 < (clSlots new).length ∧ slots4.any (fun sl => clValid new sl && !clValid old sl) ∧ bit old 62 then [3] else []) ++
  (if slots4.any (fun sl => slotLost old new sl && hasList s g (clFn old sl)) then [2] else [])

/-- The checks of R189 on a new ownership word: the first of RANGE, CONFLICT and BUSY that holds, or 0. -/
def clownCheck (s : State) (g new : Nat) : Nat := (clownBad s g new).headD 0

/-- A cluster's live stores are zeroed. -/
def zeroCluster (s : State) (g : Nat) : State :=
  { s with comp := { s.comp with
      store := memClear s.comp.store (storeKey g 0) (2 ^ 24)
      storeUe := s.comp.storeUe.filter fun e => e.1 / 2 ^ 24 != g } }

/-- A slot's context image is zeroed, where the stack holds a context-save region. -/
def zeroImage (s : State) (g sl : Nat) : State :=
  if !flag s R.dstLayout 8 then s
  else
    let a := imageBase s g sl
    { s with deep := { s.deep with
        mem := memClear s.deep.mem a 0x350000
        ue := s.deep.ue.filter fun c => !(decide (a ≤ c) && decide (c < a + 0x350000)) } }

/-- A cluster takes a new ownership word (R174, R175, R539): pillars of a lost slot are cleared; a function gained starts from
zeros; KEEPG protections of a lost slot end; with no resident slot left the next valid one is restored without a save. -/
def takeOwner (s : State) (g new : Nat) : State :=
  let old := clown s g
  let res := resSlot s g
  let had := !(clSlots old).isEmpty
  let s := wr64 s (clownOff g) (setBits (setBits old 47 0 new) 51 48 (bits new 51 48))
  let s := if slots4.any (slotLost old new) then
      { s with comp := { s.comp with pillars := s.comp.pillars.filter fun e => e.1 / 8 != g } }
    else s
  let s := if slots4.any (slotLost old new) then syncPil s g else s
  let gone := (slots4.filter (slotLost old new)).map (clFn old)
  let s := { s with comp := { s.comp with keepg := s.comp.keepg.filter fun k => !(k.clu == g && memNat k.fn gone) } }
  let first := (clSlots new).headD res
  let s := slots4.foldl (fun s sl =>
    if !slotGained old new sl then s
    else if (had && sl == res) || (!had && sl == first) then zeroCluster s g
    else zeroImage s g sl) s
  let x := slotSt s g
  if !had then
    if (clSlots new).isEmpty then s else setSlot (setF s (clownOff g + 4) 21 20 first) g ⟨nowNs s, false, none⟩
  else if slotGained old new res then setSlot s g ⟨nowNs s, false, none⟩
  else if slotLost old new res then
    match ((upto 1 3).map fun j => (res + j) % 4).find? (clValid new) with
    | some sl => setSlot s g ⟨x.start, false, some ⟨sl, false, 0, 0⟩⟩
    | none => setSlot s g ⟨0, false, none⟩
  else match x.switch with
    | some w =>
      if slotLost old new w.slot then
        setSlot s g { x with switch := if w.saving then none else some ⟨res, false, 0, 0⟩ }
      else s
    | none => s

/-! ### Granules and layout (06 R228, R231, R241) -/

/-- Do n bytes at a device address touch a granule? -/
def touchesGranule (gr a n : Nat) : Bool :=
  n != 0 && decide (a < (gr + 1) * 0x10000000) && decide (gr * 0x10000000 < a + n)

/-- Does an asynchronous copy of a function touch a granule? -/
def copyTouches (s : State) (fn gr : Nat) : Bool :=
  s.comp.seqs.any fun e => e.2.any fun f => f.1 == fn && f.2.copies.any fun c =>
    let d := copyD c.desc
    ((CopyD.runs d d.sstr).any fun r => (deepRun d.src r.1 r.2).any fun x => touchesGranule gr x.1 x.2) ||
    ((CopyD.runs d d.dstr).any fun r => (deepRun d.dst r.1 r.2).any fun x => touchesGranule gr x.1 x.2)

/-- Does a translation window of a function touch a granule? -/
def windowTouches (s : State) (fn gr : Nat) : Bool :=
  s.rem.windows.any fun e => e.2.deep && e.2.fn == fn && touchesGranule gr e.2.taddr e.2.len

/-- The checks of R231 on a granule's new VALID and FN: RANGE, CONFLICT, BUSY, or 0. Context transfers touch no granule. -/
def granuleCheck (s : State) (gr fn : Nat) (valid : Bool) : Nat :=
  let was := flag s (R.dstOwn gr) 31
  let owner := getF s (R.dstOwn gr) 9 0
  if 512 < fn then 4
  else if !inGeneral s gr then 3
  else if flag s (R.dstOwn gr) 30 && valid && !was then 3
  else if was && (!valid || fn != owner) && (copyTouches s owner gr || windowTouches s owner gr) then 2
  else 0

/-- May `DST_LAYOUT` take a new word (R228)? -/
def layoutOk (s : State) (w : Nat) : Bool :=
  let t := wr s R.dstLayout w
  decide (bits w 4 0 ≤ 16) &&
  ((List.range 6144).all fun g => !flag s (R.dstOwn g) 31 || inGeneral t g) &&
  (bit w 8 || !flag s R.dstLayout 8 || (List.range 1280).all fun g => decide (validSlots s g ≤ 1)) &&
  (bits w 4 0 == sumpUnits s || !(s.fab.queues.any fun q => q.2.frames.any (·.sump)))

/-! ### Function states (Table HST-11) -/

/-- The live state of a function that has just been enabled: polled every 500 ns from now on. -/
def FnSt.start (now : Nat) : FnSt :=
  { interval := 500, due := now, gen := none, sqts := List.replicate 8 0, entries := List.replicate 8 (zeros 32),
    rings := [], teardown := .idle }
/-- A function's live state. -/
def fnSt (s : State) (fn : Nat) : FnSt := SMap.getD s.host.fns fn (FnSt.start 0)
/-- The state with a function's live state. -/
def setFn (s : State) (fn : Nat) (x : FnSt) : State :=
  { s with host := { s.host with fns := SMap.put s.host.fns fn x } }

/-- A refused function control is logged (`HST_ELOG`). -/
def logControl (s : State) (fn status : Nat) : State := wr s R.hstElog (2 ^ 31 + 2 ^ 10 * status + fn)

/-- An enable (Table HST-11): the state and the code. -/
def enableFn (s : State) (fn : Nat) : State × Nat :=
  if fnState s fn = 1 then (s, 0)
  else if fnState s fn = 2 then
    (logControl (raise (raise s (R.vfStatus fn) 3) R.hstStat 1) fn 2, 2)
  else if fnBound s fn && bit (rd64 s (R.vfDb fn)) 0 && decide (fn ≤ s.host.numVfs) then
    (setFn (setF (setF s (R.vfStatus fn) 2 2 0) (R.vfStatus fn) 1 0 1) fn (FnSt.start s.time.lamp), 0)
  else (logControl s fn 4, 4)

/-! ### Teardown (R538, Tables HST-4 and HST-10) -/

/-- Vectors of a function: pending messages and counts are cancelled. -/
def cancelVectors (s : State) (fn : Nat) : State :=
  let f : Nat × Vector → Nat × Vector := fun e =>
    if e.1 / 64 = fn then (e.1, { e.2 with pending := false, count := 0 }) else e
  { s with host := { s.host with vectors := s.host.vectors.map f } }

/-- Is a frame of local origin a function's? -/
def ofFn (fn : Nat) (o : Origin) : Bool := Origin.fn o == some fn

/-- The door discards a function's frames that it has not admitted, and lifts its throttles and those of dies that fall below
their threshold (09 R351); its requests are cancelled. -/
def discardFn (s : State) (fn : Nat) : State :=
  (List.range 8).foldl (fun s d => throttle1 s d none) { s with
    outbox := s.outbox.filter fun p => !ofFn fn p.org
    fab := { s.fab with
      door := s.fab.door.filter fun p => !ofFn fn p.pkt.org
      waiting := s.fab.waiting.filter fun p => !ofFn fn p.pkt.org
      throttles := s.fab.throttles.filter fun t => t.2 != some fn }
    rem := { s.rem with requests := s.rem.requests.filter fun e => e.2.fn != fn } }

/-- The drain bell (Table FAB-4 code 8) to a function's drain group, where it is valid. -/
def drainBellOut (s : State) (fn : Nat) : State :=
  let b := bindOf s fn
  if bit b 44 then sendBell s true (bits b 43 32) (fnEp s fn) (fnJob s fn) 8 (fnJob s fn + 4096 * fn) [] else s

/-- Every list and copy of a function stops at once, and nothing is reported. -/
def stopFn (s : State) (fn : Nat) : State :=
  let seqs := (s.comp.seqs.map fun e => (e.1, SMap.erase e.2 fn)).filter fun e => !e.2.isEmpty
  { s with comp := { s.comp with seqs := seqs, keepg := s.comp.keepg.filter fun k => k.fn != fn } }

/-- The streams of a function are being removed (11 R419), and its send-table entries become invalid. -/
def removeStreams (s : State) (fn : Nat) : State :=
  let s := (List.range 16).foldl (fun s m => (millOf s m).streams.foldl (fun s e =>
    if StreamSt.valid e.2 && StreamSt.fn e.2 == fn then setStream s m e.1 { e.2 with removing := true } else s) s) s
  { s with sendTbl := s.sendTbl.map fun e =>
      if bit e.2 26 && bits e.2 25 16 == fn then (e.1, setBits e.2 26 26 0) else e }

/-- A PENDING CID whose open descriptor goes with its function closes at the source, and TEARDOWN follows (08 R663). -/
def closeOpen (s : State) (w : CirWait) : State :=
  if cirState s w.cid = 1 then sendCirBell (setCir s w.cid 0) (cirEport (cirNow s w.cid)) 5 w.cid 0 else s

/-- The PENDING CIDs of a function's open descriptors close. -/
def closeOpens (s : State) (fn : Nat) : State := (s.cir.opens.filter fun w => w.fn == fn).foldl closeOpen s

/-- The teardown of a function starts (Table HST-10, t = 0): TEARDOWN; polling and records stop; frames and requests are
discarded; circuits that it is opening close; the drain bell goes out; lists stop; streams are removed; the drain wait
begins. -/
def startTeardown (s : State) (fn : Nat) : State :=
  let s := setF s (R.vfStatus fn) 1 0 2
  let s := setFn s fn { fnSt s fn with rings := [], teardown := .draining s.time.lamp }
  let s := closeOpens (cancelVectors s fn) fn
  let s := { s with
    host := { s.host with descs := s.host.descs.filter fun h => h.fn != fn }
    cir := { s.cir with opens := s.cir.opens.filter (·.fn != fn), closes := s.cir.closes.filter (·.fn != fn) } }
  removeStreams (stopFn (drainBellOut (discardFn s fn) fn) fn) fn

/-- A disable or reset of a function: an ENABLED one is torn down; in the other states nothing changes. -/
def disableFn (s : State) (fn : Nat) : State := if fnState s fn = 1 then startTeardown s fn else s

/-- Does the switch die hold an admitted frame of a function (R330)? -/
def holdsFrames (s : State) (fn : Nat) : Bool :=
  (s.fab.queues.any fun q => q.2.frames.any fun e => ofFn fn e.org) ||
  (s.fab.ctlq.any fun q => q.2.any fun e => ofFn fn e.org) ||
  (s.cir.srcq.any fun q => q.2.any fun e => ofFn fn e.org) || (s.fab.recv.any fun e => ofFn fn e.org) ||
  (s.fab.sink.any fun q => q.2.any fun e => ofFn fn e.org) || (s.fab.waiting.any fun w => ofFn fn w.pkt.org)

/-- The tallies of a function are reclaimed: VALID 0 and COUNT 0 (Table HST-4). -/
def reclaimTallies (s : State) (fn : Nat) : State :=
  let mine : Nat → Bool := fun k =>
    let r := tallyRange s fn (k / 16384)
    decide (r.1 ≤ k % 16384) && decide (k % 16384 < r.1 + r.2)
  { s with rem := { s.rem with tallies := s.rem.tallies.filter fun e => !mine e.1 } }

/-- The clusters on which a function holds a slot. -/
def clustersOf (s : State) (fn : Nat) : List Nat := (List.range 1280).filter fun g => holds s g fn

/-- A function's slot on a cluster becomes invalid. -/
def dropSlot (s : State) (fn g : Nat) : State :=
  match slotOf s g fn with
  | some sl => takeOwner s g (setBits (clown s g) (48 + sl) (48 + sl) 0)
  | none => s

/-- TEARDOWN_DRAIN_END: DRAINT microseconds after the drain wait began, with no admitted frame of the function left, its
windows are removed, its tallies reclaimed and its slots invalidated. -/
def teardownDrainEnd (fn : Fn) (s : State) : State :=
  let f := fn.val
  match (fnSt s f).teardown with
  | .idle => s
  | .zeroing _ => s
  | .draining t =>
    if fnState s f ≠ 2 ∨ s.time.lamp < t + 1000 * getF s R.hstDrain 9 0 ∨ holdsFrames s f then s
    else
      let s := { s with rem := { s.rem with windows := s.rem.windows.filter fun e => e.2.fn != f } }
      let s := reclaimTallies s f
      let gs := clustersOf s f
      let alone := gs.filter fun g => validSlots s g == 1
      let s := gs.foldl (fun s g => dropSlot s f g) s
      setFn s f { fnSt s f with teardown := .zeroing alone }

/-- The buckets of a function's policers and shapers hold no token (09 R350). -/
def zeroTokens (s : State) (fn : Nat) : State :=
  [2 * fn, 2 * fn + 1].foldl (fun s k =>
    setShp (setPol s k { polOf s k with tc := 0, tp := 0, last := s.time.now }) k
      { shpOf s k with tok := 0, last := s.time.now }) s

/-- Does a host descriptor's FCTL wait for a function to be DISABLED (R542)? -/
def waitsFor (fn : Nat) (h : HostDesc) : Bool :=
  byteAt h.bytes 0 == 0x20 && leAt h.bytes 16 2 == fn && (match h.phase with
    | .working => true
    | .fetched => false
    | .ended _ => false)

/-- TEARDOWN_DONE: clusters held alone are zeroed where no function holds them again, tokens are 0, TEARDOWN_DONE is 1 and
STATE is DISABLED; FCTL descriptors that wait for it end with OK. -/
def teardownDone (fn : Fn) (s : State) : State :=
  let f := fn.val
  match (fnSt s f).teardown with
  | .idle => s
  | .draining _ => s
  | .zeroing alone =>
    let s := alone.foldl (fun s g => if validSlots s g = 0 then zeroCluster s g else s) s
    let s := zeroTokens s f
    let s := setF (setF s (R.vfStatus f) 2 2 1) (R.vfStatus f) 1 0 0
    { s with host := { s.host with
        fns := SMap.erase s.host.fns f
        descs := s.host.descs.map fun h => if waitsFor f h then { h with phase := .ended 0 } else h } }

/-- VF Enable is cleared, which tears every virtual function down (R538). -/
def clearVfEnable (s : State) : State :=
  (upto 1 512).foldl disableFn { s with host := { s.host with vfEnable := false } }

/-- The configuration space of a function is reset: its vectors, and for the physical function the SR-IOV capability, which
clears VF Enable, and the sizes (R509). -/
def resetConfig (s : State) (fn : Nat) : State :=
  let s := { s with host := { s.host with vectors := s.host.vectors.filter fun e => e.1 / 64 != fn } }
  if fn ≠ 0 then s
  else
    let s := clearVfEnable s
    { s with host := { s.host with
        numVfs := HostSt.start.numVfs, payload := HostSt.start.payload, readReq := HostSt.start.readReq } }

/-- DRAIN_BELL (R541): the first drain bell received is logged and sets DRAINBELL. -/
def drainBell (s : State) : State :=
  match takeFirst (fun p : Pkt => p.f.typ == 6 && p.f.code == 8) s.inbox with
  | none => s
  | some (p, rest) =>
    raise (wr { s with inbox := rest } R.hstDlog (2 ^ 31 + 2 ^ 16 * (p.f.arg % 4096) + p.f.src)) R.hstStat 2

/-! ### Tally ranges and bindings (10 R391; 14 R533, R544) -/

/-- Does a tally range on a die overlap one of another function (R533)? -/
def tallyOverlaps (s : State) (fn d base count : Nat) : Bool :=
  count != 0 && allFns.any fun o => o != fn &&
    (let r := tallyRange s o d
     r.2 != 0 && decide (base < r.1 + r.2) && decide (r.1 < base + count))

/-! ### The rows -/

/-- VF_ENABLE: a write of `VF_CTL.EN`; after the lock it changes nothing (R545). -/
def execVfEnable (fn : Fn) (s : State) : Out :=
  let s := dropHeld s (R.vfCtl fn)
  .next (if locked s then s else (enableFn s fn.val).1)
/-- VF_DISABLE: a write of `VF_CTL.DIS`. -/
def execVfDisable (fn : Fn) (s : State) : Out :=
  let s := dropHeld s (R.vfCtl fn)
  .next (if locked s then s else disableFn s fn.val)
/-- VF_RESET: a write of `VF_CTL.RST`. -/
def execVfReset (fn : Fn) (s : State) : Out :=
  let s := dropHeld s (R.vfCtl fn)
  .next (if locked s then s else disableFn s fn.val)
/-- FLR: a function-level reset tears the function down and resets its configuration space. -/
def execFlr (fn : Fn) (s : State) : Out := .next (resetConfig (disableFn s fn.val) fn.val)
/-- VF_ENABLE_CLEAR: VF Enable cleared tears every virtual function down. -/
def execVfEnableClear (s : State) : Out := .next (clearVfEnable s)
/-- TEARDOWN_DRAIN_END. -/
def execTeardownDrainEnd (fn : Fn) (s : State) : Out := .next (teardownDrainEnd fn s)
/-- TEARDOWN_DONE. -/
def execTeardownDone (fn : Fn) (s : State) : Out := .next (teardownDone fn s)
/-- DRAIN_BELL. -/
def execDrainBell (s : State) : Out := .next (drainBell s)

end Sys2Proof.Machine
end

