-- ==== Sys2Proof/Machine/Pcie.lean ====
section
/-! DEFINITION. Sys2Proof/Machine/Pcie.lean: what the host reaches beside the physical function's BAR0 (14_host.md R509, R513,
R536): the MSI-X tables, the virtual functions' BAR0, and the fields of the configuration space that the spec names. The
model numbers these windows above BAR0 (log 97): the physical function's BAR2 at 0x200_0000, the configuration fields at
0x200_8000, and the BAR0 of virtual function n at 0x400_0000 + 0x1_0000 n. -/

namespace Sys2Proof.Machine

/-! ### Vectors (R513, R536) -/

/-- The vectors of a function (Table HST-1). -/
def vecCount (fn : Nat) : Nat := if fn = 0 then 64 else 8
/-- Has a function a vector of a number? -/
def hasVec (fn v : Nat) : Bool := decide (v < vecCount fn)
/-- The vector n of a function. -/
def vecOf (s : State) (fn v : Nat) : Vector := SMap.getD s.host.vectors (64 * fn + v) Vector.start
/-- The state with a vector. -/
def setVec (s : State) (fn v : Nat) (x : Vector) : State :=
  { s with host := { s.host with vectors := SMap.setD s.host.vectors (64 * fn + v) Vector.start x } }

/-- A vector's message: its data is written to its address. -/
def sendMsix (s : State) (fn v : Nat) : State := emit s (.msix fn v (vecOf s fn v).addr (vecOf s fn v).data)

/-- A vector's message: sent, or pending where it is masked; the count restarts (R536). -/
def fireVec (s : State) (fn v : Nat) : State :=
  let x := vecOf s fn v
  if x.masked then setVec s fn v { x with pending := true, count := 0 }
  else sendMsix (setVec s fn v { x with count := 0 }) fn v

/-- A vector is unmasked, and sends the message that is pending (R536). -/
def unmask (fn v : Nat) (s : State) : State :=
  let x := vecOf s fn v
  if !hasVec fn v then s
  else
    let s := setVec s fn v { x with masked := false, pending := false }
    if x.pending then sendMsix s fn v else s

/-- Word w of a table entry: the address in two words, the data, and the mask. -/
def vecWord (s : State) (fn v w : Nat) : Nat :=
  let x := vecOf s fn v
  if w = 0 then x.addr % 2 ^ 32 else if w = 1 then x.addr / 2 ^ 32 else if w = 2 then x.data else b2n x.masked

/-- A write of word w of a table entry; an unmasked vector sends what is pending. -/
def writeVec (s : State) (fn v w val : Nat) : State :=
  let x := vecOf s fn v
  if w = 0 then setVec s fn v { x with addr := x.addr / 2 ^ 32 * 2 ^ 32 + val / 4 * 4 }
  else if w = 1 then setVec s fn v { x with addr := x.addr % 2 ^ 32 + 2 ^ 32 * val }
  else if w = 2 then setVec s fn v { x with data := val }
  else if bit val 0 then setVec s fn v { x with masked := true }
  else unmask fn v s

/-- Word i of the pending bit array of a function. -/
def pbaWord (s : State) (fn i : Nat) : Nat :=
  (List.range 32).foldl (fun m b =>
    if hasVec fn (32 * i + b) && (vecOf s fn (32 * i + b)).pending then m + 2 ^ b else m) 0

/-! ### The identity page (Table HST-3; R513) -/

/-- The first 48 bytes of a function's identity page; the rest are 0. -/
def identityPage (s : State) (fn : Nat) : List Byte :=
  leBytes 2 fn ++ leBytes 1 (fnState s fn) ++ zeros 1 ++ leBytes 2 (fnJob s fn) ++ leBytes 2 (fnEp s fn) ++
  leBytes 4 (rd s R.glbId) ++ zeros 4 ++
  (List.range 8).flatMap fun d => let r := tallyRange s fn d; leBytes 2 r.1 ++ leBytes 2 r.2

/-! ### The windows -/

/-- A word of a function's MSI-X structures: the table at 0, the pending bits at 0x800 (Table HST-2; log 97 for BAR2). -/
def msixRead (s : State) (fn o : Nat) : Nat :=
  if o < 16 * vecCount fn then vecWord s fn (o / 16) (o % 16 / 4)
  else if 0x800 ≤ o ∧ o < 0x810 then pbaWord s fn ((o - 0x800) / 4)
  else 0
/-- A write there: only the table takes it. -/
def msixWrite (s : State) (fn o val : Nat) : State :=
  if o < 16 * vecCount fn then writeVec s fn (o / 16) (o % 16 / 4) val else s

/-- A word of a virtual function's BAR0 (Table HST-2): other offsets read 0. -/
def vfBarRead (s : State) (fn o : Nat) : Nat :=
  if o < 0x1000 then msixRead s fn o else if o < 0x2000 then leAt (identityPage s fn) (o - 0x1000) 4 else 0

/-- A configuration field: NumVFs, VF Enable, and the codes of Max Payload Size and Max Read Request Size (Table HST-1). -/
def configRead (s : State) (o : Nat) : Nat :=
  if o = 0 then s.host.numVfs else if o = 4 then b2n s.host.vfEnable
  else if o = 8 then s.host.payload.val else if o = 12 then s.host.readReq.val else 0

/-- A write of a configuration field. NumVFs takes up to TotalVFs while VF Enable is 0, and sizes not listed change nothing
(log 97). -/
def configWrite (s : State) (o val : Nat) : State :=
  if o = 0 then
    if s.host.vfEnable ∨ 512 < val then s else { s with host := { s.host with numVfs := val } }
  else if o = 4 then
    if bit val 0 then { s with host := { s.host with vfEnable := true } } else clearVfEnable s
  else if o = 8 then
    if h : val < 3 then { s with host := { s.host with payload := ⟨val, h⟩ } } else s
  else if o = 12 then
    if h : val < 6 then { s with host := { s.host with readReq := ⟨val, h⟩ } } else s
  else s

/-- The virtual function whose BAR0 holds an offset. -/
def vfAt (off : Nat) : Option Nat :=
  let n := (off - 0x4000000) / 0x10000
  if 0x4000000 ≤ off ∧ 1 ≤ n ∧ n ≤ 512 then some n else none

/-- A read above BAR0. -/
def pcieRead (off : Nat) (s : State) : State :=
  match vfAt off with
  | some n => emit s (.read off (vfBarRead s n (off % 0x10000)))
  | none =>
    if off < 0x2004000 then emit s (.read off (msixRead s 0 (off - 0x2000000)))
    else if 0x2008000 ≤ off ∧ off < 0x2008010 then emit s (.read off (configRead s (off - 0x2008000)))
    else s

/-- A write above BAR0: the identity page and the pending bits ignore it. -/
def pcieWrite (off val : Nat) (s : State) : State :=
  match vfAt off with
  | some n => if off % 0x10000 < 0x1000 then msixWrite s n (off % 0x10000) val else s
  | none =>
    if off < 0x2004000 then msixWrite s 0 (off - 0x2000000) val
    else if 0x2008000 ≤ off ∧ off < 0x2008010 then configWrite s (off - 0x2008000) val
    else s

end Sys2Proof.Machine
end

