-- ==== Sys2Proof/Machine/Tables.lean ====
section
/-! DEFINITION. Sys2Proof/Machine/Tables.lean: reading and writing one entry of the tables of the fabric, the circuits and
the mills (07 R258, R293, R661; 08 R338 to R340; 11 R411, R417 to R419, R447, R450, R451), for the register windows and for
the administrative descriptors. Tables are named by the TID of 14 R532. -/

namespace Sys2Proof.Machine

/-- The bytes of an entry by TID; 0 where the TID is reserved. -/
def tblSize (tid : Nat) : Nat :=
  if tid = 0 then 8 else if tid = 1 then 192 else if tid = 2 then 4
  else if tid = 4 then 8 else if tid = 5 ∨ tid = 6 then 4
  else if tid = 8 then 4 else if tid = 9 ∨ tid = 10 then 64 else if tid = 11 then 24 else if tid = 12 then 8
  else if tid = 13 then 4 else 0

/-- The entries of a table by TID. -/
def tblCount (tid : Nat) : Nat :=
  if tid = 0 then 65536 else if tid = 1 then 4096 else if tid = 2 then 48
  else if tid = 4 ∨ tid = 5 ∨ tid = 6 then 65536
  else if tid = 8 then 65536 else if tid = 9 ∨ tid = 10 then 4096 else if tid = 11 then 16384 else if tid = 12 then 256
  else if tid = 13 then 4096 else 0

/-- The frames held in the switch die, its queues and the sump. -/
def heldFrames (s : State) : List Frame :=
  (s.fab.queues.flatMap fun q => q.2.frames.map (·.f)) ++ (s.fab.ctlq.flatMap fun q => q.2.map (·.f)) ++
  (s.cir.srcq.flatMap fun q => q.2.map (·.f)) ++ s.cir.slots.map (·.e.f) ++ s.fab.recv.map (·.f) ++
  (s.fab.sink.flatMap fun q => q.2.map (·.f)) ++ ((s.fab.waiting.filter (·.via.isSome)).map (·.pkt.f)) ++
  (s.mills.flatMap fun m => m.2.inq.map (·.f))
/-- `FAB_DRAIN.COUNT`: the frames held whose EPOCH is not CUR (07 R296). -/
def fabDrain (s : State) : Nat := ((heldFrames s).filter fun f => f.epoch != curEpoch s).length

/-- The checks of R258 on a route entry. -/
def routeBad (e : Nat) : Bool :=
  e / 2 ^ 59 != 0 || (List.range 4).any (fun k => bit e (8 * k + 6)) ||
  (rtValid e &&
    ((!rtLocal e && !rtMcg e && (rtPorts e).isEmpty) ||
     (rtLocal e && (!(rtPorts e).isEmpty || rtMcg e)) ||
     (rtMcg e && !(rtPorts e).isEmpty) ||
     (!rtLocal e && bits e 44 43 == 0) ||
     (bit e 58 && (bits e 44 43 != 3 || rtLocal e))))

/-- A write of a fabric table's entry: the state and the status. -/
def fabWrite (s : State) (tid bank idx : Nat) (data : List Byte) : State × Nat :=
  let v := leNat data
  if bank = curEpoch s % 2 ∨ flag s R.fabEpoch 4 ∨ fabDrain s ≠ 0 ∨ flag s R.fabEpoch 8 then (s, 2)
  else if tid = 0 then
    if routeBad v then (s, 4)
    else ({ s with fab := { s.fab with routes := SMap.setD s.fab.routes (65536 * bank + idx) 0 v } }, 0)
  else if tid = 1 then
    ({ s with fab := { s.fab with groups := SMap.setD s.fab.groups (4096 * bank + idx) 0 v } }, 0)
  else ({ s with fab := { s.fab with gallery := SMap.setD s.fab.gallery (48 * bank + idx) 0 v } }, 0)

/-- A write of a circuit table's entry: the state and the status. -/
def cirWrite (s : State) (tid bank idx : Nat) (data : List Byte) : State × Nat :=
  let v := leNat data
  if bank = cirBank s ∨ flag s R.cirCtl 8 then (s, 2)
  else if tid = 4 then
    if v / 2 ^ 44 ≠ 0 ∨ cirRole v = 3 then (s, 4)
    else ({ s with cir := { s.cir with entries := SMap.setD s.cir.entries (65536 * bank + idx) 0 v } }, 0)
  else if v / 2 ^ 17 ≠ 0 then (s, 4)
  else ({ s with cir := { s.cir with cages := SMap.setD s.cir.cages (65536 * bank + idx) 0 v } }, 0)

/-- Do two ranges (base, count) meet? -/
def rangesMeet (a an b bn : Nat) : Bool := an != 0 && bn != 0 && decide (a < b + bn) && decide (b < a + an)

/-- Is a 32-bit pattern an FP32 in [1, 2)? -/
def fp32InOneTwo (w : Nat) : Bool := decide (0x3F800000 ≤ w) && decide (w < 0x40000000)

/-- The RANGE checks of a stream load (R417, Table MIL-4) on the 48 loaded bytes. -/
def streamBad (x : StreamSt) : Bool :=
  let f := StreamSt.fld x
  let e := bits (f 36 4) 30 23
  f 0 2 / 2 ^ 13 != 0 || f 2 2 / 2 ^ 12 != 0 || f 4 2 / 2 ^ 10 != 0 || f 40 1 / 2 ^ 6 != 0 || f 42 6 != 0 ||
  f 6 2 == 0 || decide (4096 < f 6 2) || decide (2048 < f 8 2 + f 10 2) || decide (4096 < f 12 2 + f 14 2) ||
  decide (256 < f 16 2 + f 18 2) || decide (1024 < f 20 2 + f 22 2) || decide (65536 < f 24 4) ||
  decide (16 * f 14 2 < f 24 4) || !fp32InOneTwo (f 28 4) || !fp32InOneTwo (f 32 4) || e == 0 || e == 255 ||
  decide (4 < bits (f 40 1) 5 3)

/-- Does a stream's share meet that of another stream (R417)? -/
def sharesMeet (x y : StreamSt) : Bool :=
  [8, 12, 16, 20].any fun o =>
    rangesMeet (StreamSt.fld x o 2) (StreamSt.fld x (o + 2) 2) (StreamSt.fld y o 2) (StreamSt.fld y (o + 2) 2)

/-- Is a key in a range (base, count)? -/
def inRange (b n k : Nat) : Bool := decide (b ≤ k) && decide (k < b + n)

/-- A stream load (R417, R418): the state and the status. -/
def streamLoad (s : State) (m n : Nat) (data : List Byte) : State × Nat :=
  let mill := millOf s m
  let x : StreamSt := { StreamSt.blank with bytes := data.take 48 }
  if streamBad x then (s, 4)
  else if (streamOf s m n).valid then (s, 2)
  else if (validStreams s m).any fun o => (streamOf s m o).job != x.job && sharesMeet x (streamOf s m o) then (s, 3)
  else if x.fld 41 1 ≠ getF s (R.milUnit m) 19 16 then (s, 7)
  else
    let f := StreamSt.fld x
    let blk := SMap.getD mill.blocks n (zeros 64)
    let s := setMill s m { mill with
      accs := mill.accs.filter fun e => !inRange (f 8 2) (f 10 2) e.1
      ctrs := mill.ctrs.filter fun e => !inRange (f 16 2) (f 18 2) e.1
      counts := mill.counts.filter fun e => !inRange (f 20 2) (f 22 2) e.1 }
    (setStream s m n { x with
      state := 1
      flags := 32 * b2n (flag s R.glbMode 0)
      regs := (List.range 8).map fun i => leAt blk (8 * i) 8 }, 0)

/-- A write of a mill table's entry: the state and the status. A stream entry with VALID = 0 removes the stream, and `who`
waits for the end of the removal (R419, R451). -/
def milWrite (s : State) (tid idx : Nat) (data : List Byte) (who : Option (Nat × Nat × Nat)) : State × Nat :=
  if tid = 8 then
    let m := idx / 4096
    if (validStreams s m).isEmpty then
      (setMill s m { millOf s m with code := SMap.setD (millOf s m).code (idx % 4096) 0 (leNat data) }, 0)
    else (s, 2)
  else if tid = 9 then
    let m := idx / 256
    let n := idx % 256
    if bit (leAt data 0 2) 12 then streamLoad s m n data
    else
      let x := streamOf s m n
      if x.valid then (setStream s m n { x with removing := true, waiters := x.waiters ++ who.toList }, 0) else (s, 0)
  else if tid = 10 then
    let m := idx / 256
    (setMill s m { millOf s m with blocks := SMap.setD (millOf s m).blocks (idx % 256) (zeros 64) data }, 0)
  else if tid = 11 then
    let m := idx / 1024
    if leAt data 10 2 ≠ 0 then (s, 4)
    else (setMill s m { millOf s m with
      slots := SMap.setD (millOf s m).slots (idx % 1024) 0 (leAt data 0 16) }, 0)
  else
    let v := leNat data
    if bits v 31 27 ≠ 0 ∨ v / 2 ^ 52 ≠ 0 then (s, 4)
    else if bit v 26 && s.sendTbl.any (fun e => e.1 != idx && bit e.2 26 && bits e.2 25 0 == bits v 25 0) then (s, 3)
    else ({ s with sendTbl := SMap.setD s.sendTbl idx 0 v }, 0)

/-- Does a table's selection name an entry (R661)? -/
def tblSel (tid bank idx : Nat) : Bool :=
  tblSize tid != 0 && decide (idx < tblCount tid) && (decide (8 ≤ tid) || decide (bank < 2))

/-- One entry is written (R661 without the DENIED step): the state and the status. -/
def tblWrite (s : State) (tid bank idx : Nat) (data : List Byte) (who : Option (Nat × Nat × Nat)) : State × Nat :=
  if !tblSel tid bank idx ∨ tid = 6 ∨ tid = 13 then (s, 4)
  else if tid < 4 then fabWrite s tid bank idx data
  else if tid < 8 then cirWrite s tid bank idx data
  else milWrite s tid idx data who

/-- The 64 bytes of a stream entry (Table MIL-4). -/
def streamBytes (x : StreamSt) : List Byte :=
  x.bytes ++ leBytes 1 x.state ++ leBytes 1 x.trap ++ leBytes 2 x.tpc ++ leBytes 4 x.frames ++ leBytes 4 x.refused ++
  leBytes 1 x.flags ++ zeros 3

/-- One entry is read; none where the selection names no entry. -/
def tblRead (s : State) (tid bank idx : Nat) : Option (List Byte) :=
  if !tblSel tid bank idx then none
  else if tid = 0 then some (leBytes 8 (routeOf s bank idx))
  else if tid = 1 then some (leBytes 192 (groupOf s bank idx))
  else if tid = 2 then some (leBytes 4 (SMap.getD s.fab.gallery (48 * bank + idx) 0))
  else if tid = 4 then some (leBytes 8 (cirEntry s bank idx))
  else if tid = 5 then some (leBytes 4 (SMap.getD s.cir.cages (65536 * bank + idx) 0))
  else if tid = 6 then some (leBytes 4 (SMap.getD s.cir.live idx 0))
  else if tid = 8 then some (leBytes 4 (codeWord s (idx / 4096) (idx % 4096)))
  else if tid = 9 then some (streamBytes (streamOf s (idx / 256) (idx % 256)))
  else if tid = 10 then some (SMap.getD (millOf s (idx / 256)).blocks (idx % 256) (zeros 64))
  else if tid = 11 then
    let c := SMap.getD (millOf s (idx / 1024)).counts (idx % 1024) (0, 0)
    some (leBytes 16 (SMap.getD (millOf s (idx / 1024)).slots (idx % 1024) 0) ++ leBytes 4 c.1 ++ leBytes 4 c.2)
  else if tid = 12 then some (leBytes 8 (SMap.getD s.sendTbl idx 0))
  else some (leBytes 4 (ctrOf s (idx / 256) (idx % 256)))

/-- A table window: the offsets of its command and data registers, the TID of its TBL 0, and where its selection lies. -/
structure Window3 where
  tcmd : Nat
  tdata : Nat
  tid : Nat
  bank : Nat
  idx : Nat

/-- The window of `FAB_TSEL`. -/
def fabWin (s : State) : Window3 :=
  ⟨R.fabTcmd, R.fabTdata 0, getF s R.fabTsel 17 16, getF s R.fabTsel 20 20, getF s R.fabTsel 15 0⟩
/-- The window of `CIR_TSEL`. -/
def cirWin (s : State) : Window3 :=
  ⟨R.cirTcmd, R.cirTdata 0, 4 + getF s R.cirTsel 17 16, getF s R.cirTsel 20 20, getF s R.cirTsel 15 0⟩
/-- The window of `MIL_TSEL`. -/
def milWin (s : State) : Window3 :=
  ⟨R.milTcmd, R.milTdata 0, 8 + getF s R.milTsel 18 16, 0, getF s R.milTsel 15 0⟩

/-- Words from bytes. -/
def wordsOf : Nat → List Byte → List Nat
  | 0, _ => []
  | n + 1, bs => leNat (bs.take 4) :: wordsOf n (bs.drop 4)

/-- The words of the data registers of a window, as bytes. -/
def winData (s : State) (w : Window3) : List Byte :=
  (List.range (tblSize w.tid / 4)).flatMap fun i => leBytes 4 (rd s (w.tdata + 4 * i))

/-- A command ends with DONE and a status. -/
def winDone (s : State) (w : Window3) (st : Nat) : State := setF (setF s w.tcmd 7 4 st) w.tcmd 8 8 1

/-- No stream's removal is waited for by a window command any more: a new command has come. -/
def newCommand (s : State) (w : Window3) : State :=
  if w.tid < 8 then s
  else { s with mills := s.mills.map fun e =>
    (e.1, { e.2 with streams := e.2.streams.map fun x => (x.1, { x.2 with byWin := false }) }) }

/-- The stream whose removal a write command of the window has begun (11 R419, R451). -/
def winRemoves (s : State) (w : Window3) (data : List Byte) : Bool :=
  w.tid == 9 && !bit (leAt data 0 2) 12 && (streamOf s (w.idx / 256) (w.idx % 256)).removing

/-- A write command of a window (R661): it has finished at once, but for the removal of a stream, whose DONE follows. -/
def winWrite (s : State) (w : Window3) : State :=
  if locked s then winDone s w 6
  else
    let r := tblWrite s w.tid w.bank w.idx (winData s w) none
    if r.2 = 0 ∧ winRemoves r.1 w (winData s w) then
      let x := streamOf r.1 (w.idx / 256) (w.idx % 256)
      setF (setF (setStream r.1 (w.idx / 256) (w.idx % 256) { x with byWin := true }) w.tcmd 7 4 0) w.tcmd 8 8 0
    else winDone r.1 w r.2

/-- A read command of a window. -/
def winRead (s : State) (w : Window3) : State :=
  match tblRead s w.tid w.bank w.idx with
  | none => winDone s w 4
  | some bs =>
    let ws := wordsOf (bs.length / 4) bs
    winDone (((List.range ws.length).zip ws).foldl (fun s x => wr s (w.tdata + 4 * x.1) x.2) s) w 0

/-- A write of a window's command register: RD and WR both 1 are refused; neither is no command (R661). -/
def winCommand (s : State) (w : Window3) (v : Nat) : State :=
  if bit v 0 ∧ bit v 1 then winDone (newCommand s w) w (if locked s then 6 else 4)
  else if bit v 1 then winWrite (newCommand s w) w
  else if bit v 0 then winRead (newCommand s w) w
  else s

end Sys2Proof.Machine
end

