-- ==== Sys2Proof/Machine/Mgmt.lean ====
section
/-! DEFINITION. Sys2Proof/Machine/Mgmt.lean: the package's management interfaces (17_package_management.md): resource
owners, console, SMBus target and controller, boot flash, test port, input discipline and GPIO. -/

namespace Sys2Proof.Machine

/-- The state with a change of the management interfaces. -/
def setMgmt (s : State) (m : MgmtSt) : State := { s with mgmt := m }

/-! ### Resource owners (R613, Table PKG-5) -/

/-- MODE of a GPIO pin. -/
def gpioMode (s : State) (n : Nat) : Nat := getF s (R.gpioCfg n) 2 0
/-- Does a pulse pin other than one pin hold timer t? -/
def timerHeld (s : State) (t but : Nat) : Bool :=
  (List.range 16).any fun n => n != but && gpioMode s n == 4 && getF s (R.gpioCfg n) 7 6 == t
/-- Is pin n held by the feature that shares it: FAULT_N, WAKE_N, PMB_ALERT_N, or the console's alternate pins? -/
def pinHeld (s : State) (n : Nat) : Bool :=
  if n < 3 then flag s R.mgtCtl n else if n = 14 ∨ n = 15 then flag s R.uartCtl 29 else false
/-- `MGT_OWN.MBUF`: 1 while mirroring targets the service processor, 2 while the console log holds the buffer. -/
def mbufOwner (s : State) : Nat :=
  if flag s R.mirCtl 30 then 1 else if flag s R.uartCtl 28 then 2 else 0
/-- An enabling write was refused: CONFLICT and the resource (R613). -/
def mgtConflict (s : State) (res : Nat) : State := setF (raise s R.mgtStat 31) R.mgtStat 3 0 res
/-- `MGT_OWN` (R613). -/
def mgtOwn (s : State) : Nat :=
  mbufOwner s * 2 ^ 10 +
  ((List.range 3).foldl (fun w n => w + 2 ^ n * b2n (pinHeld s n)) 0) + 8 * b2n (pinHeld s 14) + 16 * b2n (pinHeld s 15) +
  ((List.range 4).foldl (fun w t => w + 2 ^ (5 + t) * b2n (timerHeld s t 16)) 0) + 2 ^ 9 * b2n (mbufOwner s != 0)

/-! ### Console (R615 to R617) -/

/-- A console byte is kept in the mirror buffer's 128 KiB while LOG is set; the oldest bytes give way (log 47). -/
def logByte (s : State) (b : Byte) : State :=
  if flag s R.uartCtl 28 then
    let l := s.mgmt.log ++ [b]
    setMgmt s { s.mgmt with log := l.drop (l.length - 131072) }
  else s

/-- UART_DATA_WRITE: a byte from its owner is queued for sending; a full FIFO drops it. -/
def uartDataWrite (host : Bool) (b : Byte) (s : State) : State :=
  if flag s R.uartCtl 30 == host && decide (s.mgmt.tx.length < 64) then setMgmt s { s.mgmt with tx := s.mgmt.tx ++ [b] }
  else s

/-- UART_DATA_READ: the owner takes the next received byte with its FE mark, or reads 0 from an empty FIFO. -/
def uartDataRead (host : Bool) (s : State) : State :=
  match s.mgmt.rx with
  | [] => emit s (.read R.uartData 0)
  | (b, fe) :: rest =>
    if flag s R.uartCtl 30 == host then
      emit (setMgmt s { s.mgmt with rx := rest }) (.read R.uartData (b + 256 * b2n fe))
    else emit s (.read R.uartData 0)

/-- UART_RX_FRAME: the byte is stored with its FE mark, or discarded with OVR where the FIFO is full (R616, R617). -/
def uartRxFrame (b : Byte) (stop : Bool) (s : State) : State :=
  if !flag s R.uartCtl 31 then s
  else
    let s := if stop then s else raise s R.uartStat 8
    if s.mgmt.rx.length < 64 then logByte (setMgmt s { s.mgmt with rx := s.mgmt.rx ++ [(b.toNat, !stop)] }) b
    else raise s R.uartStat 9

/-- UART_BYTE_SENT: the byte at the head of the transmit FIFO has been sent. -/
def uartByteSent (s : State) : State :=
  match s.mgmt.tx with
  | [] => s
  | b :: rest =>
    if flag s R.uartCtl 31 then logByte (emit (setMgmt s { s.mgmt with tx := rest }) (.uart b)) b else s

/-! ### Boot flash (R625, R626) -/

/-- A byte of the flash; an erased byte reads 0xFF. -/
def flashByte (s : State) (a : Nat) : Byte := SMap.getD s.mgmt.flash a 0xFF#8
/-- n bytes of the flash. -/
def readFlash (s : State) (a n : Nat) : List Byte := (upto a n).map (flashByte s)
/-- Bytes programmed: a program clears bits and sets none (log 48). -/
def programFlash (s : State) (a : Nat) (bs : List Byte) : State :=
  setMgmt s { s.mgmt with
    flash := ((upto a bs.length).zip bs).foldl (fun m p => SMap.setD m p.1 0xFF#8 (SMap.getD m p.1 0xFF#8 &&& p.2)) s.mgmt.flash }
/-- n bytes erased. -/
def eraseFlash (s : State) (a n : Nat) : State :=
  setMgmt s { s.mgmt with flash := s.mgmt.flash.filter fun e => !(decide (a ≤ e.1) && decide (e.1 < a + n)) }
/-- Do bytes [a, a + n) of the flash touch the 64 KiB record region at b (Table BOOT-3)? -/
def inRegion (b a n : Nat) : Bool := decide (a < b + 0x10000) && decide (b < a + n)
/-- The entries of a record that still pass their check after bytes of its region changed: where an entry lies is not stated, so
each stays or goes by a free value (R638, log 6). -/
def keptEntries {α : Type} (k : Nat) (l : List α) : List α :=
  ((upto k l.length).zip l).filterMap fun e => if (Config.freeValue e.1).getLsbD 0 then some e.2 else none
/-- What a change of bytes [a, a + n) leaves of the fault, ageing and retired-row records (R637, R638). -/
def touchRecords (s : State) (a n : Nat) : State :=
  let s := if inRegion 0x10000 a n then
      { s with flt := { s.flt with record := keptEntries s.freeCtr s.flt.record }, freeCtr := s.freeCtr + s.flt.record.length }
    else s
  let s := if inRegion 0x20000 a n then
      { s with power := { s.power with ages := keptEntries s.freeCtr s.power.ages }, freeCtr := s.freeCtr + s.power.ages.length }
    else s
  if inRegion 0x30000 a n then
    { s with deep := { s.deep with rowLog := keptEntries s.freeCtr s.deep.rowLog }, freeCtr := s.freeCtr + s.deep.rowLog.length }
  else s
/-- Bytes that lie in a region whose record has entries: their format is not stated (R638, log 6). -/
def showsRecord (s : State) (a n : Nat) : Bool :=
  (inRegion 0x10000 a n && !s.flt.record.isEmpty) || (inRegion 0x20000 a n && !s.power.ages.isEmpty) ||
  (inRegion 0x30000 a n && !s.deep.rowLog.isEmpty)
/-- What a read of n bytes of the flash returns: free bytes where it touches a record's entries. -/
def flashRead (s : State) (a n : Nat) : List Byte × State :=
  if showsRecord s a n then freshBytes s n else (readFlash s a n, s)
/-- The size of the flash (`SPI_INFO`). -/
def flashSize (s : State) : Nat := 2 ^ getF s R.spiInfo 7 0

/-- `SPI_CMD` ends with DONE and a status. -/
def spiDone (s : State) (st : Nat) : State := setF (setF s R.spiCmd 27 24 st) R.spiCmd 31 31 1

/-- May `SPI_CMD` take an operation at `SPI_ADDR`: DENIED, RANGE, BUSY, or OK (R626)? -/
def spiCheck (s : State) (op : Nat) (spBusy : Bool) : Nat :=
  let a := rd s R.spiAddr
  let n := if op = 2 then 4096 else 64
  if (op = 1 ∨ op = 2) ∧ locked s then 6
  else if op = 3 ∨ flashSize s < a + n ∨ (op = 2 ∧ a % 4096 ≠ 0) ∨ (op = 1 ∧ 256 < a % 256 + 64) then 4
  else if spBusy ∨ s.mgmt.spi.isSome then 2
  else 0

/-- A command of `SPI_CMD` is refused or starts. -/
def spiCommand (op : Nat) (spBusy : Bool) (s : State) : State :=
  let st := spiCheck s op spBusy
  if st ≠ 0 then spiDone s st
  else
    let data := (List.range 16).flatMap fun w => leBytes 4 (rd s (R.spiData w))
    setMgmt (setF (setF s R.spiCmd 31 31 0) R.spiCmd 27 24 0) { s.mgmt with spi := some ⟨op, rd s R.spiAddr, data, s.time.lamp⟩ }

/-- The effect of a flash operation. -/
def spiEffect (s : State) (x : SpiOp) : State :=
  if x.op = 0 then
    let r := flashRead s x.addr 64
    ((List.range 16).zip (wordsOf 16 r.1)).foldl (fun s e => wr s (R.spiData e.1) e.2) r.2
  else if x.op = 1 then touchRecords (programFlash s x.addr x.data) x.addr 64
  else touchRecords (eraseFlash s x.addr 4096) x.addr 4096

/-- SPI_OP_DONE: the operation in progress finishes, or a program or erase is still busy after 5 s. -/
def spiOpDone (timedOut : Bool) (s : State) : State :=
  match s.mgmt.spi with
  | none => s
  | some x =>
    let s1 := setMgmt s { s.mgmt with spi := none }
    if timedOut then
      if x.op ≠ 0 ∧ x.since + 5000000000 ≤ s.time.lamp then spiDone s1 5 else s
    else spiDone (spiEffect s1 x) 0

/-! ### SMBus target (R618 to R621, Table PKG-6) -/

/-- SMB0_ALERT_N goes high. -/
def alertHigh (s : State) : State :=
  if s.mgmt.alert then emit (setMgmt s { s.mgmt with alert := false }) (.pin "SMB0_ALERT_N" true) else s

/-- The STATUS word: device fault, thermal throttle, CAPACT, lamp, WARN. -/
def smbStatus (s : State) : Nat :=
  b2n (flag s R.glbFault 31) + 2 * b2n (s.power.isl.any fun e => e.2.throt) + 4 * b2n (flag s R.pwrStat 3) +
  8 * b2n (s.power.lamp != 0) + 16 * b2n (flag s R.pwrStat 2)

/-- The target's address: 0x58 + 2 x ADDR1 + ADDR0 (R618). -/
def smbAddr (s : State) : Nat := 0x58 + s.mgmt.straps

/-- A write of `PWR_CAP.W`: out of range it is refused. -/
def capOk (w : Nat) : Bool := decide (500 ≤ w) && decide (w ≤ 2600)

/-- CAP_WRITE (R618, R619, R620): whatever the lock; a wrong PEC or a value out of range is NACKed and not applied. -/
def capWrite (w : BitVec 16) (pecOk : Bool) (s : State) : State :=
  if (flag s R.i2cCtl 7 && !pecOk) || !capOk w.toNat then s else setF s R.pwrCap 11 0 w.toNat

/-- ALERT_RESPONSE (R621): the target answers with its address where it asserts its alert; winning releases it. -/
def alertResponse (won : Bool) (s : State) : State :=
  if s.mgmt.alert && won then alertHigh (emit s (.smbus [BitVec.ofNat 8 (2 * smbAddr s)])) else s

/-! ### SMBus controller and PMBus (R622 to R624) -/

/-- A rail that failed three times in a row, or that shows an output fault, raises a device fault (R623). -/
def railFault (s : State) (failed bad : Bool) : State :=
  let s := if failed then raise s R.i2cStat 1 else s
  if failed || bad then deviceFault s 0x03 0 else s

/-- PMBUS_IOUT_POLL: READ_IOUT of every rail, each tried up to three times. -/
def pmbusIoutPoll (rails : List RailTry) (s : State) : State :=
  rails.foldl (fun s r =>
    if 3 ≤ r.failures then railFault s true false
    else setMgmt s { s.mgmt with iout := SMap.put s.mgmt.iout r.rail r.value }) s

/-- Does a STATUS_WORD show an output fault: VOUT, IOUT/POUT, VOUT_OV_FAULT or IOUT_OC_FAULT (log 49)? -/
def outputFault (w : Nat) : Bool := bit w 15 || bit w 14 || bit w 5 || bit w 4

/-- PMB_ALERT (R614): with ALERTEN, STATUS_WORD of every regulator is read. -/
def pmbAlert (rails : List RailTry) (s : State) : State :=
  if !flag s R.mgtCtl 2 then s
  else rails.foldl (fun s r => railFault s (decide (3 ≤ r.failures)) (decide (r.failures < 3) && outputFault r.value)) s

/-- A recovery of SMB1 that freed the bus. -/
def busFreed (s : State) : State := setMgmt (bump s R.i2cCntRecov 1) { s.mgmt with stuck := none }

/-- BUS_RECOVERY (R624, Table PKG-7): up to 9 pulses and STOP; where SDA stays low the sequence repeats 35 ms after. -/
def busRecovery (freed : Bool) (s : State) : State :=
  if s.mgmt.stuck.isSome then s
  else if freed then busFreed s
  else setMgmt s { s.mgmt with stuck := some (s.time.lamp + 35000000, false) }

/-- BUS_RECOVERY_REPEAT: at 35 ms BUS_STUCK is set; the sequence repeats, and every 100 ms after. -/
def busRecoveryRepeat (freed : Bool) (s : State) : State :=
  match s.mgmt.stuck with
  | none => s
  | some (due, told) =>
    if s.time.lamp < due then s
    else
      let s := if told then s else raise s R.i2cStat 0
      if freed then busFreed s else setMgmt s { s.mgmt with stuck := some (s.time.lamp + 100000000, true) }

/-! ### Inputs and GPIO (R611, R614, R629, R630) -/

/-- One IMON mean: from 20 to 1,150 mV it is taken; else discarded, and the third in a row makes its rail fall back. -/
def imonOne (s : State) (i mv : Nat) : State :=
  let m := s.mgmt
  if 20 ≤ mv ∧ mv ≤ 1150 then
    setMgmt s { m with imon := m.imon.set i mv, imonBad := m.imonBad.set i 0, imonFell := m.imonFell.filter (· != i) }
  else
    let bad := m.imonBad.getD i 0 + 1
    let s := setMgmt s { m with
      imonBad := m.imonBad.set i (min bad 3)
      imonFell := if 3 ≤ bad ∧ !memNat i m.imonFell then m.imonFell ++ [i] else m.imonFell }
    if bad = 3 then raise s R.mgtStat 30 else s

/-- GPIO_EDGE: the filtered level of a pin changes; in input mode an edge of the selected polarity sets its event. -/
def gpioEdge (n : Fin 16) (level : Bool) (s : State) : State :=
  let i := n.val
  let was := flag s R.gpioIn i
  let s := setF s R.gpioIn i i (b2n level)
  if was != level && gpioMode s i == 1 && flag s (R.gpioCfg i) 3 == level then raise s R.gpioEvt i else s

/-- The name of a GPIO pin. -/
def pinName (n : Nat) : String := "GPIO" ++ toString n

/-- GPIO_PULSE: a pulse pin's timer expires: a low pulse of WIDTH lamp ticks, and the next period starts. -/
def gpioPulse (n : Fin 16) (s : State) : State :=
  let i := n.val
  match SMap.find s.mgmt.pulses i with
  | none => s
  | some due =>
    if gpioMode s i ≠ 4 ∨ s.time.lamp < due then s
    else
      let s := setMgmt s { s.mgmt with pulses := SMap.put s.mgmt.pulses i (due + 5120 * getF s (R.gpioCfg i) 31 16) }
      if getF s (R.gpioCfg i) 15 8 = 0 then s else emit (emit s (.pin (pinName i) false)) (.pin (pinName i) true)

/-! ### Test port (R627, R628) -/

/-- IDCODE of the stepping: the version nibble counts steppings. -/
def idcode : Nat := 0x09640B47 + 2 ^ 28 * Config.stepping.toNat
/-- The test port's instruction register takes an instruction. -/
def testInstr (k : Nat) (s : State) : State := setMgmt s { s.mgmt with jtag := k }
/-- What the instruction held acts as: EXTEST, CLAMP and HIGHZ act as BYPASS unless RESET_N is low. -/
def testActs (s : State) : Nat := if 3 ≤ s.mgmt.jtag ∧ !s.mgmt.inReset then 1 else s.mgmt.jtag

/-! ### The rows -/

/-- UART_DATA_WRITE. -/
def execUartDataWrite (host : Bool) (b : Byte) (s : State) : Out :=
  .next (uartDataWrite host b (if host then dropHeld s R.uartData else s))
/-- UART_DATA_READ. -/
def execUartDataRead (host : Bool) (s : State) : Out := .next (uartDataRead host s)
/-- SPI_READ: `SPI_CMD` OP 0. -/
def execSpiRead (spBusy : Bool) (s : State) : Out := .next (spiCommand 0 spBusy (dropHeld s R.spiCmd))
/-- SPI_PROGRAM: `SPI_CMD` OP 1. -/
def execSpiProgram (spBusy : Bool) (s : State) : Out := .next (spiCommand 1 spBusy (dropHeld s R.spiCmd))
/-- SPI_ERASE: `SPI_CMD` OP 2. -/
def execSpiErase (spBusy : Bool) (s : State) : Out := .next (spiCommand 2 spBusy (dropHeld s R.spiCmd))
/-- SPI_OP_DONE. -/
def execSpiOpDone (timedOut : Bool) (s : State) : Out := .next (spiOpDone timedOut s)
/-- IDENT: `GLB_ID`, then `PRT_DEVID`, each little-endian. -/
def execIdent (s : State) : Out := .next (emit s (.smbus (leBytes 4 (rd s R.glbId) ++ leBytes 8 Config.devid.toNat)))
/-- STATUS: the status word; the alert is released (R621). -/
def execStatus (s : State) : Out := .next (alertHigh (emit s (.smbus (leBytes 2 (smbStatus s)))))
/-- TEMP: the hottest sensor in quarter degrees, two's complement. -/
def execTemp (s : State) : Out := .next (emit s (.smbus (leBytes 2 (twos 16 (hottest s)))))
/-- POWER: the package power estimate in W. -/
def execPower (s : State) : Out := .next (emit s (.smbus (leBytes 2 (packageWatts s))))
/-- CAP_READ: `PWR_CAP.W`. -/
def execCapRead (s : State) : Out := .next (emit s (.smbus (leBytes 2 (getF s R.pwrCap 11 0))))
/-- CAP_WRITE. -/
def execCapWrite (w : BitVec 16) (pecOk : Bool) (s : State) : Out := .next (capWrite w pecOk s)
/-- ALERT_RESPONSE. -/
def execAlertResponse (won : Bool) (s : State) : Out := .next (alertResponse won s)
/-- SMB_TIMEOUT: SCL low for 35 ms: the target releases the bus and resets its interface (R619). -/
def execSmbTimeout (s : State) : Out := .next (raise s R.i2cStat 2)
/-- PMBUS_IOUT_POLL. -/
def execPmbusIoutPoll (rails : List RailTry) (s : State) : Out := .next (pmbusIoutPoll rails s)
/-- PMB_ALERT. -/
def execPmbAlert (rails : List RailTry) (s : State) : Out := .next (pmbAlert rails s)
/-- BUS_RECOVERY. -/
def execBusRecovery (freed : Bool) (s : State) : Out := .next (busRecovery freed s)
/-- BUS_RECOVERY_REPEAT. -/
def execBusRecoveryRepeat (freed : Bool) (s : State) : Out := .next (busRecoveryRepeat freed s)
/-- UART_RX_FRAME. -/
def execUartRxFrame (b : Byte) (stop : Bool) (s : State) : Out := .next (uartRxFrame b stop s)
/-- UART_BYTE_SENT. -/
def execUartByteSent (s : State) : Out := .next (uartByteSent s)
/-- GPIO_EDGE. -/
def execGpioEdge (n : Fin 16) (level : Bool) (s : State) : Out := .next (gpioEdge n level s)
/-- GPIO_PULSE. -/
def execGpioPulse (n : Fin 16) (s : State) : Out := .next (gpioPulse n s)
/-- WAKE_N: with WAKEEN, a low level held for 1 microsecond wakes the package from lamp (R614). -/
def execWakeN (s : State) : Out := .next (if flag s R.mgtCtl 1 then lampWake s else s)
/-- IMON_SAMPLE: the means of 16 samples of IMON0 to IMON8 (R629). -/
def execImonSample (mv : List Nat) (s : State) : Out :=
  .next (((List.range 9).zip mv).foldl (fun s e => imonOne s e.1 e.2) s)
/-- SYSCLK_LOSS: the lamp domain runs on its internal oscillator, and the loss is a device fault (R611). -/
def execSysclkLoss (s : State) : Out := .next (deviceFault (setMgmt s { s.mgmt with osc := true }) 0x02 0)
/-- BYPASS. -/
def execBypass (s : State) : Out := .next (testInstr 1 s)
/-- IDCODE: the identification register is put out. -/
def execIdcode (s : State) : Out := .next (emit (testInstr 0 s) (.tdo idcode))
/-- SAMPLE/PRELOAD: the boundary register takes the pins. -/
def execSamplePreload (pins : DWord) (s : State) : Out :=
  .next (setMgmt s { s.mgmt with jtag := 2, boundary := pins.toNat })
/-- EXTEST. -/
def execExtest (s : State) : Out := .next (testInstr 3 s)
/-- CLAMP. -/
def execClamp (s : State) : Out := .next (testInstr 4 s)
/-- HIGHZ. -/
def execHighz (s : State) : Out := .next (testInstr 5 s)
/-- TRST: Test-Logic-Reset selects IDCODE. -/
def execTrst (s : State) : Out := .next (testInstr 0 s)

end Sys2Proof.Machine
end

