-- ==== Sys2Proof/Machine/Reset.lean ====
section
/-! DEFINITION. Sys2Proof/Machine/Reset.lean: resets, boot, and FAULT bells received (18_startup_faults.md R632 to R643,
R654). -/

namespace Sys2Proof.Machine

/-! ### Resets (R632 to R636, Table BOOT-2) -/

/-- What the model itself keeps through every reset: the commands that wait, what was put out, the free values and names
(log 1 to 4). -/
def keepModel (s t : State) : State :=
  { t with pending := s.pending, out := s.out, freeCtr := s.freeCtr, nextId := s.nextId }

/-- What the boot flash and the board keep through every reset: the flash, the fault record, the ageing record and the
retired rows (Table BOOT-2, log 6). -/
def keepFlash (s t : State) : State :=
  { t with
    mgmt := { t.mgmt with flash := s.mgmt.flash }
    flt := { t.flt with record := s.flt.record }
    power := { t.power with ages := s.power.ages }
    deep := { t.deep with rowLog := s.deep.rowLog } }

/-- A cold reset: everything is as after power-on but what the boot flash keeps. -/
def coldReset (s : State) : State := keepFlash s (keepModel s State.reset)

/-- A device reset (R634, R635): as a cold reset, but the time base keeps counting, deep store keeps its contents, the
mirror buffer's SRAM and the test port keep theirs, THERMTRIP_N stays low, and COLD is 0. -/
def deviceReset (s : State) : State :=
  let t := coldReset s
  let t := { t with
    time := { t.time with now := s.time.now, lamp := s.time.lamp }
    deep := { t.deep with mem := s.deep.mem, ue := s.deep.ue, exhausted := s.deep.exhausted }
    fab := { t.fab with mirBuf := s.fab.mirBuf }
    power := { t.power with tripped := s.power.tripped, rails := s.power.rails, since := s.time.lamp,
                            sweepAt := s.time.lamp,
                            scrubAt := (List.range 8).map fun d => (d, s.time.lamp) }
    mgmt := { t.mgmt with log := s.mgmt.log, jtag := s.mgmt.jtag, boundary := s.mgmt.boundary,
                          straps := s.mgmt.straps } }
  let t := setF t R.glbBoot 26 26 0
  let t := if s.mgmt.alert then emit t (.pin "SMB0_ALERT_N" true) else t
  if flag s R.glbFault 31 && flag s R.mgtCtl 0 then emit t (.pin "FAULT_N" true) else t

/-- A hot reset: every function is torn down and every configuration space is reset; a scrub pass in progress starts again
(R633, R636). -/
def hotReset (s : State) : State :=
  let s := allFns.foldl disableFn s
  { s with
    host := { s.host with
      vectors := [], aer := [], numVfs := HostSt.start.numVfs, vfEnable := HostSt.start.vfEnable
      payload := HostSt.start.payload, readReq := HostSt.start.readReq }
    deep := { s.deep with scrubPos := [] } }

/-! ### Boot (R639 to R643, Table BOOT-5) -/

/-- `GLB_BOOT.PHASE`. -/
def bootPhase (s : State) : Nat := getF s R.glbBoot 31 28
/-- The state with a boot phase. -/
def setBoot (s : State) (p : Nat) : State := setF s R.glbBoot 31 28 p

/-- MARGIN and FMAX of every island from the ageing record, its last entry for an island standing (16 R595). -/
def restoreAges (s : State) : State :=
  s.power.ages.foldl (fun s r => setF (setF s (R.pwrIsl r.clu) 27 24 r.margin) (R.pwrIsl r.clu) 20 16 r.fmax) s

/-- The service processor starts (PHASE ROM): what SFDP tells of the flash, and every VCORE for the recorded steps (R641; 17
R609, R625). Without SFDP the flash counts as 16 MiB (log 50). -/
def startBoot (s : State) (sfdp : Option Byte) : State :=
  let s := match sfdp with
    | some n => wr s R.spiInfo n.toNat
    | none => wr s R.spiInfo (2 ^ 31 + 24)
  { s with power := { s.power with rails := (setRails (restoreAges s)).power.rails } }

/-- RESET_RELEASE: RESET_N or PERST_N rises: the straps are sampled where RESET_N was low, and boot starts. -/
def resetRelease (straps : BitVec 2) (sfdp : Option Byte) (s : State) : State :=
  if bootPhase s ≠ 0 ∨ !s.mgmt.inReset then s
  else startBoot (setMgmt s { s.mgmt with straps := straps.toNat, inReset := false }) sfdp

/-- DEVICE_RESET_WRITE: a device reset, and boot at once; the straps and the flash are as before (R632, R641). -/
def deviceResetWrite (s : State) : State :=
  let t := deviceReset s
  let t := setMgmt t { t.mgmt with inReset := false }
  let info := rd s R.spiInfo
  startBoot t (if bit info 31 then none else some (BitVec.ofNat 8 info))

/-- BOOT_LINK_TRAINED: the PCI Express link is trained: PHASE LINK. -/
def bootLinkTrained (s : State) : State := if bootPhase s = 0 ∧ !s.mgmt.inReset then setBoot s 1 else s

/-- The start of an image slot: A or B (Table BOOT-3). -/
def slotBase (b : Bool) : Nat := if b then 0x200000 else 0x100000
/-- Is an image slot valid (R639)? -/
def slotOk (s : State) (b : Bool) : Bool :=
  let h := readFlash s (slotBase b) 18
  let len := leAt h 8 4
  leAt h 0 4 == 0x4B525544 && bit (leAt h 16 2) Config.stepping.toNat && decide (len ≤ 320 * 1024) &&
  leAt h 12 4 == crc32c (readFlash s (slotBase b + 32) len)
/-- SEQ of an image slot. -/
def slotSeq (s : State) (b : Bool) : Nat := leNat (readFlash s (slotBase b + 4) 4)

/-- BOOT_IMAGE_SELECT: the valid slot with the larger SEQ, A where they are equal: PHASE IMAGE; with no valid slot boot stops
with PHASE NOIMG (R639, R642). -/
def bootImageSelect (s : State) : State :=
  if bootPhase s ≠ 1 then s
  else if slotOk s true ∧ (!slotOk s false ∨ slotSeq s false < slotSeq s true) then setF (setBoot s 2) R.glbBoot 27 27 1
  else if slotOk s false then setF (setBoot s 2) R.glbBoot 27 27 0
  else setBoot s 6

/-- A resource of the fault record is as it was retired: FENCED, BYP or RETIRED (Table BOOT-2). -/
def restoreRes (s : State) (r : Res) : State :=
  match r with
  | .row _ => s
  | .lane n => if n < 512 then setF s (R.prtLane (n / 8)) (24 + n % 8) (24 + n % 8) 1 else s
  | .port p => if p < 64 then setPortState (setF s (R.prtStat p) 25 25 1) p 5 else s
  | .mill m => if m < 16 then setF s (R.milUnit m) 31 31 1 else s
  | .cluster g => if g < 1280 then setF s (clownOff g + 4) 31 31 1 else s

/-- The retired-row record of the flash is applied (06 R240): `DST_SPARE` counts its rows and the banks that have no free
spare (R241). -/
def restoreRows (s : State) : State :=
  let s := { s with deep := { s.deep with rowMap := s.deep.rowLog } }
  let banks := (s.deep.rowMap.map fun e => rowBank e.1).eraseDups.filter fun b => decide (32 ≤ sparesUsed s b)
  let s := { s with deep := { s.deep with exhausted := banks } }
  (List.range 8).foldl (fun s d =>
    let used := (s.deep.rowMap.filter fun e => rowStack e.1 == d).length
    let exh := (banks.filter fun b => rowStack (b * 2 ^ 17) == d).length
    setF (setF s (R.dstSpare d) 15 0 used) (R.dstSpare d) 31 16 exh) s

/-- BOOT_STORES_READY: on a cold reset the stacks are written with zeros; retired rows, MARGIN and FMAX, and the fault record
are applied: PHASE STORES. -/
def bootStoresReady (s : State) : State :=
  if bootPhase s ≠ 2 then s
  else
    let s := if flag s R.glbBoot 26 then { s with deep := { s.deep with mem := [], ue := [] } } else s
    let s := restoreAges (restoreRows s)
    setBoot (s.flt.record.foldl restoreRes s) 3

/-- The fenced clusters. -/
def fencedCount (s : State) : Nat := ((List.range 1280).filter (fenced s)).length

/-- SELF_TEST (R643): failing clusters are fenced and failing mills bypassed, each recorded as lasting; a failing packet
buffer or table bank is a device fault: PHASE SELFTEST, and NFENCE counts the fenced clusters. -/
def selfTest (f : SelfTest) (s : State) : State :=
  if bootPhase s ≠ 3 then s
  else
    let s := f.clusters.foldl (fun s g => if g < 1280 ∧ !fenced s g then fenceCluster s g else s) s
    let s := f.mills.foldl (fun s m =>
      if m < 16 ∧ !flag s (R.milUnit m) 31 then bypassMill (recordRetired s (.mill m)) m else s) s
    let s := if f.banks then deviceFault s 0x07 0 else s
    setF (setBoot s 4) R.glbBoot 10 0 (fencedCount s)

/-- BOOT_READY: PHASE READY, and ports with EN = 1 begin training. -/
def bootReady (s : State) : State :=
  if bootPhase s ≠ 4 then s
  else (List.range 64).foldl (fun s p => if flag s (R.prtCtl p) 31 then startTraining s p else s) (setBoot s 5)

/-! ### FAULT bells received (R654) -/

/-- The lists of a function launched before a time stop with ABORTED. -/
def stopBefore (s : State) (fn t : Nat) : State := stopLists s 8 fun _ f l => f == fn && decide (l.time < t)

/-- FAULT_BELL_RECEIVE: the first FAULT bell in hand is logged; with AUTOSTOP, the lists of every ENABLED function bound to its
job that were launched before the bell's fault time stop. -/
def faultBellReceive (s : State) : State :=
  match takeFirst (fun p : Pkt => p.f.typ == 6 && p.f.code == 1) s.inbox with
  | none => s
  | some (p, rest) =>
    let s := { s with inbox := rest }
    let log := 2 ^ 63 + 2 ^ 48 * p.f.job + 2 ^ 32 * p.f.src + p.f.arg % 2 ^ 20
    let s := raise (wr64 s R.glbFbell log) R.glbFstat 0
    if !flag s R.glbFctl 0 then s
    else ((boundFns s p.f.job).filter fun fn => fnState s fn == 1).foldl
      (fun s fn => stopBefore s fn (leAt p.f.payload 8 8)) s

/-! ### The rows -/

/-- DEVICE_RESET_WRITE. -/
def execDeviceResetWrite (s : State) : Out := .next (deviceResetWrite s)
/-- COLD_RESET. -/
def execColdReset (s : State) : Out := .next (coldReset s)
/-- DEVICE_RESET: RESET_N or PERST_N low. -/
def execDeviceReset (s : State) : Out := .next (deviceReset s)
/-- HOT_RESET. -/
def execHotReset (s : State) : Out := .next (hotReset s)
/-- RESET_RELEASE. -/
def execResetRelease (straps : BitVec 2) (sfdp : Option Byte) (s : State) : Out := .next (resetRelease straps sfdp s)
/-- BOOT_LINK_TRAINED. -/
def execBootLinkTrained (s : State) : Out := .next (bootLinkTrained s)
/-- BOOT_IMAGE_SELECT. -/
def execBootImageSelect (s : State) : Out := .next (bootImageSelect s)
/-- BOOT_STORES_READY. -/
def execBootStoresReady (s : State) : Out := .next (bootStoresReady s)
/-- SELF_TEST. -/
def execSelfTest (f : SelfTest) (s : State) : Out := .next (selfTest f s)
/-- BOOT_READY. -/
def execBootReady (s : State) : Out := .next (bootReady s)
/-- FAULT_BELL_RECEIVE. -/
def execFaultBellReceive (s : State) : Out := .next (faultBellReceive s)

end Sys2Proof.Machine
end

