-- ==== Sys2Proof/WellFormed.lean ====
section
/-! DEFINITION. Sys2Proof/WellFormed.lean: the commands that the outside can send: operands within the ranges that their
types do not already fix. -/

namespace Sys2Proof

/-- The size of BAR0 (00_scope.md R20). -/
def barSize : Nat := 0x2000000
/-- An aligned word offset of BAR0 (R8). -/
def barOff (off : Nat) : Bool := decide (off < barSize) && off % 4 == 0
/-- An aligned word of what the host reaches: BAR0, the physical function's BAR2 and configuration fields, and the BAR0 of each
virtual function, as the model numbers them (Machine/Pcie.lean, log 97). -/
def hostOff (off : Nat) : Bool :=
  (decide (off < barSize) || (decide (0x2000000 ≤ off) && decide (off < 0x2004000)) ||
    (decide (0x2008000 ≤ off) && decide (off < 0x2008010)) || (decide (0x4010000 ≤ off) && decide (off < 0x6010000))) &&
  off % 4 == 0

/-- Upsets name 16-byte lines of the stores with one or two bits struck, 64-byte codewords of deep store with one to four symbols
struck, and pseudo-channels. -/
def Upsets.wf (u : Upsets) : Bool :=
  (u.store.all fun e => e.1 % 16 == 0 && decide (e.1 < 1280 * 2 ^ 24) && decide (1 ≤ e.2) && decide (e.2 ≤ 2)) &&
  (u.deep.all fun e => e.1 % 64 == 0 && decide (e.1 < 0x18000000000) && decide (1 ≤ e.2) && decide (e.2 ≤ 4)) &&
  u.lost.all fun c => decide (c < 256)

/-- Readings name islands, and eight stacks. -/
def Readings.wf (r : Readings) : Bool := (r.temps.all fun e => decide (e.1 < 1280)) && r.stackTemps.length == 8

/-- A rail's tries name one of its sixteen-bit readings. -/
def RailTry.wf (t : RailTry) : Bool := decide (t.value < 65536)

/-- Is a command well formed? -/
def Instr.wf (i : Instr) : Bool :=
  match i with
  | .registerWrite off _ => hostOff off
  | .bar0UnsupportedAccess off _ => decide (off < barSize)
  | .reg64LowWrite off _ => barOff off
  | .reg64HighWrite off _ => barOff off
  | .reg64LowRead off => hostOff off
  | .lock => true
  | .clusterOwnerWrite _ _ _ => true
  | .dstLayoutWrite _ => true
  | .granuleOwnerWrite _ _ => true
  | .fabTableRead => true
  | .fabTableWrite => true
  | .fabEpochArm => true
  | .fabEpochFlip => true
  | .epochFlipAt => true
  | .retentionEnd => true
  | .cirTableRead => true
  | .cirTableWrite => true
  | .cirArm => true
  | .cirFlip => true
  | .milTableRead => true
  | .milTableWrite => true
  | .millVersionWrite _ _ => true
  | .policerCommit _ _ => true
  | .shaperCommit _ _ => true
  | .mirrorTargetWrite _ => true
  | .resourceClaimWrite off _ => barOff off
  | .faultRecordClear _ => true
  | .ageclr => true
  | .deviceResetWrite => true
  | .timeSet _ => true
  | .gangEnable _ => true
  | .bondWrite _ _ => true
  | .barrierCommit _ _ => true
  | .histogramSnap => true
  | .portEnableWrite _ _ => true
  | .portRetrain _ => true
  | .portWidthRequest _ _ => true
  | .portUnretire _ => true
  | .jobLevelWrite _ _ => true
  | .lampEnter => true
  | .lampWake => true
  | .maintenanceRequest _ => true
  | .uartDataWrite _ _ => true
  | .uartDataRead _ => true
  | .spiRead _ => true
  | .spiProgram _ => true
  | .spiErase _ => true
  | .spiOpDone _ => true
  | .listStart k => Upsets.wf k.ups
  | .descriptorComplete k => Upsets.wf k.ups
  | .nop _ => true
  | .matmul _ u => Upsets.wf u
  | .convert _ u => Upsets.wf u
  | .sparse _ u => Upsets.wf u
  | .reduceSumImages _ u => Upsets.wf u
  | .reduceSumPartials _ u => Upsets.wf u
  | .reduceMax _ u => Upsets.wf u
  | .reduceMin _ u => Upsets.wf u
  | .copy _ u => Upsets.wf u
  | .copyComplete _ _ u => Upsets.wf u
  | .waitTally _ => true
  | .waitTime _ => true
  | .waitComplete _ => true
  | .waitTimeout _ => true
  | .waitTimeReached _ => true
  | .loop k => Upsets.wf k.ups
  | .stage k => Upsets.wf k.ups
  | .pillarMark _ => true
  | .pillarClear _ => true
  | .quantumExpire _ _ => true
  | .contextSwitchStart _ _ => true
  | .contextSaveDone _ i => Upsets.wf i.ups
  | .contextRestoreDone _ _ u => Upsets.wf u
  | .frameAdmit _ => true
  | .shaperPass _ => true
  | .admitResume _ => true
  | .frameArrive _ => true
  | .circuitFrameArrive _ _ => true
  | .cageSlotStart _ => true
  | .portTransmit _ => true
  | .dieLinkSend _ => true
  | .meshPacketArrive _ n => Upsets.wf n.ups
  | .sumpReadback _ u => Upsets.wf u
  | .queueAvgUpdate => true
  | .histogramSample => true
  | .canarySend _ => true
  | .canaryArrive => true
  | .mirrorRecordWrite u => Upsets.wf u
  | .remoteWrite q => Upsets.wf q.ups
  | .remoteRead _ u => Upsets.wf u
  | .remoteAtomic _ => true
  | .atomicIntegerAdd u => Upsets.wf u
  | .atomicSwap u => Upsets.wf u
  | .atomicCompareSwap u => Upsets.wf u
  | .atomicFloatingAdd u => Upsets.wf u
  | .rdataArrive q => Upsets.wf q.ups
  | .atrespArrive q => Upsets.wf q.ups
  | .requestTimeout _ => true
  | .millHandler _ _ => true
  | .millNop _ => true
  | .add _ => true
  | .sub _ => true
  | .and _ => true
  | .or _ => true
  | .xor _ => true
  | .shl _ => true
  | .shr _ => true
  | .mul _ => true
  | .addi _ => true
  | .andi _ => true
  | .ori _ => true
  | .shli _ => true
  | .shri _ => true
  | .fld _ => true
  | .cadd _ => true
  | .cset _ => true
  | .beq _ => true
  | .bne _ => true
  | .bltu _ => true
  | .bgeu _ => true
  | .jmp _ => true
  | .endHandler _ => true
  | .acc _ => true
  | .aclr _ => true
  | .emit _ => true
  | .sort _ => true
  | .take _ => true
  | .gathRank _ => true
  | .gathArrival _ => true
  | .disp _ => true
  | .flush _ => true
  | .sclr _ => true
  | .streamRemoveDone _ _ => true
  | .circuitRequest => true
  | .circuitGrant => true
  | .circuitRefuse => true
  | .circuitTeardown => true
  | .teardownForward _ => true
  | .circuitHandshakeTimeout _ => true
  | .circuitCloseSend _ => true
  | .shiftChangeBell => true
  | .shiftChangeStart => true
  | .shiftChangeFlip => true
  | .delayExchangeStart _ _ => true
  | .delayRequest _ _ => true
  | .delayReplySend _ => true
  | .delayReply _ _ => true
  | .burstSend _ => true
  | .tsyncBurstFrame _ _ => true
  | .burstRelay _ => true
  | .holdoverEnter => true
  | .standbyTakeover _ => true
  | .referenceLoss => true
  | .gsyncCapture => true
  | .gsyncPulse => true
  | .barrierArrival => true
  | .barrierStartBell => true
  | .doorbellPoll _ data entries => data.length == 64 && entries.length == 256
  | .descriptorFetch _ _ _ data => data.length % 64 == 0 && data.length != 0 && decide (data.length ≤ 4096)
  | .hostNop _ => true
  | .launch _ => true
  | .hcopy _ _ u => Upsets.wf u
  | .rread _ => true
  | .ratomic _ => true
  | .msend _ _ => true
  | .fctlEnable _ => true
  | .fctlDisable _ => true
  | .fctlReset _ => true
  | .fbind _ => true
  | .clownAssign _ => true
  | .clownRelease _ => true
  | .granAssign _ => true
  | .granRelease _ => true
  | .setreg _ => true
  | .tblwr _ _ => true
  | .tblrd _ => true
  | .winLoad _ => true
  | .winRemove _ => true
  | .winReadRecord _ => true
  | .winReadClear _ => true
  | .cirOpen _ => true
  | .cirClose _ => true
  | .hostDescriptorComplete _ => true
  | .msixMtimeExpire _ _ => true
  | .msixUnmask _ _ => true
  | .hostAccessError _ => true
  | .vfEnable _ => true
  | .vfDisable _ => true
  | .vfReset _ => true
  | .flr _ => true
  | .vfEnableClear => true
  | .teardownDrainEnd _ => true
  | .teardownDone _ => true
  | .drainBell => true
  | .linkUnitReceive _ data _ fec => decide (16 ≤ data.length) && decide (data.length ≤ 4144) && fec.all fun e => decide (e.1 < 8)
  | .linkReplayTimeout _ => true
  | .linkIdleSend _ => true
  | .trainingUnitReceive _ data _ => data.length == 32
  | .trainRetry _ => true
  | .laneFail _ _ => true
  | .wreq _ _ => true
  | .wack _ => true
  | .widthSwitch _ => true
  | .failingBellsEnd _ => true
  | .failReceive _ => true
  | .failingTimeout _ => true
  | .signalLoss _ => true
  | .portDrainEnd _ => true
  | .downTimeout _ => true
  | .linkReport => true
  | .linkReportTimeout _ => true
  | .healthEvaluate r => Readings.wf r
  | .thermalLimit _ _ => true
  | .grantSwitch _ _ => true
  | .droop _ _ => true
  | .powerTelemetry _ => true
  | .dozeEnter _ _ => true
  | .islandWake _ _ => true
  | .wakeComplete _ _ => true
  | .lampAlarm => true
  | .lampExitComplete => true
  | .ageSweep => true
  | .scrubSliceDue _ u => Upsets.wf u
  | .maintenanceEnd _ _ slow u => (slow.all fun e => decide (e.1 < 1280)) && Upsets.wf u
  | .maintenanceLate _ => true
  | .rowSpareCopyDone _ => true
  | .ident => true
  | .status => true
  | .temp => true
  | .power => true
  | .capRead => true
  | .capWrite _ _ => true
  | .alertResponse _ => true
  | .smbTimeout => true
  | .pmbusIoutPoll rails => rails.all RailTry.wf
  | .pmbAlert rails => rails.all RailTry.wf
  | .busRecovery _ => true
  | .busRecoveryRepeat _ => true
  | .uartRxFrame _ _ => true
  | .gpioEdge _ _ => true
  | .gpioPulse _ => true
  | .wakeN => true
  | .imonSample mv => mv.length == 9
  | .sysclkLoss => true
  | .bypass => true
  | .idcode => true
  | .samplePreload _ => true
  | .extest => true
  | .clamp => true
  | .highz => true
  | .trst => true
  | .coldReset => true
  | .deviceReset => true
  | .hotReset => true
  | .bootLinkTrained => true
  | .bootImageSelect => true
  | .bootStoresReady => true
  | .selfTest f => (f.clusters.all fun g => decide (g < 1280)) && f.mills.all fun m => decide (m < 16)
  | .bootReady => true
  | .faultBellReceive => true
  | .resetRelease _ _ => true
  | .droopRecovery _ _ => true
  | .uartByteSent => true
  | .bar0AccessWake off => barOff off

end Sys2Proof
end

