-- ==== Sys2Proof/Machine/Setup.lean ====
section
/-! DEFINITION. Sys2Proof/Machine/Setup.lean: BAR0 accesses (00_scope.md R8 to R19) with the behaviour of every register,
and the rows of set-up. One operation, `bar0Write`, serves BAR0 writes and, with `adm`, the administrative SETREG, which the
lock does not stop (14 R532). A write answers the state and the status that SETREG returns. -/

namespace Sys2Proof.Machine

/-- The lock closes the RW-L fields to a write (R17). -/
def closedTo (s : State) (adm : Bool) : Bool := locked s && !adm

/-- A write that is not committed: an error bit and RANGE. -/
def refuseAt (s : State) (off bitNo : Nat) : State × Nat := (raise s off bitNo, 4)

/-- A word is committed where a check holds; else it stays and an error bit is set. -/
def commitIf (ok : Bool) (s : State) (off new errOff errBit : Nat) : State × Nat :=
  if ok then (wr s off new, 0) else refuseAt s errOff errBit

/-- A word whose field hi:lo alone is refused: the rest is committed. -/
def commitField (ok : Bool) (s : State) (off new hi lo errOff errBit : Nat) : State × Nat :=
  if ok then (wr s off new, 0)
  else (raise (wr s off (setBits new hi lo (getF s off hi lo))) errOff errBit, 4)

/-- Is a value from lo to hi? -/
def between (lo hi v : Nat) : Bool := decide (lo ≤ v) && decide (v ≤ hi)

/-! ### GLB (13 R507, 18 R656) -/

/-- The resource that `GLB_FREC` names. -/
def frecRes (v : Nat) : Res :=
  let i := bits v 10 0
  let k := bits v 26 24
  if k = 0 then .cluster i else if k = 1 then .mill i else if k = 2 then .port i else .lane i

/-- A write of `GLB_RST`: AGECLR, refused while the lock is set, then DEV. -/
def writeRst (s : State) (v : Nat) : State × Nat :=
  let r := if bit v 1 then
      (if locked s then refuseAt s R.glbFstat 4 else ({ s with power := { s.power with ages := [] } }, 0))
    else (s, 0)
  if bit v 0 then (deviceResetWrite r.1, r.2) else r

/-- A write of `GLB_FREC` (18 R650). -/
def writeFrec (s : State) (v new : Nat) : State × Nat :=
  if 4 ≤ bits v 26 24 ∨ (bit v 31 ∧ locked s) then refuseAt s R.glbFstat 4
  else
    let s := wr s R.glbFrec new
    if bit v 31 then ({ s with flt := { s.flt with record := s.flt.record.filter (· != frecRes v) } }, 0) else (s, 0)

/-- A write in the GLB block. -/
def writeGlb (s : State) (off v new : Nat) : State × Nat :=
  if off = R.glbRst then writeRst s v
  else if off = R.glbFrec then writeFrec s v new
  else if off = R.glbFwin then
    commitIf (bits new 31 16 != 0 && between 2 15 (bits new 3 0)) s off new R.glbFstat 4
  else (wr s off new, 0)

/-! ### PWR and TB (16 R602, 13 R507) -/

/-- `PWR_MREQ.GO` (16 R598): the request's status. AGE, SCRUB, a reserved activity and a unit of a package activity are out
of range. -/
def goMaint (s : State) (v : Nat) : State × Nat :=
  let a := bits v 18 16
  let u := bits v 13 8
  if a ≤ 1 ∨ 4 < a ∨ (a = 2 ∧ u ≠ 0) then (setF s R.pwrMreq 3 0 4, 4)
  else
    let r := requestMaint { s with power := { s.power with lastReq := some (a, u) } } (a, u)
    (setF r.1 R.pwrMreq 3 0 r.2, r.2)

/-- A write in the PWR range. -/
def writePwr (s : State) (off v new : Nat) : State × Nat :=
  if off = R.pwrCtl then
    let s := wr s off new
    let s := if bit v 0 then lampEnter s else s
    (if bit v 1 then lampWake s else s, 0)
  else if off = R.pwrDozet then commitIf (bits new 15 0 != 0) s off new R.pwrStat 7
  else if off = R.pwrTherm then
    commitIf (decide (bits new 15 8 ≤ 104) && decide (bits new 7 0 ≤ bits new 15 8)) s off new R.pwrStat 7
  else if off = R.pwrCap then commitIf (capOk (bits new 11 0)) s off new R.pwrStat 7
  else if off = R.pwrMreq then (if bit v 31 then goMaint (wr s off new) v else (wr s off new, 0))
  else if off = R.pwrAge then commitField (between 1 168 (bits new 7 0)) s off new 7 0 R.pwrStat 7
  else if R.pwrIsl 0 ≤ off ∧ off < R.pwrIsl 1280 then
    commitField (decide (bits new 4 0 ≤ 18)) s off new 4 0 R.pwrStat 7
  else (wr s off new, 0)

/-- A write in the TB range: REFSEL written returns the time base to the input it selects (13 R474). -/
def writeTb (lk : Bool) (s : State) (off new : Nat) : State × Nat :=
  if off = R.tbCtl then
    if bit new 31 ∧ bits new 15 0 = 0 then refuseAt s R.tbStat 3
    else if lk then (s, 0)
    else
      let per := 1000 * bits new 15 0
      let s := wr s off new
      ({ s with time := { s.time with refLost := false, pulse := nowNs s / per * per } }, 0)
  else (wr s off new, 0)

/-- The high word of `TB_SET` (13 R476, 18 R644): in FREE the time base steps to T. -/
def commitTbSet (s : State) (v : Nat) : State × Nat :=
  if gangState s = 0 then (stepTo (wr64 s R.tbSet v) (v * 2 ^ 32), 0) else refuseAt s R.tbStat 1

/-! ### HST and VF (14 R543 to R545) -/

/-- A write of `VF_CTL`. -/
def writeVfCtl (s : State) (n v : Nat) : State × Nat :=
  if locked s then (s, 0)
  else
    let k := bits v 2 0
    if k = 1 then enableFn s n
    else if k = 2 ∨ k = 4 then (disableFn s n, 0)
    else if k = 0 then (s, 0)
    else refuseAt s R.hstStat 0

/-- May a tally range be bound to a function on a die (14 R533, R544)? -/
def tallyOk (s : State) (fn d base count : Nat) : Bool :=
  decide (count ≤ 16384) && decide (base + count ≤ 16384) && !tallyOverlaps s fn d base count

/-- A write in the HST block or a function's VF registers. -/
def writeHst (lk : Bool) (s : State) (off v new : Nat) : State × Nat :=
  if off = R.hstDrain then commitField (between 1 1000 (bits new 9 0)) s off new 9 0 R.hstStat 0
  else if R.vfCtl 0 ≤ off then
    let n := (off - R.vfCtl 0) / 64
    let r := (off - R.vfCtl 0) % 64
    if r = 0 then writeVfCtl s n v
    else if 0x20 ≤ r then
      if lk then (s, 0)
      else commitIf (fnState s n == 0 && tallyOk s n ((r - 0x20) / 4) (bits new 13 0) (bits new 30 16)) s off new R.hstStat 0
    else (wr s off new, 0)
  else (wr s off new, 0)

/-! ### FAB (07 R298) -/

/-- A write of `FAB_EPOCH`: ARM (R297), with a flip at once where `FAB_FLIPAT` has passed, then FLIP (R295). -/
def writeEpoch (s : State) (v new : Nat) : State × Nat :=
  let arms := bit new 8 && !flag s R.fabEpoch 8
  let bad := arms && (flag s R.fabEpoch 4 || fabDrain s != 0)
  let s1 := if bad then raise s R.fabStat 6 else wr s R.fabEpoch new
  let t := rd64 s R.fabFlipat
  let s2 := if arms && !bad && t != 0 && decide (t ≤ nowNs s) then fabFlip s1 else s1
  let st := if bad then 4 else 0
  if bit v 12 then (if flag s2 R.fabEpoch 8 then (fabFlip s2, st) else refuseAt s2 R.fabStat 6) else (s2, st)

/-- Does every own coordinate lie within its size? -/
def coordOk (w : Nat) : Bool :=
  (List.range 3).all fun k => decide (bits w (4 * k + 3) (4 * k) ≤ bits w (4 * k + 15) (4 * k + 12))

/-- The status a window's command has left. -/
def winStatus (s : State) (off : Nat) : Nat := getF s off 7 4

/-- A write in the FAB block. -/
def writeFab (s : State) (off v new : Nat) : State × Nat :=
  if off = R.fabEpoch then writeEpoch s v new
  else if off = R.fabRetain then commitIf (between 1 100 (bits new 6 0)) s off new R.fabStat 7
  else if off = R.fabLimits then commitIf (bits new 2 0 != 0) s off new R.fabStat 7
  else if off = R.fabCoord then commitIf (coordOk new) s off new R.fabStat 7
  else if off = R.fabTcmd then
    let t := winCommand s (fabWin s) v
    (t, winStatus t off)
  else (wr s off new, 0)

/-! ### CIR (08 R337 to R340) -/

/-- The VALID entries of a bank with their CIDs. -/
def bankEntries (s : State) (bank : Nat) : List (Nat × Nat) :=
  (s.cir.entries.filter fun e => e.1 / 65536 == bank && cirValid e.2).map fun e => (e.1 % 65536, e.2)

/-- The reserved slots of a bank: port and CID. -/
def bankSlots (s : State) (bank : Nat) : List (Nat × Nat) :=
  (s.cir.cages.filter fun e => e.1 / 65536 == bank && bit e.2 16).map fun e => (e.1 % 65536 / 1024, bits e.2 15 0)

/-- Does the inactive bank pass the checks of R339? -/
def armOk (s : State) : Bool :=
  let b := 1 - cirBank s
  let es := bankEntries s b
  let sl := bankSlots s b
  let src := (es.filter fun e => cirRole e.2 == 1).map fun e => bits e.2 43 16
  ((List.range 64).all fun p => decide (l60 s b p ≤ 48)) &&
  (sl.all fun x => es.any fun e => e.1 == x.2 && decide (cirRole e.2 ≤ 1) && cirEport e.2 == x.1) &&
  (es.all fun e => decide (1 < cirRole e.2) || sl.any fun x => x.2 == e.1) &&
  decide (src.eraseDups.length = src.length)

/-- A write of `CIR_CTL`: DRAIN, then ARM, then FLIP. -/
def writeCirCtl (s : State) (v new : Nat) : State × Nat :=
  let badD := !between 1 9 (bits new 19 16)
  let badA := bit new 8 && !flag s R.cirCtl 8 && !armOk s
  let w := if badD then setBits new 19 16 (getF s R.cirCtl 19 16) else new
  let w := if badA then setBits w 8 8 0 else w
  let s := wr s R.cirCtl w
  let s := if badD then raise s R.cirStat 0 else s
  let s := if badA then raise s R.cirStat 1 else s
  let st := if badD ∨ badA then 4 else 0
  if !bit v 12 then (s, st)
  else if flag s R.cirCtl 8 && (liveCids s).isEmpty then
    (setF (setF s R.cirCtl 0 0 (1 - cirBank s)) R.cirCtl 8 8 0, st)
  else refuseAt s R.cirStat 1

/-- A write in the CIR block. -/
def writeCir (s : State) (off v new : Nat) : State × Nat :=
  if off = R.cirCtl then writeCirCtl s v new
  else if off = R.cirSrcq then commitIf (between 1 256 (bits new 8 0)) s off new R.cirStat 0
  else if off = R.cirPtmo then commitIf (between 10 255 (bits new 7 0)) s off new R.cirStat 0
  else if off = R.cirTcmd then
    let t := winCommand s (cirWin s) v
    (t, winStatus t off)
  else (wr s off new, 0)

/-! ### SWQ, POL, SHP and MIR (09 R375, R376) -/

/-- `SWQ_HCTL.SNAP` (R368): the live bins become the readable bins and are cleared. -/
def snapBins (s : State) : State :=
  let put := fun (live : List (Nat × Nat)) (off : Nat → Nat) (s : State) =>
    (List.range 1152).foldl (fun s k => wr s (off k) (SMap.getD live k 0)) s
  let s := put s.fab.liveDep (fun k => R.swqHdep (k / 16) (k % 16)) s
  let s := put s.fab.liveDly (fun k => R.swqHdly (k / 16) (k % 16)) s
  { s with fab := { s.fab with liveDep := [], liveDly := [] } }

/-- A write in the SWQ block. -/
def writeSwq (s : State) (off v new : Nat) : State × Nat :=
  if off = R.swqCtl then commitField (decide (16 ≤ bits new 7 0)) s off new 7 0 R.swqStat 0
  else if off = R.swqEdseed then commitIf (new != 0) s off new R.swqStat 0
  else if R.swqEdp 0 ≤ off ∧ off < R.swqEdp 4 then
    commitIf (decide (bits new 7 0 < bits new 15 8)) s off new R.swqStat 0
  else if off = R.swqHctl then
    let r := commitField (decide (64 ≤ bits new 15 0)) s off new 15 0 R.swqStat 0
    if bit v 31 then (snapBins r.1, r.2) else r
  else if R.swqCny0 0 ≤ off ∧ off < R.swqCny0 8 ∧ (off - R.swqCny0 0) % 32 = 0 then
    let r := commitIf (!bit new 31 || bits new 23 8 != 0) s off new R.swqStat 0
    (if flag r.1 off 31 then r.1
     else { r.1 with fab := { r.1.fab with probeAt := SMap.erase r.1.fab.probeAt ((off - R.swqCny0 0) / 32) } }, r.2)
  else (wr s off new, 0)

/-- A write of `POL_CFG` word 3 (R352 to R354, R376): the four words are committed, the tokens clipped to the new sizes. -/
def commitPolicer (lk : Bool) (s : State) (k new : Nat) : State × Nat :=
  let w0 := rd s (R.polCfg0 k)
  let en := bit w0 31
  let cir := bits w0 23 0
  let pir := bits (rd s (R.polCfg1 k)) 23 0
  let cbs := bits (rd s (R.polCfg2 k)) 23 0
  let pbs := bits new 23 0
  if lk then (s, 0)
  else if pir < cir ∨ (en ∧ (pir = 0 ∨ cbs * 64 < 4160 ∨ pbs * 64 < 4160)) then refuseAt s R.polStat 0
  else
    let p := (polOf s k).tick s.time.now
    let q : Policer := { p with
      en := en, cir := cir, pir := pir, cbs := cbs, pbs := pbs
      tc := min p.tc (cbs * 64 * byteUnits), tp := min p.tp (pbs * 64 * byteUnits) }
    (setPol (wr s (R.polCfg3 k) new) k q, 0)

/-- A write of `SHP_CFG` word 1 (R346, R349, R354, R376). -/
def commitShaper (lk : Bool) (s : State) (k new : Nat) : State × Nat :=
  let w0 := rd s (R.shpCfg0 k)
  let en := bit w0 31
  let rate := bits w0 23 0
  let ovh := bits new 31 23
  let depth := bits new 22 0
  if lk then (s, 0)
  else if sext 9 ovh < -32 ∨ (en ∧ (rate = 0 ∨ depth * 64 < 4416)) then refuseAt s R.shpStat 0
  else
    let p := (shpOf s k).tick s.time.now
    let q : Shaper := { p with en := en, rate := rate, depth := depth, ovh := ovh, tok := min p.tok (depth * 64 * byteUnits) }
    (setShp (wr s (R.shpCfg1 k) new) k q, 0)

/-- A write in the POL block. -/
def writePol (lk : Bool) (s : State) (off new : Nat) : State × Nat :=
  if off < R.polCfg0 1026 ∧ (off - R.polCfg0 0) % 16 = 12 then commitPolicer lk s ((off - R.polCfg0 0) / 16) new
  else (wr s off new, 0)

/-- A write in the SHP block. -/
def writeShp (lk : Bool) (s : State) (off new : Nat) : State × Nat :=
  if off < R.shpCfg0 1026 ∧ (off - R.shpCfg0 0) % 8 = 4 then commitShaper lk s ((off - R.shpCfg0 0) / 8) new
  else (wr s off new, 0)

/-- A write of `MIR_CTL` (R371 to R374; 17 R613): TGT = 1 claims the mirror buffer; EN set starts SEQ from 0. -/
def writeMirCtl (s : State) (new : Nat) : State × Nat :=
  if bit new 31 ∧ bits new 15 0 = 0 then refuseAt s R.mirStat 0
  else if bit new 30 ∧ !flag s R.mirCtl 30 ∧ mbufOwner s = 2 then (mgtConflict (raise s R.mirStat 2) 9, 3)
  else
    let seq := if bit new 31 && !flag s R.mirCtl 31 then 0 else s.fab.mirSeq
    let s := wr s R.mirCtl new
    ({ s with fab := { s.fab with mirSeq := seq } }, 0)

/-- A write in the MIR block. -/
def writeMir (s : State) (off new : Nat) : State × Nat :=
  if off = R.mirCtl then writeMirCtl s new
  else if off = R.mirRsize then commitIf (between 6 16 (bits new 4 0)) s off new R.mirStat 0
  else (wr s off new, 0)

/-! ### MIL (11 R447, R449 to R451) -/

/-- A write of `MIL_UNIT` (R447): a refused VER leaves the field. -/
def writeUnit (s : State) (m new : Nat) : State × Nat :=
  let off := R.milUnit m
  let ver := bits new 19 16
  let st := if ver = getF s off 19 16 then 0
    else if !bit (getF s R.milId 15 0) ver then 7
    else if !(validStreams s m).isEmpty then 2 else 0
  if st = 0 then (wr s off new, 0)
  else (raise (wr s off (setBits new 19 16 (getF s off 19 16))) R.milStat 0, st)

/-- A write in the MIL block. -/
def writeMil (s : State) (off v new : Nat) : State × Nat :=
  if off = R.milTcmd then
    let t := winCommand s (milWin s) v
    (t, winStatus t off)
  else if R.milUnit 0 ≤ off ∧ off < R.milUnit 16 then writeUnit s ((off - R.milUnit 0) / 4) new
  else if R.milCnt 0 0 ≤ off ∧ off < R.milCnt 16 0 ∧ (off - R.milCnt 0 0) % 32 = 28 then (s, 0)
  else (wr s off new, 0)

/-! ### PRT (15 R573, R574) -/

/-- EN of a port was written: set in OFF it trains, cleared it goes OFF under R564 (Table LNK-4). -/
def enableWritten (s : State) (p : Nat) (was : Bool) : State :=
  let is := flag s (R.prtCtl p) 31
  if was == is then s
  else if is then (if portState s p = 0 then startTraining s p else s)
  else if portState s p = 2 then stopPort s p 0
  else if portState s p = 1 then setPortState s p 0
  else s

/-- WREQ of a port was written while UP: a narrower width starts the change, a wider one requests a retrain (R564, R565). -/
def widthWritten (s : State) (p was : Nat) : State :=
  let is := getF s (R.prtCtl p) 9 8
  if portState s p ≠ 2 ∨ is = was then s
  else if was < is then askWidth s p
  else (requestMaint s (4, p)).1

/-- A write of `PRT_CTL`. -/
def writePrtCtl (s : State) (p v new : Nat) : State × Nat :=
  let off := R.prtCtl p
  let en := flag s off 31
  let wreq := getF s off 9 8
  let r := commitField (bits new 9 8 != 3) s off new 9 8 (R.prtStat p) 23
  let t := widthWritten (enableWritten r.1 p en) p wreq
  if bit v 0 then
    let q := requestMaint t (4, p)
    (q.1, if r.2 = 0 then q.2 else r.2)
  else (t, r.2)

/-- A write of a job-level word (R572): a level above `PRT_LVL.MAX` of port 0 is not committed. -/
def writeLevels (s : State) (off new : Nat) : State × Nat :=
  let mx := getF s (R.prtLvl 0) 7 4
  if (List.range 8).any fun k => decide (mx < bits new (4 * k + 3) (4 * k)) then (raise s (R.prtStat 0) 24, 7)
  else (wr s off new, 0)

/-- A write in a port's PRT block. -/
def writePrt (s : State) (off v new : Nat) : State × Nat :=
  let p := (off - R.prtCtl 0) / 0x4000
  let r := (off - R.prtCtl 0) % 0x4000
  if r = 0 then writePrtCtl s p v new
  else if r = 4 then
    let t := wr s off new
    (if bit v 25 && flag s off 25 && portState s p == 5 then startTraining t p else t, 0)
  else if r = 0xC then commitIf (bits new 31 16 != 0 && bits new 15 0 != 0) s off new (R.prtStat p) 23
  else if r = 0x10 then commitIf (bits new 11 8 != 0) s off new (R.prtStat p) 23
  else if 0x2000 ≤ r then writeLevels s off new
  else (wr s off new, 0)

/-! ### DST (06 R243) and CPX (02, 03, 04 R187, 05 R220) -/

/-- A write in the DST block. -/
def writeDst (lk : Bool) (s : State) (off new : Nat) : State × Nat :=
  if off = R.dstLayout then (if lk then (s, 0) else commitIf (layoutOk s new) s off new R.dstStat 0)
  else if off = R.dstScrub then commitField (between 1 168 (bits new 7 0)) s off new 7 0 R.dstStat 0
  else if R.dstOwn 0 ≤ off ∧ off < R.dstOwn 6144 then
    if lk then (s, 0)
    else
      let st := granuleCheck s ((off - R.dstOwn 0) / 4) (bits new 9 0) (bit new 31)
      if st = 0 then (wr s off new, 0) else (raise s R.dstStat 1, st)
  else (wr s off new, 0)

/-- `CPX_CLERR`: the bits of some statuses and the cluster index. -/
def clErr (s : State) (d : Nat) (sts : List Nat) (idx : Nat) : State :=
  setF (sts.foldl (fun s st => raise s (R.cpxClerr d) (4 - st)) s) (R.cpxClerr d) 23 16 idx

/-- A write in a die's CPX block. -/
def writeCpx (s : State) (off new : Nat) : State × Nat :=
  let d := (off - 0x1400000) / 0x100000
  if off = R.cpxQuantum d then
    if bits new 15 0 < 200 then (clErr s d [4] 0xFF, 4) else (wr s off new, 0)
  else if off = R.cpxFpmode d then commitField (decide (8 ≤ bits new 7 4)) s off new 7 4 (R.cpxFpstat d) 4
  else if off = R.cpxSpill d then commitIf (decide (bits new 5 0 + bits new 22 16 ≤ 64)) s off new (R.cpxSpstat d) 2
  else (wr s off new, 0)

/-- The high word of a `CPX_CLOWN` (04 R189): the word is checked and taken, or `CPX_CLERR` says why not. -/
def commitClown (s : State) (g new : Nat) : State × Nat :=
  let sts := clownBad s g new
  if sts.isEmpty then (takeOwner s g new, 0) else (clErr s (g / 160) sts (g % 160), sts.headD 0)

/-! ### GNG (13 R507) -/

/-- EN of the gang was written (Table DET-1). -/
def gangWritten (s : State) (was : Bool) : State :=
  let is := flag s R.gngCtl 31
  if was == is then s
  else if is then
    let s := setF (setGang s (if getF s R.gngCtl 29 28 = 1 then 4 else 1)) R.gngStat 3 3 0
    { s with gang := { s.gang with
        burstAt := none, masterAt := s.time.lamp, good := 0, nextBurst := s.time.lamp, relay := [], bursts := [] } }
  else
    let s := wr (setGang s 0) R.tbRate 0
    { s with gang := { s.gang with burstAt := none, good := 0, relay := [], bursts := [] } }

/-- The ports a bond word names. -/
def bondRange (w : Nat) : List Nat := if bit w 31 then upto (bits w 5 0) (2 ^ bits w 9 8) else []

/-- May a bond take a word (R494)? -/
def bondOk (s : State) (b w : Nat) : Bool :=
  let ps := bondRange w
  let dev := fun p => rd64 s (R.prtPeer p)
  !bit w 31 || (bits w 9 8 != 0 && bits w 5 0 % 2 ^ bits w 9 8 == 0 &&
    (ps.all fun p => portUp s p && dev p == dev (bits w 5 0)) &&
    (List.range 8).all fun c => c == b || (bondRange (rd s (R.gngBond c))).all fun p => !memNat p ps)

/-- A write of `GNG_BOND` (R494, R495): the members are locked, and their pads and lags set; those released have theirs set
anew. -/
def writeBond (lk : Bool) (s : State) (b new : Nat) : State × Nat :=
  if lk then (s, 0)
  else if !bondOk s b new then refuseAt s R.gngStat 8
  else
    let old := bondPorts s b
    let ps := bondRange new
    let s := wr s (R.gngBond b) new
    let s := { s with gang := { s.gang with left := s.gang.left.filter fun p => !memNat p ps } }
    (remeasure s ((old.filter fun p => !memNat p ps) ++ ps), 0)

/-- A word of `GNG_BAR` as written: held, else as committed. -/
def barWord (s : State) (b w : Nat) : Nat :=
  (SMap.find s.gang.barHeld (4 * b + w)).getD (rd s (R.gngBar0 b + 4 * w))

/-- A write of `GNG_BAR`: words 0 to 2 are held; word 3 commits all four and zeroes the counts, or sets CFGERR. -/
def writeBar (lk : Bool) (s : State) (b w new : Nat) : State × Nat :=
  if lk then (s, 0)
  else if w ≠ 3 then ({ s with gang := { s.gang with barHeld := SMap.put s.gang.barHeld (4 * b + w) new } }, 0)
  else
    let w0 := barWord s b 0
    let w1 := barWord s b 1
    if bits w0 30 24 = 0 ∨ bits w0 23 12 = 0 ∨ !between 1 4096 (bits w1 12 0) then refuseAt s R.gngStat 8
    else
      let w2 := barWord s b 2
      let s := wr (wr (wr (wr s (R.gngBar0 b) w0) (R.gngBar1 b) w1) (R.gngBar2 b) w2) (R.gngBar3 b) new
      let s := setBar s b (0, 0)
      ({ s with gang := { s.gang with barHeld := s.gang.barHeld.filter fun e => e.1 / 4 != b } }, 0)

/-- A write in the GNG block. -/
def writeGng (lk : Bool) (s : State) (off new : Nat) : State × Nat :=
  if off = R.gngCtl then
    if bits new 29 28 = 3 ∨ !between 2 15 (bits new 27 24) ∨ !between 2 50 (bits new 23 16) then refuseAt s R.gngStat 8
    else (gangWritten (wr s off new) (flag s off 31), 0)
  else if off = R.gngDper then commitIf (bits new 7 0 != 0) s off new R.gngStat 8
  else if R.gngBond 0 ≤ off ∧ off < R.gngBond 8 then writeBond lk s ((off - R.gngBond 0) / 4) new
  else if R.gngBar0 0 ≤ off ∧ off < R.gngBar0 64 then
    writeBar lk s ((off - R.gngBar0 0) / 16) ((off - R.gngBar0 0) % 16 / 4) new
  else (wr s off new, 0)

/-! ### MGT, UART, I2C, SPI and GPIO (17 R613, R631) -/

/-- A write of `MGT_CTL`: a feature whose pin is in GPIO use is not enabled; FAULT_N enabled while a fault stands is low. -/
def writeMgtCtl (s : State) (new : Nat) : State × Nat :=
  match (List.range 3).find? fun n => bit new n && !flag s R.mgtCtl n && gpioMode s n != 0 with
  | some n => (mgtConflict s n, 3)
  | none =>
    let low := bit new 0 && !flag s R.mgtCtl 0 && flag s R.glbFault 31
    let s := wr s R.mgtCtl new
    (if low then emit s (.pin "FAULT_N" false) else s, 0)

/-- A write of `UART_CTL`: PINSEL and LOG claim their resources; a divisor below 0x0010 leaves the field. -/
def writeUart (s : State) (new : Nat) : State × Nat :=
  let off := R.uartCtl
  let pins := bit new 29 && !flag s off 29
  if pins && gpioMode s 14 != 0 then (mgtConflict s 3, 3)
  else if pins && gpioMode s 15 != 0 then (mgtConflict s 4, 3)
  else if bit new 28 && !flag s off 28 && mbufOwner s == 1 then (mgtConflict s 9, 3)
  else (wr s off (if bits new 15 0 < 16 then setBits new 15 0 (getF s off 15 0) else new), 0)

/-- The level that a pin in an output mode drives. -/
def drivePin (s : State) (n : Nat) : State :=
  if gpioMode s n = 2 ∨ gpioMode s n = 3 then emit s (.pin (pinName n) (flag s R.gpioOut n)) else s

/-- The resource index of a pin that two features share. -/
def pinRes (n : Nat) : Nat := if n < 3 then n else n - 11

/-- A write of `GPIO_CFG` (R613, R630): MODE 5 to 7 leave the register; a pulse without a period, a shared pin or a held timer
is a conflict; a pulse pin's timer starts. -/
def writeGpio (s : State) (n new : Nat) : State × Nat :=
  let mode := bits new 2 0
  let t := bits new 7 6
  if 5 ≤ mode then (s, 0)
  else if mode = 4 ∧ bits new 31 16 = 0 then (mgtConflict s 15, 3)
  else if mode ≠ 0 ∧ pinHeld s n then (mgtConflict s (pinRes n), 3)
  else if mode = 4 ∧ timerHeld s t n then (mgtConflict s (5 + t), 3)
  else
    let s := wr s (R.gpioCfg n) new
    let due := s.time.lamp + 5120 * bits new 31 16
    let s := setMgmt s { s.mgmt with
      pulses := if mode = 4 then SMap.put s.mgmt.pulses n due else SMap.erase s.mgmt.pulses n }
    (drivePin s n, 0)

/-- A write of `GPIO_OUT`: the pins in an output mode whose bit changes are driven. -/
def writeGpioOut (s : State) (new : Nat) : State :=
  let t := wr s R.gpioOut new
  ((List.range 16).filter fun n => flag s R.gpioOut n != bit new n).foldl drivePin t

/-- A write in the MGT, UART, I2C, SPI or GPIO block. -/
def writeMgt (lk : Bool) (s : State) (off v new : Nat) : State × Nat :=
  if off = R.mgtCtl then writeMgtCtl s new
  else if off = R.uartCtl then writeUart s new
  else if off = R.uartData then (uartDataWrite true (BitVec.ofNat 8 v) s, 0)
  else if off = R.spiCmd then
    let t := spiCommand (bits v 1 0) false s
    (t, getF t R.spiCmd 27 24)
  else if R.gpioCfg 0 ≤ off ∧ off < R.gpioCfg 16 then
    if lk then (s, 0) else writeGpio s ((off - R.gpioCfg 0) / 4) new
  else if off = R.gpioOut then (writeGpioOut s new, 0)
  else (wr s off new, 0)

/-! ### BAR0 (00 R8 to R19) -/

/-- A 32-bit register takes a word under its own rules. -/
def write32 (lk : Bool) (s : State) (off v new : Nat) : State × Nat :=
  if off < 0x100000 then writeGlb s off v new
  else if off < 0x180000 then writePwr s off v new
  else if off < 0x200000 then writeTb lk s off new
  else if off < 0x400000 then writeHst lk s off v new
  else if off < 0x600000 then writeFab s off v new
  else if off < 0x800000 then writeCir s off v new
  else if off < 0x900000 then writeSwq s off v new
  else if off < 0xA00000 then writePol lk s off new
  else if off < 0xB00000 then writeShp lk s off new
  else if off < 0xC00000 then writeMir s off new
  else if off < 0x1000000 then writeMil s off v new
  else if off < 0x1200000 then writePrt s off v new
  else if off < 0x1400000 then writeDst lk s off new
  else if off < 0x1C00000 then writeCpx s off new
  else if off < 0x1E00000 then writeGng lk s off new
  else writeMgt lk s off v new

/-- A 64-bit register at an offset takes both words under its own rules. -/
def commit64 (lk : Bool) (s : State) (off new : Nat) : State × Nat :=
  if off = R.tbSet then (if lk then (s, 0) else commitTbSet s new)
  else if R.vfCtl 0 ≤ off ∧ off < R.vfCtl 513 then
    let n := (off - R.vfCtl 0) / 64
    if lk then (s, 0)
    else if fnState s n ≠ 0 ∨ s.host.numVfs < n then refuseAt s R.hstStat 0
    else (wr64 s off new, 0)
  else if off = R.cirShiftat then
    if lk then (s, 0)
    else
      let s := wr64 s off new
      ({ s with cir := { s.cir with fired := false } }, 0)
  else if 0x1400000 ≤ off ∧ off < 0x1C00000 then
    if lk then (s, 0)
    else commitClown s (160 * ((off - 0x1400000) / 0x100000) + (off - 0x1410000) % 0x100000 / 8) new
  else (wr64 s off new, 0)

/-- A 32-bit write to an offset of BAR0 (R8 to R19): the state and the status. The low word of a 64-bit register is held; its
high word commits both. A low word that the lock closes is not held (R17). -/
def bar0Write (adm : Bool) (off v : Nat) (s : State) : State × Nat :=
  let lk := closedTo s adm
  match regAt off with
  | none => (dropHeld s off, 0)
  | some (r, w) =>
    if r.words = 1 then
      let s := dropHeld s off
      write32 lk s off v (RegRow.write r w lk (rd s off) v)
    else
      let base := off - 4 * w
      let s := dropHeld s base
      if w = 0 then (if lk && r.hasLocked 0 then (s, 0) else ({ s with held := some (base, v) }, 0))
      else
        let low := match s.held with
          | some (_, l) => RegRow.write r 0 lk (rd s base) l
          | none => rd s base
        let high := RegRow.write r 1 lk (rd s off) v
        commit64 lk { s with held := none } base (low + 2 ^ 32 * high)

/-- Does an offset hold a 64-bit register's low word? -/
def isLow64 (off : Nat) : Bool := (regAt off).any fun x => x.1.words == 2 && x.2 == 0
/-- Does an offset hold a 64-bit register's high word? -/
def isHigh64 (off : Nat) : Bool := (regAt off).any fun x => x.1.words == 2 && x.2 == 1

/-- Does a read return 0: from the training of the PCI Express link until the image is chosen, and with no image, only GLB and SPI
answer (18 R641, R642)? -/
def readsZero (s : State) (off : Nat) : Bool :=
  (bootPhase s == 1 || bootPhase s == 6) &&
  !(decide (off < 0x100000) || (decide (0x1E30000 ≤ off) && decide (off < 0x1E40000)))

/-- What a read of an offset returns: registers that show live state are computed. -/
def readReg (s : State) (off : Nat) : Nat :=
  if readsZero s off then 0
  else if off = R.tbNow then nowNs s % 2 ^ 32
  else if off = R.tbNow + 4 then nowNs s / 2 ^ 32 % 2 ^ 32
  else if off = R.fabDrain then min (fabDrain s) 0xFFFFFF
  else if R.cirPort 0 ≤ off ∧ off < R.cirPort 64 then setBits (rd s off) 29 24 (l60 s (cirBank s) ((off - R.cirPort 0) / 4))
  else if R.swqQ 0 0 ≤ off ∧ off < R.swqQ 72 0 then
    let q := (off - R.swqQ 0 0) / 16
    let w := (off - R.swqQ 0 0) % 16 / 4
    if w = 0 then depthOf s q else if w = 1 then capOf s q else if w = 2 then lcapOf s (capOf s q) else (queueOf s q).avg / 256
  else if off = R.gngHold then
    match s.gang.burstAt with
    | none => 0
    | some t => min 0xFFFFFFFF ((s.time.lamp - t) / 1000)
  else if R.gngBar0 0 ≤ off ∧ off < R.gngBar0 64 then
    barWord s ((off - R.gngBar0 0) / 16) ((off - R.gngBar0 0) % 16 / 4)
  else if off = R.pwrMstat then
    s.power.deferred.length * 256 +
      ((List.range 5).filter fun a => s.power.running.any fun r => r.1 == a).foldl (fun m a => m + 2 ^ a) 0
  else if R.pwrIsl 0 ≤ off ∧ off < R.pwrIsl 1280 then
    let g := (off - R.pwrIsl 0) / 4
    if !dozing s g && busy s g then setBits (rd s off) 29 28 0 else rd s off
  else if off = R.mgtOwn then mgtOwn s
  else if off = R.uartStat then setBits (rd s off) 6 0 s.mgmt.rx.length
  else if off = R.i2cCtl then setBits (rd s off) 6 0 (smbAddr s)
  else rd s off

/-- A 32-bit read of an offset: the low word of a 64-bit register captures its high word, and the next read of that high word
returns what was captured (R12); any other word returns what it holds (R15, R19). -/
def bar0Read (off : Nat) (s : State) : State :=
  if off = R.uartData ∧ readsZero s off = false then uartDataRead true s
  else if isLow64 off then
    emit { s with captured := SMap.put s.captured (off + 4) (readReg s (off + 4)) } (.read off (readReg s off))
  else
    match SMap.find s.captured off with
    | some v => emit { s with captured := SMap.erase s.captured off } (.read off v)
    | none => emit s (.read off (readReg s off))

/-! ### Events of the tables -/

/-- EPOCH_FLIP_AT: the time base has reached `FAB_FLIPAT` with ARM set (07 R295). -/
def epochFlipAt (s : State) : State :=
  let t := rd64 s R.fabFlipat
  if t ≠ 0 ∧ t ≤ nowNs s ∧ flag s R.fabEpoch 8 then fabFlip s else s

/-- RETENTION_END (07 R296): HOLD microseconds after the flip with `FAB_DRAIN` 0, or 100 microseconds after it, RET clears. -/
def retentionEnd (s : State) : State :=
  let dt := s.time.lamp - s.fab.flipAt
  if flag s R.fabEpoch 4 && (decide (100000 ≤ dt) || (decide (1000 * s.fab.hold ≤ dt) && fabDrain s == 0)) then
    setF s R.fabEpoch 4 4 0
  else s

/-! ### The rows -/

/-- REGISTER_WRITE, in BAR0 or another window of the host's (R513). -/
def execRegisterWrite (off : Nat) (v : Word) (s : State) : Out :=
  .next (if off < barSize then (bar0Write false off v.toNat s).1 else pcieWrite off v.toNat s)
/-- BAR0_UNSUPPORTED_ACCESS: an access narrower than 32 bits or not naturally aligned completes as Unsupported Request and
changes nothing (R10). -/
def execBar0UnsupportedAccess (off size : Nat) (s : State) : Out :=
  .next (if size < 4 ∨ off % size ≠ 0 then emit s (.pcieUr off) else s)
/-- REG64_LOW_WRITE. -/
def execReg64LowWrite (off : Nat) (v : Word) (s : State) : Out :=
  .next (if isLow64 off then (bar0Write false off v.toNat s).1 else s)
/-- REG64_HIGH_WRITE. -/
def execReg64HighWrite (off : Nat) (v : Word) (s : State) : Out :=
  .next (if isHigh64 off then (bar0Write false off v.toNat s).1 else s)
/-- REG64_LOW_READ: a BAR0 read; of a low word, it captures the high word, which the next read of it returns. -/
def execReg64LowRead (off : Nat) (s : State) : Out :=
  .next (if off < barSize then bar0Read off s else pcieRead off s)
/-- LOCK: a write of `GLB_LOCK.LOCK` = 1. -/
def execLock (s : State) : Out := .next (bar0Write false R.glbLock 1 s).1
/-- CLUSTER_OWNER_WRITE: both words of a `CPX_CLOWN`, low word first. -/
def execClusterOwnerWrite (d : Die) (i : Clu) (v : DWord) (s : State) : Out :=
  .next (bar0Write false (R.cpxClown d i + 4) (v.toNat / 2 ^ 32)
    (bar0Write false (R.cpxClown d i) (v.toNat % 2 ^ 32) s).1).1
/-- DST_LAYOUT_WRITE. -/
def execDstLayoutWrite (v : Word) (s : State) : Out := .next (bar0Write false R.dstLayout v.toNat s).1
/-- GRANULE_OWNER_WRITE. -/
def execGranuleOwnerWrite (g : Fin 6144) (v : Word) (s : State) : Out := .next (bar0Write false (R.dstOwn g) v.toNat s).1
/-- FAB_TABLE_READ: `FAB_TCMD.RD` = 1. -/
def execFabTableRead (s : State) : Out := .next (bar0Write false R.fabTcmd 1 s).1
/-- FAB_TABLE_WRITE: `FAB_TCMD.WR` = 1. -/
def execFabTableWrite (s : State) : Out := .next (bar0Write false R.fabTcmd 2 s).1
/-- FAB_EPOCH_ARM: `FAB_EPOCH.ARM` = 1. -/
def execFabEpochArm (s : State) : Out := .next (bar0Write false R.fabEpoch 0x100 s).1
/-- FAB_EPOCH_FLIP: `FAB_EPOCH.FLIP` = 1, ARM as it stands. -/
def execFabEpochFlip (s : State) : Out :=
  .next (bar0Write false R.fabEpoch (0x1000 + 0x100 * b2n (flag s R.fabEpoch 8)) s).1
/-- EPOCH_FLIP_AT. -/
def execEpochFlipAt (s : State) : Out := .next (epochFlipAt s)
/-- RETENTION_END. -/
def execRetentionEnd (s : State) : Out := .next (retentionEnd s)
/-- CIR_TABLE_READ: `CIR_TCMD.RD` = 1. -/
def execCirTableRead (s : State) : Out := .next (bar0Write false R.cirTcmd 1 s).1
/-- CIR_TABLE_WRITE: `CIR_TCMD.WR` = 1. -/
def execCirTableWrite (s : State) : Out := .next (bar0Write false R.cirTcmd 2 s).1
/-- CIR_ARM: `CIR_CTL.ARM` = 1, DRAIN as it stands. -/
def execCirArm (s : State) : Out := .next (bar0Write false R.cirCtl (setBits (rd s R.cirCtl) 8 8 1) s).1
/-- CIR_FLIP: `CIR_CTL.FLIP` = 1, the other fields as they stand. -/
def execCirFlip (s : State) : Out := .next (bar0Write false R.cirCtl (setBits (rd s R.cirCtl) 12 12 1) s).1
/-- MIL_TABLE_READ: `MIL_TCMD.RD` = 1. -/
def execMilTableRead (s : State) : Out := .next (bar0Write false R.milTcmd 1 s).1
/-- MIL_TABLE_WRITE: `MIL_TCMD.WR` = 1. -/
def execMilTableWrite (s : State) : Out := .next (bar0Write false R.milTcmd 2 s).1
/-- MILL_VERSION_WRITE: a write of `MIL_UNIT`. -/
def execMillVersionWrite (m : MillIx) (v : Word) (s : State) : Out := .next (bar0Write false (R.milUnit m) v.toNat s).1
/-- POLICER_COMMIT: a write of `POL_CFG` word 3. -/
def execPolicerCommit (k : Fin 1026) (v : Word) (s : State) : Out := .next (bar0Write false (R.polCfg3 k) v.toNat s).1
/-- SHAPER_COMMIT: a write of `SHP_CFG` word 1. -/
def execShaperCommit (k : Fin 1026) (v : Word) (s : State) : Out := .next (bar0Write false (R.shpCfg1 k) v.toNat s).1
/-- MIRROR_TARGET_WRITE: a write of `MIR_CTL`. -/
def execMirrorTargetWrite (v : Word) (s : State) : Out := .next (bar0Write false R.mirCtl v.toNat s).1
/-- Is an offset a register whose write claims a shared resource (17 R613)? -/
def claims (off : Nat) : Bool :=
  off == R.mgtCtl || off == R.uartCtl || (decide (R.gpioCfg 0 ≤ off) && decide (off < R.gpioCfg 16))
/-- RESOURCE_CLAIM_WRITE: a write of `MGT_CTL`, `UART_CTL` or `GPIO_CFG`. -/
def execResourceClaimWrite (off : Nat) (v : Word) (s : State) : Out :=
  .next (if claims off then (bar0Write false off v.toNat s).1 else s)
/-- FAULT_RECORD_CLEAR: a write of `GLB_FREC` with CLR = 1. -/
def execFaultRecordClear (v : Word) (s : State) : Out :=
  .next (bar0Write false R.glbFrec (setBits v.toNat 31 31 1) s).1
/-- AGECLR: `GLB_RST.AGECLR` = 1. -/
def execAgeclr (s : State) : Out := .next (bar0Write false R.glbRst 2 s).1
/-- TIME_SET: a write of the high word of `TB_SET`. -/
def execTimeSet (v : Word) (s : State) : Out := .next (bar0Write false (R.tbSet + 4) v.toNat s).1
/-- GANG_ENABLE: a write of `GNG_CTL`. -/
def execGangEnable (v : Word) (s : State) : Out := .next (bar0Write false R.gngCtl v.toNat s).1
/-- BOND_WRITE: a write of `GNG_BOND`. -/
def execBondWrite (b : Fin 8) (v : Word) (s : State) : Out := .next (bar0Write false (R.gngBond b) v.toNat s).1
/-- BARRIER_COMMIT: a write of `GNG_BAR` word 3. -/
def execBarrierCommit (b : Fin 64) (v : Word) (s : State) : Out := .next (bar0Write false (R.gngBar3 b) v.toNat s).1
/-- HISTOGRAM_SNAP: `SWQ_HCTL.SNAP` = 1, SPER as it stands. -/
def execHistogramSnap (s : State) : Out := .next (bar0Write false R.swqHctl (setBits (rd s R.swqHctl) 31 31 1) s).1
/-- PORT_ENABLE_WRITE: a write of `PRT_CTL`. -/
def execPortEnableWrite (p : Port) (v : Word) (s : State) : Out := .next (bar0Write false (R.prtCtl p) v.toNat s).1
/-- PORT_RETRAIN: `PRT_CTL.RETRAIN` = 1, the other fields as they stand. -/
def execPortRetrain (p : Port) (s : State) : Out :=
  .next (bar0Write false (R.prtCtl p) (setBits (rd s (R.prtCtl p)) 0 0 1) s).1
/-- PORT_WIDTH_REQUEST: a write of `PRT_CTL.WREQ`, EN as it stands. -/
def execPortWidthRequest (p : Port) (w : BitVec 2) (s : State) : Out :=
  .next (bar0Write false (R.prtCtl p) (setBits (rd s (R.prtCtl p)) 9 8 w.toNat) s).1
/-- PORT_UNRETIRE: a write of 1 to `PRT_STAT.RETIRED`. -/
def execPortUnretire (p : Port) (s : State) : Out := .next (bar0Write false (R.prtStat p) 0x2000000 s).1
/-- JOB_LEVEL_WRITE: a write of a word of the job-level table. -/
def execJobLevelWrite (j : Fin 512) (v : Word) (s : State) : Out := .next (bar0Write false (R.prtJlvl j) v.toNat s).1
/-- LAMP_ENTER: `PWR_CTL.LAMP` = 1, AUTODOZE as it stands. -/
def execLampEnter (s : State) : Out := .next (bar0Write false R.pwrCtl (setBits (rd s R.pwrCtl) 0 0 1) s).1
/-- LAMP_WAKE: `PWR_CTL.WAKE` = 1, AUTODOZE as it stands. -/
def execLampWake (s : State) : Out := .next (bar0Write false R.pwrCtl (setBits (rd s R.pwrCtl) 1 1 1) s).1
/-- MAINTENANCE_REQUEST: a write of `PWR_MREQ` with GO = 1. -/
def execMaintenanceRequest (v : Word) (s : State) : Out :=
  .next (bar0Write false R.pwrMreq (setBits v.toNat 31 31 1) s).1

end Sys2Proof.Machine
end

