-- ==== Sys2Proof/Machine/HostIf.lean ====
section
/-! DEFINITION. Sys2Proof/Machine/HostIf.lean: the doorbell poller, rings, host descriptors, completion records and MSI-X
(14_host.md R509 to R537; 10_memory_ops.md R381 to R389; 08_circuits_delivery.md R663). -/

namespace Sys2Proof.Machine

/-! ### Errors, turns and reads (R511, R516, R520) -/

/-- An error is reported through AER against a function. -/
def reportAer (s : State) (fn : Nat) : State :=
  emit { s with host := { s.host with aer := SMap.setD s.host.aer fn 0 (SMap.getD s.host.aer fn 0 + 1) } } (.aer fn)

/-- The poller may issue a read, at most one every 18 ns (R520). -/
def mayRead (s : State) : Bool := decide (s.host.readAt ≤ s.time.lamp)
/-- The poller has issued a read. -/
def hasRead (s : State) : State := { s with host := { s.host with readAt := s.time.lamp + 18 } }

/-! ### The doorbell page and ring entries (Tables HST-5, HST-6) -/

/-- The host address of a function's doorbell page. -/
def pageOf (s : State) (fn : Nat) : Nat := rd64 s (R.vfDb fn) / 4096 * 4096
/-- EN of a ring entry. -/
def enEN (e : List Byte) : Bool := bit (byteAt e 16) 7
/-- SQBASE. -/
def enSq (e : List Byte) : Nat := leAt e 0 8
/-- CQBASE. -/
def enCq (e : List Byte) : Nat := leAt e 8 8
/-- SQLOG. -/
def enSqLog (e : List Byte) : Nat := byteAt e 16 % 32
/-- CQLOG. -/
def enCqLog (e : List Byte) : Nat := byteAt e 17 % 32
/-- VEC. -/
def enVec (e : List Byte) : Nat := byteAt e 18
/-- MCNT. -/
def enMcnt (e : List Byte) : Nat := byteAt e 19
/-- MTIME. -/
def enMtime (e : List Byte) : Nat := byteAt e 20

/-- Does a ring entry break Table HST-6? One with EN = 0 is bound only in its reserved bits. -/
def entryBad (fn : Nat) (e : List Byte) : Bool :=
  leAt e 21 11 != 0 || bits (byteAt e 16) 6 5 != 0 || bits (byteAt e 17) 7 5 != 0 ||
  (enEN e &&
    (enSq e % 4096 != 0 || enCq e % 4096 != 0 || !between 6 16 (enSqLog e) || !between 6 16 (enCqLog e) ||
     ((if fn = 0 then decide (63 < enVec e) else decide (7 < enVec e)) && enVec e != 0xFF) || enMcnt e == 0))

/-- A ring of a function. -/
def ringOf (s : State) (fn r : Nat) : Option Ring := SMap.find (fnSt s fn).rings r
/-- The state with a ring of a function. -/
def setRing (s : State) (fn r : Nat) (x : Ring) : State :=
  setFn s fn { fnSt s fn with rings := SMap.put (fnSt s fn).rings r x }
/-- The descriptors of a ring fetched and not completed (R524). -/
def ringDescs (s : State) (fn r : Nat) : List HostDesc := s.host.descs.filter fun h => h.fn == fn && h.ring == r
/-- Is a ring stopped? -/
def ringStopped (s : State) (fn r : Nat) : Bool := (ringOf s fn r).any (·.stopped)

/-! ### Polls (R518 to R523) -/

/-- The rings. -/
def rings8 : List Nat := List.range 8
/-- Ring entry r of the 256 bytes at 0x080 of the page. -/
def entryAt (bs : List Byte) (r : Nat) : List Byte := (bs.drop (32 * r)).take 32

/-- The status of a new configuration (R521). -/
def configStatus (s : State) (fn : Nat) (entries : List Byte) (changed : List Nat) : Nat :=
  if changed.any fun r => !(ringDescs s fn r).isEmpty then 2
  else if rings8.any fun r => entryBad fn (entryAt entries r) then 4
  else 0

/-- A ring takes a changed entry and restarts (R521): its status byte is written where it is enabled. -/
def restartRing (entries : List Byte) (fn : Nat) (s : State) (r : Nat) : State :=
  let e := entryAt entries r
  if enEN e then hostWrite (setRing s fn r ⟨e, 0, 0, 0, 0, false⟩) fn (pageOf s fn + 0x228 + r) (zeros 1)
  else setFn s fn { fnSt s fn with rings := SMap.erase (fnSt s fn).rings r }

/-- A new GEN (R521): the entries are taken or refused; GSTAT is written, then GACK. -/
def takeConfig (s : State) (fn gen : Nat) (entries : List Byte) : State :=
  let old := (fnSt s fn).entries
  let changed := rings8.filter fun r => entryAt entries r != old.getD r (zeros 32) || ringStopped s fn r
  let st := configStatus s fn entries changed
  let s := if st = 0 then
      setFn (changed.foldl (restartRing entries fn) s) fn
        { fnSt (changed.foldl (restartRing entries fn) s) fn with entries := rings8.map (entryAt entries) }
    else s
  hostWrite (hostWrite s fn (pageOf s fn + 0x204) (leBytes 4 st)) fn (pageOf s fn + 0x200) (leBytes 4 gen)

/-- A ring sees its tail; a tail too far ahead stops it with RANGE (R523). -/
def seeTail (page : List Byte) (fn : Nat) (s : State) (r : Nat) : State :=
  match ringOf s fn r with
  | none => s
  | some x =>
    let t := leAt page (4 + 4 * r) 4
    if !x.stopped ∧ 2 ^ enSqLog x.entry < (t + 2 ^ 32 - x.sqh) % 2 ^ 32 then
      hostWrite (setRing s fn r { x with sqt := t, stopped := true }) fn (pageOf s fn + 0x228 + r) (leBytes 1 4)
    else setRing s fn r { x with sqt := t }

/-- Is a function's poll due, and no other enabled function's before it (R520)? -/
def pollDue (s : State) (fn : Nat) : Bool :=
  fnState s fn == 1 && mayRead s && decide ((fnSt s fn).due ≤ s.time.lamp) &&
  s.host.fns.all fun o => fnState s o.1 != 1 ||
    decide ((fnSt s fn).due < o.2.due) || (o.2.due == (fnSt s fn).due && decide (fn ≤ o.1))

/-- The poll interval after a poll that is no hit, in ns (R519): doubled up to 64 microseconds, and 64 microseconds in the lamp
state (16 R583). -/
def nextInterval (s : State) (fn : Nat) : Nat :=
  if s.power.lamp = 0 then min 64000 (2 * (fnSt s fn).interval) else 64000

/-- DOORBELL_POLL (R518 to R523): the 64 bytes at 0x000 of the page, and the 256 bytes at 0x080 that a new GEN reads. -/
def doorbellPoll (fn : Nat) (page entries : List Byte) (s : State) : State :=
  if !pollDue s fn then s
  else
    let x := fnSt s fn
    let gen := leAt page 0 4
    let sqts := rings8.map fun r => leAt page (4 + 4 * r) 4
    let hit := x.gen != some gen || x.sqts != sqts
    let s := bump (hasRead s) R.hstCntPoll 1
    let s := if hit then bump s R.hstCntHit 1 else s
    let s := if x.gen = some gen then s else takeConfig s fn gen entries
    let s := rings8.foldl (seeTail page fn) s
    let iv := if hit then 500 else nextInterval s fn
    let s := setFn s fn { fnSt s fn with gen := some gen, sqts := sqts, interval := iv, due := s.time.lamp + iv }
    if hit then lampWake (wakeFn s fn) else s

/-! ### Fetches (R522, R524) -/

/-- The free records of a ring's completion ring. -/
def cqRoom (s : State) (fn r : Nat) (x : Ring) : Nat :=
  2 ^ enCqLog x.entry - (x.done + 2 ^ 32 - x.head) % 2 ^ 32 - (ringDescs s fn r).length

/-- How many descriptors one read may fetch, of n supplied. -/
def fetchable (s : State) (fn r : Nat) (x : Ring) (n : Nat) : Nat :=
  if x.stopped then 0
  else
    let size := 2 ^ enSqLog x.entry
    min (min n 64) (min (min ((x.sqt + 2 ^ 32 - x.sqh) % 2 ^ 32) (cqRoom s fn r x)) (size - x.sqh % size))

/-- The n descriptors of a read, from an index. -/
def newDescs (fn r : Nat) : Nat → Nat → List Byte → List HostDesc
  | 0, _, _ => []
  | n + 1, i, bs => ⟨fn, r, i % 2 ^ 32, bs.take 64, .fetched, [], 0, 0, [], 0⟩ :: newDescs fn r n (i + 1) (bs.drop 64)

/-- May the head of a ring be read: only where it has descriptors to fetch and no free record (R520, R524)? -/
def headDue (s : State) (fn r : Nat) (x : Ring) : Bool :=
  x.sqt != x.sqh && !x.stopped && cqRoom s fn r x == 0 && mayRead s

/-- The head of a completion ring, read where it is due. -/
def readHead (s : State) (fn r cqh : Nat) : State :=
  match ringOf s fn r with
  | none => s
  | some x => if headDue s fn r x then setRing (hasRead s) fn r { x with head := cqh } else s

/-- The target of an HCOPY. -/
def copyTarget (fn : Nat) (b : List Byte) : Target :=
  let dev := leAt b 24 8
  if space dev = 2 then ⟨0, true, bits dev 40 0, bits dev 40 0 / stackSize, [], fn⟩
  else ⟨0, false, dev % 2 ^ 32, byteAt b 17, [bits dev 39 32], fn⟩

/-- Does an HCOPY wait for its cluster to leave doze? -/
def copyAsleep (s : State) (h : HostDesc) : Bool :=
  let t := copyTarget h.fn h.bytes
  !t.deep && dozing s (160 * t.die + t.clus.headD 0)

/-- Does a function wait for the host interface to fetch descriptors or to move copy data (R516)? -/
def wantsHost (s : State) (fn : Nat) : Bool :=
  (fnState s fn == 1 && rings8.any fun r => (ringOf s fn r).any fun x => decide (0 < fetchable s fn r x 64)) ||
  s.host.descs.any fun h => h.fn == fn && byteAt h.bytes 0 == 2 && h.phase == .working && !copyAsleep s h

/-- How many functions stand before a function in turn: those after the one served last come first. -/
def turnRank (s : State) (fn : Nat) : Nat := (fn + 512 - s.host.turn) % 513

/-- Is it a function's turn: no function before it wants the host interface (R516)? -/
def hostTurn (s : State) (fn : Nat) : Bool :=
  s.host.fns.all fun o => !(decide (turnRank s o.1 < turnRank s fn) && wantsHost s o.1)

/-- A function has had its turn. -/
def served (s : State) (fn : Nat) : State := { s with host := { s.host with turn := fn } }

/-- DESCRIPTOR_FETCH (R516, R524): in the function's turn, the descriptors at SQH, as far as CQ has room; SQH is written.
`cqh` is the head read where no record is free. -/
def descriptorFetch (fn r cqh : Nat) (data : List Byte) (s : State) : State :=
  if fnState s fn ≠ 1 then s
  else
    let s := readHead s fn r cqh
    match ringOf s fn r with
    | none => s
    | some x =>
      let n := fetchable s fn r x (data.length / 64)
      if n = 0 ∨ !hostTurn s fn then s
      else
        let h := (x.sqh + n) % 2 ^ 32
        let s := setRing (served s fn) fn r { x with sqh := h }
        let s := { s with host := { s.host with descs := s.host.descs ++ newDescs fn r n x.sqh data } }
        hostWrite s fn (pageOf s fn + 0x208 + 4 * r) (leBytes 4 h)

/-! ### Descriptors: what row a descriptor is, and the checks of R526 -/

/-- The rows of Table HST-8 by OP and ACT: each descriptor belongs to one. An OP not listed stands with NOP, an ACT not
listed with ACT 0; both are refused. -/
inductive HRow where
  | nop | launch | hcopy | rread | ratomic | msend | fctlEnable | fctlDisable | fctlReset | fbind | clownAssign
  | clownRelease | granAssign | granRelease | setreg | tblwr | tblrd | winLoad | winRemove | winRead | winClear
  | cirOpen | cirClose
deriving DecidableEq, Repr

/-- The row of a descriptor. -/
def rowOf (b : List Byte) : HRow :=
  let act := byteAt b 18
  match byteAt b 0 with
  | 0x01 => .launch | 0x02 => .hcopy | 0x03 => .rread | 0x04 => .ratomic | 0x05 => .msend
  | 0x20 => if act = 1 then .fctlDisable else if act = 2 then .fctlReset else .fctlEnable
  | 0x21 => .fbind
  | 0x22 => if byteAt b 19 = 1 then .clownAssign else .clownRelease
  | 0x23 => if act = 1 then .granAssign else .granRelease
  | 0x24 => .setreg | 0x25 => .tblwr | 0x26 => .tblrd
  | 0x27 => if act = 1 then .winRemove else if act = 2 then .winRead else if act = 3 then .winClear else .winLoad
  | 0x28 => if act = 1 then .cirClose else .cirOpen
  | _ => .nop

/-- The body bytes that an OP names, as (offset, length); none where the OP is not listed. -/
def bodyFields : Nat → Option (List (Nat × Nat))
  | 0x00 => some []
  | 0x01 => some [(16, 2), (20, 12)]
  | 0x02 => some [(16, 24)]
  | 0x03 => some [(16, 18)]
  | 0x04 => some [(16, 17), (40, 24)]
  | 0x05 => some [(16, 11), (28, 2), (32, 4), (40, 8)]
  | 0x20 => some [(16, 3)]
  | 0x21 => some [(16, 48)]
  | 0x22 => some [(16, 6)]
  | 0x23 => some [(16, 3), (20, 2)]
  | 0x24 => some [(16, 12)]
  | 0x25 => some [(16, 2), (20, 8), (32, 8)]
  | 0x26 => some [(16, 2), (20, 8), (32, 8)]
  | 0x27 => some [(16, 3), (24, 40)]
  | 0x28 => some [(16, 3)]
  | _ => none

/-- The largest ACT of an OP that has one, and the byte that holds it. -/
def actMax : Nat → Option (Nat × Nat)
  | 0x20 => some (18, 2) | 0x22 => some (19, 1) | 0x23 => some (18, 1) | 0x27 => some (18, 3) | 0x28 => some (18, 1)
  | _ => none

/-- The checks of R526 that hold for every OP: RANGE or DENIED, or 0. A function's PF-only descriptor is DENIED first. -/
def headCheck (fn : Nat) (b : List Byte) : Nat :=
  let op := byteAt b 0
  match bodyFields op with
  | none => 4
  | some fs =>
    if 0x20 ≤ op ∧ fn ≠ 0 then 6
    else if 4 ≤ byteAt b 1 ∨ !zeroAt b 2 2 ∨ !zeroAt b 12 4 ∨
        ((upto 16 48).any fun i => byteAt b i != 0 && !(fs.any fun f => decide (f.1 ≤ i) && decide (i < f.1 + f.2))) ∨
        (op = 4 ∧ bits (byteAt b 32) 7 6 ≠ 0) ∨ (actMax op).any (fun a => decide (a.2 < byteAt b a.1)) then 4
    else 0

/-! ### Descriptors: start and end (R526, R527) -/

/-- Does a descriptor bear a name? -/
def isDesc (r : DescRef) (h : HostDesc) : Bool := h.fn == r.fn.val && h.ring == r.ring.val && h.idx == r.idx.toNat
/-- The descriptor of a name. -/
def descOf (s : State) (r : DescRef) : Option HostDesc := s.host.descs.find? (isDesc r)
/-- The state with a descriptor changed. -/
def updDesc (s : State) (r : DescRef) (f : HostDesc → HostDesc) : State :=
  { s with host := { s.host with descs := s.host.descs.map fun h => if isDesc r h then f h else h } }
/-- A descriptor ends with a status. -/
def endDesc (s : State) (r : DescRef) (st : Nat) : State := updDesc s r fun h => { h with phase := .ended st }
/-- A descriptor works on. -/
def workDesc (s : State) (r : DescRef) : State := updDesc s r fun h => { h with phase := .working }
/-- Is a descriptor fetched and not started? A TBLWR that a removal let go on has started. -/
def unstarted (h : HostDesc) : Bool := h.phase == .fetched && h.result == 0

/-- May a descriptor start: in ring order, and with FENCE after every earlier one has completed (R527)? -/
def mayStart (s : State) (h : HostDesc) : Bool :=
  let earlier := ((ringDescs s h.fn h.ring).takeWhile fun g => g.idx != h.idx)
  h.phase == .fetched && !(earlier.any unstarted) && (!bit (byteAt h.bytes 1) 1 || earlier.isEmpty)

/-- A descriptor of a row starts: one that R526 refuses ends with its status and changes nothing else. -/
def startDesc (row : HRow) (r : DescRef) (body : HostDesc → State → State) (s : State) : State :=
  match descOf s r with
  | none => s
  | some h =>
    if rowOf h.bytes ≠ row ∨ !mayStart s h then s
    else
      let st := headCheck h.fn h.bytes
      if st ≠ 0 then endDesc s r st else body h s

/-! ### LAUNCH (R528) -/

/-- The cores that CMASK names. -/
def maskCores (m : Nat) : List Nat := (List.range 64).filter (bit m)

/-- Does a core's queue of a function hold eight lists, the running one among them (04 R140)? -/
def queueFull (s : State) (core fn : Nat) : Bool :=
  let q := seqOf s core fn
  decide (8 ≤ q.queue.length + b2n q.run.isSome)

/-- One core's list is launched. -/
def launchOn (r : DescRef) (fn g addr : Nat) (s : State) (c : Nat) : State :=
  let n := newId s
  let core := 64 * g + c
  let q := seqOf n.2 core fn
  let l : Launch := ⟨n.1, fn, addr, (r.fn.val, r.ring.val, r.idx.toNat), nowNs s⟩
  let s := setSeq n.2 core fn { q with queue := q.queue ++ [l] }
  updDesc s r fun h => { h with lists := h.lists ++ [⟨core, n.1, none, 0xFFFF, FpFlags.none⟩] }

/-- The checks of a LAUNCH, in order. -/
def launchCheck (s : State) (fn : Nat) (b : List Byte) : Nat :=
  let g := 160 * byteAt b 16 + byteAt b 17
  let a := leAt b 20 4
  if 7 < byteAt b 16 ∨ 160 ≤ byteAt b 17 ∨ a % 64 ≠ 0 ∨ (localAt none a 64).isNone then 4
  else if !holds s g fn then 6
  else if fenced s g then 9
  else if (maskCores (leAt b 24 8)).any fun c => queueFull s (64 * g + c) fn then 2
  else 0

/-- LAUNCH: the list is launched on each named core, and the cluster wakes; with no core named it ends with OK. -/
def launchBody (r : DescRef) (h : HostDesc) (s : State) : State :=
  let st := launchCheck s h.fn h.bytes
  let cores := maskCores (leAt h.bytes 24 8)
  let g := 160 * byteAt h.bytes 16 + byteAt h.bytes 17
  if st ≠ 0 ∨ cores = [] then endDesc s r st
  else wakeIsl (cores.foldl (launchOn r h.fn g (leAt h.bytes 20 4)) (workDesc s r)) g

/-! ### HCOPY (R529) -/

/-- The checks of an HCOPY. -/
def copyCheck (s : State) (fn : Nat) (b : List Byte) : Nat :=
  let len := leAt b 20 4
  let t := leAt b 18 2
  if 1 < byteAt b 16 ∨ 7 < byteAt b 17 ∨ len % 16 ≠ 0 ∨ len < 16 then 4
  else
    let st := checkOp s (10240 * byteAt b 17) fn (leAt b 24 8) [1, 2] [(0, len)]
    if st ≠ 0 then st
    else if t ≠ 0xFFFF ∧ (tallyRange s fn (byteAt b 17)).2 ≤ t then 4 else 0

/-- Bytes written at a target for its function: to deep store, the live stores, or the saved image (01 R46). Answers whether a
line in error was met. -/
def storeTarget (s : State) (t : Target) (bs : List Byte) : State × Bool :=
  if t.deep then (writeDeep s t.addr bs, false)
  else
    let g := 160 * t.die + t.clus.headD 0
    putPlace s g t.fn t.addr bs

/-- The bytes of an HCOPY that its next turn moves: at most 4 KiB (R516). -/
def turnBytes (h : HostDesc) : Nat := min 4096 (leAt h.bytes 20 4 - h.moved)
/-- The target of an HCOPY's next turn. -/
def turnTarget (h : HostDesc) : Target :=
  let t := copyTarget h.fn h.bytes
  { t with addr := t.addr + h.moved }
/-- Does an HCOPY's next turn move its last byte? -/
def lastTurn (h : HostDesc) : Bool := decide (leAt h.bytes 20 4 ≤ h.moved + turnBytes h)

/-- A turn of an HCOPY has moved its bytes: it ends with OK after the last. -/
def copyMoved (r : DescRef) (h : HostDesc) (s : State) : State :=
  if lastTurn h then endDesc s r 0 else updDesc s r fun g => { g with moved := h.moved + turnBytes h }

/-- A turn of an HCOPY to the device: the bytes read are stored, and the tally counts after the last; a line in error stops
it with FAULT. -/
def copyIn (r : DescRef) (h : HostDesc) (data : List Byte) (s : State) : State :=
  let b := h.bytes
  let p := storeTarget s (turnTarget h) data
  if p.2 then endDesc p.1 r 9
  else
    let t := leAt b 18 2
    copyMoved r h (if t = 0xFFFF ∨ !lastTurn h then p.1 else tallyAdd p.1 h.fn (byteAt b 17) t 1)

/-- A turn of an HCOPY to the host: an uncorrectable error met ends it with FAULT. -/
def copyOut (r : DescRef) (h : HostDesc) (s : State) : State :=
  let p := readTarget s (turnTarget h) (turnBytes h)
  if p.2.2 then endDesc p.1 r 9
  else copyMoved r h (hostWrite p.1 h.fn (leAt h.bytes 32 8 + h.moved) p.2.1)

/-- An HCOPY that has started moves its next bytes in its function's turn; a dozing cluster is woken first, and the bytes of a
copy to the device come with the command. -/
def copyTurn (r : DescRef) (data : List Byte) (h : HostDesc) (s : State) : State :=
  let t := copyTarget h.fn h.bytes
  if copyAsleep s h then wakeIsl s (160 * t.die + t.clus.headD 0)
  else if !hostTurn s h.fn then s
  else if byteAt h.bytes 16 = 1 then copyOut r h (served s h.fn)
  else if data.length ≠ turnBytes h then s
  else copyIn r h data (served s h.fn)

/-- HCOPY: it starts, refused or working, and moves its first bytes where it is its turn. -/
def hcopyBody (r : DescRef) (data : List Byte) (h : HostDesc) (s : State) : State :=
  let st := copyCheck s h.fn h.bytes
  if st ≠ 0 then endDesc s r st else copyTurn r data { h with phase := .working } (workDesc s r)

/-- HCOPY: a copy that has started goes on; any other starts. -/
def hcopy (r : DescRef) (data : List Byte) (s : State) : State :=
  match descOf s r with
  | none => s
  | some h =>
    if h.phase = .working ∧ rowOf h.bytes = .hcopy then copyTurn r data h s else startDesc .hcopy r (hcopyBody r data) s

/-! ### RREAD, RATOMIC and MSEND (R530, R531) -/

/-- The lowest RTAG that is free (10 R399). -/
def freeTag (s : State) : Option Nat := (List.range 4096).find? fun t => (SMap.find s.rem.requests t).isNone

/-- A READ or ATOMIC frame of a descriptor leaves with a free RTAG; with none free it waits. -/
def sendRequest (r : DescRef) (h : HostDesc) (typ tsw : Nat) (more : List Byte) (s : State) : State :=
  match freeTag s with
  | none => s
  | some tag =>
    let b := h.bytes
    let pl := leBytes 6 (leAt b 26 6) ++ leBytes 2 (leAt b 18 2) ++ zeros 8 ++ more
    let q : Request := ⟨h.fn, h.ring, h.idx, leAt b 16 2, fnEp s h.fn, fnJob s h.fn, none⟩
    let s := workDesc { s with rem := { s.rem with requests := SMap.put s.rem.requests tag q } } r
    sendFrame s (.host h.fn h.ring h.idx) { Frame.blank with
      typ := typ, cls := 1, dst := leAt b 16 2, src := fnEp s h.fn, job := fnJob s h.fn, cid := tag,
      len := pl.length / 16, offset := leAt b 20 6, tsw := tsw, payload := pl }

/-- RREAD. -/
def rreadBody (r : DescRef) (h : HostDesc) (s : State) : State :=
  let n := leAt h.bytes 32 2
  if !between 1 256 n then endDesc s r 4 else sendRequest r h 1 n [] s

/-- RATOMIC: line 1 is the operand, line 2 the compare value of a compare-swap. -/
def ratomicBody (r : DescRef) (h : HostDesc) (s : State) : State :=
  let c := byteAt h.bytes 32
  let line2 := if c % 16 = 2 then leBytes 8 (leAt h.bytes 56 8) ++ zeros 8 else []
  sendRequest r h 3 c ((h.bytes.drop 40).take 16 ++ line2) s

/-- One MILL frame of an MSEND. -/
def sendMill (h : HostDesc) (s : State) (p : Nat × List Byte) : State :=
  let b := h.bytes
  sendFrame s (.host h.fn h.ring h.idx) { Frame.blank with
    typ := 5, cls := 1, dst := leAt b 16 2, src := fnEp s h.fn, job := fnJob s h.fn, len := p.2.length / 16,
    offset := p.1 % 2 ^ 48, tally := leAt b 18 2, tsw := leAt b 28 2 + 4096 * byteAt b 26, payload := p.2 }

/-- MSEND: the bytes come with the command and are cut at every 4,096-byte boundary of OFFSET. -/
def msendBody (r : DescRef) (data : List Byte) (h : HostDesc) (s : State) : State :=
  let b := h.bytes
  let len := leAt b 32 4
  if len = 0 ∨ len % 16 ≠ 0 ∨ 4095 < leAt b 28 2 then endDesc s r 4
  else if data.length ≠ len then s
  else (cutRun (leAt b 20 6) data (data.length / 4096 + 2)).foldl (sendMill h) (workDesc s r)

/-! ### Function control (R533, R542) -/

/-- FN of an FCTL is one that it may name. -/
def fctlOk (b : List Byte) : Bool := between 1 512 (leAt b 16 2)

/-- FCTL enable. -/
def fctlEnableBody (r : DescRef) (h : HostDesc) (s : State) : State :=
  if !fctlOk h.bytes then endDesc s r 4
  else
    let e := enableFn s (leAt h.bytes 16 2)
    endDesc e.1 r e.2

/-- FCTL disable and reset: it ends with OK once the function is DISABLED. -/
def fctlStopBody (r : DescRef) (h : HostDesc) (s : State) : State :=
  let fn := leAt h.bytes 16 2
  if !fctlOk h.bytes then endDesc s r 4
  else if fnState s fn = 0 then endDesc s r 0
  else workDesc (disableFn s fn) r

/-- The tally range of a die in an FBIND: base and count. -/
def bindTally (b : List Byte) (d : Nat) : Nat × Nat := (leAt b (24 + 4 * d) 2, leAt b (26 + 4 * d) 2)
/-- The dies. -/
def dies8 : List Nat := List.range 8

/-- The checks of an FBIND (R512, R533). -/
def bindCheck (s : State) (b : List Byte) : Nat :=
  let fn := leAt b 16 2
  if 512 < fn ∨ s.host.numVfs < fn then 4
  else if fnState s fn ≠ 0 then 2
  else if 4096 ≤ leAt b 18 2 ∨ bits (leAt b 22 2) 14 12 ≠ 0 ∨ leAt b 56 8 % 4096 ≠ 0 ∨
      dies8.any (fun d => decide (16384 ≤ (bindTally b d).1) || decide (16384 < (bindTally b d).1 + (bindTally b d).2)) then 4
  else if dies8.any fun d => tallyOverlaps s fn d (bindTally b d).1 (bindTally b d).2 then 3
  else 0

/-- FBIND: job, endpoint, drain group, doorbell and tally ranges. -/
def fbindBody (r : DescRef) (h : HostDesc) (s : State) : State :=
  let b := h.bytes
  let fn := leAt b 16 2
  let st := bindCheck s b
  if st ≠ 0 then endDesc s r st
  else
    let g := leAt b 22 2
    let s := wr64 s (R.vfBind fn) (leAt b 18 2 + 2 ^ 15 + 2 ^ 16 * leAt b 20 2 + 2 ^ 32 * (g % 4096) + 2 ^ 44 * (g / 2 ^ 15))
    let s := wr64 s (R.vfDb fn) (leAt b 56 8 + 1)
    let s := dies8.foldl (fun s d => wr s (R.vfTally fn d) ((bindTally b d).1 + 2 ^ 16 * (bindTally b d).2)) s
    endDesc s r 0

/-! ### Ownership (R532) -/

/-- CLOWN: the word with one slot assigned or released is checked and taken (04 R189); the cluster wakes (16 R585). -/
def clownBody (on : Bool) (r : DescRef) (h : HostDesc) (s : State) : State :=
  let b := h.bytes
  let g := 160 * byteAt b 16 + byteAt b 17
  let sl := byteAt b 18
  let fn := leAt b 20 2
  if 7 < byteAt b 16 ∨ 160 ≤ byteAt b 17 ∨ 3 < sl ∨ (on ∧ 512 < fn) then endDesc s r 4
  else
    let old := clown s g
    let new := if on then setBits (setBits old (fnLo sl + 9) (fnLo sl) fn) (48 + sl) (48 + sl) 1
      else setBits old (48 + sl) (48 + sl) 0
    let st := clownCheck s g new
    if st ≠ 0 then endDesc s r st else endDesc (wakeIsl (takeOwner s g new) g) r 0

/-- GRAN (06 R231): a release names the owner of a VALID granule. -/
def granBody (on : Bool) (r : DescRef) (h : HostDesc) (s : State) : State :=
  let b := h.bytes
  let gr := leAt b 16 2
  let fn := leAt b 20 2
  if 6144 ≤ gr ∨ (!on ∧ !(flag s (R.dstOwn gr) 31 && getF s (R.dstOwn gr) 9 0 == fn)) then endDesc s r 4
  else
    let st := granuleCheck s gr fn on
    if st ≠ 0 then endDesc s r st
    else endDesc (setF (setF s (R.dstOwn gr) 31 31 (b2n on)) (R.dstOwn gr) 9 0 fn) r 0

/-! ### SETREG, TBLWR, TBLRD (R532) -/

/-- The RW and RW-L bits of word w of a register. -/
def keepMask (x : RegRow) (w : Nat) : Nat :=
  x.fields.foldl (fun m f => match FieldRow.inWord f w with
    | none => m
    | some (hi, lo, _) => if f.acc = .rw ∨ f.acc = .rwl then setBits m hi lo (2 ^ 32 - 1) else m) 0

/-- SETREG: a masked write with the register's own rules, which the lock does not stop. -/
def setregBody (r : DescRef) (h : HostDesc) (s : State) : State :=
  let b := h.bytes
  let off := leAt b 16 4
  let v := leAt b 20 4
  let m := leAt b 24 4
  if off % 4 ≠ 0 ∨ (R.vfCtl 0 ≤ off ∧ off < R.vfCtl 513) then endDesc s r 4
  else match regAt off with
    | none => endDesc s r 4
    | some (x, w) =>
      let old := rd s off &&& keepMask x w
      let p := bar0Write true off ((old &&& (m ^^^ 0xFFFFFFFF)) ||| (v &&& m)) s
      endDesc p.1 r p.2

/-- Does a TBLWR entry remove a valid stream (11 R419)? -/
def removesStream (s : State) (tid idx : Nat) (e : List Byte) : Bool :=
  tid == 9 && tblSel tid 0 idx && !bit (leAt e 0 2) 12 && (streamOf s (idx / 256) (idx % 256)).valid

/-- The entries of a TBLWR from the k-th on, n of them: it stops at the first refusal, with RESULT, and waits where a stream
is removed. -/
def writeEntries (r : DescRef) (h : HostDesc) (data : List Byte) : Nat → Nat → State → State
  | 0, k, s => endDesc (updDesc s r fun h => { h with result := k }) r 0
  | n + 1, k, s =>
    let b := h.bytes
    let tid := byteAt b 16
    let idx := leAt b 20 4 + k
    let e := (data.drop (k * tblSize tid)).take (tblSize tid)
    let waits := removesStream s tid idx e
    let p := tblWrite s tid (byteAt b 17) idx e (some (h.fn, h.ring, h.idx))
    if p.2 ≠ 0 then endDesc (updDesc p.1 r fun h => { h with result := k }) r p.2
    else if waits then workDesc (updDesc p.1 r fun h => { h with result := k }) r
    else writeEntries r h data n (k + 1) p.1

/-- TBLWR: the entries come with the command; after the removal of a stream it goes on with the next entry. -/
def tblwrBody (r : DescRef) (data : List Byte) (h : HostDesc) (s : State) : State :=
  let n := leAt h.bytes 24 4
  let tid := byteAt h.bytes 16
  if tblSize tid = 0 ∨ !between 1 4096 n then endDesc s r 4
  else if data.length ≠ n * tblSize tid then s
  else writeEntries r h data (n - h.result) h.result s

/-- The entries read from the k-th on, and the status that stopped it. -/
def readEntries (s : State) (tid bank idx : Nat) : Nat → List (List Byte) × Nat
  | 0 => ([], 0)
  | n + 1 =>
    match tblRead s tid bank idx with
    | none => ([], 4)
    | some e =>
      let p := readEntries s tid bank (idx + 1) n
      (e :: p.1, p.2)

/-- TBLRD: the entries read are written to the host; RESULT is their number. -/
def tblrdBody (r : DescRef) (h : HostDesc) (s : State) : State :=
  let b := h.bytes
  let n := leAt b 24 4
  if tblSize (byteAt b 16) = 0 ∨ !between 1 4096 n then endDesc s r 4
  else
    let p := readEntries s (byteAt b 16) (byteAt b 17) (leAt b 20 4) n
    let s := if p.1 = [] then s else hostWrite s h.fn (leAt b 32 8) p.1.flatten
    endDesc (updDesc s r fun h => { h with result := p.1.length }) r p.2

/-! ### WIN (10 R381 to R389) -/

/-- A window from its 32 bytes (Table MEM-1). -/
def parseWindow (w : List Byte) : Window :=
  { obase := leAt w 0 6, job := bits (leAt w 6 2) 11 0, mcg := bit (leAt w 6 2) 12, len := leAt w 8 6,
    fn := bits (leAt w 14 2) 9 0, taddr := leAt w 16 6, die := bits (byteAt w 22) 2 0, deep := bit (byteAt w 22) 3,
    clidx := byteAt w 23, ep := leAt w 24 2, slo := leAt w 26 2, shi := leAt w 28 2, perm := bits (byteAt w 30) 2 0 }

/-- Does a window's target lie wholly in one region of a cluster, or in the general area of one stack (R383)? -/
def targetOk (s : State) (w : Window) : Bool :=
  if w.deep then
    decide (w.taddr + w.len ≤ deepSize) && w.taddr / stackSize == (w.taddr + w.len - 1) / stackSize &&
    inGeneral s (w.taddr / 0x10000000) && inGeneral s ((w.taddr + w.len - 1) / 0x10000000)
  else decide (w.taddr < 2 ^ 32) && (localAt none w.taddr w.len).isSome

/-- Does a window's load break a rule of RANGE (R385, R386)? -/
def windowBad (s : State) (b : List Byte) : Bool :=
  let w := parseWindow b
  bits (leAt b 6 2) 15 14 != 0 || bits (leAt b 14 2) 15 10 != 0 || byteAt b 22 / 16 != 0 || byteAt b 30 / 8 != 0 ||
  byteAt b 31 != 0 || !bit (leAt b 6 2) 13 || w.obase % 256 != 0 || w.len % 256 != 0 || w.len == 0 ||
  w.taddr % 256 != 0 || decide (2 ^ 48 < w.obase + w.len) || decide (512 < w.fn) || decide (159 < w.clidx) ||
  decide (w.shi < w.slo) || (w.mcg && w.deep) || !targetOk s w

/-- Do two windows of one JOB, MCG and EP overlap? -/
def windowsMeet (w x : Window) : Bool :=
  x.job == w.job && x.mcg == w.mcg && x.ep == w.ep && decide (x.obase < w.obase + w.len) && decide (w.obase < x.obase + x.len)

/-- The checks of a window load, in the order of R385. -/
def windowCheck (s : State) (idx : Nat) (b : List Byte) : Nat :=
  let w := parseWindow b
  if windowBad s b then 4
  else if (SMap.find s.rem.windows idx).isSome then 2
  else if s.rem.windows.any fun e => windowsMeet w e.2 then 3
  else if w.deep && !ownsDeep s w.fn w.taddr w.len then 6
  else if !w.deep && !w.mcg && !holds s (160 * w.die + w.clidx) w.fn then 6
  else 0

/-- WIN of ACT 0: a load. -/
def winLoadBody (r : DescRef) (h : HostDesc) (s : State) : State :=
  let b := h.bytes
  let idx := leAt b 16 2
  if 1024 ≤ idx then endDesc s r 4
  else
    let st := windowCheck s idx (b.drop 32)
    if st ≠ 0 then endDesc s r st
    else
      let w := parseWindow (b.drop 32)
      endDesc { s with rem := { s.rem with windows := SMap.put s.rem.windows idx w } } r 0

/-- The frames translated through a window and not yet written: on a die link, waiting for the receiver, in the mesh, or at an
atomic unit. -/
def translated (s : State) (idx : Nat) : List Nat :=
  ((List.range 9).flatMap fun q => ((arrivals s q).filter fun e => e.tgt.any (·.win == idx)).map (·.uid)) ++
  (s.fab.mesh.flatMap fun m => (m.2.inward.filter fun p => p.win == idx).map (·.uid)) ++
  ((s.rem.atomics.filter fun a => a.win == idx).map (·.uid))

/-- WIN of ACT 1: a removal; it completes when every frame already translated through the window has been written (R386). -/
def winRemoveBody (r : DescRef) (h : HostDesc) (s : State) : State :=
  let idx := leAt h.bytes 16 2
  if 1024 ≤ idx then endDesc s r 4
  else if (SMap.find s.rem.windows idx).isNone then endDesc s r 0
  else
    let w := translated s idx
    let s := { s with rem := { s.rem with windows := SMap.erase s.rem.windows idx } }
    if w.isEmpty then endDesc s r 0 else updDesc s r fun h => { h with phase := .working, waitFor := w }

/-- One entry of the refusal log as bytes (Table MEM-6). -/
def logBytes (e : RefLog) : List Byte :=
  leBytes 8 e.time ++ leBytes 2 e.src ++ leBytes 2 e.dst ++ leBytes 2 e.job ++ leBytes 1 e.typ ++ leBytes 1 e.reason ++
  leBytes 6 e.offset ++ zeros 10

/-- The refusal record: 576 bytes (Table MEM-6). -/
def refusalRecord (s : State) : List Byte :=
  ((List.range 10).flatMap fun i => leBytes 4 (SMap.getD s.rem.refCounts i 0)) ++ zeros 24 ++
  (List.range 16).flatMap fun j => match SMap.find s.rem.refLog j with
    | none => zeros 32
    | some e => logBytes e

/-- WIN of ACT 2 and 3: the record is written to the host; ACT 3 clears the counters. -/
def winRecordBody (clear : Bool) (r : DescRef) (h : HostDesc) (s : State) : State :=
  if 1024 ≤ leAt h.bytes 16 2 then endDesc s r 4
  else
    let s := hostWrite s h.fn (leAt h.bytes 24 8) (refusalRecord s)
    endDesc (if clear then { s with rem := { s.rem with refCounts := [] } } else s) r 0

/-! ### CIR (08 R319, R663) -/

/-- Is a CID's active entry a valid source entry? -/
def sourceEntry (s : State) (cid : Nat) : Bool := cirValid (cirNow s cid) && cirRole (cirNow s cid) == 1

/-- CIR open: a CID that passes the checks is PENDING, and REQUEST is sent. -/
def cirOpenBody (r : DescRef) (h : HostDesc) (s : State) : State :=
  let cid := leAt h.bytes 16 2
  let p := cirEport (cirNow s cid)
  if !sourceEntry s cid then endDesc s r 4
  else if cirState s cid ≠ 0 then endDesc s r 3
  else if s.cir.drain.isSome then endDesc s r 2
  else if !cirReady s p then endDesc s r 9
  else
    let s := workDesc (setCir s cid 1) r
    let s := { s with cir := { s.cir with opens := s.cir.opens ++ [⟨h.fn, h.ring, h.idx, cid, s.time.lamp⟩] } }
    sendCirBell s p 2 cid 0

/-- CIR close: a CLOSED CID ends it with OK; else binding stops, and it completes when the TEARDOWN has left. -/
def cirCloseBody (r : DescRef) (h : HostDesc) (s : State) : State :=
  let cid := leAt h.bytes 16 2
  if !sourceEntry s cid then endDesc s r 4
  else if cirState s cid = 0 then endDesc s r 0
  else
    let s := workDesc s r
    { s with cir := { s.cir with
        closes := s.cir.closes ++ [⟨h.fn, h.ring, h.idx, cid, s.time.lamp⟩]
        closing := if memNat cid s.cir.closing then s.cir.closing else s.cir.closing ++ [cid] } }

/-! ### Completions (R534 to R537) -/

/-- A completion counts toward its ring's vector. -/
def countVec (s : State) (fn : Nat) (e : List Byte) : State :=
  let v := enVec e
  let x := vecOf s fn v
  let x := if x.count = 0 then { x with first := s.time.lamp, mtime := enMtime e } else x
  let s := setVec s fn v { x with count := x.count + 1 }
  if enMcnt e ≤ x.count + 1 then fireVec s fn v else s

/-- Has a host descriptor a frame not yet admitted? -/
def hostPending (s : State) (h : HostDesc) : Bool :=
  (localPending s).any fun p => p.org == .host h.fn h.ring h.idx

/-- The status of the first list in core order that did not end OK, with its stopping index (R528). -/
def listsStatus : List LaunchRes → Nat × Nat
  | [] => (0, 0xFFFF)
  | l :: r => if l.status.getD 0 = 0 then listsStatus r else (l.status.getD 0, l.didx)

/-- The status and the stopping index of a descriptor that is done. -/
def doneStatus (s : State) (h : HostDesc) : Option (Nat × Nat) :=
  let op := byteAt h.bytes 0
  match h.phase with
  | .fetched => none
  | .ended st => if op = 5 ∧ hostPending s h then none else some (st, 0xFFFF)
  | .working =>
    if op = 1 then (if h.lists.all fun l => l.status.isSome then some (listsStatus h.lists) else none)
    else if op = 5 then (if hostPending s h then none else some (0, 0xFFFF))
    else if op = 0x27 then
      (if h.waitFor.any fun u =>
          ((List.range 9).any fun q => (arrivals s q).any (·.uid == u)) ||
          (s.fab.mesh.any fun m => m.2.inward.any (·.uid == u)) || s.rem.atomics.any (·.uid == u)
        then none else some (0, 0xFFFF))
    else none

/-- The flags of a descriptor's lists, ORed. -/
def listsFlags (h : HostDesc) : Nat :=
  let f := h.lists.foldl (fun f l => FpFlags.or f l.flags) FpFlags.none
  b2n f.flushed + 2 * b2n f.nangen + 4 * b2n f.infgen + 8 * b2n f.ovf

/-- A completion record (Table HST-9). -/
def recordBytes (h : HostDesc) (x : Ring) (st didx : Nat) : List Byte :=
  let phase := (x.done / 2 ^ enCqLog x.entry + 1) % 2
  leBytes 8 (leAt h.bytes 4 8) ++ leBytes 4 h.idx ++ leBytes 1 (st + 16 * h.ring + 128 * phase) ++
  leBytes 1 (listsFlags h) ++ leBytes 2 didx ++ leBytes 4 (min 0xFFFFFFFF h.drops) ++ zeros 4 ++ leBytes 8 h.result

/-- HOST_DESCRIPTOR_COMPLETE (R534): the record of a descriptor that is done is written, and it counts toward its vector. -/
def completeHost (r : DescRef) (s : State) : State :=
  match descOf s r with
  | none => s
  | some h =>
    match doneStatus s h, ringOf s h.fn h.ring with
    | some (st, didx), some x =>
      let at0 := enCq x.entry + 32 * (x.done % 2 ^ enCqLog x.entry)
      let s := hostWrite s h.fn at0 (recordBytes h x st didx)
      let s := setRing s h.fn h.ring { x with done := (x.done + 1) % 2 ^ 32 }
      let s := { s with host := { s.host with descs := s.host.descs.filter fun g => !isDesc r g } }
      if bit (byteAt h.bytes 1) 0 ∧ enVec x.entry ≠ 0xFF then countVec s h.fn x.entry else s
    | some _, none => s
    | none, _ => s

/-- MSIX_MTIME_EXPIRE (R536): MTIME microseconds after the first counted completion. -/
def mtimeExpire (fn v : Nat) (s : State) : State :=
  let x := vecOf s fn v
  if x.count = 0 ∨ x.mtime = 0 ∨ s.time.lamp < x.first + 1000 * x.mtime then s else fireVec s fn v

/-! ### HOST_ACCESS_ERROR (R511) -/

/-- Does a descriptor of a row read host memory? -/
def readsHost (b : List Byte) : Bool :=
  rowOf b == .msend || rowOf b == .tblwr || (rowOf b == .hcopy && byteAt b 16 == 0)

/-- The fetch of one descriptor at SQH ends in an error: it ends with FAULT, its bytes unknown (log 52). -/
def fetchError (r : DescRef) (s : State) : State :=
  match ringOf s r.fn.val r.ring.val with
  | none => s
  | some x =>
    if fnState s r.fn.val ≠ 1 ∨ x.sqh ≠ r.idx.toNat ∨ fetchable s r.fn.val r.ring.val x 1 = 0 then s
    else
      let b := freshBytes s 64
      let h := (x.sqh + 1) % 2 ^ 32
      let s := setRing b.2 r.fn.val r.ring.val { x with sqh := h }
      let d : HostDesc := ⟨r.fn.val, r.ring.val, x.sqh, b.1, .ended 9, [], 0, 0, [], 0⟩
      let s := { s with host := { s.host with descs := s.host.descs ++ [d] } }
      reportAer (hostWrite s r.fn.val (pageOf s r.fn.val + 0x208 + 4 * r.ring.val) (leBytes 4 h)) r.fn.val

/-- A doorbell poll ends in an error: nothing is learned, and it is no hit (log 52). With `entries` the read of the ring
entries did, after the page showed a new GEN: a hit, whose configuration is not taken. -/
def pollError (fn : Nat) (entries : Bool) (s : State) : State :=
  if !pollDue s fn then s
  else
    let s := bump (hasRead s) R.hstCntPoll 1
    let s := if entries then bump s R.hstCntHit 1 else s
    let iv := if entries then 500 else nextInterval s fn
    reportAer (setFn s fn { fnSt s fn with interval := iv, due := s.time.lamp + iv }) fn

/-- The read of a completion head ends in an error: the head stays as it was last read. -/
def headError (fn r : Nat) (s : State) : State :=
  match ringOf s fn r with
  | none => s
  | some x => if fnState s fn = 1 ∧ headDue s fn r x then reportAer (hasRead s) fn else s

/-- Does a descriptor read host memory now: it may start, or is an HCOPY that has bytes to read? -/
def readsNow (s : State) (h : HostDesc) : Bool :=
  readsHost h.bytes && headCheck h.fn h.bytes == 0 && (mayStart s h || (h.phase == .working && rowOf h.bytes == .hcopy))

/-- HOST_ACCESS_ERROR: a read of host memory ends in an error, which AER reports against its function; the descriptor that it
served, if any, ends with FAULT. -/
def accessError (r : HostRead) (s : State) : State :=
  match r with
  | .poll fn => pollError fn.val false s
  | .entries fn => pollError fn.val true s
  | .head fn ring => headError fn.val ring.val s
  | .desc r =>
    match descOf s r with
    | none => fetchError r s
    | some h => if readsNow s h then reportAer (endDesc s r 9) h.fn else s

/-! ### The rows -/

/-- DOORBELL_POLL: 64 bytes of the page and 256 bytes of its ring entries. -/
def execDoorbellPoll (fn : Fn) (data entries : List Byte) (s : State) : Out :=
  if data.length = 64 ∧ entries.length = 256 then .next (doorbellPoll fn.val data entries s) else .fault .malformedCommand
/-- DESCRIPTOR_FETCH: 1 to 64 descriptors of 64 bytes. -/
def execDescriptorFetch (fn : Fn) (ring : Fin 8) (cqh : Word) (data : List Byte) (s : State) : Out :=
  if data.length % 64 = 0 ∧ data.length ≠ 0 ∧ data.length ≤ 4096 then
    .next (descriptorFetch fn.val ring.val cqh.toNat data s) else .fault .malformedCommand
/-- HOST_NOP: does nothing; a descriptor whose OP is not listed ends here with RANGE. -/
def execHostNop (r : DescRef) (s : State) : Out := .next (startDesc .nop r (fun _ s => endDesc s r 0) s)
/-- LAUNCH. -/
def execLaunch (r : DescRef) (s : State) : Out := .next (startDesc .launch r (launchBody r) s)
/-- HCOPY. -/
def execHcopy (r : DescRef) (data : List Byte) (u : Upsets) (s : State) : Out :=
  .next (meeting u (hcopy r data) s)
/-- RREAD. -/
def execRread (r : DescRef) (s : State) : Out := .next (startDesc .rread r (rreadBody r) s)
/-- RATOMIC. -/
def execRatomic (r : DescRef) (s : State) : Out := .next (startDesc .ratomic r (ratomicBody r) s)
/-- MSEND. -/
def execMsend (r : DescRef) (data : List Byte) (s : State) : Out := .next (startDesc .msend r (msendBody r data) s)
/-- FCTL_ENABLE. -/
def execFctlEnable (r : DescRef) (s : State) : Out := .next (startDesc .fctlEnable r (fctlEnableBody r) s)
/-- FCTL_DISABLE. -/
def execFctlDisable (r : DescRef) (s : State) : Out := .next (startDesc .fctlDisable r (fctlStopBody r) s)
/-- FCTL_RESET. -/
def execFctlReset (r : DescRef) (s : State) : Out := .next (startDesc .fctlReset r (fctlStopBody r) s)
/-- FBIND. -/
def execFbind (r : DescRef) (s : State) : Out := .next (startDesc .fbind r (fbindBody r) s)
/-- CLOWN_ASSIGN. -/
def execClownAssign (r : DescRef) (s : State) : Out := .next (startDesc .clownAssign r (clownBody true r) s)
/-- CLOWN_RELEASE. -/
def execClownRelease (r : DescRef) (s : State) : Out := .next (startDesc .clownRelease r (clownBody false r) s)
/-- GRAN_ASSIGN. -/
def execGranAssign (r : DescRef) (s : State) : Out := .next (startDesc .granAssign r (granBody true r) s)
/-- GRAN_RELEASE. -/
def execGranRelease (r : DescRef) (s : State) : Out := .next (startDesc .granRelease r (granBody false r) s)
/-- SETREG. -/
def execSetreg (r : DescRef) (s : State) : Out := .next (startDesc .setreg r (setregBody r) s)
/-- TBLWR. -/
def execTblwr (r : DescRef) (data : List Byte) (s : State) : Out := .next (startDesc .tblwr r (tblwrBody r data) s)
/-- TBLRD. -/
def execTblrd (r : DescRef) (s : State) : Out := .next (startDesc .tblrd r (tblrdBody r) s)
/-- WIN_LOAD. -/
def execWinLoad (r : DescRef) (s : State) : Out := .next (startDesc .winLoad r (winLoadBody r) s)
/-- WIN_REMOVE. -/
def execWinRemove (r : DescRef) (s : State) : Out := .next (startDesc .winRemove r (winRemoveBody r) s)
/-- WIN_READ_RECORD. -/
def execWinReadRecord (r : DescRef) (s : State) : Out := .next (startDesc .winRead r (winRecordBody false r) s)
/-- WIN_READ_CLEAR. -/
def execWinReadClear (r : DescRef) (s : State) : Out := .next (startDesc .winClear r (winRecordBody true r) s)
/-- CIR_OPEN. -/
def execCirOpen (r : DescRef) (s : State) : Out := .next (startDesc .cirOpen r (cirOpenBody r) s)
/-- CIR_CLOSE. -/
def execCirClose (r : DescRef) (s : State) : Out := .next (startDesc .cirClose r (cirCloseBody r) s)
/-- HOST_DESCRIPTOR_COMPLETE. -/
def execHostDescriptorComplete (r : DescRef) (s : State) : Out := .next (completeHost r s)
/-- MSIX_MTIME_EXPIRE. -/
def execMsixMtimeExpire (fn : Fn) (vec : Fin 64) (s : State) : Out := .next (mtimeExpire fn.val vec.val s)
/-- MSIX_UNMASK. -/
def execMsixUnmask (fn : Fn) (vec : Fin 64) (s : State) : Out := .next (unmask fn.val vec.val s)
/-- HOST_ACCESS_ERROR. -/
def execHostAccessError (r : HostRead) (s : State) : Out := .next (accessError r s)

end Sys2Proof.Machine
end

