-- ==== Sys2Proof/Machine/Dispatch.lean ====
section
/-! DEFINITION. Sys2Proof/Machine/Dispatch.lean: the effect of each command on everything but the queue, one arm per
constructor of Instr, each a direct call of that command's meaning. -/

namespace Sys2Proof.Machine

def exec (i : Instr) (s : State) : Host.Outcome State Fault Refusal :=
  match i with
  | .registerWrite off v => Sys2Proof.Machine.execRegisterWrite off v s
  | .bar0UnsupportedAccess off size => Sys2Proof.Machine.execBar0UnsupportedAccess off size s
  | .reg64LowWrite off v => Sys2Proof.Machine.execReg64LowWrite off v s
  | .reg64HighWrite off v => Sys2Proof.Machine.execReg64HighWrite off v s
  | .reg64LowRead off => Sys2Proof.Machine.execReg64LowRead off s
  | .lock => Sys2Proof.Machine.execLock s
  | .clusterOwnerWrite d ix v => Sys2Proof.Machine.execClusterOwnerWrite d ix v s
  | .dstLayoutWrite v => Sys2Proof.Machine.execDstLayoutWrite v s
  | .granuleOwnerWrite g v => Sys2Proof.Machine.execGranuleOwnerWrite g v s
  | .fabTableRead => Sys2Proof.Machine.execFabTableRead s
  | .fabTableWrite => Sys2Proof.Machine.execFabTableWrite s
  | .fabEpochArm => Sys2Proof.Machine.execFabEpochArm s
  | .fabEpochFlip => Sys2Proof.Machine.execFabEpochFlip s
  | .epochFlipAt => Sys2Proof.Machine.execEpochFlipAt s
  | .retentionEnd => Sys2Proof.Machine.execRetentionEnd s
  | .cirTableRead => Sys2Proof.Machine.execCirTableRead s
  | .cirTableWrite => Sys2Proof.Machine.execCirTableWrite s
  | .cirArm => Sys2Proof.Machine.execCirArm s
  | .cirFlip => Sys2Proof.Machine.execCirFlip s
  | .milTableRead => Sys2Proof.Machine.execMilTableRead s
  | .milTableWrite => Sys2Proof.Machine.execMilTableWrite s
  | .millVersionWrite m v => Sys2Proof.Machine.execMillVersionWrite m v s
  | .policerCommit k v => Sys2Proof.Machine.execPolicerCommit k v s
  | .shaperCommit k v => Sys2Proof.Machine.execShaperCommit k v s
  | .mirrorTargetWrite v => Sys2Proof.Machine.execMirrorTargetWrite v s
  | .resourceClaimWrite off v => Sys2Proof.Machine.execResourceClaimWrite off v s
  | .faultRecordClear v => Sys2Proof.Machine.execFaultRecordClear v s
  | .ageclr => Sys2Proof.Machine.execAgeclr s
  | .deviceResetWrite => Sys2Proof.Machine.execDeviceResetWrite s
  | .timeSet v => Sys2Proof.Machine.execTimeSet v s
  | .gangEnable v => Sys2Proof.Machine.execGangEnable v s
  | .bondWrite b v => Sys2Proof.Machine.execBondWrite b v s
  | .barrierCommit b v => Sys2Proof.Machine.execBarrierCommit b v s
  | .histogramSnap => Sys2Proof.Machine.execHistogramSnap s
  | .portEnableWrite p v => Sys2Proof.Machine.execPortEnableWrite p v s
  | .portRetrain p => Sys2Proof.Machine.execPortRetrain p s
  | .portWidthRequest p w => Sys2Proof.Machine.execPortWidthRequest p w s
  | .portUnretire p => Sys2Proof.Machine.execPortUnretire p s
  | .jobLevelWrite j v => Sys2Proof.Machine.execJobLevelWrite j v s
  | .lampEnter => Sys2Proof.Machine.execLampEnter s
  | .lampWake => Sys2Proof.Machine.execLampWake s
  | .maintenanceRequest v => Sys2Proof.Machine.execMaintenanceRequest v s
  | .uartDataWrite host b => Sys2Proof.Machine.execUartDataWrite host b s
  | .uartDataRead host => Sys2Proof.Machine.execUartDataRead host s
  | .spiRead spBusy => Sys2Proof.Machine.execSpiRead spBusy s
  | .spiProgram spBusy => Sys2Proof.Machine.execSpiProgram spBusy s
  | .spiErase spBusy => Sys2Proof.Machine.execSpiErase spBusy s
  | .spiOpDone timedOut => Sys2Proof.Machine.execSpiOpDone timedOut s
  | .listStart k => Sys2Proof.Machine.execListStart k s
  | .descriptorComplete k => Sys2Proof.Machine.execDescriptorComplete k s
  | .nop k => Sys2Proof.Machine.execNop k s
  | .matmul k u => Sys2Proof.Machine.execMatmul k u s
  | .convert k u => Sys2Proof.Machine.execConvert k u s
  | .sparse k u => Sys2Proof.Machine.execSparse k u s
  | .reduceSumImages k u => Sys2Proof.Machine.execReduceSumImages k u s
  | .reduceSumPartials k u => Sys2Proof.Machine.execReduceSumPartials k u s
  | .reduceMax k u => Sys2Proof.Machine.execReduceMax k u s
  | .reduceMin k u => Sys2Proof.Machine.execReduceMin k u s
  | .copy k u => Sys2Proof.Machine.execCopy k u s
  | .copyComplete k n u => Sys2Proof.Machine.execCopyComplete k n u s
  | .waitTally k => Sys2Proof.Machine.execWaitTally k s
  | .waitTime k => Sys2Proof.Machine.execWaitTime k s
  | .waitComplete k => Sys2Proof.Machine.execWaitComplete k s
  | .waitTimeout k => Sys2Proof.Machine.execWaitTimeout k s
  | .waitTimeReached k => Sys2Proof.Machine.execWaitTimeReached k s
  | .loop k => Sys2Proof.Machine.execLoop k s
  | .stage k => Sys2Proof.Machine.execStage k s
  | .pillarMark k => Sys2Proof.Machine.execPillarMark k s
  | .pillarClear k => Sys2Proof.Machine.execPillarClear k s
  | .quantumExpire d ix => Sys2Proof.Machine.execQuantumExpire d ix s
  | .contextSwitchStart d ix => Sys2Proof.Machine.execContextSwitchStart d ix s
  | .contextSaveDone d ix => Sys2Proof.Machine.execContextSaveDone d ix s
  | .contextRestoreDone d ix u => Sys2Proof.Machine.execContextRestoreDone d ix u s
  | .frameAdmit n => Sys2Proof.Machine.execFrameAdmit n s
  | .shaperPass k => Sys2Proof.Machine.execShaperPass k s
  | .admitResume n => Sys2Proof.Machine.execAdmitResume n s
  | .frameArrive p => Sys2Proof.Machine.execFrameArrive p s
  | .circuitFrameArrive p t => Sys2Proof.Machine.execCircuitFrameArrive p t s
  | .cageSlotStart p => Sys2Proof.Machine.execCageSlotStart p s
  | .portTransmit p => Sys2Proof.Machine.execPortTransmit p s
  | .dieLinkSend d => Sys2Proof.Machine.execDieLinkSend d s
  | .meshPacketArrive d n => Sys2Proof.Machine.execMeshPacketArrive d n s
  | .sumpReadback q u => Sys2Proof.Machine.execSumpReadback q u s
  | .queueAvgUpdate => Sys2Proof.Machine.execQueueAvgUpdate s
  | .histogramSample => Sys2Proof.Machine.execHistogramSample s
  | .canarySend n => Sys2Proof.Machine.execCanarySend n s
  | .canaryArrive => Sys2Proof.Machine.execCanaryArrive s
  | .mirrorRecordWrite u => Sys2Proof.Machine.execMirrorRecordWrite u s
  | .remoteWrite q => Sys2Proof.Machine.execRemoteWrite q s
  | .remoteRead q u => Sys2Proof.Machine.execRemoteRead q u s
  | .remoteAtomic q => Sys2Proof.Machine.execRemoteAtomic q s
  | .atomicIntegerAdd u => Sys2Proof.Machine.execAtomicIntegerAdd u s
  | .atomicSwap u => Sys2Proof.Machine.execAtomicSwap u s
  | .atomicCompareSwap u => Sys2Proof.Machine.execAtomicCompareSwap u s
  | .atomicFloatingAdd u => Sys2Proof.Machine.execAtomicFloatingAdd u s
  | .rdataArrive q => Sys2Proof.Machine.execRdataArrive q s
  | .atrespArrive q => Sys2Proof.Machine.execAtrespArrive q s
  | .requestTimeout t => Sys2Proof.Machine.execRequestTimeout t s
  | .millHandler m e => Sys2Proof.Machine.execMillHandler m e s
  | .millNop m => Sys2Proof.Machine.execMillNop m s
  | .add m => Sys2Proof.Machine.execAdd m s
  | .sub m => Sys2Proof.Machine.execSub m s
  | .and m => Sys2Proof.Machine.execAnd m s
  | .or m => Sys2Proof.Machine.execOr m s
  | .xor m => Sys2Proof.Machine.execXor m s
  | .shl m => Sys2Proof.Machine.execShl m s
  | .shr m => Sys2Proof.Machine.execShr m s
  | .mul m => Sys2Proof.Machine.execMul m s
  | .addi m => Sys2Proof.Machine.execAddi m s
  | .andi m => Sys2Proof.Machine.execAndi m s
  | .ori m => Sys2Proof.Machine.execOri m s
  | .shli m => Sys2Proof.Machine.execShli m s
  | .shri m => Sys2Proof.Machine.execShri m s
  | .fld m => Sys2Proof.Machine.execFld m s
  | .cadd m => Sys2Proof.Machine.execCadd m s
  | .cset m => Sys2Proof.Machine.execCset m s
  | .beq m => Sys2Proof.Machine.execBeq m s
  | .bne m => Sys2Proof.Machine.execBne m s
  | .bltu m => Sys2Proof.Machine.execBltu m s
  | .bgeu m => Sys2Proof.Machine.execBgeu m s
  | .jmp m => Sys2Proof.Machine.execJmp m s
  | .endHandler m => Sys2Proof.Machine.execEndHandler m s
  | .acc m => Sys2Proof.Machine.execAcc m s
  | .aclr m => Sys2Proof.Machine.execAclr m s
  | .emit m => Sys2Proof.Machine.execEmit m s
  | .sort m => Sys2Proof.Machine.execSort m s
  | .take m => Sys2Proof.Machine.execTake m s
  | .gathRank m => Sys2Proof.Machine.execGathRank m s
  | .gathArrival m => Sys2Proof.Machine.execGathArrival m s
  | .disp m => Sys2Proof.Machine.execDisp m s
  | .flush m => Sys2Proof.Machine.execFlush m s
  | .sclr m => Sys2Proof.Machine.execSclr m s
  | .streamRemoveDone m n => Sys2Proof.Machine.execStreamRemoveDone m n s
  | .circuitRequest => Sys2Proof.Machine.execCircuitRequest s
  | .circuitGrant => Sys2Proof.Machine.execCircuitGrant s
  | .circuitRefuse => Sys2Proof.Machine.execCircuitRefuse s
  | .circuitTeardown => Sys2Proof.Machine.execCircuitTeardown s
  | .teardownForward cid => Sys2Proof.Machine.execTeardownForward cid s
  | .circuitHandshakeTimeout cid => Sys2Proof.Machine.execCircuitHandshakeTimeout cid s
  | .circuitCloseSend cid => Sys2Proof.Machine.execCircuitCloseSend cid s
  | .shiftChangeBell => Sys2Proof.Machine.execShiftChangeBell s
  | .shiftChangeStart => Sys2Proof.Machine.execShiftChangeStart s
  | .shiftChangeFlip => Sys2Proof.Machine.execShiftChangeFlip s
  | .delayExchangeStart p t => Sys2Proof.Machine.execDelayExchangeStart p t s
  | .delayRequest p t => Sys2Proof.Machine.execDelayRequest p t s
  | .delayReplySend p => Sys2Proof.Machine.execDelayReplySend p s
  | .delayReply p t => Sys2Proof.Machine.execDelayReply p t s
  | .burstSend t => Sys2Proof.Machine.execBurstSend t s
  | .tsyncBurstFrame p t => Sys2Proof.Machine.execTsyncBurstFrame p t s
  | .burstRelay t => Sys2Proof.Machine.execBurstRelay t s
  | .holdoverEnter => Sys2Proof.Machine.execHoldoverEnter s
  | .standbyTakeover t => Sys2Proof.Machine.execStandbyTakeover t s
  | .referenceLoss => Sys2Proof.Machine.execReferenceLoss s
  | .gsyncCapture => Sys2Proof.Machine.execGsyncCapture s
  | .gsyncPulse => Sys2Proof.Machine.execGsyncPulse s
  | .barrierArrival => Sys2Proof.Machine.execBarrierArrival s
  | .barrierStartBell => Sys2Proof.Machine.execBarrierStartBell s
  | .doorbellPoll fn data entries => Sys2Proof.Machine.execDoorbellPoll fn data entries s
  | .descriptorFetch fn ring cqh data => Sys2Proof.Machine.execDescriptorFetch fn ring cqh data s
  | .hostNop r => Sys2Proof.Machine.execHostNop r s
  | .launch r => Sys2Proof.Machine.execLaunch r s
  | .hcopy r data u => Sys2Proof.Machine.execHcopy r data u s
  | .rread r => Sys2Proof.Machine.execRread r s
  | .ratomic r => Sys2Proof.Machine.execRatomic r s
  | .msend r data => Sys2Proof.Machine.execMsend r data s
  | .fctlEnable r => Sys2Proof.Machine.execFctlEnable r s
  | .fctlDisable r => Sys2Proof.Machine.execFctlDisable r s
  | .fctlReset r => Sys2Proof.Machine.execFctlReset r s
  | .fbind r => Sys2Proof.Machine.execFbind r s
  | .clownAssign r => Sys2Proof.Machine.execClownAssign r s
  | .clownRelease r => Sys2Proof.Machine.execClownRelease r s
  | .granAssign r => Sys2Proof.Machine.execGranAssign r s
  | .granRelease r => Sys2Proof.Machine.execGranRelease r s
  | .setreg r => Sys2Proof.Machine.execSetreg r s
  | .tblwr r data => Sys2Proof.Machine.execTblwr r data s
  | .tblrd r => Sys2Proof.Machine.execTblrd r s
  | .winLoad r => Sys2Proof.Machine.execWinLoad r s
  | .winRemove r => Sys2Proof.Machine.execWinRemove r s
  | .winReadRecord r => Sys2Proof.Machine.execWinReadRecord r s
  | .winReadClear r => Sys2Proof.Machine.execWinReadClear r s
  | .cirOpen r => Sys2Proof.Machine.execCirOpen r s
  | .cirClose r => Sys2Proof.Machine.execCirClose r s
  | .hostDescriptorComplete r => Sys2Proof.Machine.execHostDescriptorComplete r s
  | .msixMtimeExpire fn vec => Sys2Proof.Machine.execMsixMtimeExpire fn vec s
  | .msixUnmask fn vec => Sys2Proof.Machine.execMsixUnmask fn vec s
  | .hostAccessError r => Sys2Proof.Machine.execHostAccessError r s
  | .vfEnable fn => Sys2Proof.Machine.execVfEnable fn s
  | .vfDisable fn => Sys2Proof.Machine.execVfDisable fn s
  | .vfReset fn => Sys2Proof.Machine.execVfReset fn s
  | .flr fn => Sys2Proof.Machine.execFlr fn s
  | .vfEnableClear => Sys2Proof.Machine.execVfEnableClear s
  | .teardownDrainEnd fn => Sys2Proof.Machine.execTeardownDrainEnd fn s
  | .teardownDone fn => Sys2Proof.Machine.execTeardownDone fn s
  | .drainBell => Sys2Proof.Machine.execDrainBell s
  | .linkUnitReceive p data ucw fec => Sys2Proof.Machine.execLinkUnitReceive p data ucw fec s
  | .linkReplayTimeout p => Sys2Proof.Machine.execLinkReplayTimeout p s
  | .linkIdleSend p => Sys2Proof.Machine.execLinkIdleSend p s
  | .trainingUnitReceive p data good => Sys2Proof.Machine.execTrainingUnitReceive p data good s
  | .trainRetry p => Sys2Proof.Machine.execTrainRetry p s
  | .laneFail p l => Sys2Proof.Machine.execLaneFail p l s
  | .wreq p cw => Sys2Proof.Machine.execWreq p cw s
  | .wack p => Sys2Proof.Machine.execWack p s
  | .widthSwitch p => Sys2Proof.Machine.execWidthSwitch p s
  | .failingBellsEnd p => Sys2Proof.Machine.execFailingBellsEnd p s
  | .failReceive p => Sys2Proof.Machine.execFailReceive p s
  | .failingTimeout p => Sys2Proof.Machine.execFailingTimeout p s
  | .signalLoss p => Sys2Proof.Machine.execSignalLoss p s
  | .portDrainEnd p => Sys2Proof.Machine.execPortDrainEnd p s
  | .downTimeout p => Sys2Proof.Machine.execDownTimeout p s
  | .linkReport => Sys2Proof.Machine.execLinkReport s
  | .linkReportTimeout p => Sys2Proof.Machine.execLinkReportTimeout p s
  | .healthEvaluate r => Sys2Proof.Machine.execHealthEvaluate r s
  | .thermalLimit d ix => Sys2Proof.Machine.execThermalLimit d ix s
  | .grantSwitch d ix => Sys2Proof.Machine.execGrantSwitch d ix s
  | .droop d ix => Sys2Proof.Machine.execDroop d ix s
  | .powerTelemetry w => Sys2Proof.Machine.execPowerTelemetry w s
  | .dozeEnter d ix => Sys2Proof.Machine.execDozeEnter d ix s
  | .islandWake d ix => Sys2Proof.Machine.execIslandWake d ix s
  | .wakeComplete d ix => Sys2Proof.Machine.execWakeComplete d ix s
  | .lampAlarm => Sys2Proof.Machine.execLampAlarm s
  | .lampExitComplete => Sys2Proof.Machine.execLampExitComplete s
  | .ageSweep => Sys2Proof.Machine.execAgeSweep s
  | .scrubSliceDue d u => Sys2Proof.Machine.execScrubSliceDue d u s
  | .maintenanceEnd act unit slow u => Sys2Proof.Machine.execMaintenanceEnd act unit slow u s
  | .maintenanceLate n => Sys2Proof.Machine.execMaintenanceLate n s
  | .rowSpareCopyDone n => Sys2Proof.Machine.execRowSpareCopyDone n s
  | .ident => Sys2Proof.Machine.execIdent s
  | .status => Sys2Proof.Machine.execStatus s
  | .temp => Sys2Proof.Machine.execTemp s
  | .power => Sys2Proof.Machine.execPower s
  | .capRead => Sys2Proof.Machine.execCapRead s
  | .capWrite w pecOk => Sys2Proof.Machine.execCapWrite w pecOk s
  | .alertResponse won => Sys2Proof.Machine.execAlertResponse won s
  | .smbTimeout => Sys2Proof.Machine.execSmbTimeout s
  | .pmbusIoutPoll rails => Sys2Proof.Machine.execPmbusIoutPoll rails s
  | .pmbAlert rails => Sys2Proof.Machine.execPmbAlert rails s
  | .busRecovery freed => Sys2Proof.Machine.execBusRecovery freed s
  | .busRecoveryRepeat freed => Sys2Proof.Machine.execBusRecoveryRepeat freed s
  | .uartRxFrame b stop => Sys2Proof.Machine.execUartRxFrame b stop s
  | .gpioEdge n level => Sys2Proof.Machine.execGpioEdge n level s
  | .gpioPulse n => Sys2Proof.Machine.execGpioPulse n s
  | .wakeN => Sys2Proof.Machine.execWakeN s
  | .imonSample mv => Sys2Proof.Machine.execImonSample mv s
  | .sysclkLoss => Sys2Proof.Machine.execSysclkLoss s
  | .bypass => Sys2Proof.Machine.execBypass s
  | .idcode => Sys2Proof.Machine.execIdcode s
  | .samplePreload pins => Sys2Proof.Machine.execSamplePreload pins s
  | .extest => Sys2Proof.Machine.execExtest s
  | .clamp => Sys2Proof.Machine.execClamp s
  | .highz => Sys2Proof.Machine.execHighz s
  | .trst => Sys2Proof.Machine.execTrst s
  | .coldReset => Sys2Proof.Machine.execColdReset s
  | .deviceReset => Sys2Proof.Machine.execDeviceReset s
  | .hotReset => Sys2Proof.Machine.execHotReset s
  | .bootLinkTrained => Sys2Proof.Machine.execBootLinkTrained s
  | .bootImageSelect => Sys2Proof.Machine.execBootImageSelect s
  | .bootStoresReady => Sys2Proof.Machine.execBootStoresReady s
  | .selfTest f => Sys2Proof.Machine.execSelfTest f s
  | .bootReady => Sys2Proof.Machine.execBootReady s
  | .faultBellReceive => Sys2Proof.Machine.execFaultBellReceive s
  | .resetRelease straps sfdp => Sys2Proof.Machine.execResetRelease straps sfdp s
  | .droopRecovery d ix => Sys2Proof.Machine.execDroopRecovery d ix s
  | .uartByteSent => Sys2Proof.Machine.execUartByteSent s
  | .bar0AccessWake off => Sys2Proof.Machine.execBar0AccessWake off s

end Sys2Proof.Machine
end

