-- ==== Sys2Proof/Machine/Tick.lean ====
section
/-! DEFINITION. Sys2Proof/Machine/Tick.lean: one ns of time (13_time_determinism.md R473, R476; 16_power_health.md R584). The
table has no row for it: it passes when no command waits (log 1). -/

namespace Sys2Proof.Machine

/-- The clusters that have a sequencer state or a context transfer. -/
def activeClusters (s : State) : List Nat := s.comp.seqs.map (·.1 / 64) ++ s.comp.slots.map (·.1)

/-- A busy island's idle time starts anew (R584). -/
def keepBusy (s : State) : State :=
  (activeClusters s).foldl (fun s g => if busy s g then setIsl s g { islOf s g with idleAt := s.time.lamp } else s) s

/-- One cycle of the mesh of a die that has packets (07 R272, R276): its routers run on their islands' clocks, and a
throttle of the die shuts out the new frames of its functions (09 R351). -/
def meshNs (s : State) (d : Nat) : State :=
  setMesh s d (meshCycle (nowNs s / 4) (fun r => islandMHz s (160 * d + r))
    (fun fn => s.fab.throttles.any fun t => t.1 == d && (t.2.isNone || t.2 == some fn)) (meshOf s d))

/-- One ns passes: the lamp clock and the time base count, bursts whose window closes are partial, mesh packets and context
transfers move, and busy islands stay busy. -/
def tick (s : State) : State :=
  let s := { s with time := { s.time with now := advance s.time.now (rd s R.tbRate), lamp := s.time.lamp + 1 } }
  let s := (s.fab.mesh.map (·.1)).foldl meshNs (closeWindows s)
  keepBusy ((s.comp.slots.map (·.1)).foldl transferNs s)

end Sys2Proof.Machine
end

