-- ==== Sys2Proof/Safety.lean ====
section
/-! DEFINITION. Sys2Proof/Safety.lean: the forms of the state that every step keeps, and what a command may change, in the
terms that claims use. -/

namespace Sys2Proof.Machine

/-- The byte memories (the cluster stores and deep store) are in canonical form: addresses strictly rise, no listed byte
is 0. -/
def State.memOk (s : State) : Prop := Mem.wf s.comp.store = true ∧ Mem.wf s.deep.mem = true

/-- The console's FIFOs, its log and the deferred maintenance requests are within their sizes (16 R598; 17 R617). -/
def queuesOk (s : State) : Prop :=
  s.mgmt.rx.length ≤ 64 ∧ s.mgmt.tx.length ≤ 64 ∧ s.mgmt.log.length ≤ 131072 ∧ s.power.deferred.length ≤ 16

/-- A run of steps that stops nowhere: k steps, each with a next state. -/
def State.runs : Nat → State → Prop
  | 0, _ => True
  | k + 1, s => ∃ t, step s = .next t ∧ State.runs k t

/-- Every register but some reads as before. -/
def sameRegs (s t : State) (offs : List Nat) : Prop := ∀ off, off ∉ offs → rd t off = rd s off

/-- t is s but for some registers and a held low word (R14). -/
def onlyRegs (s t : State) (offs : List Nat) : Prop :=
  t = { s with regs := t.regs, held := t.held } ∧ sameRegs s t offs

/-- A host descriptor of a row is fetched, may start, and passes the checks of every OP (14 R526, R527). -/
def startable (s : State) (r : DescRef) (h : HostDesc) (row : HRow) : Prop :=
  descOf s r = some h ∧ rowOf h.bytes = row ∧ mayStart s h = true ∧ headCheck h.fn h.bytes = 0

/-- Every other host descriptor is as before. -/
def sameDescs (s t : State) (r : DescRef) : Prop := ∀ q, q ≠ r → descOf t q = descOf s q

/-- A host descriptor has ended with a status; every other one is as before. -/
def endedWith (s t : State) (r : DescRef) (st : Nat) : Prop :=
  (∃ h, descOf t r = some h ∧ h.phase = .ended st) ∧ sameDescs s t r

/-- A host copy may move bytes: it works, or it starts and passes its checks; and it is its function's turn (14 R516). -/
def copyGoes (s : State) (r : DescRef) (h : HostDesc) : Prop :=
  descOf s r = some h ∧ rowOf h.bytes = .hcopy ∧ hostTurn s h.fn = true ∧
  (h.phase = .working ∨ (mayStart s h = true ∧ headCheck h.fn h.bytes = 0 ∧ copyCheck s h.fn h.bytes = 0))

/-- A one-row copy into the stores whose bytes can be read off at once: up to 4 KiB of them, or, where it need not stop at a tile
boundary (01 R45), any number out of deep store into one mapped range at key a. -/
def copyWhole (s : State) (k : CoreId) (d : CopyD) (a : Nat) : Prop :=
  opKey k.no d.dst 0 = some a ∧
  (d.len ≤ 4096 ∨ (expired s k = false ∧ space d.src = 2 ∧ ∀ o < d.len, opKey k.no d.dst o = some (a + o)))

/-- What a MATMUL of one row reads lies apart from the n bytes of the stores at key a: it forms the same words in every state whose
stores differ there alone. -/
def matmulApart (s : State) (core : Nat) (d : MatmulD) (p : Params) (a n : Nat) : Prop :=
  ∀ t : State, (∀ x, x < a ∨ a + n ≤ x → memRead t.comp.store x = memRead s.comp.store x) →
    ∀ sm ∈ MatmulD.seams d, ∀ c < d.n, matmulWord d p (matmulIn t core d p (0, 1, 0, d.n) sm) 0 c sm =
      matmulWord d p (matmulIn s core d p (0, 1, 0, d.n) sm) 0 c sm

/-- A host copy has moved the bytes of one turn: it has ended with OK after its last, and works on before; every other
descriptor is as before. -/
def copyWent (s t : State) (r : DescRef) (h : HostDesc) : Prop :=
  descOf t r = some (if lastTurn h then { h with phase := .ended 0 }
    else { h with phase := .working, moved := h.moved + turnBytes h }) ∧ sameDescs s t r

/-- A host descriptor works on; every other one is as before. -/
def worksOn (s t : State) (r : DescRef) : Prop :=
  (∃ h, descOf t r = some h ∧ h.phase = .working) ∧ sameDescs s t r

/-- No line and no codeword stands in error, and no pseudo-channel is lost. -/
def noUe (s : State) : Prop := s.comp.storeUe = [] ∧ s.deep.ue = [] ∧ s.deep.lost = []

/-- A handler of a mill runs and stands at a word; one more instruction is within its budget, the next address is in the code
store, and its registers are all there (11 R421 to R423). -/
def runsWord (s : State) (m : Nat) (h : HandlerSt) (w : Nat) : Prop :=
  (millOf s m).run = some h ∧ codeWord s m h.pc = w ∧ h.count < 1024 ∧ h.pc < 4095 ∧ h.regs.length = 7 ∧
  (streamOf s m h.stream).regs.length = 8

/-- Register gi as a handler reads it (11 R421). -/
def regNow (s : State) (m : Nat) (h : HandlerSt) (i : Nat) : Nat := MCtx.reg ⟨m, h, 0⟩ s i

/-- Only one mill has changed. -/
def onlyMill (s t : State) (m : Nat) : Prop := t = { s with mills := t.mills } ∧ ∀ k, k ≠ m → millOf t k = millOf s k

/-- A handler goes on at an address with its registers as before but for one. -/
def wentOn (s t : State) (m : Nat) (h : HandlerSt) (pc d v : Nat) : Prop :=
  ∃ g, (millOf t m).run = some g ∧ g.pc = pc ∧ g.count = h.count + 1 ∧ g.stream = h.stream ∧ g.f = h.f ∧
    ∀ i < 16, regNow t m g i = if i = d ∧ i ≠ 0 then v % 2 ^ 64 else regNow s m h i

/-- A port has nothing in its queues, no circuit is PENDING or OPEN, and no frame waits for a slot. -/
def quietPort (s : State) (p : Nat) : Prop :=
  s.cir.live = [] ∧ s.cir.slots = [] ∧ (queueOf s p).frames = [] ∧ ctlOf s p = []

end Sys2Proof.Machine
end

