-- ==== Sys2Proof/Certificates/Slice0/Obligations.lean ====
section
/-! DEFINITION. Sys2Proof/Certificates/Slice0/Obligations.lean: the statements about the machine, for the provers. -/

open Sys2Proof Sys2Proof.Machine

/-- A step runs the command at the front of the queue on the state with the queue's rest; with no command waiting, one ns
passes (the model's choice, log 1): the queue stays empty and the clocks count; while no cluster switches between functions,
the clusters and deep store stay as they are. -/
def Obligations.StepRunsFront : Prop :=
  (∀ (s : State) (c : Instr), step { s with pending := c :: s.pending } = exec c s) ∧
  (∀ s : State, s.pending = [] →
    ∃ t : State, step s = .next t ∧ t.pending = [] ∧ t.time.lamp = s.time.lamp + 1 ∧
      t.time.now = advance s.time.now (rd s R.tbRate) ∧ t.host = s.host ∧
      ((∀ g, (slotSt s g).switch = none) → t.comp = s.comp ∧ t.deep = s.deep ∧ t.out = s.out))

/-- R633 (Table BOOT-2), R641: the state right after reset: nothing waits, no function is ENABLED, every port is OFF, no
slot and no granule is VALID, the stores and deep store are zero, the time base is 0 in FREE, set-up is open, PHASE is
ROM. -/
def Obligations.ResetState : Prop :=
  State.reset.pending = [] ∧ State.reset.comp.store = [] ∧ State.reset.deep.mem = [] ∧ State.reset.rem.tallies = [] ∧
  State.reset.rem.windows = [] ∧ nowNs State.reset = 0 ∧ gangState State.reset = 0 ∧ locked State.reset = false ∧
  bootPhase State.reset = 0 ∧ flag State.reset R.glbBoot 26 = true ∧ rd State.reset R.glbFwin = 0x03E80003 ∧
  (∀ fn : Fn, fnState State.reset fn = 0) ∧ (∀ p : Port, portState State.reset p = 0) ∧
  (∀ (d : Die) (i : Clu), clown State.reset (cluNo d i) = 0) ∧
  (∀ g : Fin 6144, flag State.reset (R.dstOwn g) 31 = false)

/-- Every step keeps the byte memories in canonical form: in the cluster stores and in deep store the listed addresses
strictly rise and no listed byte is 0. -/
def Obligations.MemoryStaysCanonical : Prop :=
  ∀ s t : State, State.memOk s → step s = .next t → State.memOk t

/-- R617, R598 (Table BOOT-2): every step keeps the console's FIFOs within 64 bytes, the console log within 128 KiB and
the deferred maintenance requests within 16; the state after reset is so. -/
def Obligations.QueuesStayBounded : Prop :=
  queuesOk State.reset ∧ ∀ s t : State, queuesOk s → step s = .next t → queuesOk t

/-- R297: ARM written while the previous bank is retained, or while frames of another epoch are held, stays 0 and sets
TBLERR; where `FAB_FLIPAT` has passed as ARM becomes 1, the flip happens at once. -/
def Obligations.EpochArming : Prop :=
  ∀ s : State, locked s = false → flag s R.fabEpoch 8 = false →
    ((flag s R.fabEpoch 4 = true ∨ fabDrain s ≠ 0) →
      ∃ t : State, exec .fabEpochArm s = .next t ∧ flag t R.fabEpoch 8 = false ∧ flag t R.fabStat 6 = true ∧
        curEpoch t = curEpoch s ∧ onlyRegs s t [R.fabStat]) ∧
    (flag s R.fabEpoch 4 = false → fabDrain s = 0 → rd64 s R.fabFlipat ≠ 0 → rd64 s R.fabFlipat ≤ nowNs s →
      ∃ t : State, exec .fabEpochArm s = .next t ∧ curEpoch t = (curEpoch s + 1) % 4 ∧ flag t R.fabEpoch 8 = false ∧
        flag t R.fabEpoch 4 = true)

/-- R395: a tally has passed a target when (COUNT - TARGET) mod 2^32 is below 2^31; a WAIT of WMODE 0 completes then, and
not before. -/
def Obligations.TallyComparison : Prop :=
  ∀ (s : State) (k : CoreId) (fn : Nat) (r : RunList) (w : Nat), current s k = some (fn, r) → expired s k = false →
    byteAt r.desc 0 = 6 → byteAt r.desc 4 = 0 → r.phase = .waiting w →
    ((tallyCount s fn k.d (leAt r.desc 6 2) - leAt r.desc 8 4 : Int) % 2 ^ 32 < 2 ^ 31 →
      ∃ t : State, exec (.waitComplete k) s = .next t ∧ (seqOf t k.no fn).run = some { r with phase := .done } ∧
        t = { s with comp := { s.comp with seqs := t.comp.seqs }, power := { s.power with isl := t.power.isl } }) ∧
    (2 ^ 31 ≤ (tallyCount s fn k.d (leAt r.desc 6 2) - leAt r.desc 8 4 : Int) % 2 ^ 32 →
      ∃ t : State, exec (.waitComplete k) s = .next t ∧ (seqOf t k.no fn).run = some r ∧
        t = { s with power := { s.power with isl := t.power.isl } })

/-- R598: a request on an activity and unit that runs or is deferred ends with BUSY; one compatible with everything that
runs or is deferred starts, with OK; any other is deferred, with DEFERRED, and a seventeenth ends with BUSY. Completes:
maintenanceRequest. -/
def Obligations.ArbiterRequests : Prop :=
  ∀ (s : State) (v : Word) (a u : Nat), a = bits v.toNat 18 16 → u = bits v.toNat 13 8 → 2 ≤ a → a ≤ 4 →
    (a = 2 → u = 0) →
    (((a, u) ∈ s.power.running ∨ ∃ d ∈ s.power.deferred, d.act = a ∧ d.unit = u) →
      ∃ t : State, exec (.maintenanceRequest v) s = .next t ∧ getF t R.pwrMreq 3 0 = 2 ∧
        t.power = { s.power with lastReq := some (a, u) } ∧ sameRegs s t [R.pwrMreq]) ∧
    ((a, u) ∉ s.power.running → (∀ d ∈ s.power.deferred, ¬ (d.act = a ∧ d.unit = u)) →
      ((∀ b ∈ s.power.running, compatible s (a, u) b = true) →
        (∀ d ∈ s.power.deferred, compatible s (a, u) (d.act, d.unit) = true) →
        ∃ t : State, exec (.maintenanceRequest v) s = .next t ∧ getF t R.pwrMreq 3 0 = 0 ∧
          t.power.running = s.power.running ++ [(a, u)] ∧ t.power.deferred = s.power.deferred) ∧
      ((∃ b ∈ s.power.running, compatible s (a, u) b = false) ∨
        (∃ d ∈ s.power.deferred, compatible s (a, u) (d.act, d.unit) = false) →
        ∃ t : State, exec (.maintenanceRequest v) s = .next t ∧
          getF t R.pwrMreq 3 0 = (if s.power.deferred.length < 16 then 1 else 2) ∧
          t.power.running = s.power.running ∧
          t.power.deferred = s.power.deferred ++
            (if s.power.deferred.length < 16 then [⟨a, u, s.time.lamp, false⟩] else []) ∧
          sameRegs s t [R.pwrMreq]))

/-- R600: a request deferred for more than 10 s sets MLATE and is counted; `PWR_MLOG` holds it whatever it held; the
request stays queued. Completes: maintenanceLate. -/
def Obligations.LateRequests : Prop :=
  ∀ (s : State) (n : Nat) (x : Deferred), s.power.deferred[n]? = some x → x.late = false → x.act < 8 → x.unit < 64 →
    x.since + 10000000000 < s.time.lamp →
    ∃ t : State, exec (.maintenanceLate n) s = .next t ∧ flag t R.pwrStat 4 = true ∧
      rd t R.pwrCntMlate = min (2 ^ 32 - 1) (rd s R.pwrCntMlate % 2 ^ 32 + 1) ∧ flag t R.pwrMlog 31 = true ∧
      getF t R.pwrMlog 26 24 = x.act ∧ getF t R.pwrMlog 21 16 = x.unit ∧
      (∀ a < 5, (bit (rd t R.pwrMlog) a = true ↔ ∃ u, (a, u) ∈ s.power.running)) ∧
      t.power.deferred = s.power.deferred.set n { x with late := true } ∧
      t = { s with regs := t.regs, power := t.power } ∧ sameRegs s t [R.pwrStat, R.pwrCntMlate, R.pwrMlog]

/-- R15, R17, R19: what a 32-bit write does by access type: RW takes the word, W1C clears, RW-L holds after the lock, RO
and unassigned offsets keep. `HST_CNT_POLL` is RW, `HST_STAT` W1C, `GNG_UEP` RW-L, `MIL_ID` RO. R10, R11, R12, R14:
accesses that are too narrow change nothing; the low word of `FAB_FLIPAT` is held, its high word commits both, and a write to
another offset drops it; a read of `TB_NOW` captures its high word, which the next read of the high word returns. R513:
other offsets of a virtual function's BAR0 read 0 and ignore writes (its place above BAR0 is log 97's). Completes:
registerWrite, bar0UnsupportedAccess, reg64LowWrite, reg64HighWrite, reg64LowRead. -/
def Obligations.RegisterAccess : Prop :=
  (∀ (s : State) (v : Word),
    (∃ t : State, exec (.registerWrite R.hstCntPoll v) s = .next t ∧ rd t R.hstCntPoll = v.toNat ∧ onlyRegs s t [R.hstCntPoll]) ∧
    (∃ t : State, exec (.registerWrite R.hstStat v) s = .next t ∧ onlyRegs s t [R.hstStat] ∧
      ∀ i < 3, flag t R.hstStat i = (flag s R.hstStat i && !bit v.toNat i)) ∧
    (∃ t : State, exec (.registerWrite R.gngUep v) s = .next t ∧ onlyRegs s t [R.gngUep] ∧
      getF t R.gngUep 15 0 = if locked s then getF s R.gngUep 15 0 else v.toNat % 2 ^ 16) ∧
    (∃ t : State, exec (.registerWrite R.milId v) s = .next t ∧ rd t R.milId = rd s R.milId % 2 ^ 32 ∧ onlyRegs s t [R.milId]) ∧
    (∀ off, off < barSize → regAt off = none →
      ∃ t : State, exec (.registerWrite off v) s = .next t ∧ t = { s with held := t.held } ∧
        ((∀ l, s.held ≠ some (off, l)) → t.held = none)) ∧
    (∀ off n, vfAt off = some n → 0x1000 ≤ off % 0x10000 → exec (.registerWrite off v) s = .next s ∧
      (0x2000 ≤ off % 0x10000 → exec (.reg64LowRead off) s = .next { s with out := s.out ++ [.read off 0] }))) ∧
  ((∀ (s : State) (off size : Nat), size < 4 ∨ off % size ≠ 0 →
    exec (.bar0UnsupportedAccess off size) s = .next { s with out := s.out ++ [.pcieUr off] }) ∧
  (∀ (s : State) (v : Word), locked s = false →
    exec (.reg64LowWrite R.fabFlipat v) s = .next { s with held := some (R.fabFlipat, v.toNat) }) ∧
  (∀ (s : State) (lo v : Word), locked s = false → s.held = some (R.fabFlipat, lo.toNat) →
    ∃ t : State, exec (.reg64HighWrite (R.fabFlipat + 4) v) s = .next t ∧ rd64 t R.fabFlipat = lo.toNat + 2 ^ 32 * v.toNat ∧
      t = { s with regs := t.regs, held := none } ∧ sameRegs s t [R.fabFlipat, R.fabFlipat + 4]) ∧
  (∀ s : State, bootPhase s = 5 → exec (.reg64LowRead R.tbNow) s = .next { s with
    captured := SMap.put s.captured (R.tbNow + 4) (nowNs s / 2 ^ 32 % 2 ^ 32)
    out := s.out ++ [.read R.tbNow (nowNs s % 2 ^ 32)] }) ∧
  (∀ (s : State) (w : Nat), SMap.find s.captured (R.tbNow + 4) = some w →
    exec (.reg64LowRead (R.tbNow + 4)) s = .next { s with
      captured := SMap.erase s.captured (R.tbNow + 4)
      out := s.out ++ [.read (R.tbNow + 4) w] }))

/-- R18, R650, R595, R644, R476: the lock sets; a fault record's entry is removed; the ageing record is cleared before the
lock; in FREE a write of `TB_SET`'s high word steps the time base. Completes: lock, faultRecordClear, ageclr, timeSet. -/
def Obligations.GlobalWrites : Prop :=
  (∀ s : State, ∃ t : State, exec .lock s = .next t ∧ locked t = true ∧ onlyRegs s t [R.glbLock]) ∧
  (∀ (s : State) (v : Word), locked s = false → bits v.toNat 26 24 < 4 →
    ∃ t : State, exec (.faultRecordClear v) s = .next t ∧ t.flt.record = s.flt.record.filter (· != frecRes v.toNat) ∧
      t = { s with regs := t.regs, held := t.held, flt := { s.flt with record := t.flt.record } } ∧
      sameRegs s t [R.glbFrec]) ∧
  (∀ s : State, locked s = false →
    ∃ t : State, exec .ageclr s = .next t ∧ t = { s with held := t.held, power := { s.power with ages := [] } }) ∧
  (∀ (s : State) (lo v : Word), locked s = false → gangState s = 0 → s.held = some (R.tbSet, lo.toNat) →
    ∃ t : State, exec (.timeSet v) s = .next t ∧ t.time.now = (lo.toNat + 2 ^ 32 * v.toNat) * 2 ^ 32 ∧ flag t R.tbStat 4 = true ∧
      t = { s with regs := t.regs, held := none, time := { s.time with now := t.time.now } } ∧
      sameRegs s t [R.tbSet, R.tbSet + 4, R.tbStat])

/-- R174, R189, R228, R231: ownership and layout words that pass their checks are committed. Completes: clusterOwnerWrite,
dstLayoutWrite, granuleOwnerWrite. -/
def Obligations.OwnershipWrites : Prop :=
  (∀ (s : State) (d : Die) (i : Clu) (v : DWord), locked s = false →
    clownCheck s (cluNo d i) (setBits (setBits (setBits (setBits (setBits (clown s (cluNo d i)) 9 0 v.toNat)
      19 10 (v.toNat / 2 ^ 10)) 29 20 (v.toNat / 2 ^ 20)) 41 32 (v.toNat / 2 ^ 32)) 51 48 (v.toNat / 2 ^ 48)) = 0 →
    ∃ t : State, exec (.clusterOwnerWrite d i v) s = .next t ∧
      (∀ sl < 4, slotValid t (cluNo d i) sl = bit v.toNat (48 + sl)) ∧
      sameRegs s t [R.cpxClown d i, R.cpxClown d i + 4, R.pwrIsl (cluNo d i)]) ∧
  (∀ (s : State) (v : Word), locked s = false →
    layoutOk s (setBits (setBits (rd s R.dstLayout) 8 8 (v.toNat / 256)) 4 0 v.toNat) = true →
    ∃ t : State, exec (.dstLayoutWrite v) s = .next t ∧ getF t R.dstLayout 4 0 = v.toNat % 32 ∧
      flag t R.dstLayout 8 = bit v.toNat 8 ∧ onlyRegs s t [R.dstLayout]) ∧
  (∀ (s : State) (g : Fin 6144) (v : Word), locked s = false →
    granuleCheck s g (v.toNat % 1024) (bit v.toNat 31) = 0 →
    ∃ t : State, exec (.granuleOwnerWrite g v) s = .next t ∧ flag t (R.dstOwn g) 31 = bit v.toNat 31 ∧
      getF t (R.dstOwn g) 9 0 = v.toNat % 1024 ∧ flag t (R.dstOwn g) 30 = flag s (R.dstOwn g) 30 ∧
      onlyRegs s t [R.dstOwn g])

/-- R661: a read command puts the selected entry into the data words, with DONE and status OK. R258, R293, R338, R411,
R661: before the lock a write command commits a good entry of an inactive bank, or a code word of a mill with no valid
stream; the entry then reads as written. Completes: fabTableRead, fabTableWrite, cirTableRead, cirTableWrite, milTableRead,
milTableWrite. -/
def Obligations.TableWindows : Prop :=
  (∀ (s : State) (bs : List Byte),
    (tblRead s (fabWin s).tid (fabWin s).bank (fabWin s).idx = some bs → bs.length = tblSize (fabWin s).tid →
      ∃ t : State, exec .fabTableRead s = .next t ∧ winData t (fabWin s) = bs ∧ flag t R.fabTcmd 8 = true ∧
        getF t R.fabTcmd 7 4 = 0 ∧ t = { s with regs := t.regs, held := t.held }) ∧
    (tblRead s (cirWin s).tid (cirWin s).bank (cirWin s).idx = some bs → bs.length = tblSize (cirWin s).tid →
      ∃ t : State, exec .cirTableRead s = .next t ∧ winData t (cirWin s) = bs ∧ flag t R.cirTcmd 8 = true ∧
        getF t R.cirTcmd 7 4 = 0 ∧ t = { s with regs := t.regs, held := t.held }) ∧
    (tblRead s (milWin s).tid (milWin s).bank (milWin s).idx = some bs → bs.length = tblSize (milWin s).tid →
      ∃ t : State, exec .milTableRead s = .next t ∧ winData t (milWin s) = bs ∧ flag t R.milTcmd 8 = true ∧
        getF t R.milTcmd 7 4 = 0 ∧ t = { s with regs := t.regs, held := t.held })) ∧
  (∀ s : State, locked s = false →
    ((fabWin s).tid ≤ 2 → (fabWin s).idx < tblCount (fabWin s).tid → (fabWin s).bank ≠ curEpoch s % 2 →
      flag s R.fabEpoch 4 = false → flag s R.fabEpoch 8 = false → fabDrain s = 0 →
      ((fabWin s).tid = 0 → routeBad (leNat (winData s (fabWin s))) = false) →
      ∃ t : State, exec .fabTableWrite s = .next t ∧
        tblRead t (fabWin s).tid (fabWin s).bank (fabWin s).idx = some (winData s (fabWin s)) ∧
        flag t R.fabTcmd 8 = true ∧ getF t R.fabTcmd 7 4 = 0 ∧ sameRegs s t [R.fabTcmd]) ∧
    ((cirWin s).tid ≤ 5 → (cirWin s).bank ≠ cirBank s → flag s R.cirCtl 8 = false →
      leNat (winData s (cirWin s)) < (if (cirWin s).tid = 4 then 2 ^ 44 else 2 ^ 17) →
      ((cirWin s).tid = 4 → cirRole (leNat (winData s (cirWin s))) ≠ 3) →
      ∃ t : State, exec .cirTableWrite s = .next t ∧
        tblRead t (cirWin s).tid (cirWin s).bank (cirWin s).idx = some (winData s (cirWin s)) ∧
        flag t R.cirTcmd 8 = true ∧ getF t R.cirTcmd 7 4 = 0 ∧ sameRegs s t [R.cirTcmd]) ∧
    ((milWin s).tid = 8 → validStreams s ((milWin s).idx / 4096) = [] →
      ∃ t : State, exec .milTableWrite s = .next t ∧
        codeWord t ((milWin s).idx / 4096) ((milWin s).idx % 4096) = leNat (winData s (milWin s)) ∧
        flag t R.milTcmd 8 = true ∧ getF t R.milTcmd 7 4 = 0 ∧ sameRegs s t [R.milTcmd]))

/-- R295, R296, R297: arming, the flip by command and at `FAB_FLIPAT`, and the end of retention. R335, R339: a bank that
passes its checks is armed; an armed bank flips with no circuit PENDING or OPEN. Completes: fabEpochArm, fabEpochFlip,
epochFlipAt, retentionEnd, cirArm, cirFlip. -/
def Obligations.EpochAndBankFlips : Prop :=
  ((∀ s : State, locked s = false → flag s R.fabEpoch 8 = false → flag s R.fabEpoch 4 = false → fabDrain s = 0 →
    rd64 s R.fabFlipat = 0 →
    ∃ t : State, exec .fabEpochArm s = .next t ∧ flag t R.fabEpoch 8 = true ∧ curEpoch t = curEpoch s ∧ onlyRegs s t [R.fabEpoch]) ∧
  (∀ s : State, flag s R.fabEpoch 8 = true →
    ∃ t : State, exec .fabEpochFlip s = .next t ∧ curEpoch t = (curEpoch s + 1) % 4 ∧
      getF t R.fabEpoch 2 2 = (curEpoch s + 1) % 2 ∧ flag t R.fabEpoch 4 = true ∧ flag t R.fabEpoch 8 = false ∧
      getF t R.fabHashseed 31 16 = getF s R.fabHashseed 15 0 ∧ t.fab.flipAt = s.time.lamp) ∧
  (∀ s : State, flag s R.fabEpoch 8 = true → rd64 s R.fabFlipat ≠ 0 → rd64 s R.fabFlipat ≤ nowNs s →
    ∃ t : State, exec .epochFlipAt s = .next t ∧ curEpoch t = (curEpoch s + 1) % 4 ∧ flag t R.fabEpoch 8 = false ∧
      flag t R.fabEpoch 4 = true) ∧
  (∀ s : State, flag s R.fabEpoch 4 = true → 1000 * s.fab.hold ≤ s.time.lamp - s.fab.flipAt → fabDrain s = 0 →
    exec .retentionEnd s = .next (setF s R.fabEpoch 4 4 0))) ∧
  ((∀ s : State, locked s = false → armOk s = true → 1 ≤ getF s R.cirCtl 19 16 → getF s R.cirCtl 19 16 ≤ 9 →
    ∃ t : State, exec .cirArm s = .next t ∧ flag t R.cirCtl 8 = true ∧ getF t R.cirCtl 0 0 = getF s R.cirCtl 0 0 ∧
      onlyRegs s t [R.cirCtl]) ∧
  (∀ s : State, locked s = false → flag s R.cirCtl 8 = true → liveCids s = [] → 1 ≤ getF s R.cirCtl 19 16 →
    getF s R.cirCtl 19 16 ≤ 9 →
    ∃ t : State, exec .cirFlip s = .next t ∧ cirBank t = 1 - cirBank s ∧ flag t R.cirCtl 8 = false ∧ onlyRegs s t [R.cirCtl]))

/-- R346, R352, R376, R447, R371 to R374, R497, R368: writes that commit a policer, a shaper, a mill version, the mirror,
a barrier, and the histogram snapshot. Completes: millVersionWrite, policerCommit, shaperCommit, mirrorTargetWrite,
barrierCommit, histogramSnap. -/
def Obligations.SettingCommits : Prop :=
  (∀ (s : State) (k : Fin 1026) (v : Word), locked s = false →
    bits (rd s (R.polCfg0 k)) 23 0 ≤ bits (rd s (R.polCfg1 k)) 23 0 →
    (bit (rd s (R.polCfg0 k)) 31 = true → bits (rd s (R.polCfg1 k)) 23 0 ≠ 0 ∧
      4160 ≤ 64 * bits (rd s (R.polCfg2 k)) 23 0 ∧ 4160 ≤ 64 * (v.toNat % 2 ^ 24)) →
    ∃ t : State, exec (.policerCommit k v) s = .next t ∧ (polOf t k).en = bit (rd s (R.polCfg0 k)) 31 ∧
      (polOf t k).cir = bits (rd s (R.polCfg0 k)) 23 0 ∧ (polOf t k).pir = bits (rd s (R.polCfg1 k)) 23 0 ∧
      (polOf t k).cbs = bits (rd s (R.polCfg2 k)) 23 0 ∧ (polOf t k).pbs = v.toNat % 2 ^ 24 ∧
      (polOf t k).tc ≤ (polOf t k).cbs * 64 * byteUnits ∧ (polOf t k).tp ≤ (polOf t k).pbs * 64 * byteUnits ∧
      sameRegs s t [R.polCfg3 k]) ∧
  (∀ (s : State) (k : Fin 1026) (v : Word), locked s = false → -32 ≤ sext 9 (v.toNat / 2 ^ 23) →
    (bit (rd s (R.shpCfg0 k)) 31 = true → bits (rd s (R.shpCfg0 k)) 23 0 ≠ 0 ∧ 4416 ≤ 64 * (v.toNat % 2 ^ 23)) →
    ∃ t : State, exec (.shaperCommit k v) s = .next t ∧ (shpOf t k).en = bit (rd s (R.shpCfg0 k)) 31 ∧
      (shpOf t k).rate = bits (rd s (R.shpCfg0 k)) 23 0 ∧ (shpOf t k).depth = v.toNat % 2 ^ 23 ∧
      (shpOf t k).ovh = v.toNat / 2 ^ 23 ∧ (shpOf t k).tok ≤ (shpOf t k).depth * 64 * byteUnits ∧
      sameRegs s t [R.shpCfg1 k]) ∧
  (∀ (s : State) (m : MillIx) (v : Word), locked s = false → bit (getF s R.milId 15 0) (bits v.toNat 19 16) = true →
    validStreams s m = [] →
    ∃ t : State, exec (.millVersionWrite m v) s = .next t ∧ getF t (R.milUnit m) 19 16 = bits v.toNat 19 16 ∧
      onlyRegs s t [R.milUnit m]) ∧
  (∀ (s : State) (v : Word), locked s = false → (bit v.toNat 31 = true → v.toNat % 2 ^ 16 ≠ 0) →
    (bit v.toNat 30 = true → flag s R.mirCtl 30 = true ∨ mbufOwner s ≠ 2) →
    ∃ t : State, exec (.mirrorTargetWrite v) s = .next t ∧ getF t R.mirCtl 23 0 = v.toNat % 2 ^ 24 ∧
      flag t R.mirCtl 31 = bit v.toNat 31 ∧ flag t R.mirCtl 30 = bit v.toNat 30 ∧
      t.fab.mirSeq = (if bit v.toNat 31 && !flag s R.mirCtl 31 then 0 else s.fab.mirSeq) ∧ sameRegs s t [R.mirCtl]) ∧
  (∀ (s : State) (b : Fin 64) (v : Word), locked s = false → bits (barWord s b 0) 30 24 ≠ 0 →
    bits (barWord s b 0) 23 12 ≠ 0 → 1 ≤ bits (barWord s b 1) 12 0 → bits (barWord s b 1) 12 0 ≤ 4096 →
    ∃ t : State, exec (.barrierCommit b v) s = .next t ∧ rd t (R.gngBar0 b) = barWord s b 0 % 2 ^ 32 ∧
      rd t (R.gngBar1 b) = barWord s b 1 % 2 ^ 32 ∧ rd t (R.gngBar2 b) = barWord s b 2 % 2 ^ 32 ∧
      bits (rd t (R.gngBar3 b)) 31 4 = bits v.toNat 31 4 ∧ barOf t b = (0, 0) ∧
      sameRegs s t [R.gngBar0 b, R.gngBar1 b, R.gngBar2 b, R.gngBar3 b]) ∧
  (∀ s : State, 64 ≤ getF s R.swqHctl 15 0 →
    ∃ t : State, exec .histogramSnap s = .next t ∧ t.fab.liveDep = [] ∧ t.fab.liveDly = [] ∧
      (∀ q < 72, ∀ k < 16, rd t (R.swqHdep q k) = SMap.getD s.fab.liveDep (16 * q + k) 0 % 2 ^ 32 ∧
        rd t (R.swqHdly q k) = SMap.getD s.fab.liveDly (16 * q + k) 0 % 2 ^ 32))

/-- R494: a bond of two ports that are UP to one peer is committed. R487: EN of the gang enters ACQUIRE, or MASTER for
role 1. R613, R630: a write that claims shared resources no one else holds is committed. Completes: resourceClaimWrite,
gangEnable, bondWrite. -/
def Obligations.GangAndClaims : Prop :=
  ((∀ (s : State) (v : Word), locked s = false → bits v.toNat 29 28 ≠ 3 → 2 ≤ bits v.toNat 27 24 →
    2 ≤ bits v.toNat 23 16 → bits v.toNat 23 16 ≤ 50 → bit v.toNat 31 = true → flag s R.gngCtl 31 = false →
    ∃ t : State, exec (.gangEnable v) s = .next t ∧ flag t R.gngCtl 31 = true ∧
      gangState t = (if bits v.toNat 29 28 = 1 then 4 else 1) ∧ flag t R.gngStat 3 = false ∧ t.gang.burstAt = none ∧
      sameRegs s t [R.gngCtl, R.gngStat]) ∧
  (∀ (s : State) (b : Fin 8), locked s = false →
    ∃ t : State, exec (.bondWrite b 0) s = .next t ∧ flag t (R.gngBond b) 31 = false) ∧
  (∀ (s : State) (b : Fin 8) (v : Word), locked s = false → bondOk s b v.toNat = true →
    ∃ t : State, exec (.bondWrite b v) s = .next t ∧ flag t (R.gngBond b) 31 = bit v.toNat 31 ∧
      getF t (R.gngBond b) 9 8 = bits v.toNat 9 8 ∧ getF t (R.gngBond b) 5 0 = bits v.toNat 5 0)) ∧
  ((∀ (s : State) (v : Word), locked s = false → (∀ n < 3, gpioMode s n = 0) →
    ∃ t : State, exec (.resourceClaimWrite R.mgtCtl v) s = .next t ∧ (∀ n < 3, flag t R.mgtCtl n = bit v.toNat n) ∧
      sameRegs s t [R.mgtCtl]) ∧
  (∀ (s : State) (v : Word), locked s = false → gpioMode s 14 = 0 → gpioMode s 15 = 0 → mbufOwner s ≠ 1 →
    ∃ t : State, exec (.resourceClaimWrite R.uartCtl v) s = .next t ∧ getF t R.uartCtl 31 28 = bits v.toNat 31 28 ∧
      getF t R.uartCtl 15 0 = (if v.toNat % 2 ^ 16 < 16 then getF s R.uartCtl 15 0 else v.toNat % 2 ^ 16) ∧
      onlyRegs s t [R.uartCtl]) ∧
  (∀ (s : State) (n : Fin 16) (v : Word), locked s = false → v.toNat % 8 ≤ 4 →
    (v.toNat % 8 = 4 → bits v.toNat 31 16 ≠ 0 ∧ timerHeld s (bits v.toNat 7 6) n = false) →
    (v.toNat % 8 ≠ 0 → pinHeld s n = false) →
    ∃ t : State, exec (.resourceClaimWrite (R.gpioCfg n) v) s = .next t ∧ rd t (R.gpioCfg n) = v.toNat ∧
      SMap.find t.mgmt.pulses n =
        (if v.toNat % 8 = 4 then some (s.time.lamp + 5120 * bits v.toNat 31 16) else none) ∧
      sameRegs s t [R.gpioCfg n]))

/-- R556, R563, R564, R567, R572: port set-up words. EN in OFF trains; a retrain compatible with all maintenance that runs
or waits stops the port; a width is asked for; RETIRED cleared trains; a job's levels are set. R588, R589, R598: the
package enters lamp with nothing running, leaves it by WAKE, and takes a maintenance request: it is started, with status
OK, where nothing runs or waits. Completes: portEnableWrite, portRetrain, portWidthRequest, portUnretire, jobLevelWrite,
lampEnter, lampWake, maintenanceRequest. -/
def Obligations.PortAndPowerWrites : Prop :=
  ((∀ (s : State) (p : Port), locked s = false → portState s p = 0 → flag s (R.prtCtl p) 31 = false →
    flag s (R.prtStat p) 25 = false → s.power.lamp = 0 →
    ∃ t : State, exec (.portEnableWrite p 0x80000000) s = .next t ∧ portState t p = 1 ∧ flag t (R.prtCtl p) 31 = true ∧
      sameRegs s t [R.prtCtl p, R.prtStat p]) ∧
  (∀ (s : State) (p : Port), portState s p = 2 → (portOf s p).stopping = none → s.power.running = [] →
    s.power.deferred = [] → getF s (R.prtCtl p) 9 8 ≠ 3 →
    ∃ t : State, exec (.portRetrain p) s = .next t ∧ t.power.running = [(4, p.val)] ∧
      (portOf t p).stopping = some (1, s.time.lamp)) ∧
  (∀ (s : State) (p : Port) (w : BitVec 2), locked s = false → portState s p ≠ 2 → w ≠ 3 → getF s (R.prtCtl p) 0 0 = 0 →
    ∃ t : State, exec (.portWidthRequest p w) s = .next t ∧ getF t (R.prtCtl p) 9 8 = w.toNat ∧ onlyRegs s t [R.prtCtl p]) ∧
  (∀ (s : State) (p : Port), portState s p = 5 → flag s (R.prtStat p) 25 = true → flag s (R.prtCtl p) 31 = true →
    s.power.lamp = 0 →
    ∃ t : State, exec (.portUnretire p) s = .next t ∧ portState t p = 1 ∧ flag t (R.prtStat p) 25 = false ∧
      sameRegs s t [R.prtStat p]) ∧
  (∀ (s : State) (j : Fin 512) (v : Word), locked s = false →
    (∀ k < 8, bits v.toNat (4 * k + 3) (4 * k) ≤ getF s (R.prtLvl 0) 7 4) →
    ∃ t : State, exec (.jobLevelWrite j v) s = .next t ∧ rd t (R.prtJlvl j) = v.toNat ∧ onlyRegs s t [R.prtJlvl j])) ∧
  ((∀ s : State, s.power.lamp = 0 → s.comp.seqs = [] → s.cir.live = [] → s.power.running = [] → s.power.deferred = [] →
    ∃ t : State, exec .lampEnter s = .next t ∧ t.power.lamp = 1 ∧ t.power.since = s.time.lamp ∧
      ∀ g < 1280, getF t (R.pwrIsl g) 29 28 = 2) ∧
  (∀ s : State, s.power.lamp = 1 →
    ∃ t : State, exec .lampWake s = .next t ∧ t.power.lamp = 2 ∧ t.power.since = s.time.lamp ∧
      sameRegs s t [R.pwrCtl]) ∧
  (∀ (s : State) (v : Word), bits v.toNat 18 16 = 3 → s.power.running = [] → s.power.deferred = [] →
    ∃ t : State, exec (.maintenanceRequest v) s = .next t ∧ t.power.running = [(3, bits v.toNat 13 8)] ∧
      getF t R.pwrMreq 3 0 = 0 ∧ t.power.lastReq = some (3, bits v.toNat 13 8) ∧ sameRegs s t [R.pwrMreq]))

/-- R526: a descriptor that the checks of every OP refuse ends with RANGE or DENIED and changes nothing else. R511: a read
made for a descriptor that ends in an error ends it with FAULT and is reported through AER; a doorbell poll that ends in an
error is reported too. Completes: hostAccessError. -/
def Obligations.DescriptorRefusals : Prop :=
  (∀ (s : State) (r : DescRef) (h : HostDesc) (data : List Byte) (c : Instr) (row : HRow),
    (c, row) ∈ [(.hostNop r, .nop), (.launch r, .launch), (.hcopy r data Upsets.none, .hcopy), (.rread r, .rread),
      (.ratomic r, .ratomic), (.msend r data, .msend), (.fctlEnable r, .fctlEnable), (.fctlDisable r, .fctlDisable),
      (.fctlReset r, .fctlReset), (.fbind r, .fbind), (.clownAssign r, .clownAssign), (.clownRelease r, .clownRelease),
      (.granAssign r, .granAssign), (.granRelease r, .granRelease), (.setreg r, .setreg), (.tblwr r data, .tblwr),
      (.tblrd r, .tblrd), (.winLoad r, .winLoad), (.winRemove r, .winRemove), (.winReadRecord r, .winRead),
      (.winReadClear r, .winClear), (.cirOpen r, .cirOpen), (.cirClose r, .cirClose)] →
    descOf s r = some h → rowOf h.bytes = row → mayStart s h = true → headCheck h.fn h.bytes ≠ 0 →
    ∃ t : State, exec c s = .next t ∧ (headCheck h.fn h.bytes = 4 ∨ headCheck h.fn h.bytes = 6) ∧
      descOf t r = some { h with phase := .ended (headCheck h.fn h.bytes) } ∧ sameDescs s t r ∧
      t = { s with host := { s.host with descs := t.host.descs }, ups := t.ups }) ∧
  (∀ (s : State) (fn : Fn), pollDue s fn = true →
    ∃ t : State, exec (.hostAccessError (.poll fn)) s = .next t ∧ t.out = s.out ++ [.aer fn] ∧
      SMap.getD t.host.aer fn 0 = SMap.getD s.host.aer fn 0 + 1 ∧ (fnSt t fn).gen = (fnSt s fn).gen ∧
      (fnSt t fn).sqts = (fnSt s fn).sqts ∧ (fnSt t fn).rings = (fnSt s fn).rings ∧ t.host.descs = s.host.descs ∧
      sameRegs s t [R.hstCntPoll]) ∧
  (∀ (s : State) (r : DescRef) (h : HostDesc), descOf s r = some h → readsNow s h = true →
    ∃ t : State, exec (.hostAccessError (.desc r)) s = .next t ∧ endedWith s t r 9 ∧ t.out = s.out ++ [.aer h.fn] ∧
      SMap.getD t.host.aer h.fn 0 = SMap.getD s.host.aer h.fn 0 + 1 ∧
      t.regs = s.regs ∧ t.comp = s.comp ∧ t.deep = s.deep ∧ t.rem = s.rem ∧ t.outbox = s.outbox)

/-- R518 to R523, R583: a due poll that reads the same GEN and tails doubles the interval up to 64 microseconds, which it is in
the lamp state; a poll that reads a new tail is a hit, resets the interval to 500 ns, and the ring sees the tail. R516,
R524: in the function's turn, descriptors are fetched from SQH on, and SQH is written after the fetch. Completes:
doorbellPoll, descriptorFetch. -/
def Obligations.PollsAndFetches : Prop :=
  ((∀ (s : State) (fn : Fn) (page entries : List Byte), page.length = 64 → entries.length = 256 → pollDue s fn = true →
    (fnSt s fn).gen = some (leAt page 0 4) → (fnSt s fn).sqts = rings8.map (fun r => leAt page (4 + 4 * r) 4) →
    (∀ r x, ringOf s fn r = some x → r < 8 → x.stopped = true ∨ (leAt page (4 + 4 * r) 4 + 2 ^ 32 - x.sqh) % 2 ^ 32 ≤ 2 ^ enSqLog x.entry) →
    ∃ t : State, exec (.doorbellPoll fn page entries) s = .next t ∧
      (fnSt t fn).interval = (if s.power.lamp = 0 then min 64000 (2 * (fnSt s fn).interval) else 64000) ∧
      (fnSt t fn).due = s.time.lamp + (fnSt t fn).interval ∧
      rd t R.hstCntPoll = min (2 ^ 32 - 1) (rd s R.hstCntPoll % 2 ^ 32 + 1) ∧ t.out = s.out ∧ sameRegs s t [R.hstCntPoll]) ∧
  (∀ (s : State) (fn : Fn) (page entries : List Byte) (r : Fin 8) (x : Ring), page.length = 64 → entries.length = 256 →
    pollDue s fn = true → (fnSt s fn).gen = some (leAt page 0 4) →
    (fnSt s fn).sqts ≠ rings8.map (fun k => leAt page (4 + 4 * k) 4) → ringOf s fn r = some x → x.stopped = false →
    ∃ t : State, exec (.doorbellPoll fn page entries) s = .next t ∧ (fnSt t fn).interval = 500 ∧
      (fnSt t fn).due = s.time.lamp + 500 ∧
      ∃ y, ringOf t fn r = some y ∧ y.sqt = leAt page (4 + 4 * r.val) 4 ∧ y.sqh = x.sqh ∧ y.entry = x.entry ∧
        (y.stopped = true ↔ 2 ^ enSqLog x.entry < (leAt page (4 + 4 * r.val) 4 + 2 ^ 32 - x.sqh) % 2 ^ 32))) ∧
  (∀ (s : State) (fn : Fn) (ring : Fin 8) (cqh : Word) (data : List Byte) (x : Ring) (n : Nat), fnState s fn = 1 →
    ringOf s fn ring = some x → cqRoom s fn ring x ≠ 0 → data.length % 64 = 0 → data.length ≠ 0 → data.length ≤ 4096 →
    n = fetchable s fn ring x (data.length / 64) → n ≠ 0 → hostTurn s fn = true →
    ∃ t : State, exec (.descriptorFetch fn ring cqh data) s = .next t ∧
      ringOf t fn ring = some { x with sqh := (x.sqh + n) % 2 ^ 32 } ∧
      t.host.descs.length = s.host.descs.length + n ∧ t.host.descs.take s.host.descs.length = s.host.descs ∧
      (∀ k < n, ∃ h, t.host.descs[s.host.descs.length + k]? = some h ∧ h.idx = (x.sqh + k) % 2 ^ 32 ∧
        h.bytes = (data.drop (64 * k)).take 64 ∧ h.phase = .fetched) ∧
      t.out = s.out ++ hostTlps s fn (pageOf s fn + 0x208 + 4 * ring.val) (leBytes 4 ((x.sqh + n) % 2 ^ 32)) ∧
      t.regs = s.regs ∧ t.comp = s.comp ∧ t.deep = s.deep)

/-- R525, R528: NOP ends with OK and changes nothing else; LAUNCH puts one list at the end of each named core's queue.
Completes: hostNop, launch. -/
def Obligations.NopAndLaunch : Prop :=
  (∀ (s : State) (r : DescRef) (h : HostDesc), startable s r h .nop →
    ∃ t : State, exec (.hostNop r) s = .next t ∧ endedWith s t r 0 ∧ t = { s with host := { s.host with descs := t.host.descs } }) ∧
  (∀ (s : State) (r : DescRef) (h : HostDesc), startable s r h .launch → launchCheck s h.fn h.bytes = 0 →
    leAt h.bytes 24 8 ≠ 0 →
    ∃ t : State, exec (.launch r) s = .next t ∧ worksOn s t r ∧
      (∀ c < 64, (seqOf t (64 * (160 * byteAt h.bytes 16 + byteAt h.bytes 17) + c) h.fn).queue.length =
        (seqOf s (64 * (160 * byteAt h.bytes 16 + byteAt h.bytes 17) + c) h.fn).queue.length +
          b2n (bit (leAt h.bytes 24 8) c)) ∧
      (∀ c < 64, bit (leAt h.bytes 24 8) c = true →
        ∃ l, (seqOf t (64 * (160 * byteAt h.bytes 16 + byteAt h.bytes 17) + c) h.fn).queue.getLast? = some l ∧
          l.fn = h.fn ∧ l.addr = leAt h.bytes 20 4 ∧ l.host = (r.fn.val, r.ring.val, r.idx.toNat)) ∧
      t.regs = s.regs ∧ t.comp.store = s.comp.store ∧ t.deep = s.deep ∧ t.rem = s.rem ∧ t.outbox = s.outbox)

/-- R516, R529: in its function's turn, HCOPY moves its next bytes, at most 4 KiB: it stores the host's bytes at DEV and
leaves every other byte, or it writes DEV's bytes to the host; its tally counts once, after the last byte, and it ends
with OK then. Deep-store targets and live cluster targets, with no error met. Completes: hcopy. -/
def Obligations.HostCopies : Prop :=
  (∀ (s : State) (r : DescRef) (h : HostDesc) (data : List Byte) (a : Nat), copyGoes s r h → byteAt h.bytes 16 = 0 →
    space (leAt h.bytes 24 8) = 2 → a = bits (leAt h.bytes 24 8) 40 0 + h.moved → data.length = turnBytes h →
    ∃ t : State, exec (.hcopy r data Upsets.none) s = .next t ∧ copyWent s t r h ∧ readDeep t a data.length = data ∧
      (∀ x, x < a ∨ a + data.length ≤ x → memRead t.deep.mem x = memRead s.deep.mem x) ∧
      t.comp = s.comp ∧ t.regs = s.regs ∧ (lastTurn h = false → t.rem = s.rem) ∧
      (lastTurn h = true → leAt h.bytes 18 2 ≠ 0xFFFF → leAt h.bytes 18 2 < (tallyRange s h.fn (byteAt h.bytes 17)).2 →
        tallyCount t h.fn (byteAt h.bytes 17) (leAt h.bytes 18 2) =
          (tallyCount s h.fn (byteAt h.bytes 17) (leAt h.bytes 18 2) + 1) % 2 ^ 32)) ∧
  (∀ (s : State) (r : DescRef) (h : HostDesc) (data : List Byte) (g a : Nat), copyGoes s r h → noUe s →
    byteAt h.bytes 16 = 0 → space (leAt h.bytes 24 8) = 1 →
    g = 160 * byteAt h.bytes 17 + bits (leAt h.bytes 24 8) 39 32 → dozing s g = false →
    slotOf s g h.fn = some (resSlot s g) → (slotSt s g).switch = none → a = leAt h.bytes 24 4 + h.moved →
    data.length = turnBytes h →
    ∃ t : State, exec (.hcopy r data Upsets.none) s = .next t ∧ copyWent s t r h ∧ readStore t g a data.length = data ∧
      (∀ x, x < storeKey g a ∨ storeKey g a + data.length ≤ x → memRead t.comp.store x = memRead s.comp.store x) ∧
      t.deep = s.deep ∧ t.regs = s.regs) ∧
  (∀ (s : State) (r : DescRef) (h : HostDesc) (data : List Byte), copyGoes s r h → noUe s → byteAt h.bytes 16 = 1 →
    space (leAt h.bytes 24 8) = 2 →
    ∃ t : State, exec (.hcopy r data Upsets.none) s = .next t ∧ copyWent s t r h ∧
      t.out = s.out ++ hostTlps s h.fn (leAt h.bytes 32 8 + h.moved)
        (readDeep s (bits (leAt h.bytes 24 8) 40 0 + h.moved) (turnBytes h)) ∧
      t.comp = s.comp ∧ t.deep = s.deep ∧ t.regs = s.regs ∧ t.rem = s.rem)

/-- R530, R531, R380, R399: RREAD and RATOMIC send one frame under a free RTAG; MSEND sends its bytes as MILL frames.
Completes: rread, ratomic, msend. -/
def Obligations.HostFrames : Prop :=
  (∀ (s : State) (r : DescRef) (h : HostDesc) (tag : Nat), startable s r h .rread → 1 ≤ leAt h.bytes 32 2 →
    leAt h.bytes 32 2 ≤ 256 → freeTag s = some tag →
    ∃ (t : State) (p : Pkt), exec (.rread r) s = .next t ∧ worksOn s t r ∧ t.outbox = s.outbox ++ [p] ∧
      p.org = .host h.fn h.ring h.idx ∧ p.f.typ = 1 ∧ p.f.dst = leAt h.bytes 16 2 ∧ p.f.offset = leAt h.bytes 20 6 ∧
      p.f.rlen = leAt h.bytes 32 2 ∧ p.f.cid = tag ∧ p.f.job = fnJob s h.fn ∧ p.f.src = fnEp s h.fn ∧
      leAt p.f.payload 0 6 = leAt h.bytes 26 6 ∧ leAt p.f.payload 6 2 = leAt h.bytes 18 2 ∧
      (SMap.find t.rem.requests tag).isSome ∧ t.regs = s.regs ∧ t.comp = s.comp ∧ t.deep = s.deep) ∧
  (∀ (s : State) (r : DescRef) (h : HostDesc) (tag : Nat), startable s r h .ratomic → h.bytes.length = 64 →
    freeTag s = some tag →
    ∃ (t : State) (p : Pkt), exec (.ratomic r) s = .next t ∧ worksOn s t r ∧ t.outbox = s.outbox ++ [p] ∧
      p.org = .host h.fn h.ring h.idx ∧ p.f.typ = 3 ∧ p.f.dst = leAt h.bytes 16 2 ∧ p.f.offset = leAt h.bytes 20 6 ∧
      p.f.aop = byteAt h.bytes 32 % 16 ∧ p.f.asize = byteAt h.bytes 32 / 16 % 4 ∧ p.f.cid = tag ∧
      (p.f.payload.drop 16).take 16 = (h.bytes.drop 40).take 16 ∧
      p.f.len = (if byteAt h.bytes 32 % 16 = 2 then 3 else 2) ∧
      (SMap.find t.rem.requests tag).isSome ∧ t.regs = s.regs ∧ t.comp = s.comp ∧ t.deep = s.deep) ∧
  (∀ (s : State) (r : DescRef) (h : HostDesc) (data : List Byte), startable s r h .msend → leAt h.bytes 32 4 ≠ 0 →
    leAt h.bytes 32 4 % 16 = 0 → leAt h.bytes 28 2 ≤ 4095 → data.length = leAt h.bytes 32 4 →
    ∃ (t : State) (l : List Pkt), exec (.msend r data) s = .next t ∧ worksOn s t r ∧ t.outbox = s.outbox ++ l ∧
      l.flatMap (fun p => p.f.payload) = data ∧
      (∀ p ∈ l, p.org = .host h.fn h.ring h.idx ∧ p.f.typ = 5 ∧ p.f.dst = leAt h.bytes 16 2 ∧
        p.f.rank = leAt h.bytes 28 2 ∧ p.f.stream = byteAt h.bytes 26 ∧ p.f.tally = leAt h.bytes 18 2 ∧
        p.f.payload.length ≤ 4096) ∧
      t.regs = s.regs ∧ t.comp = s.comp ∧ t.deep = s.deep)

/-- R512, R533, R542: FCTL enables, disables and resets a function; FBIND binds one that is DISABLED. Completes: fctlEnable,
fctlDisable, fctlReset, fbind. -/
def Obligations.FunctionControl : Prop :=
  (∀ (s : State) (r : DescRef) (h : HostDesc) (fn : Nat), startable s r h .fctlEnable → fn = leAt h.bytes 16 2 → 1 ≤ fn →
    fn ≤ 512 → fnState s fn = 0 → fnBound s fn = true → bit (rd64 s (R.vfDb fn)) 0 = true → fn ≤ s.host.numVfs →
    ∃ t : State, exec (.fctlEnable r) s = .next t ∧ endedWith s t r 0 ∧ fnState t fn = 1 ∧ flag t (R.vfStatus fn) 2 = false ∧
      (fnSt t fn).interval = 500 ∧ (fnSt t fn).gen = none ∧ sameRegs s t [R.vfStatus fn] ∧ t.comp = s.comp ∧
      t.deep = s.deep) ∧
  (∀ (s : State) (r : DescRef) (h : HostDesc) (fn : Nat), startable s r h .fctlDisable → fn = leAt h.bytes 16 2 →
    1 ≤ fn → fn ≤ 512 → fnState s fn = 1 →
    ∃ t : State, exec (.fctlDisable r) s = .next t ∧ fnState t fn = 2 ∧ (fnSt t fn).teardown = .draining s.time.lamp ∧
      (fnSt t fn).rings = []) ∧
  (∀ (s : State) (r : DescRef) (h : HostDesc) (fn : Nat), startable s r h .fctlReset → fn = leAt h.bytes 16 2 →
    1 ≤ fn → fn ≤ 512 → fnState s fn = 1 →
    ∃ t : State, exec (.fctlReset r) s = .next t ∧ fnState t fn = 2 ∧ (fnSt t fn).teardown = .draining s.time.lamp ∧
      (fnSt t fn).rings = []) ∧
  (∀ (s : State) (r : DescRef) (h : HostDesc) (fn : Nat), startable s r h .fbind → fn = leAt h.bytes 16 2 →
    bindCheck s h.bytes = 0 →
    ∃ t : State, exec (.fbind r) s = .next t ∧ endedWith s t r 0 ∧ fnBound t fn = true ∧ fnJob t fn = leAt h.bytes 18 2 ∧
      fnEp t fn = leAt h.bytes 20 2 ∧ bits (bindOf t fn) 43 32 = leAt h.bytes 22 2 % 4096 ∧
      bit (bindOf t fn) 44 = bit (leAt h.bytes 22 2) 15 ∧ pageOf t fn = leAt h.bytes 56 8 ∧
      (∀ d < 8, tallyRange t fn d = bindTally h.bytes d) ∧ t.comp = s.comp ∧ t.deep = s.deep)

/-- R189, R231, R532: slots and granules are assigned and released where their checks pass. R532: SETREG writes the masked
value whatever the lock says; TBLWR loads route entries in order; TBLRD writes the entries read to the host. Completes:
clownAssign, clownRelease, granAssign, granRelease, setreg, tblwr, tblrd. -/
def Obligations.AdminDescriptors : Prop :=
  ((∀ (s : State) (r : DescRef) (h : HostDesc) (g sl : Nat), startable s r h .clownAssign → byteAt h.bytes 16 ≤ 7 →
    byteAt h.bytes 17 < 160 → g = 160 * byteAt h.bytes 16 + byteAt h.bytes 17 → sl = byteAt h.bytes 18 → sl ≤ 3 →
    leAt h.bytes 20 2 ≤ 512 →
    clownCheck s g (setBits (setBits (clown s g) (fnLo sl + 9) (fnLo sl) (leAt h.bytes 20 2)) (48 + sl) (48 + sl) 1) = 0 →
    ∃ t : State, exec (.clownAssign r) s = .next t ∧ endedWith s t r 0 ∧ slotValid t g sl = true ∧
      slotFn t g sl = leAt h.bytes 20 2 ∧ (∀ k < 4, k ≠ sl → slotValid t g k = slotValid s g k)) ∧
  (∀ (s : State) (r : DescRef) (h : HostDesc) (g sl : Nat), startable s r h .clownRelease → byteAt h.bytes 16 ≤ 7 →
    byteAt h.bytes 17 < 160 → g = 160 * byteAt h.bytes 16 + byteAt h.bytes 17 → sl = byteAt h.bytes 18 → sl ≤ 3 →
    clownCheck s g (setBits (clown s g) (48 + sl) (48 + sl) 0) = 0 →
    ∃ t : State, exec (.clownRelease r) s = .next t ∧ endedWith s t r 0 ∧ slotValid t g sl = false ∧
      (∀ k < 4, k ≠ sl → slotValid t g k = slotValid s g k)) ∧
  (∀ (s : State) (r : DescRef) (h : HostDesc) (g : Nat), startable s r h .granAssign → g = leAt h.bytes 16 2 → g < 6144 →
    leAt h.bytes 20 2 ≤ 512 → granuleCheck s g (leAt h.bytes 20 2) true = 0 →
    ∃ t : State, exec (.granAssign r) s = .next t ∧ endedWith s t r 0 ∧ ownsGranule t (leAt h.bytes 20 2) g = true ∧
      flag t (R.dstOwn g) 30 = flag s (R.dstOwn g) 30 ∧ sameRegs s t [R.dstOwn g] ∧ t.deep = s.deep ∧ t.comp = s.comp) ∧
  (∀ (s : State) (r : DescRef) (h : HostDesc) (g : Nat), startable s r h .granRelease → g = leAt h.bytes 16 2 → g < 6144 →
    ownsGranule s (leAt h.bytes 20 2) g = true → granuleCheck s g (leAt h.bytes 20 2) false = 0 →
    ∃ t : State, exec (.granRelease r) s = .next t ∧ endedWith s t r 0 ∧ flag t (R.dstOwn g) 31 = false ∧
      getF t (R.dstOwn g) 9 0 = getF s (R.dstOwn g) 9 0 ∧ sameRegs s t [R.dstOwn g] ∧ t.deep = s.deep ∧
      t.comp = s.comp)) ∧
  ((∀ (s : State) (r : DescRef) (h : HostDesc), startable s r h .setreg → leAt h.bytes 16 4 = R.gngUep →
    ∃ t : State, exec (.setreg r) s = .next t ∧ endedWith s t r 0 ∧
      getF t R.gngUep 15 0 = ((getF s R.gngUep 15 0 &&& (leAt h.bytes 24 4 ^^^ 0xFFFFFFFF)) |||
        (leAt h.bytes 20 4 &&& leAt h.bytes 24 4)) % 2 ^ 16 ∧ sameRegs s t [R.gngUep]) ∧
  (∀ (s : State) (r : DescRef) (h : HostDesc) (data : List Byte), startable s r h .tblwr → h.result = 0 →
    byteAt h.bytes 16 = 0 → byteAt h.bytes 17 < 2 → byteAt h.bytes 17 ≠ curEpoch s % 2 → flag s R.fabEpoch 4 = false →
    flag s R.fabEpoch 8 = false → fabDrain s = 0 → 1 ≤ leAt h.bytes 24 4 → leAt h.bytes 24 4 ≤ 4096 →
    leAt h.bytes 20 4 + leAt h.bytes 24 4 ≤ 65536 → data.length = 8 * leAt h.bytes 24 4 →
    (∀ k < leAt h.bytes 24 4, routeBad (leAt data (8 * k) 8) = false) →
    ∃ t : State, exec (.tblwr r data) s = .next t ∧ endedWith s t r 0 ∧
      (∀ g, descOf t r = some g → g.result = leAt h.bytes 24 4) ∧
      (∀ k < leAt h.bytes 24 4, routeOf t (byteAt h.bytes 17) (leAt h.bytes 20 4 + k) = leAt data (8 * k) 8) ∧
      t.regs = s.regs ∧ t.comp = s.comp ∧ t.deep = s.deep) ∧
  (∀ (s : State) (r : DescRef) (h : HostDesc) (es : List (List Byte)), startable s r h .tblrd →
    tblSize (byteAt h.bytes 16) ≠ 0 → 1 ≤ leAt h.bytes 24 4 → leAt h.bytes 24 4 ≤ 4096 →
    readEntries s (byteAt h.bytes 16) (byteAt h.bytes 17) (leAt h.bytes 20 4) (leAt h.bytes 24 4) = (es, 0) →
    ∃ t : State, exec (.tblrd r) s = .next t ∧ endedWith s t r 0 ∧
      (∀ g, descOf t r = some g → g.result = leAt h.bytes 24 4) ∧
      t.out = s.out ++ hostTlps s h.fn (leAt h.bytes 32 8) es.flatten ∧
      t.regs = s.regs ∧ t.comp = s.comp ∧ t.deep = s.deep))

/-- R385, R386, R389: windows are loaded and removed, and the refusal record is read and cleared. R663: an open that
passes its checks makes its CID PENDING; a close of a CLOSED CID ends with OK at once; another close stops binding. Completes:
winLoad, winRemove, winReadRecord, winReadClear, cirOpen, cirClose. -/
def Obligations.WindowAndCircuitDescriptors : Prop :=
  ((∀ (s : State) (r : DescRef) (h : HostDesc), startable s r h .winLoad → leAt h.bytes 16 2 < 1024 →
    windowCheck s (leAt h.bytes 16 2) (h.bytes.drop 32) = 0 →
    ∃ t : State, exec (.winLoad r) s = .next t ∧ endedWith s t r 0 ∧
      SMap.find t.rem.windows (leAt h.bytes 16 2) = some (parseWindow (h.bytes.drop 32)) ∧
      (∀ k, k ≠ leAt h.bytes 16 2 → SMap.find t.rem.windows k = SMap.find s.rem.windows k) ∧
      t.regs = s.regs ∧ t.comp = s.comp ∧ t.deep = s.deep) ∧
  (∀ (s : State) (r : DescRef) (h : HostDesc), startable s r h .winRemove → leAt h.bytes 16 2 < 1024 →
    ∃ t : State, exec (.winRemove r) s = .next t ∧ SMap.find t.rem.windows (leAt h.bytes 16 2) = none ∧
      (∀ k, k ≠ leAt h.bytes 16 2 → SMap.find t.rem.windows k = SMap.find s.rem.windows k) ∧
      (translated s (leAt h.bytes 16 2) = [] → endedWith s t r 0) ∧
      t.regs = s.regs ∧ t.comp = s.comp ∧ t.deep = s.deep) ∧
  (∀ (s : State) (r : DescRef) (h : HostDesc), startable s r h .winRead → leAt h.bytes 16 2 < 1024 →
    ∃ t : State, exec (.winReadRecord r) s = .next t ∧ endedWith s t r 0 ∧
      t.out = s.out ++ hostTlps s h.fn (leAt h.bytes 24 8) (refusalRecord s) ∧ t.rem = s.rem ∧ t.regs = s.regs ∧
      t.comp = s.comp ∧ t.deep = s.deep) ∧
  (∀ (s : State) (r : DescRef) (h : HostDesc), startable s r h .winClear → leAt h.bytes 16 2 < 1024 →
    ∃ t : State, exec (.winReadClear r) s = .next t ∧ endedWith s t r 0 ∧
      t.out = s.out ++ hostTlps s h.fn (leAt h.bytes 24 8) (refusalRecord s) ∧ t.rem = { s.rem with refCounts := [] } ∧
      t.regs = s.regs ∧ t.comp = s.comp ∧ t.deep = s.deep)) ∧
  ((∀ (s : State) (r : DescRef) (h : HostDesc), startable s r h .cirOpen → sourceEntry s (leAt h.bytes 16 2) = true →
    cirState s (leAt h.bytes 16 2) = 0 → s.cir.drain = none →
    cirReady s (cirEport (cirNow s (leAt h.bytes 16 2))) = true →
    ∃ t : State, exec (.cirOpen r) s = .next t ∧ worksOn s t r ∧ cirState t (leAt h.bytes 16 2) = 1 ∧
      t.cir.opens = s.cir.opens ++ [⟨h.fn, h.ring, h.idx, leAt h.bytes 16 2, s.time.lamp⟩] ∧ t.comp = s.comp ∧
      t.deep = s.deep) ∧
  (∀ (s : State) (r : DescRef) (h : HostDesc), startable s r h .cirClose → sourceEntry s (leAt h.bytes 16 2) = true →
    cirState s (leAt h.bytes 16 2) = 0 →
    ∃ t : State, exec (.cirClose r) s = .next t ∧ endedWith s t r 0 ∧ t = { s with host := { s.host with descs := t.host.descs } }) ∧
  (∀ (s : State) (r : DescRef) (h : HostDesc), startable s r h .cirClose → sourceEntry s (leAt h.bytes 16 2) = true →
    cirState s (leAt h.bytes 16 2) ≠ 0 →
    ∃ t : State, exec (.cirClose r) s = .next t ∧ worksOn s t r ∧ memNat (leAt h.bytes 16 2) t.cir.closing = true ∧
      t.cir.closes = s.cir.closes ++ [⟨h.fn, h.ring, h.idx, leAt h.bytes 16 2, s.time.lamp⟩] ∧
      t.regs = s.regs ∧ t.comp = s.comp ∧ t.deep = s.deep))

/-- R534, R535, Table HST-9: a descriptor that is done gives one 32-byte record at its place in the completion ring, with
its TAG, index, status, ring and phase; without IRQ no vector counts. R536: MTIME after the first counted completion a
vector sends its message, or sets its pending bit while it is masked; a vector that is unmasked sends its pending message.
Completes: hostDescriptorComplete, msixMtimeExpire, msixUnmask. -/
def Obligations.CompletionsAndInterrupts : Prop :=
  (∀ (s : State) (r : DescRef) (h : HostDesc) (x : Ring) (st didx : Nat), descOf s r = some h →
    doneStatus s h = some (st, didx) → ringOf s h.fn h.ring = some x → h.ring < 8 → st < 16 → didx < 65536 →
    bit (byteAt h.bytes 1) 0 = false →
    ∃ t rec', exec (.hostDescriptorComplete r) s = .next t ∧
      t.out = s.out ++ hostTlps s h.fn (enCq x.entry + 32 * (x.done % 2 ^ enCqLog x.entry)) rec' ∧ rec'.length = 32 ∧
      leAt rec' 0 8 = leAt h.bytes 4 8 ∧ leAt rec' 8 4 = h.idx % 2 ^ 32 ∧ byteAt rec' 12 % 16 = st ∧
      byteAt rec' 12 / 16 % 8 = h.ring ∧ byteAt rec' 12 / 128 = (x.done / 2 ^ enCqLog x.entry + 1) % 2 ∧
      leAt rec' 14 2 = didx ∧ leAt rec' 24 8 = h.result % 2 ^ 64 ∧
      ringOf t h.fn h.ring = some { x with done := (x.done + 1) % 2 ^ 32 } ∧ descOf t r = none ∧ sameDescs s t r ∧
      t.host.vectors = s.host.vectors ∧ t.regs = s.regs ∧ t.comp = s.comp ∧ t.deep = s.deep) ∧
  ((∀ (s : State) (fn : Fn) (v : Fin 64), (vecOf s fn v).count ≠ 0 → (vecOf s fn v).mtime ≠ 0 →
    (vecOf s fn v).first + 1000 * (vecOf s fn v).mtime ≤ s.time.lamp →
    ∃ t : State, exec (.msixMtimeExpire fn v) s = .next t ∧ (vecOf t fn v).count = 0 ∧
      (if (vecOf s fn v).masked then (vecOf t fn v).pending = true ∧ t.out = s.out
        else t.out = s.out ++ [.msix fn v (vecOf s fn v).addr (vecOf s fn v).data]) ∧
      t = { s with host := { s.host with vectors := t.host.vectors }, out := t.out }) ∧
  (∀ (s : State) (fn : Fn) (v : Fin 64), fn.val = 0 ∨ v.val < 8 →
    ∃ t : State, exec (.msixUnmask fn v) s = .next t ∧ (vecOf t fn v).masked = false ∧ (vecOf t fn v).pending = false ∧
      t.out = s.out ++ (if (vecOf s fn v).pending then [.msix fn v (vecOf s fn v).addr (vecOf s fn v).data] else []) ∧
      t = { s with host := { s.host with vectors := t.host.vectors }, out := t.out }))

/-- R542, Table HST-11: enable, disable, reset, FLR and VF Enable cleared. R538, Table HST-10, R541: with no cluster held,
the drain ends DRAINT microseconds after it began with no admitted frame left: windows and tallies of the function go;
then TEARDOWN_DONE is 1 and the function is DISABLED. A drain bell is logged. Completes: vfEnable, vfDisable, vfReset, flr,
vfEnableClear, teardownDrainEnd, teardownDone, drainBell. -/
def Obligations.TenantLifecycle : Prop :=
  ((∀ (s : State) (fn : Fn), locked s = false → fnState s fn = 0 → fnBound s fn = true →
    bit (rd64 s (R.vfDb fn)) 0 = true → fn.val ≤ s.host.numVfs →
    ∃ t : State, exec (.vfEnable fn) s = .next t ∧ fnState t fn = 1 ∧ flag t (R.vfStatus fn) 2 = false ∧
      (fnSt t fn).interval = 500 ∧ (fnSt t fn).due = s.time.lamp ∧ (fnSt t fn).gen = none ∧
      sameRegs s t [R.vfStatus fn] ∧ t.comp = s.comp ∧ t.deep = s.deep ∧ t.rem = s.rem) ∧
  (∀ (s : State) (fn : Fn), locked s = false → fnState s fn = 1 →
    ∃ t : State, exec (.vfDisable fn) s = .next t ∧ fnState t fn = 2 ∧ (fnSt t fn).teardown = .draining s.time.lamp ∧
      sameRegs s t [R.vfStatus fn] ∧ t.deep = s.deep ∧ t.comp.store = s.comp.store) ∧
  (∀ (s : State) (fn : Fn), locked s = false → fnState s fn = 1 →
    ∃ t : State, exec (.vfReset fn) s = .next t ∧ fnState t fn = 2 ∧ (fnSt t fn).teardown = .draining s.time.lamp ∧
      sameRegs s t [R.vfStatus fn] ∧ t.deep = s.deep ∧ t.comp.store = s.comp.store) ∧
  (∀ (s : State) (fn : Fn), fnState s fn = 1 →
    ∃ t : State, exec (.flr fn) s = .next t ∧ fnState t fn = 2 ∧ (∀ v < 64, vecOf t fn v = Vector.start) ∧
      (fn.val ≠ 0 → sameRegs s t [R.vfStatus fn])) ∧
  (∀ (s : State) (fn : Fn), fn.val ≠ 0 → fnState s fn = 1 →
    ∃ t : State, exec .vfEnableClear s = .next t ∧ fnState t fn = 2 ∧ fnState t 0 = fnState s 0 ∧
      t.host.vfEnable = false)) ∧
  ((∀ (s : State) (fn : Fn) (t0 : Nat), fnState s fn = 2 → (fnSt s fn).teardown = .draining t0 →
    t0 + 1000 * getF s R.hstDrain 9 0 ≤ s.time.lamp → holdsFrames s fn = false → (∀ g < 1280, holds s g fn = false) →
    ∃ t : State, exec (.teardownDrainEnd fn) s = .next t ∧ (fnSt t fn).teardown = .zeroing [] ∧ fnState t fn = 2 ∧
      (∀ e ∈ t.rem.windows, e.2.fn ≠ fn.val) ∧ t.regs = s.regs ∧ t.comp = s.comp ∧ t.deep = s.deep ∧
      ∀ d < 8, ∀ i < (tallyRange s fn d).2, i < 16384 - (tallyRange s fn d).1 → (∀ e ∈ s.rem.tallies, e.1 < 131072) →
        tallyCount t fn d i = 0) ∧
  (∀ (s : State) (fn : Fn), (fnSt s fn).teardown = .zeroing [] →
    ∃ t : State, exec (.teardownDone fn) s = .next t ∧ fnState t fn = 0 ∧ flag t (R.vfStatus fn) 2 = true ∧
      (∀ c < 2, (polOf t (2 * fn.val + c)).tc = 0 ∧ (polOf t (2 * fn.val + c)).tp = 0 ∧
        (shpOf t (2 * fn.val + c)).tok = 0) ∧ sameRegs s t [R.vfStatus fn] ∧ t.comp = s.comp ∧ t.deep = s.deep) ∧
  (∀ (s : State) (p : Pkt) (rest : List Pkt), s.inbox = p :: rest → p.f.typ = 6 → p.f.code = 8 → p.f.src < 65536 →
    ∃ t : State, exec .drainBell s = .next t ∧ t.inbox = rest ∧ flag t R.hstStat 2 = true ∧
      getF t R.hstDlog 15 0 = p.f.src ∧ getF t R.hstDlog 27 16 = p.f.arg % 4096 ∧ flag t R.hstDlog 31 = true ∧
      t = { s with inbox := rest, regs := t.regs } ∧ sameRegs s t [R.hstDlog, R.hstStat]))

/-- R382, R394, R405: a WRITE that passes every check through a window onto a live cluster or deep store is written whole
and counted once; every other byte stays. R388, R398, R401: a READ that passes is answered with one RDATA that holds the
lines asked for; one that is refused is answered with the refusal's status; an ATOMIC that passes joins its unit. Completes:
remoteWrite, remoteRead, remoteAtomic. -/
def Obligations.RemoteFrames : Prop :=
  (∀ (s : State) (q : Fin 9) (e : QEntry) (w : Nat) (tg : Target), noUe s → (arrivals s q).head? = some e → e.f.typ = 0 →
    e.f.mc = false → judge s e = .passed w [tg] → mustWait s e [tg] = false →
    (tg.deep = true →
      ∃ t : State, exec (.remoteWrite ⟨q, Upsets.none⟩) s = .next t ∧ readDeep t tg.addr e.f.payload.length = e.f.payload ∧
        (∀ a, a < tg.addr ∨ tg.addr + e.f.payload.length ≤ a → memRead t.deep.mem a = memRead s.deep.mem a) ∧
        t.comp = s.comp ∧ t.outbox = s.outbox ∧
        (e.f.tally < (tallyRange s tg.fn tg.die).2 → e.f.tally ≠ 0xFFFF → tallyCount t tg.fn tg.die e.f.tally =
          (tallyCount s tg.fn tg.die e.f.tally + e.f.tinc) % 2 ^ 32)) ∧
    (∀ i, tg.deep = false → tg.clus = [i] → (∀ a, isLive s (160 * tg.die + i) tg.fn a = true) →
      ∃ t : State, exec (.remoteWrite ⟨q, Upsets.none⟩) s = .next t ∧
        readStore t (160 * tg.die + i) tg.addr e.f.payload.length = e.f.payload ∧
        (∀ a, a < storeKey (160 * tg.die + i) tg.addr ∨
          storeKey (160 * tg.die + i) tg.addr + e.f.payload.length ≤ a →
          memRead t.comp.store a = memRead s.comp.store a) ∧ t.deep = s.deep ∧ t.outbox = s.outbox ∧
        (e.f.tally < (tallyRange s tg.fn tg.die).2 → e.f.tally ≠ 0xFFFF → tallyCount t tg.fn tg.die e.f.tally =
          (tallyCount s tg.fn tg.die e.f.tally + e.f.tinc) % 2 ^ 32))) ∧
  ((∀ (s : State) (q : Fin 9) (e : QEntry) (w : Nat) (tg : Target), noUe s → (arrivals s q).head? = some e →
    e.f.typ = 1 → receiverCheck s e.f = .passed w [tg] → mustWait s e [tg] = false → tg.deep = true →
    ∃ (t : State) (p : Pkt), exec (.remoteRead q Upsets.none) s = .next t ∧ t.outbox = s.outbox ++ [p] ∧ p.org = .reply tg.die ∧
      p.f.typ = 2 ∧ p.f.status = 0 ∧ p.f.cid = e.f.cid ∧ p.f.dst = e.f.src ∧ p.f.src = e.f.dst ∧ p.f.job = e.f.job ∧
      p.f.payload = readDeep s tg.addr (e.f.rlen * 16) ∧ p.f.offset = leAt e.f.payload 0 6 ∧
      p.f.tally = leAt e.f.payload 6 2 ∧ t.comp = s.comp ∧ t.deep = s.deep ∧ t.rem = s.rem) ∧
  (∀ (s : State) (q : Fin 9) (e : QEntry) (st why : Nat), (arrivals s q).head? = some e → e.f.typ = 1 →
    receiverCheck s e.f = .refused st why →
    ∃ (t : State) (p : Pkt), exec (.remoteRead q Upsets.none) s = .next t ∧ t.outbox = s.outbox ++ [p] ∧ p.f.typ = 2 ∧ p.f.status = st ∧
      p.f.len = 1 ∧ p.f.payload = zeros 16 ∧
      SMap.getD t.rem.refCounts why 0 = satAdd 32 (SMap.getD s.rem.refCounts why 0) 1 ∧ t.comp = s.comp ∧
      t.deep = s.deep ∧ t.rem.tallies = s.rem.tallies) ∧
  (∀ (s : State) (q : Fin 9) (e : QEntry) (w : Nat) (tg : Target), (arrivals s q).head? = some e → e.f.typ = 3 →
    receiverCheck s e.f = .passed w [tg] → tg.deep = true → tg.clus = [] → aheadQueued s e = false →
    aheadMesh s e.f 0 [] = false →
    ∃ t a, exec (.remoteAtomic q) s = .next t ∧ t.rem.atomics = s.rem.atomics ++ [a] ∧ a.f = e.f ∧ a.addr = tg.addr ∧
      a.deep = true ∧ t.comp = s.comp ∧ t.deep = s.deep ∧ t.outbox = s.outbox))

/-- R401, Table MEM-4: the first atomic of a deep-store unit reads the old value, writes the new one and answers with the
old one. R399, R400: a reply that matches its request and lands ends it with OK, one with another status ends it with that
status and writes nothing; one that matches none is counted as LATE;
a request with no reply within 1 ms ends with TIMEOUT. Completes: atomicIntegerAdd, atomicSwap, atomicCompareSwap,
atomicFloatingAdd, rdataArrive, atrespArrive, requestTimeout. -/
def Obligations.AtomicsAndReplies : Prop :=
  (∀ (s : State) (a : AtomicOp) (rest : List AtomicOp), noUe s → s.rem.atomics = a :: rest → a.deep = true →
    a.f.asize < 2 → a.f.payload.length = 48 →
    (a.f.aop = 0 → ∃ (t : State) (p : Pkt), exec (.atomicIntegerAdd Upsets.none) s = .next t ∧
      leNat (readDeep t a.addr (4 + 4 * a.f.asize)) =
        (leNat (readDeep s a.addr (4 + 4 * a.f.asize)) + a.operand) % 2 ^ (32 + 32 * a.f.asize) ∧
      t.outbox = s.outbox ++ [p] ∧ p.f.typ = 4 ∧ p.f.status = 0 ∧
      leNat p.f.payload = leNat (readDeep s a.addr (4 + 4 * a.f.asize)) ∧ t.rem.atomics = rest ∧ t.comp = s.comp) ∧
    (a.f.aop = 1 → ∃ (t : State) (p : Pkt), exec (.atomicSwap Upsets.none) s = .next t ∧
      leNat (readDeep t a.addr (4 + 4 * a.f.asize)) = a.operand ∧
      t.outbox = s.outbox ++ [p] ∧ p.f.typ = 4 ∧ p.f.status = 0 ∧
      leNat p.f.payload = leNat (readDeep s a.addr (4 + 4 * a.f.asize)) ∧ t.rem.atomics = rest ∧ t.comp = s.comp) ∧
    (a.f.aop = 2 → ∃ (t : State) (p : Pkt), exec (.atomicCompareSwap Upsets.none) s = .next t ∧
      leNat (readDeep t a.addr (4 + 4 * a.f.asize)) =
        (if leNat (readDeep s a.addr (4 + 4 * a.f.asize)) = a.compare then a.operand
          else leNat (readDeep s a.addr (4 + 4 * a.f.asize))) ∧
      t.outbox = s.outbox ++ [p] ∧ p.f.typ = 4 ∧ p.f.status = 0 ∧
      leNat p.f.payload = leNat (readDeep s a.addr (4 + 4 * a.f.asize)) ∧ t.rem.atomics = rest ∧ t.comp = s.comp) ∧
    (a.f.aop = 3 → a.f.asize = 0 → ∃ (t : State) (p : Pkt), exec (.atomicFloatingAdd Upsets.none) s = .next t ∧
      leNat (readDeep t a.addr 4) =
        (floatSum (flag s (R.cpxFpmode a.die) 0) (leNat (readDeep s a.addr 4)) a.operand).1 % 2 ^ 32 ∧
      flag t R.glbStatus 0 = true ∧ t.outbox = s.outbox ++ [p] ∧ p.f.typ = 4 ∧ p.f.status = 0 ∧
      leNat p.f.payload = leNat (readDeep s a.addr 4) ∧ t.rem.atomics = rest ∧ t.comp = s.comp)) ∧
  ((∀ (s : State) (q : Fin 9) (e : QEntry), (arrivals s q).head? = some e → SMap.find s.rem.requests e.f.cid = none →
    (e.f.typ = 2 → ∃ t : State, exec (.rdataArrive ⟨q, Upsets.none⟩) s = .next t ∧
      SMap.getD t.rem.refCounts 9 0 = satAdd 32 (SMap.getD s.rem.refCounts 9 0) 1 ∧ t.comp = s.comp ∧ t.deep = s.deep ∧
      t.rem.requests = s.rem.requests) ∧
    (e.f.typ = 4 → ∃ t : State, exec (.atrespArrive ⟨q, Upsets.none⟩) s = .next t ∧
      SMap.getD t.rem.refCounts 9 0 = satAdd 32 (SMap.getD s.rem.refCounts 9 0) 1 ∧ t.comp = s.comp ∧ t.deep = s.deep ∧
      t.rem.requests = s.rem.requests)) ∧
  (∀ (s : State) (q : Fin 9) (e : QEntry) (r : Request) (w : Nat) (tg : Target), (arrivals s q).head? = some e →
    SMap.find s.rem.requests e.f.cid = some r → r.dst = e.f.src → r.job = e.f.job → e.f.status = 0 →
    receiverCheck s e.f = .passed w [tg] → targetDozes s [tg] = false → tg.deep = true →
    (e.f.typ = 2 → ∃ t : State, exec (.rdataArrive ⟨q, Upsets.none⟩) s = .next t ∧ SMap.find t.rem.requests e.f.cid = none ∧
      readDeep t tg.addr e.f.payload.length = e.f.payload ∧
      ∀ h ∈ t.host.descs, h.fn = r.fn → h.ring = r.ring → h.idx = r.idx → h.phase = .ended 0) ∧
    (e.f.typ = 4 → ∃ t : State, exec (.atrespArrive ⟨q, Upsets.none⟩) s = .next t ∧ SMap.find t.rem.requests e.f.cid = none ∧
      readDeep t tg.addr e.f.payload.length = e.f.payload ∧
      ∀ h ∈ t.host.descs, h.fn = r.fn → h.ring = r.ring → h.idx = r.idx →
        h.phase = .ended 0 ∧ h.result = leAt e.f.payload 0 8)) ∧
  (∀ (s : State) (q : Fin 9) (e : QEntry) (r : Request) (c : Instr), (arrivals s q).head? = some e →
    SMap.find s.rem.requests e.f.cid = some r → r.dst = e.f.src → r.job = e.f.job → e.f.status ≠ 0 → e.f.status ≤ 9 →
    (c, e.f.typ) ∈ [(.rdataArrive ⟨q, Upsets.none⟩, 2), (.atrespArrive ⟨q, Upsets.none⟩, 4)] →
    ∃ t : State, exec c s = .next t ∧ SMap.find t.rem.requests e.f.cid = none ∧ t.rem.tallies = s.rem.tallies ∧
      t.comp = s.comp ∧ t.deep = s.deep ∧
      ∀ h ∈ t.host.descs, h.fn = r.fn → h.ring = r.ring → h.idx = r.idx → h.phase = .ended e.f.status) ∧
  (∀ (s : State) (tag : BitVec 12) (r : Request) (t0 : Nat), SMap.find s.rem.requests tag.toNat = some r →
    r.admitted = some t0 → t0 + 1000000 ≤ s.time.lamp →
    ∃ t : State, exec (.requestTimeout tag) s = .next t ∧ SMap.find t.rem.requests tag.toNat = none ∧
      (∀ h ∈ t.host.descs, h.fn = r.fn → h.ring = r.ring → h.idx = r.idx → h.phase = .ended 5) ∧
      t.regs = s.regs ∧ t.comp = s.comp ∧ t.deep = s.deep))

/-- R317 to R321, R663: what circuit bells do. A REQUEST refused changes no circuit; a GRANT opens a PENDING CID; a REFUSE
or a TEARDOWN closes it; a source's open ends. Completes: circuitRequest, circuitGrant, circuitRefuse, circuitTeardown. -/
def Obligations.CircuitBells : Prop :=
  (∀ (s : State) (f : Frame) (p : Nat) (t0 : State), takeCirBell s 2 = some (f, p, t0) →
    cirValid (cirNow t0 (bellCid f)) = true → cirRole (cirNow t0 (bellCid f)) = 2 →
    cirIport (cirNow t0 (bellCid f)) = p → cirState t0 (bellCid f) = 0 → t0.cir.drain = none →
    flag t0 (R.cirPort p) 31 = true →
    ∃ t : State, exec .circuitRequest s = .next t ∧ cirState t (bellCid f) = 2 ∧ t.comp = s.comp ∧ t.deep = s.deep) ∧
  (∀ (s : State) (f : Frame) (p : Nat) (t0 : State), takeCirBell s 3 = some (f, p, t0) → cirState t0 (bellCid f) = 1 →
    cirRole (cirNow t0 (bellCid f)) ≠ 0 →
    ∃ t : State, exec .circuitGrant s = .next t ∧ cirState t (bellCid f) = 2 ∧
      (∀ w ∈ t.cir.opens, w.cid ≠ bellCid f) ∧ t.regs = s.regs ∧ t.comp = s.comp ∧ t.deep = s.deep) ∧
  (∀ (s : State) (f : Frame) (p : Nat) (t0 : State), takeCirBell s 4 = some (f, p, t0) → cirState t0 (bellCid f) ≠ 0 →
    srcqOf t0 (bellCid f) = [] → cirRole (cirNow t0 (bellCid f)) ≠ 0 →
    ∃ t : State, exec .circuitRefuse s = .next t ∧ cirState t (bellCid f) = 0 ∧
      bits (SMap.getD t.cir.live (bellCid f) 0) 7 4 = bellStatus f ∧ t.comp = s.comp ∧ t.deep = s.deep) ∧
  (∀ (s : State) (f : Frame) (p : Nat) (t0 : State), takeCirBell s 5 = some (f, p, t0) →
    srcqOf t0 (bellCid f) = [] → cirValid (cirNow t0 (bellCid f)) = true → cirRole (cirNow t0 (bellCid f)) = 0 →
    cirIport (cirNow t0 (bellCid f)) = p →
    ∃ t : State, exec .circuitTeardown s = .next t ∧ cirState t (bellCid f) = 0 ∧
      t.cir.fwd = t0.cir.fwd ++ [⟨bellCid f, cirEport (cirNow t0 (bellCid f)), bellStatus f, nowNs s + 216⟩] ∧
      t.comp = s.comp ∧ t.deep = s.deep)

/-- R319, R320, R663: a TEARDOWN that is due is sent on; an open with no answer within TMO ends its CID CLOSED; the close
of a CID with no bound frame left closes it. R333 to R335: a shift-change bell sets T of an armed device; at T the drain
starts; at its end the armed bank flips. Completes: teardownForward, circuitHandshakeTimeout, circuitCloseSend,
shiftChangeBell, shiftChangeStart, shiftChangeFlip. -/
def Obligations.CircuitTimersAndShifts : Prop :=
  ((∀ (s : State) (cid : BitVec 16) (x : TearFwd) (rest : List TearFwd), s.cir.fwd = x :: rest → x.cid = cid.toNat →
    x.due ≤ nowNs s →
    ∃ t : State, exec (.teardownForward cid) s = .next t ∧ t.cir.fwd = rest ∧ t.cir.live = s.cir.live ∧ t.comp = s.comp ∧
      t.deep = s.deep) ∧
  (∀ (s : State) (cid : BitVec 16) (w : CirWait), s.cir.opens = [w] → w.cid = cid.toNat →
    w.since + 1000 * getF s R.cirPtmo 7 0 ≤ s.time.lamp → cirState s cid.toNat = 1 → srcqOf s cid.toNat = [] →
    (∀ c ∈ s.cir.closes, (c.fn, c.ring, c.idx) ≠ (w.fn, w.ring, w.idx)) →
    ∃ t : State, exec (.circuitHandshakeTimeout cid) s = .next t ∧ cirState t cid.toNat = 0 ∧ t.cir.opens = [] ∧
      flag t R.cirStat 2 = true ∧
      (∀ h ∈ t.host.descs, h.fn = w.fn → h.ring = w.ring → h.idx = w.idx → h.phase = .ended 5) ∧ t.comp = s.comp ∧
      t.deep = s.deep) ∧
  (∀ (s : State) (cid : BitVec 16), memNat cid.toNat s.cir.closing = true → srcqOf s cid.toNat = [] →
    ∃ t : State, exec (.circuitCloseSend cid) s = .next t ∧ cirState t cid.toNat = 0 ∧
      memNat cid.toNat t.cir.closing = false ∧ t.comp = s.comp ∧ t.deep = s.deep)) ∧
  ((∀ (s : State) (p : Pkt) (rest : List Pkt), s.inbox = p :: rest → p.f.typ = 6 → p.f.code = 7 → flag s R.cirCtl 8 = true →
    ∃ t : State, exec .shiftChangeBell s = .next t ∧ rd64 t R.cirShiftat = leAt p.f.payload 0 8 ∧ t.inbox = rest ∧
      t = { s with inbox := rest, regs := t.regs, cir := { s.cir with fired := false } } ∧
      sameRegs s t [R.cirShiftat, R.cirShiftat + 4]) ∧
  (∀ s : State, rd64 s R.cirShiftat ≠ 0 → rd64 s R.cirShiftat ≤ nowNs s → s.cir.fired = false → s.cir.drain = none →
    flag s R.cirCtl 8 = true →
    ∃ t : State, exec .shiftChangeStart s = .next t ∧
      t.cir.drain = some (s.time.lamp + 1000 * getF s R.cirCtl 19 16) ∧ t.regs = s.regs ∧
      t = { s with cir := { s.cir with drain := t.cir.drain, fired := true } }) ∧
  (∀ (s : State) (t0 : Nat), s.cir.drain = some t0 → t0 ≤ s.time.lamp → flag s R.cirCtl 8 = true →
    flag s R.fabEpoch 8 = false → s.cir.srcq = [] → s.cir.slots = [] →
    ∃ t : State, exec .shiftChangeFlip s = .next t ∧ t.cir.drain = none ∧ cirBank t = 1 - cirBank s ∧
      flag t R.cirCtl 8 = false ∧ t.cir.closing = [] ∧ sameRegs s t [R.cirCtl] ∧ t.comp = s.comp ∧ t.deep = s.deep))

/-- R633 to R635 (Table BOOT-2): a cold reset leaves the state after reset but for what the boot flash keeps; a device
reset, by pin or by `GLB_RST.DEV`, keeps the time base and deep store besides and enables nothing; a hot reset tears every
ENABLED function down and keeps the lock, granule ownership and deep store. Completes: deviceResetWrite, coldReset,
deviceReset, hotReset. -/
def Obligations.Resets : Prop :=
  (∀ s : State, ∃ t : State, exec .coldReset s = .next t ∧ t.regs = [] ∧ t.comp = State.reset.comp ∧ t.deep.mem = [] ∧
    t.time = State.reset.time ∧ t.rem = State.reset.rem ∧ t.mills = [] ∧ t.mgmt.flash = s.mgmt.flash ∧
    t.flt.record = s.flt.record ∧ t.power.ages = s.power.ages ∧ t.deep.rowLog = s.deep.rowLog ∧ t.pending = s.pending) ∧
  (∀ s : State, ∃ t : State, exec .deviceReset s = .next t ∧ t.deep.mem = s.deep.mem ∧ t.time.now = s.time.now ∧
    t.comp = State.reset.comp ∧ t.rem = State.reset.rem ∧ t.mills = [] ∧ t.flt.record = s.flt.record ∧
    t.power.ages = s.power.ages ∧ flag t R.glbBoot 26 = false ∧ sameRegs State.reset t [R.glbBoot]) ∧
  (∀ s : State, ∃ t : State, exec .deviceResetWrite s = .next t ∧ t.deep.mem = s.deep.mem ∧ t.time.now = s.time.now ∧
    t.comp = State.reset.comp ∧ t.rem = State.reset.rem ∧ t.mills = [] ∧ t.flt.record = s.flt.record ∧
    t.mgmt.inReset = false ∧ (rd s R.spiInfo < 256 → rd t R.spiInfo = rd s R.spiInfo) ∧ bootPhase t = 0 ∧ locked t = false) ∧
  (∀ s : State, ∃ t : State, exec .hotReset s = .next t ∧ (∀ fn : Fn, fnState s fn = 1 → fnState t fn = 2) ∧
    (∀ fn : Fn, fnState s fn ≠ 1 → fnState t fn = fnState s fn) ∧ locked t = locked s ∧ t.deep.mem = s.deep.mem ∧
    t.deep.scrubPos = [] ∧ (∀ g : Fin 6144, rd t (R.dstOwn g) = rd s (R.dstOwn g)) ∧ t.time = s.time)

/-- R639, R641 to R643 (Table BOOT-5): boot goes through its phases in order; the valid image with the larger SEQ boots, A
where they are equal; with no valid slot it stops with NOIMG; the self-test fences what fails; a device reset keeps deep
store. R654: a FAULT bell in hand is logged in `GLB_FBELL`; with AUTOSTOP clear, or a job no function is bound to, it
changes nothing else. Completes: bootLinkTrained, bootImageSelect, bootStoresReady, selfTest, bootReady, faultBellReceive,
resetRelease. -/
def Obligations.BootAndFaultBells : Prop :=
  ((∀ (s : State) (straps : BitVec 2) (n : Byte), s.mgmt.inReset = true → bootPhase s = 0 →
    ∃ t : State, exec (.resetRelease straps (some n)) s = .next t ∧ t.mgmt.straps = straps.toNat ∧ t.mgmt.inReset = false ∧
      rd t R.spiInfo = n.toNat ∧ bootPhase t = 0) ∧
  (∀ s : State, s.mgmt.inReset = false → bootPhase s = 0 → exec .bootLinkTrained s = .next (setF s R.glbBoot 31 28 1)) ∧
  (∀ s : State, bootPhase s = 1 →
    (slotOk s false = true → (slotOk s true = false ∨ slotSeq s true ≤ slotSeq s false) →
      ∃ t : State, exec .bootImageSelect s = .next t ∧ bootPhase t = 2 ∧ flag t R.glbBoot 27 = false ∧ onlyRegs s t [R.glbBoot]) ∧
    (slotOk s true = true → (slotOk s false = false ∨ slotSeq s false < slotSeq s true) →
      ∃ t : State, exec .bootImageSelect s = .next t ∧ bootPhase t = 2 ∧ flag t R.glbBoot 27 = true ∧ onlyRegs s t [R.glbBoot]) ∧
    (slotOk s false = false → slotOk s true = false →
      ∃ t : State, exec .bootImageSelect s = .next t ∧ bootPhase t = 6 ∧ onlyRegs s t [R.glbBoot])) ∧
  (∀ s : State, bootPhase s = 2 →
    ∃ t : State, exec .bootStoresReady s = .next t ∧ bootPhase t = 3 ∧ (flag s R.glbBoot 26 = true → t.deep.mem = []) ∧
      (flag s R.glbBoot 26 = false → t.deep.mem = s.deep.mem ∧ t.deep.ue = s.deep.ue) ∧ t.deep.rowMap = s.deep.rowLog ∧
      t.deep.rowLog = s.deep.rowLog ∧
      (∀ g < 1280, Res.cluster g ∈ s.flt.record → fenced t g = true) ∧
      (∀ m < 16, Res.mill m ∈ s.flt.record → flag t (R.milUnit m) 31 = true) ∧
      (∀ p < 64, Res.port p ∈ s.flt.record → flag t (R.prtStat p) 25 = true)) ∧
  (∀ (s : State) (f : SelfTest), bootPhase s = 3 →
    ∃ t : State, exec (.selfTest f) s = .next t ∧ bootPhase t = 4 ∧ (∀ g ∈ f.clusters, g < 1280 → fenced t g = true) ∧
      (∀ m ∈ f.mills, m < 16 → flag t (R.milUnit m) 31 = true) ∧
      (f.banks = true → flag t R.glbFault 31 = true) ∧ getF t R.glbBoot 10 0 = fencedCount t) ∧
  (∀ s : State, bootPhase s = 4 →
    ∃ t : State, exec .bootReady s = .next t ∧ bootPhase t = 5 ∧ t.deep = s.deep ∧ t.comp = s.comp)) ∧
  (∀ (s : State) (p : Pkt) (rest : List Pkt), s.inbox = p :: rest → p.f.typ = 6 → p.f.code = 1 → p.f.job < 4096 →
    p.f.src < 65536 → (flag s R.glbFctl 0 = false ∨ boundFns s p.f.job = []) →
    ∃ t : State, exec .faultBellReceive s = .next t ∧
      rd64 t R.glbFbell = 2 ^ 63 + 2 ^ 48 * p.f.job + 2 ^ 32 * p.f.src + p.f.arg % 2 ^ 20 ∧
      flag t R.glbFstat 0 = true ∧ t = { s with inbox := rest, regs := t.regs } ∧
      sameRegs s t [R.glbFbell, R.glbFbell + 4, R.glbFstat])

/-- R140 to R143, R148, R117, R118: the head of the queue starts with its flags clear and its first descriptor issued with its
parameter block as it reads then, or, refused, ends with its status; a carried-out END descriptor adds 1 to its DT and
ends the list OK; a NOP is carried out. Completes: listStart, descriptorComplete, nop. -/
def Obligations.ListSequencing : Prop :=
  (∀ (s s0 : State) (k : CoreId) (fn : Nat) (l : Launch) (rest : List Launch) (r0 : RunList), noUe s →
    residentAwake s k.clu = some fn → expired s k = false → (seqOf s k.no fn).run = none →
    (seqOf s k.no fn).queue = l :: rest → r0 = ⟨l, l.addr, 0, [], [], .done, none, 0, false, none, 0, none⟩ →
    s0 = setSeq { s with ups := Upsets.none } k.no fn { seqOf s k.no fn with
      queue := rest
      run := some r0
      flags := FpFlags.none } → checkLocal k.no l.addr 64 = 0 →
    ∃ t : State, exec (.listStart ⟨k, Upsets.none⟩) s = .next t ∧ (seqOf t k.no fn).queue = rest ∧
      (seqOf t k.no fn).flags = FpFlags.none ∧ t.regs = s.regs ∧ t.comp.store = s.comp.store ∧ t.deep = s.deep ∧
      t.rem = s.rem ∧ t.outbox = s.outbox ∧
      (checkDesc s0 k.no fn r0 (getLocal s k.no l.addr 64) = 0 → t.host = s.host ∧
        (seqOf t k.no fn).run = some { r0 with
          desc := getLocal s k.no l.addr 64, phase := .issued, det := flag s R.glbMode 0,
          par := paramOf s0 k.no (getLocal s k.no l.addr 64), seam := seamDefault s k.no }) ∧
      (checkDesc s0 k.no fn r0 (getLocal s k.no l.addr 64) ≠ 0 → (seqOf t k.no fn).run = none ∧
        t.host.descs = (reportList s l (checkDesc s0 k.no fn r0 (getLocal s k.no l.addr 64)) 0
          FpFlags.none).host.descs)) ∧
  (∀ (s : State) (k : CoreId) (fn : Nat) (r : RunList), current s k = some (fn, r) → expired s k = false →
    canComplete s k.no fn r = true → bit (byteAt r.desc 1) 0 = true → r.outer = none →
    ∃ t : State, exec (.descriptorComplete ⟨k, Upsets.none⟩) s = .next t ∧ (seqOf t k.no fn).run = none ∧
      (seqOf t k.no fn).queue = (seqOf s k.no fn).queue ∧ (seqOf t k.no fn).copies = (seqOf s k.no fn).copies ∧
      t.host.descs = (reportList s r.launch 0 0xFFFF (seqOf s k.no fn).flags).host.descs ∧ t.regs = s.regs ∧
      t.comp.store = s.comp.store ∧ t.deep = s.deep ∧ t.outbox = s.outbox ∧
      (bit (byteAt r.desc 1) 1 = false → leAt r.desc 2 2 ≠ 0xFFFF → leAt r.desc 2 2 < (tallyRange s fn k.d).2 →
        tallyCount t fn k.d (leAt r.desc 2 2) = (tallyCount s fn k.d (leAt r.desc 2 2) + 1) % 2 ^ 32)) ∧
  (∀ (s : State) (k : CoreId) (fn : Nat) (r : RunList), current s k = some (fn, r) → r.phase = .issued →
    byteAt r.desc 0 = 0 →
    ∃ t : State, exec (.nop k) s = .next t ∧
      (seqOf t k.no fn).run = some { r with phase := .done, part := none } ∧ t.rem = s.rem ∧
      t = { s with comp := { s.comp with seqs := t.comp.seqs }, power := { s.power with isl := t.power.isl } })

/-- R166, R167, R395, R475: a WAIT for a tally waits, completes once the tally has passed TARGET, and stops the list with
TIMEOUT once its limit is over; a WAIT for a time completes at once where T has passed, else once T is reached. R169, R170:
a LOOP goes back for its next pass, its first body descriptor issued with its offsets advanced, and completes after its last
pass. R184: a STAGE of PASS 0 issues the first descriptor of its forward sub-list. R171, R172: PILLAR marks and clears a
region. Completes: waitTally, waitTime, waitComplete, waitTimeout, waitTimeReached, loop, stage, pillarMark,
pillarClear. -/
def Obligations.ListControl : Prop :=
  ((∀ (s : State) (k : CoreId) (fn : Nat) (r : RunList), current s k = some (fn, r) → r.phase = .issued →
    byteAt r.desc 0 = 6 → byteAt r.desc 4 = 0 →
    ∃ t : State, exec (.waitTally k) s = .next t ∧
      (seqOf t k.no fn).run = some { r with phase := .waiting (lampTick s) } ∧
      t = { s with comp := { s.comp with seqs := t.comp.seqs }, power := { s.power with isl := t.power.isl } }) ∧
  (∀ (s : State) (k : CoreId) (fn : Nat) (r : RunList), current s k = some (fn, r) → r.phase = .issued →
    byteAt r.desc 0 = 6 → byteAt r.desc 4 = 1 →
    ∃ t : State, exec (.waitTime k) s = .next t ∧ (seqOf t k.no fn).run =
        some { r with phase := if leAt r.desc 16 8 ≤ nowNs s then .done else .waiting (lampTick s) } ∧
      t = { s with comp := { s.comp with seqs := t.comp.seqs }, power := { s.power with isl := t.power.isl } }) ∧
  (∀ (s : State) (k : CoreId) (fn : Nat) (r : RunList) (w : Nat), current s k = some (fn, r) → expired s k = false →
    r.phase = .waiting w → byteAt r.desc 4 = 0 → waitPassed s k.no fn r.desc = true →
    ∃ t : State, exec (.waitComplete k) s = .next t ∧ (seqOf t k.no fn).run = some { r with phase := .done } ∧
      t = { s with comp := { s.comp with seqs := t.comp.seqs }, power := { s.power with isl := t.power.isl } }) ∧
  (∀ (s : State) (k : CoreId) (fn : Nat) (r : RunList) (w : Nat), current s k = some (fn, r) → expired s k = false →
    r.phase = .waiting w → byteAt r.desc 4 = 0 → waitPassed s k.no fn r.desc = false → leAt r.desc 12 4 ≠ 0 →
    leAt r.desc 12 4 ≤ lampTick s - w →
    ∃ t : State, exec (.waitTimeout k) s = .next t ∧ (seqOf t k.no fn).run = none ∧
      t.host.descs = (reportList s r.launch 5 (RunList.index r) (seqOf s k.no fn).flags).host.descs ∧
      t.regs = s.regs ∧ t.comp.store = s.comp.store ∧ t.deep = s.deep ∧ t.rem = s.rem) ∧
  (∀ (s : State) (k : CoreId) (fn : Nat) (r : RunList) (w : Nat), current s k = some (fn, r) → expired s k = false →
    r.phase = .waiting w → byteAt r.desc 4 = 1 → leAt r.desc 16 8 ≤ nowNs s →
    ∃ t : State, exec (.waitTimeReached k) s = .next t ∧ (seqOf t k.no fn).run = some { r with phase := .done } ∧
      t = { s with comp := { s.comp with seqs := t.comp.seqs }, power := { s.power with isl := t.power.isl } })) ∧
  ((∀ (s : State) (k : CoreId) (fn : Nat) (r : RunList), current s k = some (fn, r) → r.phase = .issued →
    byteAt r.desc 0 = 7 →
    ((r.loops.find? fun l => l.p == r.idx) = none ∧ leAt r.desc 8 4 = 1 ∨
      ∃ l, (r.loops.find? fun l => l.p == r.idx) = some l ∧ l.remaining = 0) →
    ∃ t : State, exec (.loop ⟨k, Upsets.none⟩) s = .next t ∧
      (seqOf t k.no fn).run = some { r with loops := r.loops.filter (fun l => l.p != r.idx), phase := .done } ∧
      t.regs = s.regs ∧ t.comp.store = s.comp.store ∧ t.deep = s.deep ∧ t.rem = s.rem ∧ t.outbox = s.outbox) ∧
  (∀ (s s0 : State) (k : CoreId) (fn q : Nat) (r r0 : RunList) (b : List Byte), noUe s → current s k = some (fn, r) →
    expired s k = false → r.phase = .issued → byteAt r.desc 0 = 7 → r.loops = [] → 2 ≤ leAt r.desc 8 4 →
    q = r.idx - leAt r.desc 4 2 →
    r0 = { r with idx := q, loops := [⟨r.idx, leAt r.desc 4 2, leAt r.desc 8 4 - 2, loopEntries r.desc,
      (loopEntries r.desc).map fun e => e.2⟩] } →
    s0 = setRun { s with ups := Upsets.none } k.no fn r0 → checkLocal k.no (r.base + 64 * q) 64 = 0 →
    patchLoops q r0.loops (getLocal s k.no (r.base + 64 * q) 64) = some b →
    (inBody q r0.loops && bit (byteAt b 1) 0) = false → checkDesc s0 k.no fn r0 b = 0 →
    ∃ t : State, exec (.loop ⟨k, Upsets.none⟩) s = .next t ∧
      (seqOf t k.no fn).run = some { r0 with
        desc := b, phase := .issued, copy := 0, det := flag s R.glbMode 0, par := paramOf s0 k.no b,
        seam := seamDefault s k.no, part := none } ∧
      t.regs = s.regs ∧ t.comp.store = s.comp.store ∧ t.deep = s.deep ∧ t.rem = s.rem ∧ t.outbox = s.outbox) ∧
  (∀ (s s0 : State) (k : CoreId) (fn a : Nat) (r r0 : RunList), noUe s → current s k = some (fn, r) →
    expired s k = false → r.phase = .issued → byteAt r.desc 0 = 8 → byteAt r.desc 4 = 0 → byteAt r.desc 5 = 0 →
    a = leAt r.desc 8 4 →
    r0 = { r with base := a, idx := 0, loops := [], outer := some ⟨r.base, r.idx, r.loops, r.desc, []⟩ } →
    s0 = setRun { s with ups := Upsets.none } k.no fn r0 → checkLocal k.no a 64 = 0 →
    checkDesc s0 k.no fn r0 (getLocal s k.no a 64) = 0 →
    ∃ t : State, exec (.stage ⟨k, Upsets.none⟩) s = .next t ∧
      (seqOf t k.no fn).run = some { r0 with
        desc := getLocal s k.no a 64, phase := .issued, copy := 0, det := flag s R.glbMode 0,
        par := paramOf s0 k.no (getLocal s k.no a 64), seam := seamDefault s k.no, part := none } ∧
      t.regs = s.regs ∧ t.comp.store = s.comp.store ∧ t.deep = s.deep ∧ t.rem = s.rem ∧ t.outbox = s.outbox) ∧
  (∀ (s : State) (k : CoreId) (fn : Nat) (r : RunList), current s k = some (fn, r) → r.phase = .issued →
    byteAt r.desc 0 = 9 → byteAt r.desc 4 = 0 → checkPillar s k.no fn r.desc = 0 →
    ∃ t : State, exec (.pillarMark k) s = .next t ∧
      (seqOf t k.no fn).run = some { r with phase := .done, part := none } ∧
      (SMap.find t.comp.pillars (8 * k.clu + byteAt r.desc 5)).map (fun p => (p.base, p.len)) =
        some (pillarRange k.no r.desc) ∧ flag t (clownOff k.clu + 4) 30 = true ∧
      sameRegs s t [clownOff k.clu + 4] ∧ t.comp.store = s.comp.store ∧ t.deep = s.deep ∧ t.rem = s.rem) ∧
  (∀ (s : State) (k : CoreId) (fn : Nat) (r : RunList), current s k = some (fn, r) → r.phase = .issued →
    byteAt r.desc 0 = 9 → byteAt r.desc 4 = 1 → checkPillar s k.no fn r.desc = 0 →
    ∃ t : State, exec (.pillarClear k) s = .next t ∧
      (seqOf t k.no fn).run = some { r with phase := .done, part := none } ∧
      SMap.find t.comp.pillars (8 * k.clu + byteAt r.desc 5) = none ∧ sameRegs s t [clownOff k.clu + 4] ∧
      t.comp.store = s.comp.store ∧ t.deep = s.deep ∧ t.rem = s.rem))

/-- R176 to R183: a quantum that is over asks for a switch or starts anew; the switch starts once every core of the cluster stands
at a tile boundary; it saves the stores into the image of the outgoing slot, restores those of the incoming one, and makes
it resident. Completes: quantumExpire, contextSwitchStart, contextSaveDone, contextRestoreDone. -/
def Obligations.ContextSwitches : Prop :=
  ∀ (s : State) (d : Die) (i : Clu) (g : Nat), g = cluNo d i → fenced s g = false →
    (slotValid s g (resSlot s g) = true → (slotSt s g).expired = false → (slotSt s g).switch = none →
      (slotSt s g).start + getF s (R.cpxQuantum d.val) 15 0 * 1000 ≤ nowNs s →
      ∃ t : State, exec (.quantumExpire d i) s = .next t ∧
        slotSt t g = (if (nextSlot s g).isSome then { slotSt s g with expired := true }
          else { slotSt s g with start := nowNs s }) ∧
        t = { s with comp := { s.comp with slots := t.comp.slots }, power := { s.power with isl := t.power.isl } }) ∧
    (∀ sl, (slotSt s g).expired = true → (slotSt s g).switch = none → nextSlot s g = some sl →
      (∀ c : Fin 64, atBoundary s ⟨d, i, c⟩ (slotFn s g (resSlot s g)) = true) →
      ∃ t : State, exec (.contextSwitchStart d i) s = .next t ∧
        slotSt t g = { slotSt s g with switch := some ⟨sl, true, 0, 0⟩ } ∧
        t = { s with comp := { s.comp with slots := t.comp.slots }, power := { s.power with isl := t.power.isl } }) ∧
    (∀ sl ns, (slotSt s g).switch = some ⟨sl, true, 0, ns⟩ → noUe s → hasImages s = true → s.memOk →
      ∃ t : State, exec (.contextSaveDone d ⟨i, Upsets.none⟩) s = .next t ∧
        slotSt t g = { slotSt s g with switch := some ⟨sl, false, 0, 0⟩ } ∧
        (∀ c < 64, ∀ o < 0xC000, memRead t.deep.mem (imageBase s g (resSlot s g) + 0xC000 * c + o) =
          memRead s.comp.store (storeKey g (0x10000 * c + o))) ∧
        (∀ o < 0x40000, memRead t.deep.mem (imageBase s g (resSlot s g) + 0x300000 + o) =
          memRead s.comp.store (storeKey g (0x400000 + o))) ∧
        (∀ a, a < imageBase s g (resSlot s g) ∨ imageBase s g (resSlot s g) + 0x340000 ≤ a →
          memRead t.deep.mem a = memRead s.deep.mem a) ∧ t.comp.store = s.comp.store ∧ t.regs = s.regs) ∧
    (∀ sl ns, (slotSt s g).switch = some ⟨sl, false, 0, ns⟩ → sl < 4 → noUe s → hasImages s = true → s.memOk →
      ∃ t : State, exec (.contextRestoreDone d i Upsets.none) s = .next t ∧ slotSt t g = ⟨nowNs s, false, none⟩ ∧
        resSlot t g = sl ∧
        (∀ c < 64, ∀ o < 0xC000, memRead t.comp.store (storeKey g (0x10000 * c + o)) =
          memRead s.deep.mem (imageBase s g sl + 0xC000 * c + o)) ∧
        (∀ o < 0x40000, memRead t.comp.store (storeKey g (0x400000 + o)) =
          memRead s.deep.mem (imageBase s g sl + 0x300000 + o)) ∧
        (∀ a, a / 2 ^ 24 ≠ g → memRead t.comp.store a = memRead s.comp.store a) ∧ t.deep = s.deep ∧
        sameRegs s t [clownOff g + 4])

/-- R67, R154, R157: a MATMUL of one row and one seam with partial words stores the word of each output at C, and leaves
every other byte. R78, R155 to R157: a MATMUL of one output row and one column group with images, what it reads apart from
C where there are several seams, enters each seam's word of each output in turn into the image that starts at C with ACC 1, or
into an empty one, and leaves every other byte. Completes: matmul. -/
def Obligations.Matmuls : Prop :=
  (∀ (s : State) (k : CoreId) (fn : Nat) (r : RunList) (d : MatmulD) (p : Params) (a : Nat) (sm : Nat × Nat), noUe s →
    current s k = some (fn, r) → expired s k = false → r.phase = .issued → r.part = none → byteAt r.desc 0 = 1 →
    matmulD r.seam r.desc = some d → r.par = some p → d.of = .words → d.m = 1 → 1 ≤ d.n → d.n ≤ 32 →
    MatmulD.seams d = [sm] → space d.c = 0 → opKey k.no d.c 0 = some a →
    ∃ t : State, exec (.matmul k Upsets.none) s = .next t ∧
      (seqOf t k.no fn).run = some { r with phase := .done, part := none } ∧
      memReadN t.comp.store a (16 * d.n) = (List.range d.n).flatMap (fun c => PartialWord.bytes
        (matmulWord d p (matmulIn s k.no d p (0, 1, 0, d.n) sm) 0 c sm).1) ∧
      (∀ x, x < a ∨ a + 16 * d.n ≤ x → memRead t.comp.store x = memRead s.comp.store x) ∧
      sameRegs s t [R.cpxFpstat k.d] ∧ t.deep = s.deep ∧ t.rem = s.rem ∧ t.outbox = s.outbox) ∧
  (∀ (s : State) (k : CoreId) (fn : Nat) (r : RunList) (d : MatmulD) (p : Params) (x : Nat), noUe s →
    current s k = some (fn, r) → expired s k = false → r.phase = .issued → r.part = none → byteAt r.desc 0 = 1 →
    matmulD r.seam r.desc = some d → r.par = some p → d.of = .images → d.m = 1 → 1 ≤ d.n → d.n ≤ 32 → 1 ≤ d.kn →
    localAt (some (k.no % 64)) (d.c % 2 ^ 32) (48 * d.n) = some x →
    ((MatmulD.seams d).length = 1 ∨ matmulApart s k.no d p (storeKey k.clu x) (48 * d.n)) →
    ∃ t : State, exec (.matmul k Upsets.none) s = .next t ∧
      (seqOf t k.no fn).run = some { r with phase := .done, part := none } ∧
      (∀ c < d.n, getLocal t k.no (d.c % 2 ^ 32 + 48 * c) 48 = Image.bytes ((MatmulD.seams d).foldl
        (fun im sm => (laEnter im (matmulWord d p (matmulIn s k.no d p (0, 1, 0, d.n) sm) 0 c sm).1).1)
        (if d.acc then Image.ofBytes (getLocal s k.no (d.c % 2 ^ 32 + 48 * c) 48) else Image.empty))) ∧
      (∀ y, y < storeKey k.clu x ∨ storeKey k.clu x + 48 * d.n ≤ y → memRead t.comp.store y = memRead s.comp.store y) ∧
      sameRegs s t [R.cpxFpstat k.d] ∧ t.deep = s.deep ∧ t.rem = s.rem ∧ t.outbox = s.outbox)

/-- R95, R158: a CONVERT of one row to a plain format with no slot and no record writes the converted elements and counts
its tile; a part byte keeps its other bits. R155, R156, R202: a SPARSE whose rows hold no non-zero, to images with ACC 0,
leaves empty images at C and completes. Completes: convert, sparse. -/
def Obligations.ConvertAndSparse : Prop :=
  (∀ (s : State) (k : CoreId) (fn : Nat) (r : RunList) (d : ConvertD) (a : Nat) (p : Params)
    (res : List Nat × List Nat × TileAcc), noUe s →
    current s k = some (fn, r) → r.phase = .issued → byteAt r.desc 0 = 2 → convertD r.desc = some d →
    r.par = some p → p.slot = none → p.recAt = none → d.rows = 1 → d.df.mx = false → d.axis = 0 →
    space d.dst = 0 → opKey k.no d.dst 0 = some a →
    res = cvtRun (Params.cvt p d.df)
      (((List.range d.cols).map (convertSrc s k.no d p 0)).foldl (fun t v => { t with flags := t.flags.or v.2 }) TileAcc.empty)
      (((List.range d.cols).map (convertSrc s k.no d p 0)).map (·.1)) →
    ∃ t : State, exec (.convert k Upsets.none) s = .next t ∧
      (seqOf t k.no fn).run = some { r with phase := .done, part := none } ∧
      memReadN t.comp.store a (packInto s k.no d.dst 0 (widthOf d.df.f) res.1).length =
        packInto s k.no d.dst 0 (widthOf d.df.f) res.1 ∧
      (∀ x, x < a ∨ a + (packInto s k.no d.dst 0 (widthOf d.df.f) res.1).length ≤ x →
        memRead t.comp.store x = memRead s.comp.store x) ∧
      sameRegs s t [R.cpxCnvtail k.d, R.cpxCnvovfn k.d, R.cpxFpstat k.d] ∧ t.deep = s.deep ∧ t.rem = s.rem ∧
      t.outbox = s.outbox) ∧
  (∀ (s : State) (k : CoreId) (fn : Nat) (r : RunList) (d : SparseD) (p : Params), noUe s → current s k = some (fn, r) →
    expired s k = false → r.phase = .issued → r.part = none → byteAt r.desc 0 = 3 → sparseD r.seam r.desc = some d →
    r.par = some p → d.of = .images → d.acc = false → d.trans = false → (sparseH s k.no d).nnz = 0 →
    (∀ j ≤ (sparseH s k.no d).nr, leNat (getOp s k.no d.rp (32 + 4 * j) 4) = 0) → d.row0 + d.nrow ≤ (sparseH s k.no d).nr →
    ∀ x y, space d.rp = 0 →
    localAt (some (k.no % 64)) (d.rp % 2 ^ 32) (32 + 4 * ((sparseH s k.no d).nr + 1)) = some x →
    localAt (some (k.no % 64)) (d.c % 2 ^ 32) (d.nrow * d.n * 48) = some y →
    (x + (32 + 4 * ((sparseH s k.no d).nr + 1)) ≤ y ∨ y + d.nrow * d.n * 48 ≤ x) →
    ∃ t : State, exec (.sparse k Upsets.none) s = .next t ∧
      (seqOf t k.no fn).run = some { r with phase := .done, part := none } ∧
      getLocal t k.no (d.c % 2 ^ 32) (d.nrow * d.n * 48) = zeros (d.nrow * d.n * 48) ∧ t.deep = s.deep ∧ t.rem = s.rem ∧
      t.outbox = s.outbox ∧ sameRegs s t [R.cpxFpstat k.d, R.cpxSpcnt k.d])

/-- R161: REDUCE to one image stores the combined image; MAX and MIN store the picked element. Completes: reduceSumImages,
reduceSumPartials, reduceMax, reduceMin. -/
def Obligations.Reduces : Prop :=
  ∀ (s : State) (k : CoreId) (fn : Nat) (r : RunList) (d : ReduceD) (p : Params) (a : Nat), noUe s →
    current s k = some (fn, r) → r.phase = .issued → r.part = none → byteAt r.desc 0 = 4 → reduceD r.desc = d →
    r.par = some p → d.nout = 1 → space d.dst = 0 → opKey k.no d.dst 0 = some a →
    (∀ c, (c, d.rop) ∈ [(Instr.reduceSumImages k Upsets.none, 0), (Instr.reduceSumPartials k Upsets.none, 1)] →
      d.ofc = 0xFF →
      ∃ t : State, exec c s = .next t ∧ (seqOf t k.no fn).run = some { r with phase := .done, part := none } ∧
        memReadN t.comp.store a 48 = Image.bytes (reduceImage s k.no d 0).1 ∧
        (∀ x, x < a ∨ a + 48 ≤ x → memRead t.comp.store x = memRead s.comp.store x) ∧
        sameRegs s t [R.cpxFpstat k.d] ∧ t.deep = s.deep ∧ t.rem = s.rem ∧ t.outbox = s.outbox) ∧
    (∀ c e, (c, d.rop) ∈ [(Instr.reduceMax k Upsets.none, 2), (Instr.reduceMin k Upsets.none, 3)] →
      fmtOf d.ifmt = some e → 8 ≤ widthOf e.f → widthOf e.f % 8 = 0 →
      ∃ t : State, exec c s = .next t ∧ (seqOf t k.no fn).run = some { r with phase := .done, part := none } ∧
        leNat (memReadN t.comp.store a (widthOf e.f / 8)) =
          (reducePick s k.no d e p.ftz 0).1 % 2 ^ widthOf e.f ∧
        (∀ x, x < a ∨ a + widthOf e.f / 8 ≤ x → memRead t.comp.store x = memRead s.comp.store x) ∧
        sameRegs s t [R.cpxFpstat k.d] ∧ t.deep = s.deep ∧ t.rem = s.rem ∧ t.outbox = s.outbox)

/-- R145, R162, R164: a synchronous COPY of one row into the stores moves its bytes and nothing else; an asynchronous one, of
any operands, is registered, and moves its bytes and adds to its DT when it finishes. Completes: copy, copyComplete. -/
def Obligations.CopiesMove : Prop :=
  (∀ (s : State) (k : CoreId) (fn : Nat) (r : RunList) (d : CopyD), current s k = some (fn, r) →
    r.phase = .issued → r.part = none → byteAt r.desc 0 = 5 → copyD r.desc = d →
    (∀ a, noUe s → d.async = false → copyMeetsDoze s k.no r.desc = false → space d.dst < 2 →
      (∀ x, isLive s (opClu k.no d.dst) (coreFn s k.no) x = true) → d.rows = 1 → copyWhole s k d a → r.copy = 0 →
      ∃ t : State, exec (.copy k Upsets.none) s = .next t ∧
      (seqOf t k.no fn).run = some { r with phase := .done, copy := s.nextId, part := none } ∧
      memReadN t.comp.store a d.len = getOp s k.no d.src 0 d.len ∧
      (∀ x, x < a ∨ a + d.len ≤ x → memRead t.comp.store x = memRead s.comp.store x) ∧ t.regs = s.regs ∧ t.deep = s.deep ∧
      t.rem = s.rem ∧ t.outbox = s.outbox) ∧
    (d.async = true → (seqOf s k.no fn).copies.length < 16 → ∃ t : State, exec (.copy k Upsets.none) s = .next t ∧
      (seqOf t k.no fn).run = some { r with phase := .done, part := none } ∧
      (seqOf t k.no fn).copies =
        (seqOf s k.no fn).copies ++ [⟨s.nextId, fn, r.launch.id, r.desc, leAt r.desc 2 2, none, 0, false⟩] ∧
      t.regs = s.regs ∧ t.comp.store = s.comp.store ∧ t.deep = s.deep ∧ t.rem = s.rem ∧ t.outbox = s.outbox)) ∧
  (∀ (s : State) (k : CoreId) (fn n : Nat) (c : AsyncCopy) (d : CopyD) (a : Nat), noUe s →
    residentAwake s k.clu = some fn → (seqOf s k.no fn).copies[n]? = some c → c.moved = 0 → c.paused = false →
    copyD c.desc = d → copyMeetsDoze s k.no c.desc = false → copyPending s c.id = false → space d.dst < 2 →
    (∀ x, isLive s (opClu k.no d.dst) (coreFn s k.no) x = true) → d.rows = 1 → copyWhole s k d a →
    ∃ t : State, exec (.copyComplete k n Upsets.none) s = .next t ∧
      (seqOf t k.no fn).copies = (seqOf s k.no fn).copies.filter (fun x => x.id != c.id) ∧
      memReadN t.comp.store a d.len = getOp s k.no d.src 0 d.len ∧
      (∀ x, x < a ∨ a + d.len ≤ x → memRead t.comp.store x = memRead s.comp.store x) ∧
      (c.dt ≠ 0xFFFF → c.dt < (tallyRange s fn k.d).2 →
        tallyCount t fn k.d c.dt = (tallyCount s fn k.d c.dt + 1) % 2 ^ 32) ∧ t.regs = s.regs ∧ t.deep = s.deep ∧
      t.outbox = s.outbox)

/-- R252, R342, Table FAB-6: a bell of the device that passes the door checks joins the control queue of its port with its
header completed; one that fails a check is counted under its own flag of `FAB_STAT` and goes nowhere. Completes: frameAdmit. -/
def Obligations.DeviceBells : Prop :=
  ∀ (s : State) (p : Pkt) (rest : List Pkt) (c : Nat), s.outbox = p :: rest → p.org = .device c → p.f.typ = 6 →
    (∀ chk, doorCheck s (aliasGroup s p.f) none = some chk → chk < 5 →
      ∃ t : State, exec (.frameAdmit 0) s = .next t ∧ flag t R.fabStat (if chk = 3 then 4 else if chk = 4 then 3 else chk) = true ∧
        (chk = 4 → rd t R.fabCntNoroute = min (2 ^ 32 - 1) (rd s R.fabCntNoroute % 2 ^ 32 + 1)) ∧
        t = { s with outbox := rest, regs := t.regs } ∧
        sameRegs s t [R.fabStat, R.fabCntEcrc, R.fabCntMalform, R.fabCntEpoch, R.fabCntHops, R.fabCntNoroute]) ∧
    (∀ q h, doorCheck s (aliasGroup s p.f) none = none →
      routeFrame s (curEpoch s % 2) (completeHeader s p.org 3 0 (aliasGroup s p.f)) none = ⟨[⟨.ctl q, h, none⟩], 0, false⟩ →
      (ctlOf s q).length < 64 →
      ∃ t : State, exec (.frameAdmit 0) s = .next t ∧
        ctlOf t q = ctlOf s q ++ [⟨p.uid, h, p.org, nowNs s, false, none, none⟩] ∧
        t = { s with outbox := rest, fab := { s.fab with ctlq := t.fab.ctlq } })

/-- R346, R348, R352: a host frame whose shaper holds its tokens passes it; with no policer, no early drop and room in the
pool, it joins its port's queue. A frame that waits for a port's control queue joins it once there is room. Completes:
shaperPass, admitResume. -/
def Obligations.ShapersAndWaits : Prop :=
  (∀ (s : State) (k : Fin 1026) (x : DoorPkt) (rest : List DoorPkt) (sh : Shaper) (fn ring idx q : Nat) (h : Frame),
    s.fab.door = x :: rest → s.fab.waiting = [] → x.k = k.val → x.pkt.org = .host fn ring idx → fnState s fn = 1 →
    Shaper.pass (Shaper.tick (shpOf s k.val) s.time.now) x.pkt.f.size = some sh →
    (polOf s (2 * fn + x.pkt.f.cls - 1)).en = false → q < 64 →
    routeFrame s (curEpoch s % 2) (completeHeader s x.pkt.org x.pkt.f.cls 0 x.pkt.f) none =
      ⟨[⟨.port q, h, none⟩], 0, false⟩ →
    (queueOf s q).avg ≤ bits (rd s (R.swqEdp 0)) 7 0 * lcapQ s q →
    depthQ s q + (completeHeader s x.pkt.org x.pkt.f.cls 0 x.pkt.f).size ≤ lcapQ s q → placeAt s q h = some false →
    ∃ t : State, exec (.shaperPass k) s = .next t ∧ shpOf t k.val = sh ∧ t.fab.door = rest ∧
      (queueOf t q).frames = (queueOf s q).frames ++ [⟨x.pkt.uid, h, x.pkt.org, nowNs s, false, none, none⟩] ∧
      t.regs = s.regs ∧ t.comp = s.comp ∧ t.deep = s.deep ∧ t.host = s.host) ∧
  (∀ (s : State) (w : WaitPkt) (q c : Nat), s.fab.waiting = [w] → w.via = some q → w.pkt.org = .device c →
    portUp s q = true → (ctlOf s q).length < 64 →
    ∃ t : State, exec (.admitResume 0) s = .next t ∧ t.fab.waiting = [] ∧
      ctlOf t q = ctlOf s q ++ [⟨w.pkt.uid, w.pkt.f, w.pkt.org, nowNs s, false, w.gsrc, none⟩] ∧
      t = { s with fab := { s.fab with waiting := [], ctlq := t.fab.ctlq } })

/-- R270, R311, R316, Table FAB-6: a frame from a port that fails a door check other than ECRC is counted and dropped; a
circuit bell reaches the circuit logic; a circuit frame in transit takes slot a + 7 of its EPORT. Completes: frameArrive,
circuitFrameArrive. -/
def Obligations.PortArrivals : Prop :=
  ∀ (s : State) (p : Port) (x : RxPkt) (rest : List RxPkt), rxOf s p.val = x :: rest → flag s R.mirCtl 31 = false →
    (∀ chk, doorCheck s x.f (some p.val) = some chk → 1 ≤ chk → chk < 5 →
      ∃ t : State, exec (.frameArrive p) s = .next t ∧ rxOf t p.val = rest ∧
        flag t R.fabStat (if chk = 3 then 4 else if chk = 4 then 3 else chk) = true ∧
        t = { s with regs := t.regs, fab := { s.fab with rx := t.fab.rx } } ∧
        sameRegs s t [R.fabStat, R.fabCntMalform, R.fabCntEpoch, R.fabCntHops, R.fabCntNoroute]) ∧
    (doorCheck s x.f (some p.val) = none → Frame.isCircuitBell x.f = true → x.f.cls ≠ 0 →
      ∃ t : State, exec (.frameArrive p) s = .next t ∧ rxOf t p.val = rest ∧
        t.inbox = s.inbox ++ [⟨s.nextId, { x.f with age := nowNs s / 4 % 65536 }, .port p.val⟩] ∧
        t = { s with inbox := t.inbox, nextId := s.nextId + 1, fab := { s.fab with rx := t.fab.rx } }) ∧
    (∀ (ta : DWord) (e slot : Nat), doorCheck s x.f (some p.val) = none → x.f.cls = 0 → x.rpl = false → x.f.typ ≠ 8 →
      dead s = false → e = cirNow s x.f.cid → cirValid e = true → cirRole e = 0 → cirState s x.f.cid = 2 →
      bits e 31 16 = x.f.dst → bits e 43 32 = x.f.job → cirIport e = p.val → x.f.hops < 7 →
      slot = (ta.toNat - getF s (R.gngPdly p.val) 23 0) / 1536 + getF s (R.cirPort p.val) 5 0 + 7 →
      bit (cageOf s (cirBank s) (cirEport e) slot) 16 = true →
      bits (cageOf s (cirBank s) (cirEport e) slot) 15 0 = x.f.cid →
      ∃ t : State, exec (.circuitFrameArrive p ta) s = .next t ∧ rxOf t p.val = rest ∧
        t.cir.slots = s.cir.slots ++ [⟨cirEport e, slot, ⟨s.nextId, { x.f with age := nowNs s / 4 % 65536 }, .port p.val,
          nowNs s, false, none, none⟩⟩] ∧ t.regs = s.regs ∧ t.comp = s.comp ∧ t.deep = s.deep ∧ t.inbox = s.inbox)

/-- R309, R313, R551, R554, R658: a slot with a committed circuit frame carries it, and is served; a narrower port sends the
head of its packet queue. Either waits unacknowledged under the next LSEQ. Completes: cageSlotStart, portTransmit. -/
def Obligations.PortSends : Prop :=
  ∀ (s : State) (p : Port), portUp s p.val = true → linkRoom s p.val = true → flag s R.mirCtl 31 = false →
    (∀ e t0, getF s (R.prtStat p.val) 5 4 = 3 → slotServed s p.val (slotNow s) = false →
      nowNs s ≤ 24 * slotNow s + 12 → (∀ x ∈ s.cir.slots, x.port = p.val → slotNow s ≤ x.slot) →
      committed s p.val (slotNow s) = some (e, t0) → ctlOf s p.val = [] →
      ∃ (t : State) (b : List Byte), exec (.cageSlotStart p) s = .next t ∧ t.out = s.out ++ [.linkUnit p.val b] ∧
        (portOf t p.val).next = ((portOf s p.val).next + 1) % 16384 ∧
        (portOf t p.val).unacked = (portOf s p.val).unacked ++ [⟨(portOf s p.val).next, e⟩] ∧
        slotServed t p.val (slotNow s) = true ∧ t.cir = { t0.cir with wire := t.cir.wire } ∧ t.fab = s.fab ∧ t.regs = s.regs ∧ t.comp = s.comp ∧ t.deep = s.deep) ∧
    (∀ e r, getF s (R.prtStat p.val) 5 4 ≠ 3 → ctlOf s p.val = [] → (queueOf s p.val).frames = e :: r → e.sump = false →
      ∃ (t : State) (b : List Byte), exec (.portTransmit p) s = .next t ∧ t.out = s.out ++ [.linkUnit p.val b] ∧
        (portOf t p.val).next = ((portOf s p.val).next + 1) % 16384 ∧
        (portOf t p.val).unacked = (portOf s p.val).unacked ++ [⟨(portOf s p.val).next, e⟩] ∧
        (queueOf t p.val).frames = r ∧ (∀ q, q ≠ p.val → queueOf t q = queueOf s q) ∧ t.cir = s.cir ∧ t.regs = s.regs ∧
        t.comp = s.comp ∧ t.deep = s.deep)

/-- R272, R273, R281, R364, R394: a WRITE for deep store is written as it leaves its die link, where nothing of its flow is
before it; a packet that its cluster has accepted is written there, and the last of its frame counts on the frame's tally; a
frame is read back from the sump when the pool has room. Completes: dieLinkSend, meshPacketArrive, sumpReadback. -/
def Obligations.DieTraffic : Prop :=
  (∀ (s : State) (d : Die) (e : QEntry) (w : Nat) (tg : Target), (arrivals s d.val).head? = some e →
    e.sump = false → e.f.typ = 0 → e.f.mc = false → judge s e = .passed w [tg] → tg.die = d.val → tg.deep = true →
    tg.clus = [] → s.rem.atomics = [] → aheadQueued s e = false → aheadMesh s e.f d.val [] = false →
    ∃ t : State, exec (.dieLinkSend d) s = .next t ∧ readDeep t tg.addr e.f.payload.length = e.f.payload ∧
      (∀ a, a < tg.addr ∨ tg.addr + e.f.payload.length ≤ a → memRead t.deep.mem a = memRead s.deep.mem a) ∧
      arrivals t d.val = (arrivals s d.val).drop 1 ∧ t.comp = s.comp ∧ t.outbox = s.outbox) ∧
  (∀ (s : State) (d : Die) (i : Nat) (k : MeshPkt) (rest : List (Nat × MeshPkt)) (g : Nat),
    (meshOf s d.val).ready = (i, k) :: rest → g = 160 * d.val + i → dozing s g = false → holds s g k.fn = true →
    (∀ a, isLive s g k.fn a = true) → s.comp.storeUe = [] →
    ∃ t : State, exec (.meshPacketArrive d ⟨0, Upsets.none⟩) s = .next t ∧ (meshOf t d.val).ready = rest ∧
      readStore t g k.addr k.bytes.length = k.bytes ∧
      (∀ a, a < storeKey g k.addr ∨ storeKey g k.addr + k.bytes.length ≤ a →
        memRead t.comp.store a = memRead s.comp.store a) ∧ t.deep = s.deep ∧ t.regs = s.regs ∧ t.outbox = s.outbox ∧
      ((∀ x ∈ (meshOf t d.val).inward, x.uid ≠ k.uid) → k.tally ≠ 0xFFFF → k.tally < (tallyRange s k.fn d.val).2 →
        tallyCount t k.fn d.val k.tally = (tallyCount s k.fn d.val k.tally + k.tinc) % 2 ^ 32)) ∧
  (∀ (s : State) (q : Fin 72) (e : QEntry) (r : List QEntry), (queueOf s q.val).frames = e :: r → e.sump = true →
    poolRoom s e.f = true →
    ∃ t : State, exec (.sumpReadback q Upsets.none) s = .next t ∧ (queueOf t q.val).frames = { e with sump := false } :: r ∧
      t = { s with fab := { s.fab with queues := t.fab.queues } })

/-- R358, R367, R369, R373: averages, and histogram bins, each when its period is due; canaries and mirror records. Completes:
queueAvgUpdate, histogramSample, canarySend, canaryArrive, mirrorRecordWrite. -/
def Obligations.QueueWatch : Prop :=
  (∀ s : State, s.fab.avgAt + 256 ≤ 5 * s.time.lamp → ∃ t : State, exec .queueAvgUpdate s = .next t ∧
    (∀ q < 88, queueOf t q = { queueOf s q with avg := avgStep (queueOf s q).avg (depthQ s q) (getF s R.swqCtl 19 16) }) ∧
    t = { s with fab := { s.fab with queues := t.fab.queues, avgAt := s.fab.avgAt + 256 } }) ∧
  (∀ s : State, s.fab.sampleAt + 4 * getF s R.swqHctl 15 0 ≤ 5 * s.time.lamp →
    ∃ t : State, exec .histogramSample s = .next t ∧
    (∀ q < 72, SMap.getD t.fab.liveDep (16 * q + depthBin (depthOf s q)) 0 =
      satAdd 32 (SMap.getD s.fab.liveDep (16 * q + depthBin (depthOf s q)) 0) 1) ∧
    t = { s with fab := { s.fab with
      liveDep := t.fab.liveDep, liveDly := t.fab.liveDly, sampleAt := s.fab.sampleAt + 4 * getF s R.swqHctl 15 0 } }) ∧
  (∀ (s : State) (n : Fin 8), flag s (R.swqCny0 n) 31 = true → canaryDue s n.val = true →
    ∃ (t : State) (p : Pkt), exec (.canarySend n) s = .next t ∧ t.outbox = s.outbox ++ [p] ∧ p.f.typ = 7 ∧ p.f.len = 1 ∧
      p.f.dst = getF s (R.swqCny1 n) 15 0 ∧ p.f.job = getF s (R.swqCny1 n) 27 16 ∧
      p.f.tsw / 65536 % 8 = n.val ∧ p.f.payload = leBytes 8 (nowNs s) ++ zeros 8 ∧
      rd t (R.swqCny5 n) = min (2 ^ 32 - 1) (rd s (R.swqCny5 n) % 2 ^ 32 + 1) ∧ sameRegs s t [R.swqCny5 n] ∧
      t.comp = s.comp ∧ t.deep = s.deep) ∧
  (∀ (s : State) (p : Pkt) (rest : List Pkt), s.inbox = p :: rest → p.f.typ = 7 →
    (p.f.tsw % 2 = 1 → ∃ (t : State) (g : Pkt), exec .canaryArrive s = .next t ∧ t.inbox = rest ∧ t.outbox = s.outbox ++ [g] ∧ g.f.typ = 7 ∧
      g.f.dst = p.f.src ∧ g.f.tsw = p.f.tsw - 1 ∧ g.f.payload = p.f.payload.take 8 ++ leBytes 8 (nowNs s) ∧
      t.regs = s.regs ∧ t.comp = s.comp ∧ t.deep = s.deep) ∧
    (p.f.tsw % 2 = 0 → zeroAt p.f.payload 8 8 = true → leAt p.f.payload 0 8 ≤ nowNs s → p.f.tsw < 2 ^ 32 →
      p.f.src < 2 ^ 16 →
      ∃ t : State, exec .canaryArrive s = .next t ∧ t.inbox = rest ∧
        rd t R.swqCrx = min (nowNs s - leAt p.f.payload 0 8) (2 ^ 32 - 1) ∧
        rd t (R.swqCrx + 4) = p.f.tsw / 65536 + 2 ^ 16 * p.f.src ∧ sameRegs s t [R.swqCrx, R.swqCrx + 4] ∧
        t.outbox = s.outbox ∧ t.comp = s.comp ∧ t.deep = s.deep)) ∧
  (∀ (s : State) (r : List Byte) (rest : List (List Byte)), s.fab.mirRecs = r :: rest → flag s R.mirCtl 30 = false →
    (rd s R.mirProd + (2 ^ 32 - rd s R.mirCons)) % 2 ^ 32 < 2 ^ getF s R.mirRsize 4 0 →
    ∃ t : State, exec (.mirrorRecordWrite Upsets.none) s = .next t ∧ t.fab.mirRecs = rest ∧
      t.out = s.out ++ hostTlps s 0 (rd64 s R.mirRbase / 4096 * 4096 + 160 * (rd s R.mirProd % 2 ^ getF s R.mirRsize 4 0)) r ∧
      rd t R.mirProd = (rd s R.mirProd + 1) % 2 ^ 32 ∧ sameRegs s t [R.mirProd] ∧ t.comp = s.comp ∧ t.deep = s.deep)

/-- R421, R424, R425, Table MIL-7: a scalar instruction writes gd with its result modulo 2^64 and goes on; every other
register and everything else stays. Completes: add, sub, and, or, xor, shl, shr, mul, addi, andi, ori, shli, shri, fld, cadd,
cset. -/
def Obligations.MillScalars : Prop :=
  ∀ (s : State) (m : MillIx) (h : HandlerSt) (w a b imm : Nat) (simm : Int), runsWord s m.val h w →
    a = regNow s m.val h (bits w 21 18) → b = regNow s m.val h (bits w 17 14) → imm = bits w 17 0 →
    simm = sext 18 imm →
    (∀ c op v, (c, op, v) ∈ [(Instr.add m, 0x01, a + b), (.sub m, 0x02, a + 2 ^ 64 - b), (.and m, 0x03, a &&& b),
        (.or m, 0x04, a ||| b), (.xor m, 0x05, a ^^^ b), (.shl m, 0x06, a <<< (b % 64)), (.shr m, 0x07, a >>> (b % 64)),
        (.mul m, 0x08, a * b)] → bits w 31 26 = op → bits w 13 0 = 0 →
      ∃ t : State, exec c s = .next t ∧ wentOn s t m.val h (h.pc + 1) (bits w 25 22) v ∧ onlyMill s t m.val) ∧
    (∀ c op v, (c, op, v) ∈ [(Instr.addi m, 0x09, twos 64 ((a : Int) + simm)), (.andi m, 0x0A, a &&& imm),
        (.ori m, 0x0B, a ||| imm), (.shli m, 0x0C, a <<< (imm % 64)), (.shri m, 0x0D, a >>> (imm % 64))] →
      bits w 31 26 = op →
      ∃ t : State, exec c s = .next t ∧ wentOn s t m.val h (h.pc + 1) (bits w 25 22) v ∧ onlyMill s t m.val) ∧
    (∀ v, bits w 31 26 = 0x0E → bits w 21 18 = 0 → frameField s ⟨m.val, h, w⟩ = some v →
      ∃ t : State, exec (.fld m) s = .next t ∧ wentOn s t m.val h (h.pc + 1) (bits w 25 22) v ∧ onlyMill s t m.val) ∧
    (bits w 31 26 = 0x0F → a < (streamOf s m.val h.stream).fld 18 2 →
      ∃ t : State, exec (.cadd m) s = .next t ∧
        ctrOf t m.val ((streamOf s m.val h.stream).fld 16 2 + a) =
          (ctrOf s m.val ((streamOf s m.val h.stream).fld 16 2 + a) + imm) % 2 ^ 32 ∧
        wentOn s t m.val h (h.pc + 1) (bits w 25 22)
          ((ctrOf s m.val ((streamOf s m.val h.stream).fld 16 2 + a) + imm) % 2 ^ 32) ∧ onlyMill s t m.val) ∧
    (bits w 31 26 = 0x10 → bits w 13 0 = 0 → a < (streamOf s m.val h.stream).fld 18 2 →
      ∃ t : State, exec (.cset m) s = .next t ∧
        ctrOf t m.val ((streamOf s m.val h.stream).fld 16 2 + a) = b % 2 ^ 32 ∧
        wentOn s t m.val h (h.pc + 1) (bits w 25 22) (ctrOf s m.val ((streamOf s m.val h.stream).fld 16 2 + a)) ∧
        onlyMill s t m.val)

/-- R423, R425, R444: nop goes on, a branch that holds adds its offset to the next address, jmp always does, end ends the
handler; the 1,025th instruction traps with BUDGET. Completes: millNop, endHandler, beq, bne, bltu, bgeu, jmp. -/
def Obligations.MillFlow : Prop :=
  (∀ (s : State) (m : MillIx) (h : HandlerSt) (w d a : Nat) (simm : Int), runsWord s m.val h w →
    d = regNow s m.val h (bits w 25 22) → a = regNow s m.val h (bits w 21 18) → simm = sext 18 (bits w 17 0) →
    (w % 2 ^ 26 = 0 → bits w 31 26 = 0x00 →
      ∃ t : State, exec (.millNop m) s = .next t ∧ wentOn s t m.val h (h.pc + 1) 0 0 ∧ onlyMill s t m.val) ∧
    (w % 2 ^ 26 = 0 → bits w 31 26 = 0x16 →
      ∃ t : State, exec (.endHandler m) s = .next t ∧ (millOf t m.val).run = none ∧
        millOf t m.val = { millOf s m.val with run := none } ∧ onlyMill s t m.val) ∧
    (∀ c op cond, (c, op, cond) ∈ [(Instr.beq m, 0x11, d == a), (.bne m, 0x12, d != a), (.bltu m, 0x13, decide (d < a)),
        (.bgeu m, 0x14, decide (a ≤ d))] → bits w 31 26 = op → 0 ≤ (h.pc : Int) + 1 + simm →
      (h.pc : Int) + 1 + simm ≤ 4095 →
      ∃ t : State, exec c s = .next t ∧
        wentOn s t m.val h (if cond then ((h.pc : Int) + 1 + simm).toNat else h.pc + 1) 0 0 ∧ onlyMill s t m.val) ∧
    (bits w 31 26 = 0x15 → bits w 25 22 = 0 → bits w 21 18 = 0 → 0 ≤ (h.pc : Int) + 1 + simm →
      (h.pc : Int) + 1 + simm ≤ 4095 →
      ∃ t : State, exec (.jmp m) s = .next t ∧ wentOn s t m.val h ((h.pc : Int) + 1 + simm).toNat 0 0 ∧ onlyMill s t m.val)) ∧
  (∀ (s : State) (m : MillIx) (h : HandlerSt), (millOf s m.val).run = some h → 1024 ≤ h.count →
    bits (codeWord s m.val h.pc) 31 26 = 0x01 →
    ∃ t : State, exec (.add m) s = .next t ∧ (millOf t m.val).run = none ∧ (streamOf t m.val h.stream).state = 2 ∧
      (streamOf t m.val h.stream).trap = 9 ∧ (streamOf t m.val h.stream).tpc = h.pc ∧ flag t R.milStat 1 = true ∧
      sameRegs s t [R.milStat, R.milTrap, R.milTrap + 4])

/-- R420, R421, R429 to R431: the handler of a frame that passes the checks starts at ENTRY; acc enters a record into its
accumulator, aclr empties a run of them, and emit sends their elements. Completes: millHandler, acc, aclr, emit. -/
def Obligations.MillSums : Prop :=
  (∀ (s : State) (m : MillIx) (q : QEntry) (rest : List QEntry), (millOf s m.val).run = none →
    (millOf s m.val).inq = q :: rest →
    (millCheck s m.val q.f = none →
      ∃ (t : State) (h : HandlerSt), exec (.millHandler m .none) s = .next t ∧ (millOf t m.val).run = some h ∧ h.stream = q.f.stream ∧ h.f = q.f ∧
        h.pc = (streamOf s m.val q.f.stream).fld 0 2 % 4096 ∧ h.count = 0 ∧ (∀ i < 8, regNow t m.val h i = 0) ∧
        (millOf t m.val).inq = rest ∧ (streamOf t m.val q.f.stream).frames =
          satAdd 32 (streamOf s m.val q.f.stream).frames 1 ∧ onlyMill s t m.val) ∧
    (∀ why, millCheck s m.val q.f = some why → why < 5 →
      ∃ t : State, exec (.millHandler m .none) s = .next t ∧ (millOf t m.val).run = none ∧ (millOf t m.val).inq = rest ∧
        rd t (R.milCnt m why) = min (2 ^ 32 - 1) (rd s (R.milCnt m why) % 2 ^ 32 + 1) ∧
        sameRegs s t [R.milCnt m why] ∧ t.outbox = s.outbox ∧ t.comp = s.comp ∧ t.deep = s.deep)) ∧
  (∀ (s : State) (m : MillIx) (h : HandlerSt) (w a b base : Nat), runsWord s m.val h w →
    a = regNow s m.val h (bits w 21 18) → b = regNow s m.val h (bits w 17 14) →
    base = (streamOf s m.val h.stream).fld 8 2 →
    (bits w 31 26 = 0x20 → bits w 17 14 = 0 → bits w 25 22 = 0 → bits w 13 0 < 8 → rfSize (bits w 13 0) ≠ 0 →
      h.f.payload.length = rfSize (bits w 13 0) → a < (streamOf s m.val h.stream).fld 10 2 →
      ∃ t : State, exec (.acc m) s = .next t ∧
        accOf t m.val (base + a) = (enterRecord (bits w 13 0) (accOf s m.val (base + a)) h.f.payload).1 ∧
        (∀ j, j ≠ base + a → accOf t m.val j = accOf s m.val j) ∧ wentOn s t m.val h (h.pc + 1) 0 0 ∧
        onlyMill s t m.val) ∧
    (bits w 31 26 = 0x21 → bits w 25 22 = 0 → bits w 13 0 = 0 → a + b ≤ (streamOf s m.val h.stream).fld 10 2 →
      ∃ t : State, exec (.aclr m) s = .next t ∧ (∀ j, base + a ≤ j → j < base + a + b → accOf t m.val j = Image.empty) ∧
        (∀ j, j < base + a ∨ base + a + b ≤ j → accOf t m.val j = accOf s m.val j) ∧
        wentOn s t m.val h (h.pc + 1) 0 0 ∧ onlyMill s t m.val) ∧
    (∀ p, outFull s m.val = false → bits w 31 26 = 0x22 → bits w 13 0 = 0xFF → b = 1 → a < (streamOf s m.val h.stream).fld 10 2 →
      pairOf s ⟨m.val, h, w⟩ = some p → p.mill = false → p.offset % 4096 ≤ 4048 → p.offset < 2 ^ 48 →
      ∃ (t : State) (g : Pkt), exec (.emit m) s = .next t ∧ t.outbox = s.outbox ++ [g] ∧ g.f.typ = 0 ∧ g.f.dst = p.dst ∧
        g.f.offset = p.offset ∧ g.f.tally = p.tally ∧ g.f.tsw = 1 ∧ g.f.payload = Image.bytes (accOf s m.val (base + a)) ∧
        wentOn s t m.val h (h.pc + 1) 0 0 ∧ t.regs = s.regs ∧ t.comp = s.comp ∧ t.deep = s.deep))

/-- R434 to R442, R419: a record enters the sort section in its place, take sends records and may empty the section, gath
sends or holds a payload, disp deals or holds records, flush of nothing held sends nothing, sclr empties, a removal ends
with no handler of its stream. Completes: sort, take, gathRank, gathArrival, disp, flush, sclr, streamRemoveDone. -/
def Obligations.MillSections : Prop :=
  (∀ (s : State) (m : MillIx) (h : HandlerSt) (w : Nat) (x : StreamSt), runsWord s m.val h w →
    x = streamOf s m.val h.stream →
    (∀ r, bits w 31 26 = 0x23 → w % 2 ^ 26 = 0 → h.f.payload.length = 16 → r = sortRecOf x h.f.rank false h.f.payload →
      (∀ y ∈ x.sort, y.disp = false) → x.fld 24 4 = 0 → x.sort.length < 16 * x.fld 14 2 →
      (∀ y ∈ x.sort, recEqual x y r = false) →
      ∃ t : State, exec (.sort m) s = .next t ∧ (streamOf t m.val h.stream).sort = insertRec x r x.sort ∧
        wentOn s t m.val h (h.pc + 1) 0 0 ∧ onlyMill s t m.val) ∧
    (∀ p r, outFull s m.val = false → bits w 31 26 = 0x24 → bits w 13 0 < 2 → regNow s m.val h (bits w 21 18) = 0 →
      regNow s m.val h (bits w 17 14) = 1 → x.sort.head? = some r → r.disp = false →
      pairOf s ⟨m.val, h, w⟩ = some p → p.offset < 2 ^ 48 →
      ∃ (t : State) (g : Pkt), exec (.take m) s = .next t ∧ t.outbox = s.outbox ++ [g] ∧ g.f.payload = SortRec.bytes r ∧
        g.f.offset = p.offset ∧ g.f.dst = p.dst ∧
        (streamOf t m.val h.stream).sort = (if bits w 13 0 = 1 then [] else x.sort) ∧
        wentOn s t m.val h (h.pc + 1) 0 0 ∧ t.regs = s.regs ∧ t.comp = s.comp ∧ t.deep = s.deep) ∧
    (∀ p, outFull s m.val = false → bits w 31 26 = 0x25 → bits w 13 0 = 0 → pairOf s ⟨m.val, h, w⟩ = some p → h.f.payload.length = 16 →
      p.offset + h.f.rank * regNow s m.val h (bits w 21 18) + h.f.offset < 2 ^ 48 →
      (p.offset + h.f.rank * regNow s m.val h (bits w 21 18) + h.f.offset) % 16 = 0 →
      ∃ (t : State) (g : Pkt), exec (.gathRank m) s = .next t ∧ t.outbox = s.outbox ++ [g] ∧ g.f.payload = h.f.payload ∧ g.f.dst = p.dst ∧
        g.f.offset = p.offset + h.f.rank * regNow s m.val h (bits w 21 18) + h.f.offset ∧
        wentOn s t m.val h (h.pc + 1) 0 0 ∧ t.regs = s.regs ∧ t.comp = s.comp ∧ t.deep = s.deep) ∧
    (∀ p, outFull s m.val = false → bits w 31 26 = 0x25 → bits w 13 0 = 1 → pairOf s ⟨m.val, h, w⟩ = some p → StreamSt.detl x = true →
      regNow s m.val h (bits w 17 14) < x.fld 18 2 → heldBytes s m.val + h.f.payload.length ≤ 512 * 1024 →
      ∃ t : State, exec (.gathArrival m) s = .next t ∧ (streamOf t m.val h.stream).held =
        x.held ++ [⟨h.f.rank, h.f.offset, regNow s m.val h (bits w 17 14), h.f.payload⟩] ∧
        wentOn s t m.val h (h.pc + 1) 0 0 ∧ onlyMill s t m.val) ∧
    (∀ r, outFull s m.val = false → bits w 31 26 = 0x26 → w % 2 ^ 26 = 0 → h.f.payload.length = 16 → r = sortRecOf x h.f.rank true h.f.payload →
      (∀ y ∈ x.sort, y.disp = true) → r.tag % 65536 < x.fld 22 2 → StreamSt.detl x = true →
      x.sort.length < 16 * x.fld 14 2 → (∀ y ∈ x.sort, recEqual x y r = false) →
      ∃ t : State, exec (.disp m) s = .next t ∧ (streamOf t m.val h.stream).sort = insertRec x r x.sort ∧
        wentOn s t m.val h (h.pc + 1) 0 0 ∧ onlyMill s t m.val) ∧
    (∀ p, outFull s m.val = false → bits w 31 26 = 0x27 → bits w 21 0 = 0 → pairOf s ⟨m.val, h, w⟩ = some p → x.held = [] →
      (∀ y ∈ x.sort, y.disp = false) → (millOf s m.val).disp = [] →
      ∃ t : State, exec (.flush m) s = .next t ∧ t.outbox = s.outbox ∧ (streamOf t m.val h.stream).sort = x.sort ∧
        wentOn s t m.val h (h.pc + 1) 0 0 ∧ onlyMill s t m.val) ∧
    (bits w 31 26 = 0x28 → w % 2 ^ 26 = 0 →
      ∃ t : State, exec (.sclr m) s = .next t ∧ (streamOf t m.val h.stream).sort = [] ∧ wentOn s t m.val h (h.pc + 1) 0 0 ∧
        onlyMill s t m.val)) ∧
  (∀ (s : State) (m : MillIx) (n : Byte), (streamOf s m.val n.toNat).removing = true → (millOf s m.val).run = none →
    (streamOf s m.val n.toNat).waiters = [] → (streamOf s m.val n.toNat).byWin = false →
    ∃ t : State, exec (.streamRemoveDone m n) s = .next t ∧ (streamOf t m.val n.toNat).valid = false ∧
      (streamOf t m.val n.toNat).removing = false ∧ (streamOf t m.val n.toNat).held = [] ∧ onlyMill s t m.val)

/-- R479, R480: a delay request that is due leaves with its send time; a request that arrives is answered 256 ns later
with its arrival time; a reply gives a round trip and the responder's offset. Completes: delayExchangeStart, delayRequest,
delayReplySend, delayReply. -/
def Obligations.DelayExchanges : Prop :=
  ∀ (s : State) (p : Port), dead s = false → flag s R.mirCtl 31 = false →
    (∀ t : DWord, portUp s p.val = true → linkRoom s p.val = true → (delayExchOf s p.val).due ≤ s.time.lamp →
      ∃ (u : State) (b : List Byte), exec (.delayExchangeStart p t) s = .next u ∧ u.out = s.out ++ [.linkUnit p.val b] ∧
        (delayExchOf u p.val).reqs = (delayExchOf s p.val).reqs ++ [t.toNat] ∧
        (delayExchOf u p.val).left = (delayExchOf s p.val).left - 1 ∧
        (portOf u p.val).unacked.length = (portOf s p.val).unacked.length + 1 ∧ u.regs = s.regs ∧ u.comp = s.comp ∧
        u.deep = s.deep) ∧
    (∀ (t : DWord) (x : RxPkt) (rest : List RxPkt), rxOf s p.val = x :: rest → x.f.typ = 8 → x.f.tsw % 65536 = 0 →
      doorCheck s x.f (some p.val) = none →
      ∃ u : State, exec (.delayRequest p t) s = .next u ∧ rxOf u p.val = rest ∧
        (delayExchOf u p.val).replies = (delayExchOf s p.val).replies ++ [t.toNat] ∧ u.regs = s.regs ∧ u.out = s.out ∧
        u.comp = s.comp ∧ u.deep = s.deep) ∧
    (∀ t2 rest, (delayExchOf s p.val).replies = t2 :: rest → t2 + 16384 ≤ s.time.now / 2 ^ 26 → portUp s p.val = true →
      linkRoom s p.val = true →
      ∃ (u : State) (b : List Byte), exec (.delayReplySend p) s = .next u ∧ u.out = s.out ++ [.linkUnit p.val b] ∧
        (delayExchOf u p.val).replies = rest ∧
        (∃ e, (portOf u p.val).unacked.getLast? = some e ∧ e.e.f.typ = 8 ∧ e.e.f.tsw = 1 ∧
          e.e.f.payload = leBytes 8 t2 ++ zeros 8) ∧ u.regs = s.regs ∧ u.comp = s.comp ∧ u.deep = s.deep) ∧
    (∀ (t : DWord) (x : RxPkt) (rest : List RxPkt) (t1 : Nat) (rs : List Nat), rxOf s p.val = x :: rest → x.f.typ = 8 →
      x.f.tsw % 65536 = 1 → doorCheck s x.f (some p.val) = none → (delayExchOf s p.val).reqs = t1 :: rs →
      (delayExchOf s p.val).samples.length < 15 →
      ∃ u : State, exec (.delayReply p t) s = .next u ∧ rxOf u p.val = rest ∧ (delayExchOf u p.val).reqs = rs ∧
        (delayExchOf u p.val).samples = ((t.toNat : Int) - t1 - 16384) :: (delayExchOf s p.val).samples ∧
        (delayExchOf u p.val).offset = 2 * ((leAt x.f.payload 0 8 : Int) - t1) - ((t.toNat : Int) - t1 - 16384) ∧
        u.regs = s.regs ∧ u.out = s.out ∧ u.comp = s.comp ∧ u.deep = s.deep)

/-- R474, R484 to R487, R490 (Table DET-1), R629: bursts of a source and of a relay; the first frame of a burst opens its
window; LOCKED becomes HOLDOVER; a standby takes over; the reference is lost; GSYNC is captured and driven. Completes:
burstSend, burstRelay, tsyncBurstFrame, holdoverEnter, standbyTakeover, referenceLoss, gsyncCapture, gsyncPulse. -/
def Obligations.GangBursts : Prop :=
  ∀ s : State, dead s = false →
    (∀ t : DWord, gangState s = 4 → s.gang.nextBurst ≤ s.time.lamp →
      ∃ u : State, exec (.burstSend t) s = .next u ∧ u.gang.nextBurst = s.time.lamp + 1000 * getF s R.gngCtl 23 16 ∧
        u.gang = { s.gang with nextBurst := u.gang.nextBurst } ∧ u.comp = s.comp ∧ u.deep = s.deep ∧ u.time = s.time ∧
        ((∀ p < 64, portUp s p = false) → u.regs = s.regs ∧ u.out = s.out)) ∧
    (∀ (t : DWord) (src : Nat) (rest : List Nat), s.gang.relay = src :: rest →
      ∃ u : State, exec (.burstRelay t) s = .next u ∧ u.gang = { s.gang with relay := rest } ∧ u.comp = s.comp ∧
        u.deep = s.deep ∧ u.time = s.time) ∧
    (∀ (p : Port) (t : DWord) (x : RxPkt) (rest : List RxPkt), flag s R.mirCtl 31 = false → rxOf s p.val = x :: rest →
      x.f.typ = 8 → x.f.blen ≠ 0 → x.f.bseq = 0 → doorCheck s x.f (some p.val) = none → gangState s ≠ 0 →
      s.gang.bursts = [] →
      ∃ u : State, exec (.tsyncBurstFrame p t) s = .next u ∧ rxOf u p.val = rest ∧
        u.gang = { s.gang with bursts := [(p.val, ⟨x.f.src, x.f.blen, 1, t.toNat,
          (leAt x.f.payload 0 8 : Int) - t.toNat, false⟩)] } ∧ u.regs = s.regs ∧ u.time = s.time ∧ u.comp = s.comp ∧
        u.deep = s.deep) ∧
    (∀ t, s.gang.burstAt = some t → gangState s = 2 → t + 2000 * getF s R.gngCtl 23 16 ≤ s.time.lamp →
      exec .holdoverEnter s = .next (setF s R.gngStat 2 0 3)) ∧
    (∀ t : DWord, getF s R.gngCtl 29 28 = 2 → gangState s = 2 → s.gang.masterAt + 200000 ≤ s.time.lamp →
      ∃ u : State, exec (.standbyTakeover t) s = .next u ∧ gangState u = 4 ∧ flag u R.gngStat 4 = true ∧
        flag u R.gngStat 3 = true ∧ u.comp = s.comp ∧ u.deep = s.deep ∧ u.time = s.time) ∧
    (flag s R.tbCtl 16 = true → s.time.refLost = false →
      ∃ u : State, exec .referenceLoss s = .next u ∧ u.time = { s.time with refLost := true } ∧ flag u R.tbStat 0 = true ∧
        u = { s with regs := u.regs, time := u.time } ∧ sameRegs s u [R.tbStat]) ∧
    ((∀ t, s.time.capAt = some t → t + 1000 < s.time.lamp) → nowNs s < 2 ^ 64 →
      ∃ u : State, exec .gsyncCapture s = .next u ∧ rd64 u R.tbGscap = nowNs s ∧ flag u R.tbStat 2 = true ∧
        u.time = { s.time with capAt := some s.time.lamp } ∧ u = { s with regs := u.regs, time := u.time } ∧
        sameRegs s u [R.tbGscap, R.tbGscap + 4, R.tbStat]) ∧
    (∀ per, per = 1000 * getF s R.tbCtl 15 0 → flag s R.tbCtl 31 = true → per ≠ 0 → nowNs s % per < 100 →
      s.time.pulse ≠ nowNs s / per * per →
      exec .gsyncPulse s = .next { s with
        time := { s.time with pulse := nowNs s / per * per }
        out := s.out ++ [.pin "GSYNC_OUT" true] ++ [.pin "GSYNC_OUT" false] })

/-- R497 to R499: an arrival that the entry refuses is counted; a local one counts, and the last of a round sends one
WRITE to the source; the last device's arrival at the source sends the start bell with T rounded up to a slot; a start
bell makes the local write of T. Completes: barrierArrival, barrierStartBell. -/
def Obligations.Barriers : Prop :=
  (∀ (s : State) (p : Pkt) (rest : List Pkt) (b : Nat), s.inbox = p :: rest → isArrival s p.f = true → b = p.f.offset / 16 →
    (bit (rd s (R.gngBar0 b)) 31 = false ∨ bits (rd s (R.gngBar0 b)) 11 0 ≠ p.f.job ∨ p.f.len ≠ 1 →
      ∃ t : State, exec .barrierArrival s = .next t ∧ t.inbox = rest ∧
        rd t R.gngCntBref = min (2 ^ 32 - 1) (rd s R.gngCntBref % 2 ^ 32 + 1) ∧
        t = { s with inbox := rest, regs := t.regs } ∧ sameRegs s t [R.gngCntBref]) ∧
    (bit (rd s (R.gngBar0 b)) 31 = true → bits (rd s (R.gngBar0 b)) 11 0 = p.f.job → p.f.len = 1 →
      (∀ core fn l c, p.org = .core core fn l c →
        ((barOf s b).1 + 1 < getF s (R.gngBar0 b) 23 12 →
          ∃ t : State, exec .barrierArrival s = .next t ∧ barOf t b = ((barOf s b).1 + 1, (barOf s b).2) ∧
            t = { s with inbox := rest, gang := { s.gang with bars := t.gang.bars } }) ∧
        (getF s (R.gngBar0 b) 23 12 ≤ (barOf s b).1 + 1 →
          ∃ (t : State) (g : Pkt), exec .barrierArrival s = .next t ∧
            barOf t b = ((barOf s b).1 + 1 - getF s (R.gngBar0 b) 23 12, (barOf s b).2) ∧ t.outbox = s.outbox ++ [g] ∧
            g.f.typ = 0 ∧ g.f.len = 1 ∧ g.f.tsw = 1 ∧ g.f.offset = 16 * b ∧ g.f.dst = sourceEp s ∧
            g.f.job = p.f.job ∧ t.regs = s.regs ∧ t.comp = s.comp ∧ t.deep = s.deep)) ∧
      (∀ a, p.org = .port a → gangState s = 4 → getF s (R.gngBar1 b) 12 0 ≤ (barOf s b).2 + 1 →
        ∃ (t : State) (g : Pkt), exec .barrierArrival s = .next t ∧
          barOf t b = ((barOf s b).1, (barOf s b).2 + 1 - getF s (R.gngBar1 b) 12 0) ∧ t.outbox = s.outbox ++ [g] ∧
          g.f.typ = 6 ∧ g.f.mc = true ∧ g.f.dst = getF s (R.gngBar1 b) 27 16 ∧ g.f.tsw = 6 + 256 * b ∧
          g.f.payload = leBytes 8 (24 * ceilDiv (s.time.now + bits (rd s (R.gngBar0 b)) 30 24 * 1000 * 2 ^ 32)
            (24 * 2 ^ 32)) ++ zeros 8 ∧ t.regs = s.regs ∧ t.comp = s.comp ∧ t.deep = s.deep))) ∧
  (∀ (s : State) (p : Pkt) (rest : List Pkt) (b : Nat), s.inbox = p :: rest → p.f.typ = 6 → p.f.code = 6 →
    b = p.f.arg % 64 → flag s (R.gngBar0 b) 31 = true →
    ∃ (t : State) (g : Pkt), exec .barrierStartBell s = .next t ∧ t.inbox = rest ∧ t.outbox = s.outbox ++ [g] ∧ g.f.typ = 0 ∧
      g.f.dst = bits (rd s (R.gngBar2 b)) 15 0 ∧ g.f.tally = bits (rd s (R.gngBar2 b)) 31 16 ∧ g.f.tsw = 1 ∧
      g.f.offset = getF s (R.gngBar3 b) 31 4 * 16 ∧ g.f.payload = leBytes 8 (leAt p.f.payload 0 8) ++ zeros 8 ∧
      (leAt p.f.payload 0 8 * 2 ^ 32 < s.time.now + 1000 * 2 ^ 32 → flag t R.gngStat 6 = true ∧
        rd t R.gngCntLate = min (2 ^ 32 - 1) (rd s R.gngCntLate % 2 ^ 32 + 1)) ∧
      (s.time.now + 1000 * 2 ^ 32 ≤ leAt p.f.payload 0 8 * 2 ^ 32 → t.regs = s.regs) ∧
      sameRegs s t [R.gngCntLate, R.gngStat] ∧ t.comp = s.comp ∧ t.deep = s.deep)

/-- R551 to R553, R565: a good frame with the LSEQ expected is accepted and ACK moves on; one with another LSEQ is
discarded and sets NAK; a replay timeout sends every unacknowledged frame again; an idle is sent; a bad lane falls into
BAD; WREQ is answered, WACK fixes the switch, and at AT the port takes its lanes and width. Completes: linkUnitReceive,
linkReplayTimeout, linkIdleSend, laneFail, wreq, wack, widthSwitch. -/
def Obligations.LinkTraffic : Prop :=
  ∀ (s : State) (p : Port), portState s p.val = 2 →
    (∀ (data : List Byte) (lseq : Nat), lcrcOk data = true → leAt data 0 2 = lseq → lseq < 16384 →
      bit (leAt data 2 2) 14 = false → (portOf s p.val).failSent = false →
      ∃ t : State, exec (.linkUnitReceive p data false []) s = .next t ∧
        (lseq = (portOf s p.val).ack → (portOf t p.val).ack = (lseq + 1) % 16384 ∧ (portOf t p.val).nak = false ∧
          rxOf t p.val = rxOf s p.val ++
            [⟨Frame.ofBytes ((data.drop 8).take (data.length - 16)), bit (leAt data 2 2) 15⟩]) ∧
        (lseq ≠ (portOf s p.val).ack → (portOf t p.val).ack = (portOf s p.val).ack ∧ (portOf t p.val).nak = true ∧
          rxOf t p.val = rxOf s p.val) ∧
        (portOf t p.val).unacked = (portOf s p.val).unacked.filter (fun f => !seqBelow f.lseq (leAt data 2 2 % 16384)) ∧
        t.regs = s.regs ∧ t.comp = s.comp ∧ t.deep = s.deep ∧ t.out = s.out) ∧
    ((portOf s p.val).unacked ≠ [] → (portOf s p.val).advanced + 2 * linkDelay s p.val + 1000 ≤ s.time.lamp →
      (portOf s p.val).errs.length + 1 < getF s (R.prtElim p) 15 0 →
      ∃ (t : State) (l : List Emission), exec (.linkReplayTimeout p) s = .next t ∧ t.out = s.out ++ l ∧ l.length = (portOf s p.val).unacked.length ∧
        (portOf t p.val).unacked = (portOf s p.val).unacked ∧ (portOf t p.val).advanced = s.time.lamp ∧
        rd t (R.prtCnt p 2) = min (2 ^ 32 - 1) (rd s (R.prtCnt p 2) % 2 ^ 32 + 1) ∧ sameRegs s t [R.prtCnt p 2] ∧
        portState t p.val = 2 ∧ t.comp = s.comp ∧ t.deep = s.deep) ∧
    (hasFrame s p.val = false →
      exec (.linkIdleSend p) s = .next { s with out := s.out ++ [.linkUnit p.val (linkUnit s p.val 2 0 false [])] }) ∧
    (∀ l : Fin 8, flag s (R.prtLane p) (8 + l.val) = true →
      ∃ t : State, exec (.laneFail p l) s = .next t ∧ flag t (R.prtLane p) (8 + l.val) = false ∧
        flag t (R.prtLane p) (16 + l.val) = true ∧ portState t p.val = 2 ∧ t.comp = s.comp ∧ t.deep = s.deep) ∧
    (∀ (a : Nat) (b : List Byte) (r : List (Nat × List Byte)) (cw : Word), (portOf s p.val).ctlIn = (a, b) :: r →
      byteAt b 0 = 1 → (portOf s p.val).width = none → 1 ≤ askedWidth s p.val → 1 ≤ byteAt b 1 →
      2 ≤ laneCount (byteAt b 2 &&& usableLanes s p.val) →
      ∃ (t : State) (u : List Byte) (x : WidthSt), exec (.wreq p cw) s = .next t ∧ t.out = s.out ++ [.linkUnit p.val u] ∧ (portOf t p.val).ctlIn = r ∧
        (portOf t p.val).width = some x ∧ x.at0.isSome ∧ x.width = min (min (askedWidth s p.val) (byteAt b 1))
          (widestFit (laneCount (byteAt b 2 &&& usableLanes s p.val))) ∧
        x.mask = lowestLanes (byteAt b 2 &&& usableLanes s p.val) (widthLanes x.width) ∧ t.regs = s.regs ∧
        t.comp = s.comp ∧ t.deep = s.deep) ∧
    (∀ (a : Nat) (b : List Byte) (r : List (Nat × List Byte)) (m w : Nat), (portOf s p.val).ctlIn = (a, b) :: r →
      byteAt b 0 = 2 → (portOf s p.val).width = some ⟨m, w, none⟩ →
      ∃ t : State, exec (.wack p) s = .next t ∧ (portOf t p.val).ctlIn = r ∧
        (portOf t p.val).width = some ⟨byteAt b 2, byteAt b 1 % 4, some (leAt b 4 4)⟩ ∧ t.regs = s.regs ∧ t.out = s.out ∧
        t.comp = s.comp ∧ t.deep = s.deep) ∧
    (∀ m w at0, (portOf s p.val).width = some ⟨m, w, some at0⟩ → m < 256 → w < 4 → s.cir.live = [] →
      (∀ x ∈ s.cir.slots, x.port ≠ p.val) →
      ∃ t : State, exec (.widthSwitch p) s = .next t ∧ (portOf t p.val).width = none ∧ getF t (R.prtLane p) 15 8 = m ∧
        getF t (R.prtStat p) 5 4 = w ∧ flag t (R.prtStat p) 18 = true ∧ portState t p.val = 2 ∧
        sameRegs s t [R.prtLane p, R.prtStat p] ∧ t.comp = s.comp ∧ t.deep = s.deep)

/-- R557, R559 to R564, Table LNK-6, R33: a side that is told RESULT reaches UP with it, where it follows, or leads and decided
the same; a failed training is tried again; a quiet port sends FAIL at the end of its bells, goes DOWN on the peer's FAIL, on
the timeout and on signal loss, alone or with the ports of its optical engine, leaves UP at the end of its drain, and trains
again after 1 ms. R568: a link report of the port's peer settles its frames in doubt: those below its ACK are counted as
discarded; with no report in 16 microseconds they are counted as lost. Completes: trainingUnitReceive, trainRetry,
failingBellsEnd, failReceive, failingTimeout, signalLoss, portDrainEnd, downTimeout, linkReport, linkReportTimeout. -/
def Obligations.PortLife : Prop :=
  (∀ (s : State) (p : Port),
    (∀ (data : List Byte) (good : Byte) (u w lvl : Nat), portState s p.val = 1 → (portOf s p.val).retry = none →
      (portOf s p.val).wasUp = false → (portOf s p.val).lastPeer = 0 → data.length = 32 →
      leAt data 28 4 = crc32c (data.take 28) → bit (byteAt data 14) 1 = true →
      u = byteAt data 12 &&& (good.toNat &&& (255 - getF s (R.prtLane p) 31 24)) → 2 ≤ laneCount u →
      w = min (min (askedWidth s p.val) (byteAt data 11)) (widestFit (laneCount u)) →
      lvl = min (byteAt data 13 / 16) (offeredMax s p.val) →
      max (byteAt data 13 % 16) (getF s (R.prtLvl p) 3 0) ≤ lvl → byteAt data 19 < 4 → byteAt data 20 < 16 →
      (Config.devid.toNat < leAt data 0 8 ∨ (leAt data 0 8 < Config.devid.toNat ∧
        byteAt data 18 = lowestLanes u (widthLanes w) ∧ byteAt data 19 = w ∧ byteAt data 20 = lvl)) →
      ∃ t : State, exec (.trainingUnitReceive p data good) s = .next t ∧ portState t p.val = 2 ∧
        getF t (R.prtLane p) 15 8 = byteAt data 18 ∧ getF t (R.prtStat p) 5 4 = byteAt data 19 ∧
        getF t (R.prtStat p) 11 8 = byteAt data 20 ∧ rd64 t (R.prtPeer p) = leAt data 0 8 ∧
        getF t (R.prtPeerx p) 31 16 = leAt data 8 2 ∧ flag t (R.gngPdly p) 31 = false ∧
        (delayExchOf t p.val).left = 16 ∧ (portOf t p.val).next = 0 ∧ (portOf t p.val).ack = 0 ∧ t.comp = s.comp ∧
        t.deep = s.deep) ∧
    (∀ t0, (portOf s p.val).retry = some t0 → portState s p.val = 1 → t0 ≤ s.time.lamp →
      flag s (R.prtStat p) 25 = false → flag s (R.prtCtl p) 31 = true → s.power.lamp = 0 →
      ∃ (t : State) (u : List Byte), exec (.trainRetry p) s = .next t ∧ portState t p.val = 1 ∧ (portOf t p.val).retry = none ∧
        t.out = s.out ++ [.linkUnit p.val u] ∧ t.comp = s.comp ∧ t.deep = s.deep) ∧
    (portState s p.val = 3 → (portOf s p.val).failSent = false → quietPort s p.val →
      ∃ (t : State) (u : List Byte), exec (.failingBellsEnd p) s = .next t ∧ (portOf t p.val).failSent = true ∧
        t.out = s.out ++ [.linkUnit p.val u] ∧ portState t p.val = 3 ∧ t.regs = s.regs ∧ t.comp = s.comp ∧
        t.deep = s.deep) ∧
    (∀ (a : Nat) (b : List Byte) (r : List (Nat × List Byte)), portState s p.val = 3 → (portOf s p.val).failSent = true →
      (portOf s p.val).ctlIn = (a, b) :: r → byteAt b 0 = 3 → (portOf s p.val).unacked = [] →
      flag s (R.prtStat p) 25 = false →
      ∃ t : State, exec (.failReceive p) s = .next t ∧ portState t p.val = 4 ∧ flag t (R.prtStat p) 16 = true ∧
        (portOf t p.val).doubt = [] ∧ t.out = s.out ∧ t.comp = s.comp ∧ t.deep = s.deep) ∧
    (portState s p.val = 3 → (portOf s p.val).failSent = true → flag s (R.prtStat p) 25 = false →
      (portOf s p.val).since + 2 * linkDelay s p.val + 1500 ≤ s.time.lamp →
      ∃ (t : State) (g : Pkt), exec (.failingTimeout p) s = .next t ∧ portState t p.val = 4 ∧
        (portOf t p.val).doubt = (portOf s p.val).unacked ∧ t.outbox = s.outbox ++ [g] ∧ g.f.typ = 0 ∧ g.f.job = 0xFFF ∧
        g.f.offset = 0x400 + 16 * getF s (R.prtPeerx p) 5 0 ∧ g.f.dst = getF s (R.prtPeerx p) 31 16 ∧
        g.f.payload = leBytes 8 Config.devid.toNat ++ leBytes 2 (portOf s p.val).ack ++ zeros 6 ∧ t.comp = s.comp ∧
        t.deep = s.deep) ∧
    (portState s p.val = 2 → quietPort s p.val → flag s (R.prtStat p) 25 = false →
      ∃ (t : State) (g : Pkt), exec (.signalLoss (.port p)) s = .next t ∧ portState t p.val = 4 ∧ flag t (R.prtStat p) 16 = true ∧
        flag t (R.cirPort p) 31 = false ∧ (portOf t p.val).doubt = (portOf s p.val).unacked ∧
        (portOf t p.val).unacked = [] ∧ t.outbox = s.outbox ++ [g] ∧ g.f.job = 0xFFF ∧ t.comp = s.comp ∧
        t.deep = s.deep) ∧
    (∀ k : Fin 16, engineOf p.val = k.val → (∀ q, engineOf q = k.val → portState s q = 2 ∧ quietPort s q ∧
        flag s (R.prtStat q) 25 = false) →
      ∃ t : State, exec (.signalLoss (.engine k)) s = .next t ∧ portState t p.val = 4 ∧ flag t (R.prtStat p) 16 = true ∧
        (portOf t p.val).doubt = (portOf s p.val).unacked ∧ t.outbox.length = s.outbox.length + 4 ∧ t.comp = s.comp ∧
        t.deep = s.deep) ∧
    (∀ t0, (portOf s p.val).stopping = some (0, t0) → (portOf s p.val).unacked = [] → flag s (R.prtCtl p) 31 = false →
      ∃ t : State, exec (.portDrainEnd p) s = .next t ∧ portState t p.val = 0 ∧ flag t (R.prtStat p) 16 = true ∧
        (portOf t p.val).stopping = none ∧ t.outbox = s.outbox ∧ t.comp = s.comp ∧ t.deep = s.deep) ∧
    (portState s p.val = 4 → (portOf s p.val).since + 1000000 ≤ s.time.lamp → flag s (R.prtStat p) 25 = false →
      flag s (R.prtCtl p) 31 = true → s.power.lamp = 0 →
      ∃ (t : State) (u : List Byte), exec (.downTimeout p) s = .next t ∧ portState t p.val = 1 ∧ t.out = s.out ++ [.linkUnit p.val u] ∧
        t.comp = s.comp ∧ t.deep = s.deep)) ∧
  ((∀ (s : State) (k : Pkt) (rest : List Pkt) (p : Port) (ack : Nat), s.inbox = k :: rest → isReport k.f = true →
    k.f.offset = 0x400 + 16 * p.val → leAt k.f.payload 0 8 = rd64 s (R.prtPeer p) →
    ack = leAt k.f.payload 8 2 % 16384 → (∀ f ∈ (portOf s p.val).doubt, seqBelow f.lseq ack = true) →
    ∃ t : State, exec .linkReport s = .next t ∧ t.inbox = rest ∧ (portOf t p.val).doubt = [] ∧
      rd t (R.prtCnt p 4) = min (2 ^ 32 - 1) (rd s (R.prtCnt p 4) % 2 ^ 32 + (portOf s p.val).doubt.length) ∧
      sameRegs s t [R.prtCnt p 3, R.prtCnt p 4] ∧ t.outbox = s.outbox ∧ t.comp = s.comp ∧ t.deep = s.deep) ∧
  (∀ (s : State) (p : Port), (portOf s p.val).doubt ≠ [] → (portOf s p.val).doubtAt + 16000 ≤ s.time.lamp →
    ∃ t : State, exec (.linkReportTimeout p) s = .next t ∧ (portOf t p.val).doubt = [] ∧ flag t (R.prtStat p) 21 = true ∧
      rd t (R.prtCnt p 5) = min (2 ^ 32 - 1) (rd s (R.prtCnt p 5) % 2 ^ 32 + (portOf s p.val).doubt.length) ∧
      sameRegs s t [R.prtCnt p 5, R.prtStat p] ∧ t.comp = s.comp ∧ t.deep = s.deep))

/-- R577, R578, R590, R592: an evaluation leaves every grant at or below its target, its FMAX and its old value (a rise
waits for its voltage, R579); an island at or above THROT by the readings of the evaluation, or running while the estimate
exceeds the cap and no device fault stops it, falls by one code; a sensor at WARN sets WARN. In the lamp state no grant
changes. R577, R579, R590 to R592: an island at 105 degrees for 100 microseconds is granted code 0, an event on its
cluster; a rise's clock switches at its voltage; a droop halves the clock and is counted, and ends after 16 cycles;
telemetry corrects the estimate. Completes: healthEvaluate, thermalLimit, grantSwitch, droop, powerTelemetry, droopRecovery. -/
def Obligations.GrantControl : Prop :=
  (∀ (s : State) (r : Readings),
    ∃ t : State, exec (.healthEvaluate r) s = .next t ∧
      (s.power.lamp = 0 → ∀ (d : Die) (i : Clu),
        grantOf t (cluNo d i) ≤ grantOf s (cluNo d i) ∧
        grantOf t (cluNo d i) ≤ getF s (R.pwrIsl (cluNo d i)) 4 0 ∧
        grantOf t (cluNo d i) ≤ getF s (R.pwrIsl (cluNo d i)) 20 16 ∧
        (4 * (getF s R.pwrTherm 15 8 : Int) ≤ (islOf (takeReadings s r) (cluNo d i)).temp →
          grantOf t (cluNo d i) ≤ grantOf s (cluNo d i) - 1 ∧ (islOf t (cluNo d i)).throt = true) ∧
        (getF s R.pwrCap 11 0 < ((r.watts : Int) + s.power.corr).toNat → flag t R.pwrStat 3 = true ∧
          (busy s (cluNo d i) = true → dozing s (cluNo d i) = false →
            grantOf t (cluNo d i) ≤ grantOf s (cluNo d i) - 1 ∨
              (flag s R.glbFault 31 = false ∧ flag t R.glbFault 31 = true)))) ∧
      (s.power.lamp ≠ 0 → ∀ (d : Die) (i : Clu), rd t (R.pwrIsl (cluNo d i)) = rd s (R.pwrIsl (cluNo d i))) ∧
      (∀ e ∈ r.temps, e.1 < 1280 → r.temps = [e] → (islOf t e.1).temp = e.2) ∧
      (4 * (getF s R.pwrTherm 7 0 : Int) ≤ r.switchDie → flag t R.pwrStat 2 = true) ∧
      (432 ≤ r.switchDie → t.power.tripped = true ∧ (s.power.tripped = false → flag t R.glbFault 31 = true)) ∧
      (∀ (d : Die) (i : Clu), getF t (R.pwrIsl (cluNo d i)) 4 0 = getF s (R.pwrIsl (cluNo d i)) 4 0 ∧
        getF t (R.pwrIsl (cluNo d i)) 30 16 = getF s (R.pwrIsl (cluNo d i)) 30 16) ∧
      t.comp.store = s.comp.store ∧ t.deep = s.deep ∧ t.fab = s.fab ∧ t.time = s.time) ∧
  ((∀ (s : State) (d : Die) (i : Clu) (t0 : Nat), (islOf s (cluNo d i)).hot = some t0 →
    (islOf s (cluNo d i)).limited = false → t0 + 100000 ≤ s.time.lamp → isRetired s (.cluster (cluNo d i)) = false →
    Res.cluster (cluNo d i) ∉ s.flt.retiring → (timesOf s (.cluster (cluNo d i))).length + 1 < getF s R.glbFwin 3 0 →
    ∃ t : State, exec (.thermalLimit d i) s = .next t ∧ grantOf t (cluNo d i) = 0 ∧ (islOf t (cluNo d i)).limited = true ∧
      timesOf t (.cluster (cluNo d i)) = lampTick s :: timesOf s (.cluster (cluNo d i)) ∧
      t = { s with regs := t.regs, power := t.power, flt := t.flt } ∧ sameRegs s t [R.pwrIsl (cluNo d i)]) ∧
  (∀ (s : State) (d : Die) (i : Clu) (c due : Nat), (islOf s (cluNo d i)).rise = some (c, due) → due ≤ s.time.lamp →
    ∃ t : State, exec (.grantSwitch d i) s = .next t ∧ (islOf t (cluNo d i)).rise = none ∧
      grantOf t (cluNo d i) = min c (min (getF s (R.pwrIsl (cluNo d i)) 4 0) (getF s (R.pwrIsl (cluNo d i)) 20 16)) ∧
      (∀ g, g ≠ cluNo d i → islOf t g = islOf s g) ∧
      t = { s with regs := t.regs, power := t.power } ∧ sameRegs s t [R.pwrIsl (cluNo d i)]) ∧
  (∀ (s : State) (d : Die) (i : Clu), (islOf s (cluNo d i)).droop = none → dozing s (cluNo d i) = false →
    ∃ t : State, exec (.droop d i) s = .next t ∧ (islOf t (cluNo d i)).droop = some s.time.lamp ∧
      rd t R.pwrCntDroop = min (2 ^ 32 - 1) (rd s R.pwrCntDroop % 2 ^ 32 + 1) ∧
      t = { s with regs := t.regs, power := t.power } ∧ sameRegs s t [R.pwrCntDroop]) ∧
  (∀ (s : State) (d : Die) (i : Clu) (t0 : Nat), (islOf s (cluNo d i)).droop = some t0 →
    (s.time.lamp < t0 + ceilDiv 32000 (islandMHz s (cluNo d i)) → exec (.droopRecovery d i) s = .next s) ∧
    (t0 + ceilDiv 32000 (islandMHz s (cluNo d i)) ≤ s.time.lamp →
      ∃ t : State, exec (.droopRecovery d i) s = .next t ∧ (islOf t (cluNo d i)).droop = none ∧
        (∀ g, g ≠ cluNo d i → islOf t g = islOf s g) ∧ t = { s with power := t.power })) ∧
  (∀ (s : State) (w : Nat), ∃ t : State, exec (.powerTelemetry w) s = .next t ∧ packageWatts t = w ∧
    t = { s with power := { s.power with corr := t.power.corr } }))

/-- R584, R585, R587, R589: an island idle for T microseconds with AUTODOZE and DOZEOK and no wake event enters doze; a
wake event starts its wake, which ends 2 microseconds later in idle; `PWR_ALARM` or a BAR0 access elsewhere wakes the
package from lamp; 40 microseconds later every island is idle and every enabled port trains. Completes: dozeEnter, islandWake,
wakeComplete, lampAlarm, lampExitComplete, bar0AccessWake. -/
def Obligations.DozeAndLamp : Prop :=
  (∀ (s : State) (d : Die) (i : Clu), dozing s (cluNo d i) = false → s.power.lamp = 0 → busy s (cluNo d i) = false →
    (islOf s (cluNo d i)).idleAt + 1000 * getF s R.pwrDozet 15 0 ≤ s.time.lamp → flag s R.pwrCtl 8 = true →
    flag s (R.pwrIsl (cluNo d i)) 30 = true → (slotSt s (cluNo d i)).expired = false →
    (wakeEvent s (cluNo d i) = true → exec (.dozeEnter d i) s = .next s) ∧
    (wakeEvent s (cluNo d i) = false →
      ∃ t : State, exec (.dozeEnter d i) s = .next t ∧ dozing t (cluNo d i) = true ∧
        (∀ g, g ≠ cluNo d i → islOf t g = islOf s g) ∧
        getF t (R.pwrIsl (cluNo d i)) 27 0 = getF s (R.pwrIsl (cluNo d i)) 27 0 ∧
        t = { s with regs := t.regs, power := t.power } ∧ sameRegs s t [R.pwrIsl (cluNo d i)])) ∧
  (∀ (s : State) (d : Die) (i : Clu), dozing s (cluNo d i) = true → s.power.lamp = 0 →
    (islOf s (cluNo d i)).waking = none → wakeEvent s (cluNo d i) = true →
    ∃ t : State, exec (.islandWake d i) s = .next t ∧ (islOf t (cluNo d i)).waking = some s.time.lamp ∧
      (∀ g, g ≠ cluNo d i → islOf t g = islOf s g) ∧ t = { s with power := t.power }) ∧
  (∀ (s : State) (d : Die) (i : Clu) (t0 : Nat), (islOf s (cluNo d i)).waking = some t0 →
    (s.time.lamp < t0 + 2000 → exec (.wakeComplete d i) s = .next s) ∧
    (t0 + 2000 ≤ s.time.lamp →
      ∃ t : State, exec (.wakeComplete d i) s = .next t ∧ getF t (R.pwrIsl (cluNo d i)) 29 28 = 1 ∧
        (islOf t (cluNo d i)).waking = none ∧ (∀ g, g ≠ cluNo d i → islOf t g = islOf s g) ∧
        t = { s with regs := t.regs, power := t.power } ∧ sameRegs s t [R.pwrIsl (cluNo d i)])) ∧
  (∀ s : State, s.power.lamp = 1 → rd64 s R.pwrAlarm ≠ 0 → rd64 s R.pwrAlarm ≤ nowNs s →
    exec .lampAlarm s = .next { s with power := { s.power with lamp := 2, since := s.time.lamp } }) ∧
  (∀ (s : State) (off : Nat), s.power.lamp = 1 →
    (off < 0x200000 → exec (.bar0AccessWake off) s = .next s) ∧
    (0x200000 ≤ off → exec (.bar0AccessWake off) s =
      .next { s with power := { s.power with lamp := 2, since := s.time.lamp } })) ∧
  (∀ s : State, s.power.lamp = 2 → s.power.since + 40000 ≤ s.time.lamp →
    ∃ t : State, exec .lampExitComplete s = .next t ∧ t.power.lamp = 0 ∧
      (∀ (d : Die) (i : Clu), getF t (R.pwrIsl (cluNo d i)) 29 28 = 1 ∧ (islOf t (cluNo d i)).idleAt = s.time.lamp) ∧
      (∀ p : Port, portState s p.val = 0 → flag s (R.prtCtl p) 31 = true → flag s (R.prtStat p) 25 = false →
        portState t p.val = 1) ∧
      t.comp = s.comp ∧ t.deep = s.deep ∧ t.time = s.time)

/-- R593 to R596, R239, R240, R638: a sweep and a scrub slice are requested when they fall due; a sweep's end records SLOW and
requests a re-plan, whose end sets MARGIN and FMAX, MARGIN never falling and FMAX never rising; a row copy's end switches the
mapping and records the retirement, or sets RECERR where the record's write fails (whether it does is free, log 6). Completes:
ageSweep, scrubSliceDue, maintenanceEnd, rowSpareCopyDone. -/
def Obligations.Maintenance : Prop :=
  (∀ s : State, flag s R.pwrAge 31 = true → s.power.sweepAt + getF s R.pwrAge 7 0 * 3600000000000 ≤ s.time.lamp →
    s.power.running = [] → s.power.deferred = [] →
    exec .ageSweep s = .next { s with power := { s.power with sweepAt := s.time.lamp, running := [(1, 0)] } }) ∧
  (∀ (s : State) (d : Die), flag s R.dstScrub 31 = true →
    getF s R.dstScrub 7 0 * 3600000000000 ≤ (s.time.lamp - SMap.getD s.power.scrubAt d.val 0) * 12288 →
    s.power.running = [] → s.power.deferred = [] → noUe s →
    ∃ t : State, exec (.scrubSliceDue d Upsets.none) s = .next t ∧ t.power.running = [(0, d.val)] ∧
      SMap.getD t.power.scrubAt d.val 0 = s.time.lamp ∧
      SMap.getD t.deep.scrubPos d.val 0 = (SMap.getD s.deep.scrubPos d.val 0 + 1) % 12288 ∧
      t = { s with power := t.power, deep := { s.deep with scrubPos := t.deep.scrubPos }, ups := Upsets.none }) ∧
  (∀ (s : State) (slow : List (Nat × Nat)), s.power.running = [(1, 0)] → s.power.deferred = [] →
    ∃ t : State, exec (.maintenanceEnd 1 0 slow Upsets.none) s = .next t ∧ t.power.running = [(2, 0)] ∧
      (∀ (g x : Nat), g < 1280 → slow = [(g, x)] → getF t (R.pwrIslm g) 23 16 = min 255 x) ∧
      t = { s with regs := t.regs, power := t.power, ups := Upsets.none } ∧
      (∀ off, (∀ (d : Die) (i : Clu), off ≠ R.pwrIslm (cluNo d i)) → rd t off = rd s off)) ∧
  (∀ (s : State) (slow : List (Nat × Nat)), s.power.running = [(2, 0)] → s.power.deferred = [] →
    ∃ t : State, exec (.maintenanceEnd 2 0 slow Upsets.none) s = .next t ∧ t.power.running = [] ∧
      (∀ (d : Die) (i : Clu),
        getF t (R.pwrIsl (cluNo d i)) 27 24 = max (getF s (R.pwrIsl (cluNo d i)) 27 24)
          (marginFor (getF s (R.pwrIslm (cluNo d i)) 23 16) (getF s R.pwrAge 23 16)) ∧
        getF t (R.pwrIsl (cluNo d i)) 20 16 = min (getF s (R.pwrIsl (cluNo d i)) 20 16)
          ((Config.fmax (cluNo d i)).toNat - fmaxDrop (getF s (R.pwrIslm (cluNo d i)) 23 16) (getF s R.pwrAge 23 16)) ∧
        (getF t (R.pwrIsl (cluNo d i)) 20 16 < getF s (R.pwrIsl (cluNo d i)) 20 16 →
          flag t R.pwrStat 5 = true ∧ flag t R.pwrStat 6 = true)) ∧
      t = { s with regs := t.regs, power := t.power, ups := Upsets.none, freeCtr := t.freeCtr }) ∧
  (∀ (s : State) (act : Fin 5) (unit : Fin 64) (slow : List (Nat × Nat)), act.val ≠ 1 → act.val ≠ 2 →
    (act.val, unit.val) ∈ s.power.running → (act.val = 4 → (portOf s unit.val).stopping = none) → s.power.deferred = [] →
    exec (.maintenanceEnd act unit slow Upsets.none) s = .next { s with
      power := { s.power with running := s.power.running.filter (· != (act.val, unit.val)) }, ups := Upsets.none }) ∧
  (∀ (s : State) (n : Nat) (c : RowCopy), s.deep.copies[n]? = some c → rowStack c.row < 8 →
    ∃ t : State, exec (.rowSpareCopyDone n) s = .next t ∧ t.deep.rowMap = s.deep.rowMap ++ [(c.row, c.spare)] ∧
      (t.deep.rowLog = s.deep.rowLog ++ [(c.row, c.spare)] ∨ (t.deep.rowLog = s.deep.rowLog ∧ flag t R.glbFstat 3 = true)) ∧
      t.deep.copies = s.deep.copies.eraseIdx n ∧ Res.row c.row ∉ t.flt.retiring ∧
      (Res.row c.row ∈ t.flt.record ∨ flag t R.glbFstat 3 = true) ∧
      getF t (R.dstSpare (rowStack c.row)) 15 0 = min 65535 (getF s (R.dstSpare (rowStack c.row)) 15 0 + 1) ∧
      rd t R.glbCntRetire = min (2 ^ 32 - 1) (rd s R.glbCntRetire % 2 ^ 32 + 1) ∧ t.deep.mem = s.deep.mem ∧
      t = { s with regs := t.regs, deep := t.deep, flt := t.flt, freeCtr := t.freeCtr } ∧
      sameRegs s t [R.dstSpare (rowStack c.row), R.glbCntRetire, R.glbFstat])

/-- R615 to R617: the owner's byte joins the transmit FIFO, which drops it where 64 wait; the owner reads the next
received byte with its FE mark, or 0; a received byte is stored with its mark, or discarded with OVR; the byte at the head
is sent. R626 (`SPI_CMD`): a program or erase is DENIED after the lock; an operation beyond the flash, a misaligned erase
and a program across a page end with RANGE; a second one with BUSY; else it starts, and at its end a read has filled
`SPI_DATA`, a program has cleared bits (the model's choice, log 48), an erase has set 4 KiB to 0xFF; after 5 s it ends
with TIMEOUT. Completes: uartDataWrite, uartDataRead, spiRead, spiProgram, spiErase, spiOpDone, uartRxFrame, uartByteSent. -/
def Obligations.ConsoleAndFlash : Prop :=
  ((∀ (s : State) (host : Bool) (b : Byte),
    (flag s R.uartCtl 30 = host → s.mgmt.tx.length < 64 →
      exec (.uartDataWrite host b) s = .next { s with mgmt := { s.mgmt with tx := s.mgmt.tx ++ [b] } }) ∧
    ((flag s R.uartCtl 30 ≠ host ∨ 64 ≤ s.mgmt.tx.length) → exec (.uartDataWrite host b) s = .next s)) ∧
  (∀ (s : State) (host : Bool),
    (s.mgmt.rx = [] → exec (.uartDataRead host) s = .next { s with out := s.out ++ [.read R.uartData 0] }) ∧
    (∀ b fe rest, s.mgmt.rx = (b, fe) :: rest → flag s R.uartCtl 30 = host →
      exec (.uartDataRead host) s = .next { s with
        mgmt := { s.mgmt with rx := rest }
        out := s.out ++ [.read R.uartData (b + if fe then 256 else 0)] })) ∧
  (∀ (s : State) (b : Byte) (stop : Bool), flag s R.uartCtl 31 = true →
    ∃ t : State, exec (.uartRxFrame b stop) s = .next t ∧
      (s.mgmt.rx.length < 64 → t.mgmt.rx = s.mgmt.rx ++ [(b.toNat, !stop)] ∧
        flag t R.uartStat 9 = flag s R.uartStat 9) ∧
      (64 ≤ s.mgmt.rx.length → t.mgmt = s.mgmt ∧ flag t R.uartStat 9 = true) ∧
      (flag t R.uartStat 8 = true ↔ stop = false ∨ flag s R.uartStat 8 = true) ∧
      (flag s R.uartCtl 28 = true → s.mgmt.rx.length < 64 → t.mgmt.log.getLast? = some b) ∧
      t.mgmt.tx = s.mgmt.tx ∧ t = { s with regs := t.regs, mgmt := t.mgmt } ∧ sameRegs s t [R.uartStat]) ∧
  (∀ (s : State) (b : Byte) (rest : List Byte), s.mgmt.tx = b :: rest →
    (flag s R.uartCtl 31 = false → exec .uartByteSent s = .next s) ∧
    (flag s R.uartCtl 31 = true →
      ∃ t : State, exec .uartByteSent s = .next t ∧ t.mgmt.tx = rest ∧ t.mgmt.rx = s.mgmt.rx ∧
        t = { s with mgmt := t.mgmt, out := s.out ++ [.uart b] }))) ∧
  ((∀ (s : State) (spBusy : Bool) (c : Instr) (op n : Nat), (c, op, n) ∈ [((.spiRead spBusy : Instr), 0, 64),
      (.spiProgram spBusy, 1, 64), (.spiErase spBusy, 2, 4096)] →
    (op ≠ 0 → locked s = true →
      ∃ t : State, exec c s = .next t ∧ getF t R.spiCmd 27 24 = 6 ∧ flag t R.spiCmd 31 = true ∧ onlyRegs s t [R.spiCmd]) ∧
    ((op = 0 ∨ locked s = false) →
      (2 ^ getF s R.spiInfo 7 0 < rd s R.spiAddr + n ∨ (op = 2 ∧ rd s R.spiAddr % 4096 ≠ 0) ∨
        (op = 1 ∧ 192 < rd s R.spiAddr % 256)) →
      ∃ t : State, exec c s = .next t ∧ getF t R.spiCmd 27 24 = 4 ∧ flag t R.spiCmd 31 = true ∧ onlyRegs s t [R.spiCmd]) ∧
    ((op = 0 ∨ locked s = false) → rd s R.spiAddr + n ≤ 2 ^ getF s R.spiInfo 7 0 →
      (op = 2 → rd s R.spiAddr % 4096 = 0) → (op = 1 → rd s R.spiAddr % 256 ≤ 192) →
      ((spBusy = true ∨ s.mgmt.spi.isSome) →
        ∃ t : State, exec c s = .next t ∧ getF t R.spiCmd 27 24 = 2 ∧ flag t R.spiCmd 31 = true ∧ onlyRegs s t [R.spiCmd]) ∧
      (spBusy = false → s.mgmt.spi = none →
        ∃ (t : State) (x : SpiOp), exec c s = .next t ∧ flag t R.spiCmd 31 = false ∧ t.mgmt = { s.mgmt with spi := some x } ∧ x.op = op ∧
          x.addr = rd s R.spiAddr ∧ x.since = s.time.lamp ∧
          (∀ w < 16, leAt x.data (4 * w) 4 = rd s (R.spiData w) % 2 ^ 32) ∧
          t = { s with regs := t.regs, mgmt := t.mgmt } ∧ sameRegs s t [R.spiCmd]))) ∧
  (∀ (s : State) (x : SpiOp), s.mgmt.spi = some x → x.op < 3 →
    (∃ t : State, exec (.spiOpDone false) s = .next t ∧ t.mgmt.spi = none ∧ flag t R.spiCmd 31 = true ∧
      getF t R.spiCmd 27 24 = 0 ∧
      (x.op = 0 → t.mgmt.flash = s.mgmt.flash ∧
        (showsRecord s x.addr 64 = false → ∀ w < 16, rd t (R.spiData w) = leAt (readFlash s x.addr 64) (4 * w) 4)) ∧
      (x.op = 1 → (∀ k b, x.data[k]? = some b → flashByte t (x.addr + k) = flashByte s (x.addr + k) &&& b) ∧
        (∀ a, a < x.addr ∨ x.addr + x.data.length ≤ a → flashByte t a = flashByte s a)) ∧
      (x.op = 2 → ∀ a, flashByte t a = if x.addr ≤ a ∧ a < x.addr + 4096 then 0xFF#8 else flashByte s a) ∧
      (showsRecord s x.addr (if x.op = 2 then 4096 else 64) = false →
        t = { s with regs := t.regs, mgmt := { s.mgmt with spi := none, flash := t.mgmt.flash }, freeCtr := t.freeCtr }) ∧
      t.comp = s.comp ∧ t.deep.mem = s.deep.mem ∧ t.fab = s.fab ∧ t.host = s.host) ∧
    (x.op ≠ 0 → x.since + 5000000000 ≤ s.time.lamp →
      ∃ t : State, exec (.spiOpDone true) s = .next t ∧ t.mgmt = { s.mgmt with spi := none } ∧ flag t R.spiCmd 31 = true ∧
        getF t R.spiCmd 27 24 = 5 ∧ t = { s with regs := t.regs, mgmt := t.mgmt } ∧ sameRegs s t [R.spiCmd])))

/-- R618 to R621, Table PKG-6: what the SMBus target answers; reading STATUS, or winning the arbitration of an Alert
Response, releases the alert; CAP applies whatever the lock, but for a wrong PEC or a value out of range; 35 ms reset the
target. R614, R622 to R624: READ_IOUT of every rail is taken; a rail that fails three times in a row, or shows an output
fault, is a device fault; a stuck SMB1 is recovered at once, or again at 35 ms with BUS_STUCK and every 100 ms after.
Completes: ident, status, temp, power, capRead, capWrite, alertResponse, smbTimeout, pmbusIoutPoll, pmbAlert, busRecovery,
busRecoveryRepeat. -/
def Obligations.SideBuses : Prop :=
  (∀ s : State,
    exec .ident s = .next { s with
      out := s.out ++ [.smbus (leBytes 4 (rd s R.glbId) ++ leBytes 8 Config.devid.toNat)] } ∧
    (∃ (t : State) (w : Nat), exec .status s = .next t ∧
      t.out = s.out ++ [.smbus (leBytes 2 w)] ++ (if s.mgmt.alert then [.pin "SMB0_ALERT_N" true] else []) ∧ w < 32 ∧
      bit w 0 = flag s R.glbFault 31 ∧ bit w 1 = s.power.isl.any (fun e => e.2.throt) ∧ bit w 2 = flag s R.pwrStat 3 ∧
      (bit w 3 = true ↔ s.power.lamp ≠ 0) ∧ bit w 4 = flag s R.pwrStat 2 ∧
      t = { s with mgmt := { s.mgmt with alert := false }, out := t.out }) ∧
    exec .temp s = .next { s with out := s.out ++ [.smbus (leBytes 2 (twos 16 (hottest s)))] } ∧
    exec .power s = .next { s with out := s.out ++ [.smbus (leBytes 2 (packageWatts s))] } ∧
    exec .capRead s = .next { s with out := s.out ++ [.smbus (leBytes 2 (getF s R.pwrCap 11 0))] } ∧
    (∀ (w : BitVec 16) (pecOk : Bool),
      ((flag s R.i2cCtl 7 = true ∧ pecOk = false) ∨ w.toNat < 500 ∨ 2600 < w.toNat →
        exec (.capWrite w pecOk) s = .next s) ∧
      ((flag s R.i2cCtl 7 = true → pecOk = true) → 500 ≤ w.toNat → w.toNat ≤ 2600 →
        ∃ t : State, exec (.capWrite w pecOk) s = .next t ∧ getF t R.pwrCap 11 0 = w.toNat ∧ onlyRegs s t [R.pwrCap])) ∧
    (∀ won : Bool,
      ((s.mgmt.alert = false ∨ won = false) → exec (.alertResponse won) s = .next s) ∧
      (s.mgmt.alert = true → won = true → exec (.alertResponse won) s = .next { s with
        mgmt := { s.mgmt with alert := false }
        out := s.out ++ [.smbus [BitVec.ofNat 8 (2 * (0x58 + s.mgmt.straps))], .pin "SMB0_ALERT_N" true] })) ∧
    (∃ t : State, exec .smbTimeout s = .next t ∧ flag t R.i2cStat 2 = true ∧ onlyRegs s t [R.i2cStat])) ∧
  ((∀ (s : State) (rails : List RailTry),
    ((∀ r ∈ rails, r.failures < 3) → (rails.map (·.rail)).Nodup →
      ∃ t : State, exec (.pmbusIoutPoll rails) s = .next t ∧ (∀ r ∈ rails, SMap.find t.mgmt.iout r.rail = some r.value) ∧
        t = { s with mgmt := { s.mgmt with iout := t.mgmt.iout } }) ∧
    ((∃ r ∈ rails, 3 ≤ r.failures) →
      ∃ t : State, exec (.pmbusIoutPoll rails) s = .next t ∧ flag t R.i2cStat 1 = true ∧ flag t R.glbFault 31 = true ∧
        t.deep = s.deep ∧ t.fab = s.fab) ∧
    (flag s R.mgtCtl 2 = false → exec (.pmbAlert rails) s = .next s) ∧
    (flag s R.mgtCtl 2 = true →
      ((∀ r ∈ rails, r.failures < 3 ∧ outputFault r.value = false) → exec (.pmbAlert rails) s = .next s) ∧
      ((∃ r ∈ rails, 3 ≤ r.failures ∨ outputFault r.value = true) →
        ∃ t : State, exec (.pmbAlert rails) s = .next t ∧ flag t R.glbFault 31 = true ∧
          ((∃ r ∈ rails, 3 ≤ r.failures) → flag t R.i2cStat 1 = true) ∧ t.deep = s.deep ∧ t.fab = s.fab))) ∧
  (∀ (s : State) (freed : Bool), s.mgmt.stuck = none →
    ∃ t : State, exec (.busRecovery freed) s = .next t ∧
      (freed = true → t.mgmt = s.mgmt ∧ rd t R.i2cCntRecov = min (2 ^ 32 - 1) (rd s R.i2cCntRecov % 2 ^ 32 + 1)) ∧
      (freed = false → t.mgmt = { s.mgmt with stuck := some (s.time.lamp + 35000000, false) } ∧ t.regs = s.regs) ∧
      t = { s with regs := t.regs, mgmt := t.mgmt } ∧ sameRegs s t [R.i2cCntRecov]) ∧
  (∀ (s : State) (freed told : Bool) (due : Nat), s.mgmt.stuck = some (due, told) → due ≤ s.time.lamp →
    ∃ t : State, exec (.busRecoveryRepeat freed) s = .next t ∧ (told = false → flag t R.i2cStat 0 = true) ∧
      (freed = true → t.mgmt = { s.mgmt with stuck := none } ∧
        rd t R.i2cCntRecov = min (2 ^ 32 - 1) (rd s R.i2cCntRecov % 2 ^ 32 + 1)) ∧
      (freed = false → t.mgmt = { s.mgmt with stuck := some (s.time.lamp + 100000000, true) } ∧
        rd t R.i2cCntRecov = rd s R.i2cCntRecov) ∧
      t = { s with regs := t.regs, mgmt := t.mgmt } ∧ sameRegs s t [R.i2cCntRecov, R.i2cStat]))

/-- R611, R614, R629, R630: a GPIO pin's level is read, and an edge of the selected polarity sets its event in input mode;
a pulse pin pulses at its timer; WAKE_N wakes the package from lamp; a reading of an IMON input out of range is discarded
and the third in a row makes its rail fall back; the loss of SYSCLK is a device fault. R627, R628: the test port's
instructions; EXTEST, CLAMP and HIGHZ act as BYPASS unless RESET_N is low; IDCODE puts out the identification register;
TRST_N selects IDCODE. Completes: gpioEdge, gpioPulse, wakeN, imonSample, sysclkLoss, bypass, idcode, samplePreload, extest,
clamp, highz, trst. -/
def Obligations.PinsAndTestPort : Prop :=
  ((∀ (s : State) (n : Fin 16) (level : Bool),
    ∃ t : State, exec (.gpioEdge n level) s = .next t ∧ flag t R.gpioIn n.val = level ∧
      (∀ k : Fin 16, k ≠ n → flag t R.gpioIn k.val = flag s R.gpioIn k.val) ∧
      (flag t R.gpioEvt n.val = true ↔ flag s R.gpioEvt n.val = true ∨
        (flag s R.gpioIn n.val ≠ level ∧ getF s (R.gpioCfg n) 2 0 = 1 ∧ flag s (R.gpioCfg n) 3 = level)) ∧
      onlyRegs s t [R.gpioIn, R.gpioEvt]) ∧
  (∀ (s : State) (n : Fin 16) (due : Nat), SMap.find s.mgmt.pulses n.val = some due → getF s (R.gpioCfg n) 2 0 = 4 →
    due ≤ s.time.lamp → getF s (R.gpioCfg n) 15 8 ≠ 0 →
    ∃ t : State, exec (.gpioPulse n) s = .next t ∧
      t.out = s.out ++ [.pin (pinName n.val) false, .pin (pinName n.val) true] ∧
      SMap.find t.mgmt.pulses n.val = some (due + 20 * (256 * getF s (R.gpioCfg n) 31 16)) ∧
      t = { s with mgmt := { s.mgmt with pulses := t.mgmt.pulses }, out := t.out }) ∧
  (∀ s : State, s.power.lamp = 1 →
    (flag s R.mgtCtl 1 = false → exec .wakeN s = .next s) ∧
    (flag s R.mgtCtl 1 = true → exec .wakeN s =
      .next { s with power := { s.power with lamp := 2, since := s.time.lamp } })) ∧
  (∀ (s : State) (mv : List Nat), mv.length = 9 → s.mgmt.imon.length = 9 → s.mgmt.imonBad.length = 9 →
    ∃ t : State, exec (.imonSample mv) s = .next t ∧
      (∀ i v, mv[i]? = some v →
        (20 ≤ v → v ≤ 1150 → t.mgmt.imon[i]? = some v ∧ t.mgmt.imonBad[i]? = some 0 ∧ i ∉ t.mgmt.imonFell) ∧
        (v < 20 ∨ 1150 < v → t.mgmt.imon[i]? = s.mgmt.imon[i]? ∧
          (s.mgmt.imonBad[i]? = some 2 → i ∈ t.mgmt.imonFell ∧ flag t R.mgtStat 30 = true))) ∧
      t = { s with regs := t.regs, mgmt := t.mgmt } ∧ sameRegs s t [R.mgtStat]) ∧
  (∀ s : State, ∃ t : State, exec .sysclkLoss s = .next t ∧ t.mgmt.osc = true ∧ flag t R.glbFault 31 = true ∧
    (flag s R.glbFault 31 = false → rd t R.glbFault = 2 ^ 31 + 2) ∧
    (flag s R.glbFault 31 = true → t = { s with mgmt := { s.mgmt with osc := true } }) ∧ t.deep = s.deep ∧
    t.fab = s.fab ∧ t.time = s.time)) ∧
  (∀ s : State,
    (∀ (c : Instr) (k : Nat), (c, k) ∈ [((.bypass : Instr), 1), (.extest, 3), (.clamp, 4), (.highz, 5), (.trst, 0)] →
      ∃ t : State, exec c s = .next t ∧ t = { s with mgmt := { s.mgmt with jtag := k } } ∧
        testActs t = if s.mgmt.inReset = false ∧ 3 ≤ k then 1 else k) ∧
    (∃ w, exec .idcode s = .next { s with mgmt := { s.mgmt with jtag := 0 }, out := s.out ++ [.tdo w] } ∧
      w = 0x09640B47 + 2 ^ 28 * Config.stepping.toNat) ∧
    (∀ pins : DWord, exec (.samplePreload pins) s =
      .next { s with mgmt := { s.mgmt with jtag := 2, boundary := pins.toNat } }))
end

