-- ==== Sys2Proof/Laws/Maps.lean ====
section
/-! SUPPORT. Sys2Proof/Laws/Maps.lean: the laws of sparse maps, sparse memories, bit fields and registers. -/

namespace Sys2Proof.Machine

/-! ### Sparse maps -/

theorem SMap.find_erase_same {α : Type} (m : SMap α) (k : Nat) : SMap.find (SMap.erase m k) k = none := by
  induction m with
  | nil => rfl
  | cons e r ih =>
    obtain ⟨j, a⟩ := e
    by_cases h : j = k <;> simp [SMap.erase, SMap.find, h, ih]

theorem SMap.find_erase_ne {α : Type} (m : SMap α) {k k' : Nat} (h : k' ≠ k) :
    SMap.find (SMap.erase m k) k' = SMap.find m k' := by
  induction m with
  | nil => rfl
  | cons e r ih =>
    obtain ⟨j, a⟩ := e
    by_cases hj : j = k
    · have : j ≠ k' := fun e => h (e ▸ hj)
      simp [SMap.erase, SMap.find, hj, ih, Ne.symm h]
    · by_cases hk : j = k'
      · subst hk; simp [SMap.erase, SMap.find, hj]
      · simp [SMap.erase, SMap.find, hj, hk, ih]

theorem SMap.find_put_same {α : Type} (m : SMap α) (k : Nat) (v : α) : SMap.find (SMap.put m k v) k = some v := by
  induction m with
  | nil => simp [SMap.put, SMap.find]
  | cons e r ih =>
    obtain ⟨j, a⟩ := e
    by_cases h1 : j < k
    · simp [SMap.put, SMap.find, h1, ih, Nat.ne_of_lt h1]
    · by_cases h2 : j = k <;> simp [SMap.put, SMap.find, h1, h2]

theorem SMap.find_put_ne {α : Type} (m : SMap α) {k k' : Nat} (v : α) (h : k' ≠ k) :
    SMap.find (SMap.put m k v) k' = SMap.find m k' := by
  induction m with
  | nil => simp [SMap.put, SMap.find, Ne.symm h]
  | cons e r ih =>
    obtain ⟨j, a⟩ := e
    by_cases h1 : j < k
    · by_cases hk : j = k'
      · subst hk; simp [SMap.put, SMap.find, h1]
      · simp [SMap.put, SMap.find, h1, hk, ih]
    · by_cases h2 : j = k
      · subst h2
        simp [SMap.put, SMap.find, Ne.symm h]
      · simp [SMap.put, SMap.find, h1, h2, Ne.symm h]

theorem SMap.getD_setD_same {α : Type} [DecidableEq α] (m : SMap α) (k : Nat) (d v : α) :
    SMap.getD (SMap.setD m k d v) k d = v := by
  by_cases h : v = d <;> simp [SMap.setD, SMap.getD, h, SMap.find_erase_same, SMap.find_put_same]

theorem SMap.getD_setD_ne {α : Type} [DecidableEq α] (m : SMap α) {k k' : Nat} (d v d' : α) (h : k' ≠ k) :
    SMap.getD (SMap.setD m k d v) k' d' = SMap.getD m k' d' := by
  by_cases hv : v = d <;> simp [SMap.setD, SMap.getD, hv, SMap.find_erase_ne _ h, SMap.find_put_ne _ _ h]

theorem SMap.find_setD_ne {α : Type} [DecidableEq α] (m : SMap α) {k k' : Nat} (d v : α) (h : k' ≠ k) :
    SMap.find (SMap.setD m k d v) k' = SMap.find m k' := by
  by_cases hv : v = d <;> simp [SMap.setD, hv, SMap.find_erase_ne _ h, SMap.find_put_ne _ _ h]

/-! ### Registers -/

/-- A register written reads as the 32-bit word written. -/
@[simp] theorem rd_wr_same (s : State) (off v : Nat) : rd (wr s off v) off = v % 2 ^ 32 := by
  have := SMap.getD_setD_same s.regs off (resetReg off) (v % 2 ^ 32)
  simpa [rd, wr, SMap.getD] using this

/-- A write of one register leaves every other as it was. -/
theorem rd_wr_ne (s : State) {off off' : Nat} (v : Nat) (h : off' ≠ off) : rd (wr s off v) off' = rd s off' := by
  simp [rd, wr, SMap.find_setD_ne _ _ _ h]

/-- A write of a register changes nothing but the registers. -/
theorem wr_eq (s : State) (off v : Nat) : wr s off v = { s with regs := (wr s off v).regs } := rfl

end Sys2Proof.Machine
end

