-- ==== Sys2Proof/Laws/Memory.lean ====
section
/-! SUPPORT. Sys2Proof/Laws/Memory.lean: the laws of the sparse memories: what a byte reads after a write or a clear, and
that every memory operation keeps the canonical form. -/

namespace Sys2Proof.Machine

/-! ### The canonical form -/

/-- The canonical form says: addresses strictly rise, and no listed byte is 0. -/
theorem Mem.wf_iff (m : List (Nat × Byte)) :
    Mem.wf m = true ↔ m.Pairwise (fun x y => x.1 < y.1) ∧ ∀ e ∈ m, e.2 ≠ 0#8 := by
  induction m with
  | nil => simp [Mem.wf]
  | cons e r ih =>
    cases r with
    | nil => simp [Mem.wf]
    | cons f r =>
      obtain ⟨a, b⟩ := e
      obtain ⟨a', b'⟩ := f
      simp only [Mem.wf, Bool.and_eq_true, ih, decide_eq_true_eq, bne_iff_ne, ne_eq, List.pairwise_cons,
        List.mem_cons, forall_eq_or_imp]
      constructor
      · rintro ⟨⟨hb, ha⟩, ⟨h1, h2⟩, h3, h4⟩
        exact ⟨⟨⟨ha, fun y hy => lt_trans ha (h1 y hy)⟩, h1, h2⟩, hb, h3, h4⟩
      · rintro ⟨⟨⟨ha, _⟩, h1, h2⟩, hb, h3, h4⟩
        exact ⟨⟨hb, ha⟩, ⟨h1, h2⟩, h3, h4⟩

/-- An entry of a map with a key removed is an entry of the map. -/
theorem SMap.mem_erase {α : Type} {m : SMap α} {k : Nat} {e : Nat × α} (h : e ∈ SMap.erase m k) : e ∈ m := by
  induction m with
  | nil => simp [SMap.erase] at h
  | cons f r ih =>
    by_cases hf : f.1 = k
    · exact List.mem_cons_of_mem _ (ih (by simpa [SMap.erase, hf] using h))
    · rcases List.mem_cons.1 (by simpa [SMap.erase, hf] using h) with rfl | h'
      · exact List.mem_cons_self
      · exact List.mem_cons_of_mem _ (ih h')

/-- An entry of a map with a key set is the new entry or an entry of the map. -/
theorem SMap.mem_put {α : Type} {m : SMap α} {k : Nat} {v : α} {e : Nat × α} (h : e ∈ SMap.put m k v) :
    e = (k, v) ∨ e ∈ m := by
  induction m with
  | nil => simpa [SMap.put] using h
  | cons f r ih =>
    obtain ⟨j, a⟩ := f
    by_cases h1 : j < k
    · simp only [SMap.put, h1, if_true, List.mem_cons] at h ⊢
      rcases h with h | h
      · exact .inr (.inl h)
      · exact (ih h).imp id .inr
    · by_cases h2 : j = k
      · simp only [SMap.put, h2, lt_irrefl, if_false, if_true, List.mem_cons] at h ⊢
        exact h.imp id .inr
      · simp only [SMap.put, h1, h2, if_false, List.mem_cons] at h ⊢
        exact h

theorem SMap.erase_pairwise {α : Type} {m : SMap α} (h : m.Pairwise (fun x y => x.1 < y.1)) (k : Nat) :
    (SMap.erase m k).Pairwise (fun x y => x.1 < y.1) := by
  induction m with
  | nil => simp [SMap.erase]
  | cons f r ih =>
    obtain ⟨hf, hr⟩ := List.pairwise_cons.1 h
    by_cases hk : f.1 = k
    · simpa [SMap.erase, hk] using ih hr
    · simp only [SMap.erase, hk, if_false, List.pairwise_cons]
      exact ⟨fun y hy => hf y (SMap.mem_erase hy), ih hr⟩

theorem SMap.put_pairwise {α : Type} {m : SMap α} (h : m.Pairwise (fun x y => x.1 < y.1)) (k : Nat) (v : α) :
    (SMap.put m k v).Pairwise (fun x y => x.1 < y.1) := by
  induction m with
  | nil => simp [SMap.put]
  | cons f r ih =>
    obtain ⟨j, a⟩ := f
    obtain ⟨hf, hr⟩ := List.pairwise_cons.1 h
    by_cases h1 : j < k
    · simp only [SMap.put, h1, if_true, List.pairwise_cons]
      refine ⟨fun y hy => ?_, ih hr⟩
      rcases SMap.mem_put hy with rfl | hy
      · exact h1
      · exact hf y hy
    · by_cases h2 : j = k
      · subst h2
        simp only [SMap.put, lt_irrefl, if_false, if_true, List.pairwise_cons]
        exact ⟨hf, hr⟩
      · simp only [SMap.put, h1, h2, if_false, List.pairwise_cons, List.mem_cons]
        refine ⟨?_, hf, hr⟩
        rintro y (rfl | hy)
        · exact lt_of_le_of_ne (not_lt.1 h1) (Ne.symm h2)
        · exact lt_of_le_of_lt (not_lt.1 h1) (hf y hy)

/-- A byte write keeps the canonical form. -/
theorem Mem.wf_memWrite {m : List (Nat × Byte)} (h : Mem.wf m = true) (a : Nat) (b : Byte) :
    Mem.wf (memWrite m a b) = true := by
  rw [Mem.wf_iff] at h ⊢
  by_cases hb : b = 0#8
  · simp only [memWrite, SMap.setD, hb, if_true]
    exact ⟨SMap.erase_pairwise h.1 a, fun e he => h.2 e (SMap.mem_erase he)⟩
  · simp only [memWrite, SMap.setD, hb, if_false]
    refine ⟨SMap.put_pairwise h.1 a b, fun e he => ?_⟩
    rcases SMap.mem_put he with rfl | he
    · exact hb
    · exact h.2 e he

/-- A write of a byte run keeps the canonical form. -/
theorem Mem.wf_memWriteN {m : List (Nat × Byte)} (h : Mem.wf m = true) (a : Nat) (bs : List Byte) :
    Mem.wf (memWriteN m a bs) = true := by
  induction bs generalizing m a with
  | nil => exact h
  | cons b r ih => exact ih (Mem.wf_memWrite h a b) (a + 1)

/-- A clear of a byte run keeps the canonical form. -/
theorem Mem.wf_memClear {m : List (Nat × Byte)} (h : Mem.wf m = true) (a n : Nat) :
    Mem.wf (memClear m a n) = true := by
  rw [Mem.wf_iff] at h ⊢
  exact ⟨h.1.filter _, fun e he => h.2 e (List.mem_of_mem_filter he)⟩

/-- A run of byte writes, each where and what some rule says or left out, keeps the canonical form. -/
theorem Mem.wf_foldl {α : Type} (f : List (Nat × Byte) → α → List (Nat × Byte))
    (hf : ∀ m x, Mem.wf m = true → Mem.wf (f m x) = true) {m : List (Nat × Byte)} (h : Mem.wf m = true) (l : List α) :
    Mem.wf (l.foldl f m) = true := by
  induction l generalizing m with
  | nil => exact h
  | cons x r ih => exact ih (hf m x h)

/-- A slice placed keeps the canonical form. -/
theorem Mem.wf_memPlace {m : List (Nat × Byte)} (h : Mem.wf m = true) (a n : Nat) (sl : List (Nat × Byte)) :
    Mem.wf (memPlace m a n sl) = true :=
  Mem.wf_foldl _ (fun _ e hm => Mem.wf_memWrite hm (a + e.1) e.2) (Mem.wf_memClear h a n) sl

/-! ### Reads after writes -/

@[simp] theorem memRead_memWrite_same (m : List (Nat × Byte)) (a : Nat) (b : Byte) : memRead (memWrite m a b) a = b :=
  SMap.getD_setD_same m a 0#8 b

theorem memRead_memWrite_ne (m : List (Nat × Byte)) {a x : Nat} (b : Byte) (h : x ≠ a) :
    memRead (memWrite m a b) x = memRead m x := SMap.getD_setD_ne m 0#8 b 0#8 h

/-- Outside a byte run that is written, every byte reads as before. -/
theorem memRead_memWriteN_out (m : List (Nat × Byte)) {a x : Nat} (bs : List Byte) (h : x < a ∨ a + bs.length ≤ x) :
    memRead (memWriteN m a bs) x = memRead m x := by
  induction bs generalizing m a with
  | nil => rfl
  | cons b r ih =>
    simp only [List.length_cons] at h
    rw [memWriteN, ih (memWrite m a b) (by omega), memRead_memWrite_ne m b (by omega)]

/-- A byte run that is written reads back. -/
theorem memRead_memWriteN_in (m : List (Nat × Byte)) {a i : Nat} (bs : List Byte) (h : i < bs.length) :
    memRead (memWriteN m a bs) (a + i) = bs[i] := by
  induction bs generalizing m a i with
  | nil => simp at h
  | cons b r ih =>
    cases i with
    | zero => rw [memWriteN, memRead_memWriteN_out _ r (by omega)]; simp
    | succ j =>
      have := ih (memWrite m a b) (a := a + 1) (i := j) (by simpa using h)
      rw [memWriteN, show a + (j + 1) = a + 1 + j by omega, this]
      simp

/-- A byte run that is written is the run read. -/
@[simp] theorem memReadN_memWriteN (m : List (Nat × Byte)) (a : Nat) (bs : List Byte) :
    memReadN (memWriteN m a bs) a bs.length = bs := by
  refine List.ext_getElem (by simp [memReadN, upto]) fun i h1 h2 => ?_
  simp only [memReadN, upto, List.map_map, List.getElem_map, List.getElem_range, Function.comp_apply]
  rw [Nat.add_comm, memRead_memWriteN_in m bs h2]

/-- A run that a write does not touch reads as before. -/
theorem memReadN_memWriteN_out (m : List (Nat × Byte)) {a x n : Nat} (bs : List Byte)
    (h : x + n ≤ a ∨ a + bs.length ≤ x) : memReadN (memWriteN m a bs) x n = memReadN m x n := by
  simp only [memReadN, upto, List.map_map]
  refine List.map_congr_left fun i hi => ?_
  have hi' := List.mem_range.1 hi
  exact memRead_memWriteN_out m bs (by simp only; omega)

theorem SMap.find_filter {α : Type} (m : SMap α) (p : Nat → Bool) (k : Nat) :
    SMap.find (m.filter fun e => p e.1) k = if p k then SMap.find m k else none := by
  induction m with
  | nil => simp [SMap.find]
  | cons e r ih =>
    obtain ⟨j, a⟩ := e
    by_cases hj : j = k
    · subst hj
      by_cases hp : p j <;> simp [SMap.find, hp] at ih ⊢
      exact ih
    · by_cases hp : p j <;> simp [SMap.find, hp, hj, ih]

/-- A cleared byte reads 0, and every other byte reads as before. -/
theorem memRead_memClear (m : List (Nat × Byte)) (a n x : Nat) :
    memRead (memClear m a n) x = if a ≤ x ∧ x < a + n then 0#8 else memRead m x := by
  have := SMap.find_filter m (fun k => decide (k < a) || decide (a + n ≤ k)) x
  simp only [memRead, SMap.getD, memClear, this]
  by_cases h : a ≤ x ∧ x < a + n
  · have h1 : ¬ x < a := by omega
    have h2 : ¬ a + n ≤ x := by omega
    simp [h, h1, h2]
  · have h1 : x < a ∨ a + n ≤ x := by omega
    rcases h1 with h1 | h1 <;> simp [h, h1]

/-! ### The stores and deep store -/

/-- A write to the stores keeps their canonical form, whatever errors it meets. -/
theorem writeKey_wf {s : State} (h : Mem.wf s.comp.store = true) (a : Nat) (bs : List Byte) :
    Mem.wf (writeKey s a bs).1.comp.store = true := by
  simp only [writeKey]
  split
  · exact Mem.wf_memWriteN h a bs
  · refine Mem.wf_foldl _ (fun m p hm => ?_) h _
    split
    · exact hm
    · exact Mem.wf_memWrite hm _ _

/-- A write to deep store keeps its canonical form. -/
theorem writeDeep_wf {s : State} (h : Mem.wf s.deep.mem = true) (a : Nat) (bs : List Byte) :
    Mem.wf (writeDeep s a bs).deep.mem = true := Mem.wf_memWriteN h a bs

/-- With no standing error, a write to the stores is the write of its bytes alone. -/
theorem writeKey_clean {s : State} (h : s.comp.storeUe = []) (a : Nat) (bs : List Byte) :
    writeKey s a bs = ({ s with comp := { s.comp with store := memWriteN s.comp.store a bs, storeUe := [] } }, []) := by
  simp [writeKey, h]

/-- The memories of the state after reset list nothing. -/
theorem reset_memories : State.reset.comp.store = [] ∧ State.reset.deep.mem = [] := ⟨rfl, rfl⟩

/-- The memories of the state after reset are in canonical form. -/
theorem reset_wf : Mem.wf State.reset.comp.store = true ∧ Mem.wf State.reset.deep.mem = true := ⟨rfl, rfl⟩

end Sys2Proof.Machine
end

