-- ==== Sys2Proof/Laws/Engine.lean ====
section
/-! SUPPORT. Sys2Proof/Laws/Engine.lean: where the operands of an engine lie, and what leaves them as they were. -/

namespace Sys2Proof.Machine

/-- A run of a memory reads alike in two memories that agree on it. -/
theorem memReadN_congr {m m' : List (Nat × Byte)} {a n : Nat} (h : ∀ i < n, memRead m' (a + i) = memRead m (a + i)) :
    memReadN m' a n = memReadN m a n := by
  simp only [memReadN, upto, List.map_map]
  refine List.map_congr_left fun i hi => ?_
  simpa [Nat.add_comm] using h i (List.mem_range.mp hi)

/-- An operand of the core's own stores reads alike in two states whose stores agree on it. -/
theorem getOp_own_congr {s t : State} {core w o n x : Nat} (hw : space w = 0)
    (hl : localAt (opOwn core w) (w % 2 ^ 32 + o) 1 = some x)
    (h : ∀ i < n, memRead t.comp.store (storeKey (core / 64) x + i) = memRead s.comp.store (storeKey (core / 64) x + i)) :
    getOp t core w o n = getOp s core w o n := by
  have e : ∀ u : State, getOp u core w o n = memReadN u.comp.store (storeKey (core / 64) x) n := fun u => by
    unfold getOp
    rw [hl, hw, if_neg (by decide)]
    exact if_pos rfl
  rw [e, e, memReadN_congr h]

/-- A MATMUL without block scales lies apart from a byte run where its weights and its activation row do. -/
theorem matmulApart_of {s : State} {core a n xw xa : Nat} {d : MatmulD} {p : Params} (hw : space d.w = 0) (ha : space d.a = 0)
    (hwm : d.wf.mx = false) (ham : d.af.mx = false) (hlw : localAt (opOwn core d.w) (d.w % 2 ^ 32 + 0) 1 = some xw)
    (hla : localAt (opOwn core d.a) (d.a % 2 ^ 32 + 0) 1 = some xa)
    (dw : storeKey (core / 64) xw + d.n / 8 * MatmulD.kt d * (8 * widthOf d.wf.f) ≤ a ∨ a + n ≤ storeKey (core / 64) xw)
    (da : storeKey (core / 64) xa + elemBytes d.af d.kn ≤ a ∨ a + n ≤ storeKey (core / 64) xa) :
    matmulApart s core d p a n := by
  intro t h sm _ c _
  have gw := getOp_own_congr (s := s) (t := t) hw hlw fun i (hi : i < d.n / 8 * MatmulD.kt d * (8 * widthOf d.wf.f)) =>
    h _ (by omega)
  have ga := getOp_own_congr (s := s) (t := t) ha hla fun i (hi : i < elemBytes d.af d.kn) => h _ (by omega)
  simp only [matmulWord, matmulIn, Nat.mul_zero, gw, ga, hwm, ham, Bool.false_eq_true, if_false]

end Sys2Proof.Machine
end

