-- ==== Sys2Proof/Laws/State.lean ====
section
/-! SUPPORT. Sys2Proof/Laws/State.lean: for each named update of the state, the fields it leaves as they were. -/

namespace Sys2Proof.Machine

/-! ### wr -/

@[simp] theorem wr_pending (s : State) (off v : Nat) : (wr s off v).pending = s.pending := rfl
@[simp] theorem wr_held (s : State) (off v : Nat) : (wr s off v).held = s.held := rfl
@[simp] theorem wr_captured (s : State) (off v : Nat) : (wr s off v).captured = s.captured := rfl
@[simp] theorem wr_time (s : State) (off v : Nat) : (wr s off v).time = s.time := rfl
@[simp] theorem wr_comp (s : State) (off v : Nat) : (wr s off v).comp = s.comp := rfl
@[simp] theorem wr_deep (s : State) (off v : Nat) : (wr s off v).deep = s.deep := rfl
@[simp] theorem wr_rem (s : State) (off v : Nat) : (wr s off v).rem = s.rem := rfl
@[simp] theorem wr_host (s : State) (off v : Nat) : (wr s off v).host = s.host := rfl
@[simp] theorem wr_flt (s : State) (off v : Nat) : (wr s off v).flt = s.flt := rfl
@[simp] theorem wr_fab (s : State) (off v : Nat) : (wr s off v).fab = s.fab := rfl
@[simp] theorem wr_cir (s : State) (off v : Nat) : (wr s off v).cir = s.cir := rfl
@[simp] theorem wr_ports (s : State) (off v : Nat) : (wr s off v).ports = s.ports := rfl
@[simp] theorem wr_mills (s : State) (off v : Nat) : (wr s off v).mills = s.mills := rfl
@[simp] theorem wr_sendTbl (s : State) (off v : Nat) : (wr s off v).sendTbl = s.sendTbl := rfl
@[simp] theorem wr_delay (s : State) (off v : Nat) : (wr s off v).delay = s.delay := rfl
@[simp] theorem wr_gang (s : State) (off v : Nat) : (wr s off v).gang = s.gang := rfl
@[simp] theorem wr_power (s : State) (off v : Nat) : (wr s off v).power = s.power := rfl
@[simp] theorem wr_mgmt (s : State) (off v : Nat) : (wr s off v).mgmt = s.mgmt := rfl
@[simp] theorem wr_outbox (s : State) (off v : Nat) : (wr s off v).outbox = s.outbox := rfl
@[simp] theorem wr_inbox (s : State) (off v : Nat) : (wr s off v).inbox = s.inbox := rfl
@[simp] theorem wr_out (s : State) (off v : Nat) : (wr s off v).out = s.out := rfl
@[simp] theorem wr_freeCtr (s : State) (off v : Nat) : (wr s off v).freeCtr = s.freeCtr := rfl
@[simp] theorem wr_nextId (s : State) (off v : Nat) : (wr s off v).nextId = s.nextId := rfl
@[simp] theorem wr_ups (s : State) (off v : Nat) : (wr s off v).ups = s.ups := rfl

/-! ### setF -/

@[simp] theorem setF_pending (s : State) (off hi lo v : Nat) : (setF s off hi lo v).pending = s.pending := rfl
@[simp] theorem setF_held (s : State) (off hi lo v : Nat) : (setF s off hi lo v).held = s.held := rfl
@[simp] theorem setF_captured (s : State) (off hi lo v : Nat) : (setF s off hi lo v).captured = s.captured := rfl
@[simp] theorem setF_time (s : State) (off hi lo v : Nat) : (setF s off hi lo v).time = s.time := rfl
@[simp] theorem setF_comp (s : State) (off hi lo v : Nat) : (setF s off hi lo v).comp = s.comp := rfl
@[simp] theorem setF_deep (s : State) (off hi lo v : Nat) : (setF s off hi lo v).deep = s.deep := rfl
@[simp] theorem setF_rem (s : State) (off hi lo v : Nat) : (setF s off hi lo v).rem = s.rem := rfl
@[simp] theorem setF_host (s : State) (off hi lo v : Nat) : (setF s off hi lo v).host = s.host := rfl
@[simp] theorem setF_flt (s : State) (off hi lo v : Nat) : (setF s off hi lo v).flt = s.flt := rfl
@[simp] theorem setF_fab (s : State) (off hi lo v : Nat) : (setF s off hi lo v).fab = s.fab := rfl
@[simp] theorem setF_cir (s : State) (off hi lo v : Nat) : (setF s off hi lo v).cir = s.cir := rfl
@[simp] theorem setF_ports (s : State) (off hi lo v : Nat) : (setF s off hi lo v).ports = s.ports := rfl
@[simp] theorem setF_mills (s : State) (off hi lo v : Nat) : (setF s off hi lo v).mills = s.mills := rfl
@[simp] theorem setF_sendTbl (s : State) (off hi lo v : Nat) : (setF s off hi lo v).sendTbl = s.sendTbl := rfl
@[simp] theorem setF_delay (s : State) (off hi lo v : Nat) : (setF s off hi lo v).delay = s.delay := rfl
@[simp] theorem setF_gang (s : State) (off hi lo v : Nat) : (setF s off hi lo v).gang = s.gang := rfl
@[simp] theorem setF_power (s : State) (off hi lo v : Nat) : (setF s off hi lo v).power = s.power := rfl
@[simp] theorem setF_mgmt (s : State) (off hi lo v : Nat) : (setF s off hi lo v).mgmt = s.mgmt := rfl
@[simp] theorem setF_outbox (s : State) (off hi lo v : Nat) : (setF s off hi lo v).outbox = s.outbox := rfl
@[simp] theorem setF_inbox (s : State) (off hi lo v : Nat) : (setF s off hi lo v).inbox = s.inbox := rfl
@[simp] theorem setF_out (s : State) (off hi lo v : Nat) : (setF s off hi lo v).out = s.out := rfl
@[simp] theorem setF_freeCtr (s : State) (off hi lo v : Nat) : (setF s off hi lo v).freeCtr = s.freeCtr := rfl
@[simp] theorem setF_nextId (s : State) (off hi lo v : Nat) : (setF s off hi lo v).nextId = s.nextId := rfl
@[simp] theorem setF_ups (s : State) (off hi lo v : Nat) : (setF s off hi lo v).ups = s.ups := rfl

/-! ### raise -/

@[simp] theorem raise_pending (s : State) (off i : Nat) : (raise s off i).pending = s.pending := rfl
@[simp] theorem raise_held (s : State) (off i : Nat) : (raise s off i).held = s.held := rfl
@[simp] theorem raise_captured (s : State) (off i : Nat) : (raise s off i).captured = s.captured := rfl
@[simp] theorem raise_time (s : State) (off i : Nat) : (raise s off i).time = s.time := rfl
@[simp] theorem raise_comp (s : State) (off i : Nat) : (raise s off i).comp = s.comp := rfl
@[simp] theorem raise_deep (s : State) (off i : Nat) : (raise s off i).deep = s.deep := rfl
@[simp] theorem raise_rem (s : State) (off i : Nat) : (raise s off i).rem = s.rem := rfl
@[simp] theorem raise_host (s : State) (off i : Nat) : (raise s off i).host = s.host := rfl
@[simp] theorem raise_flt (s : State) (off i : Nat) : (raise s off i).flt = s.flt := rfl
@[simp] theorem raise_fab (s : State) (off i : Nat) : (raise s off i).fab = s.fab := rfl
@[simp] theorem raise_cir (s : State) (off i : Nat) : (raise s off i).cir = s.cir := rfl
@[simp] theorem raise_ports (s : State) (off i : Nat) : (raise s off i).ports = s.ports := rfl
@[simp] theorem raise_mills (s : State) (off i : Nat) : (raise s off i).mills = s.mills := rfl
@[simp] theorem raise_sendTbl (s : State) (off i : Nat) : (raise s off i).sendTbl = s.sendTbl := rfl
@[simp] theorem raise_delay (s : State) (off i : Nat) : (raise s off i).delay = s.delay := rfl
@[simp] theorem raise_gang (s : State) (off i : Nat) : (raise s off i).gang = s.gang := rfl
@[simp] theorem raise_power (s : State) (off i : Nat) : (raise s off i).power = s.power := rfl
@[simp] theorem raise_mgmt (s : State) (off i : Nat) : (raise s off i).mgmt = s.mgmt := rfl
@[simp] theorem raise_outbox (s : State) (off i : Nat) : (raise s off i).outbox = s.outbox := rfl
@[simp] theorem raise_inbox (s : State) (off i : Nat) : (raise s off i).inbox = s.inbox := rfl
@[simp] theorem raise_out (s : State) (off i : Nat) : (raise s off i).out = s.out := rfl
@[simp] theorem raise_freeCtr (s : State) (off i : Nat) : (raise s off i).freeCtr = s.freeCtr := rfl
@[simp] theorem raise_nextId (s : State) (off i : Nat) : (raise s off i).nextId = s.nextId := rfl
@[simp] theorem raise_ups (s : State) (off i : Nat) : (raise s off i).ups = s.ups := rfl

/-! ### bumpF -/

@[simp] theorem bumpF_pending (s : State) (off hi lo n : Nat) : (bumpF s off hi lo n).pending = s.pending := rfl
@[simp] theorem bumpF_held (s : State) (off hi lo n : Nat) : (bumpF s off hi lo n).held = s.held := rfl
@[simp] theorem bumpF_captured (s : State) (off hi lo n : Nat) : (bumpF s off hi lo n).captured = s.captured := rfl
@[simp] theorem bumpF_time (s : State) (off hi lo n : Nat) : (bumpF s off hi lo n).time = s.time := rfl
@[simp] theorem bumpF_comp (s : State) (off hi lo n : Nat) : (bumpF s off hi lo n).comp = s.comp := rfl
@[simp] theorem bumpF_deep (s : State) (off hi lo n : Nat) : (bumpF s off hi lo n).deep = s.deep := rfl
@[simp] theorem bumpF_rem (s : State) (off hi lo n : Nat) : (bumpF s off hi lo n).rem = s.rem := rfl
@[simp] theorem bumpF_host (s : State) (off hi lo n : Nat) : (bumpF s off hi lo n).host = s.host := rfl
@[simp] theorem bumpF_flt (s : State) (off hi lo n : Nat) : (bumpF s off hi lo n).flt = s.flt := rfl
@[simp] theorem bumpF_fab (s : State) (off hi lo n : Nat) : (bumpF s off hi lo n).fab = s.fab := rfl
@[simp] theorem bumpF_cir (s : State) (off hi lo n : Nat) : (bumpF s off hi lo n).cir = s.cir := rfl
@[simp] theorem bumpF_ports (s : State) (off hi lo n : Nat) : (bumpF s off hi lo n).ports = s.ports := rfl
@[simp] theorem bumpF_mills (s : State) (off hi lo n : Nat) : (bumpF s off hi lo n).mills = s.mills := rfl
@[simp] theorem bumpF_sendTbl (s : State) (off hi lo n : Nat) : (bumpF s off hi lo n).sendTbl = s.sendTbl := rfl
@[simp] theorem bumpF_delay (s : State) (off hi lo n : Nat) : (bumpF s off hi lo n).delay = s.delay := rfl
@[simp] theorem bumpF_gang (s : State) (off hi lo n : Nat) : (bumpF s off hi lo n).gang = s.gang := rfl
@[simp] theorem bumpF_power (s : State) (off hi lo n : Nat) : (bumpF s off hi lo n).power = s.power := rfl
@[simp] theorem bumpF_mgmt (s : State) (off hi lo n : Nat) : (bumpF s off hi lo n).mgmt = s.mgmt := rfl
@[simp] theorem bumpF_outbox (s : State) (off hi lo n : Nat) : (bumpF s off hi lo n).outbox = s.outbox := rfl
@[simp] theorem bumpF_inbox (s : State) (off hi lo n : Nat) : (bumpF s off hi lo n).inbox = s.inbox := rfl
@[simp] theorem bumpF_out (s : State) (off hi lo n : Nat) : (bumpF s off hi lo n).out = s.out := rfl
@[simp] theorem bumpF_freeCtr (s : State) (off hi lo n : Nat) : (bumpF s off hi lo n).freeCtr = s.freeCtr := rfl
@[simp] theorem bumpF_nextId (s : State) (off hi lo n : Nat) : (bumpF s off hi lo n).nextId = s.nextId := rfl
@[simp] theorem bumpF_ups (s : State) (off hi lo n : Nat) : (bumpF s off hi lo n).ups = s.ups := rfl

/-! ### bump -/

@[simp] theorem bump_pending (s : State) (off n : Nat) : (bump s off n).pending = s.pending := rfl
@[simp] theorem bump_held (s : State) (off n : Nat) : (bump s off n).held = s.held := rfl
@[simp] theorem bump_captured (s : State) (off n : Nat) : (bump s off n).captured = s.captured := rfl
@[simp] theorem bump_time (s : State) (off n : Nat) : (bump s off n).time = s.time := rfl
@[simp] theorem bump_comp (s : State) (off n : Nat) : (bump s off n).comp = s.comp := rfl
@[simp] theorem bump_deep (s : State) (off n : Nat) : (bump s off n).deep = s.deep := rfl
@[simp] theorem bump_rem (s : State) (off n : Nat) : (bump s off n).rem = s.rem := rfl
@[simp] theorem bump_host (s : State) (off n : Nat) : (bump s off n).host = s.host := rfl
@[simp] theorem bump_flt (s : State) (off n : Nat) : (bump s off n).flt = s.flt := rfl
@[simp] theorem bump_fab (s : State) (off n : Nat) : (bump s off n).fab = s.fab := rfl
@[simp] theorem bump_cir (s : State) (off n : Nat) : (bump s off n).cir = s.cir := rfl
@[simp] theorem bump_ports (s : State) (off n : Nat) : (bump s off n).ports = s.ports := rfl
@[simp] theorem bump_mills (s : State) (off n : Nat) : (bump s off n).mills = s.mills := rfl
@[simp] theorem bump_sendTbl (s : State) (off n : Nat) : (bump s off n).sendTbl = s.sendTbl := rfl
@[simp] theorem bump_delay (s : State) (off n : Nat) : (bump s off n).delay = s.delay := rfl
@[simp] theorem bump_gang (s : State) (off n : Nat) : (bump s off n).gang = s.gang := rfl
@[simp] theorem bump_power (s : State) (off n : Nat) : (bump s off n).power = s.power := rfl
@[simp] theorem bump_mgmt (s : State) (off n : Nat) : (bump s off n).mgmt = s.mgmt := rfl
@[simp] theorem bump_outbox (s : State) (off n : Nat) : (bump s off n).outbox = s.outbox := rfl
@[simp] theorem bump_inbox (s : State) (off n : Nat) : (bump s off n).inbox = s.inbox := rfl
@[simp] theorem bump_out (s : State) (off n : Nat) : (bump s off n).out = s.out := rfl
@[simp] theorem bump_freeCtr (s : State) (off n : Nat) : (bump s off n).freeCtr = s.freeCtr := rfl
@[simp] theorem bump_nextId (s : State) (off n : Nat) : (bump s off n).nextId = s.nextId := rfl
@[simp] theorem bump_ups (s : State) (off n : Nat) : (bump s off n).ups = s.ups := rfl

/-! ### wr64 -/

@[simp] theorem wr64_pending (s : State) (off v : Nat) : (wr64 s off v).pending = s.pending := rfl
@[simp] theorem wr64_held (s : State) (off v : Nat) : (wr64 s off v).held = s.held := rfl
@[simp] theorem wr64_captured (s : State) (off v : Nat) : (wr64 s off v).captured = s.captured := rfl
@[simp] theorem wr64_time (s : State) (off v : Nat) : (wr64 s off v).time = s.time := rfl
@[simp] theorem wr64_comp (s : State) (off v : Nat) : (wr64 s off v).comp = s.comp := rfl
@[simp] theorem wr64_deep (s : State) (off v : Nat) : (wr64 s off v).deep = s.deep := rfl
@[simp] theorem wr64_rem (s : State) (off v : Nat) : (wr64 s off v).rem = s.rem := rfl
@[simp] theorem wr64_host (s : State) (off v : Nat) : (wr64 s off v).host = s.host := rfl
@[simp] theorem wr64_flt (s : State) (off v : Nat) : (wr64 s off v).flt = s.flt := rfl
@[simp] theorem wr64_fab (s : State) (off v : Nat) : (wr64 s off v).fab = s.fab := rfl
@[simp] theorem wr64_cir (s : State) (off v : Nat) : (wr64 s off v).cir = s.cir := rfl
@[simp] theorem wr64_ports (s : State) (off v : Nat) : (wr64 s off v).ports = s.ports := rfl
@[simp] theorem wr64_mills (s : State) (off v : Nat) : (wr64 s off v).mills = s.mills := rfl
@[simp] theorem wr64_sendTbl (s : State) (off v : Nat) : (wr64 s off v).sendTbl = s.sendTbl := rfl
@[simp] theorem wr64_delay (s : State) (off v : Nat) : (wr64 s off v).delay = s.delay := rfl
@[simp] theorem wr64_gang (s : State) (off v : Nat) : (wr64 s off v).gang = s.gang := rfl
@[simp] theorem wr64_power (s : State) (off v : Nat) : (wr64 s off v).power = s.power := rfl
@[simp] theorem wr64_mgmt (s : State) (off v : Nat) : (wr64 s off v).mgmt = s.mgmt := rfl
@[simp] theorem wr64_outbox (s : State) (off v : Nat) : (wr64 s off v).outbox = s.outbox := rfl
@[simp] theorem wr64_inbox (s : State) (off v : Nat) : (wr64 s off v).inbox = s.inbox := rfl
@[simp] theorem wr64_out (s : State) (off v : Nat) : (wr64 s off v).out = s.out := rfl
@[simp] theorem wr64_freeCtr (s : State) (off v : Nat) : (wr64 s off v).freeCtr = s.freeCtr := rfl
@[simp] theorem wr64_nextId (s : State) (off v : Nat) : (wr64 s off v).nextId = s.nextId := rfl
@[simp] theorem wr64_ups (s : State) (off v : Nat) : (wr64 s off v).ups = s.ups := rfl

/-! ### setMill -/

@[simp] theorem setMill_pending (s : State) (m : Nat) (x : MillSt) : (setMill s m x).pending = s.pending := rfl
@[simp] theorem setMill_regs (s : State) (m : Nat) (x : MillSt) : (setMill s m x).regs = s.regs := rfl
@[simp] theorem setMill_held (s : State) (m : Nat) (x : MillSt) : (setMill s m x).held = s.held := rfl
@[simp] theorem setMill_captured (s : State) (m : Nat) (x : MillSt) : (setMill s m x).captured = s.captured := rfl
@[simp] theorem setMill_time (s : State) (m : Nat) (x : MillSt) : (setMill s m x).time = s.time := rfl
@[simp] theorem setMill_comp (s : State) (m : Nat) (x : MillSt) : (setMill s m x).comp = s.comp := rfl
@[simp] theorem setMill_deep (s : State) (m : Nat) (x : MillSt) : (setMill s m x).deep = s.deep := rfl
@[simp] theorem setMill_rem (s : State) (m : Nat) (x : MillSt) : (setMill s m x).rem = s.rem := rfl
@[simp] theorem setMill_host (s : State) (m : Nat) (x : MillSt) : (setMill s m x).host = s.host := rfl
@[simp] theorem setMill_flt (s : State) (m : Nat) (x : MillSt) : (setMill s m x).flt = s.flt := rfl
@[simp] theorem setMill_fab (s : State) (m : Nat) (x : MillSt) : (setMill s m x).fab = s.fab := rfl
@[simp] theorem setMill_cir (s : State) (m : Nat) (x : MillSt) : (setMill s m x).cir = s.cir := rfl
@[simp] theorem setMill_ports (s : State) (m : Nat) (x : MillSt) : (setMill s m x).ports = s.ports := rfl
@[simp] theorem setMill_sendTbl (s : State) (m : Nat) (x : MillSt) : (setMill s m x).sendTbl = s.sendTbl := rfl
@[simp] theorem setMill_delay (s : State) (m : Nat) (x : MillSt) : (setMill s m x).delay = s.delay := rfl
@[simp] theorem setMill_gang (s : State) (m : Nat) (x : MillSt) : (setMill s m x).gang = s.gang := rfl
@[simp] theorem setMill_power (s : State) (m : Nat) (x : MillSt) : (setMill s m x).power = s.power := rfl
@[simp] theorem setMill_mgmt (s : State) (m : Nat) (x : MillSt) : (setMill s m x).mgmt = s.mgmt := rfl
@[simp] theorem setMill_outbox (s : State) (m : Nat) (x : MillSt) : (setMill s m x).outbox = s.outbox := rfl
@[simp] theorem setMill_inbox (s : State) (m : Nat) (x : MillSt) : (setMill s m x).inbox = s.inbox := rfl
@[simp] theorem setMill_out (s : State) (m : Nat) (x : MillSt) : (setMill s m x).out = s.out := rfl
@[simp] theorem setMill_freeCtr (s : State) (m : Nat) (x : MillSt) : (setMill s m x).freeCtr = s.freeCtr := rfl
@[simp] theorem setMill_nextId (s : State) (m : Nat) (x : MillSt) : (setMill s m x).nextId = s.nextId := rfl
@[simp] theorem setMill_ups (s : State) (m : Nat) (x : MillSt) : (setMill s m x).ups = s.ups := rfl

/-! ### setStream -/

@[simp] theorem setStream_pending (s : State) (m n : Nat) (x : StreamSt) : (setStream s m n x).pending = s.pending := rfl
@[simp] theorem setStream_regs (s : State) (m n : Nat) (x : StreamSt) : (setStream s m n x).regs = s.regs := rfl
@[simp] theorem setStream_held (s : State) (m n : Nat) (x : StreamSt) : (setStream s m n x).held = s.held := rfl
@[simp] theorem setStream_captured (s : State) (m n : Nat) (x : StreamSt) : (setStream s m n x).captured = s.captured := rfl
@[simp] theorem setStream_time (s : State) (m n : Nat) (x : StreamSt) : (setStream s m n x).time = s.time := rfl
@[simp] theorem setStream_comp (s : State) (m n : Nat) (x : StreamSt) : (setStream s m n x).comp = s.comp := rfl
@[simp] theorem setStream_deep (s : State) (m n : Nat) (x : StreamSt) : (setStream s m n x).deep = s.deep := rfl
@[simp] theorem setStream_rem (s : State) (m n : Nat) (x : StreamSt) : (setStream s m n x).rem = s.rem := rfl
@[simp] theorem setStream_host (s : State) (m n : Nat) (x : StreamSt) : (setStream s m n x).host = s.host := rfl
@[simp] theorem setStream_flt (s : State) (m n : Nat) (x : StreamSt) : (setStream s m n x).flt = s.flt := rfl
@[simp] theorem setStream_fab (s : State) (m n : Nat) (x : StreamSt) : (setStream s m n x).fab = s.fab := rfl
@[simp] theorem setStream_cir (s : State) (m n : Nat) (x : StreamSt) : (setStream s m n x).cir = s.cir := rfl
@[simp] theorem setStream_ports (s : State) (m n : Nat) (x : StreamSt) : (setStream s m n x).ports = s.ports := rfl
@[simp] theorem setStream_sendTbl (s : State) (m n : Nat) (x : StreamSt) : (setStream s m n x).sendTbl = s.sendTbl := rfl
@[simp] theorem setStream_delay (s : State) (m n : Nat) (x : StreamSt) : (setStream s m n x).delay = s.delay := rfl
@[simp] theorem setStream_gang (s : State) (m n : Nat) (x : StreamSt) : (setStream s m n x).gang = s.gang := rfl
@[simp] theorem setStream_power (s : State) (m n : Nat) (x : StreamSt) : (setStream s m n x).power = s.power := rfl
@[simp] theorem setStream_mgmt (s : State) (m n : Nat) (x : StreamSt) : (setStream s m n x).mgmt = s.mgmt := rfl
@[simp] theorem setStream_outbox (s : State) (m n : Nat) (x : StreamSt) : (setStream s m n x).outbox = s.outbox := rfl
@[simp] theorem setStream_inbox (s : State) (m n : Nat) (x : StreamSt) : (setStream s m n x).inbox = s.inbox := rfl
@[simp] theorem setStream_out (s : State) (m n : Nat) (x : StreamSt) : (setStream s m n x).out = s.out := rfl
@[simp] theorem setStream_freeCtr (s : State) (m n : Nat) (x : StreamSt) : (setStream s m n x).freeCtr = s.freeCtr := rfl
@[simp] theorem setStream_nextId (s : State) (m n : Nat) (x : StreamSt) : (setStream s m n x).nextId = s.nextId := rfl
@[simp] theorem setStream_ups (s : State) (m n : Nat) (x : StreamSt) : (setStream s m n x).ups = s.ups := rfl

/-! ### setHandler -/

@[simp] theorem setHandler_pending (s : State) (m : Nat) (h : HandlerSt) : (setHandler s m h).pending = s.pending := rfl
@[simp] theorem setHandler_regs (s : State) (m : Nat) (h : HandlerSt) : (setHandler s m h).regs = s.regs := rfl
@[simp] theorem setHandler_held (s : State) (m : Nat) (h : HandlerSt) : (setHandler s m h).held = s.held := rfl
@[simp] theorem setHandler_captured (s : State) (m : Nat) (h : HandlerSt) : (setHandler s m h).captured = s.captured := rfl
@[simp] theorem setHandler_time (s : State) (m : Nat) (h : HandlerSt) : (setHandler s m h).time = s.time := rfl
@[simp] theorem setHandler_comp (s : State) (m : Nat) (h : HandlerSt) : (setHandler s m h).comp = s.comp := rfl
@[simp] theorem setHandler_deep (s : State) (m : Nat) (h : HandlerSt) : (setHandler s m h).deep = s.deep := rfl
@[simp] theorem setHandler_rem (s : State) (m : Nat) (h : HandlerSt) : (setHandler s m h).rem = s.rem := rfl
@[simp] theorem setHandler_host (s : State) (m : Nat) (h : HandlerSt) : (setHandler s m h).host = s.host := rfl
@[simp] theorem setHandler_flt (s : State) (m : Nat) (h : HandlerSt) : (setHandler s m h).flt = s.flt := rfl
@[simp] theorem setHandler_fab (s : State) (m : Nat) (h : HandlerSt) : (setHandler s m h).fab = s.fab := rfl
@[simp] theorem setHandler_cir (s : State) (m : Nat) (h : HandlerSt) : (setHandler s m h).cir = s.cir := rfl
@[simp] theorem setHandler_ports (s : State) (m : Nat) (h : HandlerSt) : (setHandler s m h).ports = s.ports := rfl
@[simp] theorem setHandler_sendTbl (s : State) (m : Nat) (h : HandlerSt) : (setHandler s m h).sendTbl = s.sendTbl := rfl
@[simp] theorem setHandler_delay (s : State) (m : Nat) (h : HandlerSt) : (setHandler s m h).delay = s.delay := rfl
@[simp] theorem setHandler_gang (s : State) (m : Nat) (h : HandlerSt) : (setHandler s m h).gang = s.gang := rfl
@[simp] theorem setHandler_power (s : State) (m : Nat) (h : HandlerSt) : (setHandler s m h).power = s.power := rfl
@[simp] theorem setHandler_mgmt (s : State) (m : Nat) (h : HandlerSt) : (setHandler s m h).mgmt = s.mgmt := rfl
@[simp] theorem setHandler_outbox (s : State) (m : Nat) (h : HandlerSt) : (setHandler s m h).outbox = s.outbox := rfl
@[simp] theorem setHandler_inbox (s : State) (m : Nat) (h : HandlerSt) : (setHandler s m h).inbox = s.inbox := rfl
@[simp] theorem setHandler_out (s : State) (m : Nat) (h : HandlerSt) : (setHandler s m h).out = s.out := rfl
@[simp] theorem setHandler_freeCtr (s : State) (m : Nat) (h : HandlerSt) : (setHandler s m h).freeCtr = s.freeCtr := rfl
@[simp] theorem setHandler_nextId (s : State) (m : Nat) (h : HandlerSt) : (setHandler s m h).nextId = s.nextId := rfl
@[simp] theorem setHandler_ups (s : State) (m : Nat) (h : HandlerSt) : (setHandler s m h).ups = s.ups := rfl

/-! ### setAcc -/

@[simp] theorem setAcc_pending (s : State) (m j : Nat) (v : Image) : (setAcc s m j v).pending = s.pending := rfl
@[simp] theorem setAcc_regs (s : State) (m j : Nat) (v : Image) : (setAcc s m j v).regs = s.regs := rfl
@[simp] theorem setAcc_held (s : State) (m j : Nat) (v : Image) : (setAcc s m j v).held = s.held := rfl
@[simp] theorem setAcc_captured (s : State) (m j : Nat) (v : Image) : (setAcc s m j v).captured = s.captured := rfl
@[simp] theorem setAcc_time (s : State) (m j : Nat) (v : Image) : (setAcc s m j v).time = s.time := rfl
@[simp] theorem setAcc_comp (s : State) (m j : Nat) (v : Image) : (setAcc s m j v).comp = s.comp := rfl
@[simp] theorem setAcc_deep (s : State) (m j : Nat) (v : Image) : (setAcc s m j v).deep = s.deep := rfl
@[simp] theorem setAcc_rem (s : State) (m j : Nat) (v : Image) : (setAcc s m j v).rem = s.rem := rfl
@[simp] theorem setAcc_host (s : State) (m j : Nat) (v : Image) : (setAcc s m j v).host = s.host := rfl
@[simp] theorem setAcc_flt (s : State) (m j : Nat) (v : Image) : (setAcc s m j v).flt = s.flt := rfl
@[simp] theorem setAcc_fab (s : State) (m j : Nat) (v : Image) : (setAcc s m j v).fab = s.fab := rfl
@[simp] theorem setAcc_cir (s : State) (m j : Nat) (v : Image) : (setAcc s m j v).cir = s.cir := rfl
@[simp] theorem setAcc_ports (s : State) (m j : Nat) (v : Image) : (setAcc s m j v).ports = s.ports := rfl
@[simp] theorem setAcc_sendTbl (s : State) (m j : Nat) (v : Image) : (setAcc s m j v).sendTbl = s.sendTbl := rfl
@[simp] theorem setAcc_delay (s : State) (m j : Nat) (v : Image) : (setAcc s m j v).delay = s.delay := rfl
@[simp] theorem setAcc_gang (s : State) (m j : Nat) (v : Image) : (setAcc s m j v).gang = s.gang := rfl
@[simp] theorem setAcc_power (s : State) (m j : Nat) (v : Image) : (setAcc s m j v).power = s.power := rfl
@[simp] theorem setAcc_mgmt (s : State) (m j : Nat) (v : Image) : (setAcc s m j v).mgmt = s.mgmt := rfl
@[simp] theorem setAcc_outbox (s : State) (m j : Nat) (v : Image) : (setAcc s m j v).outbox = s.outbox := rfl
@[simp] theorem setAcc_inbox (s : State) (m j : Nat) (v : Image) : (setAcc s m j v).inbox = s.inbox := rfl
@[simp] theorem setAcc_out (s : State) (m j : Nat) (v : Image) : (setAcc s m j v).out = s.out := rfl
@[simp] theorem setAcc_freeCtr (s : State) (m j : Nat) (v : Image) : (setAcc s m j v).freeCtr = s.freeCtr := rfl
@[simp] theorem setAcc_nextId (s : State) (m j : Nat) (v : Image) : (setAcc s m j v).nextId = s.nextId := rfl
@[simp] theorem setAcc_ups (s : State) (m j : Nat) (v : Image) : (setAcc s m j v).ups = s.ups := rfl

/-! ### setCtr -/

@[simp] theorem setCtr_pending (s : State) (m j v : Nat) : (setCtr s m j v).pending = s.pending := rfl
@[simp] theorem setCtr_regs (s : State) (m j v : Nat) : (setCtr s m j v).regs = s.regs := rfl
@[simp] theorem setCtr_held (s : State) (m j v : Nat) : (setCtr s m j v).held = s.held := rfl
@[simp] theorem setCtr_captured (s : State) (m j v : Nat) : (setCtr s m j v).captured = s.captured := rfl
@[simp] theorem setCtr_time (s : State) (m j v : Nat) : (setCtr s m j v).time = s.time := rfl
@[simp] theorem setCtr_comp (s : State) (m j v : Nat) : (setCtr s m j v).comp = s.comp := rfl
@[simp] theorem setCtr_deep (s : State) (m j v : Nat) : (setCtr s m j v).deep = s.deep := rfl
@[simp] theorem setCtr_rem (s : State) (m j v : Nat) : (setCtr s m j v).rem = s.rem := rfl
@[simp] theorem setCtr_host (s : State) (m j v : Nat) : (setCtr s m j v).host = s.host := rfl
@[simp] theorem setCtr_flt (s : State) (m j v : Nat) : (setCtr s m j v).flt = s.flt := rfl
@[simp] theorem setCtr_fab (s : State) (m j v : Nat) : (setCtr s m j v).fab = s.fab := rfl
@[simp] theorem setCtr_cir (s : State) (m j v : Nat) : (setCtr s m j v).cir = s.cir := rfl
@[simp] theorem setCtr_ports (s : State) (m j v : Nat) : (setCtr s m j v).ports = s.ports := rfl
@[simp] theorem setCtr_sendTbl (s : State) (m j v : Nat) : (setCtr s m j v).sendTbl = s.sendTbl := rfl
@[simp] theorem setCtr_delay (s : State) (m j v : Nat) : (setCtr s m j v).delay = s.delay := rfl
@[simp] theorem setCtr_gang (s : State) (m j v : Nat) : (setCtr s m j v).gang = s.gang := rfl
@[simp] theorem setCtr_power (s : State) (m j v : Nat) : (setCtr s m j v).power = s.power := rfl
@[simp] theorem setCtr_mgmt (s : State) (m j v : Nat) : (setCtr s m j v).mgmt = s.mgmt := rfl
@[simp] theorem setCtr_outbox (s : State) (m j v : Nat) : (setCtr s m j v).outbox = s.outbox := rfl
@[simp] theorem setCtr_inbox (s : State) (m j v : Nat) : (setCtr s m j v).inbox = s.inbox := rfl
@[simp] theorem setCtr_out (s : State) (m j v : Nat) : (setCtr s m j v).out = s.out := rfl
@[simp] theorem setCtr_freeCtr (s : State) (m j v : Nat) : (setCtr s m j v).freeCtr = s.freeCtr := rfl
@[simp] theorem setCtr_nextId (s : State) (m j v : Nat) : (setCtr s m j v).nextId = s.nextId := rfl
@[simp] theorem setCtr_ups (s : State) (m j v : Nat) : (setCtr s m j v).ups = s.ups := rfl

/-! ### setIsl -/

@[simp] theorem setIsl_pending (s : State) (g : Nat) (x : IslSt) : (setIsl s g x).pending = s.pending := rfl
@[simp] theorem setIsl_regs (s : State) (g : Nat) (x : IslSt) : (setIsl s g x).regs = s.regs := rfl
@[simp] theorem setIsl_held (s : State) (g : Nat) (x : IslSt) : (setIsl s g x).held = s.held := rfl
@[simp] theorem setIsl_captured (s : State) (g : Nat) (x : IslSt) : (setIsl s g x).captured = s.captured := rfl
@[simp] theorem setIsl_time (s : State) (g : Nat) (x : IslSt) : (setIsl s g x).time = s.time := rfl
@[simp] theorem setIsl_comp (s : State) (g : Nat) (x : IslSt) : (setIsl s g x).comp = s.comp := rfl
@[simp] theorem setIsl_deep (s : State) (g : Nat) (x : IslSt) : (setIsl s g x).deep = s.deep := rfl
@[simp] theorem setIsl_rem (s : State) (g : Nat) (x : IslSt) : (setIsl s g x).rem = s.rem := rfl
@[simp] theorem setIsl_host (s : State) (g : Nat) (x : IslSt) : (setIsl s g x).host = s.host := rfl
@[simp] theorem setIsl_flt (s : State) (g : Nat) (x : IslSt) : (setIsl s g x).flt = s.flt := rfl
@[simp] theorem setIsl_fab (s : State) (g : Nat) (x : IslSt) : (setIsl s g x).fab = s.fab := rfl
@[simp] theorem setIsl_cir (s : State) (g : Nat) (x : IslSt) : (setIsl s g x).cir = s.cir := rfl
@[simp] theorem setIsl_ports (s : State) (g : Nat) (x : IslSt) : (setIsl s g x).ports = s.ports := rfl
@[simp] theorem setIsl_mills (s : State) (g : Nat) (x : IslSt) : (setIsl s g x).mills = s.mills := rfl
@[simp] theorem setIsl_sendTbl (s : State) (g : Nat) (x : IslSt) : (setIsl s g x).sendTbl = s.sendTbl := rfl
@[simp] theorem setIsl_delay (s : State) (g : Nat) (x : IslSt) : (setIsl s g x).delay = s.delay := rfl
@[simp] theorem setIsl_gang (s : State) (g : Nat) (x : IslSt) : (setIsl s g x).gang = s.gang := rfl
@[simp] theorem setIsl_mgmt (s : State) (g : Nat) (x : IslSt) : (setIsl s g x).mgmt = s.mgmt := rfl
@[simp] theorem setIsl_outbox (s : State) (g : Nat) (x : IslSt) : (setIsl s g x).outbox = s.outbox := rfl
@[simp] theorem setIsl_inbox (s : State) (g : Nat) (x : IslSt) : (setIsl s g x).inbox = s.inbox := rfl
@[simp] theorem setIsl_out (s : State) (g : Nat) (x : IslSt) : (setIsl s g x).out = s.out := rfl
@[simp] theorem setIsl_freeCtr (s : State) (g : Nat) (x : IslSt) : (setIsl s g x).freeCtr = s.freeCtr := rfl
@[simp] theorem setIsl_nextId (s : State) (g : Nat) (x : IslSt) : (setIsl s g x).nextId = s.nextId := rfl
@[simp] theorem setIsl_ups (s : State) (g : Nat) (x : IslSt) : (setIsl s g x).ups = s.ups := rfl

/-! ### emit -/

@[simp] theorem emit_pending (s : State) (e : Emission) : (emit s e).pending = s.pending := rfl
@[simp] theorem emit_regs (s : State) (e : Emission) : (emit s e).regs = s.regs := rfl
@[simp] theorem emit_held (s : State) (e : Emission) : (emit s e).held = s.held := rfl
@[simp] theorem emit_captured (s : State) (e : Emission) : (emit s e).captured = s.captured := rfl
@[simp] theorem emit_time (s : State) (e : Emission) : (emit s e).time = s.time := rfl
@[simp] theorem emit_comp (s : State) (e : Emission) : (emit s e).comp = s.comp := rfl
@[simp] theorem emit_deep (s : State) (e : Emission) : (emit s e).deep = s.deep := rfl
@[simp] theorem emit_rem (s : State) (e : Emission) : (emit s e).rem = s.rem := rfl
@[simp] theorem emit_host (s : State) (e : Emission) : (emit s e).host = s.host := rfl
@[simp] theorem emit_flt (s : State) (e : Emission) : (emit s e).flt = s.flt := rfl
@[simp] theorem emit_fab (s : State) (e : Emission) : (emit s e).fab = s.fab := rfl
@[simp] theorem emit_cir (s : State) (e : Emission) : (emit s e).cir = s.cir := rfl
@[simp] theorem emit_ports (s : State) (e : Emission) : (emit s e).ports = s.ports := rfl
@[simp] theorem emit_mills (s : State) (e : Emission) : (emit s e).mills = s.mills := rfl
@[simp] theorem emit_sendTbl (s : State) (e : Emission) : (emit s e).sendTbl = s.sendTbl := rfl
@[simp] theorem emit_delay (s : State) (e : Emission) : (emit s e).delay = s.delay := rfl
@[simp] theorem emit_gang (s : State) (e : Emission) : (emit s e).gang = s.gang := rfl
@[simp] theorem emit_power (s : State) (e : Emission) : (emit s e).power = s.power := rfl
@[simp] theorem emit_mgmt (s : State) (e : Emission) : (emit s e).mgmt = s.mgmt := rfl
@[simp] theorem emit_outbox (s : State) (e : Emission) : (emit s e).outbox = s.outbox := rfl
@[simp] theorem emit_inbox (s : State) (e : Emission) : (emit s e).inbox = s.inbox := rfl
@[simp] theorem emit_freeCtr (s : State) (e : Emission) : (emit s e).freeCtr = s.freeCtr := rfl
@[simp] theorem emit_nextId (s : State) (e : Emission) : (emit s e).nextId = s.nextId := rfl
@[simp] theorem emit_ups (s : State) (e : Emission) : (emit s e).ups = s.ups := rfl

/-! ### sendFrame -/

@[simp] theorem sendFrame_pending (s : State) (o : Origin) (f : Frame) : (sendFrame s o f).pending = s.pending := rfl
@[simp] theorem sendFrame_regs (s : State) (o : Origin) (f : Frame) : (sendFrame s o f).regs = s.regs := rfl
@[simp] theorem sendFrame_held (s : State) (o : Origin) (f : Frame) : (sendFrame s o f).held = s.held := rfl
@[simp] theorem sendFrame_captured (s : State) (o : Origin) (f : Frame) : (sendFrame s o f).captured = s.captured := rfl
@[simp] theorem sendFrame_time (s : State) (o : Origin) (f : Frame) : (sendFrame s o f).time = s.time := rfl
@[simp] theorem sendFrame_comp (s : State) (o : Origin) (f : Frame) : (sendFrame s o f).comp = s.comp := rfl
@[simp] theorem sendFrame_deep (s : State) (o : Origin) (f : Frame) : (sendFrame s o f).deep = s.deep := rfl
@[simp] theorem sendFrame_rem (s : State) (o : Origin) (f : Frame) : (sendFrame s o f).rem = s.rem := rfl
@[simp] theorem sendFrame_host (s : State) (o : Origin) (f : Frame) : (sendFrame s o f).host = s.host := rfl
@[simp] theorem sendFrame_flt (s : State) (o : Origin) (f : Frame) : (sendFrame s o f).flt = s.flt := rfl
@[simp] theorem sendFrame_fab (s : State) (o : Origin) (f : Frame) : (sendFrame s o f).fab = s.fab := rfl
@[simp] theorem sendFrame_cir (s : State) (o : Origin) (f : Frame) : (sendFrame s o f).cir = s.cir := rfl
@[simp] theorem sendFrame_ports (s : State) (o : Origin) (f : Frame) : (sendFrame s o f).ports = s.ports := rfl
@[simp] theorem sendFrame_mills (s : State) (o : Origin) (f : Frame) : (sendFrame s o f).mills = s.mills := rfl
@[simp] theorem sendFrame_sendTbl (s : State) (o : Origin) (f : Frame) : (sendFrame s o f).sendTbl = s.sendTbl := rfl
@[simp] theorem sendFrame_delay (s : State) (o : Origin) (f : Frame) : (sendFrame s o f).delay = s.delay := rfl
@[simp] theorem sendFrame_gang (s : State) (o : Origin) (f : Frame) : (sendFrame s o f).gang = s.gang := rfl
@[simp] theorem sendFrame_power (s : State) (o : Origin) (f : Frame) : (sendFrame s o f).power = s.power := rfl
@[simp] theorem sendFrame_mgmt (s : State) (o : Origin) (f : Frame) : (sendFrame s o f).mgmt = s.mgmt := rfl
@[simp] theorem sendFrame_inbox (s : State) (o : Origin) (f : Frame) : (sendFrame s o f).inbox = s.inbox := rfl
@[simp] theorem sendFrame_out (s : State) (o : Origin) (f : Frame) : (sendFrame s o f).out = s.out := rfl
@[simp] theorem sendFrame_freeCtr (s : State) (o : Origin) (f : Frame) : (sendFrame s o f).freeCtr = s.freeCtr := rfl

/-! ### sendBell -/

@[simp] theorem sendBell_pending (s : State) (mc : Bool) (dst src job code arg : Nat) (pl : List Byte) : (sendBell s mc dst src job code arg pl).pending = s.pending := rfl
@[simp] theorem sendBell_regs (s : State) (mc : Bool) (dst src job code arg : Nat) (pl : List Byte) : (sendBell s mc dst src job code arg pl).regs = s.regs := rfl
@[simp] theorem sendBell_held (s : State) (mc : Bool) (dst src job code arg : Nat) (pl : List Byte) : (sendBell s mc dst src job code arg pl).held = s.held := rfl
@[simp] theorem sendBell_captured (s : State) (mc : Bool) (dst src job code arg : Nat) (pl : List Byte) : (sendBell s mc dst src job code arg pl).captured = s.captured := rfl
@[simp] theorem sendBell_time (s : State) (mc : Bool) (dst src job code arg : Nat) (pl : List Byte) : (sendBell s mc dst src job code arg pl).time = s.time := rfl
@[simp] theorem sendBell_comp (s : State) (mc : Bool) (dst src job code arg : Nat) (pl : List Byte) : (sendBell s mc dst src job code arg pl).comp = s.comp := rfl
@[simp] theorem sendBell_deep (s : State) (mc : Bool) (dst src job code arg : Nat) (pl : List Byte) : (sendBell s mc dst src job code arg pl).deep = s.deep := rfl
@[simp] theorem sendBell_rem (s : State) (mc : Bool) (dst src job code arg : Nat) (pl : List Byte) : (sendBell s mc dst src job code arg pl).rem = s.rem := rfl
@[simp] theorem sendBell_host (s : State) (mc : Bool) (dst src job code arg : Nat) (pl : List Byte) : (sendBell s mc dst src job code arg pl).host = s.host := rfl
@[simp] theorem sendBell_flt (s : State) (mc : Bool) (dst src job code arg : Nat) (pl : List Byte) : (sendBell s mc dst src job code arg pl).flt = s.flt := rfl
@[simp] theorem sendBell_fab (s : State) (mc : Bool) (dst src job code arg : Nat) (pl : List Byte) : (sendBell s mc dst src job code arg pl).fab = s.fab := rfl
@[simp] theorem sendBell_cir (s : State) (mc : Bool) (dst src job code arg : Nat) (pl : List Byte) : (sendBell s mc dst src job code arg pl).cir = s.cir := rfl
@[simp] theorem sendBell_ports (s : State) (mc : Bool) (dst src job code arg : Nat) (pl : List Byte) : (sendBell s mc dst src job code arg pl).ports = s.ports := rfl
@[simp] theorem sendBell_mills (s : State) (mc : Bool) (dst src job code arg : Nat) (pl : List Byte) : (sendBell s mc dst src job code arg pl).mills = s.mills := rfl
@[simp] theorem sendBell_sendTbl (s : State) (mc : Bool) (dst src job code arg : Nat) (pl : List Byte) : (sendBell s mc dst src job code arg pl).sendTbl = s.sendTbl := rfl
@[simp] theorem sendBell_delay (s : State) (mc : Bool) (dst src job code arg : Nat) (pl : List Byte) : (sendBell s mc dst src job code arg pl).delay = s.delay := rfl
@[simp] theorem sendBell_gang (s : State) (mc : Bool) (dst src job code arg : Nat) (pl : List Byte) : (sendBell s mc dst src job code arg pl).gang = s.gang := rfl
@[simp] theorem sendBell_power (s : State) (mc : Bool) (dst src job code arg : Nat) (pl : List Byte) : (sendBell s mc dst src job code arg pl).power = s.power := rfl
@[simp] theorem sendBell_mgmt (s : State) (mc : Bool) (dst src job code arg : Nat) (pl : List Byte) : (sendBell s mc dst src job code arg pl).mgmt = s.mgmt := rfl
@[simp] theorem sendBell_inbox (s : State) (mc : Bool) (dst src job code arg : Nat) (pl : List Byte) : (sendBell s mc dst src job code arg pl).inbox = s.inbox := rfl
@[simp] theorem sendBell_out (s : State) (mc : Bool) (dst src job code arg : Nat) (pl : List Byte) : (sendBell s mc dst src job code arg pl).out = s.out := rfl
@[simp] theorem sendBell_freeCtr (s : State) (mc : Bool) (dst src job code arg : Nat) (pl : List Byte) : (sendBell s mc dst src job code arg pl).freeCtr = s.freeCtr := rfl

/-! ### setSeq -/

@[simp] theorem setSeq_pending (s : State) (core fn : Nat) (q : SeqSt) : (setSeq s core fn q).pending = s.pending := rfl
@[simp] theorem setSeq_regs (s : State) (core fn : Nat) (q : SeqSt) : (setSeq s core fn q).regs = s.regs := rfl
@[simp] theorem setSeq_held (s : State) (core fn : Nat) (q : SeqSt) : (setSeq s core fn q).held = s.held := rfl
@[simp] theorem setSeq_captured (s : State) (core fn : Nat) (q : SeqSt) : (setSeq s core fn q).captured = s.captured := rfl
@[simp] theorem setSeq_time (s : State) (core fn : Nat) (q : SeqSt) : (setSeq s core fn q).time = s.time := rfl
@[simp] theorem setSeq_deep (s : State) (core fn : Nat) (q : SeqSt) : (setSeq s core fn q).deep = s.deep := rfl
@[simp] theorem setSeq_rem (s : State) (core fn : Nat) (q : SeqSt) : (setSeq s core fn q).rem = s.rem := rfl
@[simp] theorem setSeq_host (s : State) (core fn : Nat) (q : SeqSt) : (setSeq s core fn q).host = s.host := rfl
@[simp] theorem setSeq_flt (s : State) (core fn : Nat) (q : SeqSt) : (setSeq s core fn q).flt = s.flt := rfl
@[simp] theorem setSeq_fab (s : State) (core fn : Nat) (q : SeqSt) : (setSeq s core fn q).fab = s.fab := rfl
@[simp] theorem setSeq_cir (s : State) (core fn : Nat) (q : SeqSt) : (setSeq s core fn q).cir = s.cir := rfl
@[simp] theorem setSeq_ports (s : State) (core fn : Nat) (q : SeqSt) : (setSeq s core fn q).ports = s.ports := rfl
@[simp] theorem setSeq_mills (s : State) (core fn : Nat) (q : SeqSt) : (setSeq s core fn q).mills = s.mills := rfl
@[simp] theorem setSeq_sendTbl (s : State) (core fn : Nat) (q : SeqSt) : (setSeq s core fn q).sendTbl = s.sendTbl := rfl
@[simp] theorem setSeq_delay (s : State) (core fn : Nat) (q : SeqSt) : (setSeq s core fn q).delay = s.delay := rfl
@[simp] theorem setSeq_gang (s : State) (core fn : Nat) (q : SeqSt) : (setSeq s core fn q).gang = s.gang := rfl
@[simp] theorem setSeq_power (s : State) (core fn : Nat) (q : SeqSt) : (setSeq s core fn q).power = s.power := rfl
@[simp] theorem setSeq_mgmt (s : State) (core fn : Nat) (q : SeqSt) : (setSeq s core fn q).mgmt = s.mgmt := rfl
@[simp] theorem setSeq_outbox (s : State) (core fn : Nat) (q : SeqSt) : (setSeq s core fn q).outbox = s.outbox := rfl
@[simp] theorem setSeq_inbox (s : State) (core fn : Nat) (q : SeqSt) : (setSeq s core fn q).inbox = s.inbox := rfl
@[simp] theorem setSeq_out (s : State) (core fn : Nat) (q : SeqSt) : (setSeq s core fn q).out = s.out := rfl
@[simp] theorem setSeq_freeCtr (s : State) (core fn : Nat) (q : SeqSt) : (setSeq s core fn q).freeCtr = s.freeCtr := rfl
@[simp] theorem setSeq_nextId (s : State) (core fn : Nat) (q : SeqSt) : (setSeq s core fn q).nextId = s.nextId := rfl
@[simp] theorem setSeq_ups (s : State) (core fn : Nat) (q : SeqSt) : (setSeq s core fn q).ups = s.ups := rfl

/-! ### setRun -/

@[simp] theorem setRun_pending (s : State) (core fn : Nat) (r : RunList) : (setRun s core fn r).pending = s.pending := rfl
@[simp] theorem setRun_regs (s : State) (core fn : Nat) (r : RunList) : (setRun s core fn r).regs = s.regs := rfl
@[simp] theorem setRun_held (s : State) (core fn : Nat) (r : RunList) : (setRun s core fn r).held = s.held := rfl
@[simp] theorem setRun_captured (s : State) (core fn : Nat) (r : RunList) : (setRun s core fn r).captured = s.captured := rfl
@[simp] theorem setRun_time (s : State) (core fn : Nat) (r : RunList) : (setRun s core fn r).time = s.time := rfl
@[simp] theorem setRun_deep (s : State) (core fn : Nat) (r : RunList) : (setRun s core fn r).deep = s.deep := rfl
@[simp] theorem setRun_rem (s : State) (core fn : Nat) (r : RunList) : (setRun s core fn r).rem = s.rem := rfl
@[simp] theorem setRun_host (s : State) (core fn : Nat) (r : RunList) : (setRun s core fn r).host = s.host := rfl
@[simp] theorem setRun_flt (s : State) (core fn : Nat) (r : RunList) : (setRun s core fn r).flt = s.flt := rfl
@[simp] theorem setRun_fab (s : State) (core fn : Nat) (r : RunList) : (setRun s core fn r).fab = s.fab := rfl
@[simp] theorem setRun_cir (s : State) (core fn : Nat) (r : RunList) : (setRun s core fn r).cir = s.cir := rfl
@[simp] theorem setRun_ports (s : State) (core fn : Nat) (r : RunList) : (setRun s core fn r).ports = s.ports := rfl
@[simp] theorem setRun_mills (s : State) (core fn : Nat) (r : RunList) : (setRun s core fn r).mills = s.mills := rfl
@[simp] theorem setRun_sendTbl (s : State) (core fn : Nat) (r : RunList) : (setRun s core fn r).sendTbl = s.sendTbl := rfl
@[simp] theorem setRun_delay (s : State) (core fn : Nat) (r : RunList) : (setRun s core fn r).delay = s.delay := rfl
@[simp] theorem setRun_gang (s : State) (core fn : Nat) (r : RunList) : (setRun s core fn r).gang = s.gang := rfl
@[simp] theorem setRun_power (s : State) (core fn : Nat) (r : RunList) : (setRun s core fn r).power = s.power := rfl
@[simp] theorem setRun_mgmt (s : State) (core fn : Nat) (r : RunList) : (setRun s core fn r).mgmt = s.mgmt := rfl
@[simp] theorem setRun_outbox (s : State) (core fn : Nat) (r : RunList) : (setRun s core fn r).outbox = s.outbox := rfl
@[simp] theorem setRun_inbox (s : State) (core fn : Nat) (r : RunList) : (setRun s core fn r).inbox = s.inbox := rfl
@[simp] theorem setRun_out (s : State) (core fn : Nat) (r : RunList) : (setRun s core fn r).out = s.out := rfl
@[simp] theorem setRun_freeCtr (s : State) (core fn : Nat) (r : RunList) : (setRun s core fn r).freeCtr = s.freeCtr := rfl
@[simp] theorem setRun_nextId (s : State) (core fn : Nat) (r : RunList) : (setRun s core fn r).nextId = s.nextId := rfl
@[simp] theorem setRun_ups (s : State) (core fn : Nat) (r : RunList) : (setRun s core fn r).ups = s.ups := rfl

/-! ### setSlot -/

@[simp] theorem setSlot_pending (s : State) (g : Nat) (x : SlotSt) : (setSlot s g x).pending = s.pending := rfl
@[simp] theorem setSlot_regs (s : State) (g : Nat) (x : SlotSt) : (setSlot s g x).regs = s.regs := rfl
@[simp] theorem setSlot_held (s : State) (g : Nat) (x : SlotSt) : (setSlot s g x).held = s.held := rfl
@[simp] theorem setSlot_captured (s : State) (g : Nat) (x : SlotSt) : (setSlot s g x).captured = s.captured := rfl
@[simp] theorem setSlot_time (s : State) (g : Nat) (x : SlotSt) : (setSlot s g x).time = s.time := rfl
@[simp] theorem setSlot_deep (s : State) (g : Nat) (x : SlotSt) : (setSlot s g x).deep = s.deep := rfl
@[simp] theorem setSlot_rem (s : State) (g : Nat) (x : SlotSt) : (setSlot s g x).rem = s.rem := rfl
@[simp] theorem setSlot_host (s : State) (g : Nat) (x : SlotSt) : (setSlot s g x).host = s.host := rfl
@[simp] theorem setSlot_flt (s : State) (g : Nat) (x : SlotSt) : (setSlot s g x).flt = s.flt := rfl
@[simp] theorem setSlot_fab (s : State) (g : Nat) (x : SlotSt) : (setSlot s g x).fab = s.fab := rfl
@[simp] theorem setSlot_cir (s : State) (g : Nat) (x : SlotSt) : (setSlot s g x).cir = s.cir := rfl
@[simp] theorem setSlot_ports (s : State) (g : Nat) (x : SlotSt) : (setSlot s g x).ports = s.ports := rfl
@[simp] theorem setSlot_mills (s : State) (g : Nat) (x : SlotSt) : (setSlot s g x).mills = s.mills := rfl
@[simp] theorem setSlot_sendTbl (s : State) (g : Nat) (x : SlotSt) : (setSlot s g x).sendTbl = s.sendTbl := rfl
@[simp] theorem setSlot_delay (s : State) (g : Nat) (x : SlotSt) : (setSlot s g x).delay = s.delay := rfl
@[simp] theorem setSlot_gang (s : State) (g : Nat) (x : SlotSt) : (setSlot s g x).gang = s.gang := rfl
@[simp] theorem setSlot_power (s : State) (g : Nat) (x : SlotSt) : (setSlot s g x).power = s.power := rfl
@[simp] theorem setSlot_mgmt (s : State) (g : Nat) (x : SlotSt) : (setSlot s g x).mgmt = s.mgmt := rfl
@[simp] theorem setSlot_outbox (s : State) (g : Nat) (x : SlotSt) : (setSlot s g x).outbox = s.outbox := rfl
@[simp] theorem setSlot_inbox (s : State) (g : Nat) (x : SlotSt) : (setSlot s g x).inbox = s.inbox := rfl
@[simp] theorem setSlot_out (s : State) (g : Nat) (x : SlotSt) : (setSlot s g x).out = s.out := rfl
@[simp] theorem setSlot_freeCtr (s : State) (g : Nat) (x : SlotSt) : (setSlot s g x).freeCtr = s.freeCtr := rfl
@[simp] theorem setSlot_nextId (s : State) (g : Nat) (x : SlotSt) : (setSlot s g x).nextId = s.nextId := rfl
@[simp] theorem setSlot_ups (s : State) (g : Nat) (x : SlotSt) : (setSlot s g x).ups = s.ups := rfl

/-! ### strikeStore -/

@[simp] theorem strikeStore_pending (s : State) (ls : List Nat) : (strikeStore s ls).pending = s.pending := rfl
@[simp] theorem strikeStore_regs (s : State) (ls : List Nat) : (strikeStore s ls).regs = s.regs := rfl
@[simp] theorem strikeStore_held (s : State) (ls : List Nat) : (strikeStore s ls).held = s.held := rfl
@[simp] theorem strikeStore_captured (s : State) (ls : List Nat) : (strikeStore s ls).captured = s.captured := rfl
@[simp] theorem strikeStore_time (s : State) (ls : List Nat) : (strikeStore s ls).time = s.time := rfl
@[simp] theorem strikeStore_deep (s : State) (ls : List Nat) : (strikeStore s ls).deep = s.deep := rfl
@[simp] theorem strikeStore_rem (s : State) (ls : List Nat) : (strikeStore s ls).rem = s.rem := rfl
@[simp] theorem strikeStore_host (s : State) (ls : List Nat) : (strikeStore s ls).host = s.host := rfl
@[simp] theorem strikeStore_flt (s : State) (ls : List Nat) : (strikeStore s ls).flt = s.flt := rfl
@[simp] theorem strikeStore_fab (s : State) (ls : List Nat) : (strikeStore s ls).fab = s.fab := rfl
@[simp] theorem strikeStore_cir (s : State) (ls : List Nat) : (strikeStore s ls).cir = s.cir := rfl
@[simp] theorem strikeStore_ports (s : State) (ls : List Nat) : (strikeStore s ls).ports = s.ports := rfl
@[simp] theorem strikeStore_mills (s : State) (ls : List Nat) : (strikeStore s ls).mills = s.mills := rfl
@[simp] theorem strikeStore_sendTbl (s : State) (ls : List Nat) : (strikeStore s ls).sendTbl = s.sendTbl := rfl
@[simp] theorem strikeStore_delay (s : State) (ls : List Nat) : (strikeStore s ls).delay = s.delay := rfl
@[simp] theorem strikeStore_gang (s : State) (ls : List Nat) : (strikeStore s ls).gang = s.gang := rfl
@[simp] theorem strikeStore_power (s : State) (ls : List Nat) : (strikeStore s ls).power = s.power := rfl
@[simp] theorem strikeStore_mgmt (s : State) (ls : List Nat) : (strikeStore s ls).mgmt = s.mgmt := rfl
@[simp] theorem strikeStore_outbox (s : State) (ls : List Nat) : (strikeStore s ls).outbox = s.outbox := rfl
@[simp] theorem strikeStore_inbox (s : State) (ls : List Nat) : (strikeStore s ls).inbox = s.inbox := rfl
@[simp] theorem strikeStore_out (s : State) (ls : List Nat) : (strikeStore s ls).out = s.out := rfl
@[simp] theorem strikeStore_freeCtr (s : State) (ls : List Nat) : (strikeStore s ls).freeCtr = s.freeCtr := rfl
@[simp] theorem strikeStore_nextId (s : State) (ls : List Nat) : (strikeStore s ls).nextId = s.nextId := rfl
@[simp] theorem strikeStore_ups (s : State) (ls : List Nat) : (strikeStore s ls).ups = s.ups := rfl

/-! ### writeDeep -/

@[simp] theorem writeDeep_pending (s : State) (a : Nat) (bs : List Byte) : (writeDeep s a bs).pending = s.pending := rfl
@[simp] theorem writeDeep_regs (s : State) (a : Nat) (bs : List Byte) : (writeDeep s a bs).regs = s.regs := rfl
@[simp] theorem writeDeep_held (s : State) (a : Nat) (bs : List Byte) : (writeDeep s a bs).held = s.held := rfl
@[simp] theorem writeDeep_captured (s : State) (a : Nat) (bs : List Byte) : (writeDeep s a bs).captured = s.captured := rfl
@[simp] theorem writeDeep_time (s : State) (a : Nat) (bs : List Byte) : (writeDeep s a bs).time = s.time := rfl
@[simp] theorem writeDeep_comp (s : State) (a : Nat) (bs : List Byte) : (writeDeep s a bs).comp = s.comp := rfl
@[simp] theorem writeDeep_rem (s : State) (a : Nat) (bs : List Byte) : (writeDeep s a bs).rem = s.rem := rfl
@[simp] theorem writeDeep_host (s : State) (a : Nat) (bs : List Byte) : (writeDeep s a bs).host = s.host := rfl
@[simp] theorem writeDeep_flt (s : State) (a : Nat) (bs : List Byte) : (writeDeep s a bs).flt = s.flt := rfl
@[simp] theorem writeDeep_fab (s : State) (a : Nat) (bs : List Byte) : (writeDeep s a bs).fab = s.fab := rfl
@[simp] theorem writeDeep_cir (s : State) (a : Nat) (bs : List Byte) : (writeDeep s a bs).cir = s.cir := rfl
@[simp] theorem writeDeep_ports (s : State) (a : Nat) (bs : List Byte) : (writeDeep s a bs).ports = s.ports := rfl
@[simp] theorem writeDeep_mills (s : State) (a : Nat) (bs : List Byte) : (writeDeep s a bs).mills = s.mills := rfl
@[simp] theorem writeDeep_sendTbl (s : State) (a : Nat) (bs : List Byte) : (writeDeep s a bs).sendTbl = s.sendTbl := rfl
@[simp] theorem writeDeep_delay (s : State) (a : Nat) (bs : List Byte) : (writeDeep s a bs).delay = s.delay := rfl
@[simp] theorem writeDeep_gang (s : State) (a : Nat) (bs : List Byte) : (writeDeep s a bs).gang = s.gang := rfl
@[simp] theorem writeDeep_power (s : State) (a : Nat) (bs : List Byte) : (writeDeep s a bs).power = s.power := rfl
@[simp] theorem writeDeep_mgmt (s : State) (a : Nat) (bs : List Byte) : (writeDeep s a bs).mgmt = s.mgmt := rfl
@[simp] theorem writeDeep_outbox (s : State) (a : Nat) (bs : List Byte) : (writeDeep s a bs).outbox = s.outbox := rfl
@[simp] theorem writeDeep_inbox (s : State) (a : Nat) (bs : List Byte) : (writeDeep s a bs).inbox = s.inbox := rfl
@[simp] theorem writeDeep_out (s : State) (a : Nat) (bs : List Byte) : (writeDeep s a bs).out = s.out := rfl
@[simp] theorem writeDeep_freeCtr (s : State) (a : Nat) (bs : List Byte) : (writeDeep s a bs).freeCtr = s.freeCtr := rfl
@[simp] theorem writeDeep_nextId (s : State) (a : Nat) (bs : List Byte) : (writeDeep s a bs).nextId = s.nextId := rfl
@[simp] theorem writeDeep_ups (s : State) (a : Nat) (bs : List Byte) : (writeDeep s a bs).ups = s.ups := rfl

/-! ### strikeDeep -/

@[simp] theorem strikeDeep_pending (s : State) (cs : List Nat) : (strikeDeep s cs).pending = s.pending := rfl
@[simp] theorem strikeDeep_regs (s : State) (cs : List Nat) : (strikeDeep s cs).regs = s.regs := rfl
@[simp] theorem strikeDeep_held (s : State) (cs : List Nat) : (strikeDeep s cs).held = s.held := rfl
@[simp] theorem strikeDeep_captured (s : State) (cs : List Nat) : (strikeDeep s cs).captured = s.captured := rfl
@[simp] theorem strikeDeep_time (s : State) (cs : List Nat) : (strikeDeep s cs).time = s.time := rfl
@[simp] theorem strikeDeep_comp (s : State) (cs : List Nat) : (strikeDeep s cs).comp = s.comp := rfl
@[simp] theorem strikeDeep_rem (s : State) (cs : List Nat) : (strikeDeep s cs).rem = s.rem := rfl
@[simp] theorem strikeDeep_host (s : State) (cs : List Nat) : (strikeDeep s cs).host = s.host := rfl
@[simp] theorem strikeDeep_flt (s : State) (cs : List Nat) : (strikeDeep s cs).flt = s.flt := rfl
@[simp] theorem strikeDeep_fab (s : State) (cs : List Nat) : (strikeDeep s cs).fab = s.fab := rfl
@[simp] theorem strikeDeep_cir (s : State) (cs : List Nat) : (strikeDeep s cs).cir = s.cir := rfl
@[simp] theorem strikeDeep_ports (s : State) (cs : List Nat) : (strikeDeep s cs).ports = s.ports := rfl
@[simp] theorem strikeDeep_mills (s : State) (cs : List Nat) : (strikeDeep s cs).mills = s.mills := rfl
@[simp] theorem strikeDeep_sendTbl (s : State) (cs : List Nat) : (strikeDeep s cs).sendTbl = s.sendTbl := rfl
@[simp] theorem strikeDeep_delay (s : State) (cs : List Nat) : (strikeDeep s cs).delay = s.delay := rfl
@[simp] theorem strikeDeep_gang (s : State) (cs : List Nat) : (strikeDeep s cs).gang = s.gang := rfl
@[simp] theorem strikeDeep_power (s : State) (cs : List Nat) : (strikeDeep s cs).power = s.power := rfl
@[simp] theorem strikeDeep_mgmt (s : State) (cs : List Nat) : (strikeDeep s cs).mgmt = s.mgmt := rfl
@[simp] theorem strikeDeep_outbox (s : State) (cs : List Nat) : (strikeDeep s cs).outbox = s.outbox := rfl
@[simp] theorem strikeDeep_inbox (s : State) (cs : List Nat) : (strikeDeep s cs).inbox = s.inbox := rfl
@[simp] theorem strikeDeep_out (s : State) (cs : List Nat) : (strikeDeep s cs).out = s.out := rfl
@[simp] theorem strikeDeep_freeCtr (s : State) (cs : List Nat) : (strikeDeep s cs).freeCtr = s.freeCtr := rfl
@[simp] theorem strikeDeep_nextId (s : State) (cs : List Nat) : (strikeDeep s cs).nextId = s.nextId := rfl
@[simp] theorem strikeDeep_ups (s : State) (cs : List Nat) : (strikeDeep s cs).ups = s.ups := rfl

/-! ### reportList -/

@[simp] theorem reportList_pending (s : State) (l : Launch) (st didx : Nat) (fl : FpFlags) : (reportList s l st didx fl).pending = s.pending := rfl
@[simp] theorem reportList_regs (s : State) (l : Launch) (st didx : Nat) (fl : FpFlags) : (reportList s l st didx fl).regs = s.regs := rfl
@[simp] theorem reportList_held (s : State) (l : Launch) (st didx : Nat) (fl : FpFlags) : (reportList s l st didx fl).held = s.held := rfl
@[simp] theorem reportList_captured (s : State) (l : Launch) (st didx : Nat) (fl : FpFlags) : (reportList s l st didx fl).captured = s.captured := rfl
@[simp] theorem reportList_time (s : State) (l : Launch) (st didx : Nat) (fl : FpFlags) : (reportList s l st didx fl).time = s.time := rfl
@[simp] theorem reportList_comp (s : State) (l : Launch) (st didx : Nat) (fl : FpFlags) : (reportList s l st didx fl).comp = s.comp := rfl
@[simp] theorem reportList_deep (s : State) (l : Launch) (st didx : Nat) (fl : FpFlags) : (reportList s l st didx fl).deep = s.deep := rfl
@[simp] theorem reportList_rem (s : State) (l : Launch) (st didx : Nat) (fl : FpFlags) : (reportList s l st didx fl).rem = s.rem := rfl
@[simp] theorem reportList_flt (s : State) (l : Launch) (st didx : Nat) (fl : FpFlags) : (reportList s l st didx fl).flt = s.flt := rfl
@[simp] theorem reportList_fab (s : State) (l : Launch) (st didx : Nat) (fl : FpFlags) : (reportList s l st didx fl).fab = s.fab := rfl
@[simp] theorem reportList_cir (s : State) (l : Launch) (st didx : Nat) (fl : FpFlags) : (reportList s l st didx fl).cir = s.cir := rfl
@[simp] theorem reportList_ports (s : State) (l : Launch) (st didx : Nat) (fl : FpFlags) : (reportList s l st didx fl).ports = s.ports := rfl
@[simp] theorem reportList_mills (s : State) (l : Launch) (st didx : Nat) (fl : FpFlags) : (reportList s l st didx fl).mills = s.mills := rfl
@[simp] theorem reportList_sendTbl (s : State) (l : Launch) (st didx : Nat) (fl : FpFlags) : (reportList s l st didx fl).sendTbl = s.sendTbl := rfl
@[simp] theorem reportList_delay (s : State) (l : Launch) (st didx : Nat) (fl : FpFlags) : (reportList s l st didx fl).delay = s.delay := rfl
@[simp] theorem reportList_gang (s : State) (l : Launch) (st didx : Nat) (fl : FpFlags) : (reportList s l st didx fl).gang = s.gang := rfl
@[simp] theorem reportList_power (s : State) (l : Launch) (st didx : Nat) (fl : FpFlags) : (reportList s l st didx fl).power = s.power := rfl
@[simp] theorem reportList_mgmt (s : State) (l : Launch) (st didx : Nat) (fl : FpFlags) : (reportList s l st didx fl).mgmt = s.mgmt := rfl
@[simp] theorem reportList_outbox (s : State) (l : Launch) (st didx : Nat) (fl : FpFlags) : (reportList s l st didx fl).outbox = s.outbox := rfl
@[simp] theorem reportList_inbox (s : State) (l : Launch) (st didx : Nat) (fl : FpFlags) : (reportList s l st didx fl).inbox = s.inbox := rfl
@[simp] theorem reportList_out (s : State) (l : Launch) (st didx : Nat) (fl : FpFlags) : (reportList s l st didx fl).out = s.out := rfl
@[simp] theorem reportList_freeCtr (s : State) (l : Launch) (st didx : Nat) (fl : FpFlags) : (reportList s l st didx fl).freeCtr = s.freeCtr := rfl
@[simp] theorem reportList_nextId (s : State) (l : Launch) (st didx : Nat) (fl : FpFlags) : (reportList s l st didx fl).nextId = s.nextId := rfl
@[simp] theorem reportList_ups (s : State) (l : Launch) (st didx : Nat) (fl : FpFlags) : (reportList s l st didx fl).ups = s.ups := rfl

/-! ### updDesc -/

@[simp] theorem updDesc_pending (s : State) (r : DescRef) (f : HostDesc → HostDesc) : (updDesc s r f).pending = s.pending := rfl
@[simp] theorem updDesc_regs (s : State) (r : DescRef) (f : HostDesc → HostDesc) : (updDesc s r f).regs = s.regs := rfl
@[simp] theorem updDesc_held (s : State) (r : DescRef) (f : HostDesc → HostDesc) : (updDesc s r f).held = s.held := rfl
@[simp] theorem updDesc_captured (s : State) (r : DescRef) (f : HostDesc → HostDesc) : (updDesc s r f).captured = s.captured := rfl
@[simp] theorem updDesc_time (s : State) (r : DescRef) (f : HostDesc → HostDesc) : (updDesc s r f).time = s.time := rfl
@[simp] theorem updDesc_comp (s : State) (r : DescRef) (f : HostDesc → HostDesc) : (updDesc s r f).comp = s.comp := rfl
@[simp] theorem updDesc_deep (s : State) (r : DescRef) (f : HostDesc → HostDesc) : (updDesc s r f).deep = s.deep := rfl
@[simp] theorem updDesc_rem (s : State) (r : DescRef) (f : HostDesc → HostDesc) : (updDesc s r f).rem = s.rem := rfl
@[simp] theorem updDesc_flt (s : State) (r : DescRef) (f : HostDesc → HostDesc) : (updDesc s r f).flt = s.flt := rfl
@[simp] theorem updDesc_fab (s : State) (r : DescRef) (f : HostDesc → HostDesc) : (updDesc s r f).fab = s.fab := rfl
@[simp] theorem updDesc_cir (s : State) (r : DescRef) (f : HostDesc → HostDesc) : (updDesc s r f).cir = s.cir := rfl
@[simp] theorem updDesc_ports (s : State) (r : DescRef) (f : HostDesc → HostDesc) : (updDesc s r f).ports = s.ports := rfl
@[simp] theorem updDesc_mills (s : State) (r : DescRef) (f : HostDesc → HostDesc) : (updDesc s r f).mills = s.mills := rfl
@[simp] theorem updDesc_sendTbl (s : State) (r : DescRef) (f : HostDesc → HostDesc) : (updDesc s r f).sendTbl = s.sendTbl := rfl
@[simp] theorem updDesc_delay (s : State) (r : DescRef) (f : HostDesc → HostDesc) : (updDesc s r f).delay = s.delay := rfl
@[simp] theorem updDesc_gang (s : State) (r : DescRef) (f : HostDesc → HostDesc) : (updDesc s r f).gang = s.gang := rfl
@[simp] theorem updDesc_power (s : State) (r : DescRef) (f : HostDesc → HostDesc) : (updDesc s r f).power = s.power := rfl
@[simp] theorem updDesc_mgmt (s : State) (r : DescRef) (f : HostDesc → HostDesc) : (updDesc s r f).mgmt = s.mgmt := rfl
@[simp] theorem updDesc_outbox (s : State) (r : DescRef) (f : HostDesc → HostDesc) : (updDesc s r f).outbox = s.outbox := rfl
@[simp] theorem updDesc_inbox (s : State) (r : DescRef) (f : HostDesc → HostDesc) : (updDesc s r f).inbox = s.inbox := rfl
@[simp] theorem updDesc_out (s : State) (r : DescRef) (f : HostDesc → HostDesc) : (updDesc s r f).out = s.out := rfl
@[simp] theorem updDesc_freeCtr (s : State) (r : DescRef) (f : HostDesc → HostDesc) : (updDesc s r f).freeCtr = s.freeCtr := rfl
@[simp] theorem updDesc_nextId (s : State) (r : DescRef) (f : HostDesc → HostDesc) : (updDesc s r f).nextId = s.nextId := rfl
@[simp] theorem updDesc_ups (s : State) (r : DescRef) (f : HostDesc → HostDesc) : (updDesc s r f).ups = s.ups := rfl

/-! ### setFn -/

@[simp] theorem setFn_pending (s : State) (fn : Nat) (x : FnSt) : (setFn s fn x).pending = s.pending := rfl
@[simp] theorem setFn_regs (s : State) (fn : Nat) (x : FnSt) : (setFn s fn x).regs = s.regs := rfl
@[simp] theorem setFn_held (s : State) (fn : Nat) (x : FnSt) : (setFn s fn x).held = s.held := rfl
@[simp] theorem setFn_captured (s : State) (fn : Nat) (x : FnSt) : (setFn s fn x).captured = s.captured := rfl
@[simp] theorem setFn_time (s : State) (fn : Nat) (x : FnSt) : (setFn s fn x).time = s.time := rfl
@[simp] theorem setFn_comp (s : State) (fn : Nat) (x : FnSt) : (setFn s fn x).comp = s.comp := rfl
@[simp] theorem setFn_deep (s : State) (fn : Nat) (x : FnSt) : (setFn s fn x).deep = s.deep := rfl
@[simp] theorem setFn_rem (s : State) (fn : Nat) (x : FnSt) : (setFn s fn x).rem = s.rem := rfl
@[simp] theorem setFn_flt (s : State) (fn : Nat) (x : FnSt) : (setFn s fn x).flt = s.flt := rfl
@[simp] theorem setFn_fab (s : State) (fn : Nat) (x : FnSt) : (setFn s fn x).fab = s.fab := rfl
@[simp] theorem setFn_cir (s : State) (fn : Nat) (x : FnSt) : (setFn s fn x).cir = s.cir := rfl
@[simp] theorem setFn_ports (s : State) (fn : Nat) (x : FnSt) : (setFn s fn x).ports = s.ports := rfl
@[simp] theorem setFn_mills (s : State) (fn : Nat) (x : FnSt) : (setFn s fn x).mills = s.mills := rfl
@[simp] theorem setFn_sendTbl (s : State) (fn : Nat) (x : FnSt) : (setFn s fn x).sendTbl = s.sendTbl := rfl
@[simp] theorem setFn_delay (s : State) (fn : Nat) (x : FnSt) : (setFn s fn x).delay = s.delay := rfl
@[simp] theorem setFn_gang (s : State) (fn : Nat) (x : FnSt) : (setFn s fn x).gang = s.gang := rfl
@[simp] theorem setFn_power (s : State) (fn : Nat) (x : FnSt) : (setFn s fn x).power = s.power := rfl
@[simp] theorem setFn_mgmt (s : State) (fn : Nat) (x : FnSt) : (setFn s fn x).mgmt = s.mgmt := rfl
@[simp] theorem setFn_outbox (s : State) (fn : Nat) (x : FnSt) : (setFn s fn x).outbox = s.outbox := rfl
@[simp] theorem setFn_inbox (s : State) (fn : Nat) (x : FnSt) : (setFn s fn x).inbox = s.inbox := rfl
@[simp] theorem setFn_out (s : State) (fn : Nat) (x : FnSt) : (setFn s fn x).out = s.out := rfl
@[simp] theorem setFn_freeCtr (s : State) (fn : Nat) (x : FnSt) : (setFn s fn x).freeCtr = s.freeCtr := rfl
@[simp] theorem setFn_nextId (s : State) (fn : Nat) (x : FnSt) : (setFn s fn x).nextId = s.nextId := rfl
@[simp] theorem setFn_ups (s : State) (fn : Nat) (x : FnSt) : (setFn s fn x).ups = s.ups := rfl

/-! ### setRing -/

@[simp] theorem setRing_pending (s : State) (fn r : Nat) (x : Ring) : (setRing s fn r x).pending = s.pending := rfl
@[simp] theorem setRing_regs (s : State) (fn r : Nat) (x : Ring) : (setRing s fn r x).regs = s.regs := rfl
@[simp] theorem setRing_held (s : State) (fn r : Nat) (x : Ring) : (setRing s fn r x).held = s.held := rfl
@[simp] theorem setRing_captured (s : State) (fn r : Nat) (x : Ring) : (setRing s fn r x).captured = s.captured := rfl
@[simp] theorem setRing_time (s : State) (fn r : Nat) (x : Ring) : (setRing s fn r x).time = s.time := rfl
@[simp] theorem setRing_comp (s : State) (fn r : Nat) (x : Ring) : (setRing s fn r x).comp = s.comp := rfl
@[simp] theorem setRing_deep (s : State) (fn r : Nat) (x : Ring) : (setRing s fn r x).deep = s.deep := rfl
@[simp] theorem setRing_rem (s : State) (fn r : Nat) (x : Ring) : (setRing s fn r x).rem = s.rem := rfl
@[simp] theorem setRing_flt (s : State) (fn r : Nat) (x : Ring) : (setRing s fn r x).flt = s.flt := rfl
@[simp] theorem setRing_fab (s : State) (fn r : Nat) (x : Ring) : (setRing s fn r x).fab = s.fab := rfl
@[simp] theorem setRing_cir (s : State) (fn r : Nat) (x : Ring) : (setRing s fn r x).cir = s.cir := rfl
@[simp] theorem setRing_ports (s : State) (fn r : Nat) (x : Ring) : (setRing s fn r x).ports = s.ports := rfl
@[simp] theorem setRing_mills (s : State) (fn r : Nat) (x : Ring) : (setRing s fn r x).mills = s.mills := rfl
@[simp] theorem setRing_sendTbl (s : State) (fn r : Nat) (x : Ring) : (setRing s fn r x).sendTbl = s.sendTbl := rfl
@[simp] theorem setRing_delay (s : State) (fn r : Nat) (x : Ring) : (setRing s fn r x).delay = s.delay := rfl
@[simp] theorem setRing_gang (s : State) (fn r : Nat) (x : Ring) : (setRing s fn r x).gang = s.gang := rfl
@[simp] theorem setRing_power (s : State) (fn r : Nat) (x : Ring) : (setRing s fn r x).power = s.power := rfl
@[simp] theorem setRing_mgmt (s : State) (fn r : Nat) (x : Ring) : (setRing s fn r x).mgmt = s.mgmt := rfl
@[simp] theorem setRing_outbox (s : State) (fn r : Nat) (x : Ring) : (setRing s fn r x).outbox = s.outbox := rfl
@[simp] theorem setRing_inbox (s : State) (fn r : Nat) (x : Ring) : (setRing s fn r x).inbox = s.inbox := rfl
@[simp] theorem setRing_out (s : State) (fn r : Nat) (x : Ring) : (setRing s fn r x).out = s.out := rfl
@[simp] theorem setRing_freeCtr (s : State) (fn r : Nat) (x : Ring) : (setRing s fn r x).freeCtr = s.freeCtr := rfl
@[simp] theorem setRing_nextId (s : State) (fn r : Nat) (x : Ring) : (setRing s fn r x).nextId = s.nextId := rfl
@[simp] theorem setRing_ups (s : State) (fn r : Nat) (x : Ring) : (setRing s fn r x).ups = s.ups := rfl

/-! ### setVec -/

@[simp] theorem setVec_pending (s : State) (fn v : Nat) (x : Vector) : (setVec s fn v x).pending = s.pending := rfl
@[simp] theorem setVec_regs (s : State) (fn v : Nat) (x : Vector) : (setVec s fn v x).regs = s.regs := rfl
@[simp] theorem setVec_held (s : State) (fn v : Nat) (x : Vector) : (setVec s fn v x).held = s.held := rfl
@[simp] theorem setVec_captured (s : State) (fn v : Nat) (x : Vector) : (setVec s fn v x).captured = s.captured := rfl
@[simp] theorem setVec_time (s : State) (fn v : Nat) (x : Vector) : (setVec s fn v x).time = s.time := rfl
@[simp] theorem setVec_comp (s : State) (fn v : Nat) (x : Vector) : (setVec s fn v x).comp = s.comp := rfl
@[simp] theorem setVec_deep (s : State) (fn v : Nat) (x : Vector) : (setVec s fn v x).deep = s.deep := rfl
@[simp] theorem setVec_rem (s : State) (fn v : Nat) (x : Vector) : (setVec s fn v x).rem = s.rem := rfl
@[simp] theorem setVec_flt (s : State) (fn v : Nat) (x : Vector) : (setVec s fn v x).flt = s.flt := rfl
@[simp] theorem setVec_fab (s : State) (fn v : Nat) (x : Vector) : (setVec s fn v x).fab = s.fab := rfl
@[simp] theorem setVec_cir (s : State) (fn v : Nat) (x : Vector) : (setVec s fn v x).cir = s.cir := rfl
@[simp] theorem setVec_ports (s : State) (fn v : Nat) (x : Vector) : (setVec s fn v x).ports = s.ports := rfl
@[simp] theorem setVec_mills (s : State) (fn v : Nat) (x : Vector) : (setVec s fn v x).mills = s.mills := rfl
@[simp] theorem setVec_sendTbl (s : State) (fn v : Nat) (x : Vector) : (setVec s fn v x).sendTbl = s.sendTbl := rfl
@[simp] theorem setVec_delay (s : State) (fn v : Nat) (x : Vector) : (setVec s fn v x).delay = s.delay := rfl
@[simp] theorem setVec_gang (s : State) (fn v : Nat) (x : Vector) : (setVec s fn v x).gang = s.gang := rfl
@[simp] theorem setVec_power (s : State) (fn v : Nat) (x : Vector) : (setVec s fn v x).power = s.power := rfl
@[simp] theorem setVec_mgmt (s : State) (fn v : Nat) (x : Vector) : (setVec s fn v x).mgmt = s.mgmt := rfl
@[simp] theorem setVec_outbox (s : State) (fn v : Nat) (x : Vector) : (setVec s fn v x).outbox = s.outbox := rfl
@[simp] theorem setVec_inbox (s : State) (fn v : Nat) (x : Vector) : (setVec s fn v x).inbox = s.inbox := rfl
@[simp] theorem setVec_out (s : State) (fn v : Nat) (x : Vector) : (setVec s fn v x).out = s.out := rfl
@[simp] theorem setVec_freeCtr (s : State) (fn v : Nat) (x : Vector) : (setVec s fn v x).freeCtr = s.freeCtr := rfl
@[simp] theorem setVec_nextId (s : State) (fn v : Nat) (x : Vector) : (setVec s fn v x).nextId = s.nextId := rfl
@[simp] theorem setVec_ups (s : State) (fn v : Nat) (x : Vector) : (setVec s fn v x).ups = s.ups := rfl

/-! ### setPol -/

@[simp] theorem setPol_pending (s : State) (k : Nat) (p : Policer) : (setPol s k p).pending = s.pending := rfl
@[simp] theorem setPol_regs (s : State) (k : Nat) (p : Policer) : (setPol s k p).regs = s.regs := rfl
@[simp] theorem setPol_held (s : State) (k : Nat) (p : Policer) : (setPol s k p).held = s.held := rfl
@[simp] theorem setPol_captured (s : State) (k : Nat) (p : Policer) : (setPol s k p).captured = s.captured := rfl
@[simp] theorem setPol_time (s : State) (k : Nat) (p : Policer) : (setPol s k p).time = s.time := rfl
@[simp] theorem setPol_comp (s : State) (k : Nat) (p : Policer) : (setPol s k p).comp = s.comp := rfl
@[simp] theorem setPol_deep (s : State) (k : Nat) (p : Policer) : (setPol s k p).deep = s.deep := rfl
@[simp] theorem setPol_rem (s : State) (k : Nat) (p : Policer) : (setPol s k p).rem = s.rem := rfl
@[simp] theorem setPol_host (s : State) (k : Nat) (p : Policer) : (setPol s k p).host = s.host := rfl
@[simp] theorem setPol_flt (s : State) (k : Nat) (p : Policer) : (setPol s k p).flt = s.flt := rfl
@[simp] theorem setPol_cir (s : State) (k : Nat) (p : Policer) : (setPol s k p).cir = s.cir := rfl
@[simp] theorem setPol_ports (s : State) (k : Nat) (p : Policer) : (setPol s k p).ports = s.ports := rfl
@[simp] theorem setPol_mills (s : State) (k : Nat) (p : Policer) : (setPol s k p).mills = s.mills := rfl
@[simp] theorem setPol_sendTbl (s : State) (k : Nat) (p : Policer) : (setPol s k p).sendTbl = s.sendTbl := rfl
@[simp] theorem setPol_delay (s : State) (k : Nat) (p : Policer) : (setPol s k p).delay = s.delay := rfl
@[simp] theorem setPol_gang (s : State) (k : Nat) (p : Policer) : (setPol s k p).gang = s.gang := rfl
@[simp] theorem setPol_power (s : State) (k : Nat) (p : Policer) : (setPol s k p).power = s.power := rfl
@[simp] theorem setPol_mgmt (s : State) (k : Nat) (p : Policer) : (setPol s k p).mgmt = s.mgmt := rfl
@[simp] theorem setPol_outbox (s : State) (k : Nat) (p : Policer) : (setPol s k p).outbox = s.outbox := rfl
@[simp] theorem setPol_inbox (s : State) (k : Nat) (p : Policer) : (setPol s k p).inbox = s.inbox := rfl
@[simp] theorem setPol_out (s : State) (k : Nat) (p : Policer) : (setPol s k p).out = s.out := rfl
@[simp] theorem setPol_freeCtr (s : State) (k : Nat) (p : Policer) : (setPol s k p).freeCtr = s.freeCtr := rfl
@[simp] theorem setPol_nextId (s : State) (k : Nat) (p : Policer) : (setPol s k p).nextId = s.nextId := rfl
@[simp] theorem setPol_ups (s : State) (k : Nat) (p : Policer) : (setPol s k p).ups = s.ups := rfl

/-! ### setShp -/

@[simp] theorem setShp_pending (s : State) (k : Nat) (p : Shaper) : (setShp s k p).pending = s.pending := rfl
@[simp] theorem setShp_regs (s : State) (k : Nat) (p : Shaper) : (setShp s k p).regs = s.regs := rfl
@[simp] theorem setShp_held (s : State) (k : Nat) (p : Shaper) : (setShp s k p).held = s.held := rfl
@[simp] theorem setShp_captured (s : State) (k : Nat) (p : Shaper) : (setShp s k p).captured = s.captured := rfl
@[simp] theorem setShp_time (s : State) (k : Nat) (p : Shaper) : (setShp s k p).time = s.time := rfl
@[simp] theorem setShp_comp (s : State) (k : Nat) (p : Shaper) : (setShp s k p).comp = s.comp := rfl
@[simp] theorem setShp_deep (s : State) (k : Nat) (p : Shaper) : (setShp s k p).deep = s.deep := rfl
@[simp] theorem setShp_rem (s : State) (k : Nat) (p : Shaper) : (setShp s k p).rem = s.rem := rfl
@[simp] theorem setShp_host (s : State) (k : Nat) (p : Shaper) : (setShp s k p).host = s.host := rfl
@[simp] theorem setShp_flt (s : State) (k : Nat) (p : Shaper) : (setShp s k p).flt = s.flt := rfl
@[simp] theorem setShp_cir (s : State) (k : Nat) (p : Shaper) : (setShp s k p).cir = s.cir := rfl
@[simp] theorem setShp_ports (s : State) (k : Nat) (p : Shaper) : (setShp s k p).ports = s.ports := rfl
@[simp] theorem setShp_mills (s : State) (k : Nat) (p : Shaper) : (setShp s k p).mills = s.mills := rfl
@[simp] theorem setShp_sendTbl (s : State) (k : Nat) (p : Shaper) : (setShp s k p).sendTbl = s.sendTbl := rfl
@[simp] theorem setShp_delay (s : State) (k : Nat) (p : Shaper) : (setShp s k p).delay = s.delay := rfl
@[simp] theorem setShp_gang (s : State) (k : Nat) (p : Shaper) : (setShp s k p).gang = s.gang := rfl
@[simp] theorem setShp_power (s : State) (k : Nat) (p : Shaper) : (setShp s k p).power = s.power := rfl
@[simp] theorem setShp_mgmt (s : State) (k : Nat) (p : Shaper) : (setShp s k p).mgmt = s.mgmt := rfl
@[simp] theorem setShp_outbox (s : State) (k : Nat) (p : Shaper) : (setShp s k p).outbox = s.outbox := rfl
@[simp] theorem setShp_inbox (s : State) (k : Nat) (p : Shaper) : (setShp s k p).inbox = s.inbox := rfl
@[simp] theorem setShp_out (s : State) (k : Nat) (p : Shaper) : (setShp s k p).out = s.out := rfl
@[simp] theorem setShp_freeCtr (s : State) (k : Nat) (p : Shaper) : (setShp s k p).freeCtr = s.freeCtr := rfl
@[simp] theorem setShp_nextId (s : State) (k : Nat) (p : Shaper) : (setShp s k p).nextId = s.nextId := rfl
@[simp] theorem setShp_ups (s : State) (k : Nat) (p : Shaper) : (setShp s k p).ups = s.ups := rfl

/-! ### setMesh -/

@[simp] theorem setMesh_pending (s : State) (d : Nat) (m : MeshSt) : (setMesh s d m).pending = s.pending := rfl
@[simp] theorem setMesh_regs (s : State) (d : Nat) (m : MeshSt) : (setMesh s d m).regs = s.regs := rfl
@[simp] theorem setMesh_held (s : State) (d : Nat) (m : MeshSt) : (setMesh s d m).held = s.held := rfl
@[simp] theorem setMesh_captured (s : State) (d : Nat) (m : MeshSt) : (setMesh s d m).captured = s.captured := rfl
@[simp] theorem setMesh_time (s : State) (d : Nat) (m : MeshSt) : (setMesh s d m).time = s.time := rfl
@[simp] theorem setMesh_comp (s : State) (d : Nat) (m : MeshSt) : (setMesh s d m).comp = s.comp := rfl
@[simp] theorem setMesh_deep (s : State) (d : Nat) (m : MeshSt) : (setMesh s d m).deep = s.deep := rfl
@[simp] theorem setMesh_rem (s : State) (d : Nat) (m : MeshSt) : (setMesh s d m).rem = s.rem := rfl
@[simp] theorem setMesh_host (s : State) (d : Nat) (m : MeshSt) : (setMesh s d m).host = s.host := rfl
@[simp] theorem setMesh_flt (s : State) (d : Nat) (m : MeshSt) : (setMesh s d m).flt = s.flt := rfl
@[simp] theorem setMesh_cir (s : State) (d : Nat) (m : MeshSt) : (setMesh s d m).cir = s.cir := rfl
@[simp] theorem setMesh_ports (s : State) (d : Nat) (m : MeshSt) : (setMesh s d m).ports = s.ports := rfl
@[simp] theorem setMesh_mills (s : State) (d : Nat) (m : MeshSt) : (setMesh s d m).mills = s.mills := rfl
@[simp] theorem setMesh_sendTbl (s : State) (d : Nat) (m : MeshSt) : (setMesh s d m).sendTbl = s.sendTbl := rfl
@[simp] theorem setMesh_delay (s : State) (d : Nat) (m : MeshSt) : (setMesh s d m).delay = s.delay := rfl
@[simp] theorem setMesh_gang (s : State) (d : Nat) (m : MeshSt) : (setMesh s d m).gang = s.gang := rfl
@[simp] theorem setMesh_power (s : State) (d : Nat) (m : MeshSt) : (setMesh s d m).power = s.power := rfl
@[simp] theorem setMesh_mgmt (s : State) (d : Nat) (m : MeshSt) : (setMesh s d m).mgmt = s.mgmt := rfl
@[simp] theorem setMesh_outbox (s : State) (d : Nat) (m : MeshSt) : (setMesh s d m).outbox = s.outbox := rfl
@[simp] theorem setMesh_inbox (s : State) (d : Nat) (m : MeshSt) : (setMesh s d m).inbox = s.inbox := rfl
@[simp] theorem setMesh_out (s : State) (d : Nat) (m : MeshSt) : (setMesh s d m).out = s.out := rfl
@[simp] theorem setMesh_freeCtr (s : State) (d : Nat) (m : MeshSt) : (setMesh s d m).freeCtr = s.freeCtr := rfl
@[simp] theorem setMesh_nextId (s : State) (d : Nat) (m : MeshSt) : (setMesh s d m).nextId = s.nextId := rfl
@[simp] theorem setMesh_ups (s : State) (d : Nat) (m : MeshSt) : (setMesh s d m).ups = s.ups := rfl

/-! ### setQueue -/

@[simp] theorem setQueue_pending (s : State) (q : Nat) (x : PktQ) : (setQueue s q x).pending = s.pending := rfl
@[simp] theorem setQueue_regs (s : State) (q : Nat) (x : PktQ) : (setQueue s q x).regs = s.regs := rfl
@[simp] theorem setQueue_held (s : State) (q : Nat) (x : PktQ) : (setQueue s q x).held = s.held := rfl
@[simp] theorem setQueue_captured (s : State) (q : Nat) (x : PktQ) : (setQueue s q x).captured = s.captured := rfl
@[simp] theorem setQueue_time (s : State) (q : Nat) (x : PktQ) : (setQueue s q x).time = s.time := rfl
@[simp] theorem setQueue_comp (s : State) (q : Nat) (x : PktQ) : (setQueue s q x).comp = s.comp := rfl
@[simp] theorem setQueue_deep (s : State) (q : Nat) (x : PktQ) : (setQueue s q x).deep = s.deep := rfl
@[simp] theorem setQueue_rem (s : State) (q : Nat) (x : PktQ) : (setQueue s q x).rem = s.rem := rfl
@[simp] theorem setQueue_host (s : State) (q : Nat) (x : PktQ) : (setQueue s q x).host = s.host := rfl
@[simp] theorem setQueue_flt (s : State) (q : Nat) (x : PktQ) : (setQueue s q x).flt = s.flt := rfl
@[simp] theorem setQueue_cir (s : State) (q : Nat) (x : PktQ) : (setQueue s q x).cir = s.cir := rfl
@[simp] theorem setQueue_ports (s : State) (q : Nat) (x : PktQ) : (setQueue s q x).ports = s.ports := rfl
@[simp] theorem setQueue_mills (s : State) (q : Nat) (x : PktQ) : (setQueue s q x).mills = s.mills := rfl
@[simp] theorem setQueue_sendTbl (s : State) (q : Nat) (x : PktQ) : (setQueue s q x).sendTbl = s.sendTbl := rfl
@[simp] theorem setQueue_delay (s : State) (q : Nat) (x : PktQ) : (setQueue s q x).delay = s.delay := rfl
@[simp] theorem setQueue_gang (s : State) (q : Nat) (x : PktQ) : (setQueue s q x).gang = s.gang := rfl
@[simp] theorem setQueue_power (s : State) (q : Nat) (x : PktQ) : (setQueue s q x).power = s.power := rfl
@[simp] theorem setQueue_mgmt (s : State) (q : Nat) (x : PktQ) : (setQueue s q x).mgmt = s.mgmt := rfl
@[simp] theorem setQueue_outbox (s : State) (q : Nat) (x : PktQ) : (setQueue s q x).outbox = s.outbox := rfl
@[simp] theorem setQueue_inbox (s : State) (q : Nat) (x : PktQ) : (setQueue s q x).inbox = s.inbox := rfl
@[simp] theorem setQueue_out (s : State) (q : Nat) (x : PktQ) : (setQueue s q x).out = s.out := rfl
@[simp] theorem setQueue_freeCtr (s : State) (q : Nat) (x : PktQ) : (setQueue s q x).freeCtr = s.freeCtr := rfl
@[simp] theorem setQueue_nextId (s : State) (q : Nat) (x : PktQ) : (setQueue s q x).nextId = s.nextId := rfl
@[simp] theorem setQueue_ups (s : State) (q : Nat) (x : PktQ) : (setQueue s q x).ups = s.ups := rfl

/-! ### setCtl -/

@[simp] theorem setCtl_pending (s : State) (p : Nat) (l : List QEntry) : (setCtl s p l).pending = s.pending := rfl
@[simp] theorem setCtl_regs (s : State) (p : Nat) (l : List QEntry) : (setCtl s p l).regs = s.regs := rfl
@[simp] theorem setCtl_held (s : State) (p : Nat) (l : List QEntry) : (setCtl s p l).held = s.held := rfl
@[simp] theorem setCtl_captured (s : State) (p : Nat) (l : List QEntry) : (setCtl s p l).captured = s.captured := rfl
@[simp] theorem setCtl_time (s : State) (p : Nat) (l : List QEntry) : (setCtl s p l).time = s.time := rfl
@[simp] theorem setCtl_comp (s : State) (p : Nat) (l : List QEntry) : (setCtl s p l).comp = s.comp := rfl
@[simp] theorem setCtl_deep (s : State) (p : Nat) (l : List QEntry) : (setCtl s p l).deep = s.deep := rfl
@[simp] theorem setCtl_rem (s : State) (p : Nat) (l : List QEntry) : (setCtl s p l).rem = s.rem := rfl
@[simp] theorem setCtl_host (s : State) (p : Nat) (l : List QEntry) : (setCtl s p l).host = s.host := rfl
@[simp] theorem setCtl_flt (s : State) (p : Nat) (l : List QEntry) : (setCtl s p l).flt = s.flt := rfl
@[simp] theorem setCtl_cir (s : State) (p : Nat) (l : List QEntry) : (setCtl s p l).cir = s.cir := rfl
@[simp] theorem setCtl_ports (s : State) (p : Nat) (l : List QEntry) : (setCtl s p l).ports = s.ports := rfl
@[simp] theorem setCtl_mills (s : State) (p : Nat) (l : List QEntry) : (setCtl s p l).mills = s.mills := rfl
@[simp] theorem setCtl_sendTbl (s : State) (p : Nat) (l : List QEntry) : (setCtl s p l).sendTbl = s.sendTbl := rfl
@[simp] theorem setCtl_delay (s : State) (p : Nat) (l : List QEntry) : (setCtl s p l).delay = s.delay := rfl
@[simp] theorem setCtl_gang (s : State) (p : Nat) (l : List QEntry) : (setCtl s p l).gang = s.gang := rfl
@[simp] theorem setCtl_power (s : State) (p : Nat) (l : List QEntry) : (setCtl s p l).power = s.power := rfl
@[simp] theorem setCtl_mgmt (s : State) (p : Nat) (l : List QEntry) : (setCtl s p l).mgmt = s.mgmt := rfl
@[simp] theorem setCtl_outbox (s : State) (p : Nat) (l : List QEntry) : (setCtl s p l).outbox = s.outbox := rfl
@[simp] theorem setCtl_inbox (s : State) (p : Nat) (l : List QEntry) : (setCtl s p l).inbox = s.inbox := rfl
@[simp] theorem setCtl_out (s : State) (p : Nat) (l : List QEntry) : (setCtl s p l).out = s.out := rfl
@[simp] theorem setCtl_freeCtr (s : State) (p : Nat) (l : List QEntry) : (setCtl s p l).freeCtr = s.freeCtr := rfl
@[simp] theorem setCtl_nextId (s : State) (p : Nat) (l : List QEntry) : (setCtl s p l).nextId = s.nextId := rfl
@[simp] theorem setCtl_ups (s : State) (p : Nat) (l : List QEntry) : (setCtl s p l).ups = s.ups := rfl

/-! ### setCir -/

@[simp] theorem setCir_pending (s : State) (cid st : Nat) : (setCir s cid st).pending = s.pending := rfl
@[simp] theorem setCir_regs (s : State) (cid st : Nat) : (setCir s cid st).regs = s.regs := rfl
@[simp] theorem setCir_held (s : State) (cid st : Nat) : (setCir s cid st).held = s.held := rfl
@[simp] theorem setCir_captured (s : State) (cid st : Nat) : (setCir s cid st).captured = s.captured := rfl
@[simp] theorem setCir_time (s : State) (cid st : Nat) : (setCir s cid st).time = s.time := rfl
@[simp] theorem setCir_comp (s : State) (cid st : Nat) : (setCir s cid st).comp = s.comp := rfl
@[simp] theorem setCir_deep (s : State) (cid st : Nat) : (setCir s cid st).deep = s.deep := rfl
@[simp] theorem setCir_rem (s : State) (cid st : Nat) : (setCir s cid st).rem = s.rem := rfl
@[simp] theorem setCir_host (s : State) (cid st : Nat) : (setCir s cid st).host = s.host := rfl
@[simp] theorem setCir_flt (s : State) (cid st : Nat) : (setCir s cid st).flt = s.flt := rfl
@[simp] theorem setCir_fab (s : State) (cid st : Nat) : (setCir s cid st).fab = s.fab := rfl
@[simp] theorem setCir_ports (s : State) (cid st : Nat) : (setCir s cid st).ports = s.ports := rfl
@[simp] theorem setCir_mills (s : State) (cid st : Nat) : (setCir s cid st).mills = s.mills := rfl
@[simp] theorem setCir_sendTbl (s : State) (cid st : Nat) : (setCir s cid st).sendTbl = s.sendTbl := rfl
@[simp] theorem setCir_delay (s : State) (cid st : Nat) : (setCir s cid st).delay = s.delay := rfl
@[simp] theorem setCir_gang (s : State) (cid st : Nat) : (setCir s cid st).gang = s.gang := rfl
@[simp] theorem setCir_power (s : State) (cid st : Nat) : (setCir s cid st).power = s.power := rfl
@[simp] theorem setCir_mgmt (s : State) (cid st : Nat) : (setCir s cid st).mgmt = s.mgmt := rfl
@[simp] theorem setCir_outbox (s : State) (cid st : Nat) : (setCir s cid st).outbox = s.outbox := rfl
@[simp] theorem setCir_inbox (s : State) (cid st : Nat) : (setCir s cid st).inbox = s.inbox := rfl
@[simp] theorem setCir_out (s : State) (cid st : Nat) : (setCir s cid st).out = s.out := rfl
@[simp] theorem setCir_freeCtr (s : State) (cid st : Nat) : (setCir s cid st).freeCtr = s.freeCtr := rfl
@[simp] theorem setCir_nextId (s : State) (cid st : Nat) : (setCir s cid st).nextId = s.nextId := rfl
@[simp] theorem setCir_ups (s : State) (cid st : Nat) : (setCir s cid st).ups = s.ups := rfl

/-! ### setSrcq -/

@[simp] theorem setSrcq_pending (s : State) (cid : Nat) (l : List QEntry) : (setSrcq s cid l).pending = s.pending := rfl
@[simp] theorem setSrcq_regs (s : State) (cid : Nat) (l : List QEntry) : (setSrcq s cid l).regs = s.regs := rfl
@[simp] theorem setSrcq_held (s : State) (cid : Nat) (l : List QEntry) : (setSrcq s cid l).held = s.held := rfl
@[simp] theorem setSrcq_captured (s : State) (cid : Nat) (l : List QEntry) : (setSrcq s cid l).captured = s.captured := rfl
@[simp] theorem setSrcq_time (s : State) (cid : Nat) (l : List QEntry) : (setSrcq s cid l).time = s.time := rfl
@[simp] theorem setSrcq_comp (s : State) (cid : Nat) (l : List QEntry) : (setSrcq s cid l).comp = s.comp := rfl
@[simp] theorem setSrcq_deep (s : State) (cid : Nat) (l : List QEntry) : (setSrcq s cid l).deep = s.deep := rfl
@[simp] theorem setSrcq_rem (s : State) (cid : Nat) (l : List QEntry) : (setSrcq s cid l).rem = s.rem := rfl
@[simp] theorem setSrcq_host (s : State) (cid : Nat) (l : List QEntry) : (setSrcq s cid l).host = s.host := rfl
@[simp] theorem setSrcq_flt (s : State) (cid : Nat) (l : List QEntry) : (setSrcq s cid l).flt = s.flt := rfl
@[simp] theorem setSrcq_fab (s : State) (cid : Nat) (l : List QEntry) : (setSrcq s cid l).fab = s.fab := rfl
@[simp] theorem setSrcq_ports (s : State) (cid : Nat) (l : List QEntry) : (setSrcq s cid l).ports = s.ports := rfl
@[simp] theorem setSrcq_mills (s : State) (cid : Nat) (l : List QEntry) : (setSrcq s cid l).mills = s.mills := rfl
@[simp] theorem setSrcq_sendTbl (s : State) (cid : Nat) (l : List QEntry) : (setSrcq s cid l).sendTbl = s.sendTbl := rfl
@[simp] theorem setSrcq_delay (s : State) (cid : Nat) (l : List QEntry) : (setSrcq s cid l).delay = s.delay := rfl
@[simp] theorem setSrcq_gang (s : State) (cid : Nat) (l : List QEntry) : (setSrcq s cid l).gang = s.gang := rfl
@[simp] theorem setSrcq_power (s : State) (cid : Nat) (l : List QEntry) : (setSrcq s cid l).power = s.power := rfl
@[simp] theorem setSrcq_mgmt (s : State) (cid : Nat) (l : List QEntry) : (setSrcq s cid l).mgmt = s.mgmt := rfl
@[simp] theorem setSrcq_outbox (s : State) (cid : Nat) (l : List QEntry) : (setSrcq s cid l).outbox = s.outbox := rfl
@[simp] theorem setSrcq_inbox (s : State) (cid : Nat) (l : List QEntry) : (setSrcq s cid l).inbox = s.inbox := rfl
@[simp] theorem setSrcq_out (s : State) (cid : Nat) (l : List QEntry) : (setSrcq s cid l).out = s.out := rfl
@[simp] theorem setSrcq_freeCtr (s : State) (cid : Nat) (l : List QEntry) : (setSrcq s cid l).freeCtr = s.freeCtr := rfl
@[simp] theorem setSrcq_nextId (s : State) (cid : Nat) (l : List QEntry) : (setSrcq s cid l).nextId = s.nextId := rfl
@[simp] theorem setSrcq_ups (s : State) (cid : Nat) (l : List QEntry) : (setSrcq s cid l).ups = s.ups := rfl

/-! ### setPort -/

@[simp] theorem setPort_pending (s : State) (p : Nat) (x : PortSt) : (setPort s p x).pending = s.pending := rfl
@[simp] theorem setPort_regs (s : State) (p : Nat) (x : PortSt) : (setPort s p x).regs = s.regs := rfl
@[simp] theorem setPort_held (s : State) (p : Nat) (x : PortSt) : (setPort s p x).held = s.held := rfl
@[simp] theorem setPort_captured (s : State) (p : Nat) (x : PortSt) : (setPort s p x).captured = s.captured := rfl
@[simp] theorem setPort_time (s : State) (p : Nat) (x : PortSt) : (setPort s p x).time = s.time := rfl
@[simp] theorem setPort_comp (s : State) (p : Nat) (x : PortSt) : (setPort s p x).comp = s.comp := rfl
@[simp] theorem setPort_deep (s : State) (p : Nat) (x : PortSt) : (setPort s p x).deep = s.deep := rfl
@[simp] theorem setPort_rem (s : State) (p : Nat) (x : PortSt) : (setPort s p x).rem = s.rem := rfl
@[simp] theorem setPort_host (s : State) (p : Nat) (x : PortSt) : (setPort s p x).host = s.host := rfl
@[simp] theorem setPort_flt (s : State) (p : Nat) (x : PortSt) : (setPort s p x).flt = s.flt := rfl
@[simp] theorem setPort_fab (s : State) (p : Nat) (x : PortSt) : (setPort s p x).fab = s.fab := rfl
@[simp] theorem setPort_cir (s : State) (p : Nat) (x : PortSt) : (setPort s p x).cir = s.cir := rfl
@[simp] theorem setPort_mills (s : State) (p : Nat) (x : PortSt) : (setPort s p x).mills = s.mills := rfl
@[simp] theorem setPort_sendTbl (s : State) (p : Nat) (x : PortSt) : (setPort s p x).sendTbl = s.sendTbl := rfl
@[simp] theorem setPort_delay (s : State) (p : Nat) (x : PortSt) : (setPort s p x).delay = s.delay := rfl
@[simp] theorem setPort_gang (s : State) (p : Nat) (x : PortSt) : (setPort s p x).gang = s.gang := rfl
@[simp] theorem setPort_power (s : State) (p : Nat) (x : PortSt) : (setPort s p x).power = s.power := rfl
@[simp] theorem setPort_mgmt (s : State) (p : Nat) (x : PortSt) : (setPort s p x).mgmt = s.mgmt := rfl
@[simp] theorem setPort_outbox (s : State) (p : Nat) (x : PortSt) : (setPort s p x).outbox = s.outbox := rfl
@[simp] theorem setPort_inbox (s : State) (p : Nat) (x : PortSt) : (setPort s p x).inbox = s.inbox := rfl
@[simp] theorem setPort_out (s : State) (p : Nat) (x : PortSt) : (setPort s p x).out = s.out := rfl
@[simp] theorem setPort_freeCtr (s : State) (p : Nat) (x : PortSt) : (setPort s p x).freeCtr = s.freeCtr := rfl
@[simp] theorem setPort_nextId (s : State) (p : Nat) (x : PortSt) : (setPort s p x).nextId = s.nextId := rfl
@[simp] theorem setPort_ups (s : State) (p : Nat) (x : PortSt) : (setPort s p x).ups = s.ups := rfl

/-! ### setDelay -/

@[simp] theorem setDelay_pending (s : State) (p : Nat) (x : DelaySt) : (setDelay s p x).pending = s.pending := rfl
@[simp] theorem setDelay_regs (s : State) (p : Nat) (x : DelaySt) : (setDelay s p x).regs = s.regs := rfl
@[simp] theorem setDelay_held (s : State) (p : Nat) (x : DelaySt) : (setDelay s p x).held = s.held := rfl
@[simp] theorem setDelay_captured (s : State) (p : Nat) (x : DelaySt) : (setDelay s p x).captured = s.captured := rfl
@[simp] theorem setDelay_time (s : State) (p : Nat) (x : DelaySt) : (setDelay s p x).time = s.time := rfl
@[simp] theorem setDelay_comp (s : State) (p : Nat) (x : DelaySt) : (setDelay s p x).comp = s.comp := rfl
@[simp] theorem setDelay_deep (s : State) (p : Nat) (x : DelaySt) : (setDelay s p x).deep = s.deep := rfl
@[simp] theorem setDelay_rem (s : State) (p : Nat) (x : DelaySt) : (setDelay s p x).rem = s.rem := rfl
@[simp] theorem setDelay_host (s : State) (p : Nat) (x : DelaySt) : (setDelay s p x).host = s.host := rfl
@[simp] theorem setDelay_flt (s : State) (p : Nat) (x : DelaySt) : (setDelay s p x).flt = s.flt := rfl
@[simp] theorem setDelay_fab (s : State) (p : Nat) (x : DelaySt) : (setDelay s p x).fab = s.fab := rfl
@[simp] theorem setDelay_cir (s : State) (p : Nat) (x : DelaySt) : (setDelay s p x).cir = s.cir := rfl
@[simp] theorem setDelay_ports (s : State) (p : Nat) (x : DelaySt) : (setDelay s p x).ports = s.ports := rfl
@[simp] theorem setDelay_mills (s : State) (p : Nat) (x : DelaySt) : (setDelay s p x).mills = s.mills := rfl
@[simp] theorem setDelay_sendTbl (s : State) (p : Nat) (x : DelaySt) : (setDelay s p x).sendTbl = s.sendTbl := rfl
@[simp] theorem setDelay_gang (s : State) (p : Nat) (x : DelaySt) : (setDelay s p x).gang = s.gang := rfl
@[simp] theorem setDelay_power (s : State) (p : Nat) (x : DelaySt) : (setDelay s p x).power = s.power := rfl
@[simp] theorem setDelay_mgmt (s : State) (p : Nat) (x : DelaySt) : (setDelay s p x).mgmt = s.mgmt := rfl
@[simp] theorem setDelay_outbox (s : State) (p : Nat) (x : DelaySt) : (setDelay s p x).outbox = s.outbox := rfl
@[simp] theorem setDelay_inbox (s : State) (p : Nat) (x : DelaySt) : (setDelay s p x).inbox = s.inbox := rfl
@[simp] theorem setDelay_out (s : State) (p : Nat) (x : DelaySt) : (setDelay s p x).out = s.out := rfl
@[simp] theorem setDelay_freeCtr (s : State) (p : Nat) (x : DelaySt) : (setDelay s p x).freeCtr = s.freeCtr := rfl
@[simp] theorem setDelay_nextId (s : State) (p : Nat) (x : DelaySt) : (setDelay s p x).nextId = s.nextId := rfl
@[simp] theorem setDelay_ups (s : State) (p : Nat) (x : DelaySt) : (setDelay s p x).ups = s.ups := rfl

/-! ### setBar -/

@[simp] theorem setBar_pending (s : State) (b : Nat) (v : Nat × Nat) : (setBar s b v).pending = s.pending := rfl
@[simp] theorem setBar_regs (s : State) (b : Nat) (v : Nat × Nat) : (setBar s b v).regs = s.regs := rfl
@[simp] theorem setBar_held (s : State) (b : Nat) (v : Nat × Nat) : (setBar s b v).held = s.held := rfl
@[simp] theorem setBar_captured (s : State) (b : Nat) (v : Nat × Nat) : (setBar s b v).captured = s.captured := rfl
@[simp] theorem setBar_time (s : State) (b : Nat) (v : Nat × Nat) : (setBar s b v).time = s.time := rfl
@[simp] theorem setBar_comp (s : State) (b : Nat) (v : Nat × Nat) : (setBar s b v).comp = s.comp := rfl
@[simp] theorem setBar_deep (s : State) (b : Nat) (v : Nat × Nat) : (setBar s b v).deep = s.deep := rfl
@[simp] theorem setBar_rem (s : State) (b : Nat) (v : Nat × Nat) : (setBar s b v).rem = s.rem := rfl
@[simp] theorem setBar_host (s : State) (b : Nat) (v : Nat × Nat) : (setBar s b v).host = s.host := rfl
@[simp] theorem setBar_flt (s : State) (b : Nat) (v : Nat × Nat) : (setBar s b v).flt = s.flt := rfl
@[simp] theorem setBar_fab (s : State) (b : Nat) (v : Nat × Nat) : (setBar s b v).fab = s.fab := rfl
@[simp] theorem setBar_cir (s : State) (b : Nat) (v : Nat × Nat) : (setBar s b v).cir = s.cir := rfl
@[simp] theorem setBar_ports (s : State) (b : Nat) (v : Nat × Nat) : (setBar s b v).ports = s.ports := rfl
@[simp] theorem setBar_mills (s : State) (b : Nat) (v : Nat × Nat) : (setBar s b v).mills = s.mills := rfl
@[simp] theorem setBar_sendTbl (s : State) (b : Nat) (v : Nat × Nat) : (setBar s b v).sendTbl = s.sendTbl := rfl
@[simp] theorem setBar_delay (s : State) (b : Nat) (v : Nat × Nat) : (setBar s b v).delay = s.delay := rfl
@[simp] theorem setBar_power (s : State) (b : Nat) (v : Nat × Nat) : (setBar s b v).power = s.power := rfl
@[simp] theorem setBar_mgmt (s : State) (b : Nat) (v : Nat × Nat) : (setBar s b v).mgmt = s.mgmt := rfl
@[simp] theorem setBar_outbox (s : State) (b : Nat) (v : Nat × Nat) : (setBar s b v).outbox = s.outbox := rfl
@[simp] theorem setBar_inbox (s : State) (b : Nat) (v : Nat × Nat) : (setBar s b v).inbox = s.inbox := rfl
@[simp] theorem setBar_out (s : State) (b : Nat) (v : Nat × Nat) : (setBar s b v).out = s.out := rfl
@[simp] theorem setBar_freeCtr (s : State) (b : Nat) (v : Nat × Nat) : (setBar s b v).freeCtr = s.freeCtr := rfl
@[simp] theorem setBar_nextId (s : State) (b : Nat) (v : Nat × Nat) : (setBar s b v).nextId = s.nextId := rfl
@[simp] theorem setBar_ups (s : State) (b : Nat) (v : Nat × Nat) : (setBar s b v).ups = s.ups := rfl

/-! ### setMgmt -/

@[simp] theorem setMgmt_pending (s : State) (m : MgmtSt) : (setMgmt s m).pending = s.pending := rfl
@[simp] theorem setMgmt_regs (s : State) (m : MgmtSt) : (setMgmt s m).regs = s.regs := rfl
@[simp] theorem setMgmt_held (s : State) (m : MgmtSt) : (setMgmt s m).held = s.held := rfl
@[simp] theorem setMgmt_captured (s : State) (m : MgmtSt) : (setMgmt s m).captured = s.captured := rfl
@[simp] theorem setMgmt_time (s : State) (m : MgmtSt) : (setMgmt s m).time = s.time := rfl
@[simp] theorem setMgmt_comp (s : State) (m : MgmtSt) : (setMgmt s m).comp = s.comp := rfl
@[simp] theorem setMgmt_deep (s : State) (m : MgmtSt) : (setMgmt s m).deep = s.deep := rfl
@[simp] theorem setMgmt_rem (s : State) (m : MgmtSt) : (setMgmt s m).rem = s.rem := rfl
@[simp] theorem setMgmt_host (s : State) (m : MgmtSt) : (setMgmt s m).host = s.host := rfl
@[simp] theorem setMgmt_flt (s : State) (m : MgmtSt) : (setMgmt s m).flt = s.flt := rfl
@[simp] theorem setMgmt_fab (s : State) (m : MgmtSt) : (setMgmt s m).fab = s.fab := rfl
@[simp] theorem setMgmt_cir (s : State) (m : MgmtSt) : (setMgmt s m).cir = s.cir := rfl
@[simp] theorem setMgmt_ports (s : State) (m : MgmtSt) : (setMgmt s m).ports = s.ports := rfl
@[simp] theorem setMgmt_mills (s : State) (m : MgmtSt) : (setMgmt s m).mills = s.mills := rfl
@[simp] theorem setMgmt_sendTbl (s : State) (m : MgmtSt) : (setMgmt s m).sendTbl = s.sendTbl := rfl
@[simp] theorem setMgmt_delay (s : State) (m : MgmtSt) : (setMgmt s m).delay = s.delay := rfl
@[simp] theorem setMgmt_gang (s : State) (m : MgmtSt) : (setMgmt s m).gang = s.gang := rfl
@[simp] theorem setMgmt_power (s : State) (m : MgmtSt) : (setMgmt s m).power = s.power := rfl
@[simp] theorem setMgmt_outbox (s : State) (m : MgmtSt) : (setMgmt s m).outbox = s.outbox := rfl
@[simp] theorem setMgmt_inbox (s : State) (m : MgmtSt) : (setMgmt s m).inbox = s.inbox := rfl
@[simp] theorem setMgmt_out (s : State) (m : MgmtSt) : (setMgmt s m).out = s.out := rfl
@[simp] theorem setMgmt_freeCtr (s : State) (m : MgmtSt) : (setMgmt s m).freeCtr = s.freeCtr := rfl
@[simp] theorem setMgmt_nextId (s : State) (m : MgmtSt) : (setMgmt s m).nextId = s.nextId := rfl
@[simp] theorem setMgmt_ups (s : State) (m : MgmtSt) : (setMgmt s m).ups = s.ups := rfl

/-! ### hasRead -/

@[simp] theorem hasRead_pending (s : State) : (hasRead s).pending = s.pending := rfl
@[simp] theorem hasRead_regs (s : State) : (hasRead s).regs = s.regs := rfl
@[simp] theorem hasRead_held (s : State) : (hasRead s).held = s.held := rfl
@[simp] theorem hasRead_captured (s : State) : (hasRead s).captured = s.captured := rfl
@[simp] theorem hasRead_time (s : State) : (hasRead s).time = s.time := rfl
@[simp] theorem hasRead_comp (s : State) : (hasRead s).comp = s.comp := rfl
@[simp] theorem hasRead_deep (s : State) : (hasRead s).deep = s.deep := rfl
@[simp] theorem hasRead_rem (s : State) : (hasRead s).rem = s.rem := rfl
@[simp] theorem hasRead_flt (s : State) : (hasRead s).flt = s.flt := rfl
@[simp] theorem hasRead_fab (s : State) : (hasRead s).fab = s.fab := rfl
@[simp] theorem hasRead_cir (s : State) : (hasRead s).cir = s.cir := rfl
@[simp] theorem hasRead_ports (s : State) : (hasRead s).ports = s.ports := rfl
@[simp] theorem hasRead_mills (s : State) : (hasRead s).mills = s.mills := rfl
@[simp] theorem hasRead_sendTbl (s : State) : (hasRead s).sendTbl = s.sendTbl := rfl
@[simp] theorem hasRead_delay (s : State) : (hasRead s).delay = s.delay := rfl
@[simp] theorem hasRead_gang (s : State) : (hasRead s).gang = s.gang := rfl
@[simp] theorem hasRead_power (s : State) : (hasRead s).power = s.power := rfl
@[simp] theorem hasRead_mgmt (s : State) : (hasRead s).mgmt = s.mgmt := rfl
@[simp] theorem hasRead_outbox (s : State) : (hasRead s).outbox = s.outbox := rfl
@[simp] theorem hasRead_inbox (s : State) : (hasRead s).inbox = s.inbox := rfl
@[simp] theorem hasRead_out (s : State) : (hasRead s).out = s.out := rfl
@[simp] theorem hasRead_freeCtr (s : State) : (hasRead s).freeCtr = s.freeCtr := rfl
@[simp] theorem hasRead_nextId (s : State) : (hasRead s).nextId = s.nextId := rfl
@[simp] theorem hasRead_ups (s : State) : (hasRead s).ups = s.ups := rfl

/-! ### served -/

@[simp] theorem served_pending (s : State) (fn : Nat) : (served s fn).pending = s.pending := rfl
@[simp] theorem served_regs (s : State) (fn : Nat) : (served s fn).regs = s.regs := rfl
@[simp] theorem served_held (s : State) (fn : Nat) : (served s fn).held = s.held := rfl
@[simp] theorem served_captured (s : State) (fn : Nat) : (served s fn).captured = s.captured := rfl
@[simp] theorem served_time (s : State) (fn : Nat) : (served s fn).time = s.time := rfl
@[simp] theorem served_comp (s : State) (fn : Nat) : (served s fn).comp = s.comp := rfl
@[simp] theorem served_deep (s : State) (fn : Nat) : (served s fn).deep = s.deep := rfl
@[simp] theorem served_rem (s : State) (fn : Nat) : (served s fn).rem = s.rem := rfl
@[simp] theorem served_flt (s : State) (fn : Nat) : (served s fn).flt = s.flt := rfl
@[simp] theorem served_fab (s : State) (fn : Nat) : (served s fn).fab = s.fab := rfl
@[simp] theorem served_cir (s : State) (fn : Nat) : (served s fn).cir = s.cir := rfl
@[simp] theorem served_ports (s : State) (fn : Nat) : (served s fn).ports = s.ports := rfl
@[simp] theorem served_mills (s : State) (fn : Nat) : (served s fn).mills = s.mills := rfl
@[simp] theorem served_sendTbl (s : State) (fn : Nat) : (served s fn).sendTbl = s.sendTbl := rfl
@[simp] theorem served_delay (s : State) (fn : Nat) : (served s fn).delay = s.delay := rfl
@[simp] theorem served_gang (s : State) (fn : Nat) : (served s fn).gang = s.gang := rfl
@[simp] theorem served_power (s : State) (fn : Nat) : (served s fn).power = s.power := rfl
@[simp] theorem served_mgmt (s : State) (fn : Nat) : (served s fn).mgmt = s.mgmt := rfl
@[simp] theorem served_outbox (s : State) (fn : Nat) : (served s fn).outbox = s.outbox := rfl
@[simp] theorem served_inbox (s : State) (fn : Nat) : (served s fn).inbox = s.inbox := rfl
@[simp] theorem served_out (s : State) (fn : Nat) : (served s fn).out = s.out := rfl
@[simp] theorem served_freeCtr (s : State) (fn : Nat) : (served s fn).freeCtr = s.freeCtr := rfl
@[simp] theorem served_nextId (s : State) (fn : Nat) : (served s fn).nextId = s.nextId := rfl
@[simp] theorem served_ups (s : State) (fn : Nat) : (served s fn).ups = s.ups := rfl

/-! ### setWire -/

@[simp] theorem setWire_pending (s : State) (p : Nat) (w : WireSt) : (setWire s p w).pending = s.pending := rfl
@[simp] theorem setWire_regs (s : State) (p : Nat) (w : WireSt) : (setWire s p w).regs = s.regs := rfl
@[simp] theorem setWire_held (s : State) (p : Nat) (w : WireSt) : (setWire s p w).held = s.held := rfl
@[simp] theorem setWire_captured (s : State) (p : Nat) (w : WireSt) : (setWire s p w).captured = s.captured := rfl
@[simp] theorem setWire_time (s : State) (p : Nat) (w : WireSt) : (setWire s p w).time = s.time := rfl
@[simp] theorem setWire_comp (s : State) (p : Nat) (w : WireSt) : (setWire s p w).comp = s.comp := rfl
@[simp] theorem setWire_deep (s : State) (p : Nat) (w : WireSt) : (setWire s p w).deep = s.deep := rfl
@[simp] theorem setWire_rem (s : State) (p : Nat) (w : WireSt) : (setWire s p w).rem = s.rem := rfl
@[simp] theorem setWire_host (s : State) (p : Nat) (w : WireSt) : (setWire s p w).host = s.host := rfl
@[simp] theorem setWire_flt (s : State) (p : Nat) (w : WireSt) : (setWire s p w).flt = s.flt := rfl
@[simp] theorem setWire_fab (s : State) (p : Nat) (w : WireSt) : (setWire s p w).fab = s.fab := rfl
@[simp] theorem setWire_ports (s : State) (p : Nat) (w : WireSt) : (setWire s p w).ports = s.ports := rfl
@[simp] theorem setWire_mills (s : State) (p : Nat) (w : WireSt) : (setWire s p w).mills = s.mills := rfl
@[simp] theorem setWire_sendTbl (s : State) (p : Nat) (w : WireSt) : (setWire s p w).sendTbl = s.sendTbl := rfl
@[simp] theorem setWire_delay (s : State) (p : Nat) (w : WireSt) : (setWire s p w).delay = s.delay := rfl
@[simp] theorem setWire_gang (s : State) (p : Nat) (w : WireSt) : (setWire s p w).gang = s.gang := rfl
@[simp] theorem setWire_power (s : State) (p : Nat) (w : WireSt) : (setWire s p w).power = s.power := rfl
@[simp] theorem setWire_mgmt (s : State) (p : Nat) (w : WireSt) : (setWire s p w).mgmt = s.mgmt := rfl
@[simp] theorem setWire_outbox (s : State) (p : Nat) (w : WireSt) : (setWire s p w).outbox = s.outbox := rfl
@[simp] theorem setWire_inbox (s : State) (p : Nat) (w : WireSt) : (setWire s p w).inbox = s.inbox := rfl
@[simp] theorem setWire_out (s : State) (p : Nat) (w : WireSt) : (setWire s p w).out = s.out := rfl
@[simp] theorem setWire_freeCtr (s : State) (p : Nat) (w : WireSt) : (setWire s p w).freeCtr = s.freeCtr := rfl
@[simp] theorem setWire_nextId (s : State) (p : Nat) (w : WireSt) : (setWire s p w).nextId = s.nextId := rfl
@[simp] theorem setWire_ups (s : State) (p : Nat) (w : WireSt) : (setWire s p w).ups = s.ups := rfl

end Sys2Proof.Machine
end

