-- ==== Sys2Proof/Laws/Ops.lean ====
section
/-! SUPPORT. Sys2Proof/Laws/Ops.lean: what the shared operations do: bit fields, registers, parts of the state read after
they are set, tallies, frames that are sent, and the ends of work lists. -/

namespace Sys2Proof.Machine

/-! ### Bit fields -/

/-- A word with a field set, as quotient, field and remainder. -/
theorem setBits_eq (w : Nat) {hi lo : Nat} (v : Nat) (h : lo ≤ hi) :
    setBits w hi lo v =
      (w / 2 ^ (hi + 1) * 2 ^ (hi + 1 - lo) + v % 2 ^ (hi + 1 - lo)) * 2 ^ lo + w % 2 ^ lo := by
  have : 2 ^ (hi + 1) = 2 ^ (hi + 1 - lo) * 2 ^ lo := by rw [← Nat.pow_add]; congr 1; omega
  simp only [setBits, Nat.shiftRight_eq_div_pow, Nat.shiftLeft_eq]
  rw [Nat.add_mul, Nat.mul_assoc, ← this]

/-- The field that was set. -/
theorem bits_setBits_same (w : Nat) {hi lo : Nat} (v : Nat) (h : lo ≤ hi) :
    bits (setBits w hi lo v) hi lo = v % 2 ^ (hi + 1 - lo) := by
  have hl : w % 2 ^ lo < 2 ^ lo := Nat.mod_lt _ (by positivity)
  rw [bits, setBits_eq w v h, Nat.shiftRight_eq_div_pow, Nat.mul_comm, Nat.mul_add_div (by positivity),
    Nat.div_eq_of_lt hl, Nat.add_zero, Nat.mul_add_mod_of_lt' (Nat.mod_lt _ (by positivity))]
where
  Nat.mul_add_mod_of_lt' {a b c : Nat} (h : c < b) : (a * b + c) % b = c := by
    rw [Nat.mul_comm, Nat.mul_add_mod, Nat.mod_eq_of_lt h]

/-- A bit of a word with a field set. -/
theorem bit_setBits (w : Nat) {hi lo : Nat} (v i : Nat) (h : lo ≤ hi) :
    bit (setBits w hi lo v) i = if lo ≤ i ∧ i ≤ hi then bit v (i - lo) else bit w i := by
  have hl : w % 2 ^ lo < 2 ^ lo := Nat.mod_lt _ (by positivity)
  have hm : v % 2 ^ (hi + 1 - lo) < 2 ^ (hi + 1 - lo) := Nat.mod_lt _ (by positivity)
  simp only [bit]
  rw [setBits_eq w v h, Nat.mul_comm, Nat.testBit_two_pow_mul_add _ hl]
  by_cases h1 : i < lo
  · rw [if_pos h1, if_neg (by omega), Nat.testBit_mod_two_pow]
    simp [h1]
  · rw [if_neg h1, Nat.mul_comm, Nat.testBit_two_pow_mul_add _ hm]
    by_cases h2 : i ≤ hi
    · rw [if_pos (by omega), if_pos (by omega), Nat.testBit_mod_two_pow]
      simp [show i - lo < hi + 1 - lo by omega]
    · rw [if_neg (by omega), if_neg (by omega), Nat.testBit_div_two_pow]
      congr 1
      omega

/-- A word with a field set stays a word. -/
theorem setBits_lt {w hi lo v n : Nat} (hw : w < 2 ^ n) (h : lo ≤ hi) (hn : hi < n) : setBits w hi lo v < 2 ^ n := by
  refine Nat.lt_pow_two_of_testBit _ fun i hi' => ?_
  have := bit_setBits w v i h
  simp only [bit] at this
  rw [this, if_neg (by omega)]
  exact Nat.testBit_lt_two_pow (lt_of_lt_of_le hw (Nat.pow_le_pow_right (by omega) hi'))

/-! ### Registers -/

/-- A register with a bit raised has it set. -/
theorem flag_raise_same (s : State) (off : Nat) {i : Nat} (h : i < 32) : flag (raise s off i) off i = true := by
  have h1 : bit (setBits (rd s off) i i 1) i = true := by rw [bit_setBits _ _ _ le_rfl]; simp [bit]
  simp only [bit] at h1
  rw [flag, raise, setF, rd_wr_same, bit, Nat.testBit_mod_two_pow, h1]
  simpa using h

/-- A field that was set reads as its new value. -/
theorem getF_setF_same (s : State) (off : Nat) {hi lo : Nat} (v : Nat) (h : lo ≤ hi) (hh : hi < 32) :
    getF (setF s off hi lo v) off hi lo = v % 2 ^ (hi + 1 - lo) := by
  rw [getF, setF, rd_wr_same, ← bits_setBits_same (rd s off) v h]
  refine Nat.eq_of_testBit_eq fun i => ?_
  simp only [bits, Nat.testBit_mod_two_pow, Nat.testBit_shiftRight]
  by_cases hi' : i < hi + 1 - lo
  · simp [hi', show lo + i < 32 by omega]
  · simp [hi']

/-- A field set in one register leaves every other register as it was. -/
theorem rd_setF_ne (s : State) {off x : Nat} (hi lo v : Nat) (h : x ≠ off) : rd (setF s off hi lo v) x = rd s x :=
  rd_wr_ne s _ h

theorem rd_raise_ne (s : State) {off x : Nat} (i : Nat) (h : x ≠ off) : rd (raise s off i) x = rd s x :=
  rd_wr_ne s _ h

theorem rd_bump_ne (s : State) {off x : Nat} (n : Nat) (h : x ≠ off) : rd (bump s off n) x = rd s x :=
  rd_wr_ne s _ h

/-- A counter of 32 bits rises by n and holds at its largest value. -/
theorem rd_bump_same (s : State) (off n : Nat) :
    rd (bump s off n) off = min (2 ^ 32 - 1) (rd s off % 2 ^ 32 + n) := by
  have h : min (2 ^ 32 - 1) (rd s off % 2 ^ 32 + n) < 2 ^ 32 := by omega
  have hf : getF s off 31 0 = rd s off % 2 ^ 32 := by simp [getF, bits]
  rw [bump, bumpF, setF, rd_wr_same, hf, satAdd, setBits_eq _ _ (by omega)]
  norm_num at h ⊢
  omega

/-- The registers that an update may change. -/
theorem sameRegs_refl (s : State) (offs : List Nat) : sameRegs s s offs := fun _ _ => rfl

theorem sameRegs_trans {s t u : State} {offs : List Nat} (h1 : sameRegs s t offs) (h2 : sameRegs t u offs) :
    sameRegs s u offs := fun off ho => (h2 off ho).trans (h1 off ho)

theorem sameRegs_wr (s : State) {off : Nat} (v : Nat) {offs : List Nat} (h : off ∈ offs) : sameRegs s (wr s off v) offs :=
  fun _ hx => rd_wr_ne s v fun e => hx (e ▸ h)

theorem sameRegs_of_regs {s t : State} (h : t.regs = s.regs) (offs : List Nat) : sameRegs s t offs := by
  intro off _
  simp only [rd, h]

/-! ### Parts of the state -/

@[simp] theorem millOf_setMill_same (s : State) (m : Nat) (x : MillSt) : millOf (setMill s m x) m = x :=
  SMap.getD_setD_same _ _ _ _
theorem millOf_setMill_ne (s : State) {m k : Nat} (x : MillSt) (h : k ≠ m) : millOf (setMill s m x) k = millOf s k :=
  SMap.getD_setD_ne _ _ _ _ h
@[simp] theorem islOf_setIsl_same (s : State) (g : Nat) (x : IslSt) : islOf (setIsl s g x) g = x :=
  SMap.getD_setD_same _ _ _ _
theorem islOf_setIsl_ne (s : State) {g k : Nat} (x : IslSt) (h : k ≠ g) : islOf (setIsl s g x) k = islOf s k :=
  SMap.getD_setD_ne _ _ _ _ h
@[simp] theorem slotSt_setSlot_same (s : State) (g : Nat) (x : SlotSt) : slotSt (setSlot s g x) g = x :=
  SMap.getD_setD_same _ _ _ _
theorem slotSt_setSlot_ne (s : State) {g k : Nat} (x : SlotSt) (h : k ≠ g) : slotSt (setSlot s g x) k = slotSt s k :=
  SMap.getD_setD_ne _ _ _ _ h
@[simp] theorem seqOf_setSeq_same (s : State) (core fn : Nat) (q : SeqSt) : seqOf (setSeq s core fn q) core fn = q := by
  simp [seqOf, setSeq, SMap.getD_setD_same]
theorem seqOf_setSeq_ne (s : State) {core fn k f : Nat} (q : SeqSt) (h : k ≠ core ∨ f ≠ fn) :
    seqOf (setSeq s core fn q) k f = seqOf s k f := by
  by_cases hk : k = core
  · subst hk
    rcases h with h | h
    · exact absurd rfl h
    · simp only [seqOf, setSeq, SMap.getD_setD_same]
      exact SMap.getD_setD_ne _ _ _ _ h
  · simp only [seqOf, setSeq]
    rw [SMap.getD_setD_ne _ _ _ _ hk]
@[simp] theorem queueOf_setQueue_same (s : State) (q : Nat) (x : PktQ) : queueOf (setQueue s q x) q = x :=
  SMap.getD_setD_same _ _ _ _
theorem queueOf_setQueue_ne (s : State) {q k : Nat} (x : PktQ) (h : k ≠ q) : queueOf (setQueue s q x) k = queueOf s k :=
  SMap.getD_setD_ne _ _ _ _ h
@[simp] theorem ctlOf_setCtl_same (s : State) (p : Nat) (l : List QEntry) : ctlOf (setCtl s p l) p = l :=
  SMap.getD_setD_same _ _ _ _
theorem ctlOf_setCtl_ne (s : State) {p k : Nat} (l : List QEntry) (h : k ≠ p) : ctlOf (setCtl s p l) k = ctlOf s k :=
  SMap.getD_setD_ne _ _ _ _ h
@[simp] theorem srcqOf_setSrcq_same (s : State) (c : Nat) (l : List QEntry) : srcqOf (setSrcq s c l) c = l :=
  SMap.getD_setD_same _ _ _ _
theorem srcqOf_setSrcq_ne (s : State) {c k : Nat} (l : List QEntry) (h : k ≠ c) :
    srcqOf (setSrcq s c l) k = srcqOf s k := SMap.getD_setD_ne _ _ _ _ h
@[simp] theorem portOf_setPort_same (s : State) (p : Nat) (x : PortSt) : portOf (setPort s p x) p = x :=
  SMap.getD_setD_same _ _ _ _
theorem portOf_setPort_ne (s : State) {p k : Nat} (x : PortSt) (h : k ≠ p) : portOf (setPort s p x) k = portOf s k :=
  SMap.getD_setD_ne _ _ _ _ h
@[simp] theorem delayExchOf_setDelay_same (s : State) (p : Nat) (x : DelaySt) : delayExchOf (setDelay s p x) p = x :=
  SMap.getD_setD_same _ _ _ _
@[simp] theorem barOf_setBar_same (s : State) (b : Nat) (v : Nat × Nat) : barOf (setBar s b v) b = v :=
  SMap.getD_setD_same _ _ _ _
@[simp] theorem polOf_setPol_same (s : State) (k : Nat) (p : Policer) : polOf (setPol s k p) k = p :=
  SMap.getD_setD_same _ _ _ _
@[simp] theorem shpOf_setShp_same (s : State) (k : Nat) (p : Shaper) : shpOf (setShp s k p) k = p :=
  SMap.getD_setD_same _ _ _ _
@[simp] theorem fnSt_setFn_same (s : State) (fn : Nat) (x : FnSt) : fnSt (setFn s fn x) fn = x := by
  simp [fnSt, setFn, SMap.getD, SMap.find_put_same]
theorem fnSt_setFn_ne (s : State) {fn k : Nat} (x : FnSt) (h : k ≠ fn) : fnSt (setFn s fn x) k = fnSt s k := by
  simp [fnSt, setFn, SMap.getD, SMap.find_put_ne _ _ h]

/-! ### Tallies (10_memory_ops.md R393) -/

/-- A count within its function's range rises modulo 2^32. -/
theorem tallyCount_tallyAdd_same (s : State) (fn d idx n : Nat) (h : idx < (tallyRange s fn d).2) :
    tallyCount (tallyAdd s fn d idx n) fn d idx = (tallyCount s fn d idx + n) % 2 ^ 32 := by
  have hr : tallyRange (tallyAdd s fn d idx n) fn d = tallyRange s fn d := by
    simp only [tallyAdd, h, if_true]; rfl
  unfold tallyCount
  rw [hr]
  simp only [tallyAdd, h, if_true]
  rw [SMap.getD_setD_same]

/-- A count changes nothing but the tallies. -/
theorem tallyAdd_eq (s : State) (fn d idx n : Nat) :
    tallyAdd s fn d idx n = { s with rem := { s.rem with tallies := (tallyAdd s fn d idx n).rem.tallies } } := by
  unfold tallyAdd
  split <;> rfl

/-! ### Frames of local origin -/

/-- A frame that is sent joins the outbox under the next name. -/
theorem sendFrame_eq (s : State) (o : Origin) (f : Frame) :
    sendFrame s o f = { s with outbox := s.outbox ++ [⟨s.nextId, f, o⟩], nextId := s.nextId + 1 } := rfl

/-- A core's frame joins the outbox under the next name; of the fabric only the meshes change. -/
theorem sendCore_eq (s : State) (no fn : Nat) (o : Origin) (f : Frame) :
    sendCore s no fn o f = { s with
      outbox := s.outbox ++ [⟨s.nextId, f, o⟩], nextId := s.nextId + 1
      fab := { s.fab with mesh := (sendCore s no fn o f).fab.mesh } } := rfl

/-- The frames of one run join the outbox; nothing else changes but the names and the meshes that their packets enter. -/
theorem sendRun_eq (s : State) (no : Nat) (o : Origin) (fn ep rt off : Nat) (bs : List Byte) :
    ∃ l n m, sendRun s no o fn ep rt off bs =
        { s with outbox := s.outbox ++ l, nextId := n, fab := { s.fab with mesh := m } } ∧
      ∀ p ∈ l, p.org = o ∧ p.f.typ = 0 ∧ p.f.cls = 1 ∧ p.f.dst = ep ∧ p.f.tally = rt ∧ p.f.tsw = 1 := by
  unfold sendRun
  induction cutRun off bs (bs.length / 4096 + 2) generalizing s with
  | nil => exact ⟨[], s.nextId, s.fab.mesh, by simp, by simp⟩
  | cons r rs ih =>
    rw [List.foldl_cons]
    generalize hf : ({ Frame.blank with
      typ := 0, cls := 1, dst := ep, src := fnEp s fn, job := fnJob s fn, len := r.2.length / 16,
      offset := r.1, tally := rt, tsw := 1, payload := r.2 } : Frame) = f
    obtain ⟨l, n, m, hl, hp⟩ := ih (sendCore s no fn o f)
    refine ⟨⟨s.nextId, f, o⟩ :: l, n, m, ?_, ?_⟩
    · rw [hl, sendCore_eq]
      simp
    · intro p hp'
      rcases List.mem_cons.1 hp' with rfl | hp'
      · subst hf
        exact ⟨rfl, rfl, rfl, rfl, rfl, rfl⟩
      · exact hp p hp'

/-! ### The end of a work list -/

/-- A report of a list's end changes nothing but host descriptors. -/
theorem reportList_eq (s : State) (l : Launch) (st didx : Nat) (fl : FpFlags) :
    reportList s l st didx fl = { s with host := { s.host with descs := (reportList s l st didx fl).host.descs } } := rfl

/-- The end of a list changes nothing but the sequencers and host descriptors. -/
theorem endList_frame (s : State) (core fn st didx : Nat) :
    endList s core fn st didx = { s with
      comp := { s.comp with seqs := (endList s core fn st didx).comp.seqs }
      host := { s.host with descs := (endList s core fn st didx).host.descs } } := by
  cases h : (seqOf s core fn).run with
  | none => simp only [endList, h]
  | some r => simp only [endList, h]; rfl

/-- A list that ends leaves its core with no list running, and the queue as it was. -/
theorem endList_seq (s : State) (core fn st didx : Nat) :
    seqOf (endList s core fn st didx) core fn = { seqOf s core fn with run := none } := by
  cases h : (seqOf s core fn).run with
  | none =>
    simp only [endList, h]
    conv_lhs => rw [← (show { seqOf s core fn with run := (seqOf s core fn).run } = seqOf s core fn from rfl), h]
  | some r =>
    simp only [endList, h]
    exact seqOf_setSeq_same s core fn _

/-! ### Circuit bells and the circuits of a function that goes -/

/-- A circuit bell changes nothing but control queues, the frames that wait and the next identifier. -/
theorem sendCirBellTo_frame (s : State) (port dst job code cid st : Nat) :
    (sendCirBellTo s port dst job code cid st).regs = s.regs ∧ (sendCirBellTo s port dst job code cid st).comp = s.comp ∧
    (sendCirBellTo s port dst job code cid st).deep = s.deep ∧ (sendCirBellTo s port dst job code cid st).host = s.host ∧
    (sendCirBellTo s port dst job code cid st).rem = s.rem ∧ (sendCirBellTo s port dst job code cid st).cir = s.cir ∧
    (sendCirBellTo s port dst job code cid st).time = s.time := by
  unfold sendCirBellTo
  split
  · exact ⟨rfl, rfl, rfl, rfl, rfl, rfl, rfl⟩
  · simp only []
    split <;> exact ⟨rfl, rfl, rfl, rfl, rfl, rfl, rfl⟩

/-- Closing the circuits that a function is opening changes no register, store, descriptor, remote state or time. -/
theorem closeOpens_frame (s : State) (fn : Nat) :
    (closeOpens s fn).regs = s.regs ∧ (closeOpens s fn).comp = s.comp ∧ (closeOpens s fn).deep = s.deep ∧
    (closeOpens s fn).host = s.host ∧ (closeOpens s fn).rem = s.rem ∧ (closeOpens s fn).time = s.time := by
  unfold closeOpens
  generalize s.cir.opens.filter _ = l
  induction l generalizing s with
  | nil => exact ⟨rfl, rfl, rfl, rfl, rfl, rfl⟩
  | cons w r ih =>
    have h : (closeOpen s w).regs = s.regs ∧ (closeOpen s w).comp = s.comp ∧ (closeOpen s w).deep = s.deep ∧
        (closeOpen s w).host = s.host ∧ (closeOpen s w).rem = s.rem ∧ (closeOpen s w).time = s.time := by
      unfold closeOpen
      split
      · unfold sendCirBell
        obtain ⟨h1, h2, h3, h4, h5, _, h7⟩ := sendCirBellTo_frame (setCir s w.cid 0) (cirEport (cirNow s w.cid))
          (bits (cirNow (setCir s w.cid 0) w.cid) 31 16) (bits (cirNow (setCir s w.cid 0) w.cid) 43 32) 5 w.cid 0
        exact ⟨h1, h2, h3, h4, h5, h7⟩
      · exact ⟨rfl, rfl, rfl, rfl, rfl, rfl⟩
    obtain ⟨a1, a2, a3, a4, a5, a6⟩ := ih (closeOpen s w)
    obtain ⟨b1, b2, b3, b4, b5, b6⟩ := h
    exact ⟨a1.trans b1, a2.trans b2, a3.trans b3, a4.trans b4, a5.trans b5, a6.trans b6⟩

end Sys2Proof.Machine
end

