-- ==== Sys2Proof/Laws/Regs.lean ====
section
/-! SUPPORT. Sys2Proof/Laws/Regs.lean: the reset words of the large register arrays, for every index: granule owners,
cluster owners, function states, port states. -/

namespace Sys2Proof.Machine

/-- The reset fields of a row that resets to 0 make the word 0. -/
theorem RegRow.resetWord_zero {r : RegRow} (h : r.fields.all (fun f => f.reset == 0) = true) (w : Nat) :
    RegRow.resetWord r w = 0 := by
  have : ∀ (l : List FieldRow) (a : Nat), l.all (fun f => f.reset == 0) = true →
      l.foldl (fun acc f => acc + f.reset * 2 ^ f.lo) a = a := by
    intro l
    induction l with
    | nil => intro a _; rfl
    | cons f t ih =>
      intro a ha
      simp only [List.all_cons, Bool.and_eq_true, beq_iff_eq] at ha
      simp [List.foldl_cons, ha.1, ih a ha.2]
  simp [RegRow.resetWord, this _ 0 h, bits]

/-- An offset that only rows of reset value 0 may hold resets to 0. -/
theorem resetWord_zero {off : Nat}
    (h : ∀ r ∈ regBlock off, r.fields.all (fun f => f.reset == 0) = false → RegRow.word r off = none) :
    resetWord off = 0 := by
  unfold resetWord regAt
  cases hf : (regBlock off).findSome? fun r => (RegRow.word r off).map fun w => (r, w) with
  | none => rfl
  | some p =>
    obtain ⟨r, hr, he⟩ := List.exists_of_findSome?_eq_some hf
    cases hw : RegRow.word r off with
    | none => simp [hw] at he
    | some w =>
      simp only [hw, Option.map_some, Option.some.injEq] at he
      subst he
      refine RegRow.resetWord_zero ?_ w
      cases ha : r.fields.all (fun f => f.reset == 0) with
      | true => rfl
      | false => simp [h r hr ha] at hw

/-- A row with no index does not hold an offset past its words. -/
theorem RegRow.word_past {r : RegRow} {off : Nat} (hd : r.dims = []) (h : r.base + 4 * r.words ≤ off) :
    RegRow.word r off = none := by
  unfold RegRow.word
  split
  · rfl
  · simp only [hd, List.foldl_nil]
    rw [if_neg (by omega)]

/-- A row of one index does not hold an offset whose place in its stride is past its words. -/
theorem RegRow.word_off {r : RegRow} {off n st : Nat} (hd : r.dims = [(n, st)]) (h : 4 * r.words ≤ (off - r.base) % st) :
    RegRow.word r off = none := by
  unfold RegRow.word
  split
  · rfl
  · simp only [hd, List.foldl_cons, List.foldl_nil]
    by_cases hn : (off - r.base) / st < n
    · rw [if_pos hn]; simp only []; rw [if_neg (by omega)]
    · rw [if_neg hn]

/-- Outside the few registers whose reset differs by index or is fused, the tables give the reset word. -/
theorem resetReg_eq_word {off : Nat} (h : 0x1100000 ≤ off ∨ (0x200000 ≤ off ∧ off < 0x800000)) :
    resetReg off = resetWord off := by
  have e1 : ¬ (off = R.swqEdp 0 ∨ off = R.swqEdp 2) := by unfold R.swqEdp; omega
  have e2 : ¬ (off = R.swqEdp 1 ∨ off = R.swqEdp 3) := by unfold R.swqEdp; omega
  have e3 : ∀ a < 5, off ≠ R.pwrMcmp a := by intro a ha; unfold R.pwrMcmp; omega
  have e4 : off ≠ R.pwrAge := by unfold R.pwrAge; omega
  have e5 : ¬ (R.pwrIsl 0 ≤ off ∧ off < R.pwrIsl 1280) := by unfold R.pwrIsl; omega
  have e6 : ∀ n, ¬ (R.prtCtl 0 ≤ off ∧ off < R.prtCtl 64 ∧ (off - R.prtCtl 0) % 0x4000 = n) := by
    intro n; unfold R.prtCtl; omega
  unfold resetReg
  rw [if_neg e1, if_neg e2, if_neg (e3 0 (by decide)), if_neg (e3 1 (by decide)), if_neg (e3 2 (by decide)),
    if_neg (e3 3 (by decide)), if_neg (e3 4 (by decide)), if_neg e4, if_neg e5, if_neg (e6 _), if_neg (e6 _)]

/-- Every granule's owner word resets to 0. -/
theorem resetReg_dstOwn {g : Nat} (h : g < 6144) : resetReg (R.dstOwn g) = 0 := by
  have hb : regBlock (R.dstOwn g) = regTable12 := by
    have : R.dstOwn g / 0x100000 = 0x12 := by unfold R.dstOwn; omega
    simp [regBlock, this]
  rw [resetReg_eq_word (by unfold R.dstOwn; omega)]
  refine resetWord_zero ?_
  rw [hb]
  intro r hr ha
  have hc : r.dims = [] ∧ r.base + 4 * r.words ≤ 0x1210000 := by
    revert r
    decide
  exact RegRow.word_past hc.1 (by unfold R.dstOwn; omega)

/-- Both words of every cluster's owner register reset to 0. -/
theorem resetReg_cpxClown {d i k : Nat} (hd : d < 8) (hi : i < 160) (hk : k < 2) :
    resetReg (R.cpxClown d i + 4 * k) = 0 := by
  have hb : regBlock (R.cpxClown d i + 4 * k) = regTable14 := by
    have : (R.cpxClown d i + 4 * k) / 0x100000 = 0x14 + d := by unfold R.cpxClown; omega
    have h1 : ∀ n < 0x14, ¬ (0x14 + d = n) := by omega
    simp [regBlock, this, h1, show 0x14 + d ≤ 0x1B by omega]
  rw [resetReg_eq_word (by unfold R.cpxClown; omega)]
  refine resetWord_zero ?_
  rw [hb]
  intro r hr ha
  have hc : r.dims = [(8, 0x100000)] ∧ 0x140E000 ≤ r.base ∧ r.base + 4 * r.words ≤ 0x1410000 := by
    revert r
    decide
  refine RegRow.word_off hc.1 ?_
  unfold R.cpxClown
  omega

end Sys2Proof.Machine
end

