-- ==== Sys2Proof/Tests/Slice0.lean ====
section
/-! SUPPORT. Sys2Proof/Tests/Slice0.lean: the smoke test of WellFormed, and for every statement with hypotheses a concrete
state and operands that meet them (`wit_`), with a few single steps on small states (`test_`). -/

set_option Elab.async false

namespace Sys2Proof.Tests

open Sys2Proof Sys2Proof.Machine

/-! ### Small states -/

/-- The state after reset with some registers. -/
def st (l : List (Nat × Nat)) : State := { State.reset with regs := l }
/-- A state with some registers. -/
def State.regsAre (s : State) (l : List (Nat × Nat)) : State := { s with regs := l }
/-- The state a command leaves. -/
def after (o : Out) : State :=
  match o with
  | .next t => t
  | .fault _ => State.reset
  | .refused _ => State.reset
/-- Has a command left a state? -/
def goesOn (o : Out) : Bool :=
  match o with
  | .next _ => true
  | .fault _ => false
  | .refused _ => false
/-- Core 0 of cluster 0 of die 0. -/
def k0 : CoreId := ⟨0, 0, 0⟩
/-- A launched list of function 1 at address 0. -/
def l0 : Launch := ⟨7, 1, 0, (1, 0, 0), 0⟩
/-- Cluster 0 held by function 1 in slot 0, awake; the tallies of function 1 on die 0 are 0 to 7. -/
def owned : List (Nat × Nat) :=
  [(R.cpxClown 0 0, 1), (R.cpxClown 0 0 + 4, 0x10000), (R.pwrIsl 0, 0x1F1F1F), (R.vfTally 1 0, 0x80080000)]
/-- A running list of function 1 at a descriptor in a phase. -/
def run0 (d : List Byte) (ph : Phase) : RunList := ⟨l0, 0, 0, [], d, ph, none, 0, false, none, 0, none⟩
/-- Core 0 runs a list of function 1. -/
def standing (r : RunList) : State :=
  { st owned with comp := { State.reset.comp with seqs := [(0, [(1, ⟨[], some r, [], FpFlags.none⟩)])] } }
/-- Core 0 runs a descriptor of function 1's list in a phase. -/
def running (d : List Byte) (ph : Phase) : State := standing (run0 d ph)
/-- A descriptor of an engine as issued, with its parameter block. -/
def engaged (d : List Byte) : RunList := { run0 d .issued with par := paramOf (st owned) 0 d }
/-- A descriptor of 64 bytes: OP, flags, DT, and fields of up to 8 bytes at their offsets. -/
def desc (op fl dt : Nat) (fs : List (Nat × Nat × Nat)) : List Byte :=
  fs.foldl (fun b f => leSet b f.1 f.2.1 f.2.2) (leSet (leSet (leSet (zeros 64) 0 1 op) 1 1 fl) 2 2 dt)

/-! ### Steps, the epoch, tallies and maintenance -/

theorem wit_StepRunsFront : State.reset.pending = [] := by decide
theorem wit_MemoryStaysCanonical : State.memOk State.reset ∧ ∃ t : State, step State.reset = .next t :=
  ⟨by unfold State.memOk; decide, ⟨_, rfl⟩⟩
theorem wit_QueuesStayBounded : queuesOk State.reset ∧ ∃ t : State, step State.reset = .next t :=
  ⟨by unfold queuesOk; decide, ⟨_, rfl⟩⟩

/-- The previous bank is retained. -/
def sRetained : State := st [(R.fabEpoch, 0x10)]
/-- `FAB_FLIPAT` is 5 ns, now is 5 ns. -/
def sFlipPassed : State := { st [(R.fabFlipat, 5)] with time := ⟨5 * 2 ^ 32, 9, false, none, 0⟩ }
/-- The bank is armed, `FAB_FLIPAT` is 5 ns, now is 5 ns. -/
def sArmed : State := { st [(R.fabEpoch, 0x100), (R.fabFlipat, 5)] with time := ⟨5 * 2 ^ 32, 9, false, none, 0⟩ }
/-- The previous bank is retained, and HOLD of 2 microseconds ends now. -/
def sHeld : State :=
  { st [(R.fabEpoch, 0x10)] with
    time := ⟨0, 2000, false, none, 0⟩
    fab := { State.reset.fab with hold := 2 } }
theorem wit_EpochArming :
    (locked sRetained = false ∧ flag sRetained R.fabEpoch 8 = false ∧ flag sRetained R.fabEpoch 4 = true) ∧
    locked sFlipPassed = false ∧ flag sFlipPassed R.fabEpoch 8 = false ∧ flag sFlipPassed R.fabEpoch 4 = false ∧
    fabDrain sFlipPassed = 0 ∧ rd64 sFlipPassed R.fabFlipat ≠ 0 ∧ rd64 sFlipPassed R.fabFlipat ≤ nowNs sFlipPassed := by
  decide +kernel

/-- A WAIT for tally 7 to reach 1, with its limit of 3 ticks. -/
def waitDesc : List Byte := desc 6 0 0xFFFF [(6, 2, 7), (8, 4, 1), (12, 4, 3)]
/-- It waits; the tally is 0. -/
def sWaits : State := { running waitDesc (.waiting 0) with time := ⟨0, 60, false, none, 0⟩ }
/-- It waits; the tally is 1. -/
def sPassed : State := { sWaits with rem := { sWaits.rem with tallies := [(7, ⟨1, 1, true⟩)] } }
theorem wit_TallyComparison :
    current sPassed k0 = some (1, run0 waitDesc (.waiting 0)) ∧ current sWaits k0 = some (1, run0 waitDesc (.waiting 0)) ∧
    byteAt waitDesc 0 = 6 ∧ byteAt waitDesc 4 = 0 ∧ expired sPassed k0 = false ∧ expired sWaits k0 = false ∧
    (tallyCount sPassed 1 k0.d (leAt waitDesc 6 2) - leAt waitDesc 8 4 : Int) % 2 ^ 32 = 0 ∧
    (tallyCount sWaits 1 k0.d (leAt waitDesc 6 2) - leAt waitDesc 8 4 : Int) % 2 ^ 32 = 2 ^ 32 - 1 := by
  decide +kernel

/-- Maintenance in progress and deferred. -/
def sMaint (run : List (Nat × Nat)) (d : List Deferred) : State :=
  { State.reset with
    time := ⟨0, 10000000001, false, none, 0⟩
    power := { State.reset.power with running := run, deferred := d } }
theorem wit_ArbiterRequests :
    bits (0x30005#32).toNat 18 16 = 3 ∧ bits (0x30005#32).toNat 13 8 = 0 ∧
    (3, 0) ∈ (sMaint [(3, 0)] []).power.running ∧
    (∃ d ∈ (sMaint [] [⟨3, 0, 0, false⟩]).power.deferred, d.act = 3 ∧ d.unit = 0) ∧
    compatible (sMaint [(0, 0)] []) (3, 0) (0, 0) = true ∧
    compatible (sMaint [(3, 1)] []) (3, 0) (3, 1) = false ∧
    compatible (sMaint [] [⟨1, 0, 0, false⟩]) (2, 0) (1, 0) = false ∧
    bits (0x20000#32).toNat 18 16 = 2 ∧ bits (0x20000#32).toNat 13 8 = 0 ∧ bits (0x43F00#32).toNat 18 16 = 4 ∧
    bits (0x43F00#32).toNat 13 8 = 63 := by
  decide +kernel
theorem wit_LateRequests :
    (sMaint [] [⟨4, 63, 0, false⟩]).power.deferred[0]? = some ⟨4, 63, 0, false⟩ ∧
    0 + 10000000000 < (sMaint [] [⟨4, 63, 0, false⟩]).time.lamp := by
  decide +kernel

/-! ### Registers and set-up -/

/-- A low word of a 64-bit register is held. -/
def sHolds (off v : Nat) : State := { State.reset with held := some (off, v) }
/-- The lock is set. -/
def sLocked : State := st [(R.glbLock, 1)]
theorem wit_RegisterAccess :
    regAt 0x3C = none ∧ (3 < 4 ∧ 6 % 4 ≠ 0) ∧ locked State.reset = false ∧ locked sLocked = true ∧
    (sHolds R.fabFlipat 7).held = some (R.fabFlipat, (7#32).toNat) ∧ bootPhase (st [(R.glbBoot, 0x54000000)]) = 5 ∧
    vfAt 0x401FFFC = some 1 ∧ 0x2000 ≤ 0x401FFFC % 0x10000 ∧ vfAt 0x6001000 = some 512 ∧ 0x1000 ≤ 0x6001000 % 0x10000 ∧
    SMap.find ({ State.reset with captured := [(R.tbNow + 4, 9)] }).captured (R.tbNow + 4) = some 9 := by
  decide +kernel
theorem wit_GlobalWrites :
    locked State.reset = false ∧ bits (0x03000000#32).toNat 26 24 < 4 ∧
    gangState (sHolds R.tbSet 7) = 0 ∧ (sHolds R.tbSet 7).held = some (R.tbSet, (7#32).toNat) := by
  decide +kernel
theorem layout_reset :
    layoutOk State.reset (setBits (setBits (rd State.reset R.dstLayout) 8 8 1) 4 0 16) = true := by
  have h : ∀ g < 6144, flag State.reset (R.dstOwn g) 31 = false := by
    intro g hg
    have : rd State.reset (R.dstOwn g) = 0 := resetReg_dstOwn hg
    simp [flag, this, bit]
  have ha : ∀ p : Nat → Bool, ((List.range 6144).all fun g => !flag State.reset (R.dstOwn g) 31 || p g) = true := by
    intro p
    rw [List.all_eq_true]
    intro g hg
    simp [h g (List.mem_range.1 hg)]
  simp only [layoutOk, ha]
  decide +kernel
theorem wit_OwnershipWrites :
    clownCheck State.reset (cluNo 7 159) (setBits (setBits (setBits (setBits (setBits (clown State.reset (cluNo 7 159))
      9 0 1) 19 10 0) 29 20 0) 41 32 0) 51 48 1) = 0 ∧
    granuleCheck State.reset 0 1 true = 0 := by
  decide +kernel

/-- Entries of the three windows selected: the last route entry of bank 1, the last cage slot of bank 1, the last code word
of M15. -/
def sWindows : State :=
  st [(R.fabTsel, 0x10FFFF), (R.cirTsel, 0x11FFFF), (R.milTsel, 0xFFFF), (R.cirTdata 0, 0x1FFFF), (R.milTdata 0, 0x04000000)]
theorem wit_TableWindows :
    tblRead sWindows (fabWin sWindows).tid (fabWin sWindows).bank (fabWin sWindows).idx = some (zeros 8) ∧
    tblSize (fabWin sWindows).tid = 8 ∧
    tblRead sWindows (cirWin sWindows).tid (cirWin sWindows).bank (cirWin sWindows).idx = some (zeros 4) ∧
    tblSize (cirWin sWindows).tid = 4 ∧
    tblRead sWindows (milWin sWindows).tid (milWin sWindows).bank (milWin sWindows).idx = some (zeros 4) ∧
    tblSize (milWin sWindows).tid = 4 ∧ locked sWindows = false ∧
    (fabWin sWindows).tid = 0 ∧ (fabWin sWindows).idx = 65535 ∧ (fabWin sWindows).bank = 1 ∧ curEpoch sWindows % 2 = 0 ∧
    fabDrain sWindows = 0 ∧ routeBad (leNat (winData sWindows (fabWin sWindows))) = false ∧
    (cirWin sWindows).tid = 5 ∧ (cirWin sWindows).bank = 1 ∧ cirBank sWindows = 0 ∧
    leNat (winData sWindows (cirWin sWindows)) = 2 ^ 17 - 1 ∧ (milWin sWindows).tid = 8 ∧
    validStreams sWindows ((milWin sWindows).idx / 4096) = [] := by
  decide +kernel
theorem wit_EpochAndBankFlips :
    (locked State.reset = false ∧ flag State.reset R.fabEpoch 8 = false ∧ flag State.reset R.fabEpoch 4 = false ∧
      fabDrain State.reset = 0 ∧ rd64 State.reset R.fabFlipat = 0) ∧
    (flag sArmed R.fabEpoch 8 = true ∧ rd64 sArmed R.fabFlipat = 5 ∧ nowNs sArmed = 5) ∧
    (flag sHeld R.fabEpoch 4 = true ∧ 1000 * sHeld.fab.hold = sHeld.time.lamp - sHeld.fab.flipAt ∧ fabDrain sHeld = 0) ∧
    (armOk (st [(R.cirCtl, 0x90000)]) = true ∧ getF (st [(R.cirCtl, 0x90000)]) R.cirCtl 19 16 = 9) ∧
    flag (st [(R.cirCtl, 0x10100)]) R.cirCtl 8 = true ∧ liveCids (st [(R.cirCtl, 0x10100)]) = [] ∧
    getF (st [(R.cirCtl, 0x10100)]) R.cirCtl 19 16 = 1 := by
  decide +kernel

/-- The words of the last policer, the last shaper and the last barrier before they are committed. -/
def sPolicy : State :=
  { st [(R.polCfg0 1025, 0x80000001), (R.polCfg1 1025, 1), (R.polCfg2 1025, 65), (R.shpCfg0 1025, 0x80000001)] with
    gang := { State.reset.gang with barHeld := [(252, 0x81001000), (253, 0x1000), (254, 0x12340000)] } }
theorem wit_SettingCommits :
    (locked sPolicy = false ∧ bits (rd sPolicy (R.polCfg0 1025)) 23 0 = 1 ∧ bits (rd sPolicy (R.polCfg1 1025)) 23 0 = 1 ∧
      bit (rd sPolicy (R.polCfg0 1025)) 31 = true ∧ 64 * bits (rd sPolicy (R.polCfg2 1025)) 23 0 = 4160) ∧
    (sext 9 ((0xF0000045#32).toNat / 2 ^ 23) = -32 ∧ bits (rd sPolicy (R.shpCfg0 1025)) 23 0 = 1 ∧
      64 * ((0xF0000045#32).toNat % 2 ^ 23) = 4416) ∧
    (bit (getF State.reset R.milId 15 0) (bits (0x10000#32).toNat 19 16) = true ∧ validStreams State.reset 15 = []) ∧
    ((0x80000001#32).toNat % 2 ^ 16 ≠ 0 ∧ mbufOwner State.reset ≠ 2) ∧
    (bits (barWord sPolicy 63 0) 30 24 = 1 ∧ bits (barWord sPolicy 63 0) 23 12 = 1 ∧
      bits (barWord sPolicy 63 1) 12 0 = 4096) ∧
    64 ≤ getF (st [(R.swqHctl, 64)]) R.swqHctl 15 0 := by
  decide +kernel

/-! ### The gang, claims, ports and power -/

/-- P62 and P63 are UP to one peer. -/
def sPair : State :=
  st [(R.prtStat 62, 2), (R.prtStat 63, 2), (R.prtPeer 62, 9), (R.prtPeer 62 + 4, 0), (R.prtPeer 63, 9), (R.prtPeer 63 + 4, 0)]
theorem wit_GangAndClaims :
    (locked State.reset = false ∧ bits (0x92020000#32).toNat 29 28 = 1 ∧ bits (0x92020000#32).toNat 27 24 = 2 ∧
      bits (0x92020000#32).toNat 23 16 = 2 ∧ bit (0x92020000#32).toNat 31 = true ∧
      flag State.reset R.gngCtl 31 = false) ∧
    bondOk sPair 7 (0x8000013E#32).toNat = true ∧ (∀ n < 3, gpioMode State.reset n = 0) ∧
    gpioMode State.reset 14 = 0 ∧ gpioMode State.reset 15 = 0 ∧ mbufOwner State.reset ≠ 1 ∧
    ((0x000100C4#32).toNat % 8 = 4 ∧ bits (0x000100C4#32).toNat 31 16 = 1 ∧
      timerHeld State.reset (bits (0x000100C4#32).toNat 7 6) 15 = false ∧ pinHeld State.reset 15 = false) := by
  decide +kernel

/-- A port in a state, enabled. -/
def sPort (p : Nat) (stat : Nat) : State := st [(R.prtCtl p, 0x80000100), (R.prtStat p, stat)]
/-- The package in a lamp state. -/
def sLamp (n : Nat) : State := { State.reset with power := { State.reset.power with lamp := n } }
theorem wit_PortAndPowerWrites :
    (locked (st [(R.prtCtl 63, 0)]) = false ∧ portState (st [(R.prtCtl 63, 0)]) 63 = 0 ∧
      flag (st [(R.prtCtl 63, 0)]) (R.prtCtl 63) 31 = false ∧ flag (st [(R.prtCtl 63, 0)]) (R.prtStat 63) 25 = false ∧
      (st [(R.prtCtl 63, 0)]).power.lamp = 0) ∧
    (portState (sPort 63 2) 63 = 2 ∧ (portOf (sPort 63 2) 63).stopping = none ∧ (sPort 63 2).power.running = [] ∧
      (sPort 63 2).power.deferred = [] ∧ getF (sPort 63 2) (R.prtCtl 63) 9 8 = 1 ∧ portState (sPort 63 0) 63 ≠ 2 ∧
      (2#2 : BitVec 2) ≠ 3 ∧ getF (sPort 63 0) (R.prtCtl 63) 0 0 = 0) ∧
    (portState (sPort 63 0x02000005) 63 = 5 ∧ flag (sPort 63 0x02000005) (R.prtStat 63) 25 = true ∧
      flag (sPort 63 0x02000005) (R.prtCtl 63) 31 = true) ∧
    (∀ k < 8, bits (0#32).toNat (4 * k + 3) (4 * k) ≤ getF State.reset (R.prtLvl 0) 7 4) ∧
    ((sLamp 0).power.lamp = 0 ∧ (sLamp 0).comp.seqs = [] ∧ (sLamp 0).cir.live = [] ∧ (sLamp 0).power.running = [] ∧
      (sLamp 0).power.deferred = []) ∧
    (sLamp 1).power.lamp = 1 ∧ bits (0x30700#32).toNat 18 16 = 3 := by
  decide +kernel

/-! ### Host descriptors -/

/-- The descriptor of the physical function's ring 0, index 0, and of function 1's. -/
def r0 : DescRef := ⟨0, 0, 0⟩
/-- The descriptor of function 1's ring 7, index 0xFFFFFFFF. -/
def r1 : DescRef := ⟨1, 7, 0xFFFFFFFF⟩
/-- A host descriptor of OP with some fields. -/
def hdBytes (op : Nat) (fs : List (Nat × Nat × Nat)) : List Byte :=
  fs.foldl (fun b f => leSet b f.1 f.2.1 f.2.2) (leSet (zeros 64) 0 1 op)
/-- It is fetched. -/
def hd (r : DescRef) (bs : List Byte) : HostDesc := ⟨r.fn.val, r.ring.val, r.idx.toNat, bs, .fetched, [], 0, 0, [], 0⟩
/-- A state whose only descriptor it is. -/
def withDesc (s : State) (h : HostDesc) : State := { s with host := { s.host with descs := [h] } }
/-- A host descriptor alone after reset. -/
def sDesc (r : DescRef) (bs : List Byte) : State := withDesc State.reset (hd r bs)
/-- May the descriptor start as its row, with no refusal of R526? -/
def starts (s : State) (r : DescRef) (bs : List Byte) (row : HRow) : Bool :=
  descOf s r == some (hd r bs) && rowOf bs == row && mayStart s (hd r bs) && headCheck r.fn.val bs == 0
theorem startable_of {s : State} {r : DescRef} {bs : List Byte} {row : HRow} (h : starts s r bs row = true) :
    startable s r (hd r bs) row := by
  simp only [starts, Bool.and_eq_true, beq_iff_eq] at h
  exact ⟨h.1.1.1, h.1.1.2, h.1.2, h.2⟩

theorem wit_DescriptorRefusals :
    (headCheck 1 (hdBytes 0x21 []) = 6 ∧ rowOf (hdBytes 0x21 []) = .fbind ∧
      mayStart (sDesc r1 (hdBytes 0x21 [])) (hd r1 (hdBytes 0x21 [])) = true) ∧
    (headCheck 0 (hdBytes 0x99 []) = 4 ∧ rowOf (hdBytes 0x99 []) = .nop ∧ headCheck 0 (hdBytes 0x20 [(18, 1, 3)]) = 4 ∧
      rowOf (hdBytes 0x20 [(18, 1, 3)]) = .fctlEnable) ∧
    readsNow (sDesc r0 (hdBytes 5 [])) (hd r0 (hdBytes 5 [])) = true ∧
    pollDue ({ st [(R.vfStatus 1, 1)] with host := HostSt.start }) 1 = true := by
  decide +kernel

/-- A ring entry: 64 submissions, 64 completions, vector 0, one completion a message, MTIME 3. -/
def ringEntry : List Byte := leBytes 8 0x10000 ++ leBytes 8 0x20000 ++ [0x86, 0x06, 0x00, 0x02, 0x03] ++ zeros 11
/-- Function 1 is ENABLED, polled now, with a ring 7 whose tail is 0 and one descriptor waits to be fetched. -/
def sPolled (sqt : Nat) : State :=
  { st [(R.vfStatus 1, 1)] with
    host := { HostSt.start with fns := [(1, { FnSt.start 0 with
      gen := some 0
      rings := [(7, ⟨ringEntry, sqt, 0, 63, 0, false⟩)] })] } }
/-- A doorbell page whose ring 7 has a tail. -/
def page (t : Nat) : List Byte := zeros 32 ++ leBytes 4 t ++ zeros 28
theorem wit_PollsAndFetches :
    (pollDue (sPolled 0) 1 = true ∧ (page 0).length = 64 ∧ (fnSt (sPolled 0) 1).gen = some (leAt (page 0) 0 4) ∧
      (fnSt (sPolled 0) 1).sqts = rings8.map (fun r => leAt (page 0) (4 + 4 * r) 4)) ∧
    ((fnSt (sPolled 0) 1).sqts ≠ rings8.map (fun k => leAt (page 65) (4 + 4 * k) 4) ∧
      ringOf (sPolled 0) 1 7 = some ⟨ringEntry, 0, 0, 63, 0, false⟩ ∧ 2 ^ enSqLog ringEntry = 64) ∧
    fnState (sPolled 1) 1 = 1 ∧ cqRoom (sPolled 1) 1 7 ⟨ringEntry, 1, 0, 63, 0, false⟩ = 1 ∧
    fetchable (sPolled 1) 1 7 ⟨ringEntry, 1, 0, 63, 0, false⟩ 1 = 1 ∧ hostTurn (sPolled 1) 1 = true := by
  decide +kernel

/-- A LAUNCH on cores 0 and 63 of cluster 0, at 0xC000 - 64. -/
def launchBytes : List Byte := hdBytes 1 [(20, 4, 0xBFC0), (24, 8, 0x8000000000000001)]
/-- Function 1 holds cluster 0 and its LAUNCH is fetched. -/
def sLaunch : State := withDesc (st owned) (hd r1 launchBytes)
theorem wit_NopAndLaunch :
    startable (sDesc r0 (hdBytes 0 [])) r0 (hd r0 (hdBytes 0 [])) .nop ∧ startable sLaunch r1 (hd r1 launchBytes) .launch ∧
    launchCheck sLaunch 1 launchBytes = 0 ∧ leAt launchBytes 24 8 ≠ 0 :=
  ⟨startable_of (by decide +kernel), startable_of (by decide +kernel), by decide +kernel, by decide +kernel⟩

/-- An HCOPY of 16 bytes: DIR, die 0, no tally or tally 7, DEV. -/
def hcopyBytes (dir t dev : Nat) : List Byte :=
  hdBytes 2 [(16, 1, dir), (18, 2, t), (20, 4, 16), (24, 8, dev), (32, 8, 0x1234)]
/-- Function 1 owns granule 0 of deep store and cluster 0. -/
def ownedDeep : List (Nat × Nat) := owned ++ [(R.dstOwn 0, 0x80000001)]
/-- Its HCOPY is fetched. -/
def sHcopy (bs : List Byte) : State := withDesc (st ownedDeep) (hd r1 bs)
/-- A deep-store and a cluster address in a COPY's form. -/
def deepAt (a : Nat) : Nat := 2 * 2 ^ 62 + a
/-- An address of cluster 0 in another cluster's form. -/
def cluAt (a : Nat) : Nat := 2 ^ 62 + a
theorem copyGoes_of {s : State} {r : DescRef} {bs : List Byte} (h : starts s r bs .hcopy = true)
    (ht : hostTurn s r.fn.val = true) (hc : copyCheck s r.fn.val bs = 0) : copyGoes s r (hd r bs) := by
  have g := startable_of h
  exact ⟨g.1, g.2.1, ht, Or.inr ⟨g.2.2.1, g.2.2.2, hc⟩⟩
theorem wit_HostCopies :
    (copyGoes (sHcopy (hcopyBytes 0 7 (deepAt 0xFFFFFF0))) r1 (hd r1 (hcopyBytes 0 7 (deepAt 0xFFFFFF0))) ∧
      space (leAt (hcopyBytes 0 7 (deepAt 0xFFFFFF0)) 24 8) = 2 ∧ turnBytes (hd r1 (hcopyBytes 0 7 (deepAt 0xFFFFFF0))) = 16) ∧
    (copyGoes (sHcopy (hcopyBytes 0 0xFFFF (cluAt 0x43FFF0))) r1 (hd r1 (hcopyBytes 0 0xFFFF (cluAt 0x43FFF0))) ∧
      space (leAt (hcopyBytes 0 0xFFFF (cluAt 0x43FFF0)) 24 8) = 1 ∧
      dozing (sHcopy (hcopyBytes 0 0xFFFF (cluAt 0x43FFF0))) 0 = false ∧
      slotOf (sHcopy (hcopyBytes 0 0xFFFF (cluAt 0x43FFF0))) 0 1 = some (resSlot (sHcopy (hcopyBytes 0 0xFFFF (cluAt 0x43FFF0))) 0) ∧
      (slotSt (sHcopy (hcopyBytes 0 0xFFFF (cluAt 0x43FFF0))) 0).switch = none) ∧
    copyGoes (sHcopy (hcopyBytes 1 0xFFFF (deepAt 0))) r1 (hd r1 (hcopyBytes 1 0xFFFF (deepAt 0))) ∧
    noUe (sHcopy (hcopyBytes 1 0xFFFF (deepAt 0))) :=
  ⟨⟨copyGoes_of (by decide +kernel) (by decide +kernel) (by decide +kernel), by decide +kernel, by decide +kernel⟩,
    ⟨copyGoes_of (by decide +kernel) (by decide +kernel) (by decide +kernel), by decide +kernel, by decide +kernel,
      by decide +kernel, by decide +kernel⟩,
    copyGoes_of (by decide +kernel) (by decide +kernel) (by decide +kernel), by unfold noUe; decide +kernel⟩

/-- An RREAD of 256 lines, a compare-swap RATOMIC and an MSEND of 16 bytes. -/
def rreadBytes : List Byte := hdBytes 3 [(16, 2, 5), (20, 6, 0x1000), (26, 6, 0x2000), (32, 2, 256)]
/-- A compare-swap of 8 bytes. -/
def ratomicBytes : List Byte := hdBytes 4 [(16, 2, 5), (20, 6, 0x1000), (32, 1, 0x32), (40, 8, 1), (56, 8, 2)]
/-- An MSEND of 16 bytes across no boundary. -/
def msendBytes : List Byte := hdBytes 5 [(16, 2, 5), (18, 2, 3), (20, 6, 0xFF8), (26, 1, 9), (28, 2, 4095), (32, 4, 16)]
theorem wit_HostFrames :
    (startable (sDesc r1 rreadBytes) r1 (hd r1 rreadBytes) .rread ∧ leAt rreadBytes 32 2 = 256 ∧
      freeTag (sDesc r1 rreadBytes) = some 0) ∧
    (startable (sDesc r1 ratomicBytes) r1 (hd r1 ratomicBytes) .ratomic ∧ ratomicBytes.length = 64 ∧
      freeTag (sDesc r1 ratomicBytes) = some 0) ∧
    startable (sDesc r1 msendBytes) r1 (hd r1 msendBytes) .msend ∧ leAt msendBytes 32 4 = 16 ∧
    leAt msendBytes 28 2 = 4095 :=
  ⟨⟨startable_of (by decide +kernel), by decide +kernel, by decide +kernel⟩,
    ⟨startable_of (by decide +kernel), by decide +kernel, by decide +kernel⟩,
    startable_of (by decide +kernel), by decide +kernel, by decide +kernel⟩

/-- Function 512 in a state, bound, with a doorbell page, and a descriptor of the physical function. -/
def sFn (stt : Nat) (bs : List Byte) : State :=
  withDesc (st [(R.vfStatus 512, stt), (R.vfBind 512, 0x8001), (R.vfDb 512, 1)]) (hd r0 bs)
/-- An FCTL of function 512. -/
def fctlBytes (act : Nat) : List Byte := hdBytes 0x20 [(16, 2, 512), (18, 1, act)]
/-- An FBIND of function 512 with all of die 7's tallies. -/
def fbindBytes : List Byte :=
  hdBytes 0x21 [(16, 2, 512), (18, 2, 4095), (20, 2, 0xFFFF), (22, 2, 0x8FFF), (54, 2, 16384), (56, 8, 0x1000)]
theorem wit_FunctionControl :
    (startable (sFn 0 (fctlBytes 0)) r0 (hd r0 (fctlBytes 0)) .fctlEnable ∧ leAt (fctlBytes 0) 16 2 = 512 ∧
      fnState (sFn 0 (fctlBytes 0)) 512 = 0 ∧ fnBound (sFn 0 (fctlBytes 0)) 512 = true ∧
      bit (rd64 (sFn 0 (fctlBytes 0)) (R.vfDb 512)) 0 = true ∧ 512 ≤ (sFn 0 (fctlBytes 0)).host.numVfs) ∧
    startable (sFn 1 (fctlBytes 1)) r0 (hd r0 (fctlBytes 1)) .fctlDisable ∧ fnState (sFn 1 (fctlBytes 1)) 512 = 1 ∧
    startable (sFn 1 (fctlBytes 2)) r0 (hd r0 (fctlBytes 2)) .fctlReset ∧
    startable (sFn 0 fbindBytes) r0 (hd r0 fbindBytes) .fbind ∧ bindCheck (sFn 0 fbindBytes) fbindBytes = 0 :=
  ⟨⟨startable_of (by decide +kernel), by decide +kernel, by decide +kernel, by decide +kernel, by decide +kernel,
    by decide +kernel⟩, startable_of (by decide +kernel), by decide +kernel, startable_of (by decide +kernel),
    startable_of (by decide +kernel), by decide +kernel⟩

/-- CLOWN of cluster 159 of die 7, slot 3, function 512. -/
def clownBytes (act : Nat) : List Byte := hdBytes 0x22 [(16, 1, 7), (17, 1, 159), (18, 1, 3), (19, 1, act), (20, 2, 512)]
/-- GRAN of granule 767 for function 1. -/
def granBytes (act g : Nat) : List Byte := hdBytes 0x23 [(16, 2, g), (18, 1, act), (20, 2, 1)]
/-- SETREG of `GNG_UEP`. -/
def setregBytes : List Byte := hdBytes 0x24 [(16, 4, R.gngUep), (20, 4, 0x1234), (24, 4, 0xFFF0)]
/-- TBLWR and TBLRD of the last route entry of bank 1. -/
def tblBytes (op : Nat) : List Byte := hdBytes op [(17, 1, 1), (20, 4, 65535), (24, 4, 1), (32, 8, 0x1000)]
theorem wit_AdminDescriptors :
    (startable (sDesc r0 (clownBytes 1)) r0 (hd r0 (clownBytes 1)) .clownAssign ∧
      clownCheck (sDesc r0 (clownBytes 1)) 1279 (setBits (setBits (clown (sDesc r0 (clownBytes 1)) 1279) 41 32 512) 51 51 1) = 0) ∧
    (startable (sDesc r0 (clownBytes 0)) r0 (hd r0 (clownBytes 0)) .clownRelease ∧
      clownCheck (sDesc r0 (clownBytes 0)) 1279 (setBits (clown (sDesc r0 (clownBytes 0)) 1279) 51 51 0) = 0) ∧
    (startable (sDesc r0 (granBytes 1 5376)) r0 (hd r0 (granBytes 1 5376)) .granAssign ∧
      granuleCheck (sDesc r0 (granBytes 1 5376)) 5376 1 true = 0) ∧
    (startable (withDesc (st ownedDeep) (hd r0 (granBytes 0 0))) r0 (hd r0 (granBytes 0 0)) .granRelease ∧
      ownsGranule (withDesc (st ownedDeep) (hd r0 (granBytes 0 0))) 1 0 = true ∧
      granuleCheck (withDesc (st ownedDeep) (hd r0 (granBytes 0 0))) 0 1 false = 0) ∧
    (startable (sDesc r0 setregBytes) r0 (hd r0 setregBytes) .setreg ∧ leAt setregBytes 16 4 = R.gngUep) ∧
    (startable (sDesc r0 (tblBytes 0x25)) r0 (hd r0 (tblBytes 0x25)) .tblwr ∧ leAt (tblBytes 0x25) 20 4 = 65535 ∧
      leAt (tblBytes 0x25) 24 4 = 1 ∧ routeBad (leAt (zeros 8) (8 * 0) 8) = false) ∧
    startable (sDesc r0 (tblBytes 0x26)) r0 (hd r0 (tblBytes 0x26)) .tblrd ∧ tblSize (byteAt (tblBytes 0x26) 16) ≠ 0 ∧
    readEntries (sDesc r0 (tblBytes 0x26)) 0 1 65535 1 = ([zeros 8], 0) :=
  ⟨⟨startable_of (by decide +kernel), by decide +kernel⟩, ⟨startable_of (by decide +kernel), by decide +kernel⟩,
    ⟨startable_of (by decide +kernel), by decide +kernel⟩,
    ⟨startable_of (by decide +kernel), by decide +kernel, by decide +kernel⟩,
    ⟨startable_of (by decide +kernel), by decide +kernel⟩,
    ⟨startable_of (by decide +kernel), by decide +kernel, by decide +kernel, by decide +kernel⟩,
    startable_of (by decide +kernel), by decide +kernel, by decide +kernel⟩

/-! ### Windows, circuits and completions -/

/-- A window of function 1 over 256 bytes of granule 0, or of cluster 0 at 0x400000: OBASE 0x1000, job 3, every source,
every permission. -/
def winBytes (deep : Bool) : List Byte :=
  leBytes 6 0x1000 ++ leBytes 2 (2 ^ 13 + 3) ++ leBytes 6 256 ++ leBytes 2 1 ++ leBytes 6 (if deep then 0 else 0x400000) ++
  leBytes 1 (if deep then 8 else 0) ++ [0, 9, 0, 0, 0, 0xFF, 0xFF, 7, 0]
/-- WIN of window 1,023 with an ACT. -/
def winDesc (act : Nat) : List Byte := (hdBytes 0x27 [(16, 2, 1023), (18, 1, act)]).take 32 ++
  (if act = 0 then winBytes true else zeros 32)
/-- It is fetched; function 1 owns granule 0 and cluster 0; window 1,023 is loaded or not. -/
def sWin (act : Nat) (ws : List (Nat × Window)) : State :=
  { withDesc (st ownedDeep) (hd r0 (winDesc act)) with rem := { State.reset.rem with windows := ws } }
/-- CIR of a CID with an ACT. -/
def cirBytes (act : Nat) : List Byte := hdBytes 0x28 [(16, 2, 65535), (18, 1, act)]
/-- CID 65,535 has a source entry by P63, in a live state; P63 is UP at eight lanes with a valid lag. -/
def sCir (role live : Nat) : State :=
  { st [(R.prtCtl 63, 0x80000000), (R.prtStat 63, 0x32), (R.cirPort 63, 0x80000000)] with
    cir := { CirSt.start with entries := [(65535, 63 + 64 * 63 + 4096 * role + 2 ^ 14 + 2 ^ 16 * 9 + 2 ^ 32 * 3)]
                              live := if live = 0 then [] else [(65535, live)] } }
theorem wit_WindowAndCircuitDescriptors :
    (startable (sWin 0 []) r0 (hd r0 (winDesc 0)) .winLoad ∧ leAt (winDesc 0) 16 2 = 1023 ∧
      windowCheck (sWin 0 []) 1023 ((winDesc 0).drop 32) = 0) ∧
    startable (sWin 1 [(1023, parseWindow (winBytes true))]) r0 (hd r0 (winDesc 1)) .winRemove ∧
    startable (sWin 2 []) r0 (hd r0 (winDesc 2)) .winRead ∧ startable (sWin 3 []) r0 (hd r0 (winDesc 3)) .winClear ∧
    (startable (withDesc (sCir 1 0) (hd r0 (cirBytes 0))) r0 (hd r0 (cirBytes 0)) .cirOpen ∧
      sourceEntry (withDesc (sCir 1 0) (hd r0 (cirBytes 0))) 65535 = true ∧
      cirState (withDesc (sCir 1 0) (hd r0 (cirBytes 0))) 65535 = 0 ∧
      cirReady (sCir 1 0) (cirEport (cirNow (sCir 1 0) 65535)) = true) ∧
    startable (withDesc (sCir 1 2) (hd r0 (cirBytes 1))) r0 (hd r0 (cirBytes 1)) .cirClose ∧
    startable (withDesc (sCir 1 0) (hd r0 (cirBytes 1))) r0 (hd r0 (cirBytes 1)) .cirClose ∧
    cirState (withDesc (sCir 1 2) (hd r0 (cirBytes 1))) 65535 = 2 :=
  ⟨⟨startable_of (by decide +kernel), by decide +kernel, by decide +kernel⟩, startable_of (by decide +kernel),
    startable_of (by decide +kernel), startable_of (by decide +kernel),
    ⟨startable_of (by decide +kernel), by decide +kernel, by decide +kernel, by decide +kernel⟩,
    startable_of (by decide +kernel), startable_of (by decide +kernel), by decide +kernel⟩

/-- The descriptor of function 1's ring 7 has ended with TIMEOUT; its vector 7 counts, is pending. -/
def sEnded : State :=
  { withDesc (sPolled 0) { hd r1 (hdBytes 0 [(4, 8, 0x1122)]) with phase := .ended 5 } with
    time := ⟨0, 3000, false, none, 0⟩
    host := { (sPolled 0).host with
      descs := [{ hd r1 (hdBytes 0 [(4, 8, 0x1122)]) with phase := .ended 5 }]
      vectors := [(71, ⟨false, true, 1, 0, 3, 0xFEE00000, 5⟩)] } }
theorem wit_CompletionsAndInterrupts :
    descOf sEnded r1 = some { hd r1 (hdBytes 0 [(4, 8, 0x1122)]) with phase := .ended 5 } ∧
    doneStatus sEnded { hd r1 (hdBytes 0 [(4, 8, 0x1122)]) with phase := .ended 5 } = some (5, 0xFFFF) ∧
    ringOf sEnded 1 7 = some ⟨ringEntry, 0, 0, 63, 0, false⟩ ∧ bit (byteAt (hdBytes 0 [(4, 8, 0x1122)]) 1) 0 = false ∧
    (vecOf sEnded 1 7).count = 1 ∧ (vecOf sEnded 1 7).first + 1000 * (vecOf sEnded 1 7).mtime = sEnded.time.lamp := by
  decide +kernel

/-! ### Tenants and remote operations -/

/-- Function 512's teardown stands at a stage; its drain of 2 microseconds ends now; it has one tally on die 7, at 5. -/
def sTearing (t : Teardown) : State :=
  { st [(R.vfStatus 512, 2), (R.hstDrain, 2), (R.vfTally 512 7, 0x00013FFF)] with
    time := ⟨0, 2000, false, none, 0⟩
    rem := { State.reset.rem with tallies := [(131071, ⟨5, 512, true⟩)], windows := [(1, { parseWindow (winBytes true) with fn := 512 })] }
    host := { HostSt.start with fns := [(512, { FnSt.start 0 with teardown := t })] } }
/-- A frame. -/
def fr (typ cls : Nat) (f : Frame → Frame) : Frame := f { Frame.blank with typ := typ, cls := cls }
/-- A packet delivered here is in hand. -/
def sInbox (s : State) (f : Frame) (o : Origin) : State := { s with inbox := [⟨1, f, o⟩] }
/-- A bell of a code and an argument. -/
def bell (code arg : Nat) (pl : List Byte) : Frame :=
  fr 6 3 fun f => { f with tsw := code + 256 * arg, src := 65535, job := 3, dst := 9, payload := pl, len := pl.length / 16 }
theorem wit_TenantLifecycle :
    (locked (sFn 0 []) = false ∧ fnState (sFn 0 []) 512 = 0 ∧ fnBound (sFn 0 []) 512 = true ∧
      bit (rd64 (sFn 0 []) (R.vfDb 512)) 0 = true ∧ 512 ≤ (sFn 0 []).host.numVfs) ∧ fnState (sFn 1 []) 512 = 1 ∧
    (fnState (sTearing (.draining 0)) 512 = 2 ∧ (fnSt (sTearing (.draining 0)) 512).teardown = .draining 0 ∧
      0 + 1000 * getF (sTearing (.draining 0)) R.hstDrain 9 0 = (sTearing (.draining 0)).time.lamp ∧
      holdsFrames (sTearing (.draining 0)) 512 = false ∧
      (sTearing (.draining 0)).rem.tallies.all (fun e => decide (e.1 < 131072)) = true) ∧
    (fnSt (sTearing (.zeroing [])) 512).teardown = .zeroing [] ∧
    (bell 8 0x1FFF []).typ = 6 ∧ (bell 8 0x1FFF []).code = 8 ∧ (bell 8 0x1FFF []).src < 65536 := by
  decide +kernel
theorem wit_TenantLifecycle_noCluster : ∀ g < 1280, holds (sTearing (.draining 0)) g 512 = false := by
  intro g hg
  have hr : ∀ k < 2, rd (sTearing (.draining 0)) (clownOff g + 4 * k) = 0 := by
    intro k hk
    have h0 := resetReg_cpxClown (d := g / 160) (i := g % 160) (k := k) (by omega) (by omega) hk
    have hf : SMap.find (sTearing (.draining 0)).regs (clownOff g + 4 * k) = none := by
      simp only [sTearing, st, SMap.find, clownOff, R.cpxClown, R.vfStatus, R.hstDrain, R.vfTally]
      repeat' rw [if_neg (show ¬ _ = _ by omega)]
    rw [rd, hf]
    exact h0
  have hc : clown (sTearing (.draining 0)) g = 0 := by
    have h1 := hr 0 (by omega)
    have h2 := hr 1 (by omega)
    simp only [Nat.mul_zero, Nat.add_zero, Nat.mul_one] at h1 h2
    simp [clown, rd64, h1, h2]
  simp [holds, slotValid, hc, bit]

/-- 16 bytes. -/
def line : List Byte := leBytes 16 0x0F0E0D0C0B0A09080706050403020100
/-- Window 5 of function 1, ENABLED, onto granule 0 or cluster 0; a frame waits for the receiver of die 0. -/
def sArrive (deep : Bool) (f : Frame) : State :=
  { st (ownedDeep ++ [(R.vfStatus 1, 1)]) with
    rem := { State.reset.rem with windows := [(5, parseWindow (winBytes deep))] }
    fab := { FabSt.start with queues := [(64, ⟨[⟨3, f, .port 1, 0, false, none, none⟩], 0⟩)] } }
/-- A frame to the end of window 5, tally 7. -/
def toWin (typ n : Nat) (f : Frame → Frame) : Frame :=
  fr typ 1 fun g => f { g with dst := 9, src := 65535, job := 3, offset := 0x1100 - 16 * n, tally := 7, tsw := 1, len := n }
/-- A WRITE of one line. -/
def aWrite : Frame := toWin 0 1 fun f => { f with payload := line }
/-- A READ of one line, answered to offset 0x2000. -/
def aRead : Frame := toWin 1 1 fun f => { f with payload := leBytes 6 0x2000 ++ leBytes 2 3 ++ zeros 8, cid := 4095 }
/-- An ATOMIC of an operation and a size. -/
def anAtomic (op size : Nat) : Frame :=
  toWin 3 3 fun f => { f with
    offset := 0x10F8, tsw := op + 16 * size
    payload := zeros 16 ++ leBytes 16 0xFFFFFFFF00000001 ++ leBytes 16 0 }
/-- The target of window 5's last line. -/
def tgDeep (a : Nat) : Target := ⟨5, true, a, 0, [], 1⟩
theorem wit_RemoteFrames :
    ((arrivals (sArrive true aWrite) 0).head? = some ⟨3, aWrite, .port 1, 0, false, none, none⟩ ∧
      judge (sArrive true aWrite) ⟨3, aWrite, .port 1, 0, false, none, none⟩ = .passed 5 [tgDeep 0xF0] ∧
      mustWait (sArrive true aWrite) ⟨3, aWrite, .port 1, 0, false, none, none⟩ [tgDeep 0xF0] = false ∧
      aWrite.tally < (tallyRange (sArrive true aWrite) 1 0).2) ∧
    (judge (sArrive false aWrite) ⟨3, aWrite, .port 1, 0, false, none, none⟩ = .passed 5 [⟨5, false, 0x4000F0, 0, [0], 1⟩] ∧
      mustWait (sArrive false aWrite) ⟨3, aWrite, .port 1, 0, false, none, none⟩ [⟨5, false, 0x4000F0, 0, [0], 1⟩] = false ∧
      slotOf (sArrive false aWrite) 0 1 = some (resSlot (sArrive false aWrite) 0) ∧
      (slotSt (sArrive false aWrite) 0).switch = none) ∧
    receiverCheck (sArrive true aRead) aRead = .passed 5 [tgDeep 0xF0] ∧
    receiverCheck (sArrive true { aRead with job := 4 }) { aRead with job := 4 } = .refused 6 1 ∧
    receiverCheck (sArrive true (anAtomic 0 1)) (anAtomic 0 1) = .passed 5 [tgDeep 0xF8] ∧
    aheadQueued (sArrive true (anAtomic 0 1)) ⟨3, anAtomic 0 1, .port 1, 0, false, none, none⟩ = false ∧
    aheadMesh (sArrive true (anAtomic 0 1)) (anAtomic 0 1) 0 [] = false := by
  decide +kernel
/-- A cluster that is not being switched holds every address of its resident function. -/
theorem live_of {s : State} {g fn sl : Nat} (h : slotOf s g fn = some sl) (hr : sl = resSlot s g)
    (hs : (slotSt s g).switch = none) : ∀ a, isLive s g fn a = true := by
  intro a
  simp [isLive, h, hs, hr]

/-- An atomic is first at deep store's unit; the old value is 5 over two words. -/
def sAtomic (op size : Nat) : State :=
  { st ownedDeep with
    deep := { State.reset.deep with mem := [(0xF8, 5#8), (0xFC, 6#8)] }
    rem := { State.reset.rem with atomics := [⟨anAtomic op size, 5, true, 0xF8, 0, 0, 1, 3⟩] } }
/-- A reply to window 5 that a request waits for, or none. -/
def aReply (typ st : Nat) : Frame := toWin typ 1 fun f => { f with payload := line, cid := 4095, status := st }
/-- The request of tag 4,095. -/
def req (t : Option Nat) : Request := ⟨1, 7, 0xFFFFFFFF, 65535, 9, 3, t⟩
/-- It is outstanding; its descriptor works; the reply waits for the receiver. -/
def sReply (typ : Nat) : State :=
  { sArrive true (aReply typ 0) with
    time := ⟨0, 1000000, false, none, 0⟩
    host := { HostSt.start with descs := [{ hd r1 rreadBytes with phase := .working }] }
    rem := { (sArrive true (aReply typ 0)).rem with requests := [(4095, req (some 0))] } }
theorem wit_AtomicsAndReplies :
    (∀ op < 4, (sAtomic op 0).rem.atomics = [⟨anAtomic op 0, 5, true, 0xF8, 0, 0, 1, 3⟩] ∧ (anAtomic op 0).aop = op ∧
      (anAtomic op 0).asize = 0 ∧ (anAtomic op 1).asize = 1 ∧ (anAtomic op 0).payload.length = 48) ∧
    SMap.find (sArrive true (aReply 2 0)).rem.requests (aReply 2 0).cid = none ∧
    (SMap.find (sReply 2).rem.requests (aReply 2 0).cid = some (req (some 0)) ∧
      receiverCheck (sReply 2) (aReply 2 0) = .passed 5 [tgDeep 0xF0] ∧
      targetDozes (sReply 2) [tgDeep 0xF0] = false ∧
      receiverCheck (sReply 4) (aReply 4 0) = .passed 5 [tgDeep 0xF0]) ∧
    SMap.find (sReply 2).rem.requests (4095#12).toNat = some (req (some 0)) ∧ 0 + 1000000 = (sReply 2).time.lamp := by
  decide +kernel

/-! ### Circuits, reset and boot -/

/-- A circuit bell of CID 65,535 has come in by P63. -/
def sBell (role live code status : Nat) : State :=
  sInbox (sCir role live) (bell code (65535 + 65536 * status) []) (.port 63)
/-- It is taken. -/
theorem wit_CircuitBells :
    (takeCirBell (sBell 2 0 2 0) 2 = some (bell 2 65535 [], 63, sCir 2 0) ∧ cirRole (cirNow (sCir 2 0) 65535) = 2 ∧
      cirValid (cirNow (sCir 2 0) 65535) = true ∧ cirIport (cirNow (sCir 2 0) 65535) = 63 ∧
      flag (sCir 2 0) (R.cirPort 63) 31 = true) ∧
    (takeCirBell (sBell 1 1 3 0) 3 = some (bell 3 65535 [], 63, sCir 1 1) ∧ cirState (sCir 1 1) 65535 = 1) ∧
    (takeCirBell (sBell 1 1 4 9) 4 = some (bell 4 (65535 + 65536 * 9) [], 63, sCir 1 1) ∧
      srcqOf (sCir 1 1) 65535 = []) ∧
    takeCirBell (sBell 0 2 5 9) 5 = some (bell 5 (65535 + 65536 * 9) [], 63, sCir 0 2) ∧
    cirRole (cirNow (sCir 0 2) 65535) = 0 ∧ cirIport (cirNow (sCir 0 2) 65535) = 63 := by
  decide +kernel

/-- CID 65,535 is PENDING since 0 with a TEARDOWN to forward; TMO of 1 microsecond is over. -/
def sPending : State :=
  { sCir 1 1 with
    time := ⟨0, 1000, false, none, 0⟩
    regs := (sCir 1 1).regs ++ [(R.cirPtmo, 1)]
    host := { HostSt.start with descs := [{ hd r0 (cirBytes 0) with phase := .working }] }
    cir := { (sCir 1 1).cir with
      opens := [⟨0, 0, 0, 65535, 0⟩]
      closing := [65535]
      fwd := [⟨65535, 63, 9, 0⟩] } }
/-- A circuit bank is armed, T of the shift change is 5 ns and is reached, and its drain of 1 microsecond stands or not. -/
def sShift (d : Option Nat) : State :=
  { st [(R.cirCtl, 0x10100), (R.cirShiftat, 5), (R.cirShiftat + 4, 0)] with
    time := ⟨5 * 2 ^ 32, 1000, false, none, 0⟩
    cir := { CirSt.start with drain := d } }
theorem wit_CircuitTimersAndShifts :
    (sPending.cir.fwd = [⟨65535, 63, 9, 0⟩] ∧ 0 ≤ nowNs sPending ∧ sPending.cir.opens = [⟨0, 0, 0, 65535, 0⟩] ∧
      0 + 1000 * getF sPending R.cirPtmo 7 0 = sPending.time.lamp ∧ sPending.cir.closes = [] ∧ cirState sPending 65535 = 1 ∧
      srcqOf sPending 65535 = [] ∧ memNat 65535 sPending.cir.closing = true) ∧
    (flag (sShift none) R.cirCtl 8 = true ∧ (bell 7 0 line).code = 7) ∧
    (rd64 (sShift none) R.cirShiftat = nowNs (sShift none) ∧ rd64 (sShift none) R.cirShiftat ≠ 0 ∧
      (sShift none).cir.fired = false ∧ (sShift none).cir.drain = none) ∧
    (sShift (some 1000)).cir.drain = some 1000 ∧ (sShift (some 1000)).time.lamp = 1000 ∧
    flag (sShift (some 1000)) R.fabEpoch 8 = false ∧ (sShift (some 1000)).cir.srcq = [] := by
  decide +kernel

theorem wit_Resets : fnState (sFn 1 []) 512 = 1 ∧ fnState (sFn 1 []) 511 ≠ 1 ∧ rd State.reset R.spiInfo < 256 := by
  decide +kernel

/-- Boot stands at a phase, RESET_N high; a mill, a cluster and a port are in the fault record. -/
def sBoot (ph : Nat) (flash : List Host.Cell) : State :=
  { st [(R.glbBoot, ph * 2 ^ 28 + 2 ^ 26)] with
    mgmt := { MgmtSt.start with inReset := false, flash := flash }
    flt := ⟨[], [], [.cluster 1279, .mill 15, .port 63]⟩ }
/-- The flash bytes of an image slot with a SEQ and an empty payload, for every stepping. -/
def imageAt (b : Bool) (seq : Nat) : List Host.Cell :=
  (upto (slotBase b) 32).zip (leBytes 4 0x4B525544 ++ leBytes 4 seq ++ leBytes 4 0 ++ leBytes 4 0 ++ leBytes 2 0xFFFF ++
    zeros 14)
theorem anyStepping : bit 0xFFFF Config.stepping.toNat = true := by
  have h : ∀ n < 16, bit 0xFFFF n = true := by decide
  exact h _ Config.stepping.isLt
theorem wit_BootAndFaultBells :
    (State.reset.mgmt.inReset = true ∧ bootPhase State.reset = 0) ∧
    ((sBoot 0 []).mgmt.inReset = false ∧ bootPhase (sBoot 0 []) = 0) ∧ bootPhase (sBoot 1 []) = 1 ∧
    bootPhase (sBoot 2 []) = 2 ∧ flag (sBoot 2 []) R.glbBoot 26 = true ∧ bootPhase (sBoot 3 []) = 3 ∧
    bootPhase (sBoot 4 []) = 4 ∧ slotOk (sBoot 1 []) false = false ∧ slotOk (sBoot 1 []) true = false ∧
    (bell 1 0xFFFFF []).code = 1 ∧ (bell 1 0xFFFFF []).job < 4096 ∧ flag (st [(R.glbFctl, 0)]) R.glbFctl 0 = false := by
  decide +kernel
theorem wit_bootSlotA : slotOk (sBoot 1 (imageAt false 5)) false = true ∧ slotOk (sBoot 1 (imageAt false 5)) true = false :=
  ⟨by
    have h : bit (leAt (readFlash (sBoot 1 (imageAt false 5)) (slotBase false) 18) 16 2) Config.stepping.toNat = true :=
      (show leAt (readFlash (sBoot 1 (imageAt false 5)) (slotBase false) 18) 16 2 = 0xFFFF by decide +kernel) ▸ anyStepping
    simp only [slotOk, h]
    decide +kernel, by decide +kernel⟩
theorem wit_bootSlotB : slotOk (sBoot 1 (imageAt true 5)) true = true ∧ slotOk (sBoot 1 (imageAt true 5)) false = false :=
  ⟨by
    have h : bit (leAt (readFlash (sBoot 1 (imageAt true 5)) (slotBase true) 18) 16 2) Config.stepping.toNat = true :=
      (show leAt (readFlash (sBoot 1 (imageAt true 5)) (slotBase true) 18) 16 2 = 0xFFFF by decide +kernel) ▸ anyStepping
    simp only [slotOk, h]
    decide +kernel, by decide +kernel⟩

/-! ### Work lists -/

/-- The list of function 1 waits on core 0; the store holds a descriptor at address 0. -/
def sQueued (d : List Byte) : State :=
  { st owned with comp := { State.reset.comp with
      store := memWriteN [] 0 d
      seqs := [(0, [(1, ⟨[l0], none, [], FpFlags.none⟩)])] } }
/-- A NOP that ends its list and adds to tally 7. -/
def endNop : List Byte := desc 0 1 7 []
theorem wit_ListSequencing :
    (residentAwake (sQueued endNop) k0.clu = some 1 ∧ (seqOf (sQueued endNop) 0 1).run = none ∧
      (seqOf (sQueued endNop) 0 1).queue = [l0] ∧ checkLocal 0 0 64 = 0 ∧
      checkDesc (running endNop .done) 0 1 (run0 endNop .done) (getLocal (sQueued endNop) 0 0 64) = 0 ∧
      checkDesc (running endNop .done) 0 1 (run0 endNop .done) (getLocal (sQueued (desc 10 0 7 [])) 0 0 64) = 4 ∧
      noUe (sQueued endNop) ∧ expired (sQueued endNop) k0 = false) ∧
    (current (running endNop .done) k0 = some (1, run0 endNop .done) ∧
      canComplete (running endNop .done) 0 1 (run0 endNop .done) = true ∧ bit (byteAt endNop 1) 0 = true ∧
      7 < (tallyRange (running endNop .done) 1 0).2) ∧
    current (running endNop .issued) k0 = some (1, run0 endNop .issued) := by
  unfold noUe; decide +kernel

/-- A WAIT for 5 ns. -/
def timeDesc : List Byte := desc 6 0 0xFFFF [(4, 1, 1), (16, 8, 5)]
/-- At 5 ns. -/
def sTimed (ph : Phase) : State := { running timeDesc ph with time := ⟨5 * 2 ^ 32, 9, false, none, 0⟩ }
/-- A LOOP over one descriptor, n passes, no stride. -/
def loopDesc (n : Nat) : List Byte := desc 7 0 0xFFFF [(4, 2, 1), (8, 4, n)]
/-- The list stands at it, at index 1. -/
def sLoop (n : Nat) (ls : List LoopSt) : State := standing { run0 (loopDesc n) .issued with idx := 1, loops := ls }
/-- A STAGE of PASS 0 whose forward sub-list is at 0x1000. -/
def stageDesc : List Byte := desc 8 0 0xFFFF [(8, 4, 0x1000), (12, 4, 0xFFFFFFFF), (16, 4, 0xFFFFFFFF)]
/-- PILLAR slot 7 over the whole cluster store, marked or cleared. -/
def pillarDesc (act : Nat) : List Byte := desc 9 0 0xFFFF [(4, 1, act), (5, 1, 7), (8, 4, 0x400000), (16, 4, 0x40000)]
/-- Slot 7 is marked. -/
def sMarked : State :=
  { running (pillarDesc 1) .issued with comp := { (running (pillarDesc 1) .issued).comp with pillars := [(7, ⟨0x400000, 0x40000⟩)] } }
theorem wit_ListControl :
    (current (running waitDesc .issued) k0 = some (1, run0 waitDesc .issued) ∧
      current (sTimed .issued) k0 = some (1, run0 timeDesc .issued) ∧ leAt timeDesc 16 8 = nowNs (sTimed .issued) ∧
      waitPassed sPassed 0 1 waitDesc = true ∧ waitPassed sWaits 0 1 waitDesc = false ∧
      leAt waitDesc 12 4 = lampTick sWaits - 0) ∧
    (current (sLoop 1 []) k0 = some (1, { run0 (loopDesc 1) .issued with idx := 1 }) ∧
      ([⟨1, 1, 0, [], []⟩] : List LoopSt).find? (fun l => l.p == 1) = some ⟨1, 1, 0, [], []⟩) ∧
    (current (sLoop 2 []) k0 = some (1, { run0 (loopDesc 2) .issued with idx := 1 }) ∧ 2 = leAt (loopDesc 2) 8 4 ∧
      checkLocal 0 (0 + 64 * (1 - 1)) 64 = 0 ∧
      patchLoops 0 [⟨1, 1, 0, loopEntries (loopDesc 2), (loopEntries (loopDesc 2)).map fun e => e.2⟩]
        (getLocal (sLoop 2 []) 0 0 64) = some (zeros 64) ∧
      checkDesc (sLoop 2 []) 0 1 (run0 (loopDesc 2) .issued) (leSet (zeros 64) 2 2 0xFFFF) = 0) ∧
    (current (running stageDesc .issued) k0 = some (1, run0 stageDesc .issued) ∧ checkLocal 0 (leAt stageDesc 8 4) 64 = 0) ∧
    checkPillar (running (pillarDesc 0) .issued) 0 1 (pillarDesc 0) = 0 ∧ checkPillar sMarked 0 1 (pillarDesc 1) = 0 := by
  decide +kernel

/-- Functions 1 and 2 share cluster 0; function 2 has a list; the sharing state stands as given. -/
def sShared (x : SlotSt) (mem : List Host.Cell) : State :=
  { st [(R.cpxClown 0 0, 1 + 2 ^ 10 * 2), (R.cpxClown 0 0 + 4, 0x30000), (R.pwrIsl 0, 0x1F1F1F), (R.cpxQuantum 0, 1),
      (R.dstLayout, 0x100)] with
    time := ⟨1000 * 2 ^ 32, 9, false, none, 0⟩
    deep := { State.reset.deep with mem := mem }
    comp := { State.reset.comp with
      slots := [(0, x)]
      store := [(0, 1#8), (0x3FBFFF, 2#8), (0x43FFFF, 3#8)]
      seqs := [(0, [(2, ⟨[{ l0 with fn := 2 }], none, [], FpFlags.none⟩)])] } }
theorem wit_ContextSwitches :
    fenced (sShared ⟨0, false, none⟩ []) 0 = false ∧
    (slotValid (sShared ⟨0, false, none⟩ []) 0 (resSlot (sShared ⟨0, false, none⟩ []) 0) = true ∧
      0 + getF (sShared ⟨0, false, none⟩ []) (R.cpxQuantum 0) 15 0 * 1000 = nowNs (sShared ⟨0, false, none⟩ [])) ∧
    (nextSlot (sShared ⟨0, true, none⟩ []) 0 = some 1 ∧
      ((List.finRange 64).all fun c => atBoundary (sShared ⟨0, true, none⟩ []) ⟨0, 0, c⟩
        (slotFn (sShared ⟨0, true, none⟩ []) 0 (resSlot (sShared ⟨0, true, none⟩ []) 0))) = true) ∧
    (slotSt (sShared ⟨0, true, some ⟨1, true, 0, 7⟩⟩ []) 0).switch = some ⟨1, true, 0, 7⟩ ∧
    hasImages (sShared ⟨0, true, some ⟨1, true, 0, 7⟩⟩ []) = true ∧
    State.memOk (sShared ⟨0, true, some ⟨1, true, 0, 7⟩⟩ []) ∧ noUe (sShared ⟨0, true, some ⟨1, true, 0, 7⟩⟩ []) ∧
    (slotSt (sShared ⟨0, true, some ⟨1, false, 0, 7⟩⟩ []) 0).switch = some ⟨1, false, 0, 7⟩ ∧
    State.memOk (sShared ⟨0, true, some ⟨1, false, 0, 7⟩⟩ []) ∧ noUe (sShared ⟨0, true, some ⟨1, false, 0, 7⟩⟩ []) :=
  ⟨by decide +kernel, ⟨by decide +kernel, by decide +kernel⟩, ⟨by decide +kernel, by decide +kernel⟩, by decide +kernel,
    by decide +kernel, by unfold State.memOk; decide +kernel, by unfold noUe; decide +kernel, by decide +kernel,
    by unfold State.memOk; decide +kernel, by unfold noUe; decide +kernel⟩

/-! ### Engines -/

/-- A MATMUL of E4M3 by E4M3, one row, eight columns, eight K, to an OFMT. -/
def matmulDesc (o : Nat) : List Byte :=
  desc 1 0 0xFFFF [(4, 1, 3), (5, 1, 3), (6, 1, o), (7, 1, 8), (8, 4, 0x1000), (16, 4, 0x2000), (24, 4, 0x3000), (32, 2, 1),
    (34, 2, 8), (40, 4, 8), (44, 2, 1), (46, 2, 8), (48, 4, 0xFFFFFFFF), (52, 4, 0xFFFFFFFF)]
/-- Core 0 runs it; the first weight and activation are 1.0. -/
def sMatmul (o : Nat) : State :=
  { standing (engaged (matmulDesc o)) with
    comp := { (standing (engaged (matmulDesc o))).comp with store := [(0x1000, 0x38#8), (0x2000, 0x38#8)] } }
theorem wit_Matmuls :
    noUe (sMatmul 0xFE) ∧ current (sMatmul 0xFE) k0 = some (1, engaged (matmulDesc 0xFE)) ∧ expired (sMatmul 0xFE) k0 = false ∧
    checkDesc (sMatmul 0xFE) 0 1 (engaged (matmulDesc 0xFE)) (matmulDesc 0xFE) = 0 ∧
    checkDesc (sMatmul 0xFF) 0 1 (engaged (matmulDesc 0xFF)) (matmulDesc 0xFF) = 0 ∧
    (engaged (matmulDesc 0xFE)).par.isSome = true ∧ (engaged (matmulDesc 0xFF)).par.isSome = true ∧
    (∃ d, matmulD 0 (matmulDesc 0xFE) = some d ∧ d.of = .words ∧ d.m = 1 ∧ d.n = 8 ∧
      MatmulD.seams d = [(0, 8)] ∧ space d.c = 0 ∧ opKey 0 d.c 0 = some 0x3000) ∧
    (∃ d, matmulD 0 (matmulDesc 0xFF) = some d ∧ d.of = .images ∧ d.m = 1 ∧ d.n = 8 ∧ MatmulD.seams d = [(0, 8)] ∧
      localAt (some 0) (d.c % 2 ^ 32) (48 * d.n) = some 0x3000) :=
  ⟨by unfold noUe; decide +kernel, by decide +kernel, by decide +kernel, by decide +kernel, by decide +kernel,
    by decide +kernel, by decide +kernel,
    ⟨_, rfl, by decide +kernel, by decide +kernel, by decide +kernel, by decide +kernel, by decide +kernel, by decide +kernel⟩,
    ⟨_, rfl, by decide +kernel, by decide +kernel, by decide +kernel, by decide +kernel, by decide +kernel⟩⟩

/-- The same with 264 K, which two seams of 256 cut. -/
def seamsDesc : List Byte :=
  desc 1 0 0xFFFF [(4, 1, 3), (5, 1, 3), (6, 1, 0xFF), (7, 1, 8), (8, 4, 0x1000), (16, 4, 0x2000), (24, 4, 0x3000), (32, 2, 1),
    (34, 2, 8), (40, 4, 264), (44, 2, 1), (46, 2, 8), (48, 4, 0xFFFFFFFF), (52, 4, 0xFFFFFFFF)]
theorem wit_Matmuls_seams (p : Params) :
    ∃ d, matmulD 0 seamsDesc = some d ∧ MatmulD.seams d = [(0, 256), (256, 264)] ∧
      localAt (some 0) (d.c % 2 ^ 32) (48 * d.n) = some 0x3000 ∧ matmulApart (sMatmul 0xFF) 0 d p (storeKey 0 0x3000) (48 * d.n) :=
  ⟨_, rfl, by decide +kernel, by decide +kernel, matmulApart_of (xw := 0x1000) (xa := 0x2000) (by decide +kernel)
    (by decide +kernel) (by decide +kernel) (by decide +kernel) (by decide +kernel) (by decide +kernel) (by decide +kernel)
    (by decide +kernel)⟩

/-- A CONVERT of three BF16 elements to FP4. -/
def convertDesc : List Byte :=
  desc 2 0 0xFFFF [(4, 1, 5), (5, 1, 0), (8, 4, 0x1000), (16, 4, 0x3000), (24, 2, 1), (26, 2, 3), (28, 4, 16), (32, 4, 16),
    (36, 4, 0xFFFFFFFF)]
/-- Core 0 runs it on 1.0, 2.0 and 4.0; the byte after the last element holds 0xF7. -/
def sConvert : State :=
  { standing (engaged convertDesc) with comp := { (standing (engaged convertDesc)).comp with
      store := [(0x1000, 0x80#8), (0x1001, 0x3F#8), (0x1003, 0x40#8), (0x1004, 0x80#8), (0x1005, 0x40#8), (0x3001, 0xF7#8)] } }
/-- A SPARSE of E4M3 by E4M3 over one row with no non-zero, to images at 0x3000, seams of 512. -/
def sparseDesc : List Byte :=
  desc 3 0 0xFFFF [(4, 1, 3), (5, 1, 3), (6, 1, 0xFF), (7, 1, 9), (8, 4, 0x1000), (16, 4, 0x1100), (24, 4, 0x1200),
    (32, 4, 0x2000), (40, 4, 0x3000), (52, 2, 1), (54, 2, 8), (56, 4, 0xFFFFFFFF), (60, 4, 0xFFFFFFFF)]
/-- Core 0 runs it; the structure has one row and one column; the output held 0xFF. -/
def sSparse : State :=
  { standing (engaged sparseDesc) with comp := { (standing (engaged sparseDesc)).comp with
      store := [(0x1000, 1#8), (0x1004, 1#8), (0x3000, 0xFF#8)] } }
theorem wit_Convert :
    noUe sConvert ∧ current sConvert k0 = some (1, engaged convertDesc) ∧
    checkDesc sConvert 0 1 (engaged convertDesc) convertDesc = 0 ∧
    (convertD convertDesc).map (fun d => (d.rows, d.df.mx, d.axis, space d.dst, opKey 0 d.dst 0)) =
      some (1, false, 0, 0, some 0x3000) ∧
    (engaged convertDesc).par.map (fun p => p.slot) = some none ∧ (engaged convertDesc).par.map (fun p => p.recAt) = some none :=
  ⟨by unfold noUe; decide +kernel, by decide +kernel, by decide +kernel, by decide +kernel, by decide +kernel,
    by decide +kernel⟩
theorem wit_Sparse :
    noUe sSparse ∧ current sSparse k0 = some (1, engaged sparseDesc) ∧ expired sSparse k0 = false ∧
    checkDesc sSparse 0 1 (engaged sparseDesc) sparseDesc = 0 ∧ (engaged sparseDesc).par.isSome = true ∧
    (sparseD 0 sparseDesc).map (fun d => (d.of, d.acc, d.trans, space d.rp)) = some (.images, false, false, 0) ∧
    (sparseD 0 sparseDesc).map (fun d => ((sparseH sSparse 0 d).nnz, (sparseH sSparse 0 d).nr)) = some (0, 1) ∧
    (sparseD 0 sparseDesc).map (fun d => leNat (getOp sSparse 0 d.rp 32 4)) = some 0 ∧
    localAt (some 0) 0x1000 40 = some 0x1000 ∧ localAt (some 0) 0x3000 384 = some 0x3000 :=
  ⟨by unfold noUe; decide +kernel, by decide +kernel, by decide +kernel, by decide +kernel, by decide +kernel,
    by decide +kernel, by decide +kernel, by decide +kernel, by decide +kernel, by decide +kernel⟩

/-- A REDUCE of two inputs to one output. -/
def reduceDesc (rop i o : Nat) : List Byte :=
  desc 4 0 0xFFFF [(4, 1, rop), (5, 1, i), (6, 1, o), (8, 4, 0x1000), (16, 4, 0x3000), (24, 4, 2), (28, 4, 1), (32, 4, 48),
    (36, 4, 0xFFFFFFFF)]
/-- Core 0 runs it. -/
def sReduce (rop i o : Nat) : State :=
  { standing (engaged (reduceDesc rop i o)) with comp := { (standing (engaged (reduceDesc rop i o))).comp with
      store := [(0x1000, 0x38#8), (0x1030, 0xB8#8)] } }
theorem wit_Reduces :
    noUe (sReduce 0 0 0xFF) ∧ current (sReduce 0 0 0xFF) k0 = some (1, engaged (reduceDesc 0 0 0xFF)) ∧
    checkDesc (sReduce 0 0 0xFF) 0 1 (engaged (reduceDesc 0 0 0xFF)) (reduceDesc 0 0 0xFF) = 0 ∧
    checkDesc (sReduce 1 0 0xFF) 0 1 (engaged (reduceDesc 1 0 0xFF)) (reduceDesc 1 0 0xFF) = 0 ∧
    checkDesc (sReduce 2 3 3) 0 1 (engaged (reduceDesc 2 3 3)) (reduceDesc 2 3 3) = 0 ∧ checkDesc (sReduce 3 7 7) 0 1 (engaged (reduceDesc 3 7 7)) (reduceDesc 3 7 7) = 0 ∧
    (reduceD (reduceDesc 0 0 0xFF)).nout = 1 ∧ opKey 0 (reduceD (reduceDesc 0 0 0xFF)).dst 0 = some 0x3000 :=
  ⟨by unfold noUe; decide +kernel, by decide +kernel, by decide +kernel, by decide +kernel, by decide +kernel,
    by decide +kernel, by decide +kernel, by decide +kernel⟩

/-- A COPY of 16 bytes from deep store to the cluster store, or asynchronous with DT 7. -/
def copyDesc (as : Bool) : List Byte :=
  desc 5 (if as then 2 else 0) 7 [(8, 8, deepAt 0x100), (16, 4, 0x43FFF0), (24, 4, 16), (28, 4, 1)]
/-- Core 0 runs it; one asynchronous copy waits. -/
def sCopy (as : Bool) : State :=
  { st ownedDeep with
    deep := { State.reset.deep with mem := [(0x100, 7#8), (0x10F, 8#8)] }
    comp := { State.reset.comp with seqs := [(0, [(1, ⟨[], some (run0 (copyDesc as) .issued),
      [⟨1, 1, 7, copyDesc true, 7, none, 0, false⟩], FpFlags.none⟩)])] } }
theorem wit_CopiesMove :
    noUe (sCopy false) ∧ current (sCopy false) k0 = some (1, run0 (copyDesc false) .issued) ∧
    checkDesc (sCopy false) 0 1 (run0 (copyDesc false) .issued) (copyDesc false) = 0 ∧
    checkDesc (sCopy true) 0 1 (run0 (copyDesc true) .issued) (copyDesc true) = 0 ∧ copyPending (sCopy true) 1 = false ∧
    copyMeetsDoze (sCopy false) 0 (copyDesc false) = false ∧ space (copyD (copyDesc false)).dst = 0 ∧
    opKey 0 (copyD (copyDesc false)).dst 0 = some 0x43FFF0 ∧
    (seqOf (sCopy true) 0 1).copies[0]? = some ⟨1, 1, 7, copyDesc true, 7, none, 0, false⟩ :=
  ⟨by unfold noUe; decide +kernel, by decide +kernel, by decide +kernel, by decide +kernel, by decide +kernel,
    by decide +kernel, by decide +kernel, by decide +kernel, by decide +kernel⟩
/-- A COPY of 8 KiB from deep store to the start of the cluster store. -/
def longCopy : CopyD := copyD (desc 5 0 7 [(8, 8, deepAt 0x100), (16, 4, 0x400000), (24, 4, 0x2000), (28, 4, 1)])
theorem wit_CopiesMove_whole :
    copyWhole (sCopy false) k0 (copyD (copyDesc false)) 0x43FFF0 ∧ copyWhole (sCopy false) k0 longCopy 0x400000 := by
  have hd : longCopy.dst = 0x400000 := by decide +kernel
  refine ⟨⟨by decide +kernel, .inl (by decide +kernel)⟩, by decide +kernel, .inr ⟨by decide +kernel, by decide +kernel, ?_⟩⟩
  intro o h
  have hl : o < 0x2000 := by rwa [show longCopy.len = 0x2000 by decide +kernel] at h
  have hk : localAt (opOwn k0.no longCopy.dst) (longCopy.dst % 2 ^ 32 + o) 1 = some (0x400000 + o) := by
    rw [hd]; unfold localAt; rw [if_neg (by omega), if_pos (by omega), if_pos (by omega)]; rfl
  unfold opKey; rw [hk, hd]; simp [storeKey, opClu, space, k0, CoreId.no, CoreId.clu, cluNo]
theorem wit_CopiesMove_live : ∀ x, isLive (sCopy false) 0 1 x = true :=
  live_of (sl := 0) (by decide +kernel) (by decide +kernel) (by decide +kernel)

/-! ### The switch die -/

/-- A route to endpoint 9 by P63, which is UP. -/
def sRouted : State := { st [(R.prtStat 63, 2)] with fab := { FabSt.start with routes := [(9, 0x1000000BF)] } }
/-- A device bell to endpoint 9 waits for the door. -/
def sDevBell (s : State) : State := { s with outbox := [⟨1, bell 1 0 [], .device 0x7F1⟩] }
theorem wit_DeviceBells :
    doorCheck (sDevBell State.reset) (aliasGroup (sDevBell State.reset) (bell 1 0 [])) none = some 4 ∧
    (let s := sDevBell sRouted
     let f := completeHeader s (.device 0x7F1) 3 0 (aliasGroup s (bell 1 0 []))
     doorCheck s (aliasGroup s (bell 1 0 [])) none = none ∧
      routeFrame s (curEpoch s % 2) f none = ⟨[⟨.ctl 63, f, none⟩], 0, false⟩ ∧ (ctlOf s 63).length < 64) := by
  decide +kernel

/-- A WRITE of function 512 in class 2 waits for its shaper, whose bucket holds exactly its tokens. -/
def sShaped : State :=
  { st [(R.prtStat 63, 2), (R.vfStatus 512, 1)] with
    fab := { FabSt.start with
      routes := [(9, 0x1000000BF)]
      door := [⟨1025, 1, { aWrite with cls := 2 }, .host 512 0 0⟩]
      shp := [(1025, ⟨true, 1, 1, 0, 48 * byteUnits, 0⟩)] } }
/-- A bell waits for room in the control queue of P63. -/
def sWaiting : State :=
  { st [(R.prtStat 63, 2)] with
    fab := { FabSt.start with waiting := [⟨⟨1, bell 1 0 [], .device 0x7F1⟩, false, 0, some 63, none, none⟩] } }
theorem wit_ShapersAndWaits :
    (let s := sShaped
     let g : Frame := { aWrite with cls := 2 }
     let h := completeHeader s (.host 512 0 0) 2 0 g
     fnState s 512 = 1 ∧ (Shaper.pass (Shaper.tick (shpOf s 1025) s.time.now) g.size).isSome = true ∧
      (polOf s (2 * 512 + 2 - 1)).en = false ∧
      routeFrame s (curEpoch s % 2) h none = ⟨[⟨.port 63, h, none⟩], 0, false⟩ ∧
      (queueOf s 63).avg ≤ bits (rd s (R.swqEdp 0)) 7 0 * lcapQ s 63 ∧ depthQ s 63 + h.size ≤ lcapQ s 63 ∧
      placeAt s 63 h = some false) ∧
    portUp sWaiting 63 = true ∧ (ctlOf sWaiting 63).length < 64 := by
  decide +kernel

/-- A frame has come in by P63. -/
def sRx (s : State) (f : Frame) : State := { s with fab := { s.fab with rx := [(63, [⟨{ f with ecrc := f.crc }, false⟩])] } }
/-- CID 65,535 passes from P63 to P0, whose slot 7 it holds. -/
def sTransit : State :=
  { sCir 0 2 with cir := { (sCir 0 2).cir with
      entries := [(65535, 0x4FC0 + 9 * 2 ^ 16 + 3 * 2 ^ 32)]
      cages := [(7, 0x1FFFF)] } }
/-- A WRITE on circuit 65,535. -/
def aCircuit : Frame := { aWrite with cls := 0, cid := 65535, dst := 9, job := 3 }
theorem wit_PortArrivals :
    doorCheck (sRx State.reset aWrite) { aWrite with ecrc := aWrite.crc } (some 63) = some 4 ∧
    (doorCheck (sRx sRouted (bell 2 65535 []))
        { bell 2 65535 [] with ecrc := (bell 2 65535 []).crc } (some 63) = none ∧
      (bell 2 65535 []).isCircuitBell = true) ∧
    (let s := sRx { sTransit with fab := sRouted.fab } aCircuit
     doorCheck s { aCircuit with ecrc := aCircuit.crc } (some 63) = none ∧ dead s = false ∧
      cirValid (cirNow s 65535) = true ∧ cirRole (cirNow s 65535) = 0 ∧ cirState s 65535 = 2 ∧
      bits (cirNow s 65535) 31 16 = 9 ∧ bits (cirNow s 65535) 43 32 = 3 ∧ cirIport (cirNow s 65535) = 63 ∧
      (0#64).toNat - getF s (R.gngPdly 63) 23 0 = 0 ∧ getF s (R.cirPort 63) 5 0 = 0 ∧
      bits (cageOf s (cirBank s) 0 7) 15 0 = 65535) := by
  decide +kernel

/-- P63 is UP at a width; a circuit frame is due in slot 0, a packet heads its queue, and LSEQ stands at its last number. -/
def sSends (width : Nat) : State :=
  { st [(R.prtStat 63, 2 + 16 * width)] with
    fab := { FabSt.start with queues := [(63, ⟨[⟨2, aWrite, .port 1, 0, false, none, none⟩], 0⟩)] }
    cir := { CirSt.start with slots := [⟨63, 0, ⟨3, aCircuit, .port 1, 0, false, none, none⟩⟩] }
    ports := [(63, { PortSt.blank with next := 16383 })] }
theorem wit_PortSends :
    (portUp (sSends 3) 63 = true ∧ linkRoom (sSends 3) 63 = true ∧ getF (sSends 3) (R.prtStat 63) 5 4 = 3 ∧
      slotServed (sSends 3) 63 (slotNow (sSends 3)) = false ∧ nowNs (sSends 3) ≤ 24 * slotNow (sSends 3) + 12 ∧
      (committed (sSends 3) 63 (slotNow (sSends 3))).map (·.1) = some ⟨3, aCircuit, .port 1, 0, false, none, none⟩) ∧
    portUp (sSends 0) 63 = true ∧ linkRoom (sSends 0) 63 = true ∧ ctlOf (sSends 0) 63 = [] := by
  decide +kernel

/-- A packet of one line reaches the last line of cluster 0's cluster store, with tally 7. -/
def sMesh : State :=
  { st owned with fab := { FabSt.start with mesh := [(0, { MeshSt.empty with ready := [(0,
      { uid := 3, win := 5, flow := (65535, 9, 3, 0), kind := 0, ord := true, idx := 0, npkt := 1, cr := 0, age := 0, dx := 0,
        dy := 0, scl := 0xFF, dseq := [(0, 0)], addr := 0x43FFF0, tally := 7, tinc := 5, fn := 1, mask := [0],
        bytes := line })] })] } }
/-- A WRITE read from the sump. -/
def sSumped : State :=
  { State.reset with fab := { FabSt.start with queues := [(71, ⟨[⟨2, aWrite, .port 1, 0, true, none, none⟩], 0⟩)] } }
theorem wit_DieTraffic :
    judge (sArrive true aWrite) ⟨3, aWrite, .port 1, 0, false, none, none⟩ = .passed 5 [tgDeep 0xF0] ∧
    (let s := sArrive true aWrite
     let e : QEntry := ⟨3, aWrite, .port 1, 0, false, none, none⟩
     (arrivals s 0).head? = some e ∧ aheadQueued s e = false ∧ aheadMesh s aWrite 0 [] = false ∧ s.rem.atomics = []) ∧
    (dozing sMesh 0 = false ∧ holds sMesh 0 1 = true ∧ 7 < (tallyRange sMesh 1 0).2 ∧ (meshOf sMesh 0).ready.length = 1) ∧
    poolRoom sSumped aWrite = true := by
  decide +kernel
theorem wit_DieTraffic_live : ∀ a, isLive sMesh 0 1 a = true :=
  live_of (sl := 0) (by decide +kernel) (by decide +kernel) (by decide +kernel)

/-- Canary slot 7 sends to endpoint 9. -/
def sCanary : State := st [(R.swqCny0 7, 0x80000000), (R.swqCny1 7, 0x00030009)]
/-- A canary request, or its echo. -/
def aCanary (req : Bool) : Frame :=
  fr 7 1 fun f => { f with dst := 9, src := 65535, tsw := (if req then 1 else 0) + 65536 * 7, len := 1, payload := zeros 16 }
/-- A mirror record waits; the ring of 16 records has one free entry. -/
def sMirror : State :=
  { st [(R.mirCtl, 0x80000001), (R.mirRsize, 4), (R.mirProd, 7), (R.mirCons, 0xFFFFFFF8)] with
    fab := { FabSt.start with mirRecs := [zeros 160] } }
/-- An average and a sample of every cycle are due. -/
def sTicks : State := { st [(R.swqHctl, 64)] with time := ⟨0, 52, false, none, 0⟩ }
theorem wit_QueueWatch :
    (sTicks.fab.avgAt + 256 ≤ 5 * sTicks.time.lamp ∧
      sTicks.fab.sampleAt + 4 * getF sTicks R.swqHctl 15 0 ≤ 5 * sTicks.time.lamp) ∧
    flag sCanary (R.swqCny0 7) 31 = true ∧ canaryDue sCanary 7 = true ∧ (aCanary true).tsw % 2 = 1 ∧
    ((aCanary false).tsw % 2 = 0 ∧ zeroAt (aCanary false).payload 8 8 = true ∧
      leAt (aCanary false).payload 0 8 ≤ nowNs (sInbox State.reset (aCanary false) (.port 1))) ∧
    flag sMirror R.mirCtl 30 = false ∧
    (rd sMirror R.mirProd + (2 ^ 32 - rd sMirror R.mirCons)) % 2 ^ 32 = 15 ∧ getF sMirror R.mirRsize 4 0 = 4 := by
  decide +kernel

/-! ### The mills -/

/-- A word of form A, and one of form B. -/
def wA (op d a b x : Nat) : Nat := 0x4000000 * op + 0x400000 * d + 0x40000 * a + 0x4000 * b + x
/-- A word of form B. -/
def wB (op d a imm : Nat) : Nat := 0x4000000 * op + 0x400000 * d + 0x40000 * a + imm
/-- A stream of function 1, live; g8 and g9 are a pair, g15 is the largest number. -/
def aStream (flags : Nat) (srt : List SortRec) : StreamSt :=
  { StreamSt.blank with
    bytes := leBytes 2 0x1FFF ++ leBytes 2 3 ++ leBytes 2 1 ++ leBytes 2 4096 ++ leBytes 2 2 ++ leBytes 2 2046 ++
      leBytes 2 0 ++ leBytes 2 1 ++ leBytes 2 0 ++ leBytes 2 256 ++ leBytes 2 0 ++ leBytes 2 1024 ++ leBytes 4 0 ++
      leBytes 4 0x3F800000 ++ leBytes 4 0x3F800000 ++ leBytes 4 0x3F800000 ++ [1, 1] ++ zeros 6
    state := 1, flags := flags, sort := srt, regs := [0x70009, 0x1FC0, 0, 0, 0, 0, 0, 2 ^ 64 - 1] }
/-- A MILL frame of stream 255, rank 4,095. -/
def aMillFrame (pl : List Byte) : Frame :=
  fr 5 1 fun f => { f with dst := 9, job := 3, tsw := 0xFFFFF, offset := 16, payload := pl, len := pl.length / 16 }
/-- Its handler at address 4,094, with one instruction left; g1 is 1, g2 is 255, g3 is 2,045. -/
def aHandler (pl : List Byte) : HandlerSt := ⟨255, aMillFrame pl, 4094, [1, 255, 2045, 0, 0, 0, 2 ^ 64 - 1], 1023⟩
/-- Mill 15 runs it at a word. -/
def sMill (w flags : Nat) (srt : List SortRec) (pl : List Byte) : State :=
  { st [(R.vfStatus 1, 1)] with
    mills := [(15, ⟨[(4094, w)], [(255, aStream flags srt)], [], [(2047, (enterRecord 0 Image.empty line).1)], [(255, 0xFFFFFFFF)],
      [], [], [], [], some (aHandler pl)⟩)] }
theorem runs_sMill (w flags : Nat) (srt : List SortRec) (pl : List Byte) :
    runsWord (sMill w flags srt pl) 15 (aHandler pl) w :=
  ⟨rfl, rfl, Nat.lt_succ_self 1023, Nat.lt_succ_self 4094, rfl, rfl⟩
theorem wit_MillScalars :
    (bits (wA 0x08 15 7 15 0) 31 26 = 0x08 ∧ bits (wA 0x08 15 7 15 0) 13 0 = 0) ∧ bits (wB 0x09 0 15 0x3FFFF) 31 26 = 0x09 ∧
    (bits (wB 0x0E 1 0 9) 31 26 = 0x0E ∧ bits (wB 0x0E 1 0 9) 21 18 = 0 ∧
      frameField (sMill (wB 0x0E 1 0 9) 0 [] line) ⟨15, aHandler line, wB 0x0E 1 0 9⟩ = some 3) ∧
    (bits (wB 0x0F 1 2 5) 31 26 = 0x0F ∧ bits (wA 0x10 1 2 15 0) 31 26 = 0x10 ∧
      regNow (sMill (wB 0x0F 1 2 5) 0 [] line) 15 (aHandler line) 2 <
        (streamOf (sMill (wB 0x0F 1 2 5) 0 [] line) 15 255).fld 18 2) := by
  decide +kernel

/-- The handler has executed 1,024 instructions. -/
def sSpent : State :=
  { sMill (wA 1 1 1 1 0) 0 [] line with
    mills := [(15, ⟨[(4094, wA 1 1 1 1 0)], [(255, aStream 0 [])], [], [], [], [], [], [], [],
      some { aHandler line with count := 1024 }⟩)] }
theorem wit_MillFlow :
    (wA 0x00 0 0 0 0 % 2 ^ 26 = 0 ∧ wA 0x16 0 0 0 0 % 2 ^ 26 = 0) ∧
    ((4094 : Int) + 1 + sext 18 (bits (wB 0x11 1 1 0x3F001) 17 0) = 0 ∧ (4094 : Int) + 1 + sext 18 (bits (wB 0x15 0 0 0) 17 0) = 4095) ∧
    (millOf sSpent 15).run = some { aHandler line with count := 1024 } ∧
    bits (codeWord sSpent 15 4094) 31 26 = 0x01 := by
  decide +kernel

/-- A MILL frame is at the head of mill 15's input; its stream is removed or not, and NRANK is 4,096. -/
def sInput (valid : Bool) : State :=
  { st [(R.vfStatus 1, 1)] with
    mills := [(15, ⟨[], if valid then [(255, aStream 0 [])] else [], [], [], [], [], [], [],
      [⟨4, aMillFrame line, .port 1, 0, false, none, none⟩], none⟩)] }
theorem wit_MillSums :
    (millCheck (sInput true) 15 (aMillFrame line) = none ∧ millCheck (sInput false) 15 (aMillFrame line) = some 0) ∧
    (bits (wA 0x20 0 3 0 0) 31 26 = 0x20 ∧ line.length = rfSize (bits (wA 0x20 0 3 0 0) 13 0) ∧
      regNow (sMill 0 0 [] line) 15 (aHandler line) 3 + 1 = (aStream 0 []).fld 10 2) ∧
    (bits (wA 0x21 0 3 1 0) 31 26 = 0x21 ∧ regNow (sMill 0 0 [] line) 15 (aHandler line) 1 = 1) ∧
    (pairOf (sMill 0 0 [] line) ⟨15, aHandler line, wA 0x22 8 3 1 0xFF⟩ =
      some ⟨9, 7, false, false, false, 0, 0, 0x1FC0⟩ ∧ 0x1FC0 % 4096 ≤ 4048) := by
  decide +kernel

/-- A record of a sort section: rank 0, key of 2.0. -/
def aRec (disp : Bool) : SortRec := ⟨0x40000000, 5, 0, 0, disp⟩
/-- A record of key 1.0, tag 1,023. -/
def recLine : List Byte := leBytes 4 0x3F800000 ++ leBytes 4 5 ++ leBytes 6 1023 ++ zeros 2
/-- A removal of stream 255 waits. -/
def sRemoving : State :=
  { State.reset with mills := [(15, ⟨[], [(255, { aStream 0 [] with removing := true })], [], [], [], [], [], [], [], none⟩)] }
theorem wit_MillSections :
    ((sortRecOf (aStream 0 []) 4095 false recLine).key = 0x3F800000 ∧ (aStream 0 []).fld 24 4 = 0 ∧
      [aRec false].length < 16 * (aStream 0 []).fld 14 2 ∧
      recEqual (aStream 0 []) (aRec false) (sortRecOf (aStream 0 []) 4095 false recLine) = false) ∧
    (bits (wA 0x24 8 0 1 1) 13 0 = 1 ∧ regNow (sMill 0 0 [] line) 15 (aHandler line) 0 = 0 ∧
      pairOf (sMill 0 0 [] line) ⟨15, aHandler line, wA 0x24 8 0 1 1⟩ = some ⟨9, 7, false, false, false, 0, 0, 0x1FC0⟩) ∧
    (0x1FC0 + (aMillFrame line).rank * 0 + (aMillFrame line).offset < 2 ^ 48 ∧
      (0x1FC0 + (aMillFrame line).rank * 0 + (aMillFrame line).offset) % 16 = 0) ∧
    ((aStream 32 []).detl = true ∧ regNow (sMill 0 32 [] line) 15 (aHandler line) 2 < (aStream 32 []).fld 18 2) ∧
    ((sortRecOf (aStream 32 []) 4095 true recLine).tag % 65536 + 1 = (aStream 32 []).fld 22 2 ∧
      recEqual (aStream 32 []) (aRec true) (sortRecOf (aStream 32 []) 4095 true recLine) = false) ∧
    (bits (wA 0x27 8 0 0 0) 21 0 = 0 ∧ wA 0x28 0 0 0 0 % 2 ^ 26 = 0) ∧
    ((streamOf sRemoving 15 255).removing = true ∧ (millOf sRemoving 15).run = none) := by
  decide +kernel

/-! ### Delay exchanges, the gang and barriers -/

/-- A TSYNC frame. -/
def tsync (bseq blen ts : Nat) : Frame :=
  fr 8 3 fun f => { f with src := 9, tsw := bseq + 256 * blen, len := 1, payload := leBytes 8 ts ++ zeros 8 }
/-- P63 is UP with an exchange due now and a reply due now; one request waits for its reply. -/
def sDelay : State :=
  { st [(R.prtStat 63, 2)] with
    time := ⟨256 * 2 ^ 32, 1000, false, none, 0⟩
    delay := [(63, ⟨[64], [0], List.replicate 14 0, 1, 1000, 0⟩)] }
theorem wit_DelayExchanges :
    (dead sDelay = false ∧ portUp sDelay 63 = true ∧ linkRoom sDelay 63 = true ∧
      (delayExchOf sDelay 63).due = sDelay.time.lamp) ∧
    (doorCheck (sRx sDelay (tsync 0 0 0)) { tsync 0 0 0 with ecrc := (tsync 0 0 0).crc } (some 63) = none ∧
      (tsync 0 0 0).tsw % 65536 = 0) ∧
    0 + 16384 = sDelay.time.now / 2 ^ 26 ∧
    (doorCheck (sRx sDelay (tsync 1 0 0)) { tsync 1 0 0 with ecrc := (tsync 1 0 0).crc } (some 63) = none ∧
      (delayExchOf (sRx sDelay (tsync 1 0 0)) 63).samples.length = 14) := by
  decide +kernel

/-- The gang in a state, ROLE standby, PER 10 microseconds; the last burst and master burst were 200 microseconds ago. -/
def sGang (state : Nat) : State :=
  { st [(R.gngStat, state), (R.gngCtl, 0xA40A0003), (R.gngSrc, 9)] with
    time := ⟨2 ^ 32 * 1000, 200000, false, some 198000, 0⟩
    gang := { GangSt.start with burstAt := some 0, nextBurst := 200000, relay := [9] } }
/-- A reference is selected; GSYNC out gives a pulse at every microsecond; it is due. -/
def sPulse : State :=
  { st [(R.tbCtl, 0x80010001)] with time := ⟨2 ^ 32 * 1099, 1, false, none, 0⟩ }
theorem wit_GangBursts :
    (dead (sGang 4) = false ∧ gangState (sGang 4) = 4 ∧ (sGang 4).gang.nextBurst = (sGang 4).time.lamp ∧
      ((List.range 64).all fun p => !portUp (sGang 4) p) = true) ∧
    (doorCheck (sRx (sGang 2) (tsync 0 4 5)) { tsync 0 4 5 with ecrc := (tsync 0 4 5).crc } (some 63) = none ∧
      (tsync 0 4 5).blen = 4 ∧ (tsync 0 4 5).bseq = 0) ∧
    (gangState (sGang 2) = 2 ∧ 0 + 2000 * getF (sGang 2) R.gngCtl 23 16 ≤ (sGang 2).time.lamp) ∧
    (getF (sGang 2) R.gngCtl 29 28 = 2 ∧ (sGang 2).gang.masterAt + 200000 = (sGang 2).time.lamp) ∧
    (198000 + 1000 < (sGang 2).time.lamp) ∧
    (flag sPulse R.tbCtl 16 = true ∧ flag sPulse R.tbCtl 31 = true ∧ 1000 * getF sPulse R.tbCtl 15 0 = 1000 ∧
      nowNs sPulse % 1000 = 99 ∧ sPulse.time.pulse ≠ nowNs sPulse / 1000 * 1000) := by
  decide +kernel

/-- Barrier 63 of job 3 with two local participants and two devices, LEAD 1; endpoint 9 is its unit; an arrival is here. -/
def sBarrier (valid : Nat) (counts : Nat × Nat) (o : Origin) : State :=
  { st [(R.gngStat, 4), (R.gngBar0 63, 2 ^ 31 * valid + 0x01002003), (R.gngBar1 63, 0x0FFF0002),
      (R.gngBar2 63, 0x00070009), (R.gngBar3 63, 0x1000), (R.gngSrc, 9), (R.gngUep, 9)] with
    fab := { FabSt.start with routes := [(9, 0xF00000000)] }
    gang := { GangSt.start with bars := [(63, counts)] }
    inbox := [⟨1, toWin 0 1 fun f => { f with dst := 9, offset := 0x3F0, payload := line }, o⟩] }
/-- A start bell of barrier 63 is here. -/
def sStart : State := { sBarrier 1 (0, 0) (.port 1) with inbox := [⟨1, bell 6 63 (zeros 16), .port 1⟩] }
theorem wit_Barriers :
    (isArrival (sBarrier 0 (0, 0) (.port 1)) (toWin 0 1 fun f => { f with dst := 9, offset := 0x3F0, payload := line }) = true ∧
      bit (rd (sBarrier 0 (0, 0) (.port 1)) (R.gngBar0 63)) 31 = false) ∧
    (bit (rd (sBarrier 1 (0, 0) (.port 1)) (R.gngBar0 63)) 31 = true ∧
      bits (rd (sBarrier 1 (0, 0) (.port 1)) (R.gngBar0 63)) 11 0 = 3 ∧
      (barOf (sBarrier 1 (0, 1) (.port 1)) 63).1 + 1 < getF (sBarrier 1 (0, 1) (.port 1)) (R.gngBar0 63) 23 12 ∧
      (barOf (sBarrier 1 (1, 1) (.port 1)) 63).1 + 1 = getF (sBarrier 1 (1, 1) (.port 1)) (R.gngBar0 63) 23 12 ∧
      gangState (sBarrier 1 (1, 1) (.port 1)) = 4 ∧
      (barOf (sBarrier 1 (1, 1) (.port 1)) 63).2 + 1 = getF (sBarrier 1 (1, 1) (.port 1)) (R.gngBar1 63) 12 0) ∧
    ((bell 6 63 (zeros 16)).code = 6 ∧ (bell 6 63 (zeros 16)).arg % 64 = 63 ∧ flag sStart (R.gngBar0 63) 31 = true) := by
  decide +kernel

/-! ### Links -/

/-- P63 in a state with its link layer, its lanes all ACTIVE. -/
def sLink (stat : Nat) (x : PortSt) : State :=
  { st [(R.prtStat 63, stat), (R.prtLane 63, 0xFF00), (R.prtPeer 63, 77), (R.prtPeer 63 + 4, 0), (R.prtPeerx 63, 9 * 2 ^ 16 + 5)] with
    time := ⟨2 ^ 32 * 5, 16000000, false, none, 0⟩
    ports := [(63, { x with lanes := 255 })] }
/-- A frame sent under an LSEQ. -/
def sent (n : Nat) : SentFrame := ⟨n, ⟨2, aWrite, .port 1, 0, false, none, none⟩⟩
/-- P63 is UP; it has sent LSEQ 16,383 and 0, and expects 16,383. -/
def sUp : State := sLink 0x32 { PortSt.blank with next := 1, unacked := [sent 16383, sent 0], ack := 16383 }
/-- A frame unit of an LSEQ that acknowledges up to 0. -/
def aUnit (lseq : Nat) : List Byte := linkUnit (sLink 0x32 PortSt.blank) 63 0 lseq true aWrite.toBytes
/-- The body of a control unit. -/
def ctlBody (op w m at0 : Nat) : List Byte :=
  leBytes 1 op ++ leBytes 1 w ++ leBytes 1 m ++ zeros 1 ++ leBytes 4 at0 ++ leBytes 8 77
/-- P63 is UP with a control unit received, and a width change. -/
def sCtl (b : List Byte) (w : Option WidthSt) : State := sLink 0x32 { PortSt.blank with ctlIn := [(0, b)], width := w }
theorem wit_LinkTraffic :
    (portState sUp 63 = 2 ∧ lcrcOk (aUnit 16383) = true ∧ leAt (aUnit 16383) 0 2 = (portOf sUp 63).ack ∧
      bit (leAt (aUnit 16383) 2 2) 14 = false ∧ lcrcOk (aUnit 5) = true ∧ leAt (aUnit 5) 0 2 = 5) ∧
    ((portOf sUp 63).advanced + 2 * linkDelay sUp 63 + 1000 ≤ sUp.time.lamp ∧
      (portOf sUp 63).errs.length + 1 < getF sUp (R.prtElim 63) 15 0) ∧ hasFrame sUp 63 = false ∧
    flag sUp (R.prtLane 63) (8 + 7) = true ∧
    (portState (sCtl (ctlBody 1 3 0x7F 0) none) 63 = 2 ∧ 1 ≤ askedWidth (sCtl (ctlBody 1 3 0x7F 0) none) 63 ∧
      2 ≤ laneCount (byteAt (ctlBody 1 3 0x7F 0) 2 &&& usableLanes (sCtl (ctlBody 1 3 0x7F 0) none) 63)) ∧
    ((portOf (sCtl (ctlBody 2 2 0xF 9) (some ⟨255, 3, none⟩)) 63).ctlIn = [(0, ctlBody 2 2 0xF 9)] ∧
      (portOf (sCtl (ctlBody 2 2 0xF 9) (some ⟨255, 3, none⟩)) 63).width = some ⟨255, 3, none⟩) ∧
    ((portOf (sCtl [] (some ⟨15, 2, some 9⟩)) 63).width = some ⟨15, 2, some 9⟩ ∧
      (sCtl [] (some ⟨15, 2, some 9⟩)).cir.live = [] ∧ (sCtl [] (some ⟨15, 2, some 9⟩)).cir.slots = []) := by
  decide +kernel

/-- The training unit of a peer 0 or 1, whose RESULT is eight lanes at level 1. -/
def trainData (peer : Nat) : List Byte :=
  let b := leBytes 8 peer ++ leBytes 2 9 ++ [5, 3, 0xFF, 0x11, 2, 0] ++ zeros 2 ++ [0xFF, 3, 1] ++ zeros 7
  b ++ leBytes 4 (crc32c b)
/-- P63 is in TRAIN. -/
def sTrain : State := sLink 1 PortSt.blank
/-- A peer that is not this device. -/
def otherId : Nat := if Config.devid.toNat = 0 then 1 else 0
theorem wit_training (peer : Nat) (h : peer = 0 ∨ peer = 1) :
    (portState sTrain 63 = 1 ∧ (portOf sTrain 63).retry = none ∧ (trainData peer).length = 32 ∧
      leAt (trainData peer) 28 4 = crc32c ((trainData peer).take 28) ∧ bit (byteAt (trainData peer) 14) 1 = true ∧
      (byteAt (trainData peer) 12 &&& (255 &&& (255 - getF sTrain (R.prtLane 63) 31 24))) = 255 ∧
      min (min (askedWidth sTrain 63) (byteAt (trainData peer) 11)) (widestFit (laneCount 255)) = 3 ∧
      min (byteAt (trainData peer) 13 / 16) (offeredMax sTrain 63) = 1 ∧
      max (byteAt (trainData peer) 13 % 16) (getF sTrain (R.prtLvl 63) 3 0) = 1) ∧
    leAt (trainData peer) 0 8 = peer ∧ byteAt (trainData peer) 18 = lowestLanes 255 (widthLanes 3) ∧
    byteAt (trainData peer) 19 = 3 ∧ byteAt (trainData peer) 20 = 1 := by
  rcases h with rfl | rfl <;> decide +kernel
theorem wit_trainingSide : Config.devid.toNat < otherId ∨ otherId < Config.devid.toNat := by
  unfold otherId; split <;> omega

/-- P63 has unsent FAIL, is UP or DOWN, drains, or tries again: nothing waits in its queues. -/
def sFailing (sent1 : Bool) : State :=
  sLink 3 { PortSt.blank with failSent := sent1, unacked := if sent1 then [sent 7] else [], ack := 9 }
/-- It has the peer's FAIL. -/
def sFailed : State := sLink 3 { PortSt.blank with failSent := true, ctlIn := [(8, ctlBody 3 0 0 0)] }
/-- It is disabled and drains. -/
def sOff : State := wr (sLink 2 { PortSt.blank with stopping := some (0, 5) }) (R.prtCtl 63) 0
theorem wit_PortLife :
    ((portOf (sLink 1 { PortSt.blank with retry := some 16000000 }) 63).retry = some 16000000 ∧
      flag sTrain (R.prtStat 63) 25 = false ∧ flag sTrain (R.prtCtl 63) 31 = true ∧ sTrain.power.lamp = 0) ∧
    (portState (sFailing false) 63 = 3 ∧ (portOf (sFailing false) 63).failSent = false ∧ quietPort (sFailing false) 63) ∧
    (portState sFailed 63 = 3 ∧ (portOf sFailed 63).ctlIn = [(8, ctlBody 3 0 0 0)] ∧ (portOf sFailed 63).unacked = []) ∧
    (portOf (sFailing true) 63).since + 2 * linkDelay (sFailing true) 63 + 1500 ≤ (sFailing true).time.lamp ∧
    (portState sUp 63 = 2 ∧ quietPort sUp 63) ∧
    ((portOf sOff 63).stopping = some (0, 5) ∧ (portOf sOff 63).unacked = [] ∧ flag sOff (R.prtCtl 63) 31 = false) ∧
    (portState (sLink 4 PortSt.blank) 63 = 4 ∧ (portOf (sLink 4 PortSt.blank) 63).since + 1000000 ≤ (sLink 4 PortSt.blank).time.lamp) :=
  ⟨by decide +kernel, ⟨by decide +kernel, by decide +kernel, by unfold quietPort; decide +kernel⟩, by decide +kernel,
    by decide +kernel, ⟨by decide +kernel, by unfold quietPort; decide +kernel⟩, by decide +kernel, by decide +kernel⟩

/-- P63 has frames in doubt of LSEQ 16,383 and 0. -/
def sDoubt : State := sLink 4 { PortSt.blank with doubt := [sent 16383, sent 0] }
/-- Its peer's report, whose ACK is 1. -/
def aReport : Frame :=
  fr 0 1 fun f => { f with dst := 9, job := 0xFFF, len := 1, offset := 0x400 + 16 * 63, payload := leBytes 8 77 ++ leBytes 2 1 ++ zeros 6 }
theorem wit_LinkReports :
    (isReport aReport = true ∧ leAt aReport.payload 0 8 = rd64 sDoubt (R.prtPeer 63) ∧
      ((portOf sDoubt 63).doubt.all fun f => seqBelow f.lseq 1) = true) ∧
    (portOf sDoubt 63).doubtAt + 16000 ≤ sDoubt.time.lamp := by
  decide +kernel

/-! ### Power and health -/

/-- Island 1,279 in a state with its live state; its cluster is held by function 1. -/
def sIsl (isl : Nat) (x : IslSt) : State :=
  { st [(R.pwrIsl 1279, isl), (R.pwrDozet, 5), (R.pwrCtl, 0x100), (R.cpxClown 7 159, 1), (R.cpxClown 7 159 + 4, 0x10000),
      (R.dstOwn 6143, 0)] with
    time := ⟨2 ^ 32 * 5, 200000, false, none, 0⟩
    power := { State.reset.power with isl := [(1279, x)] } }
/-- A live state of an island, idle, at a temperature. -/
def atTemp (t : Int) : IslSt := { IslSt.blank with temp := t }
/-- Readings: island 1,279 at THROT, the switch die above WARN, an estimate over the cap. -/
def hotReadings : Readings := ⟨[(1279, 400)], 400, [], 3000⟩
/-- The island runs at code 9, its list works. -/
def sBusy : State :=
  { sIsl 0x401F091F (atTemp 100) with comp := { State.reset.comp with
      seqs := [(81919, [(1, ⟨[], some (run0 (desc 0 0 0xFFFF []) .issued), [], FpFlags.none⟩)])] } }
theorem wit_GrantControl :
    (sBusy.power.lamp = 0 ∧ 4 * (getF sBusy R.pwrTherm 15 8 : Int) ≤ (islOf (takeReadings sBusy hotReadings) (cluNo 7 159)).temp ∧
      getF sBusy R.pwrCap 11 0 < ((hotReadings.watts : Int) + sBusy.power.corr).toNat ∧
      busy sBusy (cluNo 7 159) = true ∧ dozing sBusy (cluNo 7 159) = false) ∧
    ((sLamp 1).power.lamp ≠ 0 ∧ 4 * (getF sBusy R.pwrTherm 7 0 : Int) ≤ hotReadings.switchDie) ∧
    ((islOf (sIsl 0x1F091F { atTemp 420 with hot := some 100000 }) (cluNo 7 159)).hot = some 100000 ∧
      isRetired (sIsl 0x1F091F { atTemp 420 with hot := some 100000 }) (.cluster (cluNo 7 159)) = false ∧
      (timesOf (sIsl 0x1F091F { atTemp 420 with hot := some 100000 }) (.cluster (cluNo 7 159))).length + 1 <
        getF (sIsl 0x1F091F { atTemp 420 with hot := some 100000 }) R.glbFwin 3 0) ∧
    (islOf (sIsl 0x1F091F { atTemp 100 with rise := some (10, 200000) }) (cluNo 7 159)).rise = some (10, 200000) ∧
    ((islOf (sIsl 0x1F091F (atTemp 100)) (cluNo 7 159)).droop = none ∧
      dozing (sIsl 0x1F091F (atTemp 100)) (cluNo 7 159) = false) ∧
    (199963 + ceilDiv 32000 (islandMHz (sIsl 0x1F091F { atTemp 100 with droop := some 199963 }) 1279) = 200001 ∧
      199962 + ceilDiv 32000 (islandMHz (sIsl 0x1F091F { atTemp 100 with droop := some 199962 }) 1279) = 200000) := by
  decide +kernel

/-- A dozing island 1,279 with a wake event. -/
def sDozing : State := sIsl 0x601F091F { atTemp 100 with wake := true }
/-- The package is in lamp, and an alarm is due; or it leaves it since 160 microseconds. -/
def sAlarm (n : Nat) : State :=
  { st [(R.pwrAlarm, 5), (R.pwrAlarm + 4, 0), (R.prtStat 63, 0), (R.prtCtl 63, 0x80000000)] with
    time := ⟨2 ^ 32 * 5, 200000, false, none, 0⟩
    power := { State.reset.power with lamp := n, since := 160000 } }
theorem wit_DozeAndLamp :
    (busy (sIsl 0x501F091F { atTemp 100 with idleAt := 195000 }) 1279 = false ∧
      195000 + 1000 * getF (sIsl 0x501F091F { atTemp 100 with idleAt := 195000 }) R.pwrDozet 15 0 = 200000 ∧
      flag (sIsl 0x501F091F { atTemp 100 with idleAt := 195000 }) R.pwrCtl 8 = true ∧
      flag (sIsl 0x501F091F { atTemp 100 with idleAt := 195000 }) (R.pwrIsl 1279) 30 = true ∧
      wakeEvent (sIsl 0x501F091F { atTemp 100 with idleAt := 195000 }) 1279 = false ∧
      wakeEvent (sIsl 0x501F091F { atTemp 100 with idleAt := 195000, wake := true }) 1279 = true ∧
      dozing (sIsl 0x501F091F { atTemp 100 with idleAt := 195000 }) 1279 = false ∧
      (slotSt (sIsl 0x501F091F { atTemp 100 with idleAt := 195000 }) 1279).expired = false) ∧
    (dozing sDozing 1279 = true ∧ (islOf sDozing 1279).waking = none ∧ wakeEvent sDozing 1279 = true) ∧
    ((islOf (sIsl 0x601F091F { atTemp 100 with waking := some 198000 }) 1279).waking = some 198000 ∧ 198000 + 2000 = 200000 ∧
      200000 < 198001 + 2000) ∧
    ((sAlarm 1).power.lamp = 1 ∧ rd64 (sAlarm 1) R.pwrAlarm = nowNs (sAlarm 1) ∧ 0x1FFFFC < 0x200000) ∧
    ((sAlarm 2).power.since + 40000 = (sAlarm 2).time.lamp ∧ portState (sAlarm 2) 63 = 0 ∧
      flag (sAlarm 2) (R.prtCtl 63) 31 = true) := by
  decide +kernel

/-- A sweep is due; a scrub slice of stack 7 is due; activities run. -/
def sDue (run : List (Nat × Nat)) : State :=
  { st [(R.pwrAge, 0x80000001), (R.dstScrub, 0x80000001), (R.pwrIslm 1279, 0), (R.pwrIsl 1279, 0x1F091F)] with
    time := ⟨0, 3600000000000, false, none, 0⟩
    power := { State.reset.power with running := run }
    deep := { State.reset.deep with copies := [⟨8 * 2 ^ 17 * 16 * 3 * 32 - 1, 7⟩] } }
theorem wit_Maintenance :
    (flag (sDue []) R.pwrAge 31 = true ∧
      (sDue []).power.sweepAt + getF (sDue []) R.pwrAge 7 0 * 3600000000000 = (sDue []).time.lamp) ∧
    (flag (sDue []) R.dstScrub 31 = true ∧
      getF (sDue []) R.dstScrub 7 0 * 3600000000000 ≤ ((sDue []).time.lamp - SMap.getD (sDue []).power.scrubAt 7 0) * 12288) ∧
    ((sDue [(1, 0)]).power.running = [(1, 0)] ∧ (sDue [(2, 0)]).power.running = [(2, 0)] ∧
      (sDue [(1, 0)]).power.deferred = []) ∧
    ((4, 63) ∈ (sDue [(4, 63)]).power.running ∧ (portOf (sDue [(4, 63)]) 63).stopping = none) ∧
    ((sDue []).deep.copies[0]? = some ⟨8 * 2 ^ 17 * 16 * 3 * 32 - 1, 7⟩ ∧ rowStack (8 * 2 ^ 17 * 16 * 3 * 32 - 1) < 8) := by
  decide +kernel

/-! ### Package management -/

/-- The console with its FIFOs; LOG and EN are set. -/
def sUart (rx : List (Nat × Bool)) (tx : List Byte) : State :=
  { st [(R.uartCtl, 0x90000000)] with mgmt := { MgmtSt.start with rx := rx, tx := tx } }
theorem wit_ConsoleAndFlash :
    (flag (sUart [] []) R.uartCtl 30 = false ∧ (sUart [] (zeros 63)).mgmt.tx.length < 64 ∧
      64 ≤ (sUart [] (zeros 64)).mgmt.tx.length ∧ (sUart [(65, true)] []).mgmt.rx = [(65, true)]) ∧
    (flag (sUart [] [1#8]) R.uartCtl 31 = true ∧ flag (sUart [] []) R.uartCtl 28 = true ∧
      64 ≤ (sUart (List.replicate 64 (65, true)) []).mgmt.rx.length ∧
      flag (st [(R.uartCtl, 0)]) R.uartCtl 31 = false) ∧
    (locked sLocked = true ∧ locked State.reset = false ∧ State.reset.mgmt.spi = none) := by
  decide +kernel
/-- The flash of 4 MiB, `SPI_ADDR` at an address, an operation in progress or none. -/
def sFlash (a : Nat) (x : Option SpiOp) : State :=
  { st [(R.spiInfo, 22), (R.spiAddr, a), (R.spiData 15, 0x12345678)] with
    time := ⟨0, 5000000000, false, none, 0⟩
    mgmt := { MgmtSt.start with spi := x, flash := [(0xFC0, 0x0F#8), (0x1000, 1#8), (0x1FFF, 2#8), (0x2000, 3#8)] } }
theorem wit_BootFlash :
    (rd (sFlash 0x3FFFC0 none) R.spiAddr + 64 = 2 ^ getF (sFlash 0x3FFFC0 none) R.spiInfo 7 0 ∧
      2 ^ getF (sFlash 0x3FFFC1 none) R.spiInfo 7 0 < rd (sFlash 0x3FFFC1 none) R.spiAddr + 64 ∧
      rd (sFlash 0xFC1 none) R.spiAddr % 256 = 193 ∧ rd (sFlash 0xFC0 none) R.spiAddr % 256 = 192 ∧
      rd (sFlash 0x3FF000 none) R.spiAddr % 4096 = 0) ∧
    ((sFlash 0 (some ⟨1, 0xFC0, zeros 64, 0⟩)).mgmt.spi = some ⟨1, 0xFC0, zeros 64, 0⟩ ∧
      (sFlash 0 (some ⟨2, 0x1000, [], 0⟩)).mgmt.spi = some ⟨2, 0x1000, [], 0⟩ ∧
      0 + 5000000000 = (sFlash 0 (some ⟨2, 0x1000, [], 0⟩)).time.lamp) := by
  decide +kernel

/-- The alert is asserted; PEC is required. -/
def sAlert : State := { st [(R.i2cCtl, 0x80)] with mgmt := { MgmtSt.start with alert := true, straps := 3 } }
/-- SMB1 is stuck, told or not, and its recovery repeats now; ALERTEN is set. -/
def sStuck (told : Bool) : State :=
  { st [(R.mgtCtl, 4)] with time := ⟨0, 35000000, false, none, 0⟩, mgmt := { MgmtSt.start with stuck := some (35000000, told) } }
theorem wit_SideBuses :
    (flag sAlert R.i2cCtl 7 = true ∧ sAlert.mgmt.alert = true ∧ (499#16).toNat < 500 ∧ 500 ≤ (500#16).toNat ∧
      (2600#16).toNat ≤ 2600 ∧ 2600 < (2601#16).toNat) ∧
    (flag (sStuck true) R.mgtCtl 2 = true ∧ flag (st [(R.mgtCtl, 0)]) R.mgtCtl 2 = false ∧ outputFault 0x8000 = true ∧
      outputFault 0x7F0F = true ∧ outputFault 0x3FCF = false ∧ State.reset.mgmt.stuck = none ∧
      (sStuck false).mgmt.stuck = some (35000000, false) ∧ 35000000 ≤ (sStuck false).time.lamp) := by
  decide +kernel

/-- Pin 15 is an input on a rising edge, pin 0 a pulse pin whose timer expires now; IMON8 failed twice. -/
def sPins : State :=
  { st [(R.gpioCfg 15, 0x9), (R.gpioCfg 0, 0x00010104), (R.mgtCtl, 2)] with
    power := { State.reset.power with lamp := 1 }
    mgmt := { MgmtSt.start with pulses := [(0, 0)], imonBad := [0, 0, 0, 0, 0, 0, 0, 0, 2] } }
/-- The package is in lamp; WAKEEN is clear. -/
def sDeaf : State := { st [(R.mgtCtl, 0)] with power := { State.reset.power with lamp := 1 } }
theorem wit_PinsAndTestPort :
    (flag sPins R.gpioIn 15 ≠ true ∧ getF sPins (R.gpioCfg 15) 2 0 = 1 ∧ flag sPins (R.gpioCfg 15) 3 = true) ∧
    (SMap.find sPins.mgmt.pulses 0 = some 0 ∧ getF sPins (R.gpioCfg 0) 2 0 = 4 ∧ 0 ≤ sPins.time.lamp ∧
      getF sPins (R.gpioCfg 0) 15 8 ≠ 0) ∧
    (sPins.power.lamp = 1 ∧ flag sPins R.mgtCtl 1 = true ∧ flag sDeaf R.mgtCtl 1 = false) ∧
    (sPins.mgmt.imon.length = 9 ∧ sPins.mgmt.imonBad.length = 9 ∧ sPins.mgmt.imonBad[8]? = some 2) ∧
    (flag sPins R.glbFault 31 = false ∧ State.reset.mgmt.inReset = true ∧ (sBoot 0 []).mgmt.inReset = false) := by
  decide +kernel

/-! ### WellFormed -/

/-- One ill-formed command for each check: an offset that is not aligned or that the host does not reach; a line's address and
its struck bits, a codeword's address and its struck symbols, a pseudo-channel; an island, stacks, a rail's word, a doorbell page,
descriptors, a link unit, a lane, a training unit, a slowdown, samples, a self-test. -/
theorem test_illFormed :
    [Instr.registerWrite 2 0, .registerWrite 0x2004000 0, .registerWrite 0x6010000 0, .reg64LowWrite 0x2000000 0,
      .reg64LowRead 0x2008010, .bar0UnsupportedAccess 0x2000000 8,
      .hcopy r0 [] ⟨[(8, 1)], [], []⟩, .hcopy r0 [] ⟨[(1280 * 2 ^ 24, 1)], [], []⟩, .hcopy r0 [] ⟨[(16, 0)], [], []⟩,
      .hcopy r0 [] ⟨[(16, 3)], [], []⟩, .hcopy r0 [] ⟨[], [(32, 1)], []⟩, .hcopy r0 [] ⟨[], [(0x18000000000, 1)], []⟩,
      .hcopy r0 [] ⟨[], [(64, 0)], []⟩, .hcopy r0 [] ⟨[], [(64, 5)], []⟩, .hcopy r0 [] ⟨[], [], [256]⟩,
      .healthEvaluate ⟨[(1280, 0)], 0, List.replicate 8 0, 0⟩,
      .healthEvaluate ⟨[], 0, [0], 0⟩, .pmbusIoutPoll [⟨0, 0, 65536⟩], .doorbellPoll 0 (zeros 63) (List.replicate 256 0),
      .doorbellPoll 0 (zeros 64) [], .descriptorFetch 0 0 0 [], .descriptorFetch 0 0 0 (zeros 65),
      .linkUnitReceive 0 (zeros 15) false [], .linkUnitReceive 0 (zeros 16) false [(8, 1)],
      .trainingUnitReceive 0 (zeros 31) 0, .maintenanceEnd 1 0 [(1280, 0)] Upsets.none, .imonSample [], .selfTest ⟨[1280], [], false⟩,
      .selfTest ⟨[], [16], false⟩, .bar0AccessWake 1].all (fun i => !Instr.wf i) = true := by
  decide +kernel
/-- Well-formed commands at the edges of the same checks. -/
theorem test_wellFormed :
    [Instr.registerWrite 0x1FFFFFC 0, .registerWrite 0x2003FFC 0, .registerWrite 0x600FFFC 0, .reg64LowRead 0x200800C,
      .bar0UnsupportedAccess 0x1FFFFFF 8,
      .hcopy r0 [] ⟨[(16, 1), (1280 * 2 ^ 24 - 16, 2)], [(64, 1), (0x18000000000 - 64, 4)], [0, 255]⟩,
      .healthEvaluate ⟨[(1279, 0)], 0, List.replicate 8 0, 0⟩, .pmbusIoutPoll [⟨0, 0, 65535⟩],
      .linkUnitReceive 0 (zeros 16) false [(7, 1)], .trainingUnitReceive 0 (zeros 32) 0, .selfTest ⟨[1279], [15], false⟩,
      .maintenanceEnd 1 0 [(1279, 0)] Upsets.none].all Instr.wf = true := by
  decide +kernel

end Sys2Proof.Tests
end

section
/-! PROOFS. What the write of a 64-bit register's high word commits (00 R11, R14), and the
statements of 00_scope.md. -/

namespace Sys2Proof.Machine

/-! ### Registers of two words -/

/-- A 64-bit register reads as what was written. -/
theorem rd64_wr64_same (s : State) (off x : Nat) : rd64 (wr64 s off x) off = x % 2 ^ 64 := by
  have hlow : rd (wr64 s off x) off = x % 2 ^ 32 % 2 ^ 32 := by
    rw [wr64, rd_wr_ne _ _ (by omega : off ≠ off + 4), rd_wr_same]
  have hhigh : rd (wr64 s off x) (off + 4) = x / 2 ^ 32 % 2 ^ 32 := rd_wr_same _ _ _
  rw [rd64, hlow, hhigh]
  omega

/-- A write of a 64-bit register leaves every register but its two words. -/
theorem sameRegs_wr64 (s : State) (off x : Nat) : sameRegs s (wr64 s off x) [off, off + 4] :=
  sameRegs_trans (sameRegs_wr s _ (by simp)) (sameRegs_wr _ _ (by simp))

/-- A write of a 64-bit register changes nothing but the registers. -/
theorem wr64_eq (s : State) (off x : Nat) : wr64 s off x = { s with regs := (wr64 s off x).regs } := rfl

/-- A row of one RW-L field that fills both words (`FAB_FLIPAT`, `TB_SET`). -/
def wholeRwl (base reset : Nat) : RegRow := ⟨base, [], 2, [⟨63, 0, .rwl, reset⟩]⟩

/-- Before the lock either word of such a row takes the low 32 bits of what is written; what the old number holds above
32 bits stays. -/
theorem write_wholeRwl (base reset old v : Nat) {w : Nat} (hw : w < 2) :
    RegRow.write (wholeRwl base reset) w false old v = old / 2 ^ 32 * 2 ^ 32 + v % 2 ^ 32 := by
  have hfield : RegRow.write (wholeRwl base reset) w false old v = setBits old 31 0 (bits v 31 0) := by
    obtain rfl | rfl : w = 0 ∨ w = 1 := by omega
    · rfl
    · rfl
  rw [hfield, setBits_eq _ _ (by omega)]
  simp [bits, Nat.mod_one]

/-! ### The write of a high word -/

/-- The write of the high word of a 64-bit register whose low word is held commits both (R14). -/
theorem bar0Write_high64 {s : State} {base l : Nat} {r : RegRow} (v : Nat) (hr : regAt (base + 4) = some (r, 1))
    (hw : r.words ≠ 1) (hs : s.held = some (base, l)) :
    bar0Write false (base + 4) v s = commit64 (locked s) { s with held := none } base
      (RegRow.write r 0 (locked s) (rd s base) l + 2 ^ 32 * RegRow.write r 1 (locked s) (rd s (base + 4)) v) := by
  simp only [bar0Write, hr, if_neg hw, dropHeld, hs, closedTo, Nat.mul_one, Nat.add_sub_cancel, if_true,
    Bool.not_false, Bool.and_true, if_neg (by decide : ¬ (1 : Nat) = 0)]

/-- What a register's two entries hold above 32 bits each, in units of 2^32: 0 where both are words. -/
def excess64 (s : State) (base : Nat) : Nat := rd s base / 2 ^ 32 + 2 ^ 32 * (rd s (base + 4) / 2 ^ 32)

/-- The number that the write of a high word v commits over a held low word lo. -/
def committed64 (s : State) (base : Nat) (lo v : Word) : Nat :=
  lo.toNat + 2 ^ 32 * v.toNat + 2 ^ 32 * excess64 s base

/-- Where the low entry is a word, the number committed is the one written, as far as 64 bits go. -/
theorem committed64_mod {s : State} {base : Nat} (lo v : Word) (h : rd s base < 2 ^ 32) :
    committed64 s base lo v % 2 ^ 64 = lo.toNat + 2 ^ 32 * v.toNat := by
  have hlo := lo.isLt
  have hv := v.isLt
  rw [committed64, excess64, Nat.div_eq_of_lt h]
  omega

/-- Before the lock the high word of a register with one RW-L field commits the held low word, the high word, and whatever
stood above 32 bits. -/
theorem bar0Write_high64_rwl {s : State} {base reset : Nat} {lo : Word} (v : Word)
    (hr : regAt (base + 4) = some (wholeRwl base reset, 1)) (hl : locked s = false)
    (hs : s.held = some (base, lo.toNat)) :
    bar0Write false (base + 4) v.toNat s = commit64 false { s with held := none } base (committed64 s base lo v) := by
  have hval : ∀ x y : Nat, x / 2 ^ 32 * 2 ^ 32 + lo.toNat % 2 ^ 32 + 2 ^ 32 * (y / 2 ^ 32 * 2 ^ 32 + v.toNat % 2 ^ 32) =
      lo.toNat + 2 ^ 32 * v.toNat + 2 ^ 32 * (x / 2 ^ 32 + 2 ^ 32 * (y / 2 ^ 32)) := by
    intro x y
    rw [Nat.mod_eq_of_lt lo.isLt, Nat.mod_eq_of_lt v.isLt]
    ring
  rw [bar0Write_high64 v.toNat hr (by decide : (2 : Nat) ≠ 1) hs, hl, write_wholeRwl _ _ _ _ (by decide),
    write_wholeRwl _ _ _ _ (by decide), hval]
  rfl

/-! ### `FAB_FLIPAT` (R14) -/

/-- The high word of `FAB_FLIPAT`, written with the low word held, commits the register. -/
theorem exec_reg64HighWrite_fabFlipat {s : State} {lo : Word} (v : Word) (hl : locked s = false)
    (hs : s.held = some (R.fabFlipat, lo.toNat)) :
    exec (.reg64HighWrite (R.fabFlipat + 4) v) s =
      .next (wr64 { s with held := none } R.fabFlipat (committed64 s R.fabFlipat lo v)) := by
  have hhigh : isHigh64 (R.fabFlipat + 4) = true := by decide
  have hrow : regAt (R.fabFlipat + 4) = some (wholeRwl R.fabFlipat 0, 1) := by decide
  have hexec : exec (.reg64HighWrite (R.fabFlipat + 4) v) s = execReg64HighWrite (R.fabFlipat + 4) v s := rfl
  rw [hexec, execReg64HighWrite, if_pos hhigh, bar0Write_high64_rwl v hrow hl hs]
  rfl

/-- R14, where `FAB_FLIPAT`'s low entry is a word: the clause of `Obligations.RegisterAccess` that fails of other states. -/
theorem reg64HighWrite_fabFlipat_of_word {s : State} {lo : Word} (v : Word) (hl : locked s = false)
    (hs : s.held = some (R.fabFlipat, lo.toNat)) (hword : rd s R.fabFlipat < 2 ^ 32) :
    ∃ t : State, exec (.reg64HighWrite (R.fabFlipat + 4) v) s = .next t ∧
      rd64 t R.fabFlipat = lo.toNat + 2 ^ 32 * v.toNat ∧
      t = { s with regs := t.regs, held := none } ∧ sameRegs s t [R.fabFlipat, R.fabFlipat + 4] :=
  ⟨_, exec_reg64HighWrite_fabFlipat v hl hs, by rw [rd64_wr64_same, committed64_mod lo v hword], rfl,
    sameRegs_trans (sameRegs_of_regs rfl _) (sameRegs_wr64 _ _ _)⟩

/-! ### `TB_SET` (13 R476, 18 R644) -/

/-- A step of the time base sets it, modulo its 96 bits. -/
theorem stepTo_now (s : State) (x : Nat) : (stepTo s x).time.now = x % 2 ^ 96 := rfl

/-- A step of the time base changes nothing else but registers. -/
theorem stepTo_eq (s : State) (x : Nat) :
    stepTo s x = { s with regs := (stepTo s x).regs, time := { s.time with now := (stepTo s x).time.now } } := rfl

/-- A step of the time base is told in `TB_STAT` alone. -/
theorem sameRegs_stepTo (s : State) (x : Nat) {offs : List Nat} (h : R.tbStat ∈ offs) : sameRegs s (stepTo s x) offs :=
  fun _ ho => rd_raise_ne { s with time := { s.time with now := x % 2 ^ 96 } } 4 fun e => ho (e ▸ h)

/-- A step of the time base sets `TB_STAT.STEP`. -/
theorem flag_stepTo (s : State) (x : Nat) : flag (stepTo s x) R.tbStat 4 = true := flag_raise_same _ _ (by decide)

/-- In FREE the high word of `TB_SET`, written with the low word held, steps the time base to the number committed. -/
theorem exec_timeSet_free {s : State} {lo : Word} (v : Word) (hl : locked s = false) (hg : gangState s = 0)
    (hs : s.held = some (R.tbSet, lo.toNat)) :
    exec (.timeSet v) s =
      .next (stepTo (wr64 { s with held := none } R.tbSet (committed64 s R.tbSet lo v))
        (committed64 s R.tbSet lo v * 2 ^ 32)) := by
  have hrow : regAt (R.tbSet + 4) = some (wholeRwl R.tbSet 0, 1) := by decide
  have hexec : exec (.timeSet v) s = .next (bar0Write false (R.tbSet + 4) v.toNat s).1 := rfl
  have hfree : gangState { s with held := none } = 0 := hg
  rw [hexec, bar0Write_high64_rwl v hrow hl hs, commit64, if_pos rfl, if_neg Bool.false_ne_true, commitTbSet,
    if_pos hfree]

/-- R476, where `TB_SET`'s low entry is a word: the clause of `Obligations.GlobalWrites` that fails of other states. -/
theorem timeSet_of_word {s : State} {lo : Word} (v : Word) (hl : locked s = false) (hg : gangState s = 0)
    (hs : s.held = some (R.tbSet, lo.toNat)) (hword : rd s R.tbSet < 2 ^ 32) :
    ∃ t : State, exec (.timeSet v) s = .next t ∧ t.time.now = (lo.toNat + 2 ^ 32 * v.toNat) * 2 ^ 32 ∧
      flag t R.tbStat 4 = true ∧
      t = { s with regs := t.regs, held := none, time := { s.time with now := t.time.now } } ∧
      sameRegs s t [R.tbSet, R.tbSet + 4, R.tbStat] := by
  have hnow : committed64 s R.tbSet lo v * 2 ^ 32 % 2 ^ 96 = (lo.toNat + 2 ^ 32 * v.toNat) * 2 ^ 32 := by
    have hmod := committed64_mod lo v hword
    omega
  have hregs : sameRegs { s with held := none } (wr64 { s with held := none } R.tbSet (committed64 s R.tbSet lo v))
      [R.tbSet, R.tbSet + 4, R.tbStat] := sameRegs_trans (sameRegs_wr _ _ (by simp)) (sameRegs_wr _ _ (by simp))
  exact ⟨_, exec_timeSet_free v hl hg hs, (stepTo_now _ _).trans hnow, flag_stepTo _ _, stepTo_eq _ _,
    sameRegs_trans (sameRegs_trans (sameRegs_of_regs rfl _) hregs) (sameRegs_stepTo _ _ (by simp))⟩

/-! ### The states that refute -/

/-- The state after reset, but the entry of the low word of a 64-bit register holds 2^32, which is no 32-bit word, and a low word
0 is held for that register. -/
def overfullAt (base : Nat) : State := { State.reset with regs := [(base, 2 ^ 32)], held := some (base, 0) }

end Sys2Proof.Machine

open Sys2Proof Sys2Proof.Machine

/-- Refutes O9. The statement speaks of every `State`, and the entries of `State.regs` are natural numbers: where the entry of
`FAB_FLIPAT`'s low word holds 2^32, the write of the high word keeps what stands above bit 31 and carries it into the high word, so
that 0 written over a held 0 commits 2^32. No write makes such an entry (`rd_wr_same`); where the entry is a word the clause holds
(`reg64HighWrite_fabFlipat_of_word`). -/
theorem not_registerAccess : ¬ Obligations.RegisterAccess := by
  unfold Obligations.RegisterAccess
  rintro ⟨-, -, -, hhigh, -⟩
  have hl : locked (overfullAt R.fabFlipat) = false := by decide +kernel
  obtain ⟨t, ht, hvalue, -⟩ := hhigh (overfullAt R.fabFlipat) 0 0 hl rfl
  obtain rfl := Host.Outcome.next.inj ((exec_reg64HighWrite_fabFlipat (lo := 0) 0 hl rfl).symm.trans ht)
  have hcommit : committed64 (overfullAt R.fabFlipat) R.fabFlipat 0 0 = 2 ^ 32 := by decide +kernel
  rw [rd64_wr64_same, hcommit] at hvalue
  exact absurd hvalue (by decide)

/-- Refutes O10. As for O9: where the entry of `TB_SET`'s low word holds 2^32, the write of 0 to the high word over a held 0 steps
the time base to 2^32 ns and not to 0. Where the entry is a word the clause holds (`timeSet_of_word`). -/
theorem not_globalWrites : ¬ Obligations.GlobalWrites := by
  unfold Obligations.GlobalWrites
  rintro ⟨-, -, -, htime⟩
  have hl : locked (overfullAt R.tbSet) = false := by decide +kernel
  have hg : gangState (overfullAt R.tbSet) = 0 := by decide +kernel
  obtain ⟨t, ht, hnow, -⟩ := htime (overfullAt R.tbSet) 0 0 hl hg rfl
  obtain rfl := Host.Outcome.next.inj ((exec_timeSet_free (lo := 0) 0 hl hg rfl).symm.trans ht)
  have hcommit : committed64 (overfullAt R.tbSet) R.tbSet 0 0 = 2 ^ 32 := by decide +kernel
  rw [stepTo_now, hcommit] at hnow
  exact absurd hnow (by decide)

end

section
/-! PROOFS. What the operations of a work list share where no error stands (04 R134, R135): reads and writes of the stores, flags,
what a run of steps keeps, and the row of a core. -/

namespace Sys2Proof.Machine

/-! ### Runs of bytes -/

/-- Two runs written one after the other are one run. -/
theorem memWriteN_append (m : List (Nat × Byte)) (a : Nat) (bs cs : List Byte) :
    memWriteN m a (bs ++ cs) = memWriteN (memWriteN m a bs) (a + bs.length) cs := by
  induction bs generalizing m a with
  | nil => rfl
  | cons b r ih => simp only [List.cons_append, memWriteN, List.length_cons, ih, Nat.add_assoc, Nat.add_comm 1]

/-- Pieces of one length, in a row. -/
theorem length_flatMap_range {f : Nat → List Byte} {w : Nat} (hf : ∀ c, (f c).length = w) (n : Nat) :
    ((List.range n).flatMap f).length = w * n := by
  simp [List.length_flatMap, hf, Nat.mul_comm]

/-- A run read in two parts. -/
theorem memReadN_add (m : List (Nat × Byte)) (a i n : Nat) :
    memReadN m a (i + n) = memReadN m a i ++ memReadN m (a + i) n := by
  simp only [memReadN, upto, List.range_add, List.map_append, List.map_map]
  congr 1
  exact List.map_congr_left fun j _ => congrArg (memRead m) (by simp only [Function.comp_apply]; omega)

@[simp] theorem memReadN_length (m : List (Nat × Byte)) (a n : Nat) : (memReadN m a n).length = n := by
  simp [memReadN, upto]

/-- Where a run reads as pieces of one length in a row, each piece reads in its place. -/
theorem memReadN_piece {m : List (Nat × Byte)} {a : Nat} {f : Nat → List Byte} {w : Nat} (hf : ∀ c, (f c).length = w)
    {n c : Nat} (h : memReadN m a (w * n) = (List.range n).flatMap f) (hc : c < n) :
    memReadN m (a + w * c) w = f c := by
  induction n with
  | zero => omega
  | succ n ih =>
    rw [Nat.mul_succ, memReadN_add, List.range_succ, List.flatMap_append, List.flatMap_singleton] at h
    obtain ⟨hinit, hlast⟩ := List.append_inj h (by rw [memReadN_length, length_flatMap_range hf])
    obtain rfl | hlt : c = n ∨ c < n := by omega
    · exact hlast
    · exact ih hinit hlt

@[simp] theorem leBytes_length (n v : Nat) : (leBytes n v).length = n := by
  induction n generalizing v with
  | zero => rfl
  | succ n ih => simp [leBytes, ih]

/-- A number written little-endian reads back modulo its bytes. -/
theorem leNat_leBytes (n v : Nat) : leNat (leBytes n v) = v % 256 ^ n := by
  induction n generalizing v with
  | zero => simp [leBytes, leNat, Nat.mod_one]
  | succ n ih =>
    rw [leBytes, leNat, ih, BitVec.toNat_ofNat, show 2 ^ 8 = 256 from rfl, Nat.pow_succ', Nat.mod_mul]

/-- A part of a mapped run lies where the run does. -/
theorem localAt_part {own : Option Nat} {a m x i l : Nat} (h : localAt own a m = some x) (hl : 0 < l) (hi : i + l ≤ m) :
    localAt own (a + i) l = some (x + i) := by
  unfold localAt at h ⊢
  split at h
  · split at h
    · obtain rfl := Option.some.inj h
      rw [if_pos (by omega), if_pos (by omega)]
    · cases h
  · split at h
    · split at h
      · obtain rfl := Option.some.inj h
        rw [if_neg (by omega), if_pos (by omega), if_pos (by omega)]
      · cases h
    · split at h
      next halias =>
        have halias' : 0x800000 ≤ a + i ∧ a + i + l ≤ 0x80C000 ∧ a + i < 0x80C000 := by omega
        obtain ⟨c, hc, rfl⟩ := Option.map_eq_some_iff.1 h
        rw [if_neg (by omega), if_neg (by omega), if_pos halias']
        exact Option.map_eq_some_iff.2 ⟨c, hc, by omega⟩
      · cases h

/-! ### Reads and writes where no error stands -/

/-- No line and no codeword stands in error, and the command at hand strikes none. -/
structure Quiet (s : State) : Prop where
  noUe : noUe s
  ups : s.ups = Upsets.none

/-- The state with a byte run in the stores at a key. -/
def storeBytes (s : State) (a : Nat) (bs : List Byte) : State :=
  { s with comp := { s.comp with store := memWriteN s.comp.store a bs } }

theorem storeBytes_append (s : State) (a : Nat) (bs cs : List Byte) :
    storeBytes s a (bs ++ cs) = storeBytes (storeBytes s a bs) (a + bs.length) cs := by
  simp only [storeBytes, memWriteN_append]

theorem Quiet.storeBytes {s : State} (h : Quiet s) (a : Nat) (bs : List Byte) : Quiet (storeBytes s a bs) :=
  ⟨h.noUe, h.ups⟩

/-- Where no error stands a read of the stores meets none. -/
theorem Quiet.meetStore_eq {s : State} (h : Quiet s) (runs : List (Nat × Nat)) : meetStore s runs = (s, false) := by
  obtain ⟨⟨hstore, -, -⟩, hups⟩ := h
  have hpast : Upsets.past s.ups runs [] = s.ups := by rw [hups]; rfl
  have hce : Upsets.storeCe s.ups = [] := by rw [hups]; rfl
  have hue : firstUe s runs = none := by simp [firstUe, hstore]
  simp only [meetStore, hce, List.foldl_nil, hpast, hue]

/-- Where no error stands a read of deep store meets none. -/
theorem Quiet.meetDeep_eq {s : State} (h : Quiet s) (src : Nat) (runs : List (Nat × Nat)) :
    meetDeep s src runs = (s, false) := by
  obtain ⟨⟨-, hue, hlost⟩, hups⟩ := h
  have hpast : Upsets.past s.ups [] runs = s.ups := by rw [hups]; rfl
  have hce : Upsets.deepCe s.ups = [] := by rw [hups]; rfl
  have hhit : (runs.findSome? fun r => ((deepHits s.deep.ue r.1 r.2).head?).or (lostHit s r.1 r.2)) = none := by
    simp [deepHits, lostHit, hue, hlost]
  simp only [meetDeep, hce, List.foldl_nil, hpast, hhit]

/-- Where no error stands the reads of a step meet none. -/
theorem Quiet.meetRuns_eq {s : State} (h : Quiet s) (src : Nat) (rs : Runs) : meetRuns s src rs = (s, false) := by
  simp only [meetRuns, h.meetStore_eq, h.meetDeep_eq, Bool.false_eq_true, if_false]

/-- Where no error stands a write to the stores is the write of its bytes alone. -/
theorem Quiet.putStore_eq {s : State} (h : Quiet s) (a : Nat) (bs : List Byte) :
    putStore s a bs = (Machine.storeBytes s a bs, false) := by
  have hue := h.noUe.1
  have hst : s.ups.store = [] := by rw [h.ups]; rfl
  have hsame : ({ s with comp := { s.comp with store := memWriteN s.comp.store a bs, storeUe := [] } } : State) =
      Machine.storeBytes s a bs := by rw [Machine.storeBytes, ← hue]
  simp only [putStore, writeKey_clean hue, hst, List.isEmpty_nil, and_self, if_true, hsame]

/-- An own-cluster write of mapped bytes. -/
theorem Quiet.putLocal_eq {s : State} (h : Quiet s) {core a x : Nat} {bs : List Byte}
    (hx : localAt (some (core % 64)) a bs.length = some x) :
    putLocal s core a bs = (Machine.storeBytes s (storeKey (core / 64) x) bs, false) := by
  simp only [putLocal, hx, h.putStore_eq]

/-- A write of one run to an operand in the core's own cluster. -/
theorem Quiet.putOp_own_eq {s : State} (h : Quiet s) {core fn w a : Nat} {org : Origin} {rm : Remote} (hw : space w = 0)
    (ha : opKey core w 0 = some a) (bs : List Byte) :
    putOp s core fn org rm w [(0, bs)] = (Machine.storeBytes s a bs, false) := by
  obtain ⟨x, hx, rfl⟩ := Option.map_eq_some_iff.1 ha
  have hclu : opClu core w = core / 64 := if_pos hw
  simp only [putOp, hw, hx, hclu, h.putStore_eq, List.foldl_cons, List.foldl_nil, Bool.or_self, if_true,
    if_neg (by decide : ¬ (0 : Nat) = 3), if_neg (by decide : ¬ (0 : Nat) = 2)]

/-- Pieces written one after the other at own-cluster addresses in a row are one run; none meets an error. -/
theorem foldl_putLocal {s : State} (h : Quiet s) {core a x w : Nat} {f : Nat → List Byte} (hw : 0 < w)
    (hf : ∀ c, (f c).length = w) {n : Nat} (hx : localAt (some (core % 64)) a (w * n) = some x) :
    ∀ m ≤ n, (List.range m).foldl (fun (q : State × Bool) c =>
        ((putLocal q.1 core (a + w * c) (f c)).1, q.2 || (putLocal q.1 core (a + w * c) (f c)).2)) (s, false) =
      (storeBytes s (storeKey (core / 64) x) ((List.range m).flatMap f), false) := by
  intro m
  induction m with
  | zero => intro _; rfl
  | succ m ih =>
    intro hm
    have hle : w * m + w ≤ w * n := by
      calc w * m + w = w * (m + 1) := by ring
        _ ≤ w * n := Nat.mul_le_mul_left w hm
    have hat : localAt (some (core % 64)) (a + w * m) (f m).length = some (x + w * m) := by
      rw [hf]; exact localAt_part hx hw hle
    have hkey : storeKey (core / 64) (x + w * m) = storeKey (core / 64) x + w * m := by simp only [storeKey]; omega
    rw [List.range_succ, List.foldl_append, ih (by omega), List.foldl_cons, List.foldl_nil,
      (h.storeBytes _ _).putLocal_eq hat, List.flatMap_append, List.flatMap_singleton, storeBytes_append,
      length_flatMap_range hf, hkey, Bool.or_false]

/-! ### What an operation keeps -/

/-- What a run of an operation keeps: the running list, every byte of the stores but n at key a, every register but the die's
`CPX_FPSTAT`, deep store, remote state, the outbox, and that no error stands. -/
structure OpKeeps (core fn a n : Nat) (s t : State) : Prop where
  run : (seqOf t core fn).run = (seqOf s core fn).run
  store : ∀ x, x < a ∨ a + n ≤ x → memRead t.comp.store x = memRead s.comp.store x
  regs : sameRegs s t [R.cpxFpstat (core / 10240)]
  deep : t.deep = s.deep
  rem : t.rem = s.rem
  outbox : t.outbox = s.outbox
  ups : t.ups = s.ups
  storeUe : t.comp.storeUe = s.comp.storeUe

variable {core fn a n : Nat} {s t u : State}

theorem OpKeeps.refl (core fn a n : Nat) (s : State) : OpKeeps core fn a n s s :=
  ⟨rfl, fun _ _ => rfl, sameRegs_refl _ _, rfl, rfl, rfl, rfl, rfl⟩

theorem OpKeeps.trans (h : OpKeeps core fn a n s t) (h' : OpKeeps core fn a n t u) : OpKeeps core fn a n s u :=
  ⟨h'.run.trans h.run, fun x hx => (h'.store x hx).trans (h.store x hx), sameRegs_trans h.regs h'.regs,
    h'.deep.trans h.deep, h'.rem.trans h.rem, h'.outbox.trans h.outbox, h'.ups.trans h.ups, h'.storeUe.trans h.storeUe⟩

theorem OpKeeps.quiet (h : OpKeeps core fn a n s t) (hs : Quiet s) : Quiet t := by
  obtain ⟨⟨hstore, hue, hlost⟩, hups⟩ := hs
  exact ⟨⟨h.storeUe.trans hstore, by rw [h.deep, hue], by rw [h.deep, hlost]⟩, h.ups.trans hups⟩

/-- A byte run within the n bytes written keeps what stands outside them. -/
theorem OpKeeps.storeBytes (core fn : Nat) (s : State) {bs : List Byte} (h : bs.length ≤ n) :
    OpKeeps core fn a n s (storeBytes s a bs) :=
  ⟨rfl, fun _ hx => memRead_memWriteN_out _ bs (by omega), sameRegs_refl _ _, rfl, rfl, rfl, rfl, rfl⟩

/-- The flags of a step are told in the list's own set and in `CPX_FPSTAT` alone (02 R92). -/
theorem OpKeeps.raiseFlags (core fn a n : Nat) (s : State) (fl : FpFlags) :
    OpKeeps core fn a n s (raiseFlags s core fn fl) where
  run := by
    have hseq : seqOf (Machine.raiseFlags s core fn fl) core fn =
        { seqOf s core fn with flags := (seqOf s core fn).flags.or fl } := seqOf_setSeq_same s core fn _
    rw [hseq]
  store _ _ := rfl
  regs := sameRegs_trans (sameRegs_of_regs (setSeq_regs s core fn _) _) (sameRegs_wr _ _ (by simp))
  deep := rfl
  rem := rfl
  outbox := rfl
  ups := rfl
  storeUe := rfl

/-- A step that converts nothing is noted by its flags alone. -/
theorem noteStep_of_tile_eq (s : State) (core fn : Nat) {old new : EmitAcc} (h : new.t = old.t) :
    noteStep s core fn old new = raiseFlags s core fn (new.fl.or new.t.flags) := by
  simp [noteStep, countOf, h]

/-! ### Runs of steps -/

/-- Steps none of which is bad, with no stop between them: an invariant that each one keeps holds after the last. -/
theorem stepsFrom_all {α : Type} {f : α → Nat → α} {bad : α → Bool} (P : Nat → α → Prop) (n : Nat) :
    ∀ (j : Nat) (a : α), P j a →
      (∀ i b, j ≤ i → i < j + n → P i b → P (i + 1) (f b i) ∧ bad (f b i) = false) →
      ∃ b, stepsFrom f bad false n j a = (b, j + n) ∧ P (j + n) b := by
  induction n with
  | zero => exact fun j a h0 _ => ⟨a, rfl, h0⟩
  | succ n ih =>
    intro j a h0 hstep
    obtain ⟨h1, hbad⟩ := hstep j a le_rfl (by omega) h0
    obtain ⟨b, hb, hP⟩ := ih (j + 1) (f a j) h1 fun i c hi hi' => hstep i c (by omega) (by omega)
    rw [show j + (n + 1) = j + 1 + n by omega]
    exact ⟨b, by simp only [stepsFrom, hbad, Bool.or_self, Bool.false_eq_true, if_false, hb], hP⟩

/-! ### The row of a core -/

theorem coreNo_div_64 (k : CoreId) : k.no / 64 = k.clu := by
  have := k.c.isLt
  simp only [CoreId.no]; omega

theorem coreNo_div_10240 (k : CoreId) : k.no / 10240 = k.d := by
  have := k.c.isLt
  have := k.i.isLt
  simp only [CoreId.no, CoreId.clu, cluNo]; omega

/-- The running list that a row of a core acts on. -/
theorem run_of_current {k : CoreId} {r : RunList} (h : current s k = some (fn, r)) : (seqOf s k.no fn).run = some r := by
  unfold current at h
  cases hf : residentAwake s k.clu with
  | none => simp [hf] at h
  | some f =>
    simp only [hf, Option.map_eq_some_iff, Prod.mk.injEq] at h
    obtain ⟨r', hr, rfl, rfl⟩ := h
    exact hr

/-- The state in which a command that strikes nothing is carried out. -/
def unstruck (s : State) : State := { s with ups := Upsets.none }

theorem quiet_unstruck (h : noUe s) : Quiet (unstruck s) := ⟨h, rfl⟩

/-- The state that the row of a core leaves where its operation, carried out, left u. -/
def rowDone (s u : State) (k : CoreId) (fn : Nat) : State :=
  markBusy k.clu s (unstruck (finish u k.no fn false))

/-- A row of a core with no upset, whose operation is issued and leaves u. -/
theorem coreRow_onOp {k : CoreId} {r : RunList} {p : List Byte → Bool} {f : State → Nat → RunList → State}
    (hc : current s k = some (fn, r)) (hi : r.phase = .issued) (hp : p r.desc = true)
    (hf : f (unstruck s) fn r = finish u k.no fn false) :
    coreRow k Upsets.none (fun s => onOp s k p (f s)) s = .next (rowDone s u k fn) := by
  have hrow : coreRow k Upsets.none (fun s => onOp s k p (f s)) s =
      .next (markBusy k.clu s (unstruck (onOp (unstruck s) k p (f (unstruck s))))) := rfl
  have hc' : current (unstruck s) k = some (fn, r) := hc
  rw [hrow, onOp, hc']
  simp only [hi, hp, and_self, if_true, hf]
  rfl

/-- That an island stays busy changes nothing but its idle time. -/
theorem markBusy_eq (g : Nat) (s t : State) : markBusy g s t = { t with power := (markBusy g s t).power } := by
  unfold markBusy
  split <;> rfl

/-- Where an operation was carried out its list goes on, and what the operation keeps the row keeps. -/
theorem rowDone_keeps {k : CoreId} {r : RunList} (hc : current s k = some (fn, r))
    (h : OpKeeps k.no fn a n (unstruck s) u) :
    (seqOf (rowDone s u k fn) k.no fn).run = some { r with phase := .done, part := none } ∧
    (rowDone s u k fn).comp.store = u.comp.store ∧
    (∀ x, x < a ∨ a + n ≤ x → memRead (rowDone s u k fn).comp.store x = memRead s.comp.store x) ∧
    sameRegs s (rowDone s u k fn) [R.cpxFpstat k.d] ∧ (rowDone s u k fn).deep = s.deep ∧
    (rowDone s u k fn).rem = s.rem ∧ (rowDone s u k fn).outbox = s.outbox := by
  have hrun : (seqOf u k.no fn).run = some r := h.run.trans (run_of_current hc)
  have hfin : finish u k.no fn false = setRun u k.no fn { r with phase := .done, part := none } := by
    simp only [finish, Bool.false_eq_true, if_false, hrun]
  have hregs : sameRegs s u [R.cpxFpstat k.d] := coreNo_div_10240 k ▸ h.regs
  have hseq := seqOf_setSeq_same u k.no fn
    { seqOf u k.no fn with run := some { r with phase := .done, part := none } }
  rw [rowDone, hfin, markBusy_eq]
  exact ⟨congrArg SeqSt.run hseq, rfl, h.store, sameRegs_trans hregs (sameRegs_of_regs rfl _), h.deep, h.rem, h.outbox⟩

end Sys2Proof.Machine
end

section
/-! PROOFS. Images as bytes (Table ENG-7): an image that la_enter forms is read back from its 48 bytes. -/

namespace Sys2Proof.Machine

/-- The integers that w bits hold in two's complement. -/
def TwosRange (w : Nat) (z : Int) : Prop := -2 ^ (w - 1) ≤ z ∧ z < 2 ^ (w - 1)

theorem twosRange_zero (w : Nat) : TwosRange w 0 := ⟨neg_nonpos.2 (by positivity), by positivity⟩

/-- A two's complement number lies in its range. -/
theorem sext_range {w : Nat} (hw : 0 < w) (n : Nat) : TwosRange w (sext w n) := by
  obtain ⟨v, rfl⟩ : ∃ v, w = v + 1 := ⟨w - 1, by omega⟩
  have hlt : n % 2 ^ (v + 1) < 2 ^ (v + 1) := Nat.mod_lt _ (by positivity)
  have hpow : (2 : Int) ^ v = ((2 ^ v : Nat) : Int) := by push_cast; rfl
  simp only [TwosRange, sext, Nat.add_sub_cancel, hpow]
  rw [Nat.pow_succ] at hlt ⊢
  split <;> omega

/-- A number in the range of w bits is read back from its two's complement. -/
theorem sext_twos {w : Nat} (hw : 0 < w) {z : Int} (hz : TwosRange w z) : sext w (twos w z) = z := by
  obtain ⟨v, rfl⟩ : ∃ v, w = v + 1 := ⟨w - 1, by omega⟩
  have hpow : (2 : Int) ^ v = ((2 ^ v : Nat) : Int) := by push_cast; rfl
  simp only [TwosRange, Nat.add_sub_cancel, hpow] at hz
  simp only [sext, twos, Nat.add_sub_cancel]
  rw [Nat.pow_succ]
  generalize 2 ^ v = p at hz ⊢
  by_cases hneg : z < 0
  · have hmod : z % ((p * 2 : Nat) : Int) = z + (p * 2 : Nat) := by
      rw [← Int.add_emod_right, Int.emod_eq_of_lt (by omega) (by omega)]
    rw [hmod, Nat.mod_eq_of_lt (by omega), if_neg (by omega)]
    omega
  · have hmod : z % ((p * 2 : Nat) : Int) = z := Int.emod_eq_of_lt (by omega) (by omega)
    rw [hmod, Nat.mod_eq_of_lt (by omega), if_pos (by omega)]
    omega

theorem twos_lt (w : Nat) (z : Int) : twos w z < 2 ^ w := by
  have hpos : (0 : Int) < ((2 ^ w : Nat) : Int) := by positivity
  have h0 := Int.emod_nonneg z hpos.ne'
  have h1 := Int.emod_lt_of_pos z hpos
  simp only [twos]
  omega

/-- A two's complement of n bytes. -/
theorem twos_lt_bytes (n : Nat) (z : Int) : twos (8 * n) z < 256 ^ n := by
  rw [show 256 = 2 ^ 8 from rfl, ← Nat.pow_mul]
  exact twos_lt _ z

/-- The four flags of an image in one word. -/
def flagWord (a b c d : Bool) : Nat := b2n a + 2 * b2n b + 4 * b2n c + 8 * b2n d

/-- Four flags are read back from the low byte of their word. -/
theorem bit_flagWord (a b c d : Bool) :
    bit (flagWord a b c d % 256) 0 = a ∧ bit (flagWord a b c d % 256) 1 = b ∧
    bit (flagWord a b c d % 256) 2 = c ∧ bit (flagWord a b c d % 256) 3 = d := by
  revert a b c d
  decide

/-- The first byte of a number that is written little-endian. -/
theorem byteAt_leBytes {pre : List Byte} {i n v : Nat} (hi : pre.length = i) :
    byteAt (pre ++ leBytes (n + 1) v) i = v % 256 := by
  rw [byteAt, List.getD_append_right _ _ _ _ hi.le, hi, Nat.sub_self]
  exact BitVec.toNat_ofNat v 8

/-- A byte run reads as a number of its bytes. -/
theorem leNat_lt (bs : List Byte) : leNat bs < 256 ^ bs.length := by
  induction bs with
  | nil => simp [leNat]
  | cons b r ih =>
    have hb := b.isLt
    rw [leNat, List.length_cons, Nat.pow_succ']
    omega

/-- A part of a run that is written little-endian reads back. -/
theorem leAt_of_leBytes {pre suf : List Byte} {i n v : Nat} (hi : pre.length = i) (hv : v < 256 ^ n) :
    leAt (pre ++ leBytes n v ++ suf) i n = v := by
  rw [leAt, List.append_assoc, List.drop_left' hi, List.take_left' (leBytes_length n v), leNat_leBytes,
    Nat.mod_eq_of_lt hv]

/-- What the fields of Table ENG-7 hold of an image. -/
structure ImageFits (a : Image) : Prop where
  val : TwosRange 320 a.val
  cnt : a.cnt < 2 ^ 32

@[simp] theorem Image.bytes_length (a : Image) : (Image.bytes a).length = 48 := by simp [Image.bytes]

@[simp] theorem PartialWord.bytes_length (w : PartialWord) : (PartialWord.bytes w).length = 16 := by
  simp [PartialWord.bytes]

/-- An image that fits its fields is read back from its bytes. -/
theorem Image.ofBytes_bytes {a : Image} (h : ImageFits a) : Image.ofBytes (Image.bytes a) = a := by
  have hval : leAt (Image.bytes a) 0 40 = twos 320 a.val :=
    leAt_of_leBytes (pre := []) rfl (twos_lt_bytes 40 a.val)
  have hcnt : leAt (Image.bytes a) 40 4 = a.cnt :=
    leAt_of_leBytes (by simp) (lt_of_lt_of_eq h.cnt (Nat.pow_mul 2 8 4))
  have hflags : byteAt (Image.bytes a) 44 = flagWord a.nan a.pinf a.ninf a.nonnegz % 256 := byteAt_leBytes (by simp)
  obtain ⟨hnan, hpinf, hninf, hnonnegz⟩ := bit_flagWord a.nan a.pinf a.ninf a.nonnegz
  rw [Image.ofBytes, hval, hcnt, hflags, sext_twos (by omega) h.val, hnan, hpinf, hninf, hnonnegz]

theorem Image.fits_empty : ImageFits Image.empty := ⟨twosRange_zero 320, Nat.two_pow_pos 32⟩

/-- An image that is read fits. -/
theorem Image.fits_ofBytes (bs : List Byte) : ImageFits (Image.ofBytes bs) := by
  refine ⟨by simp only [Image.ofBytes]; exact sext_range (by omega) _, ?_⟩
  have hlen : ((bs.drop 40).take 4).length ≤ 4 := by simp
  exact lt_of_lt_of_le (leNat_lt _) (Nat.pow_le_pow_right (by omega) hlen)

/-- VAL holds 320 bits. -/
theorem wrap320_range (z : Int) : TwosRange 320 (wrap320 z) := sext_range (by omega) _

/-- la_count keeps VAL, and CNT holds at its largest value. -/
theorem laCount_fits {a : Image} (h : ImageFits a) (n : Nat) : ImageFits (laCount a n).1 := by
  unfold laCount
  split
  · exact ⟨h.val, by norm_num⟩
  · next hle => exact ⟨h.val, by simp only; omega⟩

/-- An image that a partial word has entered fits. -/
theorem laEnter_fits {a : Image} (h : ImageFits a) (w : PartialWord) : ImageFits (laEnter a w).1 := by
  obtain ⟨hval, hcnt⟩ := laCount_fits h 1
  unfold laEnter
  split
  · exact ⟨hval, hcnt⟩
  · split
    · split <;> exact ⟨hval, hcnt⟩
    · exact ⟨by simp only; exact wrap320_range _, hcnt⟩

end Sys2Proof.Machine
end

section
/-! PROOFS. MATMUL of one output row and one column group (04 R154 to R157), and the statement of 02_engines.md. -/

namespace Sys2Proof.Machine

/-! ### One block -/

theorem ceilDiv_eq_one {n m : Nat} (h1 : 1 ≤ n) (hm : n ≤ m) : ceilDiv n m = 1 :=
  Nat.div_eq_of_lt_le (by omega) (by omega)

/-- A block has at least one row. -/
theorem MatmulD.mb_pos (d : MatmulD) : 1 ≤ MatmulD.mb d := by
  unfold MatmulD.mb
  split
  · split <;> omega
  · omega

/-- One row and at most 32 columns are one block. -/
theorem blocksOf_row {mb n : Nat} (hmb : 1 ≤ mb) (h1 : 1 ≤ n) (h32 : n ≤ 32) : blocksOf 1 mb n = [(0, 1, 0, n)] := by
  simp [blocksOf, ceilDiv_eq_one le_rfl hmb, ceilDiv_eq_one h1 h32, List.range_one, Nat.min_eq_right hmb,
    Nat.min_eq_right h32]

theorem upto_zero (n : Nat) : upto 0 n = List.range n := by simp [upto]

/-- The outputs of a block of one row. -/
theorem blockCells_row (n : Nat) : blockCells (0, 1, 0, n) = (List.range n).map fun c => (0, c) := by
  simp [blockCells, upto_zero, List.range_one]

/-- A K range that is not empty meets a seam (02 R64). -/
theorem MatmulD.seams_pos {d : MatmulD} (h : 1 ≤ d.kn) : 0 < (MatmulD.seams d).length := by
  have hle : d.k0 / 2 ^ d.seam ≤ (d.k0 + d.kn - 1) / 2 ^ d.seam := Nat.div_le_div_right (by omega)
  simp only [MatmulD.seams, if_neg (by omega : ¬ d.kn = 0), upto, List.length_map, List.length_range]
  omega

variable {s : State} {core fn y n : Nat} {org : Origin} {d : MatmulD} {p : Params} {a : MatmulAcc} {out : Nat → List Byte}

/-- A step before the block's end is a seam's. -/
theorem matmulStep_seam {bl : Nat × Nat × Nat × Nat} (hbl : blocksOf d.m (MatmulD.mb d) d.n = [bl]) {i : Nat}
    (hi : i < (MatmulD.seams d).length) (a : MatmulAcc) :
    matmulStep core fn org d p a i = { seamStep core fn org d p bl i a with
      s := noteStep (seamStep core fn org d p bl i a).s core fn a.ea (seamStep core fn org d p bl i a).ea } := by
  simp only [matmulStep, hbl, Nat.div_eq_of_lt (by omega : i < (MatmulD.seams d).length + 1),
    Nat.mod_eq_of_lt (by omega : i < (MatmulD.seams d).length + 1), List.getD_cons_zero,
    if_neg (by omega : ¬ i + 1 = (MatmulD.seams d).length + 1)]

/-- The end of a block of partial words, or of images that a seam has entered, only tells the flags. -/
theorem matmulStep_end {bl : Nat × Nat × Nat × Nat} (hbl : blocksOf d.m (MatmulD.mb d) d.n = [bl])
    (hof : d.of = .words ∨ d.of = .images) (hk : 0 < (MatmulD.seams d).length) (a : MatmulAcc) :
    matmulStep core fn org d p a (MatmulD.seams d).length =
      { a with s := raiseFlags a.s core fn (a.ea.fl.or a.ea.t.flags) } := by
  have hend : blockStep core fn org d p bl a = a := by
    rcases hof with hof | hof
    · simp only [blockStep, hof]
    · simp [blockStep, hof, hk.ne']
  simp only [matmulStep, hbl, Nat.div_eq_of_lt (Nat.lt_succ_self (MatmulD.seams d).length),
    Nat.mod_eq_of_lt (Nat.lt_succ_self (MatmulD.seams d).length), List.getD_cons_zero, if_true, hend,
    noteStep_of_tile_eq _ _ _ rfl]

/-- Where no error stands a MATMUL starts in the state at hand. -/
theorem matmulFrom_none (h : Quiet s) (core : Nat) (d : MatmulD) :
    ∃ init, matmulFrom s core d none = (0, ⟨s, EmitAcc.empty, init, [], false⟩) := by
  simp only [matmulFrom, h.meetRuns_eq]
  split
  · exact ⟨_, rfl⟩
  · exact ⟨_, rfl⟩

/-! ### A row stored at C -/

/-- Before step i of a MATMUL of one row: nothing has changed before the first, and after a seam the n bytes at key y, where the
row stands at C, are `out i`. -/
structure RowAt (core fn y n : Nat) (out : Nat → List Byte) (s : State) (i : Nat) (a : MatmulAcc) : Prop where
  keeps : OpKeeps core fn y n s a.s
  ue : a.ue = false
  start : i = 0 → a.s = s
  done : 0 < i → memReadN a.s.comp.store y n = out i

/-- Flags that are told leave the row. -/
theorem RowAt.raiseFlags {i : Nat} (h : RowAt core fn y n out s i a) (hi : 0 < i) (fl : FpFlags) :
    RowAt core fn y n out s i { a with s := raiseFlags a.s core fn fl } :=
  ⟨h.keeps.trans (OpKeeps.raiseFlags core fn y n a.s fl), h.ue, fun h0 => absurd h0 hi.ne', h.done⟩

/-- A seam of a row, carried out: its bytes stand at C; nothing was converted and no error met. -/
structure StoresRow (core fn y : Nat) (org : Origin) (d : MatmulD) (p : Params) (i : Nat) (a : MatmulAcc) (bs : List Byte) :
    Prop where
  s : (seamStep core fn org d p (0, 1, 0, d.n) i a).s = storeBytes a.s y bs
  tile : (seamStep core fn org d p (0, 1, 0, d.n) i a).ea.t = a.ea.t
  ue : (seamStep core fn org d p (0, 1, 0, d.n) i a).ue = false

/-- A seam that stores its row keeps the invariant. -/
theorem RowAt.seam {i : Nat} (hbl : blocksOf d.m (MatmulD.mb d) d.n = [(0, 1, 0, d.n)])
    (hi : i < (MatmulD.seams d).length) (h : RowAt core fn y n out s i a) (hlen : (out (i + 1)).length = n)
    (hstep : StoresRow core fn y org d p i a (out (i + 1))) :
    RowAt core fn y n out s (i + 1) (matmulStep core fn org d p a i) := by
  rw [matmulStep_seam hbl hi, noteStep_of_tile_eq _ _ _ hstep.tile]
  have hstored : RowAt core fn y n out s (i + 1) (seamStep core fn org d p (0, 1, 0, d.n) i a) := by
    refine ⟨?_, hstep.ue, fun h0 => absurd h0 (Nat.succ_ne_zero i), fun _ => ?_⟩
    · rw [hstep.s]
      exact h.keeps.trans (OpKeeps.storeBytes core fn a.s hlen.le)
    · rw [hstep.s, ← hlen]
      exact memReadN_memWriteN _ _ _
  exact hstored.raiseFlags (Nat.succ_pos i) _

/-- A MATMUL of one row, each of whose seams stores the row, leaves the row of the last one and nothing else. -/
theorem runMatmul_row (hs : Quiet s) (hm : d.m = 1) (h1 : 1 ≤ d.n) (h32 : d.n ≤ 32)
    (hof : d.of = .words ∨ d.of = .images) (hk : 0 < (MatmulD.seams d).length) (hlen : ∀ i, (out i).length = n)
    (hseam : ∀ i < (MatmulD.seams d).length, ∀ a, RowAt core fn y n out s i a →
      StoresRow core fn y org d p i a (out (i + 1))) :
    ∃ u, runMatmul s core fn org d p false none = ⟨u, false, none⟩ ∧ OpKeeps core fn y n s u ∧
      memReadN u.comp.store y n = out (MatmulD.seams d).length := by
  have hbl : blocksOf d.m (MatmulD.mb d) d.n = [(0, 1, 0, d.n)] := hm ▸ blocksOf_row (MatmulD.mb_pos d) h1 h32
  have helem : OFmt.elem d.of = none := by rcases hof with hof | hof <;> rw [hof] <;> rfl
  obtain ⟨init, hfrom⟩ := matmulFrom_none hs core d
  have hnext : ∀ i a, i < 0 + ((MatmulD.seams d).length + 1) → RowAt core fn y n out s (min i (MatmulD.seams d).length) a →
      RowAt core fn y n out s (min (i + 1) (MatmulD.seams d).length) (matmulStep core fn org d p a i) := by
    intro i a hi h
    obtain hlt | rfl : i < (MatmulD.seams d).length ∨ i = (MatmulD.seams d).length := by omega
    · rw [Nat.min_eq_left hlt.le] at h
      rw [Nat.min_eq_left hlt]
      exact h.seam hbl hlt (hlen _) (hseam i hlt a h)
    · rw [Nat.min_self] at h
      rw [Nat.min_eq_right (Nat.le_succ _), matmulStep_end hbl hof hk]
      exact h.raiseFlags hk _
  obtain ⟨b, hrun, hrow⟩ := stepsFrom_all (f := matmulStep core fn org d p) (bad := fun a => a.ue)
    (fun i => RowAt core fn y n out s (min i (MatmulD.seams d).length)) ((MatmulD.seams d).length + 1) 0
    ⟨s, EmitAcc.empty, init, [], false⟩
    ⟨OpKeeps.refl _ _ _ _ _, rfl, fun _ => rfl, fun h => absurd h (by simp)⟩
    fun i a _ hi h => ⟨hnext i a hi h, (hnext i a hi h).ue⟩
  rw [Nat.zero_add, Nat.min_eq_right (Nat.le_succ _)] at hrow
  refine ⟨b.s, ?_, hrow.keeps, hrow.done hk⟩
  simp [runMatmul, hbl, hfrom, hrun, hrow.ue, helem, endFused]

/-! ### Partial words and images -/

/-- The partial word of a row's output over a seam (R67). -/
def rowWord (s : State) (core : Nat) (d : MatmulD) (p : Params) (sm : Nat × Nat) (c : Nat) : PartialWord :=
  (matmulWord d p (matmulIn s core d p (0, 1, 0, d.n) sm) 0 c sm).1

/-- The bytes of a row of partial words (R154). -/
def rowWords (s : State) (core : Nat) (d : MatmulD) (p : Params) (sm : Nat × Nat) : List Byte :=
  (List.range d.n).flatMap fun c => PartialWord.bytes (rowWord s core d p sm c)

/-- A seam to partial words stores the word of each output at C. -/
theorem storesRow_words (hs : Quiet a.s) {sm : Nat × Nat} (hof : d.of = .words) (hsm : MatmulD.seams d = [sm])
    (hc : space d.c = 0) (hy : opKey core d.c 0 = some y) :
    StoresRow core fn y org d p 0 a (rowWords a.s core d p sm) := by
  have hput := hs.putOp_own_eq (fn := fn) (org := org) (rm := d.rm) hc hy (rowWords a.s core d p sm)
  simp only [rowWords, rowWord] at hput ⊢
  constructor <;> simp [seamStep, hs.meetRuns_eq, hof, hsm, blockCells_row, upto_zero, List.range_one,
    List.flatMap_map, List.filter_map, Function.comp_def, hput]

/-- Where image c of a row stands: at C, one after the other (R155). -/
theorem keptAt_row (hof : d.of = .images) (c : Nat) : keptAt d (0, 1, 0, d.n) 0 c = d.c % 2 ^ 32 + 48 * c := by
  rw [keptAt, if_pos hof]
  omega

/-- The image that output c of a row starts from: with ACC the one at C, else an empty one (R156). -/
def rowStart (s : State) (core : Nat) (d : MatmulD) (c : Nat) : Image :=
  if d.acc then Image.ofBytes (getLocal s core (d.c % 2 ^ 32 + 48 * c) 48) else Image.empty

/-- The image of output c of a row after its first i seams. -/
def rowImage (s : State) (core : Nat) (d : MatmulD) (p : Params) (i c : Nat) : Image :=
  ((MatmulD.seams d).take i).foldl (fun im sm => (laEnter im (rowWord s core d p sm c)).1) (rowStart s core d c)

theorem rowImage_succ (s : State) (core : Nat) (d : MatmulD) (p : Params) (c : Nat) {i : Nat}
    (hi : i < (MatmulD.seams d).length) :
    rowImage s core d p (i + 1) c = (laEnter (rowImage s core d p i c) (rowWord s core d p (MatmulD.seams d)[i] c)).1 := by
  rw [rowImage, List.take_succ_eq_append_getElem hi, List.foldl_append, List.foldl_cons, List.foldl_nil, ← rowImage]

/-- Every image of a row fits its 48 bytes. -/
theorem rowImage_fits (s : State) (core : Nat) (d : MatmulD) (p : Params) (i c : Nat) :
    ImageFits (rowImage s core d p i c) := by
  have hstart : ImageFits (rowStart s core d c) := by
    unfold rowStart
    split
    · exact Image.fits_ofBytes _
    · exact Image.fits_empty
  unfold rowImage
  generalize rowStart s core d c = im at hstart
  induction (MatmulD.seams d).take i generalizing im with
  | nil => exact hstart
  | cons sm l ih => exact ih _ (laEnter_fits hstart _)

/-- The bytes of a row of images after its first i seams. -/
def rowImages (s : State) (core : Nat) (d : MatmulD) (p : Params) (i : Nat) : List Byte :=
  (List.range d.n).flatMap fun c => Image.bytes (rowImage s core d p i c)

theorem rowImages_length (s : State) (core : Nat) (d : MatmulD) (p : Params) (i : Nat) :
    (rowImages s core d p i).length = 48 * d.n := length_flatMap_range (fun _ => Image.bytes_length _) _

/-- The image at C of output c, where a row of images stands. -/
theorem getLocal_of_row {t : State} {x : Nat} {f : Nat → Image} (hx : localAt (some (core % 64)) (d.c % 2 ^ 32) (48 * n) = some x)
    (hrow : memReadN t.comp.store (storeKey (core / 64) x) (48 * n) = (List.range n).flatMap fun c => Image.bytes (f c))
    {c : Nat} (hc : c < n) : getLocal t core (d.c % 2 ^ 32 + 48 * c) 48 = Image.bytes (f c) := by
  have hat := localAt_part hx (by omega : 0 < 48) (by omega : 48 * c + 48 ≤ 48 * n)
  have hkey : storeKey (core / 64) (x + 48 * c) = storeKey (core / 64) x + 48 * c := by simp only [storeKey]; omega
  simp only [getLocal, hat, readStore, hkey]
  exact memReadN_piece (fun c => Image.bytes_length (f c)) hrow hc

/-- Before the i-th seam the image of output c is that of the first i seams. -/
theorem imageAt_row {x i c : Nat} (hof : d.of = .images)
    (hx : localAt (some (core % 64)) (d.c % 2 ^ 32) (48 * d.n) = some x)
    (h : RowAt core fn (storeKey (core / 64) x) (48 * d.n) (rowImages s core d p) s i a) (hc : c < d.n) :
    imageAt a core d (0, 1, 0, d.n) i 0 c = rowImage s core d p i c := by
  have hkept : MatmulD.kept d = true := by simp [MatmulD.kept, hof]
  obtain rfl | hi := Nat.eq_zero_or_pos i
  · rw [rowImage, List.take_zero, List.foldl_nil, imageAt, if_pos rfl, startImage, h.start rfl, keptAt_row hof, if_pos hof,
      rowStart]
    cases d.acc <;> rfl
  · rw [imageAt, if_neg hi.ne', if_pos hkept, keptAt_row hof, getLocal_of_row hx (h.done hi) hc,
      Image.ofBytes_bytes (rowImage_fits s core d p i c)]

/-- A seam to images enters the word of each output into its image at C. -/
theorem storesRow_images {x i : Nat} (hs : Quiet s) (hof : d.of = .images)
    (hx : localAt (some (core % 64)) (d.c % 2 ^ 32) (48 * d.n) = some x) (hi : i < (MatmulD.seams d).length)
    (h : RowAt core fn (storeKey (core / 64) x) (48 * d.n) (rowImages s core d p) s i a)
    (hword : ∀ c < d.n, rowWord a.s core d p (MatmulD.seams d)[i] c = rowWord s core d p (MatmulD.seams d)[i] c) :
    StoresRow core fn (storeKey (core / 64) x) org d p i a (rowImages s core d p (i + 1)) := by
  have hkept : MatmulD.kept d = true := by simp [MatmulD.kept, hof]
  have hq := h.keeps.quiet hs
  have him : ∀ c < d.n, (laEnter (imageAt a core d (0, 1, 0, d.n) i 0 c) (rowWord a.s core d p (MatmulD.seams d)[i] c)).1 =
      rowImage s core d p (i + 1) c := fun c hc => by
    rw [imageAt_row hof hx h hc, hword c hc, rowImage_succ s core d p c hi]
  have hput : (List.range d.n).foldl (fun (q : State × Bool) c =>
      ((putLocal q.1 core (d.c % 2 ^ 32 + 48 * c) (Image.bytes (laEnter (imageAt a core d (0, 1, 0, d.n) i 0 c)
          (rowWord a.s core d p (MatmulD.seams d)[i] c)).1)).1,
        q.2 || (putLocal q.1 core (d.c % 2 ^ 32 + 48 * c) (Image.bytes (laEnter (imageAt a core d (0, 1, 0, d.n) i 0 c)
          (rowWord a.s core d p (MatmulD.seams d)[i] c)).1)).2)) (a.s, false) =
      (storeBytes a.s (storeKey (core / 64) x) (rowImages s core d p (i + 1)), false) := by
    rw [rowImages, ← foldl_putLocal hq (by omega : 0 < 48) (fun c => Image.bytes_length _) hx d.n le_rfl]
    exact List.foldl_ext _ _ _ fun q c hc => by rw [him c (List.mem_range.1 hc)]
  simp only [rowWord] at hput
  constructor <;> simp only [seamStep, hq.meetRuns_eq, hof, hkept, blockCells_row, List.map_map, List.foldl_map,
    Function.comp_apply, keptAt_row hof, Bool.false_eq_true, reduceCtorEq, if_false, if_true,
    List.getD_eq_getElem _ _ hi, -Nat.reducePow, hput]

/-! ### The row MATMUL -/

/-- Striking no error changes nothing that a MATMUL reads. -/
theorem matmulApart_unstruck (s : State) (core : Nat) (d : MatmulD) (p : Params) (a n : Nat) :
    matmulApart (unstruck s) core d p a n = matmulApart s core d p a n := rfl

/-- A core stands at an issued MATMUL of one row and at most 32 columns, where no error stands and its quantum has not expired. -/
structure RowIssued (s : State) (k : CoreId) (fn : Nat) (r : RunList) (d : MatmulD) (p : Params) : Prop where
  noUe : noUe s
  current : current s k = some (fn, r)
  expired : expired s k = false
  issued : r.phase = .issued
  part : r.part = none
  op : byteAt r.desc 0 = 1
  desc : matmulD r.seam r.desc = some d
  par : r.par = some p
  rows : d.m = 1
  colsPos : 1 ≤ d.n
  colsLe : d.n ≤ 32

variable {u : State} {k : CoreId} {r : RunList} {x i c : Nat}

/-- What the row MATMUL leaves where the operation runs to its end. -/
theorem RowIssued.exec_eq (h : RowIssued s k fn r d p)
    (hrun : runMatmul (unstruck s) k.no fn (coreOrg k.no fn r) d p false none = ⟨u, false, none⟩) :
    exec (.matmul k Upsets.none) s = .next (rowDone s u k fn) := by
  have hexp : Machine.expired (unstruck s) k = false := h.expired
  refine coreRow_onOp h.current h.issued (by rw [opIs, h.op]; rfl) ?_
  simp only [h.desc, h.par, h.part, hexp, hrun, finishOp]

/-- R67, R154, R157: with partial words and one seam the words stand at C. -/
theorem RowIssued.exec_words (h : RowIssued s k fn r d p) {sm : Nat × Nat} (hof : d.of = .words)
    (hsm : MatmulD.seams d = [sm]) (hc : space d.c = 0) (hy : opKey k.no d.c 0 = some y) :
    ∃ u, exec (.matmul k Upsets.none) s = .next (rowDone s u k fn) ∧ OpKeeps k.no fn y (16 * d.n) (unstruck s) u ∧
      memReadN u.comp.store y (16 * d.n) = rowWords (unstruck s) k.no d p sm := by
  have hq := quiet_unstruck h.noUe
  have hk : (MatmulD.seams d).length = 1 := by rw [hsm]; rfl
  have hseam : ∀ i < (MatmulD.seams d).length, ∀ a,
      RowAt k.no fn y (16 * d.n) (fun _ => rowWords (unstruck s) k.no d p sm) (unstruck s) i a →
      StoresRow k.no fn y (coreOrg k.no fn r) d p i a (rowWords (unstruck s) k.no d p sm) := by
    intro i hi a ha
    obtain rfl : i = 0 := by omega
    rw [← ha.start rfl]
    exact storesRow_words (ha.keeps.quiet hq) hof hsm hc hy
  obtain ⟨u, hrun, hkeep, hout⟩ := runMatmul_row hq h.rows h.colsPos h.colsLe (.inl hof) (by omega)
    (fun _ => length_flatMap_range (fun _ => PartialWord.bytes_length _) _) hseam
  exact ⟨u, h.exec_eq hrun, hkeep, hout⟩

/-- What a row of images reads stays as it was through its seams: it has one alone, or lies apart from C. -/
theorem rowWord_of_apart (hap : (MatmulD.seams d).length = 1 ∨ matmulApart s core d p y n)
    (hi : i < (MatmulD.seams d).length) (h : RowAt core fn y n out s i a) (hc : c < d.n) :
    rowWord a.s core d p (MatmulD.seams d)[i] c = rowWord s core d p (MatmulD.seams d)[i] c := by
  obtain hone | hapart := hap
  · rw [h.start (by omega)]
  · exact congrArg Prod.fst (hapart a.s h.keeps.store _ (List.getElem_mem hi) c hc)

/-- R78, R155 to R157: with images every seam's words are entered into the images at C. -/
theorem RowIssued.exec_images (h : RowIssued s k fn r d p) (hof : d.of = .images) (hkn : 1 ≤ d.kn)
    (hx : localAt (some (k.no % 64)) (d.c % 2 ^ 32) (48 * d.n) = some x)
    (hap : (MatmulD.seams d).length = 1 ∨ matmulApart s k.no d p (storeKey (k.no / 64) x) (48 * d.n)) :
    ∃ u, exec (.matmul k Upsets.none) s = .next (rowDone s u k fn) ∧
      OpKeeps k.no fn (storeKey (k.no / 64) x) (48 * d.n) (unstruck s) u ∧
      memReadN u.comp.store (storeKey (k.no / 64) x) (48 * d.n) =
        rowImages (unstruck s) k.no d p (MatmulD.seams d).length := by
  have hq := quiet_unstruck h.noUe
  rw [← matmulApart_unstruck] at hap
  obtain ⟨u, hrun, hkeep, hout⟩ := runMatmul_row hq h.rows h.colsPos h.colsLe (.inr hof) (MatmulD.seams_pos hkn)
    (rowImages_length _ _ _ _) fun i hi a ha => storesRow_images hq hof hx hi ha fun c hc => rowWord_of_apart hap hi ha hc
  exact ⟨u, h.exec_eq hrun, hkeep, hout⟩

end Sys2Proof.Machine

open Sys2Proof Sys2Proof.Machine

/-- Settles O36: each seam of a row stores the row at C (`StoresRow`), which the steps of the MATMUL keep to its end
(`runMatmul_row`); an image that a seam has stored is the one that the next seam reads (`Image.ofBytes_bytes`). -/
theorem matmuls : Obligations.Matmuls := by
  unfold Obligations.Matmuls
  refine ⟨?words, ?images⟩
  case words =>
    intro s k fn r d p a sm hue hcur hexp hiss hpart hop hd hp hof hm h1 h32 hsm hc ha
    have h : RowIssued s k fn r d p := ⟨hue, hcur, hexp, hiss, hpart, hop, hd, hp, hm, h1, h32⟩
    obtain ⟨u, hexec, hkeep, hout⟩ := h.exec_words hof hsm hc ha
    obtain ⟨hrun, hstore, hrest⟩ := rowDone_keeps hcur hkeep
    exact ⟨_, hexec, hrun, hstore ▸ hout, hrest⟩
  case images =>
    intro s k fn r d p x hue hcur hexp hiss hpart hop hd hp hof hm h1 h32 hkn hx hap
    have h : RowIssued s k fn r d p := ⟨hue, hcur, hexp, hiss, hpart, hop, hd, hp, hm, h1, h32⟩
    rw [← coreNo_div_64 k] at hap ⊢
    obtain ⟨u, hexec, hkeep, hout⟩ := h.exec_images hof hkn hx hap
    obtain ⟨hrun, hstore, hrest⟩ := rowDone_keeps hcur hkeep
    refine ⟨_, hexec, hrun, fun c hc => ?_, hrest⟩
    rw [getLocal_of_row hx (hstore ▸ hout) hc, rowImage, List.take_length]
    rfl

end

section
/-! PROOFS. CONVERT of one row to a plain format (04 R158, 03 R95), SPARSE over rows without a non-zero (04 R155, R156; 05 R202),
and the statement of 03_conversion.md. -/

namespace Sys2Proof.Machine

variable {s t u : State} {core fn a n : Nat} {k : CoreId} {r : RunList} {p : Params}

/-! ### What the row of a core leaves -/

/-- Where an operation left the running list as it was, its row lets the list go on and keeps what the operation left. -/
theorem rowDone_of_run (h : (seqOf u k.no fn).run = some r) :
    (seqOf (rowDone s u k fn) k.no fn).run = some { r with phase := .done, part := none } ∧
    (rowDone s u k fn).comp.store = u.comp.store ∧ (rowDone s u k fn).regs = u.regs ∧
    (rowDone s u k fn).deep = u.deep ∧ (rowDone s u k fn).rem = u.rem ∧ (rowDone s u k fn).outbox = u.outbox := by
  have hfin : finish u k.no fn false = setRun u k.no fn { r with phase := .done, part := none } := by
    simp only [finish, Bool.false_eq_true, if_false, h]
  have hseq := seqOf_setSeq_same u k.no fn
    { seqOf u k.no fn with run := some { r with phase := .done, part := none } }
  rw [rowDone, hfin, markBusy_eq]
  exact ⟨congrArg SeqSt.run hseq, rfl, rfl, rfl, rfl, rfl⟩

theorem sameRegs_mono {offs offs' : List Nat} (h : sameRegs s t offs) (hsub : offs ⊆ offs') : sameRegs s t offs' :=
  fun off ho => h off fun hin => ho (hsub hin)

theorem OpKeeps.mono {m : Nat} (h : OpKeeps core fn a n s t) (hm : n ≤ m) : OpKeeps core fn a m s t :=
  { h with store := fun x hx => h.store x (by omega) }

/-! ### What a step counts -/

/-- The die's counts after a step that brings a tile's counts from old to new (03 R107, R114). -/
def tileCounts (s : State) (core : Nat) (old new : EmitAcc) : State :=
  countOf (countOf s (R.cpxCnvtail (core / 10240)) (new.t.tail - old.t.tail)) (R.cpxCnvovfn (core / 10240))
    (new.t.ovfn - old.t.ovfn)

/-- A step is noted by its counts, then by its flags. -/
theorem noteStep_eq (s : State) (core fn : Nat) (old new : EmitAcc) :
    noteStep s core fn old new = raiseFlags (tileCounts s core old new) core fn (new.fl.or new.t.flags) := rfl

theorem countOf_eq (s : State) (off n : Nat) : countOf s off n = { s with regs := (countOf s off n).regs } := by
  unfold countOf
  split <;> rfl

theorem sameRegs_countOf (s : State) {off : Nat} (n : Nat) {offs : List Nat} (h : off ∈ offs) :
    sameRegs s (countOf s off n) offs := by
  unfold countOf
  split
  · exact sameRegs_refl _ _
  · exact sameRegs_wr _ _ h

/-- The counts of a step change nothing but the registers. -/
theorem tileCounts_keeps (s : State) (core : Nat) (old new : EmitAcc) :
    (tileCounts s core old new).comp = s.comp ∧ (tileCounts s core old new).deep = s.deep ∧
    (tileCounts s core old new).rem = s.rem ∧ (tileCounts s core old new).outbox = s.outbox := by
  rw [tileCounts, countOf_eq, countOf_eq s]
  exact ⟨rfl, rfl, rfl, rfl⟩

theorem sameRegs_tileCounts (s : State) (core : Nat) (old new : EmitAcc) :
    sameRegs s (tileCounts s core old new) [R.cpxCnvtail (core / 10240), R.cpxCnvovfn (core / 10240)] :=
  sameRegs_trans (sameRegs_countOf _ _ (by simp)) (sameRegs_countOf _ _ (by simp))

/-! ### CONVERT of one row to a plain format -/

/-- One value of a conversion to a plain format: its code joins the codes, and the tile's counts go on. -/
def cvtPlainStep (c : CvtParams) (acc : List Nat × List Nat × TileAcc) (x : Num) : List Nat × List Nat × TileAcc :=
  (acc.1 ++ [(cvtPlain c acc.2.2 x).1], acc.2.1, (cvtPlain c acc.2.2 x).2)

theorem cvtRun_plain_eq {c : CvtParams} (h : c.mx = false) (t : TileAcc) (xs : List Num) :
    cvtRun c t xs = xs.foldl (cvtPlainStep c) ([], [], t) := by
  rw [cvtRun, h]
  rfl

/-- A conversion to a plain format gives one code for each value (R105). -/
theorem cvtRun_plain_length {c : CvtParams} (h : c.mx = false) (t : TileAcc) (xs : List Num) :
    (cvtRun c t xs).1.length = xs.length := by
  suffices hfold : ∀ acc, (xs.foldl (cvtPlainStep c) acc).1.length = acc.1.length + xs.length by
    rw [cvtRun_plain_eq h, hfold, List.length_nil, Nat.zero_add]
  induction xs with
  | nil => exact fun _ => rfl
  | cons x xs ih =>
    intro acc
    rw [List.foldl_cons, ih, cvtPlainStep, List.length_append, List.length_singleton, List.length_cons]
    omega

/-- The elements of a list, taken by position, are the list. -/
theorem map_getD_range {l : List Nat} (h : l.length = n) : (List.range n).map (fun i => l.getD i 0) = l := by
  subst h
  exact List.ext_getElem (by simp) fun i _ hi => by simp [hi]

theorem putOp_nil (s : State) (core fn : Nat) (org : Origin) (rm : Remote) (w : Nat) :
    putOp s core fn org rm w [] = (s, false) := by
  unfold putOp
  split
  · rfl
  · split <;> rfl

/-- A tile without a slot and without a record ends with nothing written (R120, R123). -/
theorem endTile_of_none (s : State) (core : Nat) (e : EFmt) (t : TileAcc) (hslot : p.slot = none) (hrec : p.recAt = none) :
    endTile s core p e t = (s, false) := by
  simp only [endTile, hslot, hrec, Bool.or_self]

/-- The elements of the first row of a CONVERT's source. -/
def firstRowVals (s : State) (core : Nat) (d : ConvertD) (p : Params) : List (Num × FpFlags) :=
  (List.range d.cols).map (convertSrc s core d p 0)

/-- The first row of a CONVERT's source, converted: codes, scales and the tile's counts. -/
def firstRow (s : State) (core : Nat) (d : ConvertD) (p : Params) : List Nat × List Nat × TileAcc :=
  cvtRun (Params.cvt p d.df)
    ((firstRowVals s core d p).foldl (fun t v => { t with flags := t.flags.or v.2 }) TileAcc.empty)
    ((firstRowVals s core d p).map (·.1))

/-- The first row of a CONVERT as bytes at its destination: a last part byte keeps its other bits (R158). -/
def firstRowBytes (s : State) (core : Nat) (d : ConvertD) (p : Params) : List Byte :=
  packInto s core d.dst 0 (widthOf d.df.f) (firstRow s core d p).1

/-- What a CONVERT of one row to a plain format leaves: its bytes at the destination, and its tile counted. -/
def convertedRow (s : State) (core fn a : Nat) (d : ConvertD) (p : Params) : State :=
  noteStep (storeBytes s a (firstRowBytes s core d p)) core fn EmitAcc.empty ⟨(firstRow s core d p).2.2, FpFlags.none⟩

theorem ConvertD.lines_row {d : ConvertD} (hmx : d.df.mx = false) (hrows : d.rows = 1) :
    ConvertD.lines d = [(List.range d.cols).map fun c => (0, c)] := by
  simp [ConvertD.lines, hmx, hrows]

/-- A plain destination has no scales to write (R158). -/
theorem ConvertD.scaleRow_plain {d : ConvertD} (hmx : d.df.mx = false) (i : Nat) : ConvertD.scaleRow d i = [] := by
  simp [ConvertD.scaleRow, hmx]

/-- R95, R158: a CONVERT of one row to a plain format, with no slot and no record. -/
theorem runConvert_row (hs : Quiet s) {org : Origin} {d : ConvertD} (hmx : d.df.mx = false) (hrows : d.rows = 1)
    (hslot : p.slot = none) (hrec : p.recAt = none) (hdst : space d.dst = 0) (ha : opKey core d.dst 0 = some a) :
    runConvert s core fn org d p = ⟨convertedRow s core fn a d p, false, none⟩ := by
  have hvals : ((List.range d.cols).map fun c => (0, c)).map (fun rc => convertSrc s core d p rc.1 rc.2) =
      firstRowVals s core d p := List.map_map
  have hcodes : (List.range d.cols).map (fun c => (firstRow s core d p).1.getD c 0) = (firstRow s core d p).1 :=
    map_getD_range (by simp [firstRow, cvtRun_plain_length (c := Params.cvt p d.df) hmx, firstRowVals])
  have hbytes := hs.putOp_own_eq (fn := fn) (org := org) (rm := d.rm) hdst ha (firstRowBytes s core d p)
  rw [firstRowBytes] at hbytes
  simp only [runConvert, hs.meetRuns_eq, ConvertD.lines_row hmx hrows, hrows, List.range_one, List.foldl_cons, List.foldl_nil,
    hvals, hmx, ConvertD.scaleRow_plain hmx, List.map_nil, putOp_nil, endTile_of_none _ _ _ _ hslot hrec, ← firstRow.eq_1,
    List.nil_append, Bool.false_and, Bool.false_eq_true, if_false, Bool.or_false, Nat.zero_mul, Nat.mul_zero, Nat.zero_add]
  simp only [hcodes, hbytes, Bool.or_false, Bool.false_eq_true, if_false]
  rfl

/-- What a converted row keeps: the running list, deep store, remote state, the outbox, and every register but the counts and
`CPX_FPSTAT`. -/
theorem convertedRow_keeps (s : State) (core fn a : Nat) (d : ConvertD) (p : Params) :
    (seqOf (convertedRow s core fn a d p) core fn).run = (seqOf s core fn).run ∧
    (convertedRow s core fn a d p).comp.store = memWriteN s.comp.store a (firstRowBytes s core d p) ∧
    sameRegs s (convertedRow s core fn a d p)
      [R.cpxCnvtail (core / 10240), R.cpxCnvovfn (core / 10240), R.cpxFpstat (core / 10240)] ∧
    (convertedRow s core fn a d p).deep = s.deep ∧ (convertedRow s core fn a d p).rem = s.rem ∧
    (convertedRow s core fn a d p).outbox = s.outbox := by
  generalize hnew : (⟨(firstRow s core d p).2.2, FpFlags.none⟩ : EmitAcc) = new
  generalize hbs : firstRowBytes s core d p = bs
  obtain ⟨hcomp, hdeep, hrem, hout⟩ := tileCounts_keeps (storeBytes s a bs) core EmitAcc.empty new
  have hseq : seqOf (tileCounts (storeBytes s a bs) core EmitAcc.empty new) core fn = seqOf s core fn := by
    rw [seqOf, hcomp]; rfl
  have hflags := OpKeeps.raiseFlags core fn a 0 (tileCounts (storeBytes s a bs) core EmitAcc.empty new)
    (new.fl.or new.t.flags)
  rw [convertedRow, hnew, hbs, noteStep_eq]
  refine ⟨hflags.run.trans (by rw [hseq]), congrArg ComputeSt.store hcomp, ?_, hflags.deep.trans hdeep, hflags.rem.trans hrem,
    hflags.outbox.trans hout⟩
  exact sameRegs_trans (sameRegs_mono (sameRegs_tileCounts (storeBytes s a bs) core EmitAcc.empty new) (by simp))
    (sameRegs_mono hflags.regs (by simp))

/-! ### SPARSE over rows without a non-zero -/

/-- The walk of a SPARSE with no octet, no record and no word in hand. -/
def idleWalk (s : State) : SparseAcc := ⟨s, [], [], [], EmitAcc.empty, none⟩

variable {x : SparseCtx}

theorem idleWalk_meet (hs : Quiet s) (rs : Runs) : SparseAcc.meet (idleWalk s) rs = idleWalk s := by
  rw [SparseAcc.meet, idleWalk, hs.meetRuns_eq]
  rfl

/-- With nothing in hand a flush writes nothing (R208). -/
theorem flushOctets_idleWalk (x : SparseCtx) (si : Nat) (s : State) : flushOctets x si (idleWalk s) = idleWalk s := rfl

/-- A stored row without a non-zero, to images, leaves the walk as it was (R193, R202). -/
theorem sparseRow_idleWalk (hs : Quiet s) (hof : x.d.of = .images) (htrans : x.d.trans = false) (hnnz : x.h.nnz = 0) {i : Nat}
    (hlo : rowPtr x s i = 0) (hhi : rowPtr x s (i + 1) = 0) : sparseRow x (idleWalk s) i = idleWalk s := by
  have hstop : (idleWalk s).stop = none := rfl
  have hlo' : rowPtr x (idleWalk s).s i = 0 := hlo
  have hhi' : rowPtr x (idleWalk s).s (i + 1) = 0 := hhi
  have hwalk : walkRow x i (upto 0 0) none 0 (idleWalk s) = (idleWalk s, 0) := rfl
  simp [sparseRow, idleWalk_meet hs, hlo', hhi', hnnz, hstop, hwalk, htrans, flushOctets_idleWalk, writeSeams, endRow, hof]

/-- Such a row, as a step, raises no flag (R92). -/
theorem sparseStep_idleWalk (hs : Quiet s) (hof : x.d.of = .images) (htrans : x.d.trans = false) (hnnz : x.h.nnz = 0)
    {j : Nat} (hlo : rowPtr x s (x.d.row0 + j) = 0) (hhi : rowPtr x s (x.d.row0 + j + 1) = 0) :
    sparseStep x (idleWalk s) j = idleWalk (raiseFlags s x.core x.fn FpFlags.none) := by
  rw [sparseStep, sparseRow_idleWalk hs hof htrans hnnz hlo hhi, noteStep_of_tile_eq _ _ _ rfl]
  rfl

/-- Rows without a non-zero are walked to the last, with nothing in hand after each. -/
theorem sparseWalk_idleWalk (hof : x.d.of = .images) (htrans : x.d.trans = false) (hnnz : x.h.nnz = 0) (m : Nat) :
    ∀ (j : Nat) (t : State), Quiet t →
      (∀ u, OpKeeps x.core x.fn a 0 t u → ∀ i ≤ j + m, rowPtr x u (x.d.row0 + i) = 0) →
      ∃ u, sparseWalk x false m j (idleWalk t) = (idleWalk u, j + m) ∧ OpKeeps x.core x.fn a 0 t u := by
  induction m with
  | zero => exact fun j t _ _ => ⟨t, rfl, OpKeeps.refl _ _ _ _ _⟩
  | succ m ih =>
    intro j t ht hptr
    have hkeep := OpKeeps.raiseFlags x.core x.fn a 0 t FpFlags.none
    have hstep := sparseStep_idleWalk ht hof htrans hnnz (hptr t (OpKeeps.refl _ _ _ _ _) j (by omega))
      (hptr t (OpKeeps.refl _ _ _ _ _) (j + 1) (by omega))
    obtain ⟨u, hwalk, hu⟩ := ih (j + 1) _ (hkeep.quiet ht) fun v hv i hi => hptr v (hkeep.trans hv) i (by omega)
    refine ⟨u, ?_, hkeep.trans hu⟩
    rw [sparseWalk, hstep, show j + (m + 1) = j + 1 + m by omega, ← hwalk]
    rfl

/-- A SPARSE to images with ACC 0 whose structure, with its row pointers at local address b, holds no non-zero and lies apart from
the images, at local address c. -/
structure EmptyRows (s : State) (core : Nat) (d : SparseD) (b c : Nat) : Prop where
  of : d.of = .images
  acc : d.acc = false
  trans : d.trans = false
  nnz : (sparseH s core d).nnz = 0
  ptr : ∀ j ≤ (sparseH s core d).nr, leNat (getOp s core d.rp (32 + 4 * j) 4) = 0
  rows : d.row0 + d.nrow ≤ (sparseH s core d).nr
  rpSpace : space d.rp = 0
  ptrsAt : localAt (some (core % 64)) (d.rp % 2 ^ 32) (32 + 4 * ((sparseH s core d).nr + 1)) = some b
  imagesAt : localAt (some (core % 64)) (d.c % 2 ^ 32) (d.nrow * d.n * 48) = some c
  apart : b + (32 + 4 * ((sparseH s core d).nr + 1)) ≤ c ∨ c + d.nrow * d.n * 48 ≤ b

variable {d : SparseD} {b c : Nat}

/-- The row pointers read as before where nothing but the images at C has changed. -/
theorem EmptyRows.ptr_of_keeps (h : EmptyRows s core d b c)
    (hu : OpKeeps core fn (storeKey (core / 64) c) (d.nrow * d.n * 48) s u) {j : Nat} (hj : j ≤ (sparseH s core d).nr) :
    leNat (getOp u core d.rp (32 + 4 * j) 4) = 0 := by
  have hown : opOwn core d.rp = some (core % 64) := if_pos h.rpSpace
  have hat : localAt (opOwn core d.rp) (d.rp % 2 ^ 32 + (32 + 4 * j)) 1 = some (b + (32 + 4 * j)) :=
    hown ▸ localAt_part h.ptrsAt (by omega) (by omega)
  have hsame := getOp_own_congr (s := s) (t := u) (n := 4) h.rpSpace hat fun i hi => hu.store _ (by
    have hapart := h.apart
    simp only [storeKey]
    omega)
  rw [hsame, h.ptr j hj]

/-- R155, R156: the images at C, made empty as the SPARSE starts. -/
def clearedC (s : State) (core : Nat) (d : SparseD) (c : Nat) : State :=
  storeBytes s (storeKey (core / 64) c) (zeros (d.nrow * d.n * 48))

theorem EmptyRows.sparseFrom_none (h : EmptyRows s core d b c) (hs : Quiet s) (hx : x.d = d) (hcore : x.core = core) :
    sparseFrom x s none = (0, idleWalk (clearedC s core d c)) := by
  have hlen : (zeros (d.nrow * d.n * 48)).length = d.nrow * d.n * 48 := List.length_replicate
  have hput := hs.putLocal_eq (bs := zeros (d.nrow * d.n * 48)) (hlen.symm ▸ h.imagesAt)
  simp only [sparseFrom, clearImages, SparseD.rows, hx, hcore, h.of, h.acc, h.trans, hput, Bool.not_false, and_self, if_true,
    Bool.false_eq_true, if_false]
  rfl

/-- R155, R156, R202: a SPARSE over rows without a non-zero leaves the images at C empty. -/
theorem EmptyRows.runSparse_eq (h : EmptyRows s core d b c) (hs : Quiet s) (fn : Nat) (org : Origin) (p : Params) (det : Bool) :
    ∃ u, runSparse s core fn org d p det false none = (⟨u, false, none⟩, none) ∧
      OpKeeps core fn (storeKey (core / 64) c) (d.nrow * d.n * 48) s u ∧
      memReadN u.comp.store (storeKey (core / 64) c) (d.nrow * d.n * 48) = zeros (d.nrow * d.n * 48) := by
  have hlen : (zeros (d.nrow * d.n * 48)).length = d.nrow * d.n * 48 := List.length_replicate
  have hclear : OpKeeps core fn (storeKey (core / 64) c) (d.nrow * d.n * 48) s (clearedC s core d c) :=
    OpKeeps.storeBytes core fn s hlen.le
  let x : SparseCtx := ⟨core, fn, org, d, sparseH s core d, p, det⟩
  have hrows := h.rows
  obtain ⟨u, hwalk, hu⟩ := sparseWalk_idleWalk (x := x) (a := storeKey (core / 64) c) h.of h.trans h.nnz d.nrow 0
    (clearedC s core d c) (hclear.quiet hs) fun v hv i hi =>
      h.ptr_of_keeps (hclear.trans (hv.mono (Nat.zero_le _))) (show d.row0 + i ≤ _ by omega)
  have hbytes : ∀ i < d.nrow * d.n * 48, memRead u.comp.store (storeKey (core / 64) c + i) =
      memRead (clearedC s core d c).comp.store (storeKey (core / 64) c + i) := fun i _ => hu.store _ (.inr (by omega))
  refine ⟨u, ?_, hclear.trans (hu.mono (Nat.zero_le _)), ?_⟩
  · have hfrom := h.sparseFrom_none (x := x) hs rfl rfl
    rw [Nat.zero_add] at hwalk
    have hstop : ∀ t, (idleWalk t).stop = none := fun _ => rfl
    simp only [runSparse, hfrom, hstop, hwalk, x, h.of, Option.isSome_none, Bool.false_eq_true, if_false, Nat.sub_zero, lt_irrefl]
    rfl
  · rw [memReadN_congr hbytes]
    conv_lhs => rw [← hlen]
    exact memReadN_memWriteN _ _ _

end Sys2Proof.Machine

open Sys2Proof Sys2Proof.Machine

/-- Settles O37: one row of a CONVERT is converted, packed at DST and counted (`runConvert_row`); a SPARSE whose rows hold no
non-zero walks them with nothing in hand from the images it has cleared (`EmptyRows.runSparse_eq`). Where SRC and DST of the
CONVERT overlap, the row is read whole before it is written (log 25). -/
theorem convertAndSparse : Obligations.ConvertAndSparse := by
  unfold Obligations.ConvertAndSparse
  refine ⟨?convert, ?sparse⟩
  case convert =>
    intro s k fn r d a p res hue hcur hiss hop hd hp hslot hrec hrows hmx _ hdst ha hres
    have hrow := runConvert_row (quiet_unstruck hue) (fn := fn) (org := coreOrg k.no fn r) hmx hrows hslot hrec hdst ha
    have hexec : exec (.convert k Upsets.none) s = .next (rowDone s (convertedRow (unstruck s) k.no fn a d p) k fn) :=
      coreRow_onOp hcur hiss (by rw [opIs, hop]; rfl) (by simp only [hd, hp, hrow, finishOp])
    have hbytes : packInto s k.no d.dst 0 (widthOf d.df.f) res.1 = firstRowBytes (unstruck s) k.no d p := by
      rw [hres]; rfl
    obtain ⟨hrun, hstore, hregs, hdeep, hrem, hout⟩ := convertedRow_keeps (unstruck s) k.no fn a d p
    obtain ⟨hrun', hstore', hregs', hdeep', hrem', hout'⟩ := rowDone_of_run (s := s) (hrun.trans (run_of_current hcur))
    rw [coreNo_div_10240] at hregs
    rw [hbytes]
    refine ⟨_, hexec, hrun', ?_, fun x hx => ?_, sameRegs_trans hregs (sameRegs_of_regs hregs' _), hdeep'.trans hdeep,
      hrem'.trans hrem, hout'.trans hout⟩
    · rw [hstore', hstore, memReadN_memWriteN]
    · rw [hstore', hstore, memRead_memWriteN_out _ _ hx]
      rfl
  case sparse =>
    intro s k fn r d p hue hcur hexp hiss hpart hop hd hp hof hacc htrans hnnz hptr hrows b c hrp hb hc hapart
    have h : EmptyRows (unstruck s) k.no d b c := ⟨hof, hacc, htrans, hnnz, hptr, hrows, hrp, hb, hc, hapart⟩
    obtain ⟨u, hsparse, hkeep, hzero⟩ := h.runSparse_eq (quiet_unstruck hue) fn (coreOrg k.no fn r) p r.det
    have hexp' : expired (unstruck s) k = false := hexp
    have hexec : exec (.sparse k Upsets.none) s = .next (rowDone s u k fn) :=
      coreRow_onOp hcur hiss (by rw [opIs, hop]; rfl) (by simp only [hd, hp, hpart, hexp', hsparse, finishOp])
    obtain ⟨hrun, hstore, -, hregs, hdeep, hrem, hout⟩ := rowDone_keeps hcur hkeep
    refine ⟨_, hexec, hrun, ?_, hdeep, hrem, hout, sameRegs_mono hregs (by simp)⟩
    simp only [getLocal, hc, readStore, hstore, hzero]

end

section
/-! PROOFS. The two byte memories stay canonical (O3). Most functions of the model write neither memory: one lemma each says so,
in the order of the model's files. The few that write do it through `memPlace`, `memWriteN` and `memClear`, which keep the
canonical form; what calls them keeps it by its own lemma. -/

namespace Sys2Proof.Machine

/-! ### The two byte memories as one value -/

/-- The two byte memories. -/
def State.memories (s : State) : List (Nat × Byte) × List (Nat × Byte) := (s.comp.store, s.deep.mem)

/-- `simp` compares the memories of two states as they stand and does not rewrite inside a state first. -/
@[congr] theorem State.memories_congr (s : State) : s.memories = s.memories := (rfl)

/-- Are both memories in the form that `State.memOk` asks for? -/
def Canonical (m : List (Nat × Byte) × List (Nat × Byte)) : Prop := Mem.wf m.1 = true ∧ Mem.wf m.2 = true

theorem State.memOk_iff (s : State) : s.memOk ↔ Canonical s.memories := Iff.rfl

/-! A record update of a state that names neither memory leaves the two alone; the four lemmas are the four shapes such an
update takes: of the state's own fields, of the compute part's, of deep store's, of both. -/

section
variable (pending : List Instr) (regs : List (Nat × Nat)) (held : Option (Nat × Nat)) (captured : List (Nat × Nat))
  (time : TimeSt) (rem : RemoteSt) (host : HostSt) (flt : FaultSt) (fab : FabSt) (cir : CirSt) (ports : List (Nat × PortSt))
  (mills : List (Nat × MillSt)) (sendTbl : List (Nat × Nat)) (delay : List (Nat × DelaySt)) (gang : GangSt) (power : PowerSt)
  (mgmt : MgmtSt) (outbox inbox : List Pkt) (out : List Emission) (freeCtr nextId : Nat) (ups : Upsets) (t : State)

@[simp] theorem State.memories_mk :
    State.memories ⟨pending, regs, held, captured, time, t.comp, t.deep, rem, host, flt, fab, cir, ports, mills, sendTbl, delay,
      gang, power, mgmt, outbox, inbox, out, freeCtr, nextId, ups⟩ = t.memories := (rfl)
@[simp] theorem State.memories_mk_comp (b c d e f) :
    State.memories ⟨pending, regs, held, captured, time, ⟨b, c, d, e, t.comp.store, f⟩, t.deep, rem, host, flt, fab, cir, ports,
      mills, sendTbl, delay, gang, power, mgmt, outbox, inbox, out, freeCtr, nextId, ups⟩ = t.memories := (rfl)
@[simp] theorem State.memories_mk_deep (b c d e f g h) :
    State.memories ⟨pending, regs, held, captured, time, t.comp, ⟨t.deep.mem, b, c, d, e, f, g, h⟩, rem, host, flt, fab, cir,
      ports, mills, sendTbl, delay, gang, power, mgmt, outbox, inbox, out, freeCtr, nextId, ups⟩ = t.memories := (rfl)
@[simp] theorem State.memories_mk_both (b c d e f b' c' d' e' f' g h) :
    State.memories ⟨pending, regs, held, captured, time, ⟨b, c, d, e, t.comp.store, f⟩, ⟨t.deep.mem, b', c', d', e', f', g, h⟩,
      rem, host, flt, fab, cir, ports, mills, sendTbl, delay, gang, power, mgmt, outbox, inbox, out, freeCtr, nextId, ups⟩ =
      t.memories := (rfl)
end

@[simp] theorem State.memories_ite (c : Prop) [Decidable c] (a b : State) :
    (if c then a else b).memories = if c then a.memories else b.memories := apply_ite _ _ _ _

@[simp] theorem foldl_memories {α : Type} {f : State → α → State} (h : ∀ s x, (f s x).memories = s.memories) (l : List α)
    (s : State) :
    (l.foldl f s).memories = s.memories := by
  induction l generalizing s with
  | nil => rfl
  | cons x r ih => rw [List.foldl_cons, ih, h]

@[simp] theorem foldl_memories_fst {α β : Type} {f : State × β → α → State × β}
    (h : ∀ a x, (f a x).1.memories = a.1.memories) (l : List α) (a : State × β) :
    (l.foldl f a).1.memories = a.1.memories := by
  induction l generalizing a with
  | nil => rfl
  | cons x r ih => rw [List.foldl_cons, ih, h]

/-! ### Functions that leave both memories as they are, by file of the model -/

/-! #### Ops -/

@[simp] theorem wr_memories (s : State) (off v : Nat) : (wr s off v).memories = s.memories := (rfl)
@[simp] theorem setF_memories (s : State) (off hi lo v : Nat) : (setF s off hi lo v).memories = s.memories := (rfl)
@[simp] theorem raise_memories (s : State) (off i : Nat) : (raise s off i).memories = s.memories := (rfl)
@[simp] theorem bumpF_memories (s : State) (off hi lo n : Nat) : (bumpF s off hi lo n).memories = s.memories := (rfl)
@[simp] theorem bump_memories (s : State) (off n : Nat) : (bump s off n).memories = s.memories := (rfl)
@[simp] theorem wr64_memories (s : State) (off v : Nat) : (wr64 s off v).memories = s.memories := (rfl)
@[simp] theorem setMill_memories (s : State) (m : Nat) (x : MillSt) : (setMill s m x).memories = s.memories := (rfl)
@[simp] theorem setStream_memories (s : State) (m n : Nat) (x : StreamSt) : (setStream s m n x).memories = s.memories := (rfl)
@[simp] theorem setIsl_memories (s : State) (g : Nat) (x : IslSt) : (setIsl s g x).memories = s.memories := (rfl)
@[simp] theorem wakeIsl_memories (s : State) (g : Nat) : (wakeIsl s g).memories = s.memories := by simp [wakeIsl]
@[simp] theorem logStoreUe_memories (s : State) (line : Nat) : (logStoreUe s line).memories = s.memories := by simp [logStoreUe]
@[simp] theorem strikeStore_memories (s : State) (ls : List Nat) : (strikeStore s ls).memories = s.memories := (rfl)
@[simp] theorem strikeDeep_memories (s : State) (cs : List Nat) : (strikeDeep s cs).memories = s.memories := (rfl)
@[simp] theorem logDeepUe_memories (s : State) (src c : Nat) : (logDeepUe s src c).memories = s.memories := by simp [logDeepUe]
@[simp] theorem tallyAdd_memories (s : State) (fn d idx n : Nat) :
    (tallyAdd s fn d idx n).memories = s.memories := by simp [tallyAdd]
@[simp] theorem emit_memories (s : State) (e : Emission) : (emit s e).memories = s.memories := (rfl)
@[simp] theorem fresh_memories (s : State) (w : Nat) : (fresh s w).2.memories = s.memories := (rfl)
@[simp] theorem freshBytes_memories (s : State) (n : Nat) : (freshBytes s n).2.memories = s.memories := (rfl)
@[simp] theorem newId_memories (s : State) : (newId s).2.memories = s.memories := (rfl)
@[simp] theorem sendFrame_memories (s : State) (org : Machine.Origin) (f : Frame) :
    (sendFrame s org f).memories = s.memories := (rfl)
@[simp] theorem sendBell_memories (s : State) (mc : Bool) (dst src job code arg : Nat) (payload : List Byte) :
    (sendBell s mc dst src job code arg payload).memories = s.memories := (rfl)
@[simp] theorem hostWrite_memories (s : State) (fn addr : Nat) (bs : List Byte) :
    (hostWrite s fn addr bs).memories = s.memories := (rfl)
@[simp] theorem setMesh_memories (s : State) (d : Nat) (m : MeshSt) : (setMesh s d m).memories = s.memories := (rfl)
@[simp] theorem sendCore_memories (s : State) (no fn : Nat) (org : Machine.Origin) (f : Frame) :
    (sendCore s no fn org f).memories = s.memories := (rfl)
@[simp] theorem sendRun_memories (s : State) (no : Nat) (org : Machine.Origin) (fn ep rt off : Nat) (bs : List Byte) :
    (sendRun s no org fn ep rt off bs).memories = s.memories := by simp [sendRun]
@[simp] theorem setSeq_memories (s : State) (core fn : Nat) (q : SeqSt) : (setSeq s core fn q).memories = s.memories := (rfl)
@[simp] theorem setRun_memories (s : State) (core fn : Nat) (r : RunList) : (setRun s core fn r).memories = s.memories := (rfl)
@[simp] theorem reportList_memories (s : State) (l : Launch) (status didx : Nat) (fl : FpFlags) :
    (reportList s l status didx fl).memories = s.memories := (rfl)
@[simp] theorem endList_memories (s : State) (core fn status didx : Nat) :
    (endList s core fn status didx).memories = s.memories := by
  unfold endList
  dsimp only
  (repeat' split) <;> simp
@[simp] theorem stopList_memories (s : State) (core fn status : Nat) : (stopList s core fn status).memories = s.memories := by
  unfold stopList
  split <;> simp
@[simp] theorem stopSeq_memories (s : State) (core fn status : Nat) (p : Launch → Bool) :
    (stopSeq s core fn status p).memories = s.memories := by
  unfold stopSeq
  dsimp only
  (repeat' split) <;> simp
@[simp] theorem stopLists_memories (s : State) (status : Nat) (p : Nat → Nat → Launch → Bool) :
    (stopLists s status p).memories = s.memories := by simp [stopLists]
@[simp] theorem raiseFlags_memories (s : State) (core fn : Nat) (fl : FpFlags) :
    (raiseFlags s core fn fl).memories = s.memories := (rfl)
@[simp] theorem dropHeld_memories (s : State) (base : Nat) : (dropHeld s base).memories = s.memories := by
  unfold dropHeld
  split <;> simp

/-! #### Faults -/

@[simp] theorem faultBell_memories (s : State) (cause unit job : Nat) :
    (faultBell s cause unit job).memories = s.memories := by simp [faultBell]
@[simp] theorem faultBells_memories (s : State) (cause unit : Nat) (jobs : List Nat) :
    (faultBells s cause unit jobs).memories = s.memories := by simp [faultBells]
@[simp] theorem trapStream_memories (s : State) (m n code pc : Nat) : (trapStream s m n code pc).memories = s.memories := by
  unfold trapStream
  dsimp only
  (repeat' split) <;> simp
@[simp] theorem trapOne_memories (s : State) (m n code pc : Nat) :
    (trapOne s m n code pc).memories = s.memories := by simp [trapOne]
@[simp] theorem trapMill_memories (s : State) (m : Nat) : (trapMill s m).memories = s.memories := by simp [trapMill]
@[simp] theorem trapJobs_memories (s : State) (m : Nat) : (trapJobs s m).memories = s.memories := by simp [trapJobs]
@[simp] theorem trapAllStreams_memories (s : State) : (trapAllStreams s).memories = s.memories := by simp [trapAllStreams]
@[simp] theorem alertLow_memories (s : State) : (alertLow s).memories = s.memories := by simp [alertLow]
@[simp] theorem deviceFault_memories (s : State) (cause unit : Nat) :
    (deviceFault s cause unit).memories = s.memories := by simp [deviceFault]
@[simp] theorem makeRoom_memories (s : State) (r : Res) : (makeRoom s r).memories = s.memories := by
  unfold makeRoom
  split <;> simp
@[simp] theorem setTimes_memories (s : State) (r : Res) (ts : List Nat) : (setTimes s r ts).memories = s.memories := (rfl)
@[simp] theorem event_memories (s : State) (r : Res) (n : Nat) : (event s r n).1.memories = s.memories := by
  unfold event
  dsimp only
  (repeat' split) <;> simp
@[simp] theorem recordWrite_memories (s : State) : (recordWrite s).2.memories = s.memories := by
  unfold recordWrite
  dsimp only
  (repeat' split) <;> simp
@[simp] theorem recordRetired_memories (s : State) (r : Res) :
    (recordRetired s r).memories = s.memories := by simp [recordRetired]
@[simp] theorem stopCopiesOn_memories (s : State) (g : Nat) : (stopCopiesOn s g).memories = s.memories := by
  unfold stopCopiesOn
  exact foldl_memories (fun _ _ => by dsimp only; (repeat' split) <;> simp) _ _
@[simp] theorem fenceCluster_memories (s : State) (g : Nat) : (fenceCluster s g).memories = s.memories := by simp [fenceCluster]
@[simp] theorem clusterEvent_memories (s : State) (g n : Nat) :
    (clusterEvent s g n).memories = s.memories := by simp [clusterEvent]
@[simp] theorem bypassMill_memories (s : State) (m : Nat) : (bypassMill s m).memories = s.memories := by simp [bypassMill]
@[simp] theorem millEvent_memories (s : State) (m : Nat) : (millEvent s m).memories = s.memories := by simp [millEvent]
@[simp] theorem exhaustBank_memories (s : State) (b : Nat) : (exhaustBank s b).memories = s.memories := by simp [exhaustBank]
@[simp] theorem retireRow_memories (s : State) (n : Nat) : (retireRow s n).memories = s.memories := by simp [retireRow]
@[simp] theorem rowEvent_memories (s : State) (a n : Nat) : (rowEvent s a n).memories = s.memories := by simp [rowEvent]
@[simp] theorem losePc_memories (s : State) (c : Nat) : (losePc s c).memories = s.memories := by simp [losePc]
@[simp] theorem meetStore_memories (s : State) (runs : List (Nat × Nat)) : (meetStore s runs).1.memories = s.memories := by
  unfold meetStore
  dsimp only
  (repeat' split) <;> simp
@[simp] theorem meetDeep_memories (s : State) (src : Nat) (runs : List (Nat × Nat)) :
    (meetDeep s src runs).1.memories = s.memories := by
  unfold meetDeep
  dsimp only
  (repeat' split) <;> simp
@[simp] theorem meetRuns_memories (s : State) (src : Nat) (rs : List (Nat × Nat) × List (Nat × Nat)) :
    (meetRuns s src rs).1.memories = s.memories := by
  unfold meetRuns
  dsimp only
  (repeat' split) <;> simp

/-! #### Frames -/

@[simp] theorem setPort_memories (s : State) (p : Nat) (x : PortSt) : (setPort s p x).memories = s.memories := (rfl)

/-! #### Routing -/

@[simp] theorem setQueue_memories (s : State) (q : Nat) (x : PktQ) : (setQueue s q x).memories = s.memories := (rfl)
@[simp] theorem setCtl_memories (s : State) (p : Nat) (l : List QEntry) : (setCtl s p l).memories = s.memories := (rfl)
@[simp] theorem setSrcq_memories (s : State) (cid : Nat) (l : List QEntry) : (setSrcq s cid l).memories = s.memories := (rfl)
@[simp] theorem putCopy_memories (s : State) (uid : Nat) (org : Machine.Origin) (c : Copy) :
    (putCopy s uid org c).1.memories = s.memories := by
  unfold putCopy
  (repeat' split) <;> simp
@[simp] theorem unreachable_memories (s : State) (job n : Nat) :
    (unreachable s job n).memories = s.memories := by simp [unreachable]
@[simp] theorem doorCount_memories (s : State) (chk : Nat) : (doorCount s chk).memories = s.memories := (rfl)

/-! #### Admission -/

@[simp] theorem mirrorSee_memories (s : State) (point unit verdict : Nat) (f : Frame) :
    (mirrorSee s point unit verdict f).memories = s.memories := by simp [mirrorSee]
@[simp] theorem stopLaunch_memories (s : State) (core fn launch status : Nat) :
    (stopLaunch s core fn launch status).memories = s.memories := by
  unfold stopLaunch
  split <;> simp
@[simp] theorem endHost_memories (s : State) (fn ring idx status : Nat) :
    (endHost s fn ring idx status).memories = s.memories := (rfl)
@[simp] theorem resumeTable_memories (s : State) (fn ring idx : Nat) : (resumeTable s fn ring idx).memories = s.memories := (rfl)
@[simp] theorem dropRequests_memories (s : State) (fn ring idx : Nat) :
    (dropRequests s fn ring idx).memories = s.memories := (rfl)
@[simp] theorem markAdmitted_memories (s : State) (o : Machine.Origin) : (markAdmitted s o).memories = s.memories := by
  unfold markAdmitted
  split <;> simp
@[simp] theorem stopSender_memories (s : State) (o : Machine.Origin) : (stopSender s o).memories = s.memories := by
  unfold stopSender
  split <;> simp
@[simp] theorem dropFrame_memories (s : State) (o : Machine.Origin) (reason : Nat) :
    (dropFrame s o reason).memories = s.memories := by
  unfold dropFrame
  split <;> simp
@[simp] theorem setPol_memories (s : State) (k : Nat) (p : Policer) : (setPol s k p).memories = s.memories := (rfl)
@[simp] theorem setShp_memories (s : State) (k : Nat) (p : Shaper) : (setShp s k p).memories = s.memories := (rfl)
@[simp] theorem earlyDrop1_memories (s : State) (q colour : Nat) : (earlyDrop1 s q colour).1.memories = s.memories := by
  unfold earlyDrop1
  dsimp only
  (repeat' split) <;> simp
@[simp] theorem throttle1_memories (s : State) (d : Nat) (fn : Option Nat) :
    (throttle1 s d fn).memories = s.memories := by simp [throttle1]
@[simp] theorem throttle_memories (s : State) (o : Machine.Origin) : (throttle s o).memories = s.memories := by
  unfold throttle
  split <;> simp
@[simp] theorem waitAtDoor_memories (s : State) (p : Pkt) (policed : Bool) (cid : Option Nat) :
    (waitAtDoor s p policed cid).memories = s.memories := by simp [waitAtDoor]
@[simp] theorem countFallback_memories (s : State) : (countFallback s).memories = s.memories := (rfl)
@[simp] theorem rejudge_memories (s : State) : (rejudge s).memories = s.memories := by
  unfold rejudge
  exact foldl_memories (fun _ _ => by dsimp only; (repeat' split) <;> simp) _ _

/-! #### PortOps -/

@[simp] theorem setCir_memories (s : State) (cid st : Nat) : (setCir s cid st).memories = s.memories := (rfl)
@[simp] theorem sendCirBellTo_memories (s : State) (port dst job code cid status : Nat) :
    (sendCirBellTo s port dst job code cid status).memories = s.memories := by simp [sendCirBellTo]
@[simp] theorem sendCirBell_memories (s : State) (port code cid status : Nat) :
    (sendCirBell s port code cid status).memories = s.memories := by simp [sendCirBell]
@[simp] theorem fallBack_memories (s : State) (e : QEntry) : (fallBack s e).1.memories = s.memories := (rfl)
@[simp] theorem endOpens_memories (s : State) (cid status : Nat) :
    (endOpens s cid status).memories = s.memories := by simp [endOpens]
@[simp] theorem endCloses_memories (s : State) (cid status : Nat) :
    (endCloses s cid status).memories = s.memories := by simp [endCloses]
@[simp] theorem finishClose_memories (s : State) (cid : Nat) : (finishClose s cid).memories = s.memories := by simp [finishClose]
@[simp] theorem setPortState_memories (s : State) (p st : Nat) : (setPortState s p st).memories = s.memories := (rfl)
@[simp] theorem leftUp_memories (s : State) (p st : Nat) : (leftUp s p st).memories = s.memories := by simp [leftUp]
@[simp] theorem sendReport_memories (s : State) (p : Nat) : (sendReport s p).memories = s.memories := (rfl)

/-! #### Engine -/

@[simp] theorem countOf_memories (s : State) (off n : Nat) : (countOf s off n).memories = s.memories := by simp [countOf]
@[simp] theorem noteStep_memories (s : State) (core fn : Nat) (old new : EmitAcc) :
    (noteStep s core fn old new).memories = s.memories := by simp [noteStep]

/-! #### WorkList -/

@[simp] theorem issue_memories (s : State) (core fn : Nat) : (issue s core fn).memories = s.memories := by
  unfold issue
  dsimp only
  (repeat' split) <;> simp
@[simp] theorem finish_memories (s : State) (core fn : Nat) (ue : Bool) : (finish s core fn ue).memories = s.memories := by
  unfold finish
  (repeat' split) <;> simp
@[simp] theorem listStart_memories (k : CoreId) (s : State) : (listStart k s).memories = s.memories := by
  unfold listStart
  dsimp only
  (repeat' split) <;> simp
@[simp] theorem getFree_memories (s : State) (core w o n : Nat) : (getFree s core w o n).2.memories = s.memories := (rfl)
@[simp] theorem wakeTargets_memories (s : State) (core : Nat) (desc : List Byte) :
    (wakeTargets s core desc).memories = s.memories := by simp [wakeTargets]
@[simp] theorem faultLaunch_memories (s : State) (core fn launch : Nat) :
    (faultLaunch s core fn launch).memories = s.memories := by
  unfold faultLaunch
  split <;> simp
@[simp] theorem mapCopies_memories (s : State) (core fn : Nat) (f : List AsyncCopy → List AsyncCopy) :
    (mapCopies s core fn f).memories = s.memories := (rfl)
@[simp] theorem endCopy_memories (s : State) (core fn : Nat) (c : AsyncCopy) :
    (endCopy s core fn c).memories = s.memories := by simp [endCopy]
@[simp] theorem setPhase_memories (s : State) (core fn : Nat) (r : RunList) (p : Phase) :
    (setPhase s core fn r p).memories = s.memories := (rfl)
@[simp] theorem syncPil_memories (s : State) (g : Nat) : (syncPil s g).memories = s.memories := (rfl)
@[simp] theorem setSlot_memories (s : State) (g : Nat) (x : SlotSt) : (setSlot s g x).memories = s.memories := (rfl)
@[simp] theorem quantumExpire_memories (d : Die) (i : Clu) (s : State) : (quantumExpire d i s).memories = s.memories := by
  unfold quantumExpire
  dsimp only
  (repeat' split) <;> simp
@[simp] theorem resumeCopies_memories (s : State) (g fn : Nat) :
    (resumeCopies s g fn).memories = s.memories := by simp [resumeCopies]
@[simp] theorem newQuantum_memories (s : State) (g : Nat) : (newQuantum s g).memories = s.memories := by simp [newQuantum]
@[simp] theorem contextSwitchStart_memories (d : Die) (i : Clu) (s : State) :
    (contextSwitchStart d i s).memories = s.memories := by
  unfold contextSwitchStart
  dsimp only
  (repeat' split) <;> simp
@[simp] theorem clearUe_memories (s : State) (a n : Nat) : (clearUe s a n).memories = s.memories := (rfl)

/-! #### Remote -/

@[simp] theorem answer_memories (s : State) (f : Frame) (die status : Nat) (data : List Byte) :
    (answer s f die status data).memories = s.memories := (rfl)
@[simp] theorem logRefusal_memories (s : State) (f : Frame) (reason : Nat) :
    (logRefusal s f reason).memories = s.memories := (rfl)
@[simp] theorem refuseFrame_memories (s : State) (f : Frame) (die status reason : Nat) :
    (refuseFrame s f die status reason).memories = s.memories := by simp [refuseFrame]
@[simp] theorem landTally_memories (s : State) (fn die tally n : Nat) :
    (landTally s fn die tally n).memories = s.memories := by simp [landTally]
@[simp] theorem dropArrival_memories (s : State) (q : Nat) : (dropArrival s q).memories = s.memories := by
  unfold dropArrival
  (repeat' split) <;> simp
@[simp] theorem popArrival_memories (s : State) (q : Nat) : (popArrival s q).memories = s.memories := by
  unfold popArrival
  split <;> simp
@[simp] theorem mapArrivals_memories (s : State) (g : Nat → List QEntry → List QEntry) :
    (mapArrivals s g).memories = s.memories := by simp [mapArrivals]
@[simp] theorem dropCopies_memories (s : State) (uid : Nat) : (dropCopies s uid).memories = s.memories := by simp [dropCopies]
@[simp] theorem markCopies_memories (s : State) (uid : Nat) (ts : List Target) :
    (markCopies s uid ts).memories = s.memories := by simp [markCopies]
@[simp] theorem readTarget_memories (s : State) (t : Target) (n : Nat) : (readTarget s t n).1.memories = s.memories := by
  unfold readTarget
  split <;> simp
@[simp] theorem remoteRead_memories (q : Fin 9) (s : State) : (remoteRead q s).memories = s.memories := by
  unfold remoteRead
  (repeat' split) <;> simp
@[simp] theorem remoteAtomic_memories (q : Fin 9) (s : State) : (remoteAtomic q s).memories = s.memories := by
  unfold remoteAtomic
  (repeat' split) <;> simp
@[simp] theorem atomicFlags_memories (s : State) (d : Nat) (fl : FpFlags) : (atomicFlags s d fl).memories = s.memories := (rfl)
@[simp] theorem endRequest_memories (s : State) (tag : Nat) (r : Request) (status : Nat) :
    (endRequest s tag r status).memories = s.memories := (rfl)
@[simp] theorem setResult_memories (s : State) (r : Request) (v : Nat) : (setResult s r v).memories = s.memories := (rfl)
@[simp] theorem requestTimeout_memories (t : BitVec 12) (s : State) : (requestTimeout t s).memories = s.memories := by
  unfold requestTimeout
  (repeat' split) <;> simp

/-! #### Fabric -/

@[simp] theorem popRx_memories (s : State) (p : Nat) : (popRx s p).memories = s.memories := (rfl)
@[simp] theorem sendOn_memories (s : State) (p : Nat) (e : QEntry) : (sendOn s p e).memories = s.memories := by simp [sendOn]
@[simp] theorem sendCtl_memories (s : State) (p : Nat) : (sendCtl s p).memories = s.memories := by
  unfold sendCtl
  split <;> simp
@[simp] theorem sendPacket_memories (s : State) (p : Nat) : (sendPacket s p).memories = s.memories := by
  unfold sendPacket
  split <;> simp
@[simp] theorem setWire_memories (s : State) (p : Nat) (w : WireSt) : (setWire s p w).memories = s.memories := (rfl)
@[simp] theorem sendGuard_memories (s : State) (p : Nat) : (sendGuard s p).memories = s.memories := by simp [sendGuard]
@[simp] theorem meetOnce_memories (s : State) (src lo n : Nat) (u : Upsets) :
    (meetOnce s src lo n u).1.memories = s.memories := by
  unfold meetOnce
  dsimp only
  (repeat' split) <;> simp
@[simp] theorem sumpReadback_memories (q : Fin 72) (u : Upsets) (s : State) : (sumpReadback q u s).memories = s.memories := by
  unfold sumpReadback
  dsimp only
  (repeat' split) <;> simp
@[simp] theorem queueAvgUpdate_memories (s : State) : (queueAvgUpdate s).memories = s.memories := by simp [queueAvgUpdate]
@[simp] theorem canarySend_memories (n : Fin 8) (s : State) : (canarySend n s).memories = s.memories := by simp [canarySend]
@[simp] theorem delayOf_memories (s : State) (a b : Nat) : (delayOf s a b).2.memories = s.memories := by
  unfold delayOf
  split <;> simp
@[simp] theorem canaryReturn_memories (s : State) (f : Frame) : (canaryReturn s f).memories = s.memories := by
  unfold canaryReturn
  dsimp only
  (repeat' split) <;> simp
@[simp] theorem canaryArrive_memories (s : State) : (canaryArrive s).memories = s.memories := by
  unfold canaryArrive
  split <;> simp

/-! #### Circuit -/

@[simp] theorem fabFlip_memories (s : State) : (fabFlip s).memories = s.memories := by simp [fabFlip]
@[simp] theorem setRefusal_memories (s : State) (cid status : Nat) : (setRefusal s cid status).memories = s.memories := (rfl)
@[simp] theorem refuseRequest_memories (s : State) (p : Nat) (f : Frame) (status : Nat) :
    (refuseRequest s p f status).memories = s.memories := by simp [refuseRequest]
@[simp] theorem teardownForward_memories (cid : BitVec 16) (s : State) : (teardownForward cid s).memories = s.memories := by
  unfold teardownForward
  split <;> simp
@[simp] theorem circuitCloseSend_memories (cid : BitVec 16) (s : State) :
    (circuitCloseSend cid s).memories = s.memories := by simp [circuitCloseSend]
@[simp] theorem shiftChangeBell_memories (s : State) : (shiftChangeBell s).memories = s.memories := by
  unfold shiftChangeBell
  split <;> simp
@[simp] theorem shiftChangeStart_memories (s : State) : (shiftChangeStart s).memories = s.memories := by simp [shiftChangeStart]
@[simp] theorem openAuto_memories (s : State) : (openAuto s).memories = s.memories := by simp [openAuto]

/-! #### Mill -/

@[simp] theorem setHandler_memories (s : State) (m : Nat) (h : HandlerSt) : (setHandler s m h).memories = s.memories := (rfl)
@[simp] theorem MCtx.setReg_memories (c : MCtx) (s : State) (i v : Nat) : (MCtx.setReg c s i v).1.memories = s.memories := by
  unfold MCtx.setReg; (repeat' split) <;> simp
@[simp] theorem setAcc_memories (s : State) (m j : Nat) (v : Image) : (setAcc s m j v).memories = s.memories := (rfl)
@[simp] theorem setCtr_memories (s : State) (m j v : Nat) : (setCtr s m j v).memories = s.memories := (rfl)
@[simp] theorem streamFlags_memories (s : State) (m n : Nat) (fl : FpFlags) :
    (streamFlags s m n fl).memories = s.memories := (rfl)
@[simp] theorem setNondet_memories (s : State) (m n : Nat) : (setNondet s m n).memories = s.memories := (rfl)
@[simp] theorem millOut_memories (s : State) (c : MCtx) (p : Pair) (off : Nat) (bs : List Byte) :
    (millOut s c p off bs).memories = s.memories := by simp [millOut]
@[simp] theorem enterSort_memories (s : State) (c : MCtx) (keep : Nat) (r : SortRec) :
    (enterSort s c keep r).1.memories = s.memories := by
  unfold enterSort
  dsimp only
  (repeat' split) <;> simp
@[simp] theorem setCounts_memories (s : State) (m k : Nat) (v : Nat × Nat) : (setCounts s m k v).memories = s.memories := (rfl)
@[simp] theorem sendDisp_memories (s : State) (c : MCtx) (d : DispFrame) : (sendDisp s c d).memories = s.memories := (rfl)
@[simp] theorem placeRec_memories (s : State) (c : MCtx) (k : Nat) (r : SortRec) :
    (placeRec s c k r).1.memories = s.memories := by
  unfold placeRec
  dsimp only
  (repeat' split) <;> simp
@[simp] theorem meetMill_memories (s : State) (m n pc : Nat) (e : MillUpset) : (meetMill s m n pc e).memories = s.memories := by
  unfold meetMill
  split <;> simp
@[simp] theorem refuseMill_memories (s : State) (m : Nat) (f : Frame) (why : Nat) :
    (refuseMill s m f why).memories = s.memories := by simp [refuseMill]
@[simp] theorem millHandler_memories (m : MillIx) (e : MillUpset) (s : State) : (millHandler m e s).memories = s.memories := by
  unfold millHandler
  dsimp only
  (repeat' split) <;> simp
@[simp] theorem streamRemoveDone_memories (m : MillIx) (n : Byte) (s : State) :
    (streamRemoveDone m n s).memories = s.memories := by simp [streamRemoveDone]

/-! #### Time -/

@[simp] theorem stepTo_memories (s : State) (v : Nat) : (stepTo s v).memories = s.memories := (rfl)
@[simp] theorem stepBy_memories (s : State) (sum : Int) (n : Nat) : (stepBy s sum n).memories = s.memories := (rfl)
@[simp] theorem correctRate_memories (s : State) : (correctRate s).memories = s.memories := (rfl)
@[simp] theorem setDelay_memories (s : State) (p : Nat) (x : DelaySt) : (setDelay s p x).memories = s.memories := (rfl)
@[simp] theorem startExchanges_memories (s : State) (p : Nat) : (startExchanges s p).memories = s.memories := (rfl)
@[simp] theorem sendTsync_memories (s : State) (p src bseq blen ts : Nat) :
    (sendTsync s p src bseq blen ts).memories = s.memories := by simp [sendTsync]
@[simp] theorem setPad_memories (s : State) (p : Nat) : (setPad s p).memories = s.memories := by simp [setPad]
@[simp] theorem meanDelay_memories (s : State) (l : List Int) : (meanDelay s l).2.memories = s.memories := by
  unfold meanDelay
  dsimp only
  (repeat' split) <;> simp
@[simp] theorem delayExchangeStart_memories (p : Port) (t : DWord) (s : State) :
    (delayExchangeStart p t s).memories = s.memories := by simp [delayExchangeStart]
@[simp] theorem delayReplySend_memories (p : Port) (s : State) : (delayReplySend p s).memories = s.memories := by
  unfold delayReplySend
  dsimp only
  (repeat' split) <;> simp
@[simp] theorem setGang_memories (s : State) (st : Nat) : (setGang s st).memories = s.memories := (rfl)
@[simp] theorem sendBurst_memories (s : State) (mask src t : Nat) :
    (sendBurst s mask src t).memories = s.memories := by simp [sendBurst]
@[simp] theorem burstSend_memories (t : DWord) (s : State) : (burstSend t s).memories = s.memories := by simp [burstSend]
@[simp] theorem burstRelay_memories (t : DWord) (s : State) : (burstRelay t s).memories = s.memories := by
  unfold burstRelay
  split <;> simp
@[simp] theorem countPartial_memories (s : State) : (countPartial s).memories = s.memories := (rfl)
@[simp] theorem closeWindows_memories (s : State) : (closeWindows s).memories = s.memories := by simp [closeWindows]
@[simp] theorem useBurst_memories (s : State) (src : Nat) (sum : Int) (n : Nat) :
    (useBurst s src sum n).memories = s.memories := by simp [useBurst]
@[simp] theorem completeBurst_memories (s : State) (p : Nat) (b : BurstRx) :
    (completeBurst s p b).memories = s.memories := by simp [completeBurst]
@[simp] theorem holdoverEnter_memories (s : State) : (holdoverEnter s).memories = s.memories := by
  unfold holdoverEnter
  split <;> simp
@[simp] theorem standbyTakeover_memories (t : DWord) (s : State) :
    (standbyTakeover t s).memories = s.memories := by simp [standbyTakeover]
@[simp] theorem referenceLoss_memories (s : State) : (referenceLoss s).memories = s.memories := by simp [referenceLoss]
@[simp] theorem gsyncCapture_memories (s : State) : (gsyncCapture s).memories = s.memories := by simp [gsyncCapture]
@[simp] theorem gsyncPulse_memories (s : State) : (gsyncPulse s).memories = s.memories := by simp [gsyncPulse]
@[simp] theorem setBar_memories (s : State) (b : Nat) (v : Nat × Nat) : (setBar s b v).memories = s.memories := (rfl)
@[simp] theorem startBarrier_memories (s : State) (b : Nat) : (startBarrier s b).memories = s.memories := (rfl)
@[simp] theorem deviceArrival_memories (s : State) (b : Nat) :
    (deviceArrival s b).memories = s.memories := by simp [deviceArrival]
@[simp] theorem localArrival_memories (s : State) (b : Nat) : (localArrival s b).memories = s.memories := by simp [localArrival]
@[simp] theorem barrierArrival_memories (s : State) : (barrierArrival s).memories = s.memories := by
  unfold barrierArrival
  (repeat' split) <;> simp
@[simp] theorem barrierStartBell_memories (s : State) : (barrierStartBell s).memories = s.memories := by
  unfold barrierStartBell
  split <;> simp

/-! #### Maint -/

@[simp] theorem sendTraining_memories (s : State) (p : Nat) : (sendTraining s p).memories = s.memories := (rfl)
@[simp] theorem startTraining_memories (s : State) (p : Nat) :
    (startTraining s p).memories = s.memories := by simp [startTraining]
@[simp] theorem scrubSlice_memories (s : State) (d : Nat) : (scrubSlice s d).memories = s.memories := by simp [scrubSlice]

/-! #### Link -/

@[simp] theorem resendAll_memories (s : State) (p : Nat) : (resendAll s p).memories = s.memories := by simp [resendAll]
@[simp] theorem takeAck_memories (s : State) (p ack : Nat) : (takeAck s p ack).memories = s.memories := by simp [takeAck]
@[simp] theorem countFec_memories (s : State) (p : Nat) (fec : List (Nat × Nat)) :
    (countFec s p fec).memories = s.memories := by simp [countFec]
@[simp] theorem linkIdleSend_memories (p : Port) (s : State) : (linkIdleSend p s).memories = s.memories := by simp [linkIdleSend]
@[simp] theorem trainingFails_memories (s : State) (p : Nat) : (trainingFails s p).memories = s.memories := (rfl)
@[simp] theorem resume_memories (s : State) (p : Nat) (rt : Bool) (ack : Nat) :
    (resume s p rt ack).memories = s.memories := by simp [resume]
@[simp] theorem trainRetry_memories (p : Port) (s : State) : (trainRetry p s).memories = s.memories := by
  unfold trainRetry
  split <;> simp
@[simp] theorem sendControl_memories (s : State) (p op width mask at0 : Nat) :
    (sendControl s p op width mask at0).memories = s.memories := (rfl)
@[simp] theorem askWidth_memories (s : State) (p : Nat) : (askWidth s p).memories = s.memories := by simp [askWidth]
@[simp] theorem laneFail_memories (p : Port) (l : Fin 8) (s : State) :
    (laneFail p l s).memories = s.memories := by simp [laneFail]
@[simp] theorem portDrainEnd_memories (p : Port) (s : State) : (portDrainEnd p s).memories = s.memories := by
  unfold portDrainEnd
  dsimp only
  (repeat' split) <;> simp
@[simp] theorem downTimeout_memories (p : Port) (s : State) : (downTimeout p s).memories = s.memories := by simp [downTimeout]
@[simp] theorem linkReportTimeout_memories (p : Port) (s : State) :
    (linkReportTimeout p s).memories = s.memories := by simp [linkReportTimeout]

/-! #### Power -/

@[simp] theorem setGrant_memories (s : State) (g c : Nat) : (setGrant s g c).memories = s.memories := (rfl)
@[simp] theorem roundFree_memories (s : State) (x d : Int) : (roundFree s x d).2.memories = s.memories := by
  unfold roundFree
  split <;> simp
@[simp] theorem stackReading_memories (s : State) (d : Nat) (t : Int) :
    (stackReading s d t).memories = s.memories := by simp [stackReading]
@[simp] theorem takeReadings_memories (s : State) (r : Readings) :
    (takeReadings s r).memories = s.memories := by simp [takeReadings]
@[simp] theorem sensorLimits_memories (s : State) : (sensorLimits s).memories = s.memories := by simp [sensorLimits]
@[simp] theorem showIsland_memories (s : State) (g : Nat) : (showIsland s g).memories = s.memories := by simp [showIsland]
@[simp] theorem thermalLimit_memories (d : Die) (i : Clu) (s : State) : (thermalLimit d i s).memories = s.memories := by
  unfold thermalLimit
  dsimp only
  (repeat' split) <;> simp
@[simp] theorem grantSwitch_memories (d : Die) (i : Clu) (s : State) : (grantSwitch d i s).memories = s.memories := by
  unfold grantSwitch
  dsimp only
  (repeat' split) <;> simp
@[simp] theorem droop_memories (d : Die) (i : Clu) (s : State) : (droop d i s).memories = s.memories := by simp [droop]
@[simp] theorem droopRecovery_memories (d : Die) (i : Clu) (s : State) : (droopRecovery d i s).memories = s.memories := by
  unfold droopRecovery
  dsimp only
  (repeat' split) <;> simp
@[simp] theorem powerTelemetry_memories (w : Nat) (s : State) : (powerTelemetry w s).memories = s.memories := (rfl)
@[simp] theorem dozeIsl_memories (s : State) (g : Nat) : (dozeIsl s g).memories = s.memories := by simp [dozeIsl]
@[simp] theorem dozeEnter_memories (d : Die) (i : Clu) (s : State) :
    (dozeEnter d i s).memories = s.memories := by simp [dozeEnter]
@[simp] theorem islandWake_memories (d : Die) (i : Clu) (s : State) :
    (islandWake d i s).memories = s.memories := by simp [islandWake]
@[simp] theorem wakeComplete_memories (d : Die) (i : Clu) (s : State) : (wakeComplete d i s).memories = s.memories := by
  unfold wakeComplete
  dsimp only
  (repeat' split) <;> simp
@[simp] theorem wakeFn_memories (s : State) (fn : Nat) : (wakeFn s fn).memories = s.memories := by simp [wakeFn]
@[simp] theorem lampWake_memories (s : State) : (lampWake s).memories = s.memories := by simp [lampWake]
@[simp] theorem lampAlarm_memories (s : State) : (lampAlarm s).memories = s.memories := by simp [lampAlarm]
@[simp] theorem lampExitComplete_memories (s : State) : (lampExitComplete s).memories = s.memories := by simp [lampExitComplete]
@[simp] theorem bar0AccessWake_memories (off : Nat) (s : State) :
    (bar0AccessWake off s).memories = s.memories := by simp [bar0AccessWake]
@[simp] theorem setRails_memories (s : State) : (setRails s).memories = s.memories := (rfl)
@[simp] theorem replanIsland_memories (s : State) (g : Nat) : (replanIsland s g).memories = s.memories := by simp [replanIsland]
@[simp] theorem maintenanceLate_memories (n : Nat) (s : State) : (maintenanceLate n s).memories = s.memories := by
  unfold maintenanceLate
  split <;> simp
@[simp] theorem rowSpareCopyDone_memories (n : Nat) (s : State) : (rowSpareCopyDone n s).memories = s.memories := by
  unfold rowSpareCopyDone
  split <;> simp

/-! #### Tenants -/

@[simp] theorem setFn_memories (s : State) (fn : Nat) (x : FnSt) : (setFn s fn x).memories = s.memories := (rfl)
@[simp] theorem logControl_memories (s : State) (fn status : Nat) : (logControl s fn status).memories = s.memories := (rfl)
@[simp] theorem enableFn_memories (s : State) (fn : Nat) : (enableFn s fn).1.memories = s.memories := by
  unfold enableFn
  (repeat' split) <;> simp
@[simp] theorem cancelVectors_memories (s : State) (fn : Nat) : (cancelVectors s fn).memories = s.memories := (rfl)
@[simp] theorem discardFn_memories (s : State) (fn : Nat) : (discardFn s fn).memories = s.memories := by simp [discardFn]
@[simp] theorem drainBellOut_memories (s : State) (fn : Nat) : (drainBellOut s fn).memories = s.memories := by simp [drainBellOut]
@[simp] theorem stopFn_memories (s : State) (fn : Nat) : (stopFn s fn).memories = s.memories := (rfl)
@[simp] theorem removeStreams_memories (s : State) (fn : Nat) :
    (removeStreams s fn).memories = s.memories := by simp [removeStreams]
@[simp] theorem closeOpen_memories (s : State) (w : CirWait) : (closeOpen s w).memories = s.memories := by simp [closeOpen]
@[simp] theorem closeOpens_memories (s : State) (fn : Nat) : (closeOpens s fn).memories = s.memories := by simp [closeOpens]
@[simp] theorem startTeardown_memories (s : State) (fn : Nat) :
    (startTeardown s fn).memories = s.memories := by simp [startTeardown]
@[simp] theorem disableFn_memories (s : State) (fn : Nat) : (disableFn s fn).memories = s.memories := by simp [disableFn]
@[simp] theorem reclaimTallies_memories (s : State) (fn : Nat) : (reclaimTallies s fn).memories = s.memories := (rfl)
@[simp] theorem zeroTokens_memories (s : State) (fn : Nat) : (zeroTokens s fn).memories = s.memories := by simp [zeroTokens]
@[simp] theorem clearVfEnable_memories (s : State) : (clearVfEnable s).memories = s.memories := by simp [clearVfEnable]
@[simp] theorem resetConfig_memories (s : State) (fn : Nat) : (resetConfig s fn).memories = s.memories := by simp [resetConfig]
@[simp] theorem drainBell_memories (s : State) : (drainBell s).memories = s.memories := by
  unfold drainBell
  split <;> simp

/-! #### Pcie -/

@[simp] theorem setVec_memories (s : State) (fn v : Nat) (x : Machine.Vector) : (setVec s fn v x).memories = s.memories := (rfl)
@[simp] theorem sendMsix_memories (s : State) (fn v : Nat) : (sendMsix s fn v).memories = s.memories := (rfl)
@[simp] theorem fireVec_memories (s : State) (fn v : Nat) : (fireVec s fn v).memories = s.memories := by simp [fireVec]
@[simp] theorem unmask_memories (fn v : Nat) (s : State) : (unmask fn v s).memories = s.memories := by simp [unmask]
@[simp] theorem writeVec_memories (s : State) (fn v w val : Nat) :
    (writeVec s fn v w val).memories = s.memories := by simp [writeVec]
@[simp] theorem msixWrite_memories (s : State) (fn o val : Nat) :
    (msixWrite s fn o val).memories = s.memories := by simp [msixWrite]
@[simp] theorem configWrite_memories (s : State) (o val : Nat) : (configWrite s o val).memories = s.memories := by
  unfold configWrite
  (repeat' split) <;> simp
@[simp] theorem pcieRead_memories (off : Nat) (s : State) : (pcieRead off s).memories = s.memories := by
  unfold pcieRead
  split <;> simp
@[simp] theorem pcieWrite_memories (off val : Nat) (s : State) : (pcieWrite off val s).memories = s.memories := by
  unfold pcieWrite
  split <;> simp

/-! #### Tables -/

@[simp] theorem fabWrite_memories (s : State) (tid bank idx : Nat) (data : List Byte) :
    (fabWrite s tid bank idx data).1.memories = s.memories := by
  unfold fabWrite
  dsimp only
  (repeat' split) <;> simp
@[simp] theorem cirWrite_memories (s : State) (tid bank idx : Nat) (data : List Byte) :
    (cirWrite s tid bank idx data).1.memories = s.memories := by
  unfold cirWrite
  dsimp only
  (repeat' split) <;> simp
@[simp] theorem streamLoad_memories (s : State) (m n : Nat) (data : List Byte) :
    (streamLoad s m n data).1.memories = s.memories := by
  unfold streamLoad
  dsimp only
  (repeat' split) <;> simp
@[simp] theorem milWrite_memories (s : State) (tid idx : Nat) (data : List Byte) (who : Option (Nat × Nat × Nat)) :
    (milWrite s tid idx data who).1.memories = s.memories := by
  unfold milWrite
  dsimp only
  (repeat' split) <;> simp
@[simp] theorem tblWrite_memories (s : State) (tid bank idx : Nat) (data : List Byte) (who : Option (Nat × Nat × Nat)) :
    (tblWrite s tid bank idx data who).1.memories = s.memories := by
  unfold tblWrite
  (repeat' split) <;> simp
@[simp] theorem winDone_memories (s : State) (w : Window3) (st : Nat) : (winDone s w st).memories = s.memories := (rfl)
@[simp] theorem newCommand_memories (s : State) (w : Window3) : (newCommand s w).memories = s.memories := by simp [newCommand]
@[simp] theorem winWrite_memories (s : State) (w : Window3) : (winWrite s w).memories = s.memories := by simp [winWrite]
@[simp] theorem winRead_memories (s : State) (w : Window3) : (winRead s w).memories = s.memories := by
  unfold winRead
  dsimp only
  (repeat' split) <;> simp
@[simp] theorem winCommand_memories (s : State) (w : Window3) (v : Nat) :
    (winCommand s w v).memories = s.memories := by simp [winCommand]

/-! #### Mgmt -/

@[simp] theorem setMgmt_memories (s : State) (m : MgmtSt) : (setMgmt s m).memories = s.memories := (rfl)
@[simp] theorem mgtConflict_memories (s : State) (res : Nat) : (mgtConflict s res).memories = s.memories := by simp [mgtConflict]
@[simp] theorem logByte_memories (s : State) (b : Byte) : (logByte s b).memories = s.memories := by simp [logByte]
@[simp] theorem uartDataWrite_memories (host : Bool) (b : Byte) (s : State) :
    (uartDataWrite host b s).memories = s.memories := by simp [uartDataWrite]
@[simp] theorem uartDataRead_memories (host : Bool) (s : State) : (uartDataRead host s).memories = s.memories := by
  unfold uartDataRead
  split <;> simp
@[simp] theorem uartRxFrame_memories (b : Byte) (stop : Bool) (s : State) :
    (uartRxFrame b stop s).memories = s.memories := by simp [uartRxFrame]
@[simp] theorem uartByteSent_memories (s : State) : (uartByteSent s).memories = s.memories := by
  unfold uartByteSent
  split <;> simp
@[simp] theorem programFlash_memories (s : State) (a : Nat) (bs : List Byte) :
    (programFlash s a bs).memories = s.memories := (rfl)
@[simp] theorem eraseFlash_memories (s : State) (a n : Nat) : (eraseFlash s a n).memories = s.memories := (rfl)
@[simp] theorem touchRecords_memories (s : State) (a n : Nat) :
    (touchRecords s a n).memories = s.memories := by simp [touchRecords]
@[simp] theorem flashRead_memories (s : State) (a n : Nat) : (flashRead s a n).2.memories = s.memories := by
  unfold flashRead
  split <;> simp
@[simp] theorem spiDone_memories (s : State) (st : Nat) : (spiDone s st).memories = s.memories := by simp [spiDone]
@[simp] theorem spiCommand_memories (op : Nat) (spBusy : Bool) (s : State) :
    (spiCommand op spBusy s).memories = s.memories := by simp [spiCommand]
@[simp] theorem spiEffect_memories (s : State) (x : SpiOp) : (spiEffect s x).memories = s.memories := by simp [spiEffect]
@[simp] theorem spiOpDone_memories (timedOut : Bool) (s : State) : (spiOpDone timedOut s).memories = s.memories := by
  unfold spiOpDone
  split <;> simp
@[simp] theorem alertHigh_memories (s : State) : (alertHigh s).memories = s.memories := by simp [alertHigh]
@[simp] theorem capWrite_memories (w : BitVec 16) (pecOk : Bool) (s : State) :
    (capWrite w pecOk s).memories = s.memories := by simp [capWrite]
@[simp] theorem alertResponse_memories (won : Bool) (s : State) :
    (alertResponse won s).memories = s.memories := by simp [alertResponse]
@[simp] theorem railFault_memories (s : State) (failed bad : Bool) :
    (railFault s failed bad).memories = s.memories := by simp [railFault]
@[simp] theorem pmbusIoutPoll_memories (rails : List RailTry) (s : State) :
    (pmbusIoutPoll rails s).memories = s.memories := by simp [pmbusIoutPoll]
@[simp] theorem busFreed_memories (s : State) : (busFreed s).memories = s.memories := (rfl)
@[simp] theorem busRecovery_memories (freed : Bool) (s : State) :
    (busRecovery freed s).memories = s.memories := by simp [busRecovery]
@[simp] theorem busRecoveryRepeat_memories (freed : Bool) (s : State) : (busRecoveryRepeat freed s).memories = s.memories := by
  unfold busRecoveryRepeat
  split <;> simp
@[simp] theorem imonOne_memories (s : State) (i mv : Nat) : (imonOne s i mv).memories = s.memories := by simp [imonOne]
@[simp] theorem gpioEdge_memories (n : Fin 16) (level : Bool) (s : State) :
    (gpioEdge n level s).memories = s.memories := by simp [gpioEdge]
@[simp] theorem gpioPulse_memories (n : Fin 16) (s : State) : (gpioPulse n s).memories = s.memories := by
  unfold gpioPulse
  dsimp only
  (repeat' split) <;> simp
@[simp] theorem testInstr_memories (k : Nat) (s : State) : (testInstr k s).memories = s.memories := (rfl)

/-! #### Reset -/

@[simp] theorem hotReset_memories (s : State) : (hotReset s).memories = s.memories := by simp [hotReset]
@[simp] theorem setBoot_memories (s : State) (p : Nat) : (setBoot s p).memories = s.memories := (rfl)
@[simp] theorem restoreAges_memories (s : State) : (restoreAges s).memories = s.memories := by simp [restoreAges]
@[simp] theorem startBoot_memories (s : State) (sfdp : Option Byte) : (startBoot s sfdp).memories = s.memories := by
  unfold startBoot
  split <;> simp
@[simp] theorem resetRelease_memories (straps : BitVec 2) (sfdp : Option Byte) (s : State) :
    (resetRelease straps sfdp s).memories = s.memories := by simp [resetRelease]
@[simp] theorem bootLinkTrained_memories (s : State) : (bootLinkTrained s).memories = s.memories := by simp [bootLinkTrained]
@[simp] theorem bootImageSelect_memories (s : State) : (bootImageSelect s).memories = s.memories := by simp [bootImageSelect]
@[simp] theorem restoreRes_memories (s : State) (r : Res) : (restoreRes s r).memories = s.memories := by
  unfold restoreRes
  split <;> simp
@[simp] theorem restoreRows_memories (s : State) : (restoreRows s).memories = s.memories := by simp [restoreRows]
@[simp] theorem selfTest_memories (f : SelfTest) (s : State) : (selfTest f s).memories = s.memories := by simp [selfTest]
@[simp] theorem stopBefore_memories (s : State) (fn t : Nat) : (stopBefore s fn t).memories = s.memories := by simp [stopBefore]
@[simp] theorem faultBellReceive_memories (s : State) : (faultBellReceive s).memories = s.memories := by
  unfold faultBellReceive
  dsimp only
  (repeat' split) <;> simp

/-! #### Setup -/

@[simp] theorem refuseAt_memories (s : State) (off bitNo : Nat) : (refuseAt s off bitNo).1.memories = s.memories := (rfl)
@[simp] theorem commitIf_memories (ok : Bool) (s : State) (off new errOff errBit : Nat) :
    (commitIf ok s off new errOff errBit).1.memories = s.memories := by
  unfold commitIf
  split <;> simp
@[simp] theorem commitField_memories (ok : Bool) (s : State) (off new hi lo errOff errBit : Nat) :
    (commitField ok s off new hi lo errOff errBit).1.memories = s.memories := by
  unfold commitField
  split <;> simp
@[simp] theorem writeFrec_memories (s : State) (v new : Nat) : (writeFrec s v new).1.memories = s.memories := by
  unfold writeFrec
  (repeat' split) <;> simp
@[simp] theorem writeTb_memories (lk : Bool) (s : State) (off new : Nat) : (writeTb lk s off new).1.memories = s.memories := by
  unfold writeTb
  (repeat' split) <;> simp
@[simp] theorem commitTbSet_memories (s : State) (v : Nat) : (commitTbSet s v).1.memories = s.memories := by
  unfold commitTbSet
  split <;> simp
@[simp] theorem writeVfCtl_memories (s : State) (n v : Nat) : (writeVfCtl s n v).1.memories = s.memories := by
  unfold writeVfCtl
  dsimp only
  (repeat' split) <;> simp
@[simp] theorem writeHst_memories (lk : Bool) (s : State) (off v new : Nat) :
    (writeHst lk s off v new).1.memories = s.memories := by
  unfold writeHst
  dsimp only
  (repeat' split) <;> simp
@[simp] theorem writeEpoch_memories (s : State) (v new : Nat) : (writeEpoch s v new).1.memories = s.memories := by
  unfold writeEpoch
  dsimp only
  (repeat' split) <;> simp
@[simp] theorem writeFab_memories (s : State) (off v new : Nat) : (writeFab s off v new).1.memories = s.memories := by
  unfold writeFab
  (repeat' split) <;> simp
@[simp] theorem writeCirCtl_memories (s : State) (v new : Nat) : (writeCirCtl s v new).1.memories = s.memories := by
  unfold writeCirCtl
  dsimp only
  (repeat' split) <;> simp
@[simp] theorem writeCir_memories (s : State) (off v new : Nat) : (writeCir s off v new).1.memories = s.memories := by
  unfold writeCir
  (repeat' split) <;> simp
@[simp] theorem commitPolicer_memories (lk : Bool) (s : State) (k new : Nat) :
    (commitPolicer lk s k new).1.memories = s.memories := by
  unfold commitPolicer
  dsimp only
  (repeat' split) <;> simp
@[simp] theorem commitShaper_memories (lk : Bool) (s : State) (k new : Nat) :
    (commitShaper lk s k new).1.memories = s.memories := by
  unfold commitShaper
  dsimp only
  (repeat' split) <;> simp
@[simp] theorem writePol_memories (lk : Bool) (s : State) (off new : Nat) : (writePol lk s off new).1.memories = s.memories := by
  unfold writePol
  split <;> simp
@[simp] theorem writeShp_memories (lk : Bool) (s : State) (off new : Nat) : (writeShp lk s off new).1.memories = s.memories := by
  unfold writeShp
  split <;> simp
@[simp] theorem writeMirCtl_memories (s : State) (new : Nat) : (writeMirCtl s new).1.memories = s.memories := by
  unfold writeMirCtl
  (repeat' split) <;> simp
@[simp] theorem writeMir_memories (s : State) (off new : Nat) : (writeMir s off new).1.memories = s.memories := by
  unfold writeMir
  (repeat' split) <;> simp
@[simp] theorem writeUnit_memories (s : State) (m new : Nat) : (writeUnit s m new).1.memories = s.memories := by
  unfold writeUnit
  dsimp only
  (repeat' split) <;> simp
@[simp] theorem writeMil_memories (s : State) (off v new : Nat) : (writeMil s off v new).1.memories = s.memories := by
  unfold writeMil
  (repeat' split) <;> simp
@[simp] theorem writeLevels_memories (s : State) (off new : Nat) : (writeLevels s off new).1.memories = s.memories := by
  unfold writeLevels
  dsimp only
  (repeat' split) <;> simp
@[simp] theorem writeDst_memories (lk : Bool) (s : State) (off new : Nat) : (writeDst lk s off new).1.memories = s.memories := by
  unfold writeDst
  dsimp only
  (repeat' split) <;> simp
@[simp] theorem clErr_memories (s : State) (d : Nat) (sts : List Nat) (idx : Nat) :
    (clErr s d sts idx).memories = s.memories := by simp [clErr]
@[simp] theorem writeCpx_memories (s : State) (off new : Nat) : (writeCpx s off new).1.memories = s.memories := by
  unfold writeCpx
  dsimp only
  (repeat' split) <;> simp
@[simp] theorem gangWritten_memories (s : State) (was : Bool) : (gangWritten s was).memories = s.memories := by simp [gangWritten]
@[simp] theorem writeBar_memories (lk : Bool) (s : State) (b w new : Nat) : (writeBar lk s b w new).1.memories = s.memories := by
  unfold writeBar
  dsimp only
  (repeat' split) <;> simp
@[simp] theorem writeMgtCtl_memories (s : State) (new : Nat) : (writeMgtCtl s new).1.memories = s.memories := by
  unfold writeMgtCtl
  split <;> simp
@[simp] theorem writeUart_memories (s : State) (new : Nat) : (writeUart s new).1.memories = s.memories := by
  unfold writeUart
  dsimp only
  (repeat' split) <;> simp
@[simp] theorem drivePin_memories (s : State) (n : Nat) : (drivePin s n).memories = s.memories := by simp [drivePin]
@[simp] theorem writeGpio_memories (s : State) (n new : Nat) : (writeGpio s n new).1.memories = s.memories := by
  unfold writeGpio
  dsimp only
  (repeat' split) <;> simp
@[simp] theorem writeGpioOut_memories (s : State) (new : Nat) :
    (writeGpioOut s new).memories = s.memories := by simp [writeGpioOut]
@[simp] theorem writeMgt_memories (lk : Bool) (s : State) (off v new : Nat) :
    (writeMgt lk s off v new).1.memories = s.memories := by
  unfold writeMgt
  (repeat' split) <;> simp
@[simp] theorem bar0Read_memories (off : Nat) (s : State) : (bar0Read off s).memories = s.memories := by
  unfold bar0Read
  (repeat' split) <;> simp
@[simp] theorem epochFlipAt_memories (s : State) : (epochFlipAt s).memories = s.memories := by simp [epochFlipAt]
@[simp] theorem retentionEnd_memories (s : State) : (retentionEnd s).memories = s.memories := by simp [retentionEnd]

/-! #### HostIf -/

@[simp] theorem reportAer_memories (s : State) (fn : Nat) : (reportAer s fn).memories = s.memories := (rfl)
@[simp] theorem hasRead_memories (s : State) : (hasRead s).memories = s.memories := (rfl)
@[simp] theorem setRing_memories (s : State) (fn r : Nat) (x : Machine.Ring) : (setRing s fn r x).memories = s.memories := (rfl)
@[simp] theorem restartRing_memories (entries : List Byte) (fn : Nat) (s : State) (r : Nat) :
    (restartRing entries fn s r).memories = s.memories := by simp [restartRing]
@[simp] theorem takeConfig_memories (s : State) (fn gen : Nat) (entries : List Byte) :
    (takeConfig s fn gen entries).memories = s.memories := by simp [takeConfig]
@[simp] theorem seeTail_memories (page : List Byte) (fn : Nat) (s : State) (r : Nat) :
    (seeTail page fn s r).memories = s.memories := by
  unfold seeTail
  split <;> simp
@[simp] theorem doorbellPoll_memories (fn : Nat) (page entries : List Byte) (s : State) :
    (doorbellPoll fn page entries s).memories = s.memories := by simp [doorbellPoll]
@[simp] theorem readHead_memories (s : State) (fn r cqh : Nat) : (readHead s fn r cqh).memories = s.memories := by
  unfold readHead
  split <;> simp
@[simp] theorem served_memories (s : State) (fn : Nat) : (served s fn).memories = s.memories := (rfl)
@[simp] theorem descriptorFetch_memories (fn r cqh : Nat) (data : List Byte) (s : State) :
    (descriptorFetch fn r cqh data s).memories = s.memories := by
  unfold descriptorFetch
  dsimp only
  (repeat' split) <;> simp
@[simp] theorem updDesc_memories (s : State) (r : DescRef) (f : HostDesc → HostDesc) :
    (updDesc s r f).memories = s.memories := (rfl)
@[simp] theorem endDesc_memories (s : State) (r : DescRef) (st : Nat) : (endDesc s r st).memories = s.memories := (rfl)
@[simp] theorem workDesc_memories (s : State) (r : DescRef) : (workDesc s r).memories = s.memories := (rfl)
@[simp] theorem launchOn_memories (r : DescRef) (fn g addr : Nat) (s : State) (c : Nat) :
    (launchOn r fn g addr s c).memories = s.memories := (rfl)
@[simp] theorem launchBody_memories (r : DescRef) (h : HostDesc) (s : State) :
    (launchBody r h s).memories = s.memories := by simp [launchBody]
@[simp] theorem copyMoved_memories (r : DescRef) (h : HostDesc) (s : State) :
    (copyMoved r h s).memories = s.memories := by simp [copyMoved]
@[simp] theorem copyOut_memories (r : DescRef) (h : HostDesc) (s : State) :
    (copyOut r h s).memories = s.memories := by simp [copyOut]
@[simp] theorem sendRequest_memories (r : DescRef) (h : HostDesc) (typ tsw : Nat) (more : List Byte) (s : State) :
    (sendRequest r h typ tsw more s).memories = s.memories := by
  unfold sendRequest
  split <;> simp
@[simp] theorem rreadBody_memories (r : DescRef) (h : HostDesc) (s : State) :
    (rreadBody r h s).memories = s.memories := by simp [rreadBody]
@[simp] theorem ratomicBody_memories (r : DescRef) (h : HostDesc) (s : State) :
    (ratomicBody r h s).memories = s.memories := by simp [ratomicBody]
@[simp] theorem sendMill_memories (h : HostDesc) (s : State) (p : Nat × List Byte) :
    (sendMill h s p).memories = s.memories := (rfl)
@[simp] theorem msendBody_memories (r : DescRef) (data : List Byte) (h : HostDesc) (s : State) :
    (msendBody r data h s).memories = s.memories := by simp [msendBody]
@[simp] theorem fctlEnableBody_memories (r : DescRef) (h : HostDesc) (s : State) :
    (fctlEnableBody r h s).memories = s.memories := by simp [fctlEnableBody]
@[simp] theorem fctlStopBody_memories (r : DescRef) (h : HostDesc) (s : State) :
    (fctlStopBody r h s).memories = s.memories := by simp [fctlStopBody]
@[simp] theorem fbindBody_memories (r : DescRef) (h : HostDesc) (s : State) :
    (fbindBody r h s).memories = s.memories := by simp [fbindBody]
@[simp] theorem granBody_memories (on : Bool) (r : DescRef) (h : HostDesc) (s : State) :
    (granBody on r h s).memories = s.memories := by simp [granBody]
@[simp] theorem tblrdBody_memories (r : DescRef) (h : HostDesc) (s : State) :
    (tblrdBody r h s).memories = s.memories := by simp [tblrdBody]
@[simp] theorem winLoadBody_memories (r : DescRef) (h : HostDesc) (s : State) :
    (winLoadBody r h s).memories = s.memories := by simp [winLoadBody]
@[simp] theorem winRemoveBody_memories (r : DescRef) (h : HostDesc) (s : State) :
    (winRemoveBody r h s).memories = s.memories := by simp [winRemoveBody]
@[simp] theorem winRecordBody_memories (clear : Bool) (r : DescRef) (h : HostDesc) (s : State) :
    (winRecordBody clear r h s).memories = s.memories := by simp [winRecordBody]
@[simp] theorem cirOpenBody_memories (r : DescRef) (h : HostDesc) (s : State) :
    (cirOpenBody r h s).memories = s.memories := by simp [cirOpenBody]
@[simp] theorem cirCloseBody_memories (r : DescRef) (h : HostDesc) (s : State) :
    (cirCloseBody r h s).memories = s.memories := by simp [cirCloseBody]
@[simp] theorem countVec_memories (s : State) (fn : Nat) (e : List Byte) :
    (countVec s fn e).memories = s.memories := by simp [countVec]
@[simp] theorem completeHost_memories (r : DescRef) (s : State) : (completeHost r s).memories = s.memories := by
  unfold completeHost
  (repeat' split) <;> simp
@[simp] theorem mtimeExpire_memories (fn v : Nat) (s : State) :
    (mtimeExpire fn v s).memories = s.memories := by simp [mtimeExpire]
@[simp] theorem fetchError_memories (r : DescRef) (s : State) : (fetchError r s).memories = s.memories := by
  unfold fetchError
  split <;> simp
@[simp] theorem pollError_memories (fn : Nat) (entries : Bool) (s : State) :
    (pollError fn entries s).memories = s.memories := by simp [pollError]
@[simp] theorem headError_memories (fn r : Nat) (s : State) : (headError fn r s).memories = s.memories := by
  unfold headError
  split <;> simp
@[simp] theorem accessError_memories (r : HostRead) (s : State) : (accessError r s).memories = s.memories := by
  unfold accessError
  (repeat' split) <;> simp

/-! #### Tick -/

@[simp] theorem keepBusy_memories (s : State) : (keepBusy s).memories = s.memories := by simp [keepBusy]
@[simp] theorem meshNs_memories (s : State) (d : Nat) : (meshNs s d).memories = s.memories := (rfl)

/-! ### The shapes of a row, and the writers of one run of bytes -/

@[simp] theorem canonical_ite {c : Prop} [Decidable c] {a b : List (Nat × Byte) × List (Nat × Byte)}
    (ha : Canonical a) (hb : Canonical b) : Canonical (if c then a else b) := by split <;> assumption

@[simp] theorem foldl_canonical {α : Type} {f : State → α → State}
    (hf : ∀ s x, Canonical s.memories → Canonical (f s x).memories) (l : List α) {s : State} (h : Canonical s.memories) :
    Canonical (l.foldl f s).memories := by
  induction l generalizing s with
  | nil => exact h
  | cons x r ih => exact ih (hf s x h)

@[simp] theorem foldl_canonical_fst {α β : Type} {f : State × β → α → State × β}
    (hf : ∀ a x, Canonical a.1.memories → Canonical (f a x).1.memories) (l : List α) {a : State × β}
    (h : Canonical a.1.memories) :
    Canonical (l.foldl f a).1.memories := by
  induction l generalizing a with
  | nil => exact h
  | cons x r ih => exact ih (hf a x h)

@[simp] theorem markBusy_memories (g : Nat) (s t : State) : (markBusy g s t).memories = t.memories := by simp [markBusy]
@[simp] theorem keepFlash_memories (s t : State) : (keepFlash s t).memories = t.memories := (rfl)
@[simp] theorem keepModel_memories (s t : State) : (keepModel s t).memories = t.memories := (rfl)
@[simp] theorem reset_canonical : Canonical State.reset.memories := ⟨rfl, rfl⟩

section
variable {s : State}
@[simp] theorem meeting_canonical {u : Upsets} {f : State → State} (hf : ∀ t, Canonical t.memories → Canonical (f t).memories)
    (h : Canonical s.memories) :
    Canonical (meeting u f s).memories := by
  unfold meeting
  have : Canonical (List.foldl losePc s u.lost).memories := foldl_canonical (by simp) _ h
  exact hf _ this
@[simp] theorem onOp_memories {k : CoreId} {p : List Byte → Bool} {f : Nat → RunList → State}
    (hf : ∀ fn r, (f fn r).memories = s.memories) :
    (onOp s k p f).memories = s.memories := by
  unfold onOp
  split
  · split
    · exact hf _ _
    · rfl
  · rfl
@[simp] theorem onOp_canonical {k : CoreId} {p : List Byte → Bool} {f : Nat → RunList → State} (h : Canonical s.memories)
    (hf : ∀ fn r, Canonical (f fn r).memories) :
    Canonical (onOp s k p f).memories := by
  unfold onOp
  split
  · split
    · exact hf _ _
    · exact h
  · exact h
@[simp] theorem onWait_memories {k : CoreId} {m : Nat} {f : Nat → RunList → Nat → State}
    (hf : ∀ fn r t, (f fn r t).memories = s.memories) :
    (onWait s k m f).memories = s.memories := by
  unfold onWait
  repeat' split
  all_goals simp [hf]
@[simp] theorem startDesc_memories {row : HRow} {r : DescRef} {body : HostDesc → State → State}
    (hf : ∀ h, (body h s).memories = s.memories) :
    (startDesc row r body s).memories = s.memories := by
  unfold startDesc
  repeat' split
  all_goals simp [hf]
@[simp] theorem startDesc_canonical {row : HRow} {r : DescRef} {body : HostDesc → State → State}
    (h : Canonical s.memories) (hf : ∀ h, Canonical (body h s).memories) :
    Canonical (startDesc row r body s).memories := by
  unfold startDesc
  repeat' split
  all_goals simp [hf, h]
end

/-- The two byte memories of the state that a mill instruction gives. -/
def MRes.memories : MRes → List (Nat × Byte) × List (Nat × Byte)
  | .go t _ _ => t.memories
  | .done t => t.memories
  | .trap t _ => t.memories
@[simp] theorem MRes.memories_go (t g pc) : (MRes.go t g pc).memories = t.memories := rfl
@[simp] theorem MRes.memories_done (t) : (MRes.done t).memories = t.memories := rfl
@[simp] theorem MRes.memories_trap (t c) : (MRes.trap t c).memories = t.memories := rfl
@[simp] theorem MRes.memories_ite (c : Prop) [Decidable c] (a b : MRes) :
    (if c then a else b).memories = if c then a.memories else b.memories := apply_ite _ _ _ _
@[simp] theorem millStep_memories {m op : Nat} {pick used : MCtx → Bool} {eff : State → MCtx → MRes} {s : State}
    (hf : ∀ c, (eff s c).memories = s.memories) : (millStep m op pick used eff s).memories = s.memories := by
  unfold millStep
  split
  · rfl
  · next h _ =>
    have heff := hf ⟨m, h, codeWord s m h.pc⟩
    cases he : eff s ⟨m, h, codeWord s m h.pc⟩ <;> rw [he] at heff <;> simp_all
@[simp] theorem writeKey_canonical {s : State} (h : Canonical s.memories) (a : Nat) (bs : List Byte) :
    Canonical (writeKey s a bs).1.memories :=
  ⟨writeKey_wf h.1 a bs, h.2⟩
@[simp] theorem writeDeep_canonical {s : State} (h : Canonical s.memories) (a : Nat) (bs : List Byte) :
    Canonical (writeDeep s a bs).memories :=
  ⟨h.1, writeDeep_wf h.2 a bs⟩
@[simp] theorem zeroCluster_canonical {s : State} (h : Canonical s.memories) (g : Nat) : Canonical (zeroCluster s g).memories :=
  ⟨Mem.wf_memClear h.1 _ _, h.2⟩

/-! ### Writers and what calls them: stores, routing, admission, ports -/

/-! #### Ops -/

@[simp] theorem writeImage_canonical (s : State) (a : Nat) (bs : List Byte) (hs : Canonical s.memories) :
    Canonical (writeImage s a bs).memories := by simp [writeImage, hs]

/-! #### Faults -/

@[simp] theorem putStore_canonical (s : State) (a : Nat) (bs : List Byte) (hs : Canonical s.memories) :
    Canonical (putStore s a bs).1.memories := by
  unfold putStore
  dsimp only
  (repeat' split) <;> simp [hs]
@[simp] theorem putPlace_canonical (s : State) (g fn a : Nat) (bs : List Byte) (hs : Canonical s.memories) :
    Canonical (putPlace s g fn a bs).1.memories := by
  unfold putPlace
  exact foldl_canonical_fst (fun _ _ h => by dsimp only; (repeat' split) <;> simp [h]) _ hs

/-! #### Routing -/

@[simp] theorem transitPut_memories (s : State) (uid : Nat) (org : Origin) (cs : List Copy) :
    (transitPut s uid org cs).memories = s.memories := by
  unfold transitPut
  extract_lets r
  have hr : r.1.memories = s.memories := foldl_memories_fst (fun _ _ => by dsimp only; (repeat' split) <;> simp) cs (s, false)
  simp [hr]
theorem placeAll_memories {p : Pkt} {cs : List Copy} {s t : State} (h : placeAll s p cs = some t) : t.memories = s.memories := by
  refine List.foldlRecOn (motive := fun a => ∀ t, a = some t → t.memories = s.memories) cs _ ?_ ?_ t h
  · rintro _ ⟨⟩; rfl
  · intro a ha c _ t ht
    cases a with
    | none => cases ht
    | some u =>
      dsimp only at ht
      split at ht
      all_goals
        split at ht <;> cases ht
        simp [ha _ rfl]
@[simp] theorem forward_memories (s : State) (uid : Nat) (org : Origin) (f : Frame) (arr : Option Nat) :
    (forward s uid org f arr).memories = s.memories := by simp [forward]

/-! #### Admission -/

@[simp] theorem earlyDrop_memories (s : State) (qs : List Nat) (colour : Nat) :
    (earlyDrop s qs colour).1.memories = s.memories := by
  simp [earlyDrop]
@[simp] theorem settle_memories (s : State) (p : Pkt) (policed : Bool) : (settle s p policed).1.memories = s.memories := by
  unfold settle
  extract_lets f r
  split
  · simp
  · split
    · simp
    · split
      · simp
      · next h => simp [placeAll_memories h]
@[simp] theorem police_memories (s : State) (p : Pkt) : (police s p).1.memories = s.memories := by
  unfold police
  split
  · rfl
  · simp [apply_ite Prod.fst]
@[simp] theorem admitPacket_memories (s : State) (p : Pkt) : (admitPacket s p).1.memories = s.memories := by
  unfold admitPacket
  dsimp only
  split
  · simp [apply_ite Prod.fst]
  · split <;> simp
@[simp] theorem admitBound_memories (s : State) (p : Pkt) (cid : Nat) (first : Bool) :
    (admitBound s p cid first).1.memories = s.memories := by
  simp [admitBound, apply_ite Prod.fst]
@[simp] theorem admitPkt_memories (s : State) (p : Pkt) (first : Bool) : (admitPkt s p first).1.memories = s.memories := by
  unfold admitPkt
  split <;> simp
@[simp] theorem atDoor_memories (s : State) (p : Pkt) : (atDoor s p).memories = s.memories := by
  unfold atDoor
  extract_lets f r
  have hr : r.1.memories = s.memories := by
    unfold r
    split <;> simp
  split
  · rfl
  · split <;> simp [hr]

/-! #### PortOps -/

@[simp] theorem fallBackOn_memories (s : State) (e : QEntry) : (fallBackOn s e).memories = s.memories := by simp [fallBackOn]
@[simp] theorem dropSlots_memories (s : State) (p : Nat) (test : SlotFrame → Bool) :
    (dropSlots s p test).memories = s.memories := by simp [dropSlots]
@[simp] theorem emptySource_memories (s : State) (cid : Nat) : (emptySource s cid).memories = s.memories := by simp [emptySource]
@[simp] theorem closeCid_memories (s : State) (cid openStatus : Nat) :
    (closeCid s cid openStatus).memories = s.memories := by simp [closeCid]
@[simp] theorem closeOnPort_memories (s : State) (p : Nat) : (closeOnPort s p).memories = s.memories := by simp [closeOnPort]
@[simp] theorem reroute_memories (s : State) (e0 : QEntry) : (reroute s e0).memories = s.memories := by
  unfold reroute
  extract_lets r s1 e b
  have hs1 : s1.memories = s.memories := by simp [s1, r, apply_ite Prod.fst]
  repeat' split
  all_goals simp [hs1]
@[simp] theorem rerouteAll_memories (s : State) (l : List QEntry) : (rerouteAll s l).memories = s.memories := by simp [rerouteAll]
@[simp] theorem clearPort_memories (s : State) (p k : Nat) : (clearPort s p k).memories = s.memories := by simp [clearPort]
@[simp] theorem resolveDoubt_memories (s : State) (p k : Nat) (b : Bool) :
    (resolveDoubt s p k b).memories = s.memories := by simp [resolveDoubt]
@[simp] theorem goDown_memories (s : State) (p : Nat) (b : Option Nat) : (goDown s p b).memories = s.memories := by
  cases b <;> simp [goDown]
@[simp] theorem startFailing_memories (s : State) (p : Nat) : (startFailing s p).memories = s.memories := by simp [startFailing]
@[simp] theorem portEvent_memories (s : State) (p : Nat) : (portEvent s p).memories = s.memories := by simp [portEvent]
@[simp] theorem enterFailing_memories (s : State) (p : Nat) : (enterFailing s p).memories = s.memories := by simp [enterFailing]
@[simp] theorem linkError_memories (s : State) (p : Nat) : (linkError s p).memories = s.memories := by simp [linkError]

/-! ### The matrix engine -/

/-- A fold keeps the memories canonical whatever else its accumulator carries, where each of its steps does. -/
theorem foldl_canonical_of {α β : Type} (st : β → State) {f : β → α → β}
    (hf : ∀ a x, Canonical (st a).memories → Canonical (st (f a x)).memories) (l : List α) {a : β}
    (h : Canonical (st a).memories) : Canonical (st (l.foldl f a)).memories :=
  List.foldlRecOn (motive := fun b => Canonical (st b).memories) l f h fun b hb x _ => hf b x hb

theorem stepsFrom_canonical {α : Type} (st : α → State) {f : α → Nat → α} (bad : α → Bool) (one : Bool)
    (hf : ∀ a j, Canonical (st a).memories → Canonical (st (f a j)).memories) (n j : Nat) {a : α}
    (h : Canonical (st a).memories) : Canonical (st (stepsFrom f bad one n j a).1).memories := by
  induction n generalizing j a with
  | zero => exact h
  | succ n ih =>
    unfold stepsFrom
    dsimp only
    split
    · exact hf _ _ h
    · exact ih _ (hf _ _ h)

section
variable {s : State} (hs : Canonical s.memories)
include hs

@[simp] theorem putOp_canonical (core fn : Nat) (org : Origin) (rm : Remote) (w : Nat) (ws : List (Nat × List Byte)) :
    Canonical (putOp s core fn org rm w ws).1.memories := by
  unfold putOp
  split
  · simp [hs]
  · split
    · exact foldl_canonical (fun t r ht => writeDeep_canonical ht _ _) _ hs
    · refine foldl_canonical_fst (fun t r ht => ?_) _ hs
      split
      · dsimp only
        split <;> simp [ht]
      · exact ht

@[simp] theorem putLocal_canonical (core a : Nat) (bs : List Byte) : Canonical (putLocal s core a bs).1.memories := by
  unfold putLocal
  split <;> simp [hs]

@[simp] theorem endTile_canonical (core : Nat) (p : Params) (e : EFmt) (t : TileAcc) :
    Canonical (endTile s core p e t).1.memories := by
  unfold endTile
  extract_lets a b
  have ha : Canonical a.1.memories := by
    unfold a
    split <;> simp [hs, apply_ite Prod.fst]
  show Canonical b.1.memories
  unfold b
  split <;> simp [ha]

theorem endFused_canonical (core : Nat) (p : Params) (o : Option EFmt) (t : TileAcc) (ue : Bool) :
    Canonical (endFused s core p o t ue).s.memories := by
  unfold endFused
  split
  · dsimp only
    split <;> simp [hs]
  · exact hs

@[simp] theorem putElem_canonical (core fn : Nat) (org : Origin) (rm : Remote) (w wd o code : Nat) :
    Canonical (putElem s core fn org rm w wd o code).1.memories := by simp [putElem, hs]

end

theorem seamStep_canonical (core fn : Nat) (org : Origin) (d : MatmulD) (p : Params) (bl : Nat × Nat × Nat × Nat) (i : Nat)
    {a : MatmulAcc} (ha : Canonical a.s.memories) : Canonical (seamStep core fn org d p bl i a).s.memories := by
  unfold seamStep
  extract_lets sm runs m a' x ws fl out w src ims fl' w'
  have hm : Canonical m.1.memories := by simp [m, ha]
  split
  · exact hm
  · split
    · exact putOp_canonical hm _ _ _ _ _ _
    · show Canonical w'.1.memories
      unfold w'
      split
      · refine foldl_canonical_fst (fun b _ hb => ?_) _ hm
        exact putLocal_canonical hb _ _ _
      · exact hm

theorem blockStep_canonical (core fn : Nat) (org : Origin) (d : MatmulD) (p : Params) (bl : Nat × Nat × Nat × Nat)
    {a : MatmulAcc} (ha : Canonical a.s.memories) : Canonical (blockStep core fn org d p bl a).s.memories := by
  unfold blockStep
  extract_lets k w m a'
  split
  · exact ha
  · split
    · exact ha
    · show Canonical w.1.memories
      refine foldl_canonical_fst (fun b _ hb => ?_) _ ha
      exact putLocal_canonical hb _ _ _
  · extract_lets res o1 o2
    have hm : Canonical m.1.memories := by simp [m, ha]
    have ho1 : Canonical o1.1.memories := putOp_canonical hm _ _ _ _ _ _
    split
    · exact hm
    · show Canonical o2.1.memories
      unfold o2
      split
      · exact putOp_canonical ho1 _ _ _ _ _ _
      · exact ho1

theorem matmulStep_canonical (core fn : Nat) (org : Origin) (d : MatmulD) (p : Params) (j : Nat)
    {a : MatmulAcc} (ha : Canonical a.s.memories) : Canonical (matmulStep core fn org d p a j).s.memories := by
  unfold matmulStep
  extract_lets k bl b
  show Canonical (noteStep b.s core fn a.ea b.ea).memories
  rw [noteStep_memories]
  unfold b
  split
  · exact blockStep_canonical _ _ _ _ _ _ ha
  · exact seamStep_canonical _ _ _ _ _ _ _ ha

theorem matmulFrom_memories (s : State) (core : Nat) (d : MatmulD) (part : Option Part) :
    (matmulFrom s core d part).2.s.memories = s.memories := by
  unfold matmulFrom
  extract_lets m fresh
  have hfresh : fresh.2.s.memories = s.memories := by
    unfold fresh
    split <;> simp [m]
  split
  · rfl
  all_goals exact hfresh

theorem runMatmul_canonical {s : State} (hs : Canonical s.memories) (core fn : Nat) (org : Origin) (d : MatmulD) (p : Params)
    (one : Bool) (part : Option Part) : Canonical (runMatmul s core fn org d p one part).s.memories := by
  unfold runMatmul
  extract_lets total a r
  have ha : Canonical a.2.s.memories := by rw [matmulFrom_memories]; exact hs
  have hr : Canonical r.1.s.memories :=
    stepsFrom_canonical MatmulAcc.s _ _ (fun _ j h => matmulStep_canonical core fn org d p j h) _ _ ha
  split
  · exact ha
  · split
    · exact hr
    · split
      · exact hr
      · exact endFused_canonical hr _ _ _ _ _

theorem runConvert_canonical {s : State} (hs : Canonical s.memories) (core fn : Nat) (org : Origin) (d : ConvertD) (p : Params) :
    Canonical (runConvert s core fn org d p).s.memories := by
  unfold runConvert
  extract_lets m res code step a s1 e
  have hm : Canonical m.1.memories := by simp [m, hs]
  have hs1 : Canonical s1.memories := by
    rw [noteStep_memories]
    exact foldl_canonical_fst (fun b r hb => by simp [step, hb]) _ hm
  split
  · exact hm
  · split
    · exact hs1
    · exact endTile_canonical hs1 _ _ _ _

theorem reduceSumStep_canonical (core fn : Nat) (org : Origin) (d : ReduceD) (p : Params) (o : Nat) {a : ReduceAcc}
    (ha : Canonical a.s.memories) : Canonical (reduceSumStep core fn org d p a o).s.memories := by
  unfold reduceSumStep
  dsimp only
  split
  · simp [ha]
  · split
    · split <;> simp [ha]
    · simp [ha]
  · exact ha
  · exact ha

theorem reducePickStep_canonical (core fn : Nat) (org : Origin) (d : ReduceD) (p : Params) (o : Nat) {a : ReduceAcc}
    (ha : Canonical a.s.memories) : Canonical (reducePickStep core fn org d p a o).s.memories := by
  unfold reducePickStep
  split <;> simp [ha]

theorem reduceStep_canonical (core fn : Nat) (org : Origin) (d : ReduceD) (p : Params) (o : Nat) {a : ReduceAcc}
    (ha : Canonical a.s.memories) : Canonical (reduceStep core fn org d p a o).s.memories := by
  unfold reduceStep
  extract_lets m a' b
  have hm : Canonical m.1.memories := by simp [m, ha]
  split
  · exact hm
  · dsimp only
    rw [noteStep_memories]
    unfold b
    split
    · exact reduceSumStep_canonical _ _ _ _ _ _ hm
    · exact reducePickStep_canonical _ _ _ _ _ _ hm

theorem reduceFrom_s (s : State) (part : Option Part) : (reduceFrom s part).2.s = s := by
  unfold reduceFrom
  split <;> rfl

theorem runReduce_canonical {s : State} (hs : Canonical s.memories) (core fn : Nat) (org : Origin) (d : ReduceD) (p : Params)
    (one : Bool) (part : Option Part) : Canonical (runReduce s core fn org d p one part).s.memories := by
  unfold runReduce
  extract_lets a r
  have hr : Canonical r.1.s.memories :=
    stepsFrom_canonical ReduceAcc.s _ _ (fun _ j h => reduceStep_canonical core fn org d p j h) _ _
      (by rw [reduceFrom_s]; exact hs)
  split
  · exact hr
  · split
    · exact hr
    · exact endFused_canonical hr _ _ _ _ _

/-! ### Sparse operations -/

@[simp] theorem SparseAcc.wrote_s (a : SparseAcc) (w : State × Bool) : (SparseAcc.wrote a w).s = w.1 := rfl

@[simp] theorem SparseAcc.meet_memories (a : SparseAcc) (rs : Runs) : (SparseAcc.meet a rs).s.memories = a.s.memories := by
  simp [SparseAcc.meet]

section
variable {a : SparseAcc} (ha : Canonical a.s.memories)
include ha

theorem rawSpill_canonical (x : SparseCtx) (i : Nat) (o : Octet) : Canonical (rawSpill x a i o).s.memories :=
  putLocal_canonical (s := (freshBytes a.s 144).2) ha _ _ _

theorem enterImages_canonical (x : SparseCtx) (o : Octet) : Canonical (enterImages x a o).s.memories := by
  unfold enterImages
  refine foldl_canonical_of SparseAcc.s (fun b w hb => ?_) _ (by simp [ha])
  exact putLocal_canonical hb _ _ _

theorem spillOctet_canonical (x : SparseCtx) (o : Octet) : Canonical (spillOctet x a o).s.memories := by
  unfold spillOctet
  extract_lets narrow a' count
  split
  · refine enterImages_canonical ?_ x o
    show Canonical (bump _ _ _).memories
    split <;> simp [a', ha]
  · split
    · show Canonical (raise _ _ _).memories
      simp [a', ha]
    · exact rawSpill_canonical (by simp [count, a', ha]) _ _ _

theorem takeOctet_canonical (x : SparseCtx) (r g : Nat) : Canonical (takeOctet x a r g).1.s.memories := by
  unfold takeOctet
  split
  · exact ha
  · extract_lets mine a'
    have ha' : Canonical a'.s.memories := by
      unfold a'
      split
      · exact ha
      · split
        · exact spillOctet_canonical ha _ _
        · exact ha
    split
    · simp [ha']
    · exact ha'

theorem sparseGroup_canonical (x : SparseCtx) (v : Num) (r t g : Nat) : Canonical (sparseGroup x v r t a g).s.memories := by
  unfold sparseGroup
  split
  · exact ha
  · extract_lets q
    have hq : Canonical q.1.s.memories := takeOctet_canonical ha x r g
    split <;> exact hq

theorem flushOctets_canonical (x : SparseCtx) (si : Nat) : Canonical (flushOctets x si a).s.memories := by
  unfold flushOctets
  refine foldl_canonical_of SparseAcc.s (fun b o hb => ?_) _ ha
  split
  · exact enterImages_canonical hb _ _
  · exact hb
  · exact hb

theorem writeSeams_canonical (x : SparseCtx) (r si n : Nat) : Canonical (writeSeams x r si n a).s.memories := by
  unfold writeSeams
  split
  · exact ha
  · refine foldl_canonical_of SparseAcc.s (fun b i hb => ?_) _ ha
    split
    · exact hb
    · exact putOp_canonical hb _ _ _ _ _ _

theorem endRow_canonical (x : SparseCtx) (r : Nat) : Canonical (endRow x r a).s.memories := by
  unfold endRow
  split
  · exact ha
  · exact ha
  · extract_lets ims vals fl src em o w w2
    have hw : Canonical w.1.memories := putOp_canonical ha _ _ _ _ _ _
    show Canonical w2.1.memories
    unfold w2
    split
    · exact putOp_canonical hw _ _ _ _ _ _
    · exact hw

theorem endSeam_canonical (x : SparseCtx) (si : Nat) : Canonical (endSeam x si a).s.memories := by
  unfold endSeam
  split
  · exact ha
  · exact ha
  · exact putOp_canonical ha _ _ _ _ _ _

theorem failContent_canonical (x : SparseCtx) : Canonical (failContent x a).s.memories := by
  show Canonical (raise _ _ _).memories
  simp [ha]

end

theorem walkRow_canonical (x : SparseCtx) (i : Nat) (ks : List Nat) (prev : Option Nat) (cur : Nat) {a : SparseAcc}
    (ha : Canonical a.s.memories) : Canonical (walkRow x i ks prev cur a).1.s.memories := by
  induction ks generalizing prev cur a with
  | nil => exact ha
  | cons k ks ih =>
    unfold walkRow
    extract_lets m j rising sj nxt a1 r t a2 v a3
    have hm : Canonical m.s.memories := by simp [m, ha]
    have h1 : Canonical a1.s.memories := by
      unfold a1
      split
      · exact writeSeams_canonical (flushOctets_canonical hm _ _) _ _ _ _
      · exact hm
    have h2 : Canonical a2.s.memories := by
      unfold a2
      split
      · exact h1
      · simp [h1]
    split
    · exact hm
    · split
      · exact failContent_canonical hm x
      · split
        · exact h2
        · exact ih _ _ (foldl_canonical_of SparseAcc.s (fun b g hb => sparseGroup_canonical hb _ _ _ _ _) _ h2)

theorem sparseRow_canonical (x : SparseCtx) (i : Nat) {a : SparseAcc} (ha : Canonical a.s.memories) :
    Canonical (sparseRow x a i).s.memories := by
  unfold sparseRow
  extract_lets m lo hi w sm si b
  have hm : Canonical m.s.memories := by simp [m, ha]
  have hw : Canonical w.1.s.memories := walkRow_canonical x i _ _ _ hm
  have hb : Canonical b.s.memories := writeSeams_canonical (flushOctets_canonical hw _ _) _ _ _ _
  split
  · exact hm
  · split
    · exact failContent_canonical hm x
    · split
      · exact hw
      · split
        · split
          · exact endSeam_canonical (flushOctets_canonical hw _ _) _ _
          · exact hw
        · split
          · exact hb
          · exact endRow_canonical hb _ _

theorem clearImages_canonical (x : SparseCtx) {s : State} (hs : Canonical s.memories) :
    Canonical (clearImages x s).1.memories := by
  unfold clearImages
  split
  · exact putLocal_canonical hs _ _ _
  · exact hs

theorem sparseStep_canonical (x : SparseCtx) (j : Nat) {a : SparseAcc} (ha : Canonical a.s.memories) :
    Canonical (sparseStep x a j).s.memories := by
  show Canonical (noteStep _ _ _ _ _).memories
  rw [noteStep_memories]
  exact sparseRow_canonical x _ ha

theorem spillLive_canonical (x : SparseCtx) {a : SparseAcc} (ha : Canonical a.s.memories) :
    Canonical (spillLive x a).s.memories := by
  unfold spillLive
  refine foldl_canonical_of SparseAcc.s (fun b o hb => ?_) _ ha
  split
  · exact hb
  · exact spillOctet_canonical hb _ _

theorem sparseWalk_canonical (x : SparseCtx) (one : Bool) (n j : Nat) {a : SparseAcc} (ha : Canonical a.s.memories) :
    Canonical (sparseWalk x one n j a).1.s.memories := by
  induction n generalizing j a with
  | zero => exact ha
  | succ n ih =>
    unfold sparseWalk
    extract_lets b
    have hb : Canonical b.s.memories := sparseStep_canonical x j ha
    split
    · exact hb
    · split
      · exact spillLive_canonical x hb
      · exact ih _ hb

theorem scrambleC_canonical (x : SparseCtx) {s : State} (hs : Canonical s.memories) : Canonical (scrambleC x s).memories := by
  unfold scrambleC
  extract_lets one s1
  have hone : ∀ w t e, Canonical t.memories → Canonical (one w t e).memories := by
    intro w t e ht
    unfold one
    split
    · exact ht
    · exact putOp_canonical (s := (freshBytes t e.2).2) ht _ _ _ _ _ _
  have h1 : Canonical s1.memories := foldl_canonical (hone _) _ hs
  split
  · exact foldl_canonical (hone _) _ h1
  · exact h1

theorem sparseFrom_canonical (x : SparseCtx) {s : State} (hs : Canonical s.memories) (part : Option Part) :
    Canonical (sparseFrom x s part).2.s.memories := by
  unfold sparseFrom
  split
  · exact hs
  all_goals exact clearImages_canonical x hs

theorem runSparse_canonical {s : State} (hs : Canonical s.memories) (core fn : Nat) (org : Origin) (d : SparseD) (p : Params)
    (det one : Bool) (part : Option Part) : Canonical (runSparse s core fn org d p det one part).1.s.memories := by
  unfold runSparse
  extract_lets x a r
  have ha : Canonical a.2.s.memories := sparseFrom_canonical x hs part
  have hr : Canonical r.1.s.memories := by
    unfold r
    split
    · exact ha
    · exact sparseWalk_canonical x one _ _ ha
  split
  · exact hr
  · exact scrambleC_canonical x hr
  · exact scrambleC_canonical x hr
  · split
    · exact hr
    · exact endFused_canonical hr _ _ _ _ _

/-! ### Work lists and context switches -/

@[simp] theorem stageNext_memories (s : State) (core fn : Nat) (l : List StageTodo) :
    (stageNext s core fn l).memories = s.memories := by
  induction l generalizing s with
  | nil =>
    unfold stageNext
    (repeat' split) <;> simp
  | cons x t ih =>
    cases x <;> unfold stageNext <;> split <;> simp [ih]

@[simp] theorem completeDesc_memories (s : State) (core fn : Nat) (r : RunList) :
    (completeDesc s core fn r).memories = s.memories := by
  unfold completeDesc
  extract_lets flags t
  have ht : t.memories = s.memories := by simp [t]
  (repeat' split) <;> simp [ht]

@[simp] theorem descriptorComplete_memories (k : CoreId) (s : State) : (descriptorComplete k s).memories = s.memories := by
  unfold descriptorComplete
  split <;> simp

@[simp] theorem listNop_memories (k : CoreId) (s : State) : (listNop k s).memories = s.memories := by simp [listNop]
@[simp] theorem waitTally_memories (k : CoreId) (s : State) : (waitTally k s).memories = s.memories := by simp [waitTally]
@[simp] theorem waitTime_memories (k : CoreId) (s : State) : (waitTime k s).memories = s.memories := by simp [waitTime]
@[simp] theorem waitComplete_memories (k : CoreId) (s : State) : (waitComplete k s).memories = s.memories := by
  simp [waitComplete]
@[simp] theorem waitTimeout_memories (k : CoreId) (s : State) : (waitTimeout k s).memories = s.memories := by
  simp [waitTimeout]
@[simp] theorem waitTimeReached_memories (k : CoreId) (s : State) : (waitTimeReached k s).memories = s.memories := by
  simp [waitTimeReached]
@[simp] theorem listLoop_memories (k : CoreId) (s : State) : (listLoop k s).memories = s.memories := by simp [listLoop]
@[simp] theorem pillarMark_memories (k : CoreId) (s : State) : (pillarMark k s).memories = s.memories := by simp [pillarMark]
@[simp] theorem pillarClear_memories (k : CoreId) (s : State) : (pillarClear k s).memories = s.memories := by simp [pillarClear]

theorem finishOp_memories (r : OpRes) (core fn : Nat) : (finishOp r core fn).memories = r.s.memories := by
  unfold finishOp
  (repeat' split) <;> simp

theorem copyPiece_canonical (core fn : Nat) (org : Origin) (d : CopyD) (goOn : Bool) (g : List CopySeg) {a : State × Bool}
    (ha : Canonical a.1.memories) : Canonical (copyPiece core fn org d goOn a g).1.memories := by
  unfold copyPiece
  extract_lets m
  have hm : Canonical m.1.memories := by simp [m, ha]
  split
  · exact hm
  · refine foldl_canonical_fst (fun b x hb => ?_) _ hm
    refine putOp_canonical ?_ _ _ _ _ _ _
    split
    · simpa using hb
    · exact hb

theorem moveCopy_canonical {s : State} (hs : Canonical s.memories) (core fn : Nat) (org : Origin) (d : CopyD) (goOn one : Bool)
    (j : Nat) : Canonical (moveCopy s core fn org d goOn one j).1.1.memories :=
  stepsFrom_canonical Prod.fst _ _ (fun _ _ h => copyPiece_canonical core fn org d goOn _ h) _ _ hs

section
variable {s : State} (hs : Canonical s.memories)
include hs

@[simp] theorem listMatmul_canonical (k : CoreId) : Canonical (listMatmul k s).memories := by
  refine onOp_canonical hs fun fn r => ?_
  split
  · rw [finishOp_memories]
    exact runMatmul_canonical hs _ _ _ _ _ _ _
  · exact hs

@[simp] theorem listConvert_canonical (k : CoreId) : Canonical (listConvert k s).memories := by
  refine onOp_canonical hs fun fn r => ?_
  split
  · rw [finishOp_memories]
    exact runConvert_canonical hs _ _ _ _ _
  · exact hs

@[simp] theorem listSparse_canonical (k : CoreId) : Canonical (listSparse k s).memories := by
  refine onOp_canonical hs fun fn r => ?_
  split
  · extract_lets x
    have hx : Canonical x.1.s.memories := runSparse_canonical hs _ _ _ _ _ _ _ _
    split <;> simp [finishOp_memories, hx]
  · exact hs

@[simp] theorem listReduce_canonical (k : CoreId) (rop : Nat) : Canonical (listReduce k rop s).memories := by
  refine onOp_canonical hs fun fn r => ?_
  split
  · rw [finishOp_memories]
    exact runReduce_canonical hs _ _ _ _ _ _ _
  · exact hs

@[simp] theorem listCopy_canonical (k : CoreId) : Canonical (listCopy k s).memories := by
  refine onOp_canonical hs fun fn r => ?_
  extract_lets d q n c n' m
  have hm : Canonical m.1.1.memories := moveCopy_canonical (by simp [n', hs, apply_ite Prod.snd]) _ _ _ _ _ _ _
  split
  · simp [n, hs]
  · split
    · simp [hs]
    · split
      · simp [hm]
      · split
        · exact hm
        · simp [hm]

@[simp] theorem copyComplete_canonical (k : CoreId) (n : Nat) : Canonical (copyComplete k n s).memories := by
  unfold copyComplete
  split
  · exact hs
  · split
    · exact hs
    · extract_lets d total m t
      have hm : Canonical m.1.1.memories := moveCopy_canonical hs _ _ _ _ _ _ _
      have ht : Canonical t.memories := by simp [t, hm]
      (repeat' split) <;> simp [hs, ht]

@[simp] theorem listStage_canonical (k : CoreId) : Canonical (listStage k s).memories := by
  refine onOp_canonical hs fun fn r => ?_
  extract_lets d src t m
  have ht : Canonical t.memories := by simp [t, src, hs]
  have hm : Canonical m.1.memories := by
    unfold m
    split
    · exact moveCopy_canonical ht _ _ _ _ _ _ _
    · exact ht
  split
  · exact hs
  · split <;> simp [hm]

@[simp] theorem saveBlock_canonical (g img b : Nat) : Canonical (saveBlock s g img b).memories := by
  unfold saveBlock
  split
  · exact hs
  · extract_lets o
    split
    · simp [hs]
    · extract_lets k m bad m' src t
      have hm : Canonical m.memories := by simp [m, hs]
      have hm' : Canonical m'.memories := foldl_canonical (fun b l hb => by simp [hb]) _ hm
      have ht : Canonical t.memories := ⟨hm'.1, Mem.wf_memPlace hm'.2 _ _ _⟩
      exact foldl_canonical (fun b l hb => writeDeep_canonical (by simp [hb]) _ _) _ ht

@[simp] theorem restoreBlock_canonical (g fn img b : Nat) : Canonical (restoreBlock s g fn img b).memories := by
  unfold restoreBlock
  extract_lets o m t
  have hm : Canonical m.1.memories := by
    unfold m
    split <;> simp [hs]
  have ht : Canonical t.memories := by simp [t, hm]
  split
  · exact ht
  · refine foldl_canonical (fun b c hb => ?_) _ ?_
    · exact ⟨Mem.wf_memWriteN hb.1 _ _, hb.2⟩
    · exact ⟨Mem.wf_memPlace ht.1 _ _ _, ht.2⟩

@[simp] theorem moveBlock_canonical (g : Nat) : Canonical (moveBlock s g).memories := by
  unfold moveBlock
  extract_lets x
  split
  · exact hs
  · extract_lets t y
    have ht : Canonical t.memories := by
      unfold t
      split <;> simp [hs]
    split
    · exact hs
    · split <;> simp [ht]

theorem moveBlocks_canonical (g : Nat) : Canonical (moveBlocks s g).memories :=
  foldl_canonical (fun _ _ h => moveBlock_canonical h g) _ hs

@[simp] theorem contextSaveDone_canonical (d : Die) (i : Clu) : Canonical (contextSaveDone d i s).memories := by
  have ht := moveBlocks_canonical hs (cluNo d i)
  cases hw : (slotSt s (cluNo d i)).switch with
  | none => simp [contextSaveDone, hw, hs]
  | some w =>
    cases hy : (slotSt (moveBlocks s (cluNo d i)) (cluNo d i)).switch <;> simp [contextSaveDone, hw, hy, hs, ht]

@[simp] theorem contextRestoreDone_canonical (d : Die) (i : Clu) : Canonical (contextRestoreDone d i s).memories := by
  have ht := moveBlocks_canonical hs (cluNo d i)
  unfold contextRestoreDone
  dsimp only
  generalize moveBlocks s (cluNo d i) = t at ht ⊢
  (repeat' split) <;> simp [hs, ht]

@[simp] theorem transferNs_canonical (g : Nat) : Canonical (transferNs s g).memories := by
  unfold transferNs
  extract_lets x
  split
  · exact hs
  · split <;> simp [hs]

end

/-! ### Remote operations -/

section
variable {s : State} (hs : Canonical s.memories)
include hs

@[simp] theorem landCluster_canonical (g fn a : Nat) (bs : List Byte) : Canonical (landCluster s g fn a bs).memories := by
  simp [landCluster, hs]

@[simp] theorem land_canonical (f : Frame) (t : Target) : Canonical (land s f t).memories := by
  unfold land
  extract_lets t'
  have ht : Canonical t'.memories := by
    unfold t'
    split
    · simp [hs]
    · exact foldl_canonical (fun _ _ h => by simp [h]) _ hs
  simp [ht]

@[simp] theorem remoteWrite_canonical (q : Fin 9) : Canonical (remoteWrite q s).memories := by
  unfold remoteWrite
  split
  · exact hs
  · split
    · exact hs
    · split
      · simp [hs]
      · extract_lets here t
        have ht : Canonical t.memories := by simp [t, hs]
        split
        · exact hs
        · exact foldl_canonical (fun _ _ h => by simp [h]) _ (by simp [ht])

@[simp] theorem writeAtomic_canonical (a : AtomicOp) (bs : List Byte) : Canonical (writeAtomic s a bs).memories := by
  unfold writeAtomic
  split
  · exact ⟨hs.1, Mem.wf_memWriteN hs.2 _ _⟩
  · simp [hs]

theorem doAtomic_canonical (aop : Nat) {op : State → AtomicOp → List Byte → State × List Byte × List Byte}
    (hop : ∀ s a old, (op s a old).1.memories = s.memories) : Canonical (doAtomic s aop op).memories := by
  unfold doAtomic
  split
  · exact hs
  · extract_lets _ t n r o
    have hr : r.1.memories = s.memories := by simp [r, t]
    have ho : o.1.memories = s.memories := by rw [← hr]; exact hop _ _ _
    split
    · simp [hr, hs]
    · rw [answer_memories]
      exact writeAtomic_canonical (by rw [ho]; exact hs) _ _

@[simp] theorem atomicIntegerAdd_canonical : Canonical (atomicIntegerAdd s).memories :=
  doAtomic_canonical hs 0 fun _ _ _ => rfl
@[simp] theorem atomicSwap_canonical : Canonical (atomicSwap s).memories :=
  doAtomic_canonical hs 1 fun _ _ _ => rfl
@[simp] theorem atomicCompareSwap_canonical : Canonical (atomicCompareSwap s).memories :=
  doAtomic_canonical hs 2 fun _ _ _ => rfl
@[simp] theorem atomicFloatingAdd_canonical : Canonical (atomicFloatingAdd s).memories :=
  doAtomic_canonical hs 3 fun _ _ _ => by dsimp only; split <;> simp

theorem replyArrive_canonical (typ : Nat) (q : Fin 9) : Canonical (replyArrive typ q s).memories := by
  unfold replyArrive
  split
  · exact hs
  · extract_lets f popped
    have hp : Canonical popped.memories := by simp [popped, hs]
    have hl (ts : List Target) : Canonical (ts.foldl (fun s t => land s f t) popped).memories :=
      foldl_canonical (fun _ _ h => land_canonical h _ _) _ hp
    clear_value popped
    (repeat' split) <;> simp [hs, hp, hl]
@[simp] theorem rdataArrive_canonical (q : Fin 9) : Canonical (rdataArrive q s).memories := replyArrive_canonical hs 2 q
@[simp] theorem atrespArrive_canonical (q : Fin 9) : Canonical (atrespArrive q s).memories := replyArrive_canonical hs 4 q

end

/-! ### The fabric -/

@[simp] theorem frameAdmit_memories (n : Nat) (s : State) : (frameAdmit n s).memories = s.memories := by
  unfold frameAdmit
  split
  · rfl
  · simp

@[simp] theorem shaperPass_memories (k : Fin 1026) (s : State) : (shaperPass k s).memories = s.memories := by
  unfold shaperPass
  split
  · rfl
  · split <;> simp

theorem retryWait_memories {s t : State} {w : WaitPkt} (h : retryWait s w = some t) : t.memories = s.memories := by
  unfold retryWait at h
  extract_lets p e t' at h
  have ht : t'.memories = s.memories := by simp [t']
  split at h
  · split at h
    · cases h
      simp
    · split at h <;> cases h
      simp
  · split at h
    · cases h
      rfl
    · split at h
      · cases h
      · exact Option.some.inj h ▸ ht

@[simp] theorem admitResume_memories (n : Nat) (s : State) : (admitResume n s).memories = s.memories := by
  unfold admitResume
  split
  · rfl
  · split
    · rfl
    · extract_lets _ s0
      split
      · rfl
      · next h => simp [retryWait_memories h, s0]

@[simp] theorem arriveOn_memories (s : State) (p : Nat) (f : Frame) : (arriveOn s p f).memories = s.memories := by
  simp [arriveOn]
@[simp] theorem refuseAtDoor_memories (s : State) (p chk : Nat) : (refuseAtDoor s p chk).memories = s.memories := by
  simp [refuseAtDoor]
@[simp] theorem frameArrive_memories (p : Port) (s : State) : (frameArrive p s).memories = s.memories := by
  unfold frameArrive
  split
  · rfl
  · extract_lets f t
    have ht : t.memories = s.memories := by simp [t]
    split <;> simp [ht]
@[simp] theorem fallBackArrive_memories (s : State) (p : Nat) (f : Frame) : (fallBackArrive s p f).memories = s.memories := by
  simp [fallBackArrive]

@[simp] theorem circuitFrameArrive_memories (p : Port) (t : DWord) (s : State) :
    (circuitFrameArrive p t s).memories = s.memories := by
  unfold circuitFrameArrive
  split
  · rfl
  · split
    · rfl
    · split
      · simp
      · extract_lets m _ f e slot a g r r' _ c c' l
        have hm : m.memories = s.memories := by simp [m]
        have hr : r.2.memories = s.memories := by simp [r, hm]
        have hc : c'.memories = s.memories := by simp [c', c, hm]
        (repeat' split) <;> simp [hm, hr, hc, r']

theorem sendInSlot_memories {s t : State} {p k : Nat} (h : sendInSlot s p k = some t) : t.memories = s.memories := by
  unfold sendInSlot at h
  split at h
  · cases h
  · extract_lets o at h
    split at h <;> cases h
    simp

@[simp] theorem sendFitting_memories (s : State) (p k n : Nat) : (sendFitting s p k n).memories = s.memories := by
  induction n generalizing s with
  | zero => rfl
  | succ n ih =>
    unfold sendFitting
    split
    · rfl
    · next h => rw [ih, sendInSlot_memories h]

theorem committed_memories {s t : State} {p k : Nat} {e : QEntry} (h : committed s p k = some (e, t)) :
    t.memories = s.memories := by
  unfold committed at h
  split at h
  · cases h
    rfl
  · extract_lets g stopped at h
    split at h
    · cases h
    · split at h
      · cases h
      · split at h <;> cases h
        simp

@[simp] theorem cageSlotStart_memories (p : Port) (s : State) : (cageSlotStart p s).memories = s.memories := by
  unfold cageSlotStart
  extract_lets k s1 s2
  have h2 : s2.memories = s.memories := by
    unfold s2
    split
    · simp [s1]
    · split
      · next h =>
        split at h
        · simp [committed_memories h, s1]
        · cases h
      · simp [s1]
  split
  · rfl
  · simp [h2]

@[simp] theorem portTransmit_memories (p : Port) (s : State) : (portTransmit p s).memories = s.memories := by
  unfold portTransmit
  extract_lets x t k kept
  split
  · simp [t]
  · split
    · rfl
    · split
      · split
        · next h =>
          split at h
          · cases h
          · exact sendInSlot_memories h
        · simp
      · simp

@[simp] theorem histogramSample_memories (s : State) : (histogramSample s).memories = s.memories := by
  unfold histogramSample
  extract_lets per t
  split
  · rfl
  · exact foldl_memories (fun _ _ => by simp) _ _

@[simp] theorem mirrorRecordWrite_memories (u : Upsets) (s : State) : (mirrorRecordWrite u s).memories = s.memories := by
  unfold mirrorRecordWrite
  split
  · rfl
  · extract_lets ringSize toSp room m _ _ t
    have hm : m.1.memories = s.memories := foldl_memories_fst (fun _ _ => by simp [apply_ite Prod.fst]) _ _
    have ht : t.memories = s.memories := hm
    (repeat' split) <;> simp [ht]

section
variable {s : State} (hs : Canonical s.memories)
include hs

@[simp] theorem dieLinkSend_canonical (d : Die) : Canonical (dieLinkSend d s).memories := by
  unfold dieLinkSend
  split
  · exact hs
  · split
    · exact hs
    · split
      · simp [hs]
      · split
        · simp [hs]
        · extract_lets t t'
          have ht : Canonical t'.memories := by simp [t', t, hs]
          (repeat' split) <;> simp [hs, ht]

@[simp] theorem meshPacketArrive_canonical (d : Die) (n : Nat) : Canonical (meshPacketArrive d n s).memories := by
  unfold meshPacketArrive
  extract_lets m t
  split
  · exact hs
  · extract_lets g t'
    have ht : t.memories = s.memories := by simp [t]
    have ht' : Canonical t'.memories := by simp [t', ht, hs]
    (repeat' split) <;> simp [hs, ht, ht']
end

/-! ### Circuits, mills, time and maintenance -/

theorem takeCirBell_memories {s t : State} {code p : Nat} {f : Frame} (h : takeCirBell s code = some (f, p, t)) :
    t.memories = s.memories := by
  unfold takeCirBell at h
  extract_lets isIt at h
  split at h <;> cases h
  rfl

@[simp] theorem circuitRequest_memories (s : State) : (circuitRequest s).memories = s.memories := by
  unfold circuitRequest
  split
  · rfl
  · next h => simp [takeCirBell_memories h]
@[simp] theorem circuitGrant_memories (s : State) : (circuitGrant s).memories = s.memories := by
  unfold circuitGrant
  split
  · rfl
  · next h => simp [takeCirBell_memories h]
@[simp] theorem circuitRefuse_memories (s : State) : (circuitRefuse s).memories = s.memories := by
  unfold circuitRefuse
  split
  · rfl
  · next h => simp [takeCirBell_memories h]
@[simp] theorem circuitTeardown_memories (s : State) : (circuitTeardown s).memories = s.memories := by
  unfold circuitTeardown
  split
  · rfl
  · next h => simp [takeCirBell_memories h]
@[simp] theorem circuitHandshakeTimeout_memories (cid : BitVec 16) (s : State) :
    (circuitHandshakeTimeout cid s).memories = s.memories := by simp [circuitHandshakeTimeout]
@[simp] theorem rebind_memories (s : State) (e : QEntry) : (rebind s e).memories = s.memories := by
  unfold rebind
  split <;> simp
@[simp] theorem cirShift_memories (s : State) : (cirShift s).memories = s.memories := by simp [cirShift]
@[simp] theorem shiftChangeFlip_memories (s : State) : (shiftChangeFlip s).memories = s.memories := by
  unfold shiftChangeFlip
  split <;> simp

@[simp] theorem MCtx.memories_goOn (c : MCtx) (s : State) : (c.goOn s).memories = s.memories := (rfl)
@[simp] theorem MCtx.memories_result (c : MCtx) (s : State) (v : Nat) : (c.result s v).memories = s.memories := by
  simp [MCtx.result]

@[simp] theorem aluA_memories (m : MillIx) (op : Nat) (f : Nat → Nat → Nat) (s : State) :
    (aluA m op f s).memories = s.memories := by simp [aluA]
@[simp] theorem aluB_memories (m : MillIx) (op : Nat) (f : Nat → MCtx → Nat) (s : State) :
    (aluB m op f s).memories = s.memories := by simp [aluB]
@[simp] theorem branch_memories (m : MillIx) (op : Nat) (p : Nat → Nat → Bool) (s : State) :
    (branch m op p s).memories = s.memories :=
  millStep_memories fun _ => rfl
@[simp] theorem millFld_memories (m : MillIx) (s : State) : (millFld m s).memories = s.memories := by
  refine millStep_memories fun c => ?_
  split <;> simp
@[simp] theorem enterAll_memories (s : State) (c : MCtx) (rf j : Nat) (l : List (List Byte)) :
    (enterAll s c rf j l).1.memories = s.memories := by
  induction l generalizing s j with
  | nil => rfl
  | cons r rs ih =>
    unfold enterAll
    split <;> simp [ih]
@[simp] theorem millAcc_memories (m : MillIx) (s : State) : (millAcc m s).memories = s.memories := by
  simp [millAcc]
@[simp] theorem emitAll_memories (s : State) (c : MCtx) (fmt : Option Fmt) (clr : Bool) (j n : Nat) :
    (emitAll s c fmt clr j n).1.memories = s.memories := by
  induction n generalizing s j with
  | zero => rfl
  | succ n ih =>
    unfold emitAll
    split <;> simp [ih]
@[simp] theorem millEmit_memories (m : MillIx) (s : State) : (millEmit m s).memories = s.memories := by
  refine millStep_memories fun c => ?_
  extract_lets _ _ _ _ _ w r bs
  have hr : r.1.memories = s.memories := emitAll_memories _ _ _ _ _ _
  split
  · simp
  · split <;> simp [hr]
@[simp] theorem enterSorts_memories (s : State) (c : MCtx) (keep : Nat) (l : List SortRec) :
    (enterSorts s c keep l).1.memories = s.memories := by
  induction l generalizing s with
  | nil => rfl
  | cons r rs ih =>
    unfold enterSorts
    extract_lets e
    have he : e.1.memories = s.memories := enterSort_memories _ _ _ _
    split <;> simp [ih, he]
@[simp] theorem millSort_memories (m : MillIx) (s : State) : (millSort m s).memories = s.memories := by
  refine millStep_memories fun c => ?_
  extract_lets x bs e
  have he : e.1.memories = s.memories := enterSorts_memories _ _ _ _
  (repeat' split) <;> simp [he]
@[simp] theorem millTake_memories (m : MillIx) (s : State) : (millTake m s).memories = s.memories := by
  refine millStep_memories fun c => ?_
  (repeat' split) <;> simp
@[simp] theorem millGathRank_memories (m : MillIx) (s : State) : (millGathRank m s).memories = s.memories := by
  refine millStep_memories fun c => ?_
  split <;> simp
@[simp] theorem millGathArrival_memories (m : MillIx) (s : State) : (millGathArrival m s).memories = s.memories := by
  refine millStep_memories fun c => ?_
  split <;> simp
@[simp] theorem dealAll_memories (s : State) (c : MCtx) (l : List SortRec) : (dealAll s c l).1.memories = s.memories := by
  induction l generalizing s with
  | nil => rfl
  | cons r rs ih =>
    unfold dealAll
    extract_lets x k e p
    have he : e.1.memories = s.memories := enterSort_memories _ _ _ _
    have hp : p.1.memories = s.memories := placeRec_memories _ _ _ _
    (repeat' split) <;> simp [ih, he, hp]
@[simp] theorem millDisp_memories (m : MillIx) (s : State) : (millDisp m s).memories = s.memories := by
  refine millStep_memories fun c => ?_
  extract_lets x bs e
  have he : e.1.memories = s.memories := dealAll_memories _ _ _
  (repeat' split) <;> simp [he]
@[simp] theorem millFlush_memories (m : MillIx) (s : State) : (millFlush m s).memories = s.memories := by
  refine millStep_memories fun c => ?_
  split <;> simp
@[simp] theorem millNop_memories (m : MillIx) (s : State) : (millNop m s).memories = s.memories := by simp [millNop]
@[simp] theorem millAdd_memories (m : MillIx) (s : State) : (millAdd m s).memories = s.memories := by simp [millAdd]
@[simp] theorem millSub_memories (m : MillIx) (s : State) : (millSub m s).memories = s.memories := by simp [millSub]
@[simp] theorem millAnd_memories (m : MillIx) (s : State) : (millAnd m s).memories = s.memories := by simp [millAnd]
@[simp] theorem millOr_memories (m : MillIx) (s : State) : (millOr m s).memories = s.memories := by simp [millOr]
@[simp] theorem millXor_memories (m : MillIx) (s : State) : (millXor m s).memories = s.memories := by simp [millXor]
@[simp] theorem millShl_memories (m : MillIx) (s : State) : (millShl m s).memories = s.memories := by simp [millShl]
@[simp] theorem millShr_memories (m : MillIx) (s : State) : (millShr m s).memories = s.memories := by simp [millShr]
@[simp] theorem millMul_memories (m : MillIx) (s : State) : (millMul m s).memories = s.memories := by simp [millMul]
@[simp] theorem millAddi_memories (m : MillIx) (s : State) : (millAddi m s).memories = s.memories := by simp [millAddi]
@[simp] theorem millAndi_memories (m : MillIx) (s : State) : (millAndi m s).memories = s.memories := by simp [millAndi]
@[simp] theorem millOri_memories (m : MillIx) (s : State) : (millOri m s).memories = s.memories := by simp [millOri]
@[simp] theorem millShli_memories (m : MillIx) (s : State) : (millShli m s).memories = s.memories := by simp [millShli]
@[simp] theorem millShri_memories (m : MillIx) (s : State) : (millShri m s).memories = s.memories := by simp [millShri]
@[simp] theorem millCadd_memories (m : MillIx) (s : State) : (millCadd m s).memories = s.memories := by simp [millCadd]
@[simp] theorem millCset_memories (m : MillIx) (s : State) : (millCset m s).memories = s.memories := by simp [millCset]
@[simp] theorem millBeq_memories (m : MillIx) (s : State) : (millBeq m s).memories = s.memories := by simp [millBeq]
@[simp] theorem millBne_memories (m : MillIx) (s : State) : (millBne m s).memories = s.memories := by simp [millBne]
@[simp] theorem millBltu_memories (m : MillIx) (s : State) : (millBltu m s).memories = s.memories := by simp [millBltu]
@[simp] theorem millBgeu_memories (m : MillIx) (s : State) : (millBgeu m s).memories = s.memories := by simp [millBgeu]
@[simp] theorem millJmp_memories (m : MillIx) (s : State) : (millJmp m s).memories = s.memories :=
  millStep_memories fun _ => rfl
@[simp] theorem millEnd_memories (m : MillIx) (s : State) : (millEnd m s).memories = s.memories :=
  millStep_memories fun _ => rfl
@[simp] theorem millAclr_memories (m : MillIx) (s : State) : (millAclr m s).memories = s.memories := by simp [millAclr]
@[simp] theorem millSclr_memories (m : MillIx) (s : State) : (millSclr m s).memories = s.memories := by simp [millSclr]

@[simp] theorem setLag_memories (s : State) (p : Nat) : (setLag s p).memories = s.memories := by simp [setLag]
@[simp] theorem remeasure_memories (s : State) (ps : List Nat) : (remeasure s ps).memories = s.memories := by simp [remeasure]
@[simp] theorem measured_memories (s : State) (p : Nat) : (measured s p).memories = s.memories := by simp [measured]
theorem takeTsync_memories {s t : State} {p : Nat} {pick : Frame → Bool} {f : Frame} (h : takeTsync s p pick = some (f, t)) :
    t.memories = s.memories := by
  unfold takeTsync at h
  split at h
  · cases h
  · split at h <;> cases h
    simp
@[simp] theorem delayRequest_memories (p : Port) (t : DWord) (s : State) : (delayRequest p t s).memories = s.memories := by
  unfold delayRequest
  split
  · rfl
  · next h => simp [takeTsync_memories h]
@[simp] theorem delayReply_memories (p : Port) (t4 : DWord) (s : State) : (delayReply p t4 s).memories = s.memories := by
  unfold delayReply
  split
  · rfl
  · next h =>
    have ht := takeTsync_memories h
    extract_lets x
    split
    · exact ht
    · extract_lets trip l t d
      simp [t, ht, d]
@[simp] theorem tsyncBurstFrame_memories (p : Port) (t : DWord) (s : State) : (tsyncBurstFrame p t s).memories = s.memories := by
  unfold tsyncBurstFrame
  split
  · rfl
  · next h =>
    have ht := takeTsync_memories h
    extract_lets t put ts d old live follows partialNow
    have hput (t' : State) (b : Option BurstRx) : (put t' b).memories = t'.memories := rfl
    have hpart (t' : State) : (partialNow t').memories = t'.memories := by simp [partialNow]
    have ht' : t.memories = s.memories := by simp [t, ht]
    clear_value put partialNow live follows old t
    split
    · exact ht
    · cases old <;> simp [hput, hpart, ht']

@[simp] theorem stopPort_memories (s : State) (p why : Nat) : (stopPort s p why).memories = s.memories := by
  unfold stopPort
  extract_lets x t t'
  have ht : t'.memories = s.memories := by simp [t', t]
  split
  · rfl
  · split <;> simp [ht]
@[simp] theorem startActivity_memories (s : State) (a : Nat × Nat) :
    (startActivity s a).memories = s.memories := by simp [startActivity]
@[simp] theorem requestMaint_memories (s : State) (a : Nat × Nat) : (requestMaint s a).1.memories = s.memories := by
  simp [requestMaint, apply_ite Prod.fst]
@[simp] theorem startDeferred_memories (s : State) : (startDeferred s).memories = s.memories :=
  foldl_memories_fst (fun _ _ => by simp [apply_ite Prod.fst]) _ _
@[simp] theorem abortScans_memories (s : State) (p : Nat) : (abortScans s p).memories = s.memories := by simp [abortScans]

/-! ### Links to the host interface, and one ns -/

/-! #### Link -/

theorem takeControl_memories {s t : State} {p op a : Nat} {b : List Byte} (h : takeControl s p op = some (a, b, t)) :
    t.memories = s.memories := by
  unfold takeControl at h
  split at h
  · cases h
  · split at h <;> cases h
    simp

/-! #### Link -/

@[simp] theorem resend_memories (s : State) (p : Nat) : (resend s p).memories = s.memories := by simp [resend]
@[simp] theorem linkUnitReceive_memories (p : Port) (data : List Byte) (ucw : Bool) (fec : List (Nat × Nat)) (s : State) :
    (linkUnitReceive p data ucw fec s).memories = s.memories := by simp [linkUnitReceive]
@[simp] theorem linkReplayTimeout_memories (p : Port) (s : State) :
    (linkReplayTimeout p s).memories = s.memories := by simp [linkReplayTimeout]
@[simp] theorem reachUp_memories (s : State) (p peer uep port rt ack : Nat) (r : Nat × Nat × Nat) :
    (reachUp s p peer uep port rt ack r).memories = s.memories := by simp [reachUp]
@[simp] theorem trainingUnitReceive_memories (p : Port) (data : List Byte) (good : Byte) (s : State) :
    (trainingUnitReceive p data good s).memories = s.memories := by simp [trainingUnitReceive]
@[simp] theorem wreq_memories (p : Port) (cw : Word) (s : State) : (wreq p cw s).memories = s.memories := by
  unfold wreq
  split
  · rfl
  · next h =>
    have ht := takeControl_memories h
    extract_lets x decide1
    have hd (t' : State) (own : Nat) : (decide1 t' own).memories = t'.memories := by simp [decide1]
    clear_value decide1
    (repeat' split) <;> simp [hd, ht]
@[simp] theorem wack_memories (p : Port) (s : State) : (wack p s).memories = s.memories := by
  unfold wack
  split
  · rfl
  · next h =>
    split <;> simp [takeControl_memories h]
@[simp] theorem widthSwitch_memories (p : Port) (s : State) : (widthSwitch p s).memories = s.memories := by
  unfold widthSwitch
  extract_lets x t0
  split
  · extract_lets t t'
    have ht : t'.memories = s.memories := by simp [t', t, t0]
    (repeat' split) <;> simp [ht]
  · rfl
  · rfl
@[simp] theorem sendFail_memories (s : State) (p : Nat) : (sendFail s p).memories = s.memories := by simp [sendFail]
@[simp] theorem failingBellsEnd_memories (p : Port) (s : State) :
    (failingBellsEnd p s).memories = s.memories := by simp [failingBellsEnd]
@[simp] theorem failReceive_memories (p : Port) (s : State) : (failReceive p s).memories = s.memories := by
  unfold failReceive
  split
  · rfl
  · next h => simp [takeControl_memories h]
@[simp] theorem failingTimeout_memories (p : Port) (s : State) :
    (failingTimeout p s).memories = s.memories := by simp [failingTimeout]
@[simp] theorem loseSignal_memories (s : State) (ps : List Nat) : (loseSignal s ps).memories = s.memories := by simp [loseSignal]
@[simp] theorem signalLoss_memories (p : SignalAt) (s : State) : (signalLoss p s).memories = s.memories := by simp [signalLoss]
@[simp] theorem linkReport_memories (s : State) : (linkReport s).memories = s.memories := by
  unfold linkReport
  split <;> simp

/-! #### Power -/

@[simp] theorem evalIsland_memories (s0 : State) (ovr hold : Bool) (s : State) (g : Nat) :
    (evalIsland s0 ovr hold s g).memories = s.memories := by simp [evalIsland]
@[simp] theorem healthEvaluate_memories (r : Readings) (s : State) : (healthEvaluate r s).memories = s.memories := by
  unfold healthEvaluate
  extract_lets s1 ovr hold s2 _ s3 t
  have h1 : s1.memories = s.memories := by simp [s1]
  have h3 : s3.memories = s.memories := by simp [s3, s2, h1]
  have ht : t.memories = s.memories := (foldl_memories (evalIsland_memories _ _ _) _ _).trans h3
  split
  · exact h1
  · exact (foldl_memories showIsland_memories _ _).trans ht
@[simp] theorem lampEnter_memories (s : State) : (lampEnter s).memories = s.memories := by simp [lampEnter]
@[simp] theorem ageSweep_memories (s : State) : (ageSweep s).memories = s.memories := by simp [ageSweep]
@[simp] theorem scrubSliceDue_memories (d : Die) (s : State) :
    (scrubSliceDue d s).memories = s.memories := by simp [scrubSliceDue]
@[simp] theorem replan_memories (s : State) : (replan s).memories = s.memories := by simp [replan]
@[simp] theorem sweepEnds_memories (s : State) (slow : List (Nat × Nat)) :
    (sweepEnds s slow).memories = s.memories := by simp [sweepEnds]
@[simp] theorem maintenanceEnd_memories (act : Fin 5) (unit : Fin 64) (slow : List (Nat × Nat)) (s : State) :
    (maintenanceEnd act unit slow s).memories = s.memories := by simp [maintenanceEnd]

/-! #### Tenants -/

@[simp] theorem zeroImage_canonical (s : State) (g sl : Nat) (hs : Canonical s.memories) :
    Canonical (zeroImage s g sl).memories := by
  unfold zeroImage
  split
  · exact hs
  · exact ⟨hs.1, Mem.wf_memClear hs.2 _ _⟩
@[simp] theorem takeOwner_canonical (s : State) (g new : Nat) (hs : Canonical s.memories) :
    Canonical (takeOwner s g new).memories := by
  unfold takeOwner
  extract_lets old res had t1 _ t2 t3 gone _ t4 first t5 x
  have h1 : t1.memories = s.memories := by simp [t1]
  have h2 : t2.memories = s.memories := by
    unfold t2
    split <;> exact h1
  have h3 : t3.memories = s.memories := by
    unfold t3
    split <;> simp [h2]
  have h4 : Canonical t4.memories := h3.symm ▸ hs
  have h5 : Canonical t5.memories := foldl_canonical (fun t sl ht => by
    (repeat' split) <;> simp [ht]) _ h4
  (repeat' split) <;> simp [h5]
@[simp] theorem dropSlot_canonical (s : State) (fn g : Nat) (hs : Canonical s.memories) :
    Canonical (dropSlot s fn g).memories := by
  unfold dropSlot
  split <;> simp [hs]
@[simp] theorem teardownDrainEnd_canonical (fn : Fn) (s : State) (hs : Canonical s.memories) :
    Canonical (teardownDrainEnd fn s).memories := by
  unfold teardownDrainEnd
  extract_lets f _ t t' gs alone t''
  have ht : Canonical t''.memories := foldl_canonical (fun _ _ h => by simp [h]) _ (by simp [t', t, hs])
  split
  · exact hs
  · exact hs
  · split
    · exact hs
    · simp [ht]
@[simp] theorem teardownDone_canonical (fn : Fn) (s : State) (hs : Canonical s.memories) :
    Canonical (teardownDone fn s).memories := by
  unfold teardownDone
  extract_lets f
  split
  · exact hs
  · exact hs
  · extract_lets t t' t''
    have ht : Canonical t.memories := foldl_canonical (fun _ _ h => by split <;> simp [h]) _ hs
    simp [t'', t', ht]

/-! #### Mgmt -/

@[simp] theorem pmbAlert_memories (rails : List RailTry) (s : State) :
    (pmbAlert rails s).memories = s.memories := by simp [pmbAlert]

/-! #### Reset -/

@[simp] theorem coldReset_canonical (s : State) : Canonical (coldReset s).memories := by simp [coldReset]
@[simp] theorem deviceReset_canonical (s : State) (hs : Canonical s.memories) : Canonical (deviceReset s).memories := by
  unfold deviceReset
  extract_lets t _ _ _ _ _ t1 t2 t3
  have h1 : Canonical t1.memories := ⟨(coldReset_canonical s).1, hs.2⟩
  have h3 : Canonical t3.memories := by simp [t3, t2, h1]
  split <;> simp [h3]
@[simp] theorem deviceResetWrite_canonical (s : State) (hs : Canonical s.memories) :
    Canonical (deviceResetWrite s).memories := by simp [deviceResetWrite, hs]
@[simp] theorem bootStoresReady_canonical (s : State) (hs : Canonical s.memories) : Canonical (bootStoresReady s).memories := by
  unfold bootStoresReady
  extract_lets _ t t'
  have ht : Canonical t.memories := by
    unfold t
    split
    · exact ⟨hs.1, rfl⟩
    · exact hs
  split
  · exact hs
  · simp [t', ht]
@[simp] theorem bootReady_memories (s : State) : (bootReady s).memories = s.memories := by simp [bootReady]

/-! #### Setup -/

@[simp] theorem writeRst_canonical (s : State) (v : Nat) (hs : Canonical s.memories) : Canonical (writeRst s v).1.memories := by
  unfold writeRst
  extract_lets _ r
  have hr : Canonical r.1.memories := by
    unfold r
    (repeat' split) <;> simp [hs]
  split <;> simp [hr]
@[simp] theorem writeGlb_canonical (s : State) (off v new : Nat) (hs : Canonical s.memories) :
    Canonical (writeGlb s off v new).1.memories := by
  unfold writeGlb
  (repeat' split) <;> simp [hs]
@[simp] theorem goMaint_memories (s : State) (v : Nat) : (goMaint s v).1.memories = s.memories := by
  simp [goMaint, apply_ite Prod.fst]
@[simp] theorem writePwr_memories (s : State) (off v new : Nat) : (writePwr s off v new).1.memories = s.memories := by
  unfold writePwr
  (repeat' split) <;> simp
@[simp] theorem snapBins_memories (s : State) : (snapBins s).memories = s.memories := by
  unfold snapBins
  extract_lets put t t'
  have hput (l off t) : (put l off t).memories = t.memories := foldl_memories (fun _ _ => by simp) _ _
  simp only [State.memories_mk, t', t, hput]
@[simp] theorem writeSwq_memories (s : State) (off v new : Nat) : (writeSwq s off v new).1.memories = s.memories := by
  unfold writeSwq
  (repeat' split) <;> simp
@[simp] theorem enableWritten_memories (s : State) (p : Nat) (was : Bool) :
    (enableWritten s p was).memories = s.memories := by simp [enableWritten]
@[simp] theorem widthWritten_memories (s : State) (p was : Nat) :
    (widthWritten s p was).memories = s.memories := by simp [widthWritten]
@[simp] theorem writePrtCtl_memories (s : State) (p v new : Nat) : (writePrtCtl s p v new).1.memories = s.memories := by
  unfold writePrtCtl
  extract_lets off en wreq r t q
  have ht : t.memories = s.memories := by simp [t, r]
  have hq : q.1.memories = s.memories := by simp [q, ht]
  split
  · exact hq
  · exact ht
@[simp] theorem writePrt_memories (s : State) (off v new : Nat) : (writePrt s off v new).1.memories = s.memories := by
  unfold writePrt
  extract_lets p r t
  have ht : t.memories = s.memories := by simp [t]
  (repeat' split) <;> simp [ht]
@[simp] theorem commitClown_canonical (s : State) (g new : Nat) (hs : Canonical s.memories) :
    Canonical (commitClown s g new).1.memories := by
  unfold commitClown
  extract_lets sts
  split <;> simp [hs]
@[simp] theorem writeBond_memories (lk : Bool) (s : State) (b new : Nat) : (writeBond lk s b new).1.memories = s.memories := by
  unfold writeBond
  extract_lets old ps t _ t'
  have ht : t'.memories = s.memories := wr_memories s (R.gngBond b) new
  (repeat' split) <;> simp [ht]
@[simp] theorem writeGng_memories (lk : Bool) (s : State) (off new : Nat) : (writeGng lk s off new).1.memories = s.memories := by
  unfold writeGng
  split
  · split <;> simp
  · (repeat' split) <;> simp
@[simp] theorem write32_canonical (lk : Bool) (s : State) (off v new : Nat) (hs : Canonical s.memories) :
    Canonical (write32 lk s off v new).1.memories := by
  simp [write32, apply_ite Prod.fst, hs]
@[simp] theorem commit64_canonical (lk : Bool) (s : State) (off new : Nat) (hs : Canonical s.memories) :
    Canonical (commit64 lk s off new).1.memories := by
  unfold commit64
  extract_lets n t
  have ht : t.memories = s.memories := by simp [t]
  (repeat' split) <;> simp [ht, hs]
@[simp] theorem bar0Write_canonical (adm : Bool) (off v : Nat) (s : State) (hs : Canonical s.memories) :
    Canonical (bar0Write adm off v s).1.memories := by
  unfold bar0Write
  extract_lets lk t0
  have ht0 : Canonical t0.memories := by simp [t0, hs]
  split
  · exact ht0
  · extract_lets base t low high
    have ht : Canonical t.memories := by simp [t, hs]
    (repeat' split) <;> simp [ht0, ht]

/-! #### HostIf -/

@[simp] theorem storeTarget_canonical (s : State) (t : Target) (bs : List Byte) (hs : Canonical s.memories) :
    Canonical (storeTarget s t bs).1.memories := by
  unfold storeTarget
  split <;> simp [hs]
@[simp] theorem copyIn_canonical (r : DescRef) (h : HostDesc) (data : List Byte) (s : State) (hs : Canonical s.memories) :
    Canonical (copyIn r h data s).memories := by simp [copyIn, hs]
@[simp] theorem copyTurn_canonical (r : DescRef) (data : List Byte) (h : HostDesc) (s : State) (hs : Canonical s.memories) :
    Canonical (copyTurn r data h s).memories := by
  unfold copyTurn
  extract_lets t
  (repeat' split) <;> simp [hs]
@[simp] theorem hcopyBody_canonical (r : DescRef) (data : List Byte) (h : HostDesc) (s : State) (hs : Canonical s.memories) :
    Canonical (hcopyBody r data h s).memories := by simp [hcopyBody, hs]
@[simp] theorem hcopy_canonical (r : DescRef) (data : List Byte) (s : State) (hs : Canonical s.memories) :
    Canonical (hcopy r data s).memories := by
  unfold hcopy
  split
  · exact hs
  · split
    · simp [hs]
    · exact startDesc_canonical hs fun _ => hcopyBody_canonical _ _ _ _ hs
@[simp] theorem clownBody_canonical (on : Bool) (r : DescRef) (h : HostDesc) (s : State) (hs : Canonical s.memories) :
    Canonical (clownBody on r h s).memories := by
  unfold clownBody
  extract_lets b g sl fn old new st
  (repeat' split) <;> simp [hs]
@[simp] theorem setregBody_canonical (r : DescRef) (h : HostDesc) (s : State) (hs : Canonical s.memories) :
    Canonical (setregBody r h s).memories := by
  unfold setregBody
  extract_lets b off v m
  split
  · simp [hs]
  · split <;> simp [hs]
@[simp] theorem writeEntries_memories (r : DescRef) (h : HostDesc) (data : List Byte) (n k : Nat) (s : State) :
    (writeEntries r h data n k s).memories = s.memories := by
  induction n generalizing k s with
  | zero => simp [writeEntries]
  | succ n ih =>
    unfold writeEntries
    extract_lets b tid idx e waits p
    have hp : p.1.memories = s.memories := tblWrite_memories _ _ _ _ _ _
    (repeat' split) <;> simp [ih, hp]
@[simp] theorem tblwrBody_memories (r : DescRef) (data : List Byte) (h : HostDesc) (s : State) :
    (tblwrBody r data h s).memories = s.memories := by simp [tblwrBody]

/-! #### Tick -/

@[simp] theorem tick_canonical (s : State) (hs : Canonical s.memories) : Canonical (tick s).memories := by
  unfold tick
  extract_lets _ t t'
  have ht : Canonical t'.memories := by simp [t', t, hs]
  simp only [keepBusy_memories]
  exact foldl_canonical (fun _ _ h => transferNs_canonical h _) _ ht

/-! ### One command, one step -/

/-- Does an outcome that goes on have its memories in canonical form? -/
def CanonicalNext : Out → Prop
  | .next t => Canonical t.memories
  | .fault _ => True
  | .refused _ => True

theorem canonicalNext_ite {c : Prop} [Decidable c] {a b : Out} (ha : CanonicalNext a) (hb : CanonicalNext b) :
    CanonicalNext (if c then a else b) := by
  split <;> assumption

theorem meeting_markBusy_canonical {s : State} (hs : Canonical s.memories) (g : Nat) (u : Upsets) {f : State → State}
    (hf : ∀ t, Canonical t.memories → Canonical (f t).memories) : Canonical (markBusy g s (meeting u f s)).memories := by
  rw [markBusy_memories]
  exact meeting_canonical hf hs

theorem exec_canonical {s : State} (hs : Canonical s.memories) (i : Instr) : CanonicalNext (exec i s) := by
  cases i
  case doorbellPoll | descriptorFetch | trainingUnitReceive =>
    exact canonicalNext_ite (by simp [CanonicalNext, hs]) trivial
  case matmul | convert | sparse | reduceSumImages | reduceSumPartials | reduceMax | reduceMin | copy | copyComplete | stage |
      contextSaveDone | contextRestoreDone =>
    exact meeting_markBusy_canonical hs _ _ fun _ ht => by simp [ht]
  case meshPacketArrive | remoteWrite | atomicIntegerAdd | atomicSwap | atomicCompareSwap | atomicFloatingAdd | rdataArrive |
      atrespArrive | hcopy =>
    exact meeting_canonical (fun _ ht => by simp [ht]) hs
  all_goals
    change Canonical (State.memories _)
    simp [hs]

theorem step_canonical {s : State} (hs : Canonical s.memories) : CanonicalNext (step s) := by
  unfold step
  split
  · exact tick_canonical s hs
  · next c rest _ => exact exec_canonical (s := { s with pending := rest }) hs c

end Sys2Proof.Machine

open Sys2Proof Sys2Proof.Machine

/-- Settles O3: a command, or one ns, leaves each memory as it was or writes it by a canonical write. -/
theorem memoryStaysCanonical : Obligations.MemoryStaysCanonical := by
  intro s t hs hst
  have h := step_canonical ((State.memOk_iff s).1 hs)
  rw [hst] at h
  exact (State.memOk_iff t).2 h
end

section
/-! PROOFS. REDUCE to one output (04 R161). -/

namespace Sys2Proof.Machine

variable {s : State} {core fn a : Nat} {org : Origin} {d : ReduceD} {p : Params} {bs : List Byte} {fl : FpFlags}

/-- What one output of a REDUCE leaves: its bytes at a key of the stores, and its flags told. -/
def reduceStored (s : State) (core fn a : Nat) (bs : List Byte) (fl : FpFlags) : State :=
  raiseFlags (storeBytes s a bs) core fn (fl.or FpFlags.none)

theorem reduceStored_keeps (s : State) (core fn a : Nat) (bs : List Byte) (fl : FpFlags) :
    OpKeeps core fn a bs.length s (reduceStored s core fn a bs fl) :=
  (OpKeeps.storeBytes core fn s le_rfl).trans (OpKeeps.raiseFlags core fn a _ _ _)

theorem reduceStored_bytes (s : State) (core fn a : Nat) (bs : List Byte) (fl : FpFlags) :
    memReadN (reduceStored s core fn a bs fl).comp.store a bs.length = bs := memReadN_memWriteN _ _ _

/-- The step of one output, by its sum or by its pick. -/
def reduceOut (core fn : Nat) (org : Origin) (d : ReduceD) (p : Params) (a : ReduceAcc) (o : Nat) : ReduceAcc :=
  if d.rop < 2 then reduceSumStep core fn org d p a o else reducePickStep core fn org d p a o

/-- A REDUCE to one output, whose step stores its bytes and emits no element of a fused tile, does nothing else. -/
theorem runReduce_one (hs : Quiet s) (hn : d.nout = 1) (hf : d.rop < 2 → (ofmtOf d.ofc).bind OFmt.elem = none)
    (hout : reduceOut core fn org d p ⟨s, EmitAcc.empty, [], false⟩ 0 =
      ⟨storeBytes s a bs, ⟨EmitAcc.empty.t, fl⟩, [], false⟩) (one : Bool) :
    runReduce s core fn org d p one none = ⟨reduceStored s core fn a bs fl, false, none⟩ := by
  have hstep : reduceStep core fn org d p ⟨s, EmitAcc.empty, [], false⟩ 0 =
      ⟨reduceStored s core fn a bs fl, ⟨EmitAcc.empty.t, fl⟩, [], false⟩ := by
    rw [reduceOut] at hout
    simp only [reduceStep, hs.meetRuns_eq, hout, Bool.false_eq_true, if_false]
    have hnote : noteStep (storeBytes s a bs) core fn EmitAcc.empty ⟨EmitAcc.empty.t, fl⟩ = reduceStored s core fn a bs fl :=
      noteStep_of_tile_eq _ _ _ rfl
    rw [hnote]
  have helem : (if d.rop < 2 then (ofmtOf d.ofc).bind OFmt.elem else none) = none := by
    split
    · next h => exact hf h
    · rfl
  simp only [runReduce, reduceFrom, hn, Nat.sub_zero, stepsFrom, hstep, Bool.false_or, ite_self, Bool.false_eq_true, if_false,
    lt_irrefl, helem, endFused]

/-- R161: the image of the inputs stands at DST. -/
theorem reduceOut_images (hs : Quiet s) (hr : d.rop < 2) (hof : d.ofc = 0xFF) (hdst : space d.dst = 0)
    (ha : opKey core d.dst 0 = some a) :
    reduceOut core fn org d p ⟨s, EmitAcc.empty, [], false⟩ 0 =
      ⟨storeBytes s a (Image.bytes (reduceImage s core d 0).1),
        ⟨EmitAcc.empty.t, FpFlags.none.or (reduceImage s core d 0).2⟩, [], false⟩ := by
  have hfmt : ofmtOf d.ofc = some .images := by rw [hof]; rfl
  simp only [reduceOut, if_pos hr, reduceSumStep, hfmt, Nat.zero_mul, hs.putOp_own_eq hdst ha]
  rfl

/-- The element picked, as its bytes: where its format fills whole bytes it shares none. -/
def pickBytes (s : State) (core : Nat) (d : ReduceD) (p : Params) (e : EFmt) : List Byte :=
  leBytes (widthOf e.f / 8) ((reducePick s core d e p.ftz 0).1 % 2 ^ widthOf e.f)

/-- An element of whole bytes at the head of an output is written as it is. -/
theorem putElem_zero (hs : Quiet s) {rm : Remote} {w wd : Nat} (hw : wd % 8 = 0) (hdst : space w = 0)
    (ha : opKey core w 0 = some a) (code : Nat) :
    putElem s core fn org rm w wd 0 code = (storeBytes s a (leBytes (wd / 8) (code % 2 ^ wd)), false) := by
  have hn : ceilDiv wd 8 = wd / 8 := by simp only [ceilDiv]; omega
  simp [putElem, hw, hn, hs.putOp_own_eq hdst ha]

/-- R86, R161: the element picked stands at DST. -/
theorem reduceOut_pick (hs : Quiet s) (hr : ¬ d.rop < 2) {e : EFmt} (he : fmtOf d.ifmt = some e) (hw : widthOf e.f % 8 = 0)
    (hdst : space d.dst = 0) (ha : opKey core d.dst 0 = some a) :
    reduceOut core fn org d p ⟨s, EmitAcc.empty, [], false⟩ 0 =
      ⟨storeBytes s a (pickBytes s core d p e),
        ⟨EmitAcc.empty.t, FpFlags.none.or (reducePick s core d e p.ftz 0).2⟩, [], false⟩ := by
  simp only [reduceOut, if_neg hr, reducePickStep, he, putElem_zero hs hw hdst ha]
  rfl

theorem leNat_pickBytes (s : State) (core : Nat) (d : ReduceD) (p : Params) {e : EFmt} (hw : widthOf e.f % 8 = 0) :
    leNat (pickBytes s core d p e) = (reducePick s core d e p.ftz 0).1 % 2 ^ widthOf e.f := by
  have hpow : 256 ^ (widthOf e.f / 8) = 2 ^ widthOf e.f := by
    rw [show 256 = 2 ^ 8 from rfl, ← Nat.pow_mul]
    congr 1
    omega
  rw [pickBytes, leNat_leBytes, hpow, Nat.mod_mod]

/-- A core stands at an issued REDUCE to one output in its own stores, where no error stands. -/
structure ReduceIssued (s : State) (k : CoreId) (fn : Nat) (r : RunList) (d : ReduceD) (p : Params) (a : Nat) : Prop where
  noUe : noUe s
  current : current s k = some (fn, r)
  issued : r.phase = .issued
  part : r.part = none
  op : byteAt r.desc 0 = 4
  desc : reduceD r.desc = d
  par : r.par = some p
  one : d.nout = 1
  dst : space d.dst = 0
  key : opKey k.no d.dst 0 = some a

/-- The row of a REDUCE to one output, whose step stores its bytes. -/
theorem ReduceIssued.row {k : CoreId} {r : RunList} (h : ReduceIssued s k fn r d p a)
    (hf : d.rop < 2 → (ofmtOf d.ofc).bind OFmt.elem = none)
    (hout : reduceOut k.no fn (coreOrg k.no fn r) d p ⟨unstruck s, EmitAcc.empty, [], false⟩ 0 =
      ⟨storeBytes (unstruck s) a bs, ⟨EmitAcc.empty.t, fl⟩, [], false⟩) :
    ∃ t, coreRow k Upsets.none (listReduce k d.rop) s = .next t ∧
      (seqOf t k.no fn).run = some { r with phase := .done, part := none } ∧ memReadN t.comp.store a bs.length = bs ∧
      (∀ x, x < a ∨ a + bs.length ≤ x → memRead t.comp.store x = memRead s.comp.store x) ∧
      sameRegs s t [R.cpxFpstat k.d] ∧ t.deep = s.deep ∧ t.rem = s.rem ∧ t.outbox = s.outbox := by
  have hrop : byteAt r.desc 4 = d.rop := by rw [← h.desc]; rfl
  have hrow := coreRow_onOp (u := reduceStored (unstruck s) k.no fn a bs fl) (p := fun b => opIs 4 b && byteAt b 4 == d.rop)
    (f := fun s fn r => match r.par with
      | some p => finishOp (runReduce s k.no fn (coreOrg k.no fn r) (reduceD r.desc) p (expired s k) r.part) k.no fn
      | none => s) h.current h.issued (by simp [opIs, h.op, hrop])
    (by simp only [h.par, h.desc, h.part, runReduce_one (quiet_unstruck h.noUe) h.one hf hout, finishOp])
  obtain ⟨hrun, hstore, hrest⟩ := rowDone_keeps h.current (reduceStored_keeps (unstruck s) k.no fn a bs fl)
  exact ⟨_, hrow, hrun, hstore ▸ reduceStored_bytes _ _ _ _ _ _, hrest⟩

end Sys2Proof.Machine

open Sys2Proof Sys2Proof.Machine

/-- Settles O38: the one step of the REDUCE stores its output (`reduceOut_images`, `reduceOut_pick`) and tells its flags. -/
theorem reduces : Obligations.Reduces := by
  unfold Obligations.Reduces
  intro s k fn r d p a hue hcur hiss hpart hop hd hp hn hdst ha
  have h : ReduceIssued s k fn r d p a := ⟨hue, hcur, hiss, hpart, hop, hd, hp, hn, hdst, ha⟩
  have hq := quiet_unstruck hue
  refine ⟨fun c hc hof => ?images, fun c e hc he _ hw => ?pick⟩
  case images =>
    have hf : (ofmtOf d.ofc).bind OFmt.elem = none := by rw [hof]; rfl
    simp only [List.mem_cons, Prod.mk.injEq, List.not_mem_nil, or_false] at hc
    have hr : d.rop < 2 := by omega
    have hrow := h.row (fun _ => hf) (reduceOut_images hq hr hof hdst ha)
    rw [Image.bytes_length] at hrow
    obtain ⟨rfl, hrop⟩ | ⟨rfl, hrop⟩ := hc
    · rwa [hrop] at hrow
    · rwa [hrop] at hrow
  case pick =>
    simp only [List.mem_cons, Prod.mk.injEq, List.not_mem_nil, or_false] at hc
    have hr : ¬ d.rop < 2 := by omega
    have hrow := h.row (fun hlt => absurd hlt hr) (reduceOut_pick hq hr he hw hdst ha)
    obtain ⟨t, ht, hrun, hbytes, hrest⟩ := hrow
    have hlen : (pickBytes (unstruck s) k.no d p e).length = widthOf e.f / 8 := leBytes_length _ _
    rw [hlen] at hbytes hrest
    have hval : leNat (memReadN t.comp.store a (widthOf e.f / 8)) =
        (reducePick s k.no d e p.ftz 0).1 % 2 ^ widthOf e.f := by
      rw [hbytes, leNat_pickBytes _ _ _ _ hw]
      rfl
    obtain ⟨rfl, hrop⟩ | ⟨rfl, hrop⟩ := hc
    · rw [hrop] at ht
      exact ⟨t, ht, hrun, hval, hrest⟩
    · rw [hrop] at ht
      exact ⟨t, ht, hrun, hval, hrest⟩
end

section
/-! PROOFS. COPY of one row into the stores, and asynchronous copies (04 R145, R162, R164). -/

namespace Sys2Proof.Machine

variable {s t u : State} {core fn a n : Nat} {k : CoreId} {r : RunList} {bs : List Byte}

/-! ### Runs cut into pieces -/

/-- Do the pieces of a list, as (first, length), make up n positions from o, one after the other? -/
def Cuts (o n : Nat) : List (Nat × Nat) → Prop
  | [] => n = 0
  | c :: l => c.1 = o ∧ c.2 ≤ n ∧ Cuts (o + c.2) (n - c.2) l

theorem cuts_cutAt {m o n fuel : Nat} (hm : 0 < m) (h : n = 0 ∨ n + o % m ≤ m * fuel) : Cuts o n (cutAt m o n fuel) := by
  induction fuel generalizing o n with
  | zero =>
    show n = 0
    omega
  | succ k ih =>
    unfold cutAt
    split
    · assumption
    · next hn =>
      refine ⟨rfl, Nat.min_le_left _ _, ih ?_⟩
      have hmod := Nat.mod_lt o hm
      obtain hle | hlt := Nat.le_total n (m - o % m)
      · exact .inl (by rw [Nat.min_eq_left hle, Nat.sub_self])
      · have hround : (o + (m - o % m)) % m = 0 := by
          rw [← Nat.dvd_iff_mod_eq_zero]
          exact ⟨o / m + 1, by rw [Nat.mul_succ]; have := Nat.div_add_mod o m; omega⟩
        rw [Nat.mul_succ] at h
        refine .inr ?_
        rw [Nat.min_eq_right hlt, hround]
        omega

/-- A run is cut at every 4 KiB from its first position to its last. -/
theorem cuts_cut4k (o n : Nat) : Cuts o n (cut4k o n) := cuts_cutAt (by decide) (.inr (by omega))

theorem Cuts.shift {o n o0 : Nat} {l : List (Nat × Nat)} (h : Cuts o n l) (ho : o0 ≤ o) (b : Nat) :
    Cuts (b + (o - o0)) n (l.map fun c => (b + (c.1 - o0), c.2)) := by
  induction l generalizing o n with
  | nil => exact h
  | cons c l ih =>
    obtain ⟨rfl, hle, hl⟩ := h
    refine ⟨rfl, hle, ?_⟩
    have := ih hl (by omega)
    rwa [show b + (c.1 + c.2 - o0) = b + (c.1 - o0) + c.2 by omega] at this

/-- A run at a local address is cut into places from its first byte to its last. -/
theorem cuts_placeCuts (a n : Nat) : Cuts a n (placeCuts a n) := by
  have h := (cuts_cut4k (imageOffset a) n).shift le_rfl a
  rwa [Nat.sub_self] at h

/-- What is read piece by piece has the length of the whole. -/
theorem Cuts.length_flatMap {o n : Nat} {l : List (Nat × Nat)} (h : Cuts o n l) {f : Nat × Nat → List Byte}
    (hf : ∀ c, (f c).length = c.2) : (l.flatMap f).length = n := by
  induction l generalizing o n with
  | nil => exact h.symm
  | cons c l ih =>
    obtain ⟨-, hle, hl⟩ := h
    rw [List.flatMap_cons, List.length_append, hf, ih hl]
    omega

/-- Pieces of a run of bytes that are stored one after the other store the run. -/
theorem Cuts.foldl_storeBytes {o n b a0 : Nat} {l : List (Nat × Nat)} (h : Cuts o n l) (ho : a0 ≤ o)
    (hn : bs.length = o - a0 + n) {f : State × Bool → Nat × Nat → State × Bool}
    (hf : ∀ x c, a0 ≤ c.1 → f (storeBytes s b x, false) c =
      (storeBytes (storeBytes s b x) (b + (c.1 - a0)) ((bs.drop (c.1 - a0)).take c.2), false)) :
    l.foldl f (storeBytes s b (bs.take (o - a0)), false) = (storeBytes s b bs, false) := by
  induction l generalizing o n with
  | nil =>
    rw [List.foldl_nil, List.take_of_length_le (by rw [hn, show n = 0 from h]; rfl)]
  | cons c l ih =>
    obtain ⟨rfl, hle, hl⟩ := h
    have hlen : (bs.take (c.1 - a0)).length = c.1 - a0 := by rw [List.length_take]; omega
    have hstep : f (storeBytes s b (bs.take (c.1 - a0)), false) c = (storeBytes s b (bs.take (c.1 + c.2 - a0)), false) := by
      rw [hf _ _ ho, show c.1 + c.2 - a0 = c.1 - a0 + c.2 by omega, List.take_add, storeBytes_append, hlen]
    rw [List.foldl_cons, hstep, ih hl (by omega) (by omega)]

/-- From a multiple of m a run is cut into lengths of m. -/
theorem cutAt_aligned {m : Nat} (hm : 0 < m) (i n fuel : Nat) (h : n ≤ m * fuel) :
    cutAt m (m * i) n fuel = (List.range (ceilDiv n m)).map fun j => (m * (i + j), min (n - m * j) m) := by
  induction fuel generalizing i n with
  | zero =>
    obtain rfl : n = 0 := by omega
    simp [cutAt, ceilDiv, hm]
  | succ k ih =>
    unfold cutAt
    split
    · next hn => simp [hn, ceilDiv, hm]
    · next hn =>
      rw [Nat.mul_succ] at h
      have hone : ceilDiv n m = ceilDiv (n - m) m + 1 := by
        obtain hle | hlt := Nat.le_total m n
        · rw [ceilDiv, ceilDiv, ← Nat.add_div_right _ hm]
          congr 1
          omega
        · rw [Nat.sub_eq_zero_of_le hlt, ceilDiv, ceilDiv, Nat.div_eq_of_lt (by omega : 0 + m - 1 < m)]
          exact Nat.div_eq_of_lt_le (by omega) (by omega)
      have htail : cutAt m (m * i + min n m) (n - min n m) k = cutAt m (m * (i + 1)) (n - m) k := by
        obtain hle | hlt := Nat.le_total m n
        · rw [Nat.min_eq_right hle, Nat.mul_succ]
        · have hz : ∀ o, cutAt m o 0 k = [] := by intro o; cases k <;> rfl
          rw [Nat.min_eq_left hlt, Nat.sub_self, Nat.sub_eq_zero_of_le hlt, hz, hz]
      simp only [Nat.mul_mod_right, Nat.sub_zero]
      rw [htail, ih _ _ (by omega), hone, List.range_succ_eq_map, List.map_cons, List.map_map]
      refine congrArg₂ List.cons (by simp) (List.map_congr_left fun j _ => ?_)
      simp only [Function.comp_apply, Nat.succ_eq_add_one, Nat.mul_succ]
      exact Prod.ext (by ring) (by simp only; congr 1; omega)

/-- A run from 0 is cut at every 4 KiB. -/
theorem cut4k_zero (n : Nat) :
    cut4k 0 n = (List.range (ceilDiv n 4096)).map fun j => (4096 * j, min (n - 4096 * j) 4096) := by
  have h := cutAt_aligned (by decide : 0 < 4096) 0 n (n / 4096 + 2) (by omega)
  rw [cut4k]
  simpa only [Nat.zero_add, Nat.mul_zero] using h

/-! ### Operands of a copy -/

/-- A part of a run that is read. -/
theorem memReadN_part (m : List (Nat × Byte)) (a : Nat) {i l n : Nat} (h : i + l ≤ n) :
    ((memReadN m a n).drop i).take l = memReadN m (a + i) l := by
  obtain ⟨j, rfl⟩ := Nat.exists_eq_add_of_le h
  rw [memReadN_add, memReadN_add, List.append_assoc, List.drop_left' (memReadN_length _ _ _),
    List.take_left' (memReadN_length _ _ _)]

theorem memReadN_stored (m : List (Nat × Byte)) (a : Nat) (h : bs.length = n) : memReadN (memWriteN m a bs) a n = bs :=
  h ▸ memReadN_memWriteN _ _ _

@[simp] theorem readImage_length (s : State) (a n : Nat) : (readImage s a n).length = n := by
  unfold readImage
  split
  · exact memReadN_length _ _ _
  · exact List.length_replicate

@[simp] theorem readPlace_length (s : State) (g fn a n : Nat) : (readPlace s g fn a n).length = n := by
  refine (cuts_placeCuts a n).length_flatMap fun c => ?_
  split
  · exact memReadN_length _ _ _
  · exact readImage_length _ _ _

/-- As many bytes of an operand are read as are asked for. -/
@[simp] theorem getOp_length (s : State) (core w o n : Nat) : (getOp s core w o n).length = n := by
  unfold getOp
  split
  · exact memReadN_length _ _ _
  · split
    · split
      · exact memReadN_length _ _ _
      · exact readPlace_length _ _ _ _ _
    · exact List.length_replicate

/-- Are the stores of a function on a cluster live whole? -/
def LiveAt (s : State) (core w : Nat) : Prop := ∀ x, isLive s (opClu core w) (coreFn s core) x = true

/-- One place of a byte run written for a function on a cluster. -/
def putPiece (g f a : Nat) (bs : List Byte) (acc : State × Bool) (c : Nat × Nat) : State × Bool :=
  let piece := (bs.drop (c.1 - a)).take c.2
  if isLive acc.1 g f c.1 then
    let w := putStore acc.1 (storeKey g c.1) piece
    (w.1, acc.2 || w.2)
  else (writeImage acc.1 (imageAddr acc.1 g f c.1) piece, acc.2)

theorem putPlace_eq (s : State) (g f a : Nat) (bs : List Byte) :
    putPlace s g f a bs = (placeCuts a bs.length).foldl (putPiece g f a bs) (s, false) := rfl

/-- A write of live bytes where no error stands is one run at its key. -/
theorem Quiet.putPlace_eq (h : Quiet s) {g f : Nat} (hlive : ∀ x, isLive s g f x = true) (a : Nat) (bs : List Byte) :
    putPlace s g f a bs = (Machine.storeBytes s (storeKey g a) bs, false) := by
  have hput : ∀ x c, a ≤ c.1 → putPiece g f a bs (Machine.storeBytes s (storeKey g a) x, false) c =
      (Machine.storeBytes (Machine.storeBytes s (storeKey g a) x) (storeKey g a + (c.1 - a)) ((bs.drop (c.1 - a)).take c.2),
        false) := by
    intro x c hc
    have hl : isLive (Machine.storeBytes s (storeKey g a) x) g f c.1 = true := hlive c.1
    have hkey : storeKey g c.1 = storeKey g a + (c.1 - a) := by simp only [storeKey]; omega
    simp only [putPiece, hl, if_true, (h.storeBytes _ _).putStore_eq, hkey, Bool.or_false]
  have hcuts := (cuts_placeCuts a bs.length).foldl_storeBytes (bs := bs) le_rfl (by omega) hput
  rw [Nat.sub_self, List.take_zero] at hcuts
  exact hcuts

/-- A write of one live run to an operand in the stores. -/
theorem Quiet.putOp_live_eq (h : Quiet s) {w o : Nat} {org : Origin} {rm : Remote} (hw : space w < 2)
    (hlive : LiveAt s core w) (ha : opKey core w o = some a) (bs : List Byte) :
    putOp s core fn org rm w [(o, bs)] = (Machine.storeBytes s a bs, false) := by
  obtain ⟨x, hx, rfl⟩ := Option.map_eq_some_iff.1 ha
  rw [putOp, if_neg (by omega), if_neg (by omega)]
  simp only [List.foldl_cons, List.foldl_nil, hx, Bool.false_or]
  split
  · next h0 =>
    have hclu : opClu core w = core / 64 := if_pos h0
    rw [h.putStore_eq, hclu]
  · exact h.putPlace_eq hlive x bs

/-! ### The pieces of a copy of one row -/

/-- The j-th 4 KiB of a copy of one row. -/
def rowSeg (len j : Nat) : CopySeg := ⟨4096 * j, 4096 * j, min (len - 4096 * j) 4096, j⟩

/-- Parts of different 4 KiB are pieces of their own. -/
theorem groupSegs_of_nodup {l : List CopySeg} (h : (l.map (·.piece)).Nodup) : groupSegs l = l.map fun x => [x] := by
  induction l with
  | nil => rfl
  | cons x l ih =>
    obtain ⟨hx, hl⟩ := List.nodup_cons.1 h
    rw [groupSegs, ih hl]
    cases l with
    | nil => rfl
    | cons y l =>
      have hne : ¬ (some y.piece = some x.piece) := fun e => hx (by simp [Option.some.inj e])
      simp [hne]

/-- R162: the pieces of a copy of one row into the stores. -/
theorem pieces_row {d : CopyD} (hdst : space d.dst < 2) (hrows : d.rows = 1) :
    CopyD.pieces d = (List.range (ceilDiv d.len 4096)).map fun j => [rowSeg d.len j] := by
  have hsegs : CopyD.segs d = (List.range (ceilDiv d.len 4096)).map (rowSeg d.len) := by
    simp [CopyD.segs, hrows, if_neg (by omega : ¬ space d.dst = 3), cut4k_zero, rowSeg, Function.comp_def]
  rw [CopyD.pieces, hsegs, groupSegs_of_nodup, List.map_map]
  · rfl
  · have hpiece : CopySeg.piece ∘ rowSeg d.len = id := rfl
    rw [List.map_map, hpiece, List.map_id]
    exact List.nodup_range

/-- Before its j-th piece a copy of one row has stored 4 KiB for each piece before. -/
def copiedTo (s : State) (core a : Nat) (d : CopyD) (j : Nat) : State :=
  storeBytes s a ((getOp s core d.src 0 d.len).take (4096 * j))

/-- One piece, stored where the row goes on. -/
theorem copyPiece_row (hs : Quiet s) {d : CopyD} {org : Origin} {goOn : Bool} {j : Nat} (hdst : space d.dst < 2)
    (hlive : LiveAt s core d.dst) (hj : 4096 * j ≤ d.len)
    (hsrc : getOp (copiedTo s core a d j) core d.src (4096 * j) (min (d.len - 4096 * j) 4096) =
      ((getOp s core d.src 0 d.len).drop (4096 * j)).take (min (d.len - 4096 * j) 4096))
    (ha : opKey core d.dst (4096 * j) = some (a + 4096 * j)) :
    copyPiece core fn org d goOn (copiedTo s core a d j, false) [rowSeg d.len j] =
      (copiedTo s core a d (j + 1), false) := by
  have hq : Quiet (copiedTo s core a d j) := hs.storeBytes _ _
  have hput := hq.putOp_live_eq (fn := fn) (org := org) (rm := d.rm) hdst hlive ha
    (((getOp s core d.src 0 d.len).drop (4096 * j)).take (min (d.len - 4096 * j) 4096))
  have hnext : storeBytes (copiedTo s core a d j) (a + 4096 * j)
      (((getOp s core d.src 0 d.len).drop (4096 * j)).take (min (d.len - 4096 * j) 4096)) = copiedTo s core a d (j + 1) := by
    have hlen : ((getOp s core d.src 0 d.len).take (4096 * j)).length = 4096 * j := by simp [hj]
    have htake : (getOp s core d.src 0 d.len).take (4096 * (j + 1)) = (getOp s core d.src 0 d.len).take (4096 * j) ++
        ((getOp s core d.src 0 d.len).drop (4096 * j)).take (min (d.len - 4096 * j) 4096) := by
      rw [← List.take_add, List.take_eq_take_iff, getOp_length]
      omega
    rw [copiedTo, copiedTo, htake, storeBytes_append, hlen]
  simp only [copyPiece, hq.meetRuns_eq, rowSeg, List.foldl_cons, List.foldl_nil, Bool.false_and, Bool.false_eq_true, if_false,
    hsrc, hput, hnext, Bool.or_false]

/-- With one step at most, that the steps stop after each makes no difference. -/
theorem stepsFrom_of_le_one {α : Type} (f : α → Nat → α) (bad : α → Bool) (one : Bool) {n : Nat} (hn : n ≤ 1) (j : Nat)
    (a : α) :
    stepsFrom f bad one n j a = stepsFrom f bad false n j a := by
  obtain rfl | rfl : n = 0 ∨ n = 1 := by omega
  · rfl
  · simp only [stepsFrom, ite_self]

/-- What a copy of one row reads and where it writes: one piece, or pieces of deep store at keys in a row. -/
structure CopyRow (s : State) (core a : Nat) (d : CopyD) (one : Bool) : Prop where
  dst : space d.dst < 2
  live : LiveAt s core d.dst
  rows : d.rows = 1
  key : opKey core d.dst 0 = some a
  whole : d.len ≤ 4096 ∨ (one = false ∧ space d.src = 2 ∧ ∀ o < d.len, opKey core d.dst o = some (a + o))

variable {d : CopyD} {one : Bool}

theorem CopyRow.key_at (h : CopyRow s core a d one) {j : Nat} (hj : 4096 * j < d.len) :
    opKey core d.dst (4096 * j) = some (a + 4096 * j) := by
  obtain hle | ⟨-, -, hkey⟩ := h.whole
  · obtain rfl : j = 0 := by omega
    exact h.key
  · exact hkey _ hj

/-- What has been stored does not change what the next piece reads. -/
theorem CopyRow.src_at (h : CopyRow s core a d one) {j : Nat} (hj : 4096 * j < d.len) :
    getOp (copiedTo s core a d j) core d.src (4096 * j) (min (d.len - 4096 * j) 4096) =
      ((getOp s core d.src 0 d.len).drop (4096 * j)).take (min (d.len - 4096 * j) 4096) := by
  obtain hle | ⟨-, hdeep, -⟩ := h.whole
  · obtain rfl : j = 0 := by omega
    rw [Nat.mul_zero, Nat.sub_zero, Nat.min_eq_left hle, List.drop_zero, List.take_of_length_le (getOp_length _ _ _ _ _).le]
    rfl
  · simp only [getOp, hdeep, if_true, readDeep]
    rw [Nat.add_zero, memReadN_part _ _ (by omega)]
    rfl

/-- R162: a copy of one row moves its bytes and nothing else. -/
theorem CopyRow.moveCopy_eq (h : CopyRow s core a d one) (hs : Quiet s) (fn : Nat) (org : Origin) (goOn : Bool) :
    moveCopy s core fn org d goOn one 0 =
      ((storeBytes s a (getOp s core d.src 0 d.len), false), (CopyD.pieces d).length) := by
  have hlen : (CopyD.pieces d).length = ceilDiv d.len 4096 := by rw [pieces_row h.dst h.rows]; simp
  have hone : stepsFrom (fun x i => copyPiece core fn org d goOn x ((CopyD.pieces d).getD i [])) (fun x => x.2 && !goOn) one
      (CopyD.pieces d).length 0 (s, false) = stepsFrom (fun x i => copyPiece core fn org d goOn x ((CopyD.pieces d).getD i []))
        (fun x => x.2 && !goOn) false (CopyD.pieces d).length 0 (s, false) := by
    obtain hle | ⟨rfl, -⟩ := h.whole
    · refine stepsFrom_of_le_one _ _ _ ?_ _ _
      rw [hlen, ceilDiv]
      omega
    · rfl
  obtain ⟨b, hrun, hb⟩ := stepsFrom_all (f := fun x i => copyPiece core fn org d goOn x ((CopyD.pieces d).getD i []))
    (bad := fun x => x.2 && !goOn) (fun j x => x = (copiedTo s core a d j, false)) (CopyD.pieces d).length 0 (s, false)
    (by simp only [copiedTo, Nat.mul_zero, List.take_zero]; rfl)
    (by
      rintro j x - hj rfl
      have hlt : 4096 * j < d.len := by rw [hlen, ceilDiv] at hj; omega
      have hget : (CopyD.pieces d).getD j [] = [rowSeg d.len j] := by
        rw [hlen, Nat.zero_add] at hj
        rw [pieces_row h.dst h.rows, List.getD_eq_getElem _ _ (by simpa using hj)]
        simp
      rw [hget, copyPiece_row hs h.dst h.live hlt.le (h.src_at hlt) (h.key_at hlt)]
      exact ⟨rfl, rfl⟩)
  have htake : (getOp s core d.src 0 d.len).take (4096 * (CopyD.pieces d).length) = getOp s core d.src 0 d.len := by
    refine List.take_of_length_le ?_
    rw [getOp_length, hlen, ceilDiv]
    omega
  rw [moveCopy, Nat.sub_zero, hone, hrun, hb, Nat.zero_add, copiedTo, htake]

/-! ### The rows -/

/-- What the row of a core leaves where its operation left v. -/
def rowLeft (s v : State) (k : CoreId) : State := markBusy k.clu s (unstruck v)

/-- The row of a core with no upset leaves what its operation left. -/
theorem coreRow_none (k : CoreId) (f : State → State) (s : State) :
    coreRow k Upsets.none f s = .next (rowLeft s (f (unstruck s)) k) := rfl

/-- The row of a core whose operation is issued. -/
theorem onOp_issued {p : List Byte → Bool} {f : Nat → RunList → State} (hc : current s k = some (fn, r))
    (hi : r.phase = .issued) (hp : p r.desc = true) : onOp s k p f = f fn r := by
  rw [onOp, hc]
  simp only [hi, hp, and_self, if_true]

/-- That a row is carried out changes nothing of what it left but its island's idle time. -/
theorem rowLeft_keeps (s v : State) (k : CoreId) :
    (rowLeft s v k).regs = v.regs ∧ (rowLeft s v k).comp = v.comp ∧ (rowLeft s v k).deep = v.deep ∧
    (rowLeft s v k).rem = v.rem ∧ (rowLeft s v k).outbox = v.outbox := by
  rw [rowLeft, markBusy_eq]
  exact ⟨rfl, rfl, rfl, rfl, rfl⟩

theorem seqOf_rowLeft (s v : State) (k : CoreId) (core fn : Nat) : seqOf (rowLeft s v k) core fn = seqOf v core fn := by
  obtain ⟨-, hcomp, -⟩ := rowLeft_keeps s v k
  simp only [seqOf, hcomp]

theorem seqOf_setRun_same (s : State) (core fn : Nat) (r : RunList) :
    seqOf (setRun s core fn r) core fn = { seqOf s core fn with run := some r } := seqOf_setSeq_same _ _ _ _

/-- Where a descriptor is carried out, its list goes on in the sequencer. -/
theorem finish_eq (h : (seqOf s core fn).run = some r) :
    finish s core fn false = setRun s core fn { r with phase := .done, part := none } := by
  simp only [finish, Bool.false_eq_true, if_false, h]

/-- R162: a synchronous COPY of one row, carried out whole. -/
theorem listCopy_sync (hq : Quiet s) (hc : current s k = some (fn, r)) (hi : r.phase = .issued) (hpart : r.part = none)
    (hop : byteAt r.desc 0 = 5) (hsync : (copyD r.desc).async = false) (hdoze : copyMeetsDoze s k.no r.desc = false)
    (hcopy : r.copy = 0) (h : CopyRow s k.no a (copyD r.desc) (expired s k)) :
    listCopy k s = setRun (storeBytes (newId s).2 a (getOp s k.no (copyD r.desc).src 0 (copyD r.desc).len)) k.no fn
      { r with phase := .done, copy := s.nextId, part := none } := by
  have hq' : Quiet (newId s).2 := ⟨hq.noUe, hq.ups⟩
  have h' : CopyRow (newId s).2 k.no a (copyD r.desc) (expired s k) := ⟨h.dst, h.live, h.rows, h.key, h.whole⟩
  have hrun : (seqOf (storeBytes (newId s).2 a (getOp (newId s).2 k.no (copyD r.desc).src 0 (copyD r.desc).len)) k.no fn).run =
      some r := run_of_current hc
  have hfrom : copyFrom r = 0 := by simp only [copyFrom, hpart]
  rw [listCopy, onOp_issued hc hi (by rw [opIs, hop]; rfl)]
  simp only [hsync, hdoze, hcopy, hfrom, Bool.false_eq_true, if_false, if_true, h'.moveCopy_eq hq', hrun, lt_irrefl]
  rfl

/-- R164: an asynchronous COPY is registered, where its function has fewer than 16 on the core. -/
theorem listCopy_async (hc : current s k = some (fn, r)) (hi : r.phase = .issued) (hop : byteAt r.desc 0 = 5)
    (hasync : (copyD r.desc).async = true) (hroom : (seqOf s k.no fn).copies.length < 16) :
    listCopy k s = setRun (setSeq (newId s).2 k.no fn { seqOf s k.no fn with copies := (seqOf s k.no fn).copies ++
      [⟨s.nextId, fn, r.launch.id, r.desc, leAt r.desc 2 2, none, 0, false⟩] }) k.no fn
      { r with phase := .done, part := none } := by
  rw [listCopy, onOp_issued hc hi (by rw [opIs, hop]; rfl)]
  simp only [hasync, if_true, if_neg (Nat.not_le.2 hroom)]
  exact finish_eq (by rw [seqOf_setSeq_same]; exact run_of_current hc)

/-- A copy changed among the copies of a list is still the one that its name leaves out. -/
theorem filter_map_copy (l : List AsyncCopy) (id : Nat) {f : AsyncCopy → AsyncCopy} (hf : ∀ x, (f x).id = x.id)
    (hne : ∀ x, x.id ≠ id → f x = x) : (l.map f).filter (fun x => x.id != id) = l.filter fun x => x.id != id := by
  induction l with
  | nil => rfl
  | cons x l ih =>
    rw [List.map_cons, List.filter_cons, List.filter_cons, hf, ih]
    split
    · next hx => rw [hne x (by simpa using hx)]
    · rfl

/-- The slice of a function's tallies is a matter of the registers, and a count one of the tallies too. -/
theorem tallyRange_congr (fn d : Nat) (h : t.regs = s.regs) : tallyRange t fn d = tallyRange s fn d := by
  simp only [tallyRange, getF, rd, h]

theorem tallyCount_congr (fn d i : Nat) (h : t.regs = s.regs) (hrem : t.rem = s.rem) :
    tallyCount t fn d i = tallyCount s fn d i := by
  rw [tallyCount, tallyCount, tallyRange_congr fn d h, hrem]

/-- What the end of an asynchronous copy leaves: the copy is outstanding no more, its DT has risen by 1, and nothing else has
changed (R164). -/
theorem endCopy_keeps (s : State) (k : CoreId) (fn : Nat) (c : AsyncCopy) :
    (seqOf (endCopy s k.no fn c) k.no fn).copies = (seqOf s k.no fn).copies.filter (fun x => x.id != c.id) ∧
    (c.dt ≠ 0xFFFF → c.dt < (tallyRange s fn k.d).2 →
      tallyCount (endCopy s k.no fn c) fn k.d c.dt = (tallyCount s fn k.d c.dt + 1) % 2 ^ 32) ∧
    (endCopy s k.no fn c).comp.store = s.comp.store ∧ (endCopy s k.no fn c).regs = s.regs ∧
    (endCopy s k.no fn c).deep = s.deep ∧ (endCopy s k.no fn c).outbox = s.outbox := by
  have hdie : coreDie k.no = k.d := coreNo_div_10240 k
  have hseq := congrArg SeqSt.copies (seqOf_setSeq_same s k.no fn
    { seqOf s k.no fn with copies := (seqOf s k.no fn).copies.filter fun x => x.id != c.id })
  rw [endCopy, hdie]
  split
  · next hdt => exact ⟨hseq, fun hne => absurd hdt hne, rfl, rfl, rfl, rfl⟩
  · refine ⟨?_, fun _ hlt => tallyCount_tallyAdd_same (mapCopies s k.no fn _) fn k.d c.dt 1 hlt, ?_⟩
    · rw [tallyAdd_eq]
      exact hseq
    · rw [tallyAdd_eq]
      exact ⟨rfl, rfl, rfl, rfl⟩

/-- R164: an asynchronous copy of one row finishes: its bytes have moved, and it ends. -/
theorem copyComplete_row (hq : Quiet s) {c : AsyncCopy} {n : Nat} (hfn : residentAwake s k.clu = some fn)
    (hc : (seqOf s k.no fn).copies[n]? = some c) (hm : c.moved = 0) (hp : c.paused = false)
    (hdoze : copyMeetsDoze s k.no c.desc = false) (hpend : copyPending s c.id = false)
    (h : CopyRow s k.no a (copyD c.desc) (expired s k)) :
    ∃ u, copyComplete k n s = endCopy u k.no fn c ∧
      (seqOf u k.no fn).copies.filter (fun x => x.id != c.id) =
        (seqOf s k.no fn).copies.filter (fun x => x.id != c.id) ∧
      u = { storeBytes s a (getOp s k.no (copyD c.desc).src 0 (copyD c.desc).len) with
        comp := { (storeBytes s a (getOp s k.no (copyD c.desc).src 0 (copyD c.desc).len)).comp with seqs := u.comp.seqs } } := by
  unfold copyComplete
  simp only [hfn, hc, hp, hdoze, hm, Bool.false_eq_true, if_false]
  split
  · next htotal =>
    have hlen : (copyD c.desc).len = 0 := by
      rw [pieces_row h.dst h.rows, List.length_map, List.length_range, ceilDiv] at htotal
      omega
    have hnil : getOp s k.no (copyD c.desc).src 0 (copyD c.desc).len = [] := List.eq_nil_of_length_eq_zero (by simp [hlen])
    refine ⟨s, by simp only [hpend, Bool.false_eq_true, if_false], rfl, ?_⟩
    rw [hnil]
    rfl
  · rw [h.moveCopy_eq hq]
    simp only [Bool.false_eq_true, if_false, lt_irrefl, false_or, decide_false, Bool.and_false]
    refine ⟨_, if_neg ?_, ?_, rfl⟩
    · exact Bool.not_eq_true _ ▸ hpend
    · have hseq := congrArg SeqSt.copies (seqOf_setSeq_same
        (storeBytes s a (getOp s k.no (copyD c.desc).src 0 (copyD c.desc).len)) k.no fn
        { seqOf s k.no fn with copies := (seqOf s k.no fn).copies.map fun x =>
            if x.id = c.id then { x with moved := (CopyD.pieces (copyD c.desc)).length, paused := false } else x })
      refine (congrArg (List.filter fun x => x.id != c.id) hseq).trans (filter_map_copy _ _ (fun x => ?_) fun x hx => if_neg hx)
      split <;> rfl

end Sys2Proof.Machine

open Sys2Proof Sys2Proof.Machine

/-- Settles O39: the pieces of a copy of one row store its bytes one after the other (`CopyRow.moveCopy_eq`); an asynchronous copy
moves them as it finishes (`copyComplete_row`) and then ends (`endCopy_keeps`). Where SRC and DST overlap, the row is one piece,
read whole before it is written (log 25). -/
theorem copiesMove : Obligations.CopiesMove := by
  unfold Obligations.CopiesMove
  refine ⟨fun s k fn r d hcur hiss hpart hop hd => ⟨?sync, ?async⟩, ?complete⟩
  case sync =>
    intro a hue hsync hdoze hdst hlive hrows ⟨hkey, hwhole⟩ hcopy
    subst hd
    have hrow : CopyRow (unstruck s) k.no a (copyD r.desc) (expired s k) := ⟨hdst, hlive, hrows, hkey, hwhole⟩
    have hleft := listCopy_sync (quiet_unstruck hue) hcur hiss hpart hop hsync hdoze hcopy hrow
    obtain ⟨hregs, hcomp, hdeep, hrem, hout⟩ := rowLeft_keeps s (listCopy k (unstruck s)) k
    refine ⟨_, coreRow_none k _ s, ?_, ?_, fun x hx => ?_, ?_⟩
    · rw [seqOf_rowLeft, hleft, seqOf_setRun_same]
      rfl
    · rw [hcomp, hleft]
      exact memReadN_stored _ _ (getOp_length s k.no _ 0 _)
    · rw [hcomp, hleft]
      exact memRead_memWriteN_out _ _ (by rw [getOp_length]; exact hx)
    · rw [hregs, hdeep, hrem, hout, hleft]
      exact ⟨rfl, rfl, rfl, rfl⟩
  case async =>
    intro hasync hroom
    subst hd
    have hcur' : current (unstruck s) k = some (fn, r) := hcur
    have hleft := listCopy_async hcur' hiss hop hasync hroom
    obtain ⟨hregs, hcomp, hdeep, hrem, hout⟩ := rowLeft_keeps s (listCopy k (unstruck s)) k
    refine ⟨_, coreRow_none k _ s, ?_, ?_, ?_⟩
    · rw [seqOf_rowLeft, hleft, seqOf_setRun_same]
    · rw [seqOf_rowLeft, hleft, seqOf_setRun_same, seqOf_setSeq_same]
      rfl
    · rw [hregs, hcomp, hdeep, hrem, hout, hleft]
      exact ⟨rfl, rfl, rfl, rfl, rfl⟩
  case complete =>
    intro s k fn n c d a hue hfn hc hm hp hd hdoze hpend hdst hlive hrows ⟨hkey, hwhole⟩
    subst hd
    have hrow : CopyRow (unstruck s) k.no a (copyD c.desc) (expired s k) := ⟨hdst, hlive, hrows, hkey, hwhole⟩
    obtain ⟨u, hleft, hcopies, hu⟩ := copyComplete_row (quiet_unstruck hue) hfn hc hm hp hdoze hpend hrow
    obtain ⟨hregs, hcomp, hdeep, hrem, hout⟩ := rowLeft_keeps s (copyComplete k n (unstruck s)) k
    obtain ⟨hend, htally, hstore', hregs', hdeep', hout'⟩ := endCopy_keeps u k fn c
    have hstore : u.comp.store = memWriteN s.comp.store a (getOp s k.no (copyD c.desc).src 0 (copyD c.desc).len) := by
      rw [hu]; rfl
    have hregs_u : u.regs = s.regs := by rw [hu]; rfl
    have hrem_u : u.rem = s.rem := by rw [hu]; rfl
    refine ⟨_, coreRow_none k _ s, ?_, ?_, fun x hx => ?_, fun hne hlt => ?_, ?_⟩
    · rw [seqOf_rowLeft, hleft, hend, hcopies]
      rfl
    · rw [hcomp, hleft, hstore', hstore]
      exact memReadN_stored _ _ (getOp_length s k.no _ 0 _)
    · rw [hcomp, hleft, hstore', hstore]
      exact memRead_memWriteN_out _ _ (by rw [getOp_length]; exact hx)
    · rw [← tallyCount_congr fn k.d c.dt hregs_u hrem_u, tallyCount_congr fn k.d c.dt hregs hrem, hleft]
      exact htally hne (tallyRange_congr fn k.d hregs_u ▸ hlt)
    · rw [hregs, hdeep, hout, hleft, hregs', hdeep', hout', hu]
      exact ⟨rfl, rfl, rfl⟩
end

section
/-! PROOFS. How a work list starts, completes a descriptor and ends (04 R140 to R143, R148). -/

namespace Sys2Proof.Machine

variable {s t : State} {core fn : Nat} {k : CoreId} {r : RunList} {b : List Byte}

/-! ### What the row of a core leaves -/

theorem rowLeft_host (s v : State) (k : CoreId) : (rowLeft s v k).host = v.host := by
  rw [rowLeft, markBusy_eq]
  rfl

/-- That an island stays busy changes nothing but the islands. -/
theorem markBusy_isl_eq (g : Nat) (s t : State) :
    markBusy g s t = { t with power := { t.power with isl := (markBusy g s t).power.isl } } := by
  unfold markBusy
  split <;> rfl

/-- A row that changes the sequencers alone leaves all but these and the islands. -/
theorem markBusy_eq_of_seqs {g : Nat} {v : State} (hv : v = { s with comp := { s.comp with seqs := v.comp.seqs } }) :
    markBusy g s v = { s with
      comp := { s.comp with seqs := (markBusy g s v).comp.seqs }
      power := { s.power with isl := (markBusy g s v).power.isl } } := by
  rw [markBusy_isl_eq, hv]

theorem seqOf_markBusy (g : Nat) (s v : State) (core fn : Nat) : seqOf (markBusy g s v) core fn = seqOf v core fn := by
  rw [markBusy_eq]
  rfl

theorem setRun_eq_seqs (s : State) (core fn : Nat) (r : RunList) :
    setRun s core fn r = { s with comp := { s.comp with seqs := (setRun s core fn r).comp.seqs } } := rfl

/-- A row of a core that only changes the running list. -/
theorem markBusy_setRun (s : State) (k : CoreId) (fn : Nat) (r : RunList) :
    (seqOf (markBusy k.clu s (setRun s k.no fn r)) k.no fn).run = some r ∧
    markBusy k.clu s (setRun s k.no fn r) = { s with
      comp := { s.comp with seqs := (markBusy k.clu s (setRun s k.no fn r)).comp.seqs }
      power := { s.power with isl := (markBusy k.clu s (setRun s k.no fn r)).power.isl } } :=
  ⟨by rw [seqOf_markBusy, seqOf_setRun_same], markBusy_eq_of_seqs (setRun_eq_seqs _ _ _ _)⟩

/-! ### Issue (R141, R142, R148) -/

/-- The running list with a descriptor issued: its parameter block as it reads now (R117, R118). -/
def issuedRun (s : State) (core : Nat) (r : RunList) (b : List Byte) : RunList :=
  { r with
    desc := b, phase := .issued, copy := 0, det := flag s R.glbMode 0, par := paramOf s core b, seam := seamDefault s core,
    part := none }

/-- Where no error stands, a descriptor that can be read is issued as its checks say. -/
theorem Quiet.issue_eq (h : Quiet s) (hrun : (seqOf s core fn).run = some r) (hloc : checkLocal core (r.base + 64 * r.idx) 64 = 0)
    (hpatch : patchLoops r.idx r.loops (getLocal s core (r.base + 64 * r.idx) 64) = some b)
    (hbody : (inBody r.idx r.loops && bit (byteAt b 1) 0) = false) :
    issue s core fn = if checkDesc s core fn r b ≠ 0 then stopList s core fn (checkDesc s core fn r b)
      else setRun s core fn (issuedRun s core r b) := by
  simp only [issue, hrun, hloc, h.meetStore_eq, hpatch, hbody, Bool.false_eq_true, if_false, ne_eq, not_true_eq_false]
  rfl

/-- Without a loop a descriptor is issued as it reads. -/
theorem patchLoops_nil (q : Nat) (b : List Byte) : patchLoops q [] b = some b := rfl

/-- A list that stops is reported, and its sequencer is free. -/
theorem stopList_eq (hrun : (seqOf s core fn).run = some r) (st : Nat) :
    stopList s core fn st = reportList (setSeq s core fn { seqOf s core fn with run := none }) r.launch st (RunList.index r)
      (seqOf s core fn).flags := by
  simp only [stopList, endList, hrun]

/-- What a report tells the host depends on its descriptors alone. -/
theorem reportList_descs_congr (h : t.host.descs = s.host.descs) (l : Launch) (st didx : Nat) (fl : FpFlags) :
    (reportList t l st didx fl).host.descs = (reportList s l st didx fl).host.descs := by
  simp only [reportList, h]

/-- A list's end leaves all but the sequencers and the host's descriptors. -/
theorem endList_keeps (s : State) (core fn st didx : Nat) :
    (endList s core fn st didx).regs = s.regs ∧ (endList s core fn st didx).comp.store = s.comp.store ∧
    (endList s core fn st didx).deep = s.deep ∧ (endList s core fn st didx).rem = s.rem ∧
    (endList s core fn st didx).outbox = s.outbox := by
  rw [endList_frame]
  exact ⟨rfl, rfl, rfl, rfl, rfl⟩

/-- A list's end is reported with its flags. -/
theorem endList_descs (hrun : (seqOf s core fn).run = some r) (st didx : Nat) :
    (endList s core fn st didx).host.descs = (reportList s r.launch st didx (seqOf s core fn).flags).host.descs := by
  simp only [endList, hrun]
  exact reportList_descs_congr rfl _ _ _ _

/-! ### Start -/

theorem getLocal_unstruck (s : State) (core a n : Nat) : getLocal (unstruck s) core a n = getLocal s core a n := rfl

/-- The running list of a launch that starts. -/
def startRun (l : Launch) : RunList := ⟨l, l.addr, 0, [], [], .done, none, 0, false, none, 0, none⟩

/-- The sequencer with the head of its queue at hand and its flags clear. -/
def started (s : State) (core fn : Nat) (l : Launch) (rest : List Launch) : State :=
  setSeq s core fn { seqOf s core fn with queue := rest, run := some (startRun l), flags := FpFlags.none }

theorem listStart_eq {l : Launch} {rest : List Launch} (hfn : residentAwake s k.clu = some fn) (hexp : expired s k = false)
    (hrun : (seqOf s k.no fn).run = none) (hqueue : (seqOf s k.no fn).queue = l :: rest) :
    listStart k s = issue (started s k.no fn l rest) k.no fn := by
  simp only [listStart, hfn, hrun, hqueue, hexp, Bool.false_eq_true, if_false]
  rfl

/-- A list starts with its first descriptor issued, or stops with the status that its checks gave. -/
theorem Quiet.issue_started (h : Quiet s) {l : Launch} {rest : List Launch} (hloc : checkLocal core l.addr 64 = 0) :
    issue (started s core fn l rest) core fn =
      if checkDesc (started s core fn l rest) core fn (startRun l) (getLocal s core l.addr 64) ≠ 0 then
        stopList (started s core fn l rest) core fn
          (checkDesc (started s core fn l rest) core fn (startRun l) (getLocal s core l.addr 64))
      else setRun (started s core fn l rest) core fn
        (issuedRun (started s core fn l rest) core (startRun l) (getLocal s core l.addr 64)) := by
  have hq : Quiet (started s core fn l rest) := ⟨h.noUe, h.ups⟩
  have hseq : seqOf (started s core fn l rest) core fn = { seqOf s core fn with
      queue := rest, run := some (startRun l), flags := FpFlags.none } := seqOf_setSeq_same _ _ _ _
  exact hq.issue_eq (congrArg SeqSt.run hseq) hloc (patchLoops_nil _ _) rfl

/-! ### Completion -/

/-- What a descriptor that completes adds to its DT (R143). -/
def countDone (s : State) (core fn : Nat) (r : RunList) : State :=
  if bit (byteAt r.desc 1) 1 ∨ leAt r.desc 2 2 = 0xFFFF then s else tallyAdd s fn (coreDie core) (leAt r.desc 2 2) 1

theorem countDone_eq (s : State) (core fn : Nat) (r : RunList) :
    countDone s core fn r = { s with rem := { s.rem with tallies := (countDone s core fn r).rem.tallies } } := by
  unfold countDone
  split
  · rfl
  · exact tallyAdd_eq _ _ _ _ _

theorem tallyCount_countDone (hsync : bit (byteAt r.desc 1) 1 = false) (hdt : leAt r.desc 2 2 ≠ 0xFFFF)
    (hlt : leAt r.desc 2 2 < (tallyRange s fn (coreDie core)).2) :
    tallyCount (countDone s core fn r) fn (coreDie core) (leAt r.desc 2 2) =
      (tallyCount s fn (coreDie core) (leAt r.desc 2 2) + 1) % 2 ^ 32 := by
  rw [countDone, if_neg (by simp [hsync, hdt])]
  exact tallyCount_tallyAdd_same _ _ _ _ _ hlt

/-- A carried-out END descriptor outside a sub-list ends its list OK. -/
theorem descriptorComplete_end (hcur : current s k = some (fn, r)) (hexp : expired s k = false)
    (hcan : canComplete s k.no fn r = true) (hend : bit (byteAt r.desc 1) 0 = true) (houter : r.outer = none) :
    descriptorComplete k s = endList (countDone s k.no fn r) k.no fn 0 0xFFFF := by
  simp only [descriptorComplete, hcur, hexp, hcan, completeDesc, hend, houter, Bool.not_false, Bool.and_self, if_true]
  rfl

end Sys2Proof.Machine

open Sys2Proof Sys2Proof.Machine

/-- Settles O33: a list that starts issues its first descriptor as its checks say (`Quiet.issue_started`); an END descriptor
counts at its DT and ends the list (`descriptorComplete_end`). -/
theorem listSequencing : Obligations.ListSequencing := by
  unfold Obligations.ListSequencing
  refine ⟨?start, ?complete, ?nop⟩
  case start =>
    intro s s0 k fn l rest r0 hue hfn hexp hrun hqueue hr0 hs0 hloc
    obtain rfl : s0 = started (unstruck s) k.no fn l rest := by rw [hs0, hr0]; rfl
    obtain rfl : r0 = startRun l := hr0
    have hleft := (listStart_eq (s := unstruck s) hfn hexp hrun hqueue).trans ((quiet_unstruck hue).issue_started hloc)
    rw [getLocal_unstruck] at hleft
    have hseq : seqOf (started (unstruck s) k.no fn l rest) k.no fn = { seqOf s k.no fn with
        queue := rest, run := some (startRun l), flags := FpFlags.none } := seqOf_setSeq_same _ _ _ _
    obtain ⟨hregs, hcomp, hdeep, hrem, hout⟩ := rowLeft_keeps s (listStart k (unstruck s)) k
    refine ⟨_, coreRow_none k _ s, ?_⟩
    rw [rowLeft_host, seqOf_rowLeft, hregs, hcomp, hdeep, hrem, hout, hleft]
    by_cases hst : checkDesc (started (unstruck s) k.no fn l rest) k.no fn (startRun l) (getLocal s k.no l.addr 64) = 0
    · rw [if_neg (not_not.2 hst), seqOf_setRun_same, hseq]
      exact ⟨rfl, rfl, rfl, rfl, rfl, rfl, rfl, fun _ => ⟨rfl, rfl⟩, fun hne => absurd hst hne⟩
    · rw [if_pos hst, stopList_eq (congrArg SeqSt.run hseq), hseq]
      have hseq' := seqOf_setSeq_same (started (unstruck s) k.no fn l rest) k.no fn
        { seqOf s k.no fn with queue := rest, run := none, flags := FpFlags.none }
      exact ⟨congrArg SeqSt.queue hseq', congrArg SeqSt.flags hseq', rfl, rfl, rfl, rfl, rfl, fun h0 => absurd h0 hst,
        fun _ => ⟨congrArg SeqSt.run hseq', rfl⟩⟩
  case complete =>
    intro s k fn r hcur hexp hcan hend houter
    have hrun := run_of_current hcur
    have hleft := descriptorComplete_end (s := unstruck s) hcur hexp hcan hend houter
    obtain ⟨hregs, hcomp, hdeep, hrem, hout⟩ :=
      rowLeft_keeps s (endList (countDone (unstruck s) k.no fn r) k.no fn 0 0xFFFF) k
    have hu := countDone_eq (unstruck s) k.no fn r
    obtain ⟨hregs', hstore', hdeep', hrem', hout'⟩ := endList_keeps (countDone (unstruck s) k.no fn r) k.no fn 0 0xFFFF
    have hsame : seqOf (countDone (unstruck s) k.no fn r) k.no fn = seqOf s k.no fn := by rw [hu]; rfl
    have hdescs := endList_descs (hsame ▸ hrun) 0 0xFFFF
    refine ⟨_, (coreRow_none k _ s).trans (by rw [hleft]), ?_⟩
    rw [rowLeft_host, seqOf_rowLeft, hregs, hcomp, hdeep, hout, endList_seq, hsame, hregs', hstore', hdeep', hout', hdescs,
      hsame]
    refine ⟨rfl, rfl, rfl, ?_, ?_, ?_, ?_, ?_, fun hsync hdt hlt => ?_⟩
    · exact reportList_descs_congr (by rw [hu]; rfl) _ _ _ _
    · rw [hu]; rfl
    · rw [hu]; rfl
    · rw [hu]; rfl
    · rw [hu]; rfl
    · have hdie : coreDie k.no = k.d := coreNo_div_10240 k
      have hcount := tallyCount_countDone (s := unstruck s) (core := k.no) (fn := fn) hsync hdt (hdie ▸ hlt)
      rw [hdie] at hcount
      rw [tallyCount_congr fn k.d _ hregs hrem, tallyCount_congr fn k.d _ hregs' hrem', hcount]
      rfl
  case nop =>
    intro s k fn r hcur hiss hop
    have hleft : listNop k s = setRun s k.no fn { r with phase := .done, part := none } := by
      rw [listNop, onOp_issued hcur hiss (by rw [opIs, hop]; rfl)]
      exact finish_eq (run_of_current hcur)
    obtain ⟨hrun, heq⟩ := markBusy_setRun s k fn { r with phase := .done, part := none }
    rw [← hleft] at hrun heq
    exact ⟨_, rfl, hrun, by rw [heq], heq⟩
end

section
/-! PROOFS. WAIT, LOOP, STAGE and PILLAR (04 R166 to R172, R184; 10 R395; 13 R475). -/

namespace Sys2Proof.Machine

variable {s t : State} {core fn w : Nat} {k : CoreId} {r r0 : RunList} {b : List Byte}

/-! ### The running list, set twice -/

theorem SMap.put_put {α : Type} (m : SMap α) (k : Nat) (v v' : α) : SMap.put (SMap.put m k v) k v' = SMap.put m k v' := by
  induction m with
  | nil => simp [SMap.put]
  | cons e m ih =>
    obtain ⟨j, a⟩ := e
    by_cases hlt : j < k
    · simp [SMap.put, hlt, ih]
    · by_cases heq : j = k <;> simp [SMap.put, hlt, heq]

theorem SMap.put_ne_nil {α : Type} (m : SMap α) (k : Nat) (v : α) : SMap.put m k v ≠ [] := by
  cases m with
  | nil => simp [SMap.put]
  | cons e m =>
    unfold SMap.put
    (repeat' split) <;> simp

/-- The sequencer of a list that runs is listed. -/
theorem setRun_seqs (s : State) (core fn : Nat) (r : RunList) :
    (setRun s core fn r).comp.seqs = SMap.put s.comp.seqs core
      (SMap.put (SMap.getD s.comp.seqs core []) fn { seqOf s core fn with run := some r }) := by
  have hne : ({ seqOf s core fn with run := some r } : SeqSt) ≠ ⟨[], none, [], FpFlags.none⟩ := by simp
  simp only [setRun, setSeq, SMap.setD, if_neg hne, if_neg (SMap.put_ne_nil _ _ _)]

theorem setRun_setRun (s : State) (core fn : Nat) (r r' : RunList) :
    setRun (setRun s core fn r) core fn r' = setRun s core fn r' := by
  have hseqs : (setRun (setRun s core fn r) core fn r').comp.seqs = (setRun s core fn r').comp.seqs := by
    rw [setRun_seqs, setRun_seqs, setRun_seqs, seqOf_setRun_same]
    simp only [SMap.getD, SMap.find_put_same, Option.getD_some, SMap.put_put]
  have heq : setRun (setRun s core fn r) core fn r' =
      { s with comp := { s.comp with seqs := (setRun (setRun s core fn r) core fn r').comp.seqs } } := rfl
  rw [heq, hseqs]
  rfl

/-! ### WAIT -/

/-- A row that acts on a waiting descriptor, before the quantum expires. -/
theorem onWait_waiting {m : Nat} {f : Nat → RunList → Nat → State} (hc : current s k = some (fn, r))
    (hexp : expired s k = false) (hw : r.phase = .waiting w) (hm : byteAt r.desc 4 = m) : onWait s k m f = f fn r w := by
  simp only [onWait, hc, hw, hm, hexp, Bool.not_false, and_self, if_true]

/-- A row of a core that sets the phase of the descriptor at hand. -/
theorem markBusy_setPhase {f : State → State} {p : Phase} (hf : f s = setPhase s k.no fn r p) :
    (seqOf (markBusy k.clu s (f s)) k.no fn).run = some { r with phase := p } ∧
    markBusy k.clu s (f s) = { s with
      comp := { s.comp with seqs := (markBusy k.clu s (f s)).comp.seqs }
      power := { s.power with isl := (markBusy k.clu s (f s)).power.isl } } := by
  rw [hf]
  exact markBusy_setRun s k fn { r with phase := p }

/-! ### The next descriptor of a list -/

/-- Where a row issues a descriptor that its checks pass, that one is at hand and nothing else has changed. -/
theorem rowLeft_issued {s0 : State} {a q : Nat} (hue : noUe s) (hs0 : s0 = setRun (unstruck s) k.no fn r0) (hq : r0.idx = q)
    (ha : r0.base + 64 * q = a) (hloc : checkLocal k.no a 64 = 0)
    (hpatch : patchLoops q r0.loops (getLocal s k.no a 64) = some b)
    (hbody : (inBody q r0.loops && bit (byteAt b 1) 0) = false) (hst : checkDesc s0 k.no fn r0 b = 0) {f : State → State}
    (hf : f (unstruck s) = issue s0 k.no fn) :
    ∃ t, coreRow k Upsets.none f s = .next t ∧
      (seqOf t k.no fn).run = some { r0 with
        desc := b, phase := .issued, copy := 0, det := flag s R.glbMode 0, par := paramOf s0 k.no b,
        seam := seamDefault s k.no, part := none } ∧
      t.regs = s.regs ∧ t.comp.store = s.comp.store ∧ t.deep = s.deep ∧ t.rem = s.rem ∧ t.outbox = s.outbox := by
  subst hs0 hq ha
  have hq : Quiet (setRun (unstruck s) k.no fn r0) := ⟨hue, rfl⟩
  have hrun : (seqOf (setRun (unstruck s) k.no fn r0) k.no fn).run = some r0 := by rw [seqOf_setRun_same]
  have hissue := hq.issue_eq hrun hloc hpatch hbody
  rw [if_neg (not_not.2 hst)] at hissue
  obtain ⟨hregs, hcomp, hdeep, hrem, hout⟩ := rowLeft_keeps s (f (unstruck s)) k
  refine ⟨_, coreRow_none k f s, ?_, ?_⟩
  · rw [seqOf_rowLeft, hf, hissue, seqOf_setRun_same]
    rfl
  · rw [hregs, hcomp, hdeep, hrem, hout, hf, hissue]
    exact ⟨rfl, rfl, rfl, rfl, rfl⟩

/-! ### LOOP -/

/-- The loop at a running list's index: active, or about to be. -/
def loopHere (r : RunList) : LoopSt :=
  (r.loops.find? fun l => l.p == r.idx).getD
    ⟨r.idx, leAt r.desc 4 2, leAt r.desc 8 4 - 1, loopEntries r.desc, (loopEntries r.desc).map fun _ => 0⟩

/-- R169: after its last pass a LOOP has no loop any more and is carried out. -/
theorem listLoop_last (hc : current s k = some (fn, r)) (hi : r.phase = .issued) (hop : byteAt r.desc 0 = 7)
    (hrem : (loopHere r).remaining = 0) :
    listLoop k s = setRun s k.no fn { r with loops := r.loops.filter (fun l => l.p != r.idx), phase := .done } := by
  rw [listLoop, onOp_issued hc hi (by rw [opIs, hop]; rfl)]
  exact if_pos hrem

/-- The running list as a LOOP starts its first pass: back at its body's first descriptor, with one pass fewer to go and its
strides added once. -/
def firstPass (r : RunList) : RunList :=
  { r with
    idx := r.idx - leAt r.desc 4 2
    loops := [⟨r.idx, leAt r.desc 4 2, leAt r.desc 8 4 - 2, loopEntries r.desc, (loopEntries r.desc).map fun e => e.2⟩] }

theorem listLoop_first (hc : current s k = some (fn, r)) (hexp : expired s k = false) (hi : r.phase = .issued)
    (hop : byteAt r.desc 0 = 7) (hloops : r.loops = []) (hn : 2 ≤ leAt r.desc 8 4) :
    listLoop k s = issue (setRun s k.no fn (firstPass r)) k.no fn := by
  have hoffs : (((loopEntries r.desc).map fun _ => (0 : Int)).zip (loopEntries r.desc)).map (fun e => e.1 + e.2.2) =
      (loopEntries r.desc).map fun e => e.2 := by
    generalize loopEntries r.desc = l
    induction l with
    | nil => rfl
    | cons e l ih => simpa using ih
  rw [listLoop, onOp_issued hc hi (by rw [opIs, hop]; rfl)]
  simp only [hloops, List.find?_nil, Option.getD_none, List.filter_nil, List.nil_append, hexp, Bool.false_eq_true, if_false,
    if_neg (by omega : ¬ leAt r.desc 8 4 - 1 = 0), hoffs]
  rfl

/-! ### STAGE -/

/-- The running list as a STAGE of PASS 0 starts its forward sub-list. -/
def forwardRun (r : RunList) : RunList :=
  { r with base := leAt r.desc 8 4, idx := 0, loops := [], outer := some ⟨r.base, r.idx, r.loops, r.desc, []⟩ }

theorem listStage_forward (hc : current s k = some (fn, r)) (hexp : expired s k = false) (hi : r.phase = .issued)
    (hop : byteAt r.desc 0 = 8) (hpass : byteAt r.desc 4 = 0) (hhooks : byteAt r.desc 5 = 0) :
    listStage k s = issue (setRun s k.no fn (forwardRun r)) k.no fn := by
  have hback : (stageD r.desc).back = false := by simp [stageD, hpass]
  have hkeep : (stageD r.desc).keepg = false := by simp [stageD, hhooks, bit]
  have hoff : (stageD r.desc).offload = false := by simp [stageD, hhooks, bit]
  have htodo : stageTodo (stageD r.desc) = [.sub (leAt r.desc 8 4)] := by simp [stageTodo, hback, hoff]; rfl
  rw [listStage, onOp_issued hc hi (by rw [opIs, hop]; rfl)]
  simp only [hexp, stageWaits, hback, hkeep, hoff, Bool.false_and, Bool.and_false, Bool.or_false, Bool.false_eq_true, if_false,
    htodo, stageNext, seqOf_setRun_same, setRun_setRun]
  rfl

/-! ### PILLAR -/

/-- The first status of a list of checks that pass is that of the rest. -/
theorem firstBad_cons_eq_zero {x : Nat} {l : List Nat} : firstBad (x :: l) = 0 ↔ x = 0 ∧ firstBad l = 0 := by
  by_cases hx : x = 0 <;> simp [firstBad, hx]

theorem need_eq_zero {c : Bool} : need c = 0 ↔ c = true := by cases c <;> simp [need]

/-- A pillar that its checks pass is one of the cluster's eight (R171). -/
theorem slot_of_checkPillar (h : checkPillar s core fn b = 0) : byteAt b 5 ≤ 7 := by
  obtain ⟨-, h⟩ := firstBad_cons_eq_zero.1 h
  obtain ⟨h, -⟩ := firstBad_cons_eq_zero.1 h
  rw [need_eq_zero, Bool.and_eq_true, decide_eq_true_eq, decide_eq_true_eq] at h
  exact h.2

/-- The state with other pillars on a cluster, of which `CPX_CLOWN.PIL` tells. -/
def withPillars (s : State) (g : Nat) (m : SMap Pillar) : State :=
  syncPil { s with comp := { s.comp with pillars := m } } g

theorem sameRegs_setF (s : State) {off : Nat} (hi lo v : Nat) {offs : List Nat} (h : off ∈ offs) :
    sameRegs s (setF s off hi lo v) offs := sameRegs_wr _ _ h

/-- What a row that changes the pillars of its cluster leaves. -/
theorem markBusy_withPillars (hc : current s k = some (fn, r)) (m : SMap Pillar) {f : State → State}
    (hf : f s = finish (withPillars s k.clu m) k.no fn false) :
    (seqOf (markBusy k.clu s (f s)) k.no fn).run = some { r with phase := .done, part := none } ∧
    (markBusy k.clu s (f s)).comp.pillars = m ∧ (markBusy k.clu s (f s)).regs = (withPillars s k.clu m).regs ∧
    sameRegs s (markBusy k.clu s (f s)) [clownOff k.clu + 4] ∧ (markBusy k.clu s (f s)).comp.store = s.comp.store ∧
    (markBusy k.clu s (f s)).deep = s.deep ∧ (markBusy k.clu s (f s)).rem = s.rem := by
  have hrun : (seqOf (withPillars s k.clu m) k.no fn).run = some r := by
    have hrun := run_of_current hc
    exact hrun
  have hregs : sameRegs s (withPillars s k.clu m) [clownOff k.clu + 4] := sameRegs_setF _ _ _ _ (by simp)
  rw [hf, finish_eq hrun, markBusy_eq]
  exact ⟨congrArg SeqSt.run (seqOf_setRun_same (withPillars s k.clu m) k.no fn _), rfl, rfl,
    sameRegs_trans hregs (sameRegs_of_regs rfl _), rfl, rfl, rfl⟩

theorem flag_congr_regs (h : s.regs = t.regs) (off i : Nat) : flag s off i = flag t off i := by
  simp only [flag, rd, h]

/-- `CPX_CLOWN.PIL` is set while the cluster has a pillar (R172). -/
theorem flag_withPillars {g : Nat} {m : SMap Pillar} {e : Nat × Pillar} (he : e ∈ m) (hg : e.1 / 8 = g) :
    flag (withPillars s g m) (clownOff g + 4) 30 = true := by
  have hhas : hasPillar { s with comp := { s.comp with pillars := m } } g = true :=
    List.any_eq_true.2 ⟨e, he, by simp [hg]⟩
  rw [withPillars, syncPil, hhas]
  exact flag_raise_same _ _ (by decide)

theorem SMap.mem_put_same {α : Type} (m : SMap α) (k : Nat) (v : α) : (k, v) ∈ SMap.put m k v := by
  induction m with
  | nil => simp [SMap.put]
  | cons e m ih =>
    obtain ⟨j, a⟩ := e
    by_cases hlt : j < k
    · simp [SMap.put, hlt, ih]
    · by_cases heq : j = k <;> simp [SMap.put, hlt, heq]

end Sys2Proof.Machine

open Sys2Proof Sys2Proof.Machine

/-- Settles O34: a WAIT changes its phase or stops its list; a LOOP and a STAGE issue the first descriptor of what comes next
(`rowLeft_issued`); a PILLAR that passes its checks changes its pillar and `CPX_CLOWN.PIL` (`markBusy_withPillars`). -/
theorem listControl : Obligations.ListControl := by
  unfold Obligations.ListControl
  refine ⟨⟨?tally, ?time, ?passed, ?timeout, ?reached⟩, ?last, ?pass, ?stage, ?mark, ?clear⟩
  case tally =>
    intro s k fn r hc hi hop hmode
    exact ⟨_, rfl, markBusy_setPhase (onOp_issued hc hi (by simp [opIs, hop, hmode]))⟩
  case time =>
    intro s k fn r hc hi hop hmode
    exact ⟨_, rfl, markBusy_setPhase (onOp_issued hc hi (by simp [opIs, hop, hmode]))⟩
  case passed =>
    intro s k fn r w hc hexp hw hmode hpass
    exact ⟨_, rfl, markBusy_setPhase ((onWait_waiting hc hexp hw hmode).trans (if_pos hpass))⟩
  case timeout =>
    intro s k fn r w hc hexp hw hmode hpass hlimit hover
    have hleft : waitTimeout k s = stopList s k.no fn 5 :=
      (onWait_waiting hc hexp hw hmode).trans (if_pos ⟨hlimit, hover, by rw [hpass]; rfl⟩)
    have hseq := seqOf_setSeq_same s k.no fn { seqOf s k.no fn with run := none }
    have hexec : exec (.waitTimeout k) s = .next (markBusy k.clu s (waitTimeout k s)) := rfl
    rw [hleft, stopList_eq (run_of_current hc), markBusy_eq] at hexec
    exact ⟨_, hexec, congrArg SeqSt.run hseq, rfl, rfl, rfl, rfl, rfl⟩
  case reached =>
    intro s k fn r w hc hexp hw hmode hreach
    exact ⟨_, rfl, markBusy_setPhase ((onWait_waiting hc hexp hw hmode).trans (if_pos hreach))⟩
  case last =>
    intro s k fn r hc hi hop hlast
    have hrem : (loopHere r).remaining = 0 := by
      obtain ⟨hnone, hone⟩ | ⟨l, hsome, hzero⟩ := hlast
      · simp [loopHere, hnone, hone]
      · simp [loopHere, hsome, hzero]
    have hleft := listLoop_last (s := unstruck s) hc hi hop hrem
    obtain ⟨hregs, hcomp, hdeep, hrem, hout⟩ := rowLeft_keeps s (listLoop k (unstruck s)) k
    refine ⟨_, coreRow_none k _ s, ?_, ?_⟩
    · rw [seqOf_rowLeft, hleft, seqOf_setRun_same]
    · rw [hregs, hcomp, hdeep, hrem, hout, hleft]
      exact ⟨rfl, rfl, rfl, rfl, rfl⟩
  case pass =>
    intro s s0 k fn q r r0 b hue hc hexp hi hop hloops hn hq hr0 hs0 hloc hpatch hbody hst
    have hfirst : r0 = firstPass r := by rw [hr0, hq]; rfl
    have hleft := listLoop_first (s := unstruck s) hc hexp hi hop hloops hn
    rw [← hfirst] at hleft
    have hidx : r0.idx = q := by rw [hr0]
    have hbase : r0.base + 64 * q = r.base + 64 * q := by rw [hr0]
    exact rowLeft_issued (f := listLoop k) hue hs0 hidx hbase hloc hpatch hbody hst (by rw [hs0]; exact hleft)
  case stage =>
    intro s s0 k fn a r r0 hue hc hexp hi hop hpass hhooks ha hr0 hs0 hloc hst
    have hforward : r0 = forwardRun r := by rw [hr0, ha]; rfl
    have hleft := listStage_forward (s := unstruck s) hc hexp hi hop hpass hhooks
    rw [← hforward] at hleft
    have hidx : r0.idx = 0 := by rw [hr0]
    have hbase : r0.base + 64 * 0 = a := by rw [hr0]; rfl
    have hloops : r0.loops = [] := by rw [hr0]
    have hpatch : patchLoops 0 r0.loops (getLocal s k.no a 64) = some (getLocal s k.no a 64) := by
      rw [hloops, patchLoops_nil]
    have hbody : (inBody 0 r0.loops && bit (byteAt (getLocal s k.no a 64) 1) 0) = false := by rw [hloops]; rfl
    exact rowLeft_issued (f := listStage k) hue hs0 hidx hbase hloc hpatch hbody hst (by rw [hs0]; exact hleft)
  case mark =>
    intro s k fn r hc hi hop hmode hst
    have hleft : pillarMark k s = finish (withPillars s k.clu (SMap.put s.comp.pillars (8 * k.clu + byteAt r.desc 5)
        ⟨(pillarRange k.no r.desc).1, (pillarRange k.no r.desc).2⟩)) k.no fn false := by
      rw [pillarMark, onOp_issued hc hi (by simp [opIs, hop, hmode])]
      exact if_neg (not_not.2 hst)
    obtain ⟨hrun, hpil, hregs, hsame, hstore, hdeep, hrem⟩ := markBusy_withPillars hc _ hleft
    have hslot := slot_of_checkPillar hst
    refine ⟨_, rfl, hrun, ?_, ?_, hsame, hstore, hdeep, hrem⟩
    · rw [hpil, SMap.find_put_same]
      rfl
    · have hslotOf : (8 * k.clu + byteAt r.desc 5) / 8 = k.clu := by omega
      exact (flag_congr_regs hregs _ _).trans (flag_withPillars (SMap.mem_put_same _ _ _) hslotOf)
  case clear =>
    intro s k fn r hc hi hop hmode hst
    have hleft : pillarClear k s = finish (withPillars s k.clu (SMap.erase s.comp.pillars (8 * k.clu + byteAt r.desc 5)))
        k.no fn false := by
      rw [pillarClear, onOp_issued hc hi (by simp [opIs, hop, hmode])]
      exact if_neg (not_not.2 hst)
    obtain ⟨hrun, hpil, -, hsame, hstore, hdeep, hrem⟩ := markBusy_withPillars hc _ hleft
    exact ⟨_, rfl, hrun, (congrArg (SMap.find · _) hpil).trans (SMap.find_erase_same _ _), hsame, hstore, hdeep, hrem⟩
end

section
/-! PROOFS. Administrative descriptors (04 R189, 06 R231, 14 R532), and what a new owner word of a cluster comes to. -/

namespace Sys2Proof.Machine

variable {s t u : State} {r : DescRef} {h : HostDesc} {row : HRow} {g sl : Nat}

/-! ### Host descriptors -/

/-- A descriptor that may start carries out its row's body. -/
theorem startDesc_of_startable {body : HostDesc → State → State} (hs : startable s r h row) :
    startDesc row r body s = body h s := by
  obtain ⟨hdesc, hrow, hmay, hhead⟩ := hs
  simp [startDesc, hdesc, hrow, hmay, hhead]

/-- One descriptor has one name. -/
theorem eq_of_isDesc {q : DescRef} (hq : isDesc q h = true) (hr : isDesc r h = true) : q = r := by
  obtain ⟨qf, qr, qi⟩ := q
  obtain ⟨rf, rr, ri⟩ := r
  simp only [isDesc, Bool.and_eq_true, beq_iff_eq] at hq hr
  obtain ⟨⟨hqf, hqr⟩, hqi⟩ := hq
  obtain ⟨⟨hrf, hrr⟩, hri⟩ := hr
  obtain rfl : qf = rf := Fin.ext (hqf.symm.trans hrf)
  obtain rfl : qr = rr := Fin.ext (hqr.symm.trans hrr)
  obtain rfl : qi = ri := BitVec.eq_of_toNat_eq (hqi.symm.trans hri)
  rfl

/-- A change of a descriptor that keeps its name. -/
def keepsName (f : HostDesc → HostDesc) : Prop := ∀ (q : DescRef) (h : HostDesc), isDesc q (f h) = isDesc q h

theorem descOf_updDesc {f : HostDesc → HostDesc} (hf : keepsName f) (q : DescRef) :
    descOf (updDesc s r f) q = (descOf s q).map fun h => if isDesc r h then f h else h := by
  have hname : (isDesc q ∘ fun h => if isDesc r h then f h else h) = isDesc q := by
    funext h
    by_cases hr : isDesc r h = true
    · simp [hr, hf q h]
    · simp [hr]
  rw [descOf, updDesc, List.find?_map, hname]
  rfl

theorem descOf_updDesc_same {f : HostDesc → HostDesc} (hf : keepsName f) (hd : descOf s r = some h) :
    descOf (updDesc s r f) r = some (f h) := by
  rw [descOf_updDesc hf, hd, Option.map_some, if_pos (List.find?_some hd)]

theorem sameDescs_updDesc {f : HostDesc → HostDesc} (hf : keepsName f) : sameDescs s (updDesc s r f) r := by
  intro q hq
  rw [descOf_updDesc hf]
  cases hd : descOf s q with
  | none => rfl
  | some h => rw [Option.map_some, if_neg fun hr => hq (eq_of_isDesc (List.find?_some hd) hr)]

/-- A descriptor that ends in a state that has changed no other one. -/
theorem endedWith_endDesc {st : Nat} (hd : descOf u r = some h) (hs : sameDescs s u r) : endedWith s (endDesc u r st) r st := by
  have hname : keepsName fun h => { h with phase := .ended st } := fun _ _ => rfl
  exact ⟨⟨_, descOf_updDesc_same hname hd, rfl⟩, fun q hq => (sameDescs_updDesc hname q hq).trans (hs q hq)⟩

/-- A descriptor that ends where the rest of what has changed is no descriptor. -/
theorem endedWith_of_host {st : Nat} (hs : startable s r h row) (hu : u.host = s.host) : endedWith s (endDesc u r st) r st := by
  have hdesc (q : DescRef) : descOf u q = descOf s q := by simp only [descOf, hu]
  exact endedWith_endDesc ((hdesc r).trans hs.1) fun q _ => hdesc q

/-- A descriptor that ends with a result. -/
theorem endedWith_result {st n : Nat} (hs : startable s r h row) (hu : u.host = s.host) :
    endedWith s (endDesc (updDesc u r fun h => { h with result := n }) r st) r st ∧
      ∀ g, descOf (endDesc (updDesc u r fun h => { h with result := n }) r st) r = some g → g.result = n := by
  have hres : keepsName fun h => { h with result := n } := fun _ _ => rfl
  have hend : keepsName fun h => { h with phase := .ended st } := fun _ _ => rfl
  have hdesc (q : DescRef) : descOf u q = descOf s q := by simp only [descOf, hu]
  have hat := descOf_updDesc_same hres ((hdesc r).trans hs.1)
  refine ⟨endedWith_endDesc hat fun q hq => (sameDescs_updDesc hres q hq).trans (hdesc q), fun g hg => ?_⟩
  rw [endDesc, descOf_updDesc_same hend hat] at hg
  rw [← Option.some.inj hg]

theorem endDesc_regs (s : State) (r : DescRef) (st : Nat) : (endDesc s r st).regs = s.regs := rfl

/-! ### Bit fields of a register -/

theorem bit_bits (w hi lo i : Nat) : bit (bits w hi lo) i = (decide (i < hi + 1 - lo) && bit w (lo + i)) := by
  simp [bit, bits, Nat.testBit_mod_two_pow, Nat.testBit_shiftRight]

theorem bit_mod_two_pow (w n i : Nat) : bit (w % 2 ^ n) i = (decide (i < n) && bit w i) := Nat.testBit_mod_two_pow _ _ _

theorem eq_of_bit_eq {x y : Nat} (hb : ∀ i, bit x i = bit y i) : x = y := Nat.eq_of_testBit_eq hb

/-- A bit of a register with a field set. -/
theorem flag_setF_same (s : State) (off : Nat) {hi lo i : Nat} (v : Nat) (hl : lo ≤ hi) (hi' : i < 32) :
    flag (setF s off hi lo v) off i = if lo ≤ i ∧ i ≤ hi then bit v (i - lo) else flag s off i := by
  rw [flag, setF, rd_wr_same, bit_mod_two_pow, bit_setBits _ _ _ hl]
  simp [hi', flag]

/-- A field apart from the one set. -/
theorem bits_setBits_apart (w : Nat) {hi lo hi' lo' : Nat} (v : Nat) (hl : lo ≤ hi) (hap : hi' < lo ∨ hi < lo') :
    bits (setBits w hi lo v) hi' lo' = bits w hi' lo' := by
  refine eq_of_bit_eq fun i => ?_
  rw [bit_bits, bit_bits]
  by_cases hin : i < hi' + 1 - lo'
  · rw [bit_setBits _ _ _ hl, if_neg (by omega)]
  · simp [hin]

theorem getF_congr_regs (hr : t.regs = u.regs) (off hi lo : Nat) : getF t off hi lo = getF u off hi lo := by
  simp only [getF, rd, hr]

/-! ### The owner word of a cluster (04 R174, R189) -/

/-- Two owner words tell the same slots: VALID and FN of each agree. -/
def sameSlots (w w' : Nat) : Prop := w % 2 ^ 52 = w' % 2 ^ 52

theorem bit_of_sameSlots {w w' i : Nat} (hw : sameSlots w w') (hi : i < 52) : bit w i = bit w' i := by
  have hb := congrArg (bit · i) hw
  simpa only [bit_mod_two_pow, hi, decide_true, Bool.true_and] using hb

/-- What leaves a cluster's slots as its owner word tells them, and every other register and the host's part. -/
def keepsSlots (g : Nat) (s t : State) : Prop :=
  t.host = s.host ∧ sameRegs s t [clownOff g, clownOff g + 4] ∧ sameSlots (clown t g) (clown s g)

theorem keepsSlots_trans (h1 : keepsSlots g s t) (h2 : keepsSlots g t u) : keepsSlots g s u := by
  obtain ⟨hhost, hregs, hclown⟩ := h1
  obtain ⟨hhost', hregs', hclown'⟩ := h2
  exact ⟨hhost'.trans hhost, sameRegs_trans hregs hregs', hclown'.trans hclown⟩

theorem keepsSlots_of_regs (hh : t.host = s.host) (hr : t.regs = s.regs) : keepsSlots g s t := by
  refine ⟨hh, sameRegs_of_regs hr _, ?_⟩
  simp only [sameSlots, clown, rd64, rd, hr]

theorem keepsSlots_refl : keepsSlots g s s := keepsSlots_of_regs rfl rfl

theorem keepsSlots_ite {c : Prop} [Decidable c] (ht : keepsSlots g s t) (hu : keepsSlots g s u) :
    keepsSlots g s (if c then t else u) := by
  split
  · exact ht
  · exact hu

/-- The bits of the high word above the slots' are PIL, RES and FENCE. -/
theorem keepsSlots_setF {hi lo v : Nat} (hl : 20 ≤ lo) (hlh : lo ≤ hi) :
    keepsSlots g s (setF s (clownOff g + 4) hi lo v) := by
  refine ⟨rfl, sameRegs_setF _ _ _ _ (by simp), ?_⟩
  have hlow : rd (setF s (clownOff g + 4) hi lo v) (clownOff g) = rd s (clownOff g) := rd_setF_ne _ _ _ _ (by omega)
  have hhigh : rd (setF s (clownOff g + 4) hi lo v) (clownOff g + 4) % 2 ^ 20 = rd s (clownOff g + 4) % 2 ^ 20 := by
    refine eq_of_bit_eq fun i => ?_
    rw [setF, rd_wr_same, bit_mod_two_pow, bit_mod_two_pow, bit_mod_two_pow, bit_setBits _ _ _ hlh]
    by_cases hi' : i < 20
    · rw [if_neg (by omega)]
      simp [hi', show i < 32 by omega]
    · simp [hi']
  simp only [sameSlots, clown, rd64, hlow]
  omega

theorem keepsSlots_syncPil (s : State) (g : Nat) : keepsSlots g s (syncPil s g) := keepsSlots_setF (by decide) (by decide)

theorem keepsSlots_zeroImage (s : State) (g sl : Nat) : keepsSlots g s (zeroImage s g sl) :=
  keepsSlots_ite keepsSlots_refl (keepsSlots_of_regs rfl rfl)

theorem keepsSlots_zeroCluster (s : State) (g : Nat) : keepsSlots g s (zeroCluster s g) := keepsSlots_of_regs rfl rfl

theorem keepsSlots_setSlot (s : State) (g : Nat) (x : SlotSt) : keepsSlots g s (setSlot s g x) := keepsSlots_of_regs rfl rfl

theorem keepsSlots_wakeIsl (s : State) (g g' : Nat) : keepsSlots g s (wakeIsl s g') :=
  keepsSlots_ite (keepsSlots_of_regs rfl rfl) keepsSlots_refl

theorem keepsSlots_foldl {α : Type} {f : State → α → State} (hf : ∀ s a, keepsSlots g s (f s a)) (l : List α) (s : State) :
    keepsSlots g s (l.foldl f s) := by
  induction l generalizing s with
  | nil => exact keepsSlots_refl
  | cons a l ih => exact keepsSlots_trans (hf s a) (ih _)

/-- The fields of an owner word that a new owner takes. -/
theorem sameSlots_taken (old new : Nat) :
    sameSlots (setBits (setBits old 47 0 new) 51 48 (bits new 51 48) % 2 ^ 64) new := by
  refine eq_of_bit_eq fun i => ?_
  rw [bit_mod_two_pow, bit_mod_two_pow, bit_mod_two_pow, bit_setBits _ _ _ (by decide), bit_setBits _ _ _ (by decide),
    bit_bits]
  by_cases hi : i < 52
  · by_cases hv : 48 ≤ i
    · rw [if_pos (by omega), show 48 + (i - 48) = i by omega]
      simp [show i < 64 by omega, show i - 48 < 4 by omega]
    · rw [if_neg (by omega), if_pos (by omega)]
      simp [show i < 64 by omega]
  · simp [hi]

/-- A cluster that takes an owner word has its slots as that word tells them. -/
theorem takeOwner_slots (s : State) (g new : Nat) :
    (takeOwner s g new).host = s.host ∧ sameRegs s (takeOwner s g new) [clownOff g, clownOff g + 4] ∧
      sameSlots (clown (takeOwner s g new) g) new := by
  have hrest : keepsSlots g (wr64 s (clownOff g) (setBits (setBits (clown s g) 47 0 new) 51 48 (bits new 51 48)))
      (takeOwner s g new) := by
    unfold takeOwner
    extract_lets old res had s1 _ s2 s3 gone _ s4 first s5 x
    have h2 : keepsSlots g s1 s2 := keepsSlots_ite (keepsSlots_of_regs rfl rfl) keepsSlots_refl
    have h3 : keepsSlots g s1 s3 :=
      keepsSlots_trans h2 (keepsSlots_ite (keepsSlots_syncPil _ _) keepsSlots_refl)
    have h4 : keepsSlots g s1 s4 := keepsSlots_trans h3 (keepsSlots_of_regs rfl rfl)
    have h5 : keepsSlots g s1 s5 := keepsSlots_trans h4 (keepsSlots_foldl (fun s sl =>
      keepsSlots_ite keepsSlots_refl (keepsSlots_ite (keepsSlots_zeroCluster _ _) (keepsSlots_zeroImage _ _ _))) _ _)
    have hslot (x : SlotSt) : keepsSlots g s1 (setSlot s5 g x) := keepsSlots_trans h5 (keepsSlots_setSlot _ _ _)
    refine keepsSlots_ite (keepsSlots_ite h5 ?_) (keepsSlots_ite (hslot _) (keepsSlots_ite ?_ ?_))
    · exact keepsSlots_trans h5 (keepsSlots_trans (keepsSlots_setF (by decide) (by decide)) (keepsSlots_setSlot _ _ _))
    · split
      · exact hslot _
      · exact hslot _
    · split
      · exact keepsSlots_ite (hslot _) h5
      · exact h5
  obtain ⟨hhost, hregs, hclown⟩ := hrest
  have htaken := sameSlots_taken (clown s g) new
  rw [← rd64_wr64_same s (clownOff g)] at htaken
  exact ⟨hhost, sameRegs_trans (sameRegs_wr64 _ _ _) hregs, hclown.trans htaken⟩

/-- CLOWN: where the new word passes its checks the cluster takes it, and the descriptor ends with OK. -/
theorem clownBody_ok {on : Bool} (hst : startable s r h row) (hdie : byteAt h.bytes 16 ≤ 7) (hclu : byteAt h.bytes 17 < 160)
    (hg : g = 160 * byteAt h.bytes 16 + byteAt h.bytes 17) (hsl : sl = byteAt h.bytes 18) (hsl3 : sl ≤ 3)
    (hfn : on = true → leAt h.bytes 20 2 ≤ 512) {new : Nat}
    (hnew : new = if on then setBits (setBits (clown s g) (fnLo sl + 9) (fnLo sl) (leAt h.bytes 20 2)) (48 + sl) (48 + sl) 1
      else setBits (clown s g) (48 + sl) (48 + sl) 0) (hcheck : clownCheck s g new = 0) :
    endedWith s (clownBody on r h s) r 0 ∧ sameSlots (clown (clownBody on r h s) g) new := by
  subst hg hsl
  have hargs : ¬ (7 < byteAt h.bytes 16 ∨ 160 ≤ byteAt h.bytes 17 ∨ 3 < byteAt h.bytes 18 ∨
      (on = true ∧ 512 < leAt h.bytes 20 2)) := by
    rintro (hbad | hbad | hbad | ⟨hon, hbad⟩)
    · omega
    · omega
    · omega
    · exact absurd (hfn hon) (by omega)
  have hbody : clownBody on r h s = endDesc (wakeIsl (takeOwner s (160 * byteAt h.bytes 16 + byteAt h.bytes 17) new)
      (160 * byteAt h.bytes 16 + byteAt h.bytes 17)) r 0 := by
    rw [clownBody]
    simp only [if_neg hargs, ← hnew, hcheck]
    rfl
  obtain ⟨hhost, -, hclown⟩ := takeOwner_slots s (160 * byteAt h.bytes 16 + byteAt h.bytes 17) new
  obtain ⟨hhost', -, hclown'⟩ := keepsSlots_wakeIsl (takeOwner s (160 * byteAt h.bytes 16 + byteAt h.bytes 17) new)
    (160 * byteAt h.bytes 16 + byteAt h.bytes 17) (160 * byteAt h.bytes 16 + byteAt h.bytes 17)
  rw [hbody]
  exact ⟨endedWith_of_host hst (hhost'.trans hhost), hclown'.trans hclown⟩

theorem slotValid_of_sameSlots {new : Nat} (hw : sameSlots (clown t g) new) (hsl : sl < 4) :
    slotValid t g sl = bit new (48 + sl) := bit_of_sameSlots hw (by omega)

theorem slotFn_of_sameSlots {new : Nat} (hw : sameSlots (clown t g) new) (hsl : sl < 4) :
    slotFn t g sl = bits new (fnLo sl + 9) (fnLo sl) := by
  have hlo : fnLo sl + 9 < 52 := by
    unfold fnLo
    split <;> omega
  refine eq_of_bit_eq fun i => ?_
  rw [slotFn, bit_bits, bit_bits]
  by_cases hi : i < fnLo sl + 9 + 1 - fnLo sl
  · rw [bit_of_sameSlots hw (by omega)]
  · simp [hi]

/-! ### Granules (06 R231) -/

/-- The state whose granule has a new VALID and FN. -/
def granTaken (s : State) (g : Nat) (on : Bool) (fn : Nat) : State :=
  setF (setF s (R.dstOwn g) 31 31 (b2n on)) (R.dstOwn g) 9 0 fn

theorem flag_granTaken_valid (s : State) (g : Nat) (on : Bool) (fn : Nat) : flag (granTaken s g on fn) (R.dstOwn g) 31 = on := by
  rw [granTaken, flag_setF_same _ _ _ (by decide) (by decide), if_neg (by decide),
    flag_setF_same _ _ _ (by decide) (by decide), if_pos (by decide)]
  cases on <;> rfl

theorem flag_granTaken_bad (s : State) (g : Nat) (on : Bool) (fn : Nat) :
    flag (granTaken s g on fn) (R.dstOwn g) 30 = flag s (R.dstOwn g) 30 := by
  rw [granTaken, flag_setF_same _ _ _ (by decide) (by decide), if_neg (by decide),
    flag_setF_same _ _ _ (by decide) (by decide), if_neg (by decide)]

theorem getF_granTaken (s : State) (g : Nat) (on : Bool) (fn : Nat) :
    getF (granTaken s g on fn) (R.dstOwn g) 9 0 = fn % 2 ^ 10 := getF_setF_same _ _ _ (by decide) (by decide)

theorem sameRegs_granTaken (s : State) (g : Nat) (on : Bool) (fn : Nat) : sameRegs s (granTaken s g on fn) [R.dstOwn g] :=
  sameRegs_trans (sameRegs_setF _ _ _ _ (by simp)) (sameRegs_setF _ _ _ _ (by simp))

/-- GRAN: where the checks pass the granule's register takes VALID and FN, and the descriptor ends with OK. -/
theorem granBody_ok {on : Bool} (hst : startable s r h row) (hg : g = leAt h.bytes 16 2) (hlt : g < 6144)
    (hown : on = false → ownsGranule s (leAt h.bytes 20 2) g = true) (hcheck : granuleCheck s g (leAt h.bytes 20 2) on = 0) :
    endedWith s (granBody on r h s) r 0 ∧ flag (granBody on r h s) (R.dstOwn g) 31 = on ∧
      getF (granBody on r h s) (R.dstOwn g) 9 0 = leAt h.bytes 20 2 % 2 ^ 10 ∧
      flag (granBody on r h s) (R.dstOwn g) 30 = flag s (R.dstOwn g) 30 ∧ sameRegs s (granBody on r h s) [R.dstOwn g] ∧
      (granBody on r h s).deep = s.deep ∧ (granBody on r h s).comp = s.comp := by
  have hargs : ¬ (6144 ≤ g ∨ (!on) = true ∧
      (!(flag s (R.dstOwn g) 31 && getF s (R.dstOwn g) 9 0 == leAt h.bytes 20 2)) = true) := by
    rintro (hbad | ⟨hoff, hbad⟩)
    · omega
    · cases on
      · have howner := hown rfl
        simp only [ownsGranule] at howner
        simp [howner] at hbad
      · cases hoff
  have hbody : granBody on r h s =
      endDesc (granTaken s g on (leAt h.bytes 20 2)) r 0 := by
    rw [granBody]
    simp only [← hg, if_neg hargs, hcheck, ne_eq, not_true_eq_false, if_false, granTaken]
  have hregs : (granBody on r h s).regs = (granTaken s g on (leAt h.bytes 20 2)).regs := by
    rw [hbody]
    rfl
  refine ⟨?_, ?_, ?_, ?_, ?_, ?_, ?_⟩
  · rw [hbody]
    exact endedWith_of_host hst rfl
  · rw [flag_congr_regs hregs, flag_granTaken_valid]
  · rw [getF_congr_regs hregs, getF_granTaken]
  · rw [flag_congr_regs hregs, flag_granTaken_bad]
  · exact sameRegs_trans (sameRegs_granTaken s g on _) (sameRegs_of_regs hregs _)
  · rw [hbody]
    rfl
  · rw [hbody]
    rfl

/-! ### SETREG (14 R532) -/

/-- The row of `GNG_UEP`. -/
def gngUepRow : RegRow := ⟨R.gngUep, [], 1, [⟨15, 0, .rwl, 0⟩]⟩

theorem dropHeld_regs (s : State) (base : Nat) : (dropHeld s base).regs = s.regs := by
  unfold dropHeld
  (repeat' split) <;> rfl

theorem dropHeld_host (s : State) (base : Nat) : (dropHeld s base).host = s.host := by
  unfold dropHeld
  (repeat' split) <;> rfl

/-- An administrative write of `GNG_UEP` sets its field, whatever the lock says. -/
theorem bar0Write_gngUep (s : State) (v : Nat) :
    bar0Write true R.gngUep v s =
      (setF (dropHeld s R.gngUep) R.gngUep 15 0 (v % 2 ^ 16), 0) := by
  have hrow : regAt R.gngUep = some (gngUepRow, 0) := by decide +kernel
  have hopen : closedTo s true = false := by simp [closedTo]
  have hval : RegRow.write gngUepRow 0 false (rd (dropHeld s R.gngUep) R.gngUep) v =
      setBits (rd (dropHeld s R.gngUep) R.gngUep) 15 0 (v % 2 ^ 16) := rfl
  rw [bar0Write]
  simp only [hrow, hopen, hval]
  rfl

/-- The value that SETREG writes to `GNG_UEP`. -/
def gngUepValue (s : State) (b : List Byte) : Nat :=
  ((rd s R.gngUep &&& 0xFFFF) &&& (leAt b 24 4 ^^^ 0xFFFFFFFF)) ||| (leAt b 20 4 &&& leAt b 24 4)

theorem gngUepValue_eq (s : State) (b : List Byte) : gngUepValue s b =
    (getF s R.gngUep 15 0 &&& (leAt b 24 4 ^^^ 0xFFFFFFFF)) ||| (leAt b 20 4 &&& leAt b 24 4) := by
  have hfield : rd s R.gngUep &&& 0xFFFF = getF s R.gngUep 15 0 := by
    simpa [getF, bits] using Nat.and_two_pow_sub_one_eq_mod (rd s R.gngUep) 16
  rw [gngUepValue, hfield]

/-- SETREG of `GNG_UEP` sets its field and ends with OK. -/
theorem setregBody_gngUep (s : State) (r : DescRef) (hoff : leAt h.bytes 16 4 = R.gngUep) :
    setregBody r h s =
      endDesc (setF (dropHeld s R.gngUep) R.gngUep 15 0 (gngUepValue s h.bytes % 2 ^ 16)) r 0 := by
  have hrow : regAt R.gngUep = some (gngUepRow, 0) := by decide +kernel
  have hmask : keepMask gngUepRow 0 = 0xFFFF := rfl
  have hargs : ¬ (R.gngUep % 4 ≠ 0 ∨ (R.vfCtl 0 ≤ R.gngUep ∧ R.gngUep < R.vfCtl 513)) := by decide
  rw [setregBody]
  simp only [hoff, if_neg hargs, hrow, hmask, bar0Write_gngUep, gngUepValue]

/-! ### TBLWR and TBLRD (14 R532) -/

/-- A route entry that is good enters the inactive bank. -/
theorem fabWrite_route {bank idx : Nat} {data : List Byte} (hbank : bank ≠ curEpoch s % 2) (hret : flag s R.fabEpoch 4 = false)
    (harm : flag s R.fabEpoch 8 = false) (hdrain : fabDrain s = 0) (hgood : routeBad (leNat data) = false) :
    fabWrite s 0 bank idx data =
      ({ s with fab := { s.fab with routes := SMap.setD s.fab.routes (65536 * bank + idx) 0 (leNat data) } }, 0) := by
  simp [fabWrite, hbank, hret, harm, hdrain, hgood]

/-- Route entries of a bank, from one on, stand as the bytes tell. -/
def routesLoaded (s : State) (bank idx : Nat) (data : List Byte) (n : Nat) : Prop :=
  ∀ j < n, routeOf s bank (idx + j) = leAt data (8 * j) 8

/-- One more route entry. -/
theorem routesLoaded_succ {bank idx k : Nat} {data : List Byte} (hidx : idx + k < 65536) (hload : routesLoaded s bank idx data k)
    (ht : t.fab.routes = SMap.setD s.fab.routes (65536 * bank + (idx + k)) 0 (leAt data (8 * k) 8)) :
    routesLoaded t bank idx data (k + 1) := by
  intro j hj
  have hmod : (idx + j) % 65536 = idx + j := Nat.mod_eq_of_lt (by omega)
  obtain rfl | hlt : j = k ∨ j < k := by omega
  · rw [routeOf, ht, hmod, SMap.getD_setD_same]
  · rw [routeOf, ht, hmod, SMap.getD_setD_ne _ _ _ _ (by omega)]
    have := hload j hlt
    rwa [routeOf, hmod] at this

/-- TBLWR of good route entries into the inactive bank loads them all. -/
theorem writeEntries_routes {data : List Byte} {bank idx : Nat} (h : HostDesc) (htid : byteAt h.bytes 16 = 0)
    (hb : byteAt h.bytes 17 = bank) (hi : leAt h.bytes 20 4 = idx) (hbank : bank < 2) (n k : Nat) (s : State)
    (hother : bank ≠ curEpoch s % 2) (hret : flag s R.fabEpoch 4 = false)
    (harm : flag s R.fabEpoch 8 = false) (hdrain : fabDrain s = 0) (hend : idx + (k + n) ≤ 65536)
    (hgood : ∀ j < k + n, routeBad (leAt data (8 * j) 8) = false) (hload : routesLoaded s bank idx data k) :
    ∃ u, writeEntries r h data n k s = endDesc (updDesc u r fun h => { h with result := k + n }) r 0 ∧
      u = { s with fab := { s.fab with routes := u.fab.routes } } ∧ routesLoaded u bank idx data (k + n) := by
  induction n generalizing k s with
  | zero => exact ⟨s, rfl, rfl, hload⟩
  | succ n ih =>
    have hentry : leNat ((data.drop (k * tblSize 0)).take (tblSize 0)) = leAt data (8 * k) 8 := by
      rw [show tblSize 0 = 8 from rfl, Nat.mul_comm, leAt]
    have hsel : tblSel 0 bank (idx + k) = true := by
      simp [tblSel, tblCount, show tblSize 0 = 8 from rfl, hbank, show idx + k < 65536 by omega]
    have hwrite (who : Option (Nat × Nat × Nat)) :
        tblWrite s 0 bank (idx + k) ((data.drop (k * tblSize 0)).take (tblSize 0)) who =
          ({ s with fab := { s.fab with
              routes := SMap.setD s.fab.routes (65536 * bank + (idx + k)) 0 (leAt data (8 * k) 8) } }, 0) := by
      have hroute := hgood k (by omega)
      rw [← hentry] at hroute ⊢
      rw [← fabWrite_route hother hret harm hdrain hroute]
      simp [tblWrite, hsel]
    obtain ⟨u, hu, heq, hall⟩ := ih (k + 1)
      { s with fab := { s.fab with routes := SMap.setD s.fab.routes (65536 * bank + (idx + k)) 0 (leAt data (8 * k) 8) } }
      hother hret harm hdrain (by omega) (fun j hj => hgood j (by omega)) (routesLoaded_succ (by omega) hload rfl)
    rw [show k + 1 + n = k + (n + 1) by omega] at hu hall
    refine ⟨u, ?_, heq, hall⟩
    rw [writeEntries, htid, hb, hi, hwrite]
    exact hu

/-- The entries that are read, where none is refused, are as many as were asked for. -/
theorem readEntries_length {tid bank n : Nat} {es : List (List Byte)} (idx : Nat)
    (hr : readEntries s tid bank idx n = (es, 0)) : es.length = n := by
  induction n generalizing idx es with
  | zero =>
    obtain rfl := (Prod.mk.inj hr).1
    rfl
  | succ n ih =>
    rw [readEntries] at hr
    cases hread : tblRead s tid bank idx with
    | none =>
      rw [hread] at hr
      exact absurd (Prod.mk.inj hr).2 (by decide)
    | some e =>
      rw [hread] at hr
      obtain ⟨hes, hst⟩ := Prod.mk.inj hr
      rw [← hes, List.length_cons, ih (idx + 1) (Prod.ext rfl hst)]

end Sys2Proof.Machine

open Sys2Proof Sys2Proof.Machine

/-- Settles O23: each descriptor carries out its row's body (`startDesc_of_startable`); CLOWN takes the owner word
(`takeOwner_slots`), GRAN the granule's register (`granBody_ok`), SETREG the field (`bar0Write_gngUep`), and TBLWR loads its
entries one by one (`writeEntries_routes`). -/
theorem adminDescriptors : Obligations.AdminDescriptors := by
  unfold Obligations.AdminDescriptors
  refine ⟨⟨?clownAssign, ?clownRelease, ?granAssign, ?granRelease⟩, ?setreg, ?tblwr, ?tblrd⟩
  case clownAssign =>
    intro s r h g sl hst hdie hclu hg hsl hsl3 hfn hcheck
    obtain ⟨hend, hslots⟩ := clownBody_ok (on := true) hst hdie hclu hg hsl hsl3 (fun _ => hfn) rfl hcheck
    have hlo : fnLo sl + 9 < 48 := by
      unfold fnLo
      split <;> omega
    refine ⟨_, congrArg Host.Outcome.next (startDesc_of_startable hst), hend, ?_, ?_, fun k hk hne => ?_⟩
    · rw [slotValid_of_sameSlots hslots (by omega), if_pos rfl, bit_setBits _ _ _ le_rfl, if_pos (by omega)]
      simp [bit]
    · rw [slotFn_of_sameSlots hslots (by omega), if_pos rfl, bits_setBits_apart _ _ le_rfl (by omega),
        bits_setBits_same _ _ (by omega), show fnLo sl + 9 + 1 - fnLo sl = 10 by omega, Nat.mod_eq_of_lt (by omega)]
    · rw [slotValid_of_sameSlots hslots hk, if_pos rfl, bit_setBits _ _ _ le_rfl, if_neg (by omega),
        bit_setBits _ _ _ (by omega), if_neg (by omega), slotValid]
  case clownRelease =>
    intro s r h g sl hst hdie hclu hg hsl hsl3 hcheck
    obtain ⟨hend, hslots⟩ := clownBody_ok (on := false) hst hdie hclu hg hsl hsl3 (by simp) rfl hcheck
    refine ⟨_, congrArg Host.Outcome.next (startDesc_of_startable hst), hend, ?_, fun k hk hne => ?_⟩
    · rw [slotValid_of_sameSlots hslots (by omega), if_neg (by decide), bit_setBits _ _ _ le_rfl, if_pos (by omega)]
      simp [bit]
    · rw [slotValid_of_sameSlots hslots hk, if_neg (by decide), bit_setBits _ _ _ le_rfl, if_neg (by omega), slotValid]
  case granAssign =>
    intro s r h g hst hg hlt hfn hcheck
    obtain ⟨hend, hvalid, howner, hbad, hsame, hdeep, hcomp⟩ := granBody_ok hst hg hlt (by simp) hcheck
    refine ⟨_, congrArg Host.Outcome.next (startDesc_of_startable hst), hend, ?_, hbad, hsame, hdeep, hcomp⟩
    rw [ownsGranule, hvalid, howner, Nat.mod_eq_of_lt (by omega)]
    simp
  case granRelease =>
    intro s r h g hst hg hlt hown hcheck
    obtain ⟨hend, hvalid, howner, -, hsame, hdeep, hcomp⟩ := granBody_ok hst hg hlt (fun _ => hown) hcheck
    refine ⟨_, congrArg Host.Outcome.next (startDesc_of_startable hst), hend, hvalid, ?_, hsame, hdeep, hcomp⟩
    have hfn : getF s (R.dstOwn g) 9 0 = leAt h.bytes 20 2 := by
      simp only [ownsGranule, Bool.and_eq_true, beq_iff_eq] at hown
      exact hown.2
    rw [howner, ← hfn]
    exact Nat.mod_eq_of_lt (Nat.mod_lt _ (by decide))
  case setreg =>
    intro s r h hst hoff
    have hstart : startDesc .setreg r (setregBody r) s = _ :=
      (startDesc_of_startable hst).trans (setregBody_gngUep s r hoff)
    refine ⟨_, congrArg Host.Outcome.next hstart, endedWith_of_host hst ((setF_host _ _ _ _ _).trans (dropHeld_host s _)), ?_, ?_⟩
    · rw [getF_congr_regs (endDesc_regs _ _ _), getF_setF_same _ _ _ (by decide) (by decide), Nat.mod_mod, gngUepValue_eq]
    · exact sameRegs_trans (sameRegs_trans (sameRegs_of_regs (dropHeld_regs s _) _) (sameRegs_setF _ _ _ _ (by simp)))
        (sameRegs_of_regs (endDesc_regs _ _ _) _)
  case tblwr =>
    intro s r h data hst hres htid hbank hother hret harm hdrain hpos hmax hend hlen hgood
    obtain ⟨u, hbody, hu, hload⟩ := writeEntries_routes (r := r) (data := data) h htid rfl rfl hbank (leAt h.bytes 24 4) 0 s
      hother hret harm hdrain (by omega) (by simpa using hgood) (fun _ hj => absurd hj (by omega))
    rw [Nat.zero_add] at hbody hload
    have hargs : ¬ (tblSize 0 = 0 ∨ (!between 1 4096 (leAt h.bytes 24 4)) = true) := by
      simp [between, hpos, hmax, tblSize]
    have hstart : startDesc .tblwr r (tblwrBody r data) s =
        endDesc (updDesc u r fun g => { g with result := leAt h.bytes 24 4 }) r 0 := by
      rw [startDesc_of_startable hst, tblwrBody]
      simp only [htid, if_neg hargs, hres, Nat.sub_zero]
      rw [if_neg (by rw [hlen, show tblSize 0 = 8 from rfl]; omega)]
      exact hbody
    obtain ⟨hended, hresult⟩ := endedWith_result (st := 0) (n := leAt h.bytes 24 4) hst (by rw [hu] : u.host = s.host)
    refine ⟨_, congrArg Host.Outcome.next hstart, hended, hresult, hload, ?_⟩
    rw [hu]
    exact ⟨rfl, rfl, rfl⟩
  case tblrd =>
    intro s r h es hst hsize hpos hmax hread
    have hcount := readEntries_length _ hread
    have hne : es ≠ [] := by
      rintro rfl
      simp at hcount
      omega
    have hargs : ¬ (tblSize (byteAt h.bytes 16) = 0 ∨ (!between 1 4096 (leAt h.bytes 24 4)) = true) := by
      simp [between, hpos, hmax, hsize]
    have hstart : startDesc .tblrd r (tblrdBody r) s =
        endDesc (updDesc (hostWrite s h.fn (leAt h.bytes 32 8) es.flatten) r
          fun g => { g with result := leAt h.bytes 24 4 }) r 0 := by
      rw [startDesc_of_startable hst, tblrdBody]
      simp only [if_neg hargs, hread, if_neg hne, hcount]
    obtain ⟨hended, hresult⟩ := endedWith_result (st := 0) (n := leAt h.bytes 24 4)
      (u := hostWrite s h.fn (leAt h.bytes 32 8) es.flatten) hst rfl
    exact ⟨_, congrArg Host.Outcome.next hstart, hended, hresult, rfl, rfl, rfl, rfl⟩
end

section
/-! PROOFS. Writes of `CPX_CLOWN`, `DST_LAYOUT` and `DST_OWN` (04 R174, R189; 06 R228, R231). -/

namespace Sys2Proof.Machine

variable {s t : State} {d : Die} {i : Clu} {g sl : Nat}

/-! ### The rows of the registers -/

/-- The row of `CPX_CLOWN`. -/
def clownRow : RegRow :=
  ⟨0x1410000, [(0x8, 0x100000), (0xA0, 0x8)], 2, [⟨63, 63, .ro, 0⟩, ⟨62, 62, .ro, 0⟩, ⟨53, 52, .ro, 0⟩, ⟨51, 48, .rwl, 0⟩,
    ⟨41, 32, .rwl, 0⟩, ⟨29, 20, .rwl, 0⟩, ⟨19, 10, .rwl, 0⟩, ⟨9, 0, .rwl, 0⟩]⟩

/-- A table whose last row alone may hold an offset. -/
theorem regAt_of_last {off w : Nat} {rows : List RegRow} {r : RegRow} (hb : regBlock off = rows ++ [r])
    (hrows : ∀ x ∈ rows, RegRow.word x off = none) (hw : RegRow.word r off = some w) : regAt off = some (r, w) := by
  have hnone : (rows.findSome? fun x => (RegRow.word x off).map fun w => (x, w)) = none :=
    List.findSome?_eq_none_iff.2 fun x hx => by rw [hrows x hx, Option.map_none]
  rw [regAt, hb, List.findSome?_append, hnone, Option.none_or, List.findSome?_cons, hw]
  rfl

theorem regTable14_eq : regTable14 = regTable14.dropLast ++ [clownRow] := by decide

/-- Before `CPX_CLOWN` the block has only rows of one index that lie below it. -/
theorem regTable14_below : ∀ r ∈ regTable14.dropLast,
    r.dims = [(8, 0x100000)] ∧ 0x140E000 ≤ r.base ∧ r.base + 4 * r.words ≤ 0x1410000 := by decide

theorem word_clownRow {d i k : Nat} (hd : d < 8) (hi : i < 160) (hk : k < 2) :
    RegRow.word clownRow (R.cpxClown d i + 4 * k) = some k := by
  have hbase : clownRow.base = 0x1410000 := rfl
  have hsum : R.cpxClown d i + 4 * k - clownRow.base = 0x100000 * d + (0x8 * i + 4 * k) := by
    rw [hbase, R.cpxClown]
    omega
  have hstart : ¬ (R.cpxClown d i + 4 * k < clownRow.base ∨ (R.cpxClown d i + 4 * k) % 4 ≠ 0) := by
    rw [hbase, R.cpxClown]
    omega
  have hdie : (0x100000 * d + (0x8 * i + 4 * k)) / 0x100000 = d := by omega
  have hin : (0x100000 * d + (0x8 * i + 4 * k)) % 0x100000 = 0x8 * i + 4 * k := by omega
  have hclu : (0x8 * i + 4 * k) / 0x8 = i := by omega
  have hword : (0x8 * i + 4 * k) % 0x8 = 4 * k := by omega
  have hk4 : 4 * k < 4 * 2 := by omega
  have hkk : 4 * k / 4 = k := by omega
  rw [RegRow.word, if_neg hstart, hsum]
  simp only [clownRow, List.foldl_cons, List.foldl_nil, hdie, hd, if_true, hin, hclu, hi, hword, hk4, hkk]

theorem regAt_cpxClown {d i k : Nat} (hd : d < 8) (hi : i < 160) (hk : k < 2) :
    regAt (R.cpxClown d i + 4 * k) = some (clownRow, k) := by
  have hb : regBlock (R.cpxClown d i + 4 * k) = regTable14 := by
    have hdie : (R.cpxClown d i + 4 * k) / 0x100000 = 0x14 + d := by unfold R.cpxClown; omega
    have hlow : ∀ n < 0x14, ¬ (0x14 + d = n) := by omega
    simp [regBlock, hdie, hlow, show 0x14 + d ≤ 0x1B by omega]
  refine regAt_of_last (hb.trans regTable14_eq) (fun r hr => ?_) (word_clownRow hd hi hk)
  obtain ⟨hdims, hbase, hend⟩ := regTable14_below r hr
  refine RegRow.word_off hdims ?_
  unfold R.cpxClown
  omega

/-! ### The write of an owner word -/

/-- What a low word with the slots' fields of another holds. -/
def clownLow (old l : Nat) : Nat := setBits (setBits (setBits old 29 20 (bits l 29 20)) 19 10 (bits l 19 10)) 9 0 (bits l 9 0)
/-- What a high word with the slots' fields of another holds. -/
def clownHigh (old h : Nat) : Nat := setBits (setBits old 19 16 (bits h 19 16)) 9 0 (bits h 9 0)

theorem write_clownRow_low (old l : Nat) : RegRow.write clownRow 0 false old l = clownLow old l := rfl
theorem write_clownRow_high (old h : Nat) : RegRow.write clownRow 1 false old h = clownHigh old h := rfl

/-- The number that a write of `CPX_CLOWN` commits over two entries: the slots' fields of what is written, and the rest of the
entries, also what they hold above 32 bits. -/
def clownWritten (low high v : Nat) : Nat := clownLow low (v % 2 ^ 32) + 2 ^ 32 * clownHigh high (v / 2 ^ 32)

theorem execClusterOwnerWrite_eq (v : DWord) (hl : locked s = false) :
    exec (.clusterOwnerWrite d i v) s = .next (commitClown { s with held := none } (cluNo d i)
      (clownWritten (rd s (R.cpxClown d i)) (rd s (R.cpxClown d i + 4)) v.toNat)).1 := by
  have hlow : regAt (R.cpxClown d i) = some (clownRow, 0) := regAt_cpxClown d.isLt i.isLt (k := 0) (by decide)
  have hhigh : regAt (R.cpxClown d i + 4) = some (clownRow, 1) := regAt_cpxClown d.isLt i.isLt (k := 1) (by decide)
  have hwords : ¬ clownRow.words = 1 := by decide
  have hheld : (bar0Write false (R.cpxClown d i) (v.toNat % 2 ^ 32) s).1 =
      { s with held := some (R.cpxClown d i, v.toNat % 2 ^ 32) } := by
    have hdrop : { dropHeld s (R.cpxClown d i) with held := some (R.cpxClown d i, v.toNat % 2 ^ 32) } =
        { s with held := some (R.cpxClown d i, v.toNat % 2 ^ 32) } := by
      unfold dropHeld
      (repeat' split) <;> rfl
    simp only [bar0Write, hlow, if_neg hwords, closedTo, hl, Bool.false_and, Bool.false_eq_true, if_false, if_true, Nat.mul_zero,
      Nat.sub_zero, hdrop]
  have hcommit (s : State) (new : Nat) : commit64 false s (R.cpxClown d i) new = commitClown s (cluNo d i) new := by
    have hd := d.isLt
    have hi := i.isLt
    have hindex : 160 * ((R.cpxClown d i - 0x1400000) / 0x100000) + (R.cpxClown d i - 0x1410000) % 0x100000 / 8 =
        cluNo d i := by
      unfold R.cpxClown cluNo
      omega
    have hset : R.cpxClown d i ≠ R.tbSet := by unfold R.cpxClown R.tbSet; omega
    have hvf : ¬ (R.vfCtl 0 ≤ R.cpxClown d i ∧ R.cpxClown d i < R.vfCtl 513) := by unfold R.cpxClown R.vfCtl; omega
    have hshift : R.cpxClown d i ≠ R.cirShiftat := by unfold R.cpxClown R.cirShiftat; omega
    have hblock : 0x1400000 ≤ R.cpxClown d i ∧ R.cpxClown d i < 0x1C00000 := by unfold R.cpxClown; omega
    rw [commit64, if_neg hset, if_neg hvf, if_neg hshift, if_pos hblock, if_neg Bool.false_ne_true, hindex]
  have hexec : exec (.clusterOwnerWrite d i v) s = .next (bar0Write false (R.cpxClown d i + 4) (v.toNat / 2 ^ 32)
      (bar0Write false (R.cpxClown d i) (v.toNat % 2 ^ 32) s).1).1 := rfl
  rw [hexec, hheld, bar0Write_high64 _ hhigh (by decide) rfl]
  have hlocked : locked { s with held := some (R.cpxClown d i, v.toNat % 2 ^ 32) } = false := hl
  rw [hlocked, hcommit, write_clownRow_low, write_clownRow_high]
  rfl

/-! ### What is committed -/

/-- The owner word with the slots' fields of another. -/
def clownFields (w v : Nat) : Nat :=
  setBits (setBits (setBits (setBits (setBits w 9 0 v) 19 10 (v / 2 ^ 10)) 29 20 (v / 2 ^ 20)) 41 32 (v / 2 ^ 32))
    51 48 (v / 2 ^ 48)

theorem bit_div_two_pow (w n i : Nat) : bit (w / 2 ^ n) i = bit w (n + i) := by
  rw [bit, Nat.testBit_div_two_pow, Nat.add_comm]
  rfl

/-- A bit of a word that has taken a field of another. -/
theorem bit_setBits_bits (w v i : Nat) {hi lo : Nat} (h : lo ≤ hi) :
    bit (setBits w hi lo (bits v hi lo)) i = if lo ≤ i ∧ i ≤ hi then bit v i else bit w i := by
  rw [bit_setBits _ _ _ h]
  by_cases hin : lo ≤ i ∧ i ≤ hi
  · rw [if_pos hin, if_pos hin, bit_bits, show lo + (i - lo) = i by omega]
    simp [show i - lo < hi + 1 - lo by omega]
  · rw [if_neg hin, if_neg hin]

/-- The same, of a field that stands at the bottom of what is given. -/
theorem bit_setBits_div (w v i : Nat) {hi lo : Nat} (h : lo ≤ hi) :
    bit (setBits w hi lo (v / 2 ^ lo)) i = if lo ≤ i ∧ i ≤ hi then bit v i else bit w i := by
  rw [bit_setBits _ _ _ h, bit_div_two_pow]
  by_cases hin : lo ≤ i ∧ i ≤ hi
  · rw [if_pos hin, if_pos hin, show lo + (i - lo) = i by omega]
  · rw [if_neg hin, if_neg hin]

theorem bit_clownFields (w v i : Nat) : bit (clownFields w v) i =
    if i < 30 ∨ 32 ≤ i ∧ i < 42 ∨ 48 ≤ i ∧ i < 52 then bit v i else bit w i := by
  rw [clownFields, bit_setBits_div _ _ _ (by decide), bit_setBits_div _ _ _ (by decide), bit_setBits_div _ _ _ (by decide),
    bit_setBits_div _ _ _ (by decide), bit_setBits _ _ _ (by decide), Nat.sub_zero, ← ite_or, ← ite_or, ← ite_or, ← ite_or]
  exact if_congr (by omega) rfl rfl

theorem bit_clownLow (old l i : Nat) : bit (clownLow old l) i = if i < 30 then bit l i else bit old i := by
  rw [clownLow, bit_setBits_bits _ _ _ (by decide), bit_setBits_bits _ _ _ (by decide), bit_setBits_bits _ _ _ (by decide)]
  rw [← ite_or, ← ite_or]
  exact if_congr (by omega) rfl rfl

theorem bit_clownHigh (old h i : Nat) :
    bit (clownHigh old h) i = if i < 10 ∨ 16 ≤ i ∧ i < 20 then bit h i else bit old i := by
  rw [clownHigh, bit_setBits_bits _ _ _ (by decide), bit_setBits_bits _ _ _ (by decide)]
  rw [← ite_or]
  exact if_congr (by omega) rfl rfl

/-- A bit of two words in a row. -/
theorem bit_two_pow_split {low : Nat} (high i : Nat) (hlow : low < 2 ^ 32) :
    bit (low + 2 ^ 32 * high) i = if i < 32 then bit low i else bit high (i - 32) := by
  rw [bit, Nat.add_comm, Nat.testBit_two_pow_mul_add _ hlow]
  rfl

/-- Where the low entry is a word, what is committed is the owner word with the slots' fields that are written. -/
theorem clownWritten_of_word {low : Nat} (high v : Nat) (hlow : low < 2 ^ 32) :
    clownWritten low high v = clownFields (low % 2 ^ 32 + 2 ^ 32 * high) v := by
  have hlow' : clownLow low (v % 2 ^ 32) < 2 ^ 32 := by
    unfold clownLow
    exact setBits_lt (setBits_lt (setBits_lt hlow (by decide) (by decide)) (by decide) (by decide)) (by decide) (by decide)
  refine eq_of_bit_eq fun i => ?_
  rw [bit_clownFields, Nat.mod_eq_of_lt hlow, clownWritten, bit_two_pow_split _ _ hlow', bit_two_pow_split _ _ hlow, bit_clownLow,
    bit_clownHigh]
  by_cases hi : i < 32
  · by_cases hf : i < 30
    · have hmod : bit (v % 2 ^ 32) i = bit v i := by rw [bit_mod_two_pow, decide_eq_true hi, Bool.true_and]
      simp only [hi, hf, if_true, true_or, hmod]
    · simp [hi, hf, show ¬ 32 ≤ i by omega, show ¬ 48 ≤ i by omega]
  · have hfields : i - 32 < 10 ∨ 16 ≤ i - 32 ∧ i - 32 < 20 ↔ i < 30 ∨ 32 ≤ i ∧ i < 42 ∨ 48 ≤ i ∧ i < 52 := by omega
    simp only [if_neg hi, hfields, bit_div_two_pow, show 32 + (i - 32) = i by omega]

theorem statuses_eq_nil {a b c : Prop} [Decidable a] [Decidable b] [Decidable c]
    (h : (((if a then [4] else []) ++ if b then [3] else []) ++ if c then [2] else []).headD 0 = 0) :
    (((if a then [4] else []) ++ if b then [3] else []) ++ if c then [2] else []) = ([] : List Nat) := by
  by_cases ha : a <;> by_cases hb : b <;> by_cases hc : c <;> simp [ha, hb, hc] at h ⊢

/-- The checks of an owner word pass where none finds a status. -/
theorem clownBad_of_check {new : Nat} (h : clownCheck s g new = 0) : clownBad s g new = [] := statuses_eq_nil h

theorem commitClown_ok {new : Nat} (h : clownBad s g new = []) : commitClown s g new = (takeOwner s g new, 0) := by
  rw [commitClown, h]
  rfl

/-- R189, where the low entry of `CPX_CLOWN` is a word: the clause of `Obligations.OwnershipWrites` that fails of other states. -/
theorem clusterOwnerWrite_of_word {v : DWord} (hl : locked s = false) (hword : rd s (R.cpxClown d i) < 2 ^ 32)
    (hcheck : clownCheck s (cluNo d i) (clownFields (clown s (cluNo d i)) v.toNat) = 0) :
    ∃ t : State, exec (.clusterOwnerWrite d i v) s = .next t ∧
      (∀ sl < 4, slotValid t (cluNo d i) sl = bit v.toNat (48 + sl)) ∧
      sameRegs s t [R.cpxClown d i, R.cpxClown d i + 4] := by
  have hoff : clownOff (cluNo d i) = R.cpxClown d i := by
    have hi := i.isLt
    unfold clownOff cluNo
    congr 1 <;> omega
  have hnew : clownWritten (rd s (R.cpxClown d i)) (rd s (R.cpxClown d i + 4)) v.toNat =
      clownFields (clown s (cluNo d i)) v.toNat := by
    rw [clownWritten_of_word _ _ hword, clown, hoff, rd64]
  have hbad : clownBad { s with held := none } (cluNo d i) (clownFields (clown s (cluNo d i)) v.toNat) = [] :=
    clownBad_of_check hcheck
  have hexec := execClusterOwnerWrite_eq (d := d) (i := i) v hl
  rw [hnew, commitClown_ok hbad] at hexec
  obtain ⟨-, hregs, hslots⟩ := takeOwner_slots { s with held := none } (cluNo d i) (clownFields (clown s (cluNo d i)) v.toNat)
  rw [hoff] at hregs
  refine ⟨_, hexec, fun sl hsl => ?_, sameRegs_trans (sameRegs_of_regs rfl _) hregs⟩
  rw [slotValid_of_sameSlots hslots hsl, bit_clownFields, if_pos (by omega)]

/-! ### The state that refutes -/

/-- The state after reset, but the entry of the low word of `CPX_CLOWN` of cluster 0 holds 2^48, which is no 32-bit word. -/
def overfullClown : State := { State.reset with regs := [(R.cpxClown 0 0, 2 ^ 48)] }

/-- A write of 0 to that register makes slot 0 VALID. -/
theorem slotValid_overfullClown :
    ∃ t : State, exec (.clusterOwnerWrite 0 0 0) overfullClown = .next t ∧ slotValid t 0 0 = true := by
  have hl : locked overfullClown = false := by decide +kernel
  have hnew : clownWritten (rd overfullClown (R.cpxClown 0 0)) (rd overfullClown (R.cpxClown 0 0 + 4)) 0 = 2 ^ 48 := by
    decide +kernel
  have hbad : clownBad { overfullClown with held := none } 0 (2 ^ 48) = [] := by decide +kernel
  have hexec := execClusterOwnerWrite_eq (d := 0) (i := 0) 0 hl
  rw [show (0 : DWord).toNat = 0 from rfl, show ((0 : Die) : Nat) = 0 from rfl, show ((0 : Clu) : Nat) = 0 from rfl,
    show cluNo 0 0 = 0 from rfl, hnew, commitClown_ok hbad] at hexec
  obtain ⟨-, -, hslots⟩ := takeOwner_slots { overfullClown with held := none } 0 (2 ^ 48)
  exact ⟨_, hexec, (slotValid_of_sameSlots hslots (by decide)).trans (by decide)⟩

end Sys2Proof.Machine

open Sys2Proof Sys2Proof.Machine

/-- Refutes O11. The statement speaks of every `State`, and the entries of `State.regs` are natural numbers: where the entry of
`CPX_CLOWN`'s low word holds 2^48, the write of the register keeps what stands above bit 31 and adds it to the high word, so
that a write of 0, which passes the checks, makes slot 0 VALID. No write makes such an entry (`rd_wr_same`); where the entry
is a word the clause holds (`clusterOwnerWrite_of_word`). -/
theorem not_ownershipWrites : ¬ Obligations.OwnershipWrites := by
  unfold Obligations.OwnershipWrites
  rintro ⟨howner, -⟩
  have hl : locked overfullClown = false := by decide +kernel
  obtain ⟨t, ht, hvalid, -⟩ := howner overfullClown 0 0 0 hl (by decide +kernel)
  obtain ⟨u, hu, hslot⟩ := slotValid_overfullClown
  obtain rfl := Host.Outcome.next.inj (hu.symm.trans ht)
  have hzero := (hvalid 0 (by decide)).symm.trans hslot
  exact absurd hzero (by decide)
end

section
/-! PROOFS. Context switches of a time-sliced cluster (04 R176 to R183). -/

namespace Sys2Proof.Machine

variable {s t : State} {g sl img b a n j : Nat}

/-! ### Slices of a memory -/

/-- The keys of a canonical memory are all different. -/
theorem Mem.nodup_keys {m : List (Nat × Byte)} (h : Mem.wf m = true) : (m.map (·.1)).Nodup := by
  rw [Mem.wf_iff] at h
  exact List.pairwise_map.2 (h.1.imp fun hlt => Nat.ne_of_lt hlt)

theorem SMap.find_eq_none_of_not_mem {α : Type} {m : SMap α} {k : Nat} (h : k ∉ m.map (·.1)) : SMap.find m k = none := by
  induction m with
  | nil => rfl
  | cons e m ih =>
    obtain ⟨i, v⟩ := e
    obtain ⟨hne, hrest⟩ := not_or.1 fun hor => h (List.mem_cons.2 hor)
    rw [SMap.find, if_neg (Ne.symm hne), ih hrest]

/-- Bytes written one by one at an offset read where they were put. -/
theorem memRead_foldl_memWrite {l : List (Nat × Byte)} (hl : (l.map (·.1)).Nodup) (m : List (Nat × Byte)) (a x : Nat) :
    memRead (l.foldl (fun m e => memWrite m (a + e.1) e.2) m) x =
      if a ≤ x then (SMap.find l (x - a)).getD (memRead m x) else memRead m x := by
  induction l generalizing m with
  | nil => simp [SMap.find]
  | cons e l ih =>
    obtain ⟨i, v⟩ := e
    obtain ⟨hi, hl⟩ := List.nodup_cons.1 hl
    rw [List.foldl_cons, ih hl]
    by_cases hx : a ≤ x
    · rw [if_pos hx, if_pos hx, SMap.find]
      by_cases heq : i = x - a
      · subst heq
        rw [SMap.find_eq_none_of_not_mem hi, if_pos rfl, Option.getD_none, Option.getD_some, show a + (x - a) = x by omega,
          memRead_memWrite_same]
      · rw [if_neg heq, memRead_memWrite_ne _ _ (by omega)]
    · rw [if_neg hx, if_neg hx, memRead_memWrite_ne _ _ (by omega)]

theorem find_shift {m : List (Nat × Byte)} (k y : Nat) (hm : ∀ e ∈ m, k ≤ e.1) :
    SMap.find (m.map fun e => (e.1 - k, e.2)) y = SMap.find m (k + y) := by
  induction m with
  | nil => rfl
  | cons e m ih =>
    obtain ⟨i, v⟩ := e
    have hi : k ≤ i := hm (i, v) (by simp)
    rw [List.map_cons, SMap.find, SMap.find, ih fun e he => hm e (by simp [he])]
    exact if_congr (by omega) rfl rfl

theorem mem_slice_range {m : List (Nat × Byte)} {k n : Nat} {e : Nat × Byte}
    (he : e ∈ m.filter fun e => decide (k ≤ e.1) && decide (e.1 < k + n)) : k ≤ e.1 ∧ e.1 < k + n := by
  have hin := (List.mem_filter.1 he).2
  rwa [Bool.and_eq_true, decide_eq_true_eq, decide_eq_true_eq] at hin

/-- A slice of a memory, found by its offsets. -/
theorem find_memSlice (m : List (Nat × Byte)) (k n y : Nat) :
    SMap.find (memSlice m k n) y = if y < n then SMap.find m (k + y) else none := by
  have hfilter := SMap.find_filter m (fun j => decide (k ≤ j) && decide (j < k + n)) (k + y)
  rw [memSlice, find_shift k y fun e he => (mem_slice_range he).1, hfilter]
  exact if_congr (by simp) rfl rfl

theorem nodup_memSlice {m : List (Nat × Byte)} (h : Mem.wf m = true) (k n : Nat) : ((memSlice m k n).map (·.1)).Nodup := by
  rw [Mem.wf_iff] at h
  rw [memSlice, List.map_map]
  refine List.pairwise_map.2 ((h.1.filter _).imp_of_mem fun {e f} he hf hlt => ?_)
  have hke := (mem_slice_range he).1
  simp only [Function.comp_apply]
  omega

/-- A slice of a canonical memory placed in another reads there as in its own, and every other byte as before. -/
theorem memRead_memPlace {m' : List (Nat × Byte)} (h : Mem.wf m' = true) (m : List (Nat × Byte)) (a n k x : Nat) :
    memRead (memPlace m a n (memSlice m' k n)) x =
      if a ≤ x ∧ x < a + n then memRead m' (k + (x - a)) else memRead m x := by
  rw [memPlace, memRead_foldl_memWrite (nodup_memSlice h k n), find_memSlice, memRead_memClear]
  by_cases hx : a ≤ x
  · by_cases hn : x < a + n
    · rw [if_pos hx, if_pos (by omega), if_pos ⟨hx, hn⟩, if_pos ⟨hx, hn⟩]
      rfl
    · rw [if_pos hx, if_neg (by omega), if_neg (by omega), if_neg (by omega), Option.getD_none]
  · rw [if_neg hx, if_neg (by omega), if_neg (by omega)]

/-! ### The blocks of an image -/

/-- A block holds 4096 bytes of a core's store or of the shared store (Table CORE-15). -/
theorem blockLocal_eq (h : blockLocal b = some a) :
    b < 768 ∧ a = 4096 * b / 0xC000 * 0x10000 + 4096 * b % 0xC000 ∨ 768 ≤ b ∧ b < 832 ∧ a = 0x400000 + (4096 * b - 0x300000) := by
  simp only [blockLocal] at h
  split at h
  · exact .inl ⟨by omega, (Option.some.inj h).symm⟩
  · split at h
    · exact .inr ⟨by omega, by omega, (Option.some.inj h).symm⟩
    · cases h

/-- A block with bytes of the stores lies in the image's first 0x340000 bytes, and its bytes in the stores. -/
theorem blockLocal_lt (h : blockLocal b = some a) : b < 832 ∧ a + 4096 ≤ 2 ^ 24 := by
  have hb := blockLocal_eq h
  omega

/-- A byte of the stores is in one block. -/
theorem block_unique {b' a' o o' : Nat} (h : blockLocal b = some a) (h' : blockLocal b' = some a')
    (ho : o < 4096) (ho' : o' < 4096) (heq : a + o = a' + o') : b = b' := by
  have hb := blockLocal_eq h
  have hb' := blockLocal_eq h'
  omega

/-- Byte x of an image is byte y of the cluster's stores. -/
def inImage (x y : Nat) : Prop :=
  ∃ b < imageBlocks, ∃ a, ∃ r < 4096, blockLocal b = some a ∧ 4096 * b + r = x ∧ a + r = y

/-- Where a core's store lies in the image (Table CORE-15). -/
theorem inImage_local {c o : Nat} (hc : c < 64) (ho : o < 0xC000) : inImage (0xC000 * c + o) (0x10000 * c + o) := by
  refine ⟨12 * c + o / 4096, ?_, 0x10000 * c + o / 4096 * 4096, o % 4096, by omega, ?_, by omega, by omega⟩
  · unfold imageBlocks
    omega
  · simp only [blockLocal]
    rw [if_pos (by omega)]
    exact congrArg some (by omega)

/-- Where the cluster's shared store lies in the image. -/
theorem inImage_shared {o : Nat} (ho : o < 0x40000) : inImage (0x300000 + o) (0x400000 + o) := by
  refine ⟨768 + o / 4096, ?_, 0x400000 + o / 4096 * 4096, o % 4096, by omega, ?_, by omega, by omega⟩
  · unfold imageBlocks
    omega
  · simp only [blockLocal]
    rw [if_neg (by omega), if_pos (by omega)]
    exact congrArg some (by omega)

/-! ### One block moves -/

/-- Where no error stands a saved block is a slice of the stores placed in deep store. -/
theorem Quiet.saveBlock_eq (h : Quiet s) (himg : hasImages s = true) (hb : blockLocal b = some a) :
    saveBlock s g img b = { s with deep := { s.deep with
      mem := memPlace s.deep.mem (img + 4096 * b) 4096 (memSlice s.comp.store (storeKey g a) 4096) } } := by
  obtain ⟨hstore, hue, -⟩ := h.noUe
  simp only [saveBlock, himg, hb, h.meetStore_eq, hstore, List.map_nil, List.filter_nil, List.drop_nil, List.foldl_nil, clearUe,
    hue, Bool.not_true, Bool.false_eq_true, if_false]

/-- A block of the cores' own state moves nothing. -/
theorem Quiet.saveBlock_none (h : Quiet s) (himg : hasImages s = true) (hb : blockLocal b = none) : saveBlock s g img b = s := by
  obtain ⟨-, hue, -⟩ := h.noUe
  have hsame : ({ s with deep := { s.deep with ue := [] } } : State) = s := by
    rw [← hue]
  simp only [saveBlock, himg, hb, clearUe, hue, List.filter_nil, hsame, Bool.not_true, Bool.false_eq_true, if_false]

theorem Quiet.restoreBlock_eq {fn : Nat} (h : Quiet s) (himg : hasImages s = true) (hb : blockLocal b = some a) :
    restoreBlock s g fn img b = { s with comp := { s.comp with
      store := memPlace s.comp.store (storeKey g a) 4096 (memSlice s.deep.mem (img + 4096 * b) 4096) } } := by
  obtain ⟨hstore, hue, -⟩ := h.noUe
  have hhits : deepHits [] (img + 4096 * b) 4096 = [] := rfl
  simp only [restoreBlock, himg, hb, h.meetDeep_eq, hstore, hue, hhits, List.filter_nil, List.foldl_nil, if_true,
    Bool.false_eq_true, if_false]

theorem Quiet.restoreBlock_none {fn : Nat} (h : Quiet s) (hb : blockLocal b = none) : restoreBlock s g fn img b = s := by
  simp only [restoreBlock, hb, h.meetDeep_eq, ite_self, Bool.false_eq_true, if_false]

/-- The next block of a cluster's transfer moves, and the transfer is one block further. -/
theorem moveBlock_eq {w : SwitchSt} (hx : (slotSt s g).switch = some w) (hw : w.blocks < imageBlocks)
    (ht : (if w.saving then saveBlock s g (imageBase s g (resSlot s g)) w.blocks
      else restoreBlock s g (slotFn s g w.slot) (imageBase s g w.slot) w.blocks) = t) (hslot : slotSt t g = slotSt s g) :
    moveBlock s g = setSlot t g { slotSt s g with switch := some { w with blocks := w.blocks + 1, ns := 0 } } := by
  simp only [moveBlock, hx, if_neg (Nat.not_le.2 hw), ht, hslot]

/-- What each of the blocks that move keeps, all of them keep. -/
theorem moveBlocks_induct {p : Nat → State → Prop} (h0 : p 0 s)
    (hstep : ∀ j t, j < imageBlocks → p j t → p (j + 1) (moveBlock t g)) : p imageBlocks (moveBlocks s g) := by
  have hrange (n : Nat) (hn : n ≤ imageBlocks) : p n ((List.range n).foldl (fun s _ => moveBlock s g) s) := by
    induction n with
    | zero => exact h0
    | succ n ih =>
      rw [List.range_succ, List.foldl_append, List.foldl_cons, List.foldl_nil]
      exact hstep n _ hn (ih (by omega))
  exact hrange imageBlocks le_rfl

/-- Where an image lies depends on the registers alone. -/
theorem imageBase_congr_regs (h : t.regs = s.regs) (g sl : Nat) : imageBase t g sl = imageBase s g sl := by
  simp only [imageBase, ctxStart, sumpStart, sumpUnits, getF_congr_regs h]

theorem resSlot_congr_regs (h : t.regs = s.regs) (g : Nat) : resSlot t g = resSlot s g := by
  simp only [resSlot, clown, rd64, rd, h]

theorem storeKey_add (g a o : Nat) : storeKey g (a + o) = storeKey g a + o := by
  rw [storeKey, storeKey, Nat.add_assoc]

/-- After j blocks of a save: the image holds them, and nothing else has changed but the transfer. -/
structure Saving (s : State) (g sl img j : Nat) (t : State) : Prop where
  quiet : Quiet t
  regs : t.regs = s.regs
  store : t.comp.store = s.comp.store
  slot : ∃ ns, slotSt t g = { slotSt s g with switch := some ⟨sl, true, j, ns⟩ }
  saved : ∀ b < j, ∀ a, blockLocal b = some a → ∀ o < 4096,
    memRead t.deep.mem (img + 4096 * b + o) = memRead s.comp.store (storeKey g (a + o))
  kept : ∀ x, x < img ∨ img + 0x340000 ≤ x →
    memRead t.deep.mem x = memRead s.deep.mem x

theorem Saving.next (h : Saving s g sl img j t) (hat : imageBase s g (resSlot s g) = img) (himg : hasImages s = true)
    (hmem : Mem.wf s.comp.store = true) (hj : j < imageBlocks) : Saving s g sl img (j + 1) (moveBlock t g) := by
  obtain ⟨hquiet, hregs, hstore, ⟨ns, hslot⟩, hsaved, hkept⟩ := h
  have himg' : hasImages t = true := (flag_congr_regs hregs _ _).trans himg
  have hbase : imageBase t g (resSlot t g) = img := by
    rw [resSlot_congr_regs hregs, imageBase_congr_regs hregs, hat]
  have hx : (slotSt t g).switch = some ⟨sl, true, j, ns⟩ := by rw [hslot]
  cases hb : blockLocal j with
  | none =>
    rw [moveBlock_eq hx hj (hquiet.saveBlock_none himg' hb) rfl]
    refine ⟨⟨hquiet.noUe, hquiet.ups⟩, hregs, hstore, ⟨0, ?_⟩, fun b hlt a ha => ?_, hkept⟩
    · rw [slotSt_setSlot_same, hslot]
    · obtain rfl | hlt : b = j ∨ b < j := by omega
      · rw [hb] at ha
        cases ha
      · exact hsaved b hlt a ha
  | some a =>
    obtain ⟨hlast, -⟩ := blockLocal_lt hb
    have hread (x : Nat) := memRead_memPlace hmem t.deep.mem (img + 4096 * j) 4096 (storeKey g a) x
    rw [moveBlock_eq hx hj (hquiet.saveBlock_eq himg' hb) rfl]
    refine ⟨⟨hquiet.noUe, hquiet.ups⟩, hregs, hstore, ⟨0, ?_⟩, fun b hlt a' ha o ho => ?_, fun x hx => ?_⟩
    · rw [slotSt_setSlot_same, hslot]
    · rw [hbase, hstore]
      refine (hread _).trans ?_
      obtain rfl | hlt : b = j ∨ b < j := by omega
      · obtain rfl := Option.some.inj (hb.symm.trans ha)
        rw [if_pos (by omega), Nat.add_sub_cancel_left, storeKey_add]
      · rw [if_neg (by omega)]
        exact hsaved b hlt a' ha o ho
    · rw [hbase, hstore]
      refine (hread _).trans ?_
      rw [if_neg (by omega)]
      exact hkept x hx

/-- A save moves all its blocks. -/
theorem Saving.all {ns : Nat} (hq : Quiet s) (hat : imageBase s g (resSlot s g) = img) (himg : hasImages s = true)
    (hmem : Mem.wf s.comp.store = true) (hx : (slotSt s g).switch = some ⟨sl, true, 0, ns⟩) :
    Saving s g sl img imageBlocks (moveBlocks s g) := by
  refine moveBlocks_induct ?_ fun j t hj h => h.next hat himg hmem hj
  refine ⟨hq, rfl, rfl, ⟨ns, ?_⟩, fun b hb => absurd hb (by omega), fun _ _ => rfl⟩
  rw [← hx]

/-- A byte of the image after a save. -/
theorem Saving.byte {x y : Nat} (h : Saving s g sl img imageBlocks t) (hxy : inImage x y) :
    memRead t.deep.mem (img + x) = memRead s.comp.store (storeKey g y) := by
  obtain ⟨b, hb, a, r, hr, hblock, rfl, rfl⟩ := hxy
  rw [← Nat.add_assoc]
  exact h.saved b hb a hblock r hr

/-- After j blocks of a restore: the stores hold them, and nothing else has changed but the transfer and the cluster's stores. -/
structure Restoring (s : State) (g sl img j : Nat) (t : State) : Prop where
  quiet : Quiet t
  regs : t.regs = s.regs
  deep : t.deep = s.deep
  time : t.time = s.time
  slot : ∃ ns, slotSt t g = { slotSt s g with switch := some ⟨sl, false, j, ns⟩ }
  restored : ∀ b < j, ∀ a, blockLocal b = some a → ∀ o < 4096,
    memRead t.comp.store (storeKey g (a + o)) = memRead s.deep.mem (img + 4096 * b + o)
  kept : ∀ x, x / 2 ^ 24 ≠ g → memRead t.comp.store x = memRead s.comp.store x

theorem Restoring.next (h : Restoring s g sl img j t) (hat : imageBase s g sl = img) (himg : hasImages s = true)
    (hmem : Mem.wf s.deep.mem = true) (hj : j < imageBlocks) : Restoring s g sl img (j + 1) (moveBlock t g) := by
  obtain ⟨hquiet, hregs, hdeep, htime, ⟨ns, hslot⟩, hrestored, hkept⟩ := h
  have himg' : hasImages t = true := (flag_congr_regs hregs _ _).trans himg
  have hbase : imageBase t g sl = img := (imageBase_congr_regs hregs g sl).trans hat
  have hx : (slotSt t g).switch = some ⟨sl, false, j, ns⟩ := by rw [hslot]
  cases hb : blockLocal j with
  | none =>
    rw [moveBlock_eq hx hj (hquiet.restoreBlock_none hb) rfl]
    refine ⟨⟨hquiet.noUe, hquiet.ups⟩, hregs, hdeep, htime, ⟨0, ?_⟩, fun b hlt a ha => ?_, hkept⟩
    · rw [slotSt_setSlot_same, hslot]
    · obtain rfl | hlt : b = j ∨ b < j := by omega
      · rw [hb] at ha
        cases ha
      · exact hrestored b hlt a ha
  | some a =>
    obtain ⟨-, hend⟩ := blockLocal_lt hb
    have hread (x : Nat) := memRead_memPlace hmem t.comp.store (storeKey g a) 4096 (img + 4096 * j) x
    rw [moveBlock_eq hx hj (hquiet.restoreBlock_eq himg' hb) rfl]
    refine ⟨⟨hquiet.noUe, hquiet.ups⟩, hregs, hdeep, htime, ⟨0, ?_⟩, fun b hlt a' ha o ho => ?_, fun x hx => ?_⟩
    · rw [slotSt_setSlot_same, hslot]
    · rw [hbase, hdeep]
      refine (hread _).trans ?_
      obtain rfl | hlt : b = j ∨ b < j := by omega
      · obtain rfl := Option.some.inj (hb.symm.trans ha)
        rw [storeKey_add, if_pos (by omega), Nat.add_sub_cancel_left]
      · have hapart : ¬ (storeKey g a ≤ storeKey g (a' + o) ∧ storeKey g (a' + o) < storeKey g a + 4096) := by
          unfold storeKey
          rintro ⟨hle, hlt'⟩
          exact absurd (block_unique ha hb ho (by omega : a' + o - a < 4096) (by omega)) (by omega)
        rw [if_neg hapart]
        exact hrestored b hlt a' ha o ho
    · rw [hbase, hdeep]
      refine (hread _).trans ?_
      rw [if_neg (by unfold storeKey; omega)]
      exact hkept x hx

/-- A restore moves all its blocks. -/
theorem Restoring.all {ns : Nat} (hq : Quiet s) (hat : imageBase s g sl = img) (himg : hasImages s = true)
    (hmem : Mem.wf s.deep.mem = true) (hx : (slotSt s g).switch = some ⟨sl, false, 0, ns⟩) :
    Restoring s g sl img imageBlocks (moveBlocks s g) := by
  refine moveBlocks_induct ?_ fun j t hj h => h.next hat himg hmem hj
  refine ⟨hq, rfl, rfl, rfl, ⟨ns, ?_⟩, fun b hb => absurd hb (by omega), fun _ _ => rfl⟩
  rw [← hx]

/-- A byte of the stores after a restore. -/
theorem Restoring.byte {x y : Nat} (h : Restoring s g sl img imageBlocks t) (hxy : inImage x y) :
    memRead t.comp.store (storeKey g y) = memRead s.deep.mem (img + x) := by
  obtain ⟨b, hb, a, r, hr, hblock, rfl, rfl⟩ := hxy
  rw [← Nat.add_assoc]
  exact h.restored b hb a hblock r hr

/-! ### The rows -/

/-- A row that changes the slots alone leaves all but these and the islands. -/
theorem markBusy_setSlot (s : State) (g : Nat) (x : SlotSt) :
    slotSt (markBusy g s (setSlot s g x)) g = x ∧ markBusy g s (setSlot s g x) = { s with
      comp := { s.comp with slots := (markBusy g s (setSlot s g x)).comp.slots }
      power := { s.power with isl := (markBusy g s (setSlot s g x)).power.isl } } := by
  rw [markBusy_isl_eq]
  exact ⟨slotSt_setSlot_same s g x, rfl⟩

/-- R177: a quantum that is over is marked, or, with no other slot to switch to, starts anew. -/
theorem quantumExpire_eq {d : Die} {i : Clu} (hg : g = cluNo d i) (hfence : fenced s g = false)
    (hvalid : slotValid s g (resSlot s g) = true) (hexp : (slotSt s g).expired = false) (hsw : (slotSt s g).switch = none)
    (hdue : (slotSt s g).start + getF s (R.cpxQuantum d.val) 15 0 * 1000 ≤ nowNs s) :
    quantumExpire d i s = setSlot s g (if (nextSlot s g).isSome then { slotSt s g with expired := true }
      else { slotSt s g with start := nowNs s }) := by
  have hgo : ¬ (fenced s g = true ∨ (!slotValid s g (resSlot s g)) = true ∨ (slotSt s g).expired = true ∨
      (slotSt s g).switch.isSome = true ∨ nowNs s < (slotSt s g).start + getF s (R.cpxQuantum d.val) 15 0 * 1000) := by
    simp only [hfence, hvalid, hexp, hsw, Bool.false_eq_true, Bool.not_true, Option.isSome_none, false_or]
    omega
  simp only [quantumExpire, ← hg, if_neg hgo]
  cases nextSlot s g <;> rfl

/-- R178: once every core stands at a tile boundary the save begins. -/
theorem contextSwitchStart_eq {d : Die} {i : Clu} (hg : g = cluNo d i) (hfence : fenced s g = false)
    (hexp : (slotSt s g).expired = true) (hsw : (slotSt s g).switch = none) (hnext : nextSlot s g = some sl)
    (hcores : ∀ c : Fin 64, atBoundary s ⟨d, i, c⟩ (slotFn s g (resSlot s g)) = true) :
    contextSwitchStart d i s = setSlot s g { slotSt s g with switch := some ⟨sl, true, 0, 0⟩ } := by
  have hall : ((List.finRange 64).all fun c => atBoundary s ⟨d, i, c⟩ (slotFn s g (resSlot s g))) = true :=
    List.all_eq_true.2 fun c _ => hcores c
  have hgo : ¬ (fenced s g = true ∨ (!(slotSt s g).expired) = true ∨ (slotSt s g).switch.isSome = true ∨
      (!(List.finRange 64).all fun c => atBoundary s ⟨d, i, c⟩ (slotFn s g (resSlot s g))) = true) := by
    simp only [hfence, hexp, hsw, hall, Bool.false_eq_true, Bool.not_true, Option.isSome_none, or_self, not_false_iff]
  simp only [contextSwitchStart, ← hg, if_neg hgo, hnext]

/-- Once its blocks are moved a save makes way for the restore. -/
theorem contextSaveDone_eq {d : Die} {i : Clu} {ns : Nat} (hg : g = cluNo d i) (hx : (slotSt s g).switch = some ⟨sl, true, 0, ns⟩)
    (hs : Saving s g sl img imageBlocks (moveBlocks s g)) :
    contextSaveDone d i s = setSlot (moveBlocks s g) g { slotSt s g with switch := some ⟨sl, false, 0, 0⟩ } := by
  obtain ⟨ns', hslot⟩ := hs.slot
  simp only [contextSaveDone, ← hg, hx, hslot, Bool.not_true, Bool.false_eq_true, if_false]

/-- Once its blocks are moved a restore makes its slot resident. -/
theorem contextRestoreDone_eq {d : Die} {i : Clu} {ns : Nat} (hg : g = cluNo d i)
    (hx : (slotSt s g).switch = some ⟨sl, false, 0, ns⟩) (hs : Restoring s g sl img imageBlocks (moveBlocks s g)) :
    contextRestoreDone d i s = newQuantum (setF (moveBlocks s g) (clownOff g + 4) 21 20 sl) g := by
  obtain ⟨ns', hslot⟩ := hs.slot
  simp only [contextRestoreDone, ← hg, hx, hslot, Bool.false_eq_true, if_false]

/-- Copies that go on change the sequencers alone. -/
theorem resumeCopies_eq (s : State) (g fn : Nat) :
    resumeCopies s g fn = { s with comp := { s.comp with seqs := (resumeCopies s g fn).comp.seqs } } := by
  unfold resumeCopies
  generalize seqKeys s = l
  induction l generalizing s with
  | nil => rfl
  | cons x l ih =>
    rw [List.foldl_cons, ih]
    split <;> rfl

/-- A new quantum starts now, and changes nothing else but the sequencers. -/
theorem newQuantum_eq (s : State) (g : Nat) : slotSt (newQuantum s g) g = ⟨nowNs s, false, none⟩ ∧
    newQuantum s g = { s with comp := { s.comp with
      seqs := (newQuantum s g).comp.seqs, slots := (newQuantum s g).comp.slots } } := by
  rw [newQuantum, resumeCopies_eq]
  exact ⟨slotSt_setSlot_same s g _, rfl⟩

/-- The slot that a cluster's owner word names as resident. -/
theorem resSlot_setF (s : State) (g : Nat) (h : sl < 4) : resSlot (setF s (clownOff g + 4) 21 20 sl) g = sl := by
  have hfield : getF (setF s (clownOff g + 4) 21 20 sl) (clownOff g + 4) 21 20 = sl :=
    (getF_setF_same _ _ _ (by decide) (by decide)).trans (Nat.mod_eq_of_lt h)
  have hbits (low high : Nat) : bits (low % 2 ^ 32 + 2 ^ 32 * high) 53 52 = bits high 21 20 := by
    simp only [bits, Nat.shiftRight_eq_div_pow]
    omega
  rw [resSlot, clown, rd64, hbits]
  exact hfield

/-- What a save that is done leaves: the cluster's slot is set in the state that its blocks have made. -/
theorem exec_contextSaveDone {d : Die} {i : Clu} {m : State} {x : SlotSt} (hg : g = cluNo d i)
    (hrow : contextSaveDone d i (unstruck s) = setSlot m g x) :
    ∃ t, exec (.contextSaveDone d ⟨i, Upsets.none⟩) s = .next t ∧ slotSt t g = x ∧
      t.deep = m.deep ∧ t.comp.store = m.comp.store ∧ t.regs = m.regs := by
  have hexec : exec (.contextSaveDone d ⟨i, Upsets.none⟩) s =
      .next (markBusy g s (unstruck (contextSaveDone d i (unstruck s)))) := by rw [hg]; rfl
  rw [hrow, markBusy_eq] at hexec
  exact ⟨_, hexec, slotSt_setSlot_same m g x, rfl, rfl, rfl⟩

/-- What a restore that is done leaves: a new quantum in the state that its blocks have made, with the owner word's RES set. -/
theorem exec_contextRestoreDone {d : Die} {i : Clu} {m : State} (hg : g = cluNo d i) (hsl : sl < 4)
    (hrow : contextRestoreDone d i (unstruck s) = newQuantum (setF m (clownOff g + 4) 21 20 sl) g) :
    ∃ t, exec (.contextRestoreDone d i Upsets.none) s = .next t ∧ slotSt t g = ⟨nowNs m, false, none⟩ ∧ resSlot t g = sl ∧
      t.deep = m.deep ∧ t.comp.store = m.comp.store ∧ sameRegs m t [clownOff g + 4] := by
  have hexec : exec (.contextRestoreDone d i Upsets.none) s =
      .next (markBusy g s (unstruck (contextRestoreDone d i (unstruck s)))) := by rw [hg]; rfl
  obtain ⟨hslot, hquantum⟩ := newQuantum_eq (setF m (clownOff g + 4) 21 20 sl) g
  have hregs : (newQuantum (setF m (clownOff g + 4) 21 20 sl) g).regs = (setF m (clownOff g + 4) 21 20 sl).regs := by
    rw [hquantum]
  have hdeep : (newQuantum (setF m (clownOff g + 4) 21 20 sl) g).deep = m.deep := by
    rw [hquantum]
    rfl
  have hstore : (newQuantum (setF m (clownOff g + 4) 21 20 sl) g).comp.store = m.comp.store := by
    rw [hquantum]
    rfl
  rw [hrow, markBusy_eq] at hexec
  generalize newQuantum (setF m (clownOff g + 4) 21 20 sl) g = q at hexec hslot hregs hdeep hstore
  refine ⟨_, hexec, hslot, ?_, hdeep, hstore, ?_⟩
  · exact (resSlot_congr_regs hregs g).trans (resSlot_setF m g hsl)
  · exact sameRegs_trans (sameRegs_setF m 21 20 sl (by simp)) (sameRegs_of_regs hregs _)

end Sys2Proof.Machine

open Sys2Proof Sys2Proof.Machine

/-- Settles O35: a quantum's end and a switch's start set the cluster's slot alone (`markBusy_setSlot`); a transfer moves its
blocks one by one (`Saving.next`, `Restoring.next`), and each byte of the stores lies in one of them. -/
theorem contextSwitches : Obligations.ContextSwitches := by
  unfold Obligations.ContextSwitches
  intro s d i g hg hfence
  refine ⟨?expire, ?start, ?save, ?restore⟩
  case expire =>
    intro hvalid hexp hsw hdue
    have hexec : exec (.quantumExpire d i) s = .next (markBusy g s (quantumExpire d i s)) := by rw [hg]; rfl
    rw [quantumExpire_eq hg hfence hvalid hexp hsw hdue] at hexec
    exact ⟨_, hexec, markBusy_setSlot s g _⟩
  case start =>
    intro sl hexp hsw hnext hcores
    have hexec : exec (.contextSwitchStart d i) s = .next (markBusy g s (contextSwitchStart d i s)) := by rw [hg]; rfl
    rw [contextSwitchStart_eq hg hfence hexp hsw hnext hcores] at hexec
    exact ⟨_, hexec, markBusy_setSlot s g _⟩
  case save =>
    intro sl ns hx hue himg hmem
    have hregs : (unstruck s).regs = s.regs := rfl
    have hat : imageBase (unstruck s) g (resSlot (unstruck s) g) = imageBase s g (resSlot s g) := by
      rw [resSlot_congr_regs hregs, imageBase_congr_regs hregs]
    have hall := Saving.all (quiet_unstruck hue) hat himg hmem.1 hx
    obtain ⟨t, hexec, hslot, hdeep, hstore, hregs⟩ := exec_contextSaveDone hg (contextSaveDone_eq hg hx hall)
    refine ⟨t, hexec, hslot, fun c hc o ho => ?_, fun o ho => ?_, ?_, hstore.trans hall.store, hregs.trans hall.regs⟩
    · rw [hdeep, Nat.add_assoc]
      exact hall.byte (inImage_local hc ho)
    · rw [hdeep, Nat.add_assoc]
      exact hall.byte (inImage_shared ho)
    · rw [hdeep]
      exact hall.kept
  case restore =>
    intro sl ns hx hsl hue himg hmem
    have hat : imageBase (unstruck s) g sl = imageBase s g sl := imageBase_congr_regs rfl g sl
    have hall := Restoring.all (quiet_unstruck hue) hat himg hmem.2 hx
    obtain ⟨t, hexec, hslot, hres, hdeep, hstore, hregs⟩ := exec_contextRestoreDone hg hsl (contextRestoreDone_eq hg hx hall)
    have hnow : nowNs (moveBlocks (unstruck s) g) = nowNs s := by rw [nowNs, hall.time]; rfl
    refine ⟨t, hexec, by rw [hslot, hnow], hres, fun c hc o ho => ?_, fun o ho => ?_, fun x hx => ?_, hdeep.trans hall.deep,
      sameRegs_trans (sameRegs_of_regs hall.regs _) hregs⟩
    · rw [hstore, Nat.add_assoc]
      exact hall.byte (inImage_local hc ho)
    · rw [hstore, Nat.add_assoc]
      exact hall.byte (inImage_shared ho)
    · rw [hstore]
      exact hall.kept x hx
end

section
/-! PROOFS. Sweeps, scrub slices, re-plans and row copies (06 R239, R240; 16 R593 to R600; 18 R638). -/

namespace Sys2Proof.Machine

variable {s t u : State}

/-! ### Registers -/

/-- The bits of a register that are set stay set. -/
def keepsFlags (s t : State) (off : Nat) : Prop := ∀ i < 32, flag s off i = true → flag t off i = true

theorem keepsFlags_of_rd {off : Nat} (h : rd t off = rd s off) : keepsFlags s t off := fun i _ hi => by
  rwa [flag, h]

theorem keepsFlags_trans {off : Nat} (h₁ : keepsFlags s t off) (h₂ : keepsFlags t u off) : keepsFlags s u off :=
  fun i hi hs => h₂ i hi (h₁ i hi hs)

/-- A bit raised in any register clears no bit. -/
theorem keepsFlags_raise (s : State) (x j off : Nat) : keepsFlags s (raise s x j) off := by
  by_cases hx : off = x
  · subst hx
    intro i hi hs
    rw [raise, flag_setF_same s off 1 le_rfl hi]
    split
    · next hij => rw [show i - j = 0 by omega]; rfl
    · exact hs
  · exact keepsFlags_of_rd (rd_raise_ne s j hx)

/-- A field of a register apart from the one set. -/
theorem getF_setF_apart (s : State) (off : Nat) {hi lo hi' lo' : Nat} (v : Nat) (hl : lo ≤ hi) (hap : hi' < lo ∨ hi < lo')
    (hw : hi' < 32) : getF (setF s off hi lo v) off hi' lo' = getF s off hi' lo' := by
  refine Eq.trans (eq_of_bit_eq fun i => ?_) (bits_setBits_apart (rd s off) v hl hap)
  rw [getF, setF, rd_wr_same, bit_bits, bit_bits, bit_mod_two_pow]
  by_cases hin : i < hi' + 1 - lo'
  · simp [show lo' + i < 32 by omega]
  · simp [hin]

/-- A counter field of a register rises by n and holds at its largest value. -/
theorem getF_bumpF_same (s : State) (off n : Nat) {hi lo : Nat} (hl : lo ≤ hi) (hw : hi < 32) :
    getF (bumpF s off hi lo n) off hi lo = min (2 ^ (hi + 1 - lo) - 1) (getF s off hi lo + n) := by
  have hpos : 0 < 2 ^ (hi + 1 - lo) := by positivity
  rw [bumpF, getF_setF_same s off _ hl hw, satAdd, Nat.mod_eq_of_lt (by omega)]

theorem cluNo_lt (d : Die) (i : Clu) : cluNo d i < 1280 := by
  unfold cluNo
  omega

theorem exists_cluNo {g : Nat} (hg : g < 1280) : ∃ (d : Die) (i : Clu), cluNo d i = g :=
  ⟨⟨g / 160, by omega⟩, ⟨g % 160, by omega⟩, Nat.div_add_mod g 160⟩

/-! ### The arbiter (16 R598, R599) -/

/-- Where nothing runs and nothing is deferred, a request starts at once. -/
theorem requestMaint_idle (hrun : s.power.running = []) (hdef : s.power.deferred = []) (a : Nat × Nat) :
    (requestMaint s a).1 = startActivity s a := by
  simp [requestMaint, hrun, hdef]

/-- A sweep, a re-plan or an eye scan that is requested where nothing runs changes nothing but what runs. -/
theorem requestMaint_idle_runs (hrun : s.power.running = []) (hdef : s.power.deferred = []) {a : Nat × Nat} (h₀ : a.1 ≠ 0)
    (h₄ : a.1 ≠ 4) : (requestMaint s a).1 = { s with power := { s.power with running := [a] } } := by
  rw [requestMaint_idle hrun hdef]
  simp only [startActivity, if_neg h₀, if_neg h₄, hrun, List.nil_append]

theorem startDeferred_none (h : s.power.deferred = []) : startDeferred s = s := by
  rw [startDeferred, h]
  rfl

/-- Where no error stands a scrub slice meets none: the pass goes on with the next slice. -/
theorem Quiet.scrubSlice_eq (h : Quiet s) (d : Nat) :
    scrubSlice s d = { s with deep := { s.deep with
      scrubPos := SMap.setD s.deep.scrubPos d 0 ((SMap.getD s.deep.scrubPos d 0 + 1) % 12288) } } := by
  obtain ⟨-, hue, -⟩ := h.noUe
  have hhits (a : Nat) : deepHits [] a 0x1000000 = [] := rfl
  simp only [scrubSlice, h.meetDeep_eq, hue, hhits, List.drop_nil, List.foldl_nil]

/-- A sweep that falls due is requested, and starts where nothing runs. -/
theorem ageSweep_due (hen : flag s R.pwrAge 31 = true)
    (hdue : s.power.sweepAt + getF s R.pwrAge 7 0 * 3600000000000 ≤ s.time.lamp) (hrun : s.power.running = [])
    (hdef : s.power.deferred = []) :
    ageSweep s = { s with power := { s.power with sweepAt := s.time.lamp, running := [(1, 0)] } } := by
  have hgo : ¬ ((!flag s R.pwrAge 31) = true ∨ s.time.lamp < s.power.sweepAt + getF s R.pwrAge 7 0 * 3600000000000) := by
    rw [hen]
    simpa using hdue
  rw [ageSweep, if_neg hgo]
  exact requestMaint_idle_runs (s := { s with power := { s.power with sweepAt := s.time.lamp } }) (a := (1, 0)) hrun hdef
    (by decide) (by decide)

/-- A scrub slice that is requested where nothing runs and no error stands reads its bytes at once. -/
theorem Quiet.requestMaint_slice (h : Quiet s) (hrun : s.power.running = []) (hdef : s.power.deferred = []) (d : Nat) :
    (requestMaint s (0, d)).1 = { s with
      power := { s.power with running := [(0, d)] }
      deep := { s.deep with
        scrubPos := SMap.setD s.deep.scrubPos d 0 ((SMap.getD s.deep.scrubPos d 0 + 1) % 12288) } } := by
  rw [requestMaint_idle hrun hdef, startActivity]
  simp only [hrun, List.nil_append, if_true]
  exact Quiet.scrubSlice_eq (s := { s with power := { s.power with running := [(0, d)] } }) ⟨h.noUe, h.ups⟩ d

/-- A scrub slice that falls due is requested; its stack's pass has moved on (log 78). -/
theorem Quiet.scrubSliceDue_eq {d : Die} (h : Quiet s) (hen : flag s R.dstScrub 31 = true)
    (hdue : getF s R.dstScrub 7 0 * 3600000000000 ≤ (s.time.lamp - SMap.getD s.power.scrubAt d.val 0) * 12288)
    (hrun : s.power.running = []) (hdef : s.power.deferred = []) :
    scrubSliceDue d s = { s with
      power := { s.power with scrubAt := SMap.setD s.power.scrubAt d.val 0 s.time.lamp, running := [(0, d.val)] }
      deep := { s.deep with
        scrubPos := SMap.setD s.deep.scrubPos d.val 0 ((SMap.getD s.deep.scrubPos d.val 0 + 1) % 12288) } } := by
  have hgo : ¬ ((!flag s R.dstScrub 31) = true ∨
      (s.time.lamp - SMap.getD s.power.scrubAt d.val 0) * 12288 < getF s R.dstScrub 7 0 * 3600000000000) := by
    rw [hen]
    simpa using hdue
  rw [scrubSliceDue, if_neg hgo]
  exact Quiet.requestMaint_slice
    (s := { s with power := { s.power with scrubAt := SMap.setD s.power.scrubAt d.val 0 s.time.lamp } })
    ⟨h.noUe, h.ups⟩ hrun hdef d.val

/-- The state with an activity no longer running. -/
def activityGone (s : State) (a : Nat × Nat) : State :=
  { s with power := { s.power with running := s.power.running.filter (· != a) } }

/-- An activity that runs on a unit ends with its effect. -/
theorem maintenanceEnd_eq {act : Fin 5} {unit : Fin 64} (slow : List (Nat × Nat))
    (hmem : (act.val, unit.val) ∈ s.power.running) (hstop : act.val = 4 → (portOf s unit.val).stopping = none) :
    maintenanceEnd act unit slow s = startDeferred (
      if act.val = 1 then sweepEnds (activityGone s (act.val, unit.val)) slow
      else if act.val = 2 then replan (activityGone s (act.val, unit.val))
      else activityGone s (act.val, unit.val)) := by
  have hgo : ¬ ((!s.power.running.contains (act.val, unit.val)) = true ∨
      (act.val = 4 ∧ (portOf s unit.val).stopping.isSome = true)) := by
    rintro (h | ⟨h, hs⟩)
    · simp [hmem] at h
    · simp [hstop h] at hs
  simp only [maintenanceEnd, if_neg hgo]
  rfl

/-! ### The end of a sweep (16 R593) -/

/-- The state with one island's slowdown recorded. -/
def recordSlow (s : State) (e : Nat × Nat) : State :=
  if e.1 < 1280 then setF s (R.pwrIslm e.1) 23 16 (min 255 e.2) else s

/-- The slowdowns that a sweep measured change nothing but their islands' registers. -/
theorem recordSlows_frame (s : State) (slow : List (Nat × Nat)) :
    slow.foldl recordSlow s = { s with regs := (slow.foldl recordSlow s).regs } ∧
      ∀ off, (∀ g < 1280, off ≠ R.pwrIslm g) → rd (slow.foldl recordSlow s) off = rd s off := by
  induction slow generalizing s with
  | nil => exact ⟨rfl, fun _ _ => rfl⟩
  | cons e slow ih =>
    obtain ⟨hframe, hregs⟩ := ih (recordSlow s e)
    rw [List.foldl_cons]
    by_cases he : e.1 < 1280
    · have hone : recordSlow s e = setF s (R.pwrIslm e.1) 23 16 (min 255 e.2) := if_pos he
      rw [hone] at hframe hregs ⊢
      exact ⟨hframe, fun off hoff => (hregs off hoff).trans (rd_setF_ne s _ _ _ (hoff e.1 he))⟩
    · have hone : recordSlow s e = s := if_neg he
      rw [hone] at hframe hregs ⊢
      exact ⟨hframe, hregs⟩

/-- A sweep's end records the slowdowns, and the re-plan that it requests starts where nothing runs. -/
theorem sweepEnds_eq (hrun : s.power.running = []) (hdef : s.power.deferred = []) (slow : List (Nat × Nat)) :
    sweepEnds s slow =
      { s with regs := (slow.foldl recordSlow s).regs, power := { s.power with running := [(2, 0)] } } := by
  obtain ⟨hframe, -⟩ := recordSlows_frame s slow
  have hpower : (slow.foldl recordSlow s).power = s.power := by rw [hframe]
  have hreq := requestMaint_idle_runs (s := slow.foldl recordSlow s) (by rw [hpower, hrun]) (by rw [hpower, hdef])
    (a := (2, 0)) (by decide) (by decide)
  refine Eq.trans hreq ?_
  rw [hframe]

/-- The one slowdown of a sweep's end is recorded up to 0xFF. -/
theorem getF_recordSlow (s : State) {g : Nat} (hg : g < 1280) (x : Nat) :
    getF (recordSlow s (g, x)) (R.pwrIslm g) 23 16 = min 255 x := by
  rw [recordSlow, if_pos hg, getF_setF_same _ _ _ (by decide) (by decide)]
  omega

/-! ### Records in the boot flash (18 R638) -/

theorem recordWrite_cases (s : State) :
    recordWrite s = (true, (fresh s 1).2) ∨ recordWrite s = (false, raise (fresh s 1).2 R.glbFstat 3) := by
  by_cases h : (fresh s 1).1 = 0
  · exact .inl (if_pos h)
  · exact .inr (if_neg h)

/-- A record's new entry takes a free bit; where its write fails RECERR is set. -/
theorem recordWrite_spec (s : State) :
    (recordWrite s).2 = { s with regs := (recordWrite s).2.regs, freeCtr := s.freeCtr + 1 } ∧
    sameRegs s (recordWrite s).2 [R.glbFstat] ∧ (∀ off, keepsFlags s (recordWrite s).2 off) ∧
    ((recordWrite s).1 = true ∨ (recordWrite s).1 = false ∧ flag (recordWrite s).2 R.glbFstat 3 = true) := by
  rcases recordWrite_cases s with h | h <;> rw [h]
  · exact ⟨rfl, sameRegs_of_regs rfl _, fun off => keepsFlags_of_rd rfl, .inl rfl⟩
  · exact ⟨rfl, sameRegs_setF (fresh s 1).2 3 3 1 (by simp), fun off => keepsFlags_raise (fresh s 1).2 _ _ off,
      .inr ⟨rfl, flag_raise_same _ _ (by decide)⟩⟩

/-- A retirement is counted, and recorded unless RECERR is set. -/
theorem recordRetired_spec (s : State) (r : Res) :
    recordRetired s r = { s with
      regs := (recordRetired s r).regs, freeCtr := s.freeCtr + 1
      flt := { s.flt with record := (recordRetired s r).flt.record } } ∧
    sameRegs s (recordRetired s r) [R.glbCntRetire, R.glbFstat] ∧
    rd (recordRetired s r) R.glbCntRetire = min (2 ^ 32 - 1) (rd s R.glbCntRetire % 2 ^ 32 + 1) ∧
    keepsFlags s (recordRetired s r) R.glbFstat ∧
    (r ∈ (recordRetired s r).flt.record ∨ flag (recordRetired s r) R.glbFstat 3 = true) := by
  have hne : R.glbCntRetire ≠ R.glbFstat := by decide
  obtain ⟨hframe, hsame, hkeep, hrec⟩ := recordWrite_spec (raise (bump s R.glbCntRetire 1) R.glbFstat 1)
  unfold recordRetired
  generalize recordWrite (raise (bump s R.glbCntRetire 1) R.glbFstat 1) = w at hframe hsame hkeep hrec ⊢
  simp only []
  refine ⟨?frame, ?same, ?count, ?flags, ?recorded⟩
  case frame =>
    rw [hframe]
    rfl
  case same =>
    have hbump : sameRegs s (bump s R.glbCntRetire 1) [R.glbCntRetire, R.glbFstat] := sameRegs_setF s _ _ _ (by simp)
    have hraise : sameRegs (bump s R.glbCntRetire 1) (raise (bump s R.glbCntRetire 1) R.glbFstat 1)
        [R.glbCntRetire, R.glbFstat] := sameRegs_setF _ _ _ _ (by simp)
    exact sameRegs_trans (sameRegs_trans hbump hraise) (sameRegs_mono hsame (by simp))
  case count =>
    exact (hsame _ (by simpa using hne)).trans ((rd_raise_ne _ 1 hne).trans (rd_bump_same s _ 1))
  case flags =>
    exact keepsFlags_trans (keepsFlags_of_rd (rd_bump_ne s 1 hne.symm))
      (keepsFlags_trans (keepsFlags_raise _ _ 1 _) (hkeep R.glbFstat))
  case recorded =>
    refine hrec.imp (fun hw => ?_) fun hw => hw.2
    by_cases hr : r ∈ w.2.flt.record <;> simp [hw, hr]

/-! ### The re-plan (16 R594, R595) -/

/-- MARGIN of an island after a re-plan: what its slowdown asks for, never less than before (R594). -/
def marginAfter (s : State) (g : Nat) : Nat :=
  max (getF s (R.pwrIsl g) 27 24) (marginFor (getF s (R.pwrIslm g) 23 16) (getF s R.pwrAge 23 16))

/-- FMAX of an island after a re-plan: what its slowdown leaves of the fused one, never more than before (R594). -/
def fmaxAfter (s : State) (g : Nat) : Nat :=
  min (getF s (R.pwrIsl g) 20 16)
    ((Config.fmax g).toNat - fmaxDrop (getF s (R.pwrIslm g) 23 16) (getF s R.pwrAge 23 16))

theorem getF_lt (s : State) (off hi lo : Nat) : getF s off hi lo < 2 ^ (hi + 1 - lo) := Nat.mod_lt _ (by positivity)

theorem marginFor_le (slow sens : Nat) : marginFor slow sens ≤ 12 := by
  unfold marginFor
  split
  · split <;> omega
  · exact min_le_left _ _

theorem marginAfter_lt (s : State) (g : Nat) : marginAfter s g < 16 :=
  max_lt (getF_lt s (R.pwrIsl g) 27 24) ((marginFor_le _ _).trans_lt (by decide))

theorem fmaxAfter_lt (s : State) (g : Nat) : fmaxAfter s g < 32 :=
  (min_le_left _ _).trans_lt (getF_lt s (R.pwrIsl g) 20 16)

/-- An island's steps after a re-plan are set by three registers. -/
theorem after_congr {g : Nat} (hisl : rd t (R.pwrIsl g) = rd s (R.pwrIsl g)) (hslow : rd t (R.pwrIslm g) = rd s (R.pwrIslm g))
    (hage : rd t R.pwrAge = rd s R.pwrAge) : marginAfter t g = marginAfter s g ∧ fmaxAfter t g = fmaxAfter s g := by
  simp only [marginAfter, fmaxAfter, getF, hisl, hslow, hage, and_self]

/-- An island's steps in t are those after a re-plan in s; where FMAX falls its two bits of `PWR_STAT` are set. -/
structure Replanned (s t : State) (g : Nat) : Prop where
  margin : getF t (R.pwrIsl g) 27 24 = marginAfter s g
  fmax : getF t (R.pwrIsl g) 20 16 = fmaxAfter s g
  stat : getF t (R.pwrIsl g) 20 16 < getF s (R.pwrIsl g) 20 16 → flag t R.pwrStat 5 = true ∧ flag t R.pwrStat 6 = true

/-- The registers that a re-plan of some islands may change. -/
def replanRegs (gs : List Nat) : List Nat := R.pwrStat :: R.glbFstat :: gs.map R.pwrIsl

/-- A re-plan of some islands, and what it leaves. -/
structure Replans (s : State) (gs : List Nat) (t : State) : Prop where
  frame : t = { s with
    regs := t.regs, power := { s.power with ages := t.power.ages }, freeCtr := t.freeCtr }
  same : sameRegs s t (replanRegs gs)
  flags : keepsFlags s t R.pwrStat
  island : ∀ g ∈ gs, Replanned s t g

theorem replanRegs_subset {gs hs : List Nat} (h : gs ⊆ hs) : replanRegs gs ⊆ replanRegs hs :=
  List.cons_subset_cons _ (List.cons_subset_cons _ (List.map_subset _ h))

theorem pwrIsl_notMem_replanRegs {g : Nat} {gs : List Nat} (hg : g ∉ gs) : R.pwrIsl g ∉ replanRegs gs := by
  unfold replanRegs R.pwrStat R.glbFstat R.pwrIsl
  simp only [List.mem_cons, List.mem_map, not_or, not_exists, not_and]
  refine ⟨by omega, by omega, fun x hx he => hg ?_⟩
  rwa [show g = x by omega]

theorem pwrIslm_notMem_replanRegs {gs : List Nat} (hgs : ∀ g ∈ gs, g < 1280) (g : Nat) : R.pwrIslm g ∉ replanRegs gs := by
  unfold replanRegs R.pwrStat R.glbFstat R.pwrIsl R.pwrIslm
  simp only [List.mem_cons, List.mem_map, not_or, not_exists, not_and]
  refine ⟨by omega, by omega, fun x hx he => ?_⟩
  have := hgs x hx
  omega

theorem pwrAge_notMem_replanRegs (gs : List Nat) : R.pwrAge ∉ replanRegs gs := by
  unfold replanRegs R.pwrStat R.glbFstat R.pwrIsl R.pwrAge
  simp only [List.mem_cons, List.mem_map, not_or, not_exists, not_and]
  exact ⟨by omega, by omega, fun x _ => by omega⟩

/-- The state with MARGIN and FMAX of an island set. -/
def setSteps (s : State) (g m f : Nat) : State := setF (setF s (R.pwrIsl g) 27 24 m) (R.pwrIsl g) 20 16 f

theorem getF_setSteps_margin (s : State) (g f : Nat) {m : Nat} (hm : m < 16) :
    getF (setSteps s g m f) (R.pwrIsl g) 27 24 = m := by
  rw [setSteps, getF_setF_apart _ _ _ (by decide) (by decide) (by decide), getF_setF_same _ _ _ (by decide) (by decide)]
  exact Nat.mod_eq_of_lt hm

theorem getF_setSteps_fmax (s : State) (g m : Nat) {f : Nat} (hf : f < 32) :
    getF (setSteps s g m f) (R.pwrIsl g) 20 16 = f := by
  rw [setSteps, getF_setF_same _ _ _ (by decide) (by decide)]
  exact Nat.mod_eq_of_lt hf

/-- The state with a change of an island's steps recorded at this time, where the record's write succeeds (R595). -/
def ageRecorded (s : State) (x : AgeRec) : State :=
  let w := recordWrite s
  { w.2 with power := { w.2.power with
    ages := if w.1 then w.2.power.ages ++ [{ x with time := nowNs w.2 }] else w.2.power.ages } }

theorem ageRecorded_spec (s : State) (x : AgeRec) :
    ageRecorded s x = { s with
      regs := (ageRecorded s x).regs, power := { s.power with ages := (ageRecorded s x).power.ages }
      freeCtr := s.freeCtr + 1 } ∧
    sameRegs s (ageRecorded s x) [R.glbFstat] ∧ ∀ off, keepsFlags s (ageRecorded s x) off := by
  obtain ⟨hframe, hsame, hkeep, -⟩ := recordWrite_spec s
  unfold ageRecorded
  generalize recordWrite s = w at hframe hsame hkeep ⊢
  simp only []
  refine ⟨?_, hsame, hkeep⟩
  rw [hframe]

/-- What follows once an island's steps are set: the change is recorded, and `PWR_STAT` shows it. -/
def noteSteps (s : State) (x : AgeRec) : State :=
  let s := raise (ageRecorded s x) R.pwrStat 5
  if x.fmax < x.oldFmax then raise s R.pwrStat 6 else s

theorem noteSteps_spec (s : State) (x : AgeRec) :
    noteSteps s x = { s with
      regs := (noteSteps s x).regs, power := { s.power with ages := (noteSteps s x).power.ages }
      freeCtr := (noteSteps s x).freeCtr } ∧
    sameRegs s (noteSteps s x) [R.pwrStat, R.glbFstat] ∧ keepsFlags s (noteSteps s x) R.pwrStat ∧
    (x.fmax < x.oldFmax → flag (noteSteps s x) R.pwrStat 5 = true ∧ flag (noteSteps s x) R.pwrStat 6 = true) := by
  obtain ⟨hframe, hsame, hkeep⟩ := ageRecorded_spec s x
  unfold noteSteps
  generalize ageRecorded s x = m at hframe hsame hkeep ⊢
  simp only []
  have h5 : sameRegs s (raise m R.pwrStat 5) [R.pwrStat, R.glbFstat] :=
    sameRegs_trans (sameRegs_mono hsame (by simp)) (sameRegs_setF m 5 5 1 (by simp))
  have hk5 : keepsFlags s (raise m R.pwrStat 5) R.pwrStat := keepsFlags_trans (hkeep _) (keepsFlags_raise m _ _ _)
  have hf5 : flag (raise m R.pwrStat 5) R.pwrStat 5 = true := flag_raise_same m _ (by decide)
  have hk6 := keepsFlags_raise (raise m R.pwrStat 5) R.pwrStat 6 R.pwrStat
  by_cases hx : x.fmax < x.oldFmax
  · rw [if_pos hx]
    refine ⟨?_, sameRegs_trans h5 (sameRegs_setF _ 6 6 1 (by simp)), keepsFlags_trans hk5 hk6, fun _ =>
      ⟨hk6 5 (by decide) hf5, flag_raise_same _ _ (by decide)⟩⟩
    rw [hframe]
    rfl
  · rw [if_neg hx]
    refine ⟨?_, h5, hk5, fun h => absurd h hx⟩
    rw [hframe]
    rfl

/-- What the re-plan of an island whose steps change notes of them. -/
def stepsNote (s : State) (g : Nat) : AgeRec :=
  ⟨0, g, getF s (R.pwrIsl g) 27 24, getF s (R.pwrIsl g) 20 16, marginAfter s g, fmaxAfter s g⟩

theorem replanIsland_same {g : Nat}
    (h : marginAfter s g = getF s (R.pwrIsl g) 27 24 ∧ fmaxAfter s g = getF s (R.pwrIsl g) 20 16) : replanIsland s g = s :=
  if_pos h

theorem replanIsland_change {g : Nat}
    (h : ¬ (marginAfter s g = getF s (R.pwrIsl g) 27 24 ∧ fmaxAfter s g = getF s (R.pwrIsl g) 20 16)) :
    replanIsland s g = noteSteps (setSteps s g (marginAfter s g) (fmaxAfter s g)) (stepsNote s g) :=
  if_neg h

/-- The re-plan of one island. -/
theorem replans_island (s : State) (g : Nat) : Replans s [g] (replanIsland s g) := by
  by_cases h : marginAfter s g = getF s (R.pwrIsl g) 27 24 ∧ fmaxAfter s g = getF s (R.pwrIsl g) 20 16
  · rw [replanIsland_same h]
    refine ⟨rfl, sameRegs_refl _ _, keepsFlags_of_rd rfl, fun x hx => ?_⟩
    obtain rfl := List.mem_singleton.1 hx
    exact ⟨h.1.symm, h.2.symm, fun hlt => absurd hlt (lt_irrefl _)⟩
  · rw [replanIsland_change h]
    obtain ⟨hframe, hregs, hflags, hstat⟩ :=
      noteSteps_spec (setSteps s g (marginAfter s g) (fmaxAfter s g)) (stepsNote s g)
    generalize noteSteps (setSteps s g (marginAfter s g) (fmaxAfter s g)) (stepsNote s g) = t at *
    have hword := hregs (R.pwrIsl g) (pwrIsl_notMem_replanRegs (gs := []) (by simp))
    have hfmax : getF t (R.pwrIsl g) 20 16 = fmaxAfter s g := by
      rw [getF, hword]
      exact getF_setSteps_fmax s g _ (fmaxAfter_lt s g)
    have hstatne : R.pwrStat ≠ R.pwrIsl g := by unfold R.pwrStat R.pwrIsl; omega
    refine ⟨hframe, ?same, ?flags, fun x hx => ?island⟩
    case same =>
      have hsteps : sameRegs s (setSteps s g (marginAfter s g) (fmaxAfter s g)) (replanRegs [g]) :=
        sameRegs_trans (sameRegs_setF s _ _ _ (by simp [replanRegs])) (sameRegs_setF _ _ _ _ (by simp [replanRegs]))
      exact sameRegs_trans hsteps (sameRegs_mono hregs (by simp [replanRegs]))
    case flags =>
      exact keepsFlags_trans (keepsFlags_of_rd ((rd_setF_ne _ _ _ _ hstatne).trans (rd_setF_ne _ _ _ _ hstatne))) hflags
    case island =>
      obtain rfl := List.mem_singleton.1 hx
      refine ⟨?_, hfmax, fun hlt => hstat (hfmax.symm.trans_lt hlt)⟩
      rw [getF, hword]
      exact getF_setSteps_margin s x _ (marginAfter_lt s x)

/-- The re-plans of one island and of others apart from it, one after the other. -/
theorem Replans.cons {g : Nat} {gs : List Nat} (h : Replans s [g] t) (hs : Replans t gs u) (hg : g ∉ gs)
    (hlt : ∀ x ∈ g :: gs, x < 1280) : Replans s (g :: gs) u where
  frame := by
    rw [hs.frame, h.frame]
  same := sameRegs_trans (sameRegs_mono h.same (replanRegs_subset (by simp)))
    (sameRegs_mono hs.same (replanRegs_subset (List.subset_cons_self g gs)))
  flags := keepsFlags_trans h.flags hs.flags
  island x hx := by
    have hone : ∀ y ∈ [g], y < 1280 := fun y hy => hlt y (by simp_all)
    rcases List.mem_cons.1 hx with rfl | hx
    · obtain ⟨hmargin, hfmax, hstat⟩ := h.island x (by simp)
      have hword : rd u (R.pwrIsl x) = rd t (R.pwrIsl x) := hs.same _ (pwrIsl_notMem_replanRegs hg)
      have hfield (hi lo : Nat) : getF u (R.pwrIsl x) hi lo = getF t (R.pwrIsl x) hi lo := by
        rw [getF, hword]
        rfl
      refine ⟨(hfield _ _).trans hmargin, (hfield _ _).trans hfmax, fun hfall => ?_⟩
      rw [hfield] at hfall
      obtain ⟨h5, h6⟩ := hstat hfall
      exact ⟨hs.flags 5 (by decide) h5, hs.flags 6 (by decide) h6⟩
    · have hne : x ∉ [g] := fun hxg => hg (List.mem_singleton.1 hxg ▸ hx)
      have hisl := h.same _ (pwrIsl_notMem_replanRegs hne)
      obtain ⟨hm, hf⟩ := after_congr hisl (h.same _ (pwrIslm_notMem_replanRegs hone x))
        (h.same _ (pwrAge_notMem_replanRegs [g]))
      obtain ⟨hmargin, hfmax, hstat⟩ := hs.island x hx
      rw [getF, getF, hisl] at hstat
      exact ⟨hmargin.trans hm, hfmax.trans hf, hstat⟩

/-- The re-plan of several islands, each once. -/
theorem replans_foldl {gs : List Nat} (hgs : gs.Nodup) (hlt : ∀ g ∈ gs, g < 1280) (s : State) :
    Replans s gs (gs.foldl replanIsland s) := by
  induction gs generalizing s with
  | nil => exact ⟨rfl, sameRegs_refl _ _, keepsFlags_of_rd rfl, fun _ h => absurd h List.not_mem_nil⟩
  | cons g gs ih =>
    obtain ⟨hg, hgs⟩ := List.nodup_cons.1 hgs
    exact (replans_island s g).cons (ih hgs (fun x hx => hlt x (by simp [hx])) _) hg hlt

/-- A re-plan sets the rails for the steps of every island. -/
theorem replan_spec (s : State) : ∃ m, Replans s (List.range 1280) m ∧ replan s = setRails m :=
  ⟨_, replans_foldl List.nodup_range (fun _ => List.mem_range.1) s, rfl⟩

/-! ### The end of a row copy (06 R239, R240) -/

/-- The state with the mapping of a row switched to its spare, as the n-th copy ends, and the entry for the next boot
written. -/
def rowSwitched (s : State) (n : Nat) (c : RowCopy) : State :=
  let w := recordWrite s
  { w.2 with
    deep := { w.2.deep with
      copies := w.2.deep.copies.eraseIdx n, rowMap := w.2.deep.rowMap ++ [(c.row, c.spare)]
      rowLog := if w.1 then w.2.deep.rowLog ++ [(c.row, c.spare)] else w.2.deep.rowLog }
    flt := { w.2.flt with retiring := w.2.flt.retiring.filter (· != .row c.row) } }

theorem rowSpareCopyDone_eq {n : Nat} {c : RowCopy} (h : s.deep.copies[n]? = some c) :
    rowSpareCopyDone n s =
      recordRetired (bumpF (rowSwitched s n c) (R.dstSpare (rowStack c.row)) 15 0 1) (.row c.row) := by
  simp only [rowSpareCopyDone, h]
  rfl

theorem rowSwitched_spec (s : State) (n : Nat) (c : RowCopy) :
    rowSwitched s n c = { s with
      regs := (rowSwitched s n c).regs, freeCtr := s.freeCtr + 1
      deep := { s.deep with
        copies := s.deep.copies.eraseIdx n, rowMap := s.deep.rowMap ++ [(c.row, c.spare)]
        rowLog := (rowSwitched s n c).deep.rowLog }
      flt := { s.flt with retiring := s.flt.retiring.filter (· != .row c.row) } } ∧
    sameRegs s (rowSwitched s n c) [R.glbFstat] ∧
    ((rowSwitched s n c).deep.rowLog = s.deep.rowLog ++ [(c.row, c.spare)] ∨
      (rowSwitched s n c).deep.rowLog = s.deep.rowLog ∧ flag (rowSwitched s n c) R.glbFstat 3 = true) := by
  obtain ⟨hframe, hsame, -, hrec⟩ := recordWrite_spec s
  unfold rowSwitched
  generalize recordWrite s = w at hframe hsame hrec ⊢
  simp only []
  have hlog : w.2.deep.rowLog = s.deep.rowLog := by rw [hframe]
  refine ⟨?_, hsame, ?_⟩
  · rw [hframe]
  · rcases hrec with hw | ⟨hw, hflag⟩
    · rw [hw, hlog]
      exact .inl rfl
    · rw [hw, hlog]
      exact .inr ⟨rfl, hflag⟩

theorem dstSpare_ne (d : Nat) : R.dstSpare d ≠ R.glbFstat ∧ R.dstSpare d ≠ R.glbCntRetire := by
  unfold R.dstSpare R.glbFstat R.glbCntRetire
  omega

/-! ### The rows -/

/-- A sweep that ends where it alone runs leaves its re-plan running. -/
theorem maintenanceEnd_sweep (hrun : s.power.running = [(1, 0)]) (hdef : s.power.deferred = []) (slow : List (Nat × Nat)) :
    maintenanceEnd 1 0 slow s = { s with
      regs := (slow.foldl recordSlow (activityGone s (1, 0))).regs
      power := { s.power with running := [(2, 0)] } } := by
  have hgone : (activityGone s (1, 0)).power.running = [] := by simp [activityGone, hrun]
  have hend : maintenanceEnd 1 0 slow s = startDeferred (sweepEnds (activityGone s (1, 0)) slow) :=
    maintenanceEnd_eq slow (by simp [hrun]) fun h => absurd h (by decide)
  have hsweep := sweepEnds_eq hgone hdef slow
  rw [hend, hsweep]
  exact startDeferred_none hdef

/-- A re-plan that ends where it alone runs. -/
theorem maintenanceEnd_replan (hrun : s.power.running = [(2, 0)]) (hdef : s.power.deferred = []) (slow : List (Nat × Nat)) :
    ∃ m, Replans (activityGone s (2, 0)) (List.range 1280) m ∧ maintenanceEnd 2 0 slow s = setRails m := by
  obtain ⟨m, hm, hreplan⟩ := replan_spec (activityGone s (2, 0))
  have hend := maintenanceEnd_eq (s := s) (act := 2) (unit := 0) slow (by simp [hrun]) fun h => absurd h (by decide)
  rw [if_neg (by decide), if_pos (by decide)] at hend
  have hdefer : (setRails m).power.deferred = [] := by
    rw [setRails, hm.frame]
    exact hdef
  refine ⟨m, hm, hend.trans ?_⟩
  rw [← startDeferred_none hdefer, ← hreplan]
  rfl

end Sys2Proof.Machine

open Sys2Proof Sys2Proof.Machine

/-- Settles O57: where nothing else runs a request starts at once (`requestMaint_idle`); a re-plan goes over the islands one by
one, each of which changes its own register and `PWR_STAT` (`replans_island`, `Replans.cons`); and a record whose write
fails leaves RECERR set (`recordWrite_spec`). -/
theorem maintenance : Obligations.Maintenance := by
  unfold Obligations.Maintenance
  refine ⟨?sweep, ?slice, ?sweepEnd, ?replanEnd, ?otherEnd, ?rowCopy⟩
  case sweep =>
    intro s hen hdue hrun hdef
    exact congrArg Host.Outcome.next (ageSweep_due hen hdue hrun hdef)
  case slice =>
    intro s d hen hdue hrun hdef hue
    have hexec : exec (.scrubSliceDue d Upsets.none) s = .next (unstruck (scrubSliceDue d (unstruck s))) := rfl
    rw [(quiet_unstruck hue).scrubSliceDue_eq hen hdue hrun hdef] at hexec
    exact ⟨_, hexec, rfl, SMap.getD_setD_same _ _ _ _, SMap.getD_setD_same _ _ _ _, rfl⟩
  case sweepEnd =>
    intro s slow hrun hdef
    have hexec : exec (.maintenanceEnd 1 0 slow Upsets.none) s = .next (unstruck (maintenanceEnd 1 0 slow (unstruck s))) := rfl
    rw [maintenanceEnd_sweep (s := unstruck s) hrun hdef] at hexec
    obtain ⟨-, hregs⟩ := recordSlows_frame (activityGone (unstruck s) (1, 0)) slow
    refine ⟨_, hexec, rfl, fun g x hg hslow => ?_, rfl, fun off hoff => hregs off fun g hg => ?_⟩
    · subst hslow
      exact getF_recordSlow _ hg x
    · obtain ⟨d, i, rfl⟩ := exists_cluNo hg
      exact hoff d i
  case replanEnd =>
    intro s slow hrun hdef
    have hexec : exec (.maintenanceEnd 2 0 slow Upsets.none) s = .next (unstruck (maintenanceEnd 2 0 slow (unstruck s))) := rfl
    obtain ⟨m, hm, hend⟩ := maintenanceEnd_replan (s := unstruck s) hrun hdef slow
    rw [hend] at hexec
    have hgone : (activityGone (unstruck s) (2, 0)).power.running = [] := by simp [activityGone, unstruck, hrun]
    refine ⟨_, hexec, ?_, fun d i => ?_, ?_⟩
    · have hpower : m.power.running = [] := by rw [hm.frame, ← hgone]
      exact hpower
    · obtain ⟨hmargin, hfmax, hstat⟩ := hm.island (cluNo d i) (List.mem_range.2 (cluNo_lt d i))
      exact ⟨hmargin, hfmax, hstat⟩
    · rw [hm.frame]
      rfl
  case otherEnd =>
    intro s act unit slow h₁ h₂ hmem hstop hdef
    have hend := maintenanceEnd_eq (s := unstruck s) slow hmem hstop
    rw [if_neg h₁, if_neg h₂, startDeferred_none (by exact hdef)] at hend
    exact congrArg (fun t => Host.Outcome.next (unstruck t)) hend
  case rowCopy =>
    intro s n c hcopy _
    have hexec : exec (.rowSpareCopyDone n) s = .next (rowSpareCopyDone n s) := rfl
    obtain ⟨hstat, hcnt⟩ := dstSpare_ne (rowStack c.row)
    obtain ⟨hswitch, hswitchRegs, hlog⟩ := rowSwitched_spec s n c
    rw [rowSpareCopyDone_eq hcopy] at hexec
    generalize rowSwitched s n c = m at hexec hswitch hswitchRegs hlog
    have hspare := getF_bumpF_same m (R.dstSpare (rowStack c.row)) 1 (hi := 15) (lo := 0) (by decide) (by decide)
    have hbump : sameRegs m (bumpF m (R.dstSpare (rowStack c.row)) 15 0 1) [R.dstSpare (rowStack c.row)] :=
      sameRegs_setF m _ _ _ (by simp)
    obtain ⟨hretire, hretireRegs, hcount, hflags, hrecord⟩ :=
      recordRetired_spec (bumpF m (R.dstSpare (rowStack c.row)) 15 0 1) (.row c.row)
    generalize recordRetired (bumpF m (R.dstSpare (rowStack c.row)) 15 0 1) (.row c.row) = t at *
    have hdeep : t.deep = m.deep := by
      rw [hretire]
      rfl
    have hrowMap : m.deep.rowMap = s.deep.rowMap ++ [(c.row, c.spare)] := by rw [hswitch]
    have hcopies : m.deep.copies = s.deep.copies.eraseIdx n := by rw [hswitch]
    have hmem : m.deep.mem = s.deep.mem := by rw [hswitch]
    have hretiring : t.flt.retiring = s.flt.retiring.filter (· != .row c.row) := by rw [hretire, bumpF_flt, hswitch]
    have hrecerr (h : flag m R.glbFstat 3 = true) : flag t R.glbFstat 3 = true :=
      hflags 3 (by decide) (keepsFlags_of_rd (hbump _ (by simpa using hstat.symm)) 3 (by decide) h)
    refine ⟨t, hexec, ?rowMap, ?rowLog, ?copies, ?retiring, hrecord, ?spare, ?count, ?mem, ?frame, ?same⟩
    case rowMap => rw [hdeep, hrowMap]
    case rowLog =>
      rw [hdeep]
      exact hlog.imp_right fun ⟨h, hfail⟩ => ⟨h, hrecerr hfail⟩
    case copies => rw [hdeep, hcopies]
    case retiring => simp [hretiring]
    case spare =>
      rw [getF, hretireRegs _ (by simp [hstat, hcnt])]
      refine hspare.trans ?_
      rw [getF, hswitchRegs _ (by simpa using hstat)]
      rfl
    case count =>
      rw [hcount, hbump _ (by simpa using hcnt.symm), hswitchRegs _ (by decide)]
    case mem => rw [hdeep, hmem]
    case frame =>
      rw [hretire, hswitch]
      rfl
    case same =>
      exact sameRegs_trans (sameRegs_mono hswitchRegs (by simp))
        (sameRegs_trans (sameRegs_mono hbump (by simp)) (sameRegs_mono hretireRegs (by simp)))
end

section
/-! PROOFS. What the door's refusals and the flip of the fabric's banks change (07 R269, R270, R295 to R297, R660), and the
statements of the epoch. -/

namespace Sys2Proof.Machine

variable {s t : State}

/-! ### The write of a one-word register -/

theorem dropHeld_eq (s : State) (base : Nat) : dropHeld s base = { s with held := (dropHeld s base).held } := by
  unfold dropHeld
  (repeat' split) <;> rfl

/-- The write of a register of one word hands the word that its fields take to the register's own rules. -/
theorem bar0Write_word {off w : Nat} {r : RegRow} (adm : Bool) (v : Nat) (hr : regAt off = some (r, w)) (hw : r.words = 1) :
    bar0Write adm off v s =
      write32 (closedTo s adm) (dropHeld s off) off v (RegRow.write r w (closedTo s adm) (rd s off) v) := by
  have hrd : rd (dropHeld s off) off = rd s off := by rw [rd, dropHeld_regs]; rfl
  simp only [bar0Write, hr, hw, if_true, hrd]

theorem getF_congr_rd {off : Nat} (h : rd t off = rd s off) (hi lo : Nat) : getF t off hi lo = getF s off hi lo := by
  rw [getF, getF, h]

theorem flag_congr_rd {off : Nat} (h : rd t off = rd s off) (i : Nat) : flag t off i = flag s off i := by
  rw [flag, flag, h]

/-! ### Refusals at the door -/

/-- The counter of a check of the door (Table FAB-6). -/
def doorCounter (chk : Nat) : Nat :=
  if chk = 0 then R.fabCntEcrc else if chk = 1 then R.fabCntMalform else if chk = 2 then R.fabCntEpoch
  else if chk = 3 then R.fabCntHops else R.fabCntNoroute

/-- The bit of `FAB_STAT` of a check of the door. -/
def doorFlag (chk : Nat) : Nat := if chk = 3 then 4 else if chk = 4 then 3 else chk

theorem doorCount_eq (s : State) (chk : Nat) :
    doorCount s chk = raise (bump s (doorCounter chk) 1) R.fabStat (doorFlag chk) := rfl

theorem doorCounter_mem (chk : Nat) :
    doorCounter chk ∈ [R.fabCntEcrc, R.fabCntMalform, R.fabCntEpoch, R.fabCntHops, R.fabCntNoroute] := by
  unfold doorCounter
  (repeat' split) <;> simp

theorem sameRegs_raise (s : State) {off : Nat} (i : Nat) {offs : List Nat} (h : off ∈ offs) : sameRegs s (raise s off i) offs :=
  sameRegs_wr _ _ h

theorem sameRegs_bump (s : State) {off : Nat} (n : Nat) {offs : List Nat} (h : off ∈ offs) : sameRegs s (bump s off n) offs :=
  sameRegs_wr _ _ h

/-- A refusal changes its check's counter and `FAB_STAT`. -/
theorem sameRegs_doorCount (s : State) (chk : Nat) {offs : List Nat} (hcnt : doorCounter chk ∈ offs) (hstat : R.fabStat ∈ offs) :
    sameRegs s (doorCount s chk) offs := by
  rw [doorCount_eq]
  exact sameRegs_trans (sameRegs_bump s 1 hcnt) (sameRegs_raise _ _ hstat)

/-- A refusal sets the flag of its check. -/
theorem flag_doorCount (s : State) {chk : Nat} (h : chk < 5) : flag (doorCount s chk) R.fabStat (doorFlag chk) = true := by
  rw [doorCount_eq]
  refine flag_raise_same _ _ ?_
  unfold doorFlag
  (repeat' split) <;> omega

/-- A refusal is counted once. -/
theorem rd_doorCount (s : State) (chk : Nat) :
    rd (doorCount s chk) (doorCounter chk) = min (2 ^ 32 - 1) (rd s (doorCounter chk) % 2 ^ 32 + 1) := by
  have hne : doorCounter chk ≠ R.fabStat := by
    intro h
    have hmem := doorCounter_mem chk
    rw [h] at hmem
    exact absurd hmem (by decide)
  rw [doorCount_eq, rd_raise_ne _ _ hne, rd_bump_same]

/-! ### Frames that are judged again at a flip (R660) -/

/-- The registers in which a refusal at the door, with the stop of its sender, shows. -/
def refusalRegs : List Nat :=
  [R.fabCntEcrc, R.fabCntMalform, R.fabCntEpoch, R.fabCntHops, R.fabCntNoroute, R.fabStat, R.milStat, R.milTrap, R.milTrap + 4]

theorem sameRegs_foldl {α : Type} {f : State → α → State} {offs : List Nat} (hf : ∀ s a, sameRegs s (f s a) offs) (l : List α)
    (s : State) : sameRegs s (l.foldl f s) offs := by
  induction l generalizing s with
  | nil => exact sameRegs_refl s offs
  | cons a l ih => exact sameRegs_trans (hf s a) (ih _)

theorem sameRegs_faultBell (s : State) (cause unit job : Nat) (offs : List Nat) : sameRegs s (faultBell s cause unit job) offs := by
  refine sameRegs_trans (sameRegs_of_regs (sendBell_regs _ _ _ _ _ _ _ _) offs) (sameRegs_foldl (fun t fn => ?_) _ _)
  split
  · exact sameRegs_of_regs (sendBell_regs _ _ _ _ _ _ _ _) offs
  · exact sameRegs_refl t offs

/-- The state with a stream trapped and its handler stopped. -/
def streamStopped (s : State) (m n code pc : Nat) : State :=
  let x := setStream s m n { streamOf s m n with state := 2, trap := code, tpc := pc }
  match (millOf x m).run with
  | some h => if h.stream = n then setMill x m { millOf x m with run := none } else x
  | none => x

theorem trapStream_eq (s : State) (m n code pc : Nat) :
    trapStream s m n code pc =
      if flag (raise (streamStopped s m n code pc) R.milStat 1) (R.milTrap + 4) 31 then
        raise (streamStopped s m n code pc) R.milStat 1
      else wr64 (raise (streamStopped s m n code pc) R.milStat 1) R.milTrap
        (2 ^ 63 + 2 ^ 44 * m + 2 ^ 36 * n + 2 ^ 24 * code + 2 ^ 12 * pc + (streamOf s m n).job) := rfl

theorem streamStopped_regs (s : State) (m n code pc : Nat) : (streamStopped s m n code pc).regs = s.regs := by
  unfold streamStopped
  dsimp only
  (repeat' split) <;> rfl

/-- A trap shows in `MIL_STAT`, and in `MIL_TRAP` where none stands there. -/
theorem sameRegs_trapStream (s : State) (m n code pc : Nat) :
    sameRegs s (trapStream s m n code pc) [R.milStat, R.milTrap, R.milTrap + 4] := by
  have hraise : sameRegs s (raise (streamStopped s m n code pc) R.milStat 1) [R.milStat, R.milTrap, R.milTrap + 4] :=
    sameRegs_trans (sameRegs_of_regs (streamStopped_regs s m n code pc) _) (sameRegs_raise _ 1 (by simp))
  rw [trapStream_eq]
  split
  · exact hraise
  · exact sameRegs_trans hraise (sameRegs_mono (sameRegs_wr64 _ _ _) (by simp))

theorem stopLaunch_regs (s : State) (core fn launch status : Nat) : (stopLaunch s core fn launch status).regs = s.regs := by
  have hstop : (stopList s core fn status).regs = s.regs := by
    unfold stopList
    split
    · rfl
    · rw [endList_frame]
  unfold stopLaunch
  (repeat' split) <;> simp only [hstop]

/-- The stop of a refused frame's sender shows in a trap's registers alone. -/
theorem sameRegs_stopSender (s : State) (o : Origin) : sameRegs s (stopSender s o) refusalRegs := by
  cases o with
  | core no fn l c => exact sameRegs_of_regs (stopLaunch_regs _ _ _ _ _) _
  | mill m n fn pc =>
    unfold stopSender
    dsimp only
    split
    · exact sameRegs_trans (sameRegs_mono (sameRegs_trapStream s m n 14 pc) (by simp [refusalRegs]))
        (sameRegs_faultBell _ _ _ _ _)
    · exact sameRegs_refl s _
  | host fn r i => exact sameRegs_of_regs rfl _
  | reply d => exact sameRegs_refl s _
  | device c => exact sameRegs_refl s _
  | port p => exact sameRegs_refl s _

theorem throttle_regs (s : State) (o : Origin) : (throttle s o).regs = s.regs := by
  have hone (s : State) (d : Nat) (fn : Option Nat) : (throttle1 s d fn).regs = s.regs := by
    unfold throttle1
    dsimp only
    (repeat' split) <;> rfl
  unfold throttle
  split
  · rw [hone, hone]
  · rfl

/-- The frames that are judged again show in no other registers than refusals do. -/
theorem sameRegs_rejudge (s : State) : sameRegs s (rejudge s) refusalRegs := by
  unfold rejudge
  dsimp only
  refine sameRegs_trans (sameRegs_of_regs rfl _) (sameRegs_foldl (fun t p => ?_) _ _)
  split
  · have hcount (chk : Nat) : sameRegs t (doorCount t chk) refusalRegs :=
      sameRegs_doorCount t chk (List.mem_append_left _ (doorCounter_mem chk)) (by simp [refusalRegs])
    exact sameRegs_trans (sameRegs_trans (hcount _) (sameRegs_stopSender _ _)) (sameRegs_of_regs (throttle_regs _ _) _)
  · exact sameRegs_refl t _

/-! ### The flip (R269, R295) -/

/-- The state as a flip leaves `FAB_EPOCH`, before the frames that wait are judged again. -/
def epochTurned (s : State) : State :=
  setF (setF (setF (setF s R.fabEpoch 1 0 ((curEpoch s + 1) % 4)) R.fabEpoch 2 2 ((curEpoch s + 1) % 4 % 2)) R.fabEpoch 4 4 1)
    R.fabEpoch 8 8 0

/-- The state as a flip leaves the registers. -/
def seedTaken (s : State) : State := setF (epochTurned s) R.fabHashseed 31 16 (getF (epochTurned s) R.fabHashseed 15 0)

/-- The state after a flip in which the frames that wait are judged again. -/
def bankFlipped (s : State) : State :=
  { seedTaken s with fab := { s.fab with flipAt := s.time.lamp, hold := getF (seedTaken s) R.fabRetain 6 0 } }

theorem fabFlip_eq (s : State) : fabFlip s = rejudge (bankFlipped s) := rfl

theorem sameRegs_bankFlipped (s : State) : sameRegs (epochTurned s) (bankFlipped s) [R.fabHashseed] := by
  have hseed : sameRegs (epochTurned s) (seedTaken s) [R.fabHashseed] := sameRegs_setF _ _ _ _ (List.mem_singleton_self _)
  have hregs : (bankFlipped s).regs = (seedTaken s).regs := by simp only [bankFlipped]
  exact sameRegs_trans hseed (sameRegs_of_regs hregs _)

theorem rd_fabFlip (s : State) : rd (fabFlip s) R.fabEpoch = rd (epochTurned s) R.fabEpoch := by
  rw [fabFlip_eq, sameRegs_rejudge _ _ (by decide), sameRegs_bankFlipped _ _ (by decide)]

/-- A flip raises CUR modulo 4, clears ARM and sets RET. -/
theorem fabFlip_epoch (s : State) :
    curEpoch (fabFlip s) = (curEpoch s + 1) % 4 ∧ flag (fabFlip s) R.fabEpoch 8 = false ∧
      flag (fabFlip s) R.fabEpoch 4 = true := by
  refine ⟨?cur, ?arm, ?ret⟩
  case cur =>
    have hcur : getF (epochTurned s) R.fabEpoch 1 0 = (curEpoch s + 1) % 4 := by
      rw [epochTurned, getF_setF_apart _ _ _ (by decide) (by decide) (by decide),
        getF_setF_apart _ _ _ (by decide) (by decide) (by decide), getF_setF_apart _ _ _ (by decide) (by decide) (by decide),
        getF_setF_same _ _ _ (by decide) (by decide)]
      exact Nat.mod_mod _ _
    rw [curEpoch, getF_congr_rd (rd_fabFlip s), hcur]
  case arm =>
    rw [flag_congr_rd (rd_fabFlip s), epochTurned, flag_setF_same _ _ _ (by decide) (by decide)]
    rfl
  case ret =>
    rw [flag_congr_rd (rd_fabFlip s), epochTurned, flag_setF_same _ _ _ (by decide) (by decide),
      flag_setF_same _ _ _ (by decide) (by decide)]
    rfl

/-! ### The write of ARM (R297) -/

/-- The row of `FAB_EPOCH`. -/
def fabEpochRow : RegRow := ⟨R.fabEpoch, [], 1, [⟨12, 12, .wo, 0⟩, ⟨8, 8, .rwl, 0⟩, ⟨4, 4, .ro, 0⟩, ⟨2, 2, .ro, 0⟩, ⟨1, 0, .ro, 0⟩]⟩

theorem exec_fabEpochArm (hl : locked s = false) :
    exec .fabEpochArm s = .next (writeEpoch (dropHeld s R.fabEpoch) 0x100 (setBits (rd s R.fabEpoch) 8 8 1)).1 := by
  have hrow : regAt R.fabEpoch = some (fabEpochRow, 0) := by decide +kernel
  have hexec : exec .fabEpochArm s = .next (bar0Write false R.fabEpoch 0x100 s).1 := rfl
  have hopen : closedTo s false = false := by simp [closedTo, hl]
  rw [hexec, bar0Write_word false _ hrow rfl, hopen]
  rfl

/-- ARM is refused while the previous bank is retained or frames of another epoch are held. -/
theorem writeEpoch_refused {new : Nat} (hnew : bit new 8 = true) (harm : flag s R.fabEpoch 8 = false)
    (hbad : flag s R.fabEpoch 4 = true ∨ fabDrain s ≠ 0) : (writeEpoch s 0x100 new).1 = raise s R.fabStat 6 := by
  have hbad' : (flag s R.fabEpoch 4 || fabDrain s != 0) = true := by simpa using hbad
  have hflip : bit 0x100 12 = false := by decide
  simp [writeEpoch, hnew, harm, hbad', hflip]

/-- ARM that is taken once `FAB_FLIPAT` has passed flips at once. -/
theorem writeEpoch_passed {new : Nat} (hnew : bit new 8 = true) (harm : flag s R.fabEpoch 8 = false)
    (hret : flag s R.fabEpoch 4 = false) (hdrain : fabDrain s = 0) (hset : rd64 s R.fabFlipat ≠ 0)
    (hpast : rd64 s R.fabFlipat ≤ nowNs s) : (writeEpoch s 0x100 new).1 = fabFlip (wr s R.fabEpoch new) := by
  have hflip : bit 0x100 12 = false := by decide
  simp [writeEpoch, hnew, harm, hret, hdrain, hset, hpast, hflip]

/-- ARM leaves CUR. -/
theorem curEpoch_armed (s : State) : curEpoch (wr s R.fabEpoch (setBits (rd s R.fabEpoch) 8 8 1)) = curEpoch s :=
  getF_setF_apart s R.fabEpoch 1 (by decide) (by decide) (by decide)

end Sys2Proof.Machine

open Sys2Proof Sys2Proof.Machine

/-- Settles O5: a write of ARM is refused under TBLERR alone (`writeEpoch_refused`) or flips at once (`writeEpoch_passed`), and the
frames that the flip judges again show in other registers than `FAB_EPOCH` (`sameRegs_rejudge`). -/
theorem epochArming : Obligations.EpochArming := by
  unfold Obligations.EpochArming
  intro s hl harm
  have hexec := exec_fabEpochArm hl
  rw [dropHeld_eq] at hexec
  have hnew : bit (setBits (rd s R.fabEpoch) 8 8 1) 8 = true := by
    rw [bit_setBits _ _ _ le_rfl]
    rfl
  refine ⟨fun hbad => ?refused, fun hret hdrain hset hpast => ?passed⟩
  case refused =>
    rw [writeEpoch_refused hnew (by exact harm) (by exact hbad)] at hexec
    have hepoch : rd (raise { s with held := (dropHeld s R.fabEpoch).held } R.fabStat 6) R.fabEpoch = rd s R.fabEpoch :=
      rd_raise_ne { s with held := (dropHeld s R.fabEpoch).held } 6 (by decide)
    refine ⟨_, hexec, (flag_congr_rd hepoch 8).trans harm, flag_raise_same _ _ (by decide), getF_congr_rd hepoch 1 0, rfl, ?_⟩
    exact sameRegs_trans (sameRegs_of_regs rfl _) (sameRegs_raise _ _ (by simp))
  case passed =>
    rw [writeEpoch_passed hnew (by exact harm) (by exact hret) (by exact hdrain) (by exact hset) (by exact hpast)] at hexec
    obtain ⟨hcur, h8, h4⟩ := fabFlip_epoch
      (wr { s with held := (dropHeld s R.fabEpoch).held } R.fabEpoch (setBits (rd s R.fabEpoch) 8 8 1))
    refine ⟨_, hexec, hcur.trans ?_, h8, h4⟩
    exact congrArg (fun c => (c + 1) % 4) (curEpoch_armed { s with held := (dropHeld s R.fabEpoch).held })
end

section
/-! PROOFS. The write of ARM of `CIR_CTL` (08 R335, R339, R340), and the statement of the flips. -/

namespace Sys2Proof.Machine

variable {s t : State}

/-- The row of `CIR_CTL`. -/
def cirCtlRow : RegRow := ⟨R.cirCtl, [], 1, [⟨19, 16, .rwl, 4⟩, ⟨12, 12, .wo, 0⟩, ⟨8, 8, .rwl, 0⟩, ⟨0, 0, .ro, 0⟩]⟩

/-- The word that a write of ARM leaves in `CIR_CTL` before the lock: ARM is set, and all else is as it was. -/
def cirArmed (s : State) : Nat := setBits (rd s R.cirCtl) 8 8 1

theorem write_cirCtlRow (w : Nat) : RegRow.write cirCtlRow 0 false w (setBits w 8 8 1) = setBits w 8 8 1 := by
  have hfields : RegRow.write cirCtlRow 0 false w (setBits w 8 8 1) =
      setBits (setBits w 19 16 (bits (setBits w 8 8 1) 19 16)) 8 8 (bits (setBits w 8 8 1) 8 8) := rfl
  rw [hfields]
  refine eq_of_bit_eq fun i => ?_
  rw [bit_setBits_bits _ _ _ (by decide), bit_setBits_bits _ _ _ (by decide)]
  by_cases hi : 8 ≤ i ∧ i ≤ 8
  · rw [if_pos hi]
  · rw [if_neg hi, bit_setBits w 1 i (by decide), if_neg hi]
    exact ite_self _

theorem exec_cirArm (hl : locked s = false) :
    exec .cirArm s = .next (writeCirCtl (dropHeld s R.cirCtl) (cirArmed s) (cirArmed s)).1 := by
  have hrow : regAt R.cirCtl = some (cirCtlRow, 0) := by decide +kernel
  have hexec : exec .cirArm s = .next (bar0Write false R.cirCtl (cirArmed s) s).1 := rfl
  have hopen : closedTo s false = false := by simp [closedTo, hl]
  have hword : RegRow.write cirCtlRow 0 false (rd s R.cirCtl) (cirArmed s) = cirArmed s := write_cirCtlRow _
  rw [hexec, bar0Write_word false _ hrow rfl, hopen, hword]
  rfl

/-- A bank that passes its checks is armed, where the write does not command a flip as well. -/
theorem writeCirCtl_armed {w : Nat} (hok : armOk s = true) (h1 : 1 ≤ bits w 19 16) (h9 : bits w 19 16 ≤ 9)
    (hflip : bit w 12 = false) : (writeCirCtl s w w).1 = wr s R.cirCtl w := by
  simp [writeCirCtl, between, hok, h1, h9, hflip]

/-- R339, where FLIP of `CIR_CTL` reads 0: the clause of `Obligations.EpochAndBankFlips` that fails of other states. -/
theorem cirArm_of_flip_clear (hl : locked s = false) (hok : armOk s = true) (h1 : 1 ≤ getF s R.cirCtl 19 16)
    (h9 : getF s R.cirCtl 19 16 ≤ 9) (hflip : flag s R.cirCtl 12 = false) :
    ∃ t : State, exec .cirArm s = .next t ∧ flag t R.cirCtl 8 = true ∧ getF t R.cirCtl 0 0 = getF s R.cirCtl 0 0 ∧
      onlyRegs s t [R.cirCtl] := by
  have hdrain : bits (cirArmed s) 19 16 = getF s R.cirCtl 19 16 := bits_setBits_apart _ _ (by decide) (by decide)
  have hclear : bit (cirArmed s) 12 = false := by
    rw [cirArmed, bit_setBits _ _ _ (by decide)]
    exact hflip
  have hexec := exec_cirArm hl
  rw [dropHeld_eq, writeCirCtl_armed (by exact hok) (hdrain ▸ h1) (hdrain ▸ h9) hclear] at hexec
  exact ⟨_, hexec, flag_raise_same s R.cirCtl (by decide), getF_setF_apart s R.cirCtl 1 (by decide) (by decide) (by decide), rfl,
    sameRegs_trans (sameRegs_of_regs rfl _) (sameRegs_wr _ _ (List.mem_singleton_self _))⟩

/-- The state after reset, but FLIP of `CIR_CTL` stands. -/
def flipStanding : State := { State.reset with regs := [(R.cirCtl, 0x41000)] }

/-- A write of ARM there flips the bank at once, and ARM is clear again. -/
theorem cirArm_flipStanding : ∃ t : State, exec .cirArm flipStanding = .next t ∧ flag t R.cirCtl 8 = false :=
  ⟨_, rfl, by decide +kernel⟩

end Sys2Proof.Machine

open Sys2Proof Sys2Proof.Machine

/-- Refutes O13. The statement speaks of every `State`, and `CIR_ARM` writes `CIR_CTL` with ARM set and the other bits as they
read: where the write-only FLIP reads 1, as no write makes it read (R15), the write arms the bank and flips it, and ARM is clear
again. Where FLIP reads 0 the clause holds (`cirArm_of_flip_clear`). -/
theorem not_epochAndBankFlips : ¬ Obligations.EpochAndBankFlips := by
  unfold Obligations.EpochAndBankFlips
  rintro ⟨-, harm, -⟩
  have hl : locked flipStanding = false := by decide +kernel
  have hok : armOk flipStanding = true := by decide +kernel
  obtain ⟨t, ht, hset, -⟩ := harm flipStanding hl hok (by decide +kernel) (by decide +kernel)
  obtain ⟨u, hu, hclear⟩ := cirArm_flipStanding
  obtain rfl := Host.Outcome.next.inj (hu.symm.trans ht)
  exact absurd (hset.symm.trans hclear) (by decide)
end

section
/-! PROOFS. Bells of the device at the door, and frames that arrive at a port (07 R252, R270; 08 R311, R316; 09 R342), and their
statements. -/

namespace Sys2Proof.Machine

variable {s : State}

/-! ### The door -/

theorem doorCounter_mem_of_pos {chk : Nat} (h : 1 ≤ chk) {rest : List Nat} :
    doorCounter chk ∈ R.fabStat :: R.fabCntMalform :: R.fabCntEpoch :: R.fabCntHops :: R.fabCntNoroute :: rest := by
  have hecrc : chk ≠ 0 := by omega
  unfold doorCounter
  rw [if_neg hecrc]
  (repeat' split) <;> simp

/-- A frame sent under its group's name keeps its type. -/
theorem aliasGroup_typ (s : State) (f : Frame) : (aliasGroup s f).typ = f.typ := by
  unfold aliasGroup
  dsimp only
  split <;> rfl

/-- A frame of the device that fails a check of the door is counted and goes nowhere. -/
theorem atDoor_device_refused {c chk : Nat} {p : Pkt} (horg : p.org = .device c)
    (hchk : doorCheck s (aliasGroup s p.f) none = some chk) : atDoor s p = doorCount s chk := by
  obtain ⟨uid, f, org⟩ := p
  obtain rfl : org = .device c := horg
  have hmark : markSend s (.device c) f = f := rfl
  have hopen : closedFn s (.device c) = false := rfl
  simp only [atDoor, hopen, hmark, hchk]
  rfl

/-- A frame of CLASS 3 is neither policed nor behind one of its flow (Table SWQ-1; R282). -/
theorem admitPacket_control {p : Pkt} (hclass : doorClass s p.org p.f = (3, false)) :
    (admitPacket s p).1 = (settle s { p with f := { p.f with cls := 3 } } false).1 := by
  have hflow : s.fab.waiting.any (sameFlow { p with f := { p.f with cls := 3 } }) = false := by simp [sameFlow]
  simp only [admitPacket, hclass, hflow, Bool.not_false, if_true, Bool.false_eq_true, if_false]

/-- A frame of the device under the name of its group, in CLASS 3. -/
def controlPkt (s : State) (p : Pkt) : Pkt := { p with f := { aliasGroup s p.f with cls := 3 } }

/-- A bell of the device that passes them is admitted as a frame of CLASS 3. -/
theorem atDoor_device_bell {c : Nat} {p : Pkt} (horg : p.org = .device c) (hbell : p.f.typ = 6)
    (hchk : doorCheck s (aliasGroup s p.f) none = none) :
    atDoor s p = (settle s (controlPkt s p) false).1 := by
  obtain ⟨uid, f, org⟩ := p
  obtain rfl : org = .device c := horg
  have hmark : markSend s (.device c) f = f := rfl
  have hopen : closedFn s (.device c) = false := rfl
  have htyp : (aliasGroup s f).typ = 6 := (aliasGroup_typ s f).trans hbell
  have hbind : mayBind (.device c) (aliasGroup s f) = false := by simp [mayBind, Origin.isCore, Origin.die, htyp]
  have hclass : doorClass s (.device c) (aliasGroup s f) = (3, false) := by simp [doorClass, htyp]
  have hadmit := admitPacket_control (p := ⟨uid, aliasGroup s f, .device c⟩) hclass
  simp only [atDoor, hopen, hmark, hchk, admitPkt, hbind]
  exact hadmit

/-- A frame bound for one control queue with room joins it. -/
theorem settle_control {p : Pkt} {c q : Nat} {h : Frame} (horg : p.org = .device c)
    (hroute : routeFrame s (curEpoch s % 2) (completeHeader s p.org p.f.cls 0 p.f) none = ⟨[⟨.ctl q, h, none⟩], 0, false⟩)
    (hroom : (ctlOf s q).length < 64) :
    (settle s p false).1 = setCtl s q (ctlOf s q ++ [⟨p.uid, h, p.org, nowNs s, false, none, none⟩]) := by
  obtain ⟨uid, f, org⟩ := p
  obtain rfl : org = .device c := horg
  have hqueues : queuesOf ⟨[⟨.ctl q, h, none⟩], 0, false⟩ = [] := rfl
  have hplace : placeAll s ⟨uid, f, .device c⟩ [⟨.ctl q, h, none⟩] =
      some (setCtl s q (ctlOf s q ++ [⟨uid, h, .device c, nowNs s, false, none, none⟩])) := by
    simp [placeAll, hroom, putCopy, mkEntry]
  simp only [settle, hroute, hqueues, hplace]
  rfl

/-- A bell of the device that passes the checks of the door joins the control queue that it is bound for. -/
theorem atDoor_device_joins {p : Pkt} {c q : Nat} {h : Frame} (horg : p.org = .device c) (hbell : p.f.typ = 6)
    (hchk : doorCheck s (aliasGroup s p.f) none = none)
    (hroute : routeFrame s (curEpoch s % 2) (completeHeader s p.org 3 0 (aliasGroup s p.f)) none =
      ⟨[⟨.ctl q, h, none⟩], 0, false⟩)
    (hroom : (ctlOf s q).length < 64) :
    atDoor s p = setCtl s q (ctlOf s q ++ [⟨p.uid, h, p.org, nowNs s, false, none, none⟩]) := by
  rw [atDoor_device_bell horg hbell hchk]
  exact settle_control (p := controlPkt s p) horg hroute hroom

/-- The first frame at the door, where it is the device's, goes through it. -/
theorem frameAdmit_device {c : Nat} {p : Pkt} {rest : List Pkt} (hout : s.outbox = p :: rest) (horg : p.org = .device c) :
    frameAdmit 0 s = atDoor { s with outbox := rest } p := by
  obtain ⟨uid, f, org⟩ := p
  obtain rfl : org = .device c := horg
  simp only [frameAdmit, hout]
  rfl

/-! ### Arrival -/

@[simp] theorem rxOf_popRx (s : State) (p : Nat) : rxOf (popRx s p) p = (rxOf s p).drop 1 := SMap.getD_setD_same _ _ _ _

/-- With no mirror the mirror points see nothing. -/
theorem mirrorSee_off (h : flag s R.mirCtl 31 = false) (point unit verdict : Nat) (f : Frame) :
    mirrorSee s point unit verdict f = s := by simp [mirrorSee, h]

variable {p : Port} {x : RxPkt} {rest : List RxPkt}

/-- The state without the first frame received on a port, which the mirror has seen. -/
theorem mirrorSee_popRx (h : flag s R.mirCtl 31 = false) (verdict : Nat) :
    mirrorSee (popRx s p.val) 0 p.val verdict x.f = popRx s p.val :=
  mirrorSee_off (s := popRx s p.val) h _ _ _ _

/-- A frame that fails a check of the door other than ECRC is counted and dropped. -/
theorem frameArrive_refused {chk : Nat} (hrx : rxOf s p.val = x :: rest) (hmir : flag s R.mirCtl 31 = false)
    (hchk : doorCheck s x.f (some p.val) = some chk) (hecrc : 1 ≤ chk) : frameArrive p s = doorCount (popRx s p.val) chk := by
  simp only [frameArrive, hrx, List.head?_cons, hchk, mirrorSee_popRx hmir, refuseAtDoor, if_neg (by omega : ¬ chk = 0)]

/-- A frame as it is stamped on arrival (R253). -/
def aged (s : State) (f : Frame) : Frame := { f with age := nowNs s / 4 % 65536 }

/-- A circuit bell goes to the circuit logic. -/
theorem frameArrive_bell (hrx : rxOf s p.val = x :: rest) (hmir : flag s R.mirCtl 31 = false)
    (hchk : doorCheck s x.f (some p.val) = none) (hbell : Frame.isCircuitBell x.f = true) (hcls : x.f.cls ≠ 0) :
    frameArrive p s = { popRx s p.val with
      inbox := s.inbox ++ [⟨s.nextId, aged s x.f, .port p.val⟩], nextId := s.nextId + 1 } := by
  have htyp : x.f.typ = 6 := by
    simp only [Frame.isCircuitBell, Bool.and_eq_true, beq_iff_eq] at hbell
    exact hbell.1.1
  have hgo : ¬ (x.f.typ = 8 ∨ x.f.cls = 0 ∧ (!x.rpl) = true) := by simp [htyp, hcls]
  have haged : Frame.isCircuitBell { x.f with age := nowNs (popRx s p.val) / 4 % 65536 } = true := hbell
  simp only [frameArrive, hrx, List.head?_cons, hchk, if_neg hgo, mirrorSee_popRx hmir, haged, if_true]
  rfl

/-- The slot of EPORT for a frame of a transit circuit whose first byte arrived at a time: a + 7 (R311). -/
def transitSlot (s : State) (p : Port) (ta : DWord) : Nat :=
  (ta.toNat - getF s (R.gngPdly p.val) 23 0) / 1536 + getF s (R.cirPort p.val) 5 0 + 7

/-- A frame belongs to an open transit circuit of the active bank, comes on the circuit's port, and the circuit holds the slot of
EPORT that the frame's arrival gives (R311). -/
structure TakesSlot (s : State) (p : Port) (f : Frame) (ta : DWord) (e : Nat) : Prop where
  runs : dead s = false
  entry : cirNow s f.cid = e
  valid : cirValid e = true
  role : cirRole e = 0
  live : cirState s f.cid = 2
  dst : bits e 31 16 = f.dst
  job : bits e 43 32 = f.job
  port : cirIport e = p.val
  hops : ¬ 7 ≤ f.hops
  cage : bit (cageOf s (cirBank s) (cirEport e) (transitSlot s p ta)) 16 = true
  cid : bits (cageOf s (cirBank s) (cirEport e) (transitSlot s p ta)) 15 0 = f.cid

/-- Whether a frame takes a slot does not depend on what else has been received. -/
theorem TakesSlot.popRx {f : Frame} {ta : DWord} {e : Nat} (h : TakesSlot s p f ta e) :
    TakesSlot (Machine.popRx s p.val) p f ta e :=
  ⟨h.runs, h.entry, h.valid, h.role, h.live, h.dst, h.job, h.port, h.hops, h.cage, h.cid⟩

/-- A frame of a transit circuit as it waits for its slot. -/
def transitEntry (s : State) (p : Port) (f : Frame) : QEntry := ⟨s.nextId, aged s f, .port p.val, nowNs s, false, none, none⟩

/-- A frame of a transit circuit takes the slot that the circuit holds. -/
theorem circuitFrameArrive_transit {ta : DWord} {e : Nat} (hrx : rxOf s p.val = x :: rest) (hmir : flag s R.mirCtl 31 = false)
    (hchk : doorCheck s x.f (some p.val) = none) (hcls : x.f.cls = 0) (hrpl : x.rpl = false) (htyp : x.f.typ ≠ 8)
    (ht : TakesSlot s p x.f ta e) :
    circuitFrameArrive p ta s = { popRx s p.val with
      nextId := s.nextId + 1
      cir := { s.cir with slots := s.cir.slots ++ [⟨cirEport e, transitSlot s p ta, transitEntry s p x.f⟩] } } := by
  have hgo : ¬ (x.f.cls ≠ 0 ∨ x.rpl = true ∨ x.f.typ = 8) := by simp [hcls, hrpl, htyp]
  obtain ⟨hruns, hentry, hvalid, hrole, hlive, hdst, hjob, hport, hhops, hcage, hcid⟩ := ht.popRx
  rw [transitSlot] at hcage hcid
  simp only [circuitFrameArrive, hrx, List.head?_cons, if_neg hgo, hchk, mirrorSee_popRx hmir, hruns, hentry, hvalid, hrole, hlive,
    hdst, hjob, hport, if_neg hhops, hcage, hcid, bne_self_eq_false, BEq.rfl, Nat.reduceBEq, Bool.not_true, Bool.or_self,
    Bool.and_self, Bool.false_eq_true, if_true, if_false]
  rfl

end Sys2Proof.Machine

open Sys2Proof Sys2Proof.Machine

/-- Settles O40: at the door a bell of the device meets its checks alone (`atDoor_device_refused`), and one that passes is neither
bound to a circuit nor policed (`atDoor_device_bell`), so that it joins its control queue at once (`settle_control`). -/
theorem deviceBells : Obligations.DeviceBells := by
  unfold Obligations.DeviceBells
  intro s p rest c hout horg hbell
  have hexec : exec (.frameAdmit 0) s = .next (frameAdmit 0 s) := rfl
  rw [frameAdmit_device hout horg] at hexec
  refine ⟨fun chk hchk hlt => ?refused, fun q h hchk hroute hroom => ?admitted⟩
  case refused =>
    rw [atDoor_device_refused (s := { s with outbox := rest }) horg hchk] at hexec
    refine ⟨_, hexec, flag_doorCount _ hlt, ?_, rfl, ?_⟩
    · rintro rfl
      exact rd_doorCount { s with outbox := rest } 4
    · refine sameRegs_trans (sameRegs_of_regs rfl _) (sameRegs_doorCount { s with outbox := rest } chk ?_ (by simp))
      exact List.mem_cons_of_mem _ (doorCounter_mem chk)
  case admitted =>
    rw [atDoor_device_joins (s := { s with outbox := rest }) horg hbell hchk hroute hroom] at hexec
    exact ⟨_, hexec, ctlOf_setCtl_same _ _ _, rfl⟩

/-- Settles O42: with no mirror a frame that arrives is refused (`frameArrive_refused`), given to the circuit logic
(`frameArrive_bell`), or takes its circuit's slot (`circuitFrameArrive_transit`). -/
theorem portArrivals : Obligations.PortArrivals := by
  unfold Obligations.PortArrivals
  intro s p x rest hrx hmir
  have hpop : rxOf (popRx s p.val) p.val = rest := by rw [rxOf_popRx, hrx, List.drop_one, List.tail_cons]
  have hexec : exec (.frameArrive p) s = .next (frameArrive p s) := rfl
  refine ⟨fun chk hchk hecrc hlt => ?refused, fun hchk hbell hcls => ?bell,
    fun ta e slot hchk hcls hrpl htyp hdead he hvalid hrole hopen hdst hjob hport hhops hslot hcage hcid => ?circuit⟩
  case refused =>
    rw [frameArrive_refused hrx hmir hchk hecrc] at hexec
    refine ⟨_, hexec, hpop, flag_doorCount _ hlt, rfl, ?_⟩
    refine sameRegs_trans (sameRegs_of_regs rfl _) (sameRegs_doorCount (popRx s p.val) chk ?_ (by simp))
    exact doorCounter_mem_of_pos hecrc
  case bell =>
    rw [frameArrive_bell hrx hmir hchk hbell hcls] at hexec
    exact ⟨_, hexec, hpop, rfl, rfl⟩
  case circuit =>
    have hexec : exec (.circuitFrameArrive p ta) s = .next (circuitFrameArrive p ta s) := rfl
    subst hslot
    rw [circuitFrameArrive_transit hrx hmir hchk hcls hrpl htyp
      ⟨hdead, he.symm, hvalid, hrole, hopen, hdst, hjob, hport, hhops.not_ge, hcage, hcid⟩] at hexec
    exact ⟨_, hexec, hpop, rfl, rfl, rfl, rfl, rfl⟩
end

section
/-! PROOFS. A WRITE that leaves its die link for deep store, a packet written at its cluster, and a frame read back from the sump
(07 R272, R273, R281; 09 R364; 10 R394), and their statement. -/

namespace Sys2Proof.Machine

variable {s : State} {d : Die} {e : QEntry}

/-! ### What arrives on a die link -/

/-- What the mirror points see changes registers and the mirror's own part of the fabric. -/
theorem mirrorSee_frame (s : State) (point unit verdict : Nat) (f : Frame) :
    ∃ regs cnt recs seq, mirrorSee s point unit verdict f = { s with
      regs := regs, fab := { s.fab with mirCnt := cnt, mirRecs := recs, mirSeq := seq } } := by
  unfold mirrorSee
  dsimp only
  (repeat' split) <;> exact ⟨_, _, _, _, rfl⟩

theorem arrivals_mirrorSee (s : State) (point unit verdict : Nat) (f : Frame) (q : Nat) :
    arrivals (mirrorSee s point unit verdict f) q = arrivals s q := by
  obtain ⟨regs, cnt, recs, seq, h⟩ := mirrorSee_frame s point unit verdict f
  rw [h]
  rfl

/-- A frame taken off a die link changes nothing but the fabric. -/
theorem dropArrival_frame (s : State) (q : Nat) : dropArrival s q = { s with fab := (dropArrival s q).fab } := by
  unfold dropArrival
  (repeat' split) <;> rfl

/-- The first of the frames on a die link is taken, whether a circuit brought it or the packet queue. -/
theorem arrivals_dropArrival (s : State) {q : Nat} (hq : q < 8) : arrivals (dropArrival s q) q = (arrivals s q).drop 1 := by
  have hlink (s : State) : arrivals s q = sinkOf s q ++ (queueOf s (64 + q)).frames := if_pos hq
  rw [hlink, hlink, dropArrival, if_pos hq]
  cases hsink : sinkOf s q with
  | nil =>
    have hkeep (x : PktQ) : sinkOf (setQueue s (64 + q) x) q = [] := hsink
    simp only [hkeep, queueOf_setQueue_same, List.nil_append]
  | cons x r => exact congrArg (· ++ (queueOf s (64 + q)).frames) (SMap.getD_setD_same _ _ _ _)

/-- A frame that leaves its die link is seen by the link's mirror point. -/
theorem popArrival_eq (hhead : (arrivals s d.val).head? = some e) :
    popArrival s d.val = dropArrival (mirrorSee s 3 d.val 0 e.f) d.val := by
  simp only [popArrival, hhead, d.isLt, if_true]

/-- It changes nothing but registers and the fabric. -/
theorem popArrival_frame (hhead : (arrivals s d.val).head? = some e) :
    popArrival s d.val = { s with regs := (popArrival s d.val).regs, fab := (popArrival s d.val).fab } := by
  obtain ⟨regs, cnt, recs, seq, hsee⟩ := mirrorSee_frame s 3 d.val 0 e.f
  rw [popArrival_eq hhead, dropArrival_frame, hsee]

theorem arrivals_popArrival (hhead : (arrivals s d.val).head? = some e) :
    arrivals (popArrival s d.val) d.val = (arrivals s d.val).drop 1 := by
  rw [popArrival_eq hhead, arrivals_dropArrival _ d.isLt, arrivals_mirrorSee]

/-! ### A WRITE for deep store -/

/-- The tally of a frame that has landed changes nothing but the tallies. -/
theorem landTally_eq (s : State) (fn die tally n : Nat) :
    landTally s fn die tally n = { s with rem := { s.rem with tallies := (landTally s fn die tally n).rem.tallies } } := by
  unfold landTally
  split
  · rfl
  · exact tallyAdd_eq s fn die tally n

/-- So it is where only the last packet of a frame is counted. -/
theorem eq_of_ite_landTally {t u : State} {more : Bool} {fn die tally n : Nat}
    (h : t = if more then u else landTally u fn die tally n) :
    ∃ tallies, t = { u with rem := { u.rem with tallies := tallies } } := by
  subst h
  cases more with
  | true => exact ⟨_, rfl⟩
  | false => exact ⟨_, landTally_eq u fn die tally n⟩

theorem tallyCount_landTally (s : State) {fn die tally n : Nat} (htally : tally ≠ 0xFFFF)
    (h : tally < (tallyRange s fn die).2) :
    tallyCount (landTally s fn die tally n) fn die tally = (tallyCount s fn die tally + n) % 2 ^ 32 := by
  rw [landTally, if_neg htally, tallyCount_tallyAdd_same s fn die tally n h]

/-- The frame that is next on a die link, a WRITE whose checks give one target in deep store, nothing of its flow being before
it. -/
structure NextForDeep (s : State) (d : Die) (e : QEntry) (w : Nat) (tg : Target) : Prop where
  head : (arrivals s d.val).head? = some e
  pool : e.sump = false
  write : e.f.typ = 0
  single : e.f.mc = false
  judged : judge s e = .passed w [tg]
  die : tg.die = d.val
  deep : tg.deep = true
  clus : tg.clus = []
  atomics : s.rem.atomics = []
  queued : aheadQueued s e = false
  mesh : aheadMesh s e.f d.val [] = false

/-- It is written as it leaves its link, and counted. -/
theorem dieLinkSend_deep {w : Nat} {tg : Target} (h : NextForDeep s d e w tg) :
    dieLinkSend d s =
      landTally (writeDeep (popArrival s d.val) tg.addr e.f.payload) tg.fn tg.die e.f.tally (tallyInc e.f) := by
  obtain ⟨hhead, hpool, hwrite, hsingle, hjudged, hdie, hdeep, hclus, hatomics, hqueued, hmesh⟩ := h
  have hgo : ¬ (e.sump = true ∨ 1 ≤ e.f.typ ∧ e.f.typ ≤ 4) := by simp [hpool, hwrite]
  have hfind : [tg].find? (fun t => t.die == d.val) = some tg := by simp [hdie]
  have hdozes : targetDozes s [tg] = false := by simp [targetDozes, hclus]
  have hatomic : aheadAtomic s e.f = false := by simp [aheadAtomic, hatomics]
  simp only [dieLinkSend, hhead, if_neg hgo, hjudged, hfind, hdozes, hqueued, hdeep, if_true, hmesh, hatomic, hsingle, land,
    Bool.or_self, Bool.false_eq_true, if_false, true_or]

/-! ### A packet that its cluster has accepted -/

/-- `Quiet.putStore_eq` without its conditions on deep store: only the stores' own errors bear on a write to them. -/
theorem putStore_clean (hue : s.comp.storeUe = []) (hups : s.ups.store = []) (a : Nat) (bs : List Byte) :
    putStore s a bs = (storeBytes s a bs, false) := by
  have hsame : ({ s with comp := { s.comp with store := memWriteN s.comp.store a bs, storeUe := [] } } : State) =
      storeBytes s a bs := by rw [storeBytes, ← hue]
  simp only [putStore, writeKey_clean hue, hups, List.isEmpty_nil, and_self, if_true, hsame]

/-- A write of a function's live bytes is then one run at its key. -/
theorem landCluster_live {g fn : Nat} (hue : s.comp.storeUe = []) (hups : s.ups.store = [])
    (hlive : ∀ x, isLive s g fn x = true) (a : Nat) (bs : List Byte) :
    landCluster s g fn a bs = storeBytes s (storeKey g a) bs := by
  have hput : ∀ x c, a ≤ c.1 → putPiece g fn a bs (storeBytes s (storeKey g a) x, false) c =
      (storeBytes (storeBytes s (storeKey g a) x) (storeKey g a + (c.1 - a)) ((bs.drop (c.1 - a)).take c.2), false) := by
    intro x c hc
    have hl : isLive (storeBytes s (storeKey g a) x) g fn c.1 = true := hlive c.1
    have hkey : storeKey g c.1 = storeKey g a + (c.1 - a) := by simp only [storeKey]; omega
    have hclean (b : Nat) (cs : List Byte) := putStore_clean (s := storeBytes s (storeKey g a) x) hue hups b cs
    simp only [putPiece, hl, if_true, hkey, hclean, Bool.or_false]
  have hcuts := (cuts_placeCuts a bs.length).foldl_storeBytes (bs := bs) le_rfl (by omega) hput
  rw [Nat.sub_self, List.take_zero] at hcuts
  exact congrArg Prod.fst hcuts

@[simp] theorem meshOf_setMesh_same (s : State) (d : Nat) (m : MeshSt) : meshOf (setMesh s d m) d = m :=
  SMap.getD_setD_same _ _ _ _

/-- The state without the first packet that a die's clusters have accepted. -/
def popReady (s : State) (d : Die) : State :=
  setMesh s d.val { meshOf s d.val with ready := (meshOf s d.val).ready.eraseIdx 0 }

/-- The state in which a packet, the first that the die's clusters have accepted, is written at its cluster. -/
def packetWritten (s : State) (d : Die) (g : Nat) (k : MeshPkt) : State :=
  storeBytes (popReady s d) (storeKey g k.addr) k.bytes

theorem ready_packetWritten (s : State) (d : Die) (g : Nat) (k : MeshPkt) :
    (meshOf (packetWritten s d g k) d.val).ready = (meshOf s d.val).ready.eraseIdx 0 :=
  congrArg MeshSt.ready (meshOf_setMesh_same _ _ _)

/-- The first packet that a die's clusters have accepted is written at its cluster, and the last of its frame counted. -/
theorem meshPacketArrive_live {i g : Nat} {k : MeshPkt} {rest : List (Nat × MeshPkt)}
    (hready : (meshOf s d.val).ready = (i, k) :: rest) (hg : g = 160 * d.val + i) (hdoze : dozing s g = false)
    (hholds : holds s g k.fn = true) (hlive : ∀ a, isLive s g k.fn a = true) (hue : s.comp.storeUe = [])
    (hups : s.ups.store = []) :
    meshPacketArrive d 0 s =
      if (meshOf (packetWritten s d g k) d.val).inward.any fun x => x.uid == k.uid then packetWritten s d g k
      else landTally (packetWritten s d g k) k.fn d.val k.tally k.tinc := by
  subst hg
  have hfirst : (meshOf s d.val).ready[0]? = some (i, k) := by rw [hready]; rfl
  have hwait : (dozing s (160 * d.val + i) || (k.ord && ((meshOf s d.val).ready.take 0).any fun x => x.2.ord && x.1 == i)) =
      false := by simp [hdoze]
  have hland : landCluster (popReady s d) (160 * d.val + i) k.fn k.addr k.bytes = packetWritten s d (160 * d.val + i) k :=
    landCluster_live (s := popReady s d) hue hups hlive k.addr k.bytes
  have hholds' : holds (popReady s d) (160 * d.val + i) k.fn = true := hholds
  rw [popReady] at hland hholds'
  simp only [meshPacketArrive, hfirst, hwait, hholds', hland, Bool.not_true, Bool.false_eq_true, if_false]

/-! ### The sump -/

/-- A read that meets no error changes nothing. -/
theorem meetOnce_none (s : State) (src lo n : Nat) : meetOnce s src lo n Upsets.none = (s, false) := rfl

/-- The first frame of a queue, where it lies in the sump, is read back into the pool. -/
theorem sumpReadback_head {q : Fin 72} {r : List QEntry} (hq : (queueOf s q.val).frames = e :: r) (hsump : e.sump = true)
    (hroom : poolRoom s e.f = true) :
    sumpReadback q Upsets.none s =
      setQueue s q.val { queueOf s q.val with frames := { e with sump := false } :: r } := by
  have hroom' : ¬ (!poolRoom s e.f) = true := by simp [hroom]
  simp only [sumpReadback, hq, takeFirst, hsump, if_true, if_neg hroom', meetOnce_none, Bool.false_eq_true, if_false, updFirst]

end Sys2Proof.Machine

open Sys2Proof Sys2Proof.Machine

/-- Settles O44: a WRITE leaves its die link and is written to deep store (`dieLinkSend_deep`), a packet is one run at its
cluster's key where no line stands in error (`meshPacketArrive_live`), and the first frame in the sump takes its place in the pool
(`sumpReadback_head`). -/
theorem dieTraffic : Obligations.DieTraffic := by
  unfold Obligations.DieTraffic
  refine ⟨?link, ?mesh, ?sump⟩
  case link =>
    intro s d e w tg hhead hpool hwrite hsingle hjudged hdie hdeep hclus hatomics hqueued hmesh
    have hexec : exec (.dieLinkSend d) s = .next (dieLinkSend d s) := rfl
    rw [dieLinkSend_deep ⟨hhead, hpool, hwrite, hsingle, hjudged, hdie, hdeep, hclus, hatomics, hqueued, hmesh⟩, landTally_eq]
      at hexec
    have hframe := popArrival_frame hhead
    have hdrop := arrivals_popArrival hhead
    generalize popArrival s d.val = u at hexec hframe hdrop
    have hmem : u.deep.mem = s.deep.mem := by rw [hframe]
    have hcomp : u.comp = s.comp := by rw [hframe]
    have hout : u.outbox = s.outbox := by rw [hframe]
    refine ⟨_, hexec, memReadN_memWriteN u.deep.mem tg.addr e.f.payload, fun a ha => ?_, hdrop, hcomp, hout⟩
    rw [← hmem]
    exact memRead_memWriteN_out u.deep.mem e.f.payload ha
  case mesh =>
    intro s d i k rest g hready hg hdoze hholds hlive hue
    have hexec : exec (.meshPacketArrive d ⟨0, Upsets.none⟩) s = .next (unstruck (meshPacketArrive d 0 (unstruck s))) := rfl
    have hsent := meshPacketArrive_live (s := unstruck s) hready hg hdoze hholds hlive hue rfl
    obtain ⟨tallies, hframe⟩ := eq_of_ite_landTally hsent
    generalize meshPacketArrive d 0 (unstruck s) = t at hexec hsent hframe
    have hstore : t.comp.store = memWriteN s.comp.store (storeKey g k.addr) k.bytes := by rw [hframe]; rfl
    refine ⟨unstruck t, hexec, ?ready, ?written, fun a ha => ?kept, by rw [hframe]; rfl, by rw [hframe]; rfl,
      by rw [hframe]; rfl, fun hlast htally hrange => ?counted⟩
    case ready =>
      rw [hframe]
      exact (ready_packetWritten (unstruck s) d g k).trans (congrArg (List.eraseIdx · 0) hready)
    case written => exact (congrArg (memReadN · _ _) hstore).trans (memReadN_memWriteN _ _ _)
    case kept => exact (congrArg (memRead · a) hstore).trans (memRead_memWriteN_out _ _ ha)
    case counted =>
      have hmesh : meshOf (unstruck t) d.val = meshOf (packetWritten (unstruck s) d g k) d.val := by rw [hframe]; rfl
      have hnone : ((meshOf (packetWritten (unstruck s) d g k) d.val).inward.any fun x => x.uid == k.uid) = false :=
        List.any_eq_false.mpr fun x hx => by simpa using hlast x (hmesh ▸ hx)
      rw [hnone] at hsent
      subst hsent
      exact tallyCount_landTally (packetWritten (unstruck s) d g k) htally hrange
  case sump =>
    intro s q e r hq hsump hroom
    have hexec : exec (.sumpReadback q Upsets.none) s = .next (sumpReadback q Upsets.none s) := rfl
    rw [sumpReadback_head hq hsump hroom] at hexec
    exact ⟨_, hexec, congrArg PktQ.frames (queueOf_setQueue_same _ _ _), rfl⟩
end

section
/-! PROOFS. A read command of the mills' window while a removal is waited for (07 R661; 11 R451), and the statement of the
windows. -/

namespace Sys2Proof.Machine

/-- The state after reset, but the first stream of the first mill is one whose removal a window command waits for. -/
def removalAwaited : State := { State.reset with
  mills := [(0, ⟨[], [(0, { StreamSt.blank with byWin := true })], [], [], [], [], [], [], [], none⟩)] }

/-- Its window selects a code word. -/
theorem tblRead_removalAwaited :
    tblRead removalAwaited (milWin removalAwaited).tid (milWin removalAwaited).bank (milWin removalAwaited).idx =
      some (leBytes 4 0) := by
  decide +kernel

/-- A read command there ends the wait: it is a new command. -/
theorem milTableRead_removalAwaited :
    ∃ t : State, exec .milTableRead removalAwaited = .next t ∧ (streamOf t 0 0).byWin = false :=
  ⟨_, rfl, by decide +kernel⟩

end Sys2Proof.Machine

open Sys2Proof Sys2Proof.Machine

/-- Refutes O12. The statement says that a read command changes registers alone, but a command of the mills' window is a new
command, and a stream whose removal an earlier one waited for is then waited for no more (`newCommand`): `byWin` of a stream is
cleared, in the state after reset where it stands for the first stream of the first mill. -/
theorem not_tableWindows : ¬ Obligations.TableWindows := by
  unfold Obligations.TableWindows
  rintro ⟨hread, -⟩
  obtain ⟨-, -, hmil⟩ := hread removalAwaited (leBytes 4 0)
  obtain ⟨t, ht, -, -, -, hframe⟩ := hmil tblRead_removalAwaited (by decide +kernel)
  obtain ⟨u, hu, hcleared⟩ := milTableRead_removalAwaited
  obtain rfl := Host.Outcome.next.inj (hu.symm.trans ht)
  have hkept : (streamOf u 0 0).byWin = true := by rw [hframe]; rfl
  exact absurd (hkept.symm.trans hcleared) (by decide)
end

section
/-! PROOFS. What the ends of opens and closes, the close of a circuit and circuit bells change (08 R316 to R321, R662, R663), and the
statement of the circuit bells. -/

namespace Sys2Proof.Machine

variable {s t : State} {cid : Nat}

/-! ### Live states -/

@[simp] theorem cirState_setCir (s : State) (cid st : Nat) : cirState (setCir s cid st) cid = st % 4 := by
  rw [cirState, setCir, SMap.getD_setD_same]
  exact bits_setBits_same (hi := 1) (lo := 0) _ st (by decide)

theorem cirState_congr (h : t.cir.live = s.cir.live) (cid : Nat) : cirState t cid = cirState s cid := by
  rw [cirState, cirState, h]

theorem srcqOf_congr (h : t.cir.srcq = s.cir.srcq) (cid : Nat) : srcqOf t cid = srcqOf s cid := by
  rw [srcqOf, srcqOf, h]

/-- A refusal status is kept beside the live state, which stays. -/
theorem cirState_setRefusal (s : State) (cid st : Nat) : cirState (setRefusal s cid st) cid = cirState s cid := by
  rw [cirState, setRefusal, SMap.getD_setD_same]
  exact bits_setBits_apart (hi' := 1) (lo' := 0) _ st (by decide) (by decide)

theorem refusal_setRefusal (s : State) (cid : Nat) {st : Nat} (h : st < 16) :
    bits (SMap.getD (setRefusal s cid st).cir.live cid 0) 7 4 = st := by
  rw [setRefusal, SMap.getD_setD_same, bits_setBits_same _ _ (by decide)]
  exact Nat.mod_eq_of_lt h

theorem bellStatus_lt (f : Frame) : bellStatus f < 16 := by
  unfold bellStatus reported
  split <;> omega

/-! ### Circuit bells -/

section
variable (s) (port code status : Nat) (cid : Nat)

@[simp] theorem sendCirBell_regs : (sendCirBell s port code cid status).regs = s.regs :=
  (sendCirBellTo_frame s port _ _ code cid status).1

@[simp] theorem sendCirBell_comp : (sendCirBell s port code cid status).comp = s.comp :=
  (sendCirBellTo_frame s port _ _ code cid status).2.1

@[simp] theorem sendCirBell_deep : (sendCirBell s port code cid status).deep = s.deep :=
  (sendCirBellTo_frame s port _ _ code cid status).2.2.1

@[simp] theorem sendCirBell_host : (sendCirBell s port code cid status).host = s.host :=
  (sendCirBellTo_frame s port _ _ code cid status).2.2.2.1

@[simp] theorem sendCirBell_cir : (sendCirBell s port code cid status).cir = s.cir :=
  (sendCirBellTo_frame s port _ _ code cid status).2.2.2.2.2.1

@[simp] theorem cirState_sendCirBell (c : Nat) : cirState (sendCirBell s port code cid status) c = cirState s c :=
  cirState_congr (by rw [sendCirBell_cir]) c

end

/-- A bell that is taken leaves the inbox, and nothing else changes. -/
theorem takeCirBell_eq {code p : Nat} {f : Frame} (h : takeCirBell s code = some (f, p, t)) :
    ∃ rest, t = { s with inbox := rest } := by
  unfold takeCirBell at h
  dsimp only at h
  split at h
  · cases h
  · cases h
    exact ⟨_, rfl⟩

/-! ### Opens and closes that end -/

/-- Descriptors that wait end in the host's part of the state. -/
theorem endHosts_eq (l : List CirWait) (st : Nat) (s : State) :
    l.foldl (fun s w => endHost s w.fn w.ring w.idx st) s =
      { s with host := (l.foldl (fun s w => endHost s w.fn w.ring w.idx st) s).host } := by
  induction l generalizing s with
  | nil => rfl
  | cons w l ih => exact ih (endHost s w.fn w.ring w.idx st)

/-- The opens of a CID that end are waited for no more. -/
theorem endOpens_eq (s : State) (cid st : Nat) :
    endOpens s cid st = { s with
      host := (endOpens s cid st).host
      cir := { s.cir with opens := s.cir.opens.filter fun w => w.cid != cid } } :=
  endHosts_eq _ _ _

/-- The closes of a CID that end are waited for no more, and the CID is not closing. -/
theorem endCloses_eq (s : State) (cid st : Nat) :
    endCloses s cid st = { s with
      host := (endCloses s cid st).host
      cir := { s.cir with
        closes := s.cir.closes.filter fun w => w.cid != cid
        closing := s.cir.closing.filter (· != cid) } } :=
  endHosts_eq _ _ _

/-- No open of the CID still waits. -/
theorem cid_ne_of_mem_opens {st : Nat} {w : CirWait} (h : w ∈ (endOpens s cid st).cir.opens) : w.cid ≠ cid := by
  rw [endOpens_eq] at h
  simpa using (List.mem_filter.1 h).2

/-- The circuits with a CID closed whose source queue was empty. -/
def cidClosed (s : State) (cid : Nat) : CirSt :=
  { (setCir s cid 0).cir with
    srcq := SMap.setD s.cir.srcq cid [] []
    opens := s.cir.opens.filter fun w => w.cid != cid
    closes := s.cir.closes.filter fun w => w.cid != cid
    closing := s.cir.closing.filter (· != cid) }

/-- With an empty source queue nothing falls back. -/
theorem emptySource_nil (h : srcqOf s cid = []) : emptySource s cid = setSrcq s cid [] := by
  rw [emptySource, h]
  rfl

/-- A CID whose source queue is empty closes, and what waited for it ends, in the host's part of the state. -/
theorem closeCid_eq (h : srcqOf s cid = []) (st : Nat) :
    closeCid s cid st = { s with host := (closeCid s cid st).host, cir := cidClosed s cid } := by
  have hempty : srcqOf (endOpens (setCir s cid 0) cid st) cid = [] := by
    rw [endOpens_eq]
    exact h
  have hclose : closeCid s cid st = endCloses (setSrcq (endOpens (setCir s cid 0) cid st) cid []) cid 0 := by
    rw [closeCid, emptySource_nil hempty]
  rw [hclose, endCloses_eq, endOpens_eq]
  rfl

theorem closeCid_cir (h : srcqOf s cid = []) (st : Nat) : (closeCid s cid st).cir = cidClosed s cid := by
  rw [closeCid_eq h]

theorem cirState_closeCid (h : srcqOf s cid = []) (st : Nat) : cirState (closeCid s cid st) cid = 0 := by
  rw [closeCid_eq h]
  exact cirState_setCir s cid 0

/-! ### The bells' effects -/

section
variable {f : Frame} {p : Nat}

/-- A REQUEST that passes at its sink opens the CID, and GRANT goes back. -/
theorem circuitRequest_sink (htake : takeCirBell s 2 = some (f, p, t)) (hvalid : cirValid (cirNow t (bellCid f)) = true)
    (hrole : cirRole (cirNow t (bellCid f)) = 2) (hport : cirIport (cirNow t (bellCid f)) = p)
    (hclosed : cirState t (bellCid f) = 0) (hdrain : t.cir.drain = none) (hlag : flag t (R.cirPort p) 31 = true) :
    circuitRequest s = sendCirBell (setCir t (bellCid f) 2) p 3 (bellCid f) 0 := by
  simp [circuitRequest, htake, hvalid, hrole, hport, hclosed, hdrain, hlag]

/-- A GRANT opens a PENDING CID at its source or sink. -/
theorem circuitGrant_end (htake : takeCirBell s 3 = some (f, p, t)) (hpending : cirState t (bellCid f) = 1)
    (hrole : cirRole (cirNow t (bellCid f)) ≠ 0) :
    circuitGrant s = endOpens (setCir t (bellCid f) 2) (bellCid f) 0 := by
  simp [circuitGrant, htake, hpending, hrole]

/-- A REFUSE closes a CID at its source or sink, and its status is kept. -/
theorem circuitRefuse_end (htake : takeCirBell s 4 = some (f, p, t)) (hlive : cirState t (bellCid f) ≠ 0)
    (hrole : cirRole (cirNow t (bellCid f)) ≠ 0) :
    circuitRefuse s = setRefusal (closeCid t (bellCid f) (bellStatus f)) (bellCid f) (bellStatus f) := by
  simp [circuitRefuse, htake, hlive, hrole]

/-- A TEARDOWN that came from a transit device's source side closes the CID and will go on by EPORT. -/
theorem circuitTeardown_transit (htake : takeCirBell s 5 = some (f, p, t)) (hvalid : cirValid (cirNow t (bellCid f)) = true)
    (hrole : cirRole (cirNow t (bellCid f)) = 0) (hport : cirIport (cirNow t (bellCid f)) = p) :
    circuitTeardown s = { closeCid t (bellCid f) 9 with
      cir := { (closeCid t (bellCid f) 9).cir with
        fwd := (closeCid t (bellCid f) 9).cir.fwd ++
          [⟨bellCid f, cirEport (cirNow t (bellCid f)), bellStatus f, nowNs (closeCid t (bellCid f) 9) + 216⟩] } } := by
  simp [circuitTeardown, htake, hvalid, hrole, hport]

end

end Sys2Proof.Machine

open Sys2Proof Sys2Proof.Machine

/-- Settles O29: each bell is taken (`takeCirBell_eq`) and has its one effect, which leaves registers and stores: the end of opens
and the close of a CID change the host's part and the circuits alone (`endOpens_eq`, `closeCid_eq`). -/
theorem circuitBells : Obligations.CircuitBells := by
  unfold Obligations.CircuitBells
  refine ⟨?request, ?grant, ?refuse, ?teardown⟩
  case request =>
    intro s f p t0 htake hvalid hrole hport hclosed hdrain hlag
    have hexec : exec .circuitRequest s = .next (circuitRequest s) := rfl
    rw [circuitRequest_sink htake hvalid hrole hport hclosed hdrain hlag] at hexec
    obtain ⟨rest, rfl⟩ := takeCirBell_eq htake
    exact ⟨_, hexec, by simp, sendCirBell_comp _ _ _ _ _, sendCirBell_deep _ _ _ _ _⟩
  case grant =>
    intro s f p t0 htake hpending hrole
    have hexec : exec .circuitGrant s = .next (circuitGrant s) := rfl
    rw [circuitGrant_end htake hpending hrole] at hexec
    obtain ⟨rest, rfl⟩ := takeCirBell_eq htake
    refine ⟨_, hexec, ?_, fun w hw => cid_ne_of_mem_opens hw, ?_⟩ <;> rw [endOpens_eq]
    · exact cirState_setCir { s with inbox := rest } (bellCid f) 2
    · exact ⟨rfl, rfl, rfl⟩
  case refuse =>
    intro s f p t0 htake hlive hempty hrole
    have hexec : exec .circuitRefuse s = .next (circuitRefuse s) := rfl
    rw [circuitRefuse_end htake hlive hrole] at hexec
    obtain ⟨rest, rfl⟩ := takeCirBell_eq htake
    refine ⟨_, hexec, (cirState_setRefusal _ _ _).trans (cirState_closeCid hempty _),
      refusal_setRefusal _ _ (bellStatus_lt f), ?_⟩
    rw [closeCid_eq hempty]
    exact ⟨rfl, rfl⟩
  case teardown =>
    intro s f p t0 htake hempty hvalid hrole hport
    have hexec : exec .circuitTeardown s = .next (circuitTeardown s) := rfl
    rw [circuitTeardown_transit htake hvalid hrole hport, closeCid_eq hempty] at hexec
    obtain ⟨rest, rfl⟩ := takeCirBell_eq htake
    exact ⟨_, hexec, cirState_setCir { s with inbox := rest } (bellCid f) 0, rfl, rfl, rfl⟩
end

section
/-! PROOFS. The descriptors of windows and circuits (08 R663; 10 R385, R386, R389), and their statement. -/

namespace Sys2Proof.Machine

variable {s t : State} {r : DescRef} {h : HostDesc} {row : HRow}

/-! ### Descriptors that work on -/

/-- A descriptor that works on, where nothing else of the host's part has changed. -/
theorem worksOn_of_host (hs : startable s r h row) (ht : t.host = (workDesc s r).host) : worksOn s t r := by
  have hname : keepsName fun h => { h with phase := .working } := fun _ _ => rfl
  have hdesc (q : DescRef) : descOf t q = descOf (workDesc s r) q := by simp only [descOf, ht]
  exact ⟨⟨_, (hdesc r).trans (descOf_updDesc_same hname hs.1), rfl⟩,
    fun q hq => (hdesc q).trans (sameDescs_updDesc hname q hq)⟩

/-! ### WIN (10 R385, R386, R389) -/

/-- The state with a window loaded. -/
def windowLoaded (s : State) (idx : Nat) (w : Window) : State :=
  { s with rem := { s.rem with windows := SMap.put s.rem.windows idx w } }

/-- The state with a window removed. -/
def windowRemoved (s : State) (idx : Nat) : State :=
  { s with rem := { s.rem with windows := SMap.erase s.rem.windows idx } }

theorem winLoadBody_ok (hidx : leAt h.bytes 16 2 < 1024) (hchk : windowCheck s (leAt h.bytes 16 2) (h.bytes.drop 32) = 0) :
    winLoadBody r h s = endDesc (windowLoaded s (leAt h.bytes 16 2) (parseWindow (h.bytes.drop 32))) r 0 := by
  rw [winLoadBody, if_neg hidx.not_ge]
  simp only [hchk, ne_eq, not_true, if_false]
  rfl

/-- The removal of a window that is not loaded ends at once. -/
theorem winRemoveBody_absent (hidx : leAt h.bytes 16 2 < 1024) (hwin : SMap.find s.rem.windows (leAt h.bytes 16 2) = none) :
    winRemoveBody r h s = endDesc s r 0 := by
  rw [winRemoveBody, if_neg hidx.not_ge, hwin, Option.isNone_none, if_pos rfl]

/-- The removal of a loaded window ends at once where every frame translated through it has been written. -/
theorem winRemoveBody_written {w : Window} (hidx : leAt h.bytes 16 2 < 1024)
    (hwin : SMap.find s.rem.windows (leAt h.bytes 16 2) = some w) (hdone : translated s (leAt h.bytes 16 2) = []) :
    winRemoveBody r h s = endDesc (windowRemoved s (leAt h.bytes 16 2)) r 0 := by
  simp only [winRemoveBody, if_neg hidx.not_ge, hwin, Option.isNone_some, Bool.false_eq_true, if_false, hdone, List.isEmpty_nil,
    if_true, windowRemoved]

/-- The removal of a loaded window waits for the frames translated through it. -/
theorem winRemoveBody_waits {w : Window} (hidx : leAt h.bytes 16 2 < 1024)
    (hwin : SMap.find s.rem.windows (leAt h.bytes 16 2) = some w) (hmore : translated s (leAt h.bytes 16 2) ≠ []) :
    winRemoveBody r h s = updDesc (windowRemoved s (leAt h.bytes 16 2)) r fun g =>
      { g with phase := .working, waitFor := translated s (leAt h.bytes 16 2) } := by
  have hany : ¬ (translated s (leAt h.bytes 16 2)).isEmpty = true := by simpa using hmore
  simp only [winRemoveBody, if_neg hidx.not_ge, hwin, Option.isNone_some, Bool.false_eq_true, if_false, if_neg hany, windowRemoved]

/-- The state with the refusal record written to the host, and its counters cleared or not. -/
def recordWritten (s : State) (fn addr : Nat) (clear : Bool) : State :=
  let t := hostWrite s fn addr (refusalRecord s)
  if clear then { t with rem := { t.rem with refCounts := [] } } else t

theorem winRecordBody_ok (clear : Bool) (hidx : leAt h.bytes 16 2 < 1024) :
    winRecordBody clear r h s = endDesc (recordWritten s h.fn (leAt h.bytes 24 8) clear) r 0 := by
  rw [winRecordBody, if_neg hidx.not_ge]
  rfl

/-! ### CIR (08 R663) -/

/-- The wait of a circuit's open or close that starts now. -/
def waitOf (s : State) (h : HostDesc) : CirWait := ⟨h.fn, h.ring, h.idx, leAt h.bytes 16 2, s.time.lamp⟩

/-- An open that passes its checks makes its CID PENDING, waits, and sends REQUEST. -/
theorem cirOpenBody_ok (hsrc : sourceEntry s (leAt h.bytes 16 2) = true) (hclosed : cirState s (leAt h.bytes 16 2) = 0)
    (hdrain : s.cir.drain = none) (hready : cirReady s (cirEport (cirNow s (leAt h.bytes 16 2))) = true) :
    cirOpenBody r h s =
      sendCirBell { workDesc s r with
        cir := { (setCir s (leAt h.bytes 16 2) 1).cir with opens := s.cir.opens ++ [waitOf s h] } }
      (cirEport (cirNow s (leAt h.bytes 16 2))) 2 (leAt h.bytes 16 2) 0 := by
  simp only [cirOpenBody, hsrc, hclosed, hdrain, hready, Bool.not_true, Bool.false_eq_true, ne_eq, not_true, Option.isSome_none,
    if_false]
  rfl

theorem cirCloseBody_closed (hsrc : sourceEntry s (leAt h.bytes 16 2) = true) (hclosed : cirState s (leAt h.bytes 16 2) = 0) :
    cirCloseBody r h s = endDesc s r 0 := by
  simp only [cirCloseBody, hsrc, hclosed, Bool.not_true, Bool.false_eq_true, if_true, if_false]

/-- The CIDs on which binding has stopped, with one more. -/
def stopBinding (l : List Nat) (cid : Nat) : List Nat := if memNat cid l then l else l ++ [cid]

theorem mem_stopBinding (l : List Nat) (cid : Nat) : memNat cid (stopBinding l cid) = true := by
  unfold stopBinding
  split
  · assumption
  · simp [memNat]

theorem cirCloseBody_live (hsrc : sourceEntry s (leAt h.bytes 16 2) = true) (hlive : cirState s (leAt h.bytes 16 2) ≠ 0) :
    cirCloseBody r h s = { workDesc s r with cir := { s.cir with
      closes := s.cir.closes ++ [waitOf s h]
      closing := stopBinding s.cir.closing (leAt h.bytes 16 2) } } := by
  simp only [cirCloseBody, hsrc, if_neg hlive, Bool.not_true, Bool.false_eq_true, if_false]
  rfl

end Sys2Proof.Machine

open Sys2Proof Sys2Proof.Machine

/-- Settles O24: a descriptor that may start carries out its row's body (`startDesc_of_startable`), and each body has one effect
beside the descriptor's own phase. -/
theorem windowAndCircuitDescriptors : Obligations.WindowAndCircuitDescriptors := by
  unfold Obligations.WindowAndCircuitDescriptors
  refine ⟨⟨?load, ?remove, ?read, ?clear⟩, ?opens, ?closed, ?closes⟩
  case load =>
    intro s r h hs hidx hchk
    have hexec : exec (.winLoad r) s = .next (startDesc .winLoad r (winLoadBody r) s) := rfl
    rw [startDesc_of_startable hs, winLoadBody_ok hidx hchk] at hexec
    exact ⟨_, hexec, endedWith_of_host hs rfl, SMap.find_put_same _ _ _, fun k hk => SMap.find_put_ne _ _ hk, rfl, rfl, rfl⟩
  case remove =>
    intro s r h hs hidx
    have hexec : exec (.winRemove r) s = .next (startDesc .winRemove r (winRemoveBody r) s) := rfl
    rw [startDesc_of_startable hs] at hexec
    cases hwin : SMap.find s.rem.windows (leAt h.bytes 16 2) with
    | none =>
      rw [winRemoveBody_absent hidx hwin] at hexec
      exact ⟨_, hexec, hwin, fun _ _ => rfl, fun _ => endedWith_of_host hs rfl, rfl, rfl, rfl⟩
    | some w =>
      have hgone := SMap.find_erase_same s.rem.windows (leAt h.bytes 16 2)
      have hkept : ∀ k, k ≠ leAt h.bytes 16 2 → _ := fun k hk => SMap.find_erase_ne s.rem.windows hk
      by_cases htr : translated s (leAt h.bytes 16 2) = []
      · rw [winRemoveBody_written hidx hwin htr] at hexec
        exact ⟨_, hexec, hgone, hkept, fun _ => endedWith_of_host hs rfl, rfl, rfl, rfl⟩
      · rw [winRemoveBody_waits hidx hwin htr] at hexec
        exact ⟨_, hexec, hgone, hkept, fun hnone => absurd hnone htr, rfl, rfl, rfl⟩
  case read =>
    intro s r h hs hidx
    have hexec : exec (.winReadRecord r) s = .next (startDesc .winRead r (winRecordBody false r) s) := rfl
    rw [startDesc_of_startable hs, winRecordBody_ok false hidx] at hexec
    exact ⟨_, hexec, endedWith_of_host hs rfl, rfl, rfl, rfl, rfl, rfl⟩
  case clear =>
    intro s r h hs hidx
    have hexec : exec (.winReadClear r) s = .next (startDesc .winClear r (winRecordBody true r) s) := rfl
    rw [startDesc_of_startable hs, winRecordBody_ok true hidx] at hexec
    exact ⟨_, hexec, endedWith_of_host hs rfl, rfl, rfl, rfl, rfl, rfl⟩
  case opens =>
    intro s r h hs hsrc hclosed hdrain hready
    have hexec : exec (.cirOpen r) s = .next (startDesc .cirOpen r (cirOpenBody r) s) := rfl
    rw [startDesc_of_startable hs, cirOpenBody_ok hsrc hclosed hdrain hready] at hexec
    refine ⟨_, hexec, worksOn_of_host hs (sendCirBell_host _ _ _ _ _), ?_, by rw [sendCirBell_cir]; rfl,
      sendCirBell_comp _ _ _ _ _, sendCirBell_deep _ _ _ _ _⟩
    rw [cirState_sendCirBell]
    exact cirState_setCir s (leAt h.bytes 16 2) 1
  case closed =>
    intro s r h hs hsrc hclosed
    have hexec : exec (.cirClose r) s = .next (startDesc .cirClose r (cirCloseBody r) s) := rfl
    rw [startDesc_of_startable hs, cirCloseBody_closed hsrc hclosed] at hexec
    exact ⟨_, hexec, endedWith_of_host hs rfl, rfl⟩
  case closes =>
    intro s r h hs hsrc hlive
    have hexec : exec (.cirClose r) s = .next (startDesc .cirClose r (cirCloseBody r) s) := rfl
    rw [startDesc_of_startable hs, cirCloseBody_live hsrc hlive] at hexec
    exact ⟨_, hexec, worksOn_of_host hs rfl, mem_stopBinding _ _, rfl, rfl, rfl, rfl⟩
end

section
/-! PROOFS. TEARDOWNs that are due, opens and closes that end (08 R319, R320, R663), and shift changes (08 R333 to R336), and their
statement. -/

namespace Sys2Proof.Machine

variable {s : State} {cid : BitVec 16}

/-! ### Descriptors that opens and closes end -/

/-- Every descriptor of a name has ended with a status. -/
def nameEnded (s : State) (fn ring idx st : Nat) : Prop :=
  ∀ h ∈ s.host.descs, h.fn = fn → h.ring = ring → h.idx = idx → h.phase = .ended st

theorem nameEnded_endHost (s : State) (fn ring idx st : Nat) : nameEnded (endHost s fn ring idx st) fn ring idx st := by
  intro h hmem hfn hring hidx
  obtain ⟨g, -, rfl⟩ := List.mem_map.1 hmem
  by_cases hg : g.fn = fn ∧ g.ring = ring ∧ g.idx = idx
  · rw [if_pos hg]
  · rw [if_neg hg] at hfn hring hidx
    exact absurd ⟨hfn, hring, hidx⟩ hg

/-- The end of a descriptor of another name does not matter. -/
theorem nameEnded_endHost_ne {fn ring idx st fn' ring' idx' : Nat} (st' : Nat) (h : nameEnded s fn ring idx st)
    (hne : (fn', ring', idx') ≠ (fn, ring, idx)) : nameEnded (endHost s fn' ring' idx' st') fn ring idx st := by
  intro g hmem hfn hring hidx
  obtain ⟨d, hd, rfl⟩ := List.mem_map.1 hmem
  by_cases hdn : d.fn = fn' ∧ d.ring = ring' ∧ d.idx = idx'
  · rw [if_pos hdn] at hfn hring hidx
    obtain ⟨rfl, rfl, rfl⟩ := hdn
    exact absurd (by rw [← hfn, ← hring, ← hidx]) hne
  · rw [if_neg hdn] at hfn hring hidx ⊢
    exact h d hd hfn hring hidx

/-- Closes of other descriptors end. -/
theorem nameEnded_endCloses {fn ring idx st c : Nat} (st' : Nat) (h : nameEnded s fn ring idx st)
    (hne : ∀ w ∈ s.cir.closes, (w.fn, w.ring, w.idx) ≠ (fn, ring, idx)) : nameEnded (endCloses s c st') fn ring idx st :=
  List.foldlRecOn (motive := fun t => nameEnded t fn ring idx st) _ _ h fun _ ht w hw =>
    nameEnded_endHost_ne st' ht (hne w (List.mem_filter.1 hw).1)

/-- The one open of a CID ends with its status. -/
theorem nameEnded_endOpens {w : CirWait} (hopens : s.cir.opens = [w]) (st : Nat) :
    nameEnded (endOpens s w.cid st) w.fn w.ring w.idx st := by
  have hend : endOpens s w.cid st =
      endHost { s with cir := { s.cir with opens := [] } } w.fn w.ring w.idx st := by
    simp [endOpens, hopens]
  rw [hend]
  exact nameEnded_endHost _ _ _ _ _

/-- As a CID closes, the one open that waits, whose descriptor no close names, ends with the status. -/
theorem nameEnded_closeCid {w : CirWait} (hopens : s.cir.opens = [w]) (hempty : srcqOf s w.cid = [])
    (hcloses : ∀ c ∈ s.cir.closes, (c.fn, c.ring, c.idx) ≠ (w.fn, w.ring, w.idx)) (st : Nat) :
    nameEnded (closeCid s w.cid st) w.fn w.ring w.idx st := by
  have hsrcq : (endOpens (setCir s w.cid 0) w.cid st).cir.srcq = s.cir.srcq := by rw [endOpens_eq]; rfl
  have hsame : (endOpens (setCir s w.cid 0) w.cid st).cir.closes = s.cir.closes := by rw [endOpens_eq]; rfl
  rw [closeCid, emptySource_nil ((srcqOf_congr hsrcq _).trans hempty)]
  rw [← hsame] at hcloses
  exact nameEnded_endCloses 0 (nameEnded_endOpens (s := setCir s w.cid 0) hopens st) hcloses

/-! ### Timers -/

theorem teardownForward_due {x : TearFwd} {rest : List TearFwd} (hfwd : s.cir.fwd = x :: rest) (hcid : x.cid = cid.toNat)
    (hdue : x.due ≤ nowNs s) :
    teardownForward cid s = sendCirBell { s with cir := { s.cir with fwd := rest } } x.port 5 x.cid x.status := by
  simp [teardownForward, hfwd, takeFirst, hcid, hdue]

theorem circuitHandshakeTimeout_late {w : CirWait} (hopens : s.cir.opens = [w]) (hcid : w.cid = cid.toNat)
    (hlate : w.since + 1000 * getF s R.cirPtmo 7 0 ≤ s.time.lamp) (hpending : cirState s cid.toNat = 1) :
    circuitHandshakeTimeout cid s =
      sendCirBell (raise (closeCid s cid.toNat 5) R.cirStat 2) (cirEport (cirNow s cid.toNat)) 5 cid.toNat 5 := by
  simp [circuitHandshakeTimeout, hopens, hcid, hlate, hpending]

theorem memNat_filter_ne (l : List Nat) (c : Nat) : memNat c (l.filter (· != c)) = false := by
  simp [memNat]

/-- The state with a CID closed whose binding had stopped, and its opens ended. -/
def closeSent (s : State) (c : Nat) : State :=
  endOpens (setCir { s with cir := { s.cir with closing := s.cir.closing.filter (· != c) } } c 0) c 8

/-- Beside the circuits only descriptors have changed then. -/
theorem closeSent_eq (s : State) (c : Nat) :
    closeSent s c = { s with
      host := (closeSent s c).host
      cir := { (setCir s c 0).cir with
        opens := s.cir.opens.filter fun w => w.cid != c
        closing := s.cir.closing.filter (· != c) } } :=
  endOpens_eq _ _ _

theorem cirState_closeSent (s : State) (c : Nat) : cirState (closeSent s c) c = 0 := by
  rw [closeSent_eq]
  exact cirState_setCir s c 0

theorem closing_closeSent (s : State) (c : Nat) : memNat c (closeSent s c).cir.closing = false := by
  rw [closeSent_eq]
  exact memNat_filter_ne _ _

theorem circuitCloseSend_last (hclosing : memNat cid.toNat s.cir.closing = true) (hempty : srcqOf s cid.toNat = []) :
    circuitCloseSend cid s = finishClose (sendCirBell (closeSent s cid.toNat)
      (cirEport (cirNow (closeSent s cid.toNat) cid.toNat)) 5 cid.toNat 0) cid.toNat := by
  simp only [circuitCloseSend, hclosing, hempty, List.isEmpty_nil, Bool.and_self, if_true]
  rfl

/-- What the end of closes leaves as it was. -/
theorem finishClose_frame (s : State) (c : Nat) :
    (finishClose s c).comp = s.comp ∧ (finishClose s c).deep = s.deep ∧ (finishClose s c).cir.live = s.cir.live ∧
      (memNat c s.cir.closing = false → memNat c (finishClose s c).cir.closing = false) := by
  unfold finishClose
  split
  · exact ⟨rfl, rfl, rfl, id⟩
  · rw [endCloses_eq]
    exact ⟨rfl, rfl, rfl, fun _ => memNat_filter_ne _ _⟩

/-! ### Shift changes -/

theorem leAt_lt (bs : List Byte) (i n : Nat) : leAt bs i n < 256 ^ n :=
  (leNat_lt _).trans_le (Nat.pow_le_pow_right (by decide) (by simp))

theorem shiftChangeBell_armed {p : Pkt} {rest : List Pkt} (hin : s.inbox = p :: rest) (htyp : p.f.typ = 6) (hcode : p.f.code = 7)
    (harm : flag s R.cirCtl 8 = true) :
    shiftChangeBell s = { wr64 { s with inbox := rest } R.cirShiftat (leAt p.f.payload 0 8) with
      cir := { s.cir with fired := false } } := by
  have harm' : flag { s with inbox := rest } R.cirCtl 8 = true := harm
  simp [shiftChangeBell, hin, takeFirst, htyp, hcode, harm']

theorem shiftChangeStart_armed (hset : rd64 s R.cirShiftat ≠ 0) (hdue : rd64 s R.cirShiftat ≤ nowNs s)
    (hfired : s.cir.fired = false) (hdrain : s.cir.drain = none) (harm : flag s R.cirCtl 8 = true) :
    shiftChangeStart s = { s with cir := { s.cir with
      drain := some (s.time.lamp + 1000 * getF s R.cirCtl 19 16), fired := true } } := by
  simp [shiftChangeStart, hset, hdue.not_gt, hfired, hdrain, harm]

/-- Live states of circuits are all that has changed. -/
def onlyLive (s t : State) : Prop := ∃ l, t = { s with cir := { s.cir with live := l } }

/-- Circuits, their drain excepted, and the host's part are all that has changed. -/
def onlyCircuits (s t : State) : Prop := ∃ x c, t = { s with host := x, cir := c } ∧ c.drain = s.cir.drain

theorem onlyLive_openAuto (s : State) : onlyLive s (openAuto s) := by
  refine List.foldlRecOn (motive := onlyLive s) _ _ ⟨_, rfl⟩ fun u hu x _ => ?_
  obtain ⟨l, rfl⟩ := hu
  dsimp only
  split
  · exact ⟨_, rfl⟩
  · exact ⟨_, rfl⟩

/-- The circuits of a bank that goes: every live CID closes, and the opens and closes that wait end. -/
def bankEnded (s : State) : State :=
  let t := (liveCids s).foldl (fun s c => setCir s c 0) s
  let t := (t.cir.opens.map (·.cid)).foldl (fun s c => endOpens s c 8) t
  (t.cir.closes.map (·.cid)).foldl (fun s c => endCloses s c 0) t

theorem onlyCircuits_bankEnded (s : State) : onlyCircuits s (bankEnded s) := by
  refine List.foldlRecOn (motive := onlyCircuits s) _ _ (List.foldlRecOn (motive := onlyCircuits s) _ _
    (List.foldlRecOn (motive := onlyCircuits s) _ _ ⟨_, _, rfl, rfl⟩ ?state) ?opens) ?closes
  case state =>
    rintro _ ⟨x, c, rfl, hdrain⟩ cid -
    exact ⟨_, _, rfl, hdrain⟩
  case opens =>
    rintro _ ⟨x, c, rfl, hdrain⟩ cid -
    exact ⟨_, _, endOpens_eq _ _ _, hdrain⟩
  case closes =>
    rintro _ ⟨x, c, rfl, hdrain⟩ cid -
    exact ⟨_, _, endCloses_eq _ _ _, hdrain⟩

/-- The registers as the flip of the CIR bank leaves them: the other bank, and ARM clear. -/
def cirBankSwapped (s : State) : State := setF (setF s R.cirCtl 0 0 (1 - cirBank s)) R.cirCtl 8 8 0

/-- With no frame waiting at a source or in transit the flip ends the circuits of the bank and opens those of the other. -/
theorem cirShift_quiet (hsrcq : s.cir.srcq = []) (hslots : s.cir.slots = []) :
    ∃ x c, cirShift s = { cirBankSwapped s with host := x, cir := c } ∧ c.drain = s.cir.drain ∧ c.closing = [] := by
  have hshift : cirShift s = openAuto (cirBankSwapped { bankEnded s with
      cir := { (bankEnded s).cir with srcq := [], slots := [], closing := [] } }) := by
    rw [cirShift, hsrcq, hslots]
    rfl
  obtain ⟨x, c, hended, hdrain⟩ := onlyCircuits_bankEnded s
  rw [hended] at hshift
  obtain ⟨l, hopen⟩ := onlyLive_openAuto (cirBankSwapped { s with
    host := x, cir := { c with srcq := [], slots := [], closing := [] } })
  exact ⟨_, _, hshift.trans hopen, hdrain, rfl⟩

theorem shiftChangeFlip_cir {t0 : Nat} (hdrain : s.cir.drain = some t0) (hover : t0 ≤ s.time.lamp)
    (harm : flag s R.cirCtl 8 = true) (hfab : flag s R.fabEpoch 8 = false) :
    shiftChangeFlip s = cirShift { s with cir := { s.cir with drain := none } } := by
  have harm' : flag { s with cir := { s.cir with drain := none } } R.cirCtl 8 = true := harm
  have hfab' : flag { s with cir := { s.cir with drain := none } } R.fabEpoch 8 = false := hfab
  simp [shiftChangeFlip, hdrain, hover.not_gt, harm', hfab']

theorem cirBank_lt (s : State) : cirBank s < 2 := getF_lt s R.cirCtl 0 0

theorem cirBank_cirBankSwapped (s : State) : cirBank (cirBankSwapped s) = 1 - cirBank s := by
  have hlt := cirBank_lt s
  rw [cirBank, cirBankSwapped, getF_setF_apart _ _ _ (by decide) (by decide) (by decide),
    getF_setF_same _ _ _ (by decide) (by decide)]
  omega

theorem flag_cirBankSwapped (s : State) : flag (cirBankSwapped s) R.cirCtl 8 = false := by
  rw [cirBankSwapped, flag_setF_same _ _ _ (by decide) (by decide)]
  rfl

theorem sameRegs_cirBankSwapped (s : State) : sameRegs s (cirBankSwapped s) [R.cirCtl] :=
  sameRegs_trans (sameRegs_setF _ _ _ _ (by simp)) (sameRegs_setF _ _ _ _ (by simp))

end Sys2Proof.Machine

open Sys2Proof Sys2Proof.Machine

/-- Settles O30: the timers close their CIDs (`closeCid_eq`, `endOpens_eq`, `finishClose_frame`), and with nothing waiting the flip
at the end of the drain swaps the bank and ends its circuits (`cirShift_quiet`). -/
theorem circuitTimersAndShifts : Obligations.CircuitTimersAndShifts := by
  unfold Obligations.CircuitTimersAndShifts
  refine ⟨⟨?forward, ?timeout, ?closed⟩, ?bell, ?start, ?flip⟩
  case forward =>
    intro s cid x rest hfwd hcid hdue
    have hexec : exec (.teardownForward cid) s = .next (teardownForward cid s) := rfl
    rw [teardownForward_due hfwd hcid hdue] at hexec
    refine ⟨_, hexec, ?_, ?_, sendCirBell_comp _ _ _ _ _, sendCirBell_deep _ _ _ _ _⟩ <;> rw [sendCirBell_cir]
  case timeout =>
    intro s cid w hopens hcid hlate hpending hempty hcloses
    have hexec : exec (.circuitHandshakeTimeout cid) s = .next (circuitHandshakeTimeout cid s) := rfl
    rw [circuitHandshakeTimeout_late hopens hcid hlate hpending] at hexec
    have hnone : (cidClosed s cid.toNat).opens = [] := by simp [cidClosed, hopens, hcid]
    refine ⟨_, hexec, ?state, ?opens, ?told, ?descs, ?_, ?_⟩
    case state =>
      rw [cirState_sendCirBell]
      exact cirState_closeCid hempty 5
    case opens => rw [sendCirBell_cir, raise_cir, closeCid_cir hempty, hnone]
    case told =>
      rw [flag_congr_regs (sendCirBell_regs _ _ _ _ _)]
      exact flag_raise_same _ _ (by decide)
    case descs =>
      rw [sendCirBell_host, raise_host]
      rw [← hcid] at hempty ⊢
      exact nameEnded_closeCid hopens hempty hcloses 5
    · rw [sendCirBell_comp, raise_comp, closeCid_eq hempty]
    · rw [sendCirBell_deep, raise_deep, closeCid_eq hempty]
  case closed =>
    intro s cid hclosing hempty
    have hexec : exec (.circuitCloseSend cid) s = .next (circuitCloseSend cid s) := rfl
    rw [circuitCloseSend_last hclosing hempty] at hexec
    obtain ⟨hcomp, hdeep, hlive, hkept⟩ := finishClose_frame (sendCirBell (closeSent s cid.toNat)
      (cirEport (cirNow (closeSent s cid.toNat) cid.toNat)) 5 cid.toNat 0) cid.toNat
    refine ⟨_, hexec, (cirState_congr hlive _).trans ?_, hkept ?_, hcomp.trans ?_, hdeep.trans ?_⟩
    · rw [cirState_sendCirBell, cirState_closeSent]
    · rw [sendCirBell_cir, closing_closeSent]
    · rw [sendCirBell_comp, closeSent_eq]
    · rw [sendCirBell_deep, closeSent_eq]
  case bell =>
    intro s p rest hin htyp hcode harm
    have hexec : exec .shiftChangeBell s = .next (shiftChangeBell s) := rfl
    rw [shiftChangeBell_armed hin htyp hcode harm] at hexec
    refine ⟨_, hexec, ?_, rfl, rfl, sameRegs_trans (sameRegs_of_regs rfl _) (sameRegs_wr64 { s with inbox := rest } _ _)⟩
    exact (rd64_wr64_same { s with inbox := rest } _ _).trans (Nat.mod_eq_of_lt (leAt_lt _ 0 8))
  case start =>
    intro s hset hdue hfired hdrain harm
    have hexec : exec .shiftChangeStart s = .next (shiftChangeStart s) := rfl
    rw [shiftChangeStart_armed hset hdue hfired hdrain harm] at hexec
    exact ⟨_, hexec, rfl, rfl, rfl⟩
  case flip =>
    intro s t0 hdrain hover harm hfab hsrcq hslots
    have hexec : exec .shiftChangeFlip s = .next (shiftChangeFlip s) := rfl
    obtain ⟨x, c, hshift, hnone, hclosing⟩ :=
      cirShift_quiet (s := { s with cir := { s.cir with drain := none } }) hsrcq hslots
    rw [shiftChangeFlip_cir hdrain hover harm hfab, hshift] at hexec
    exact ⟨_, hexec, hnone, cirBank_cirBankSwapped s, flag_cirBankSwapped s, hclosing, sameRegs_cirBankSwapped s, rfl, rfl⟩
end

section
/-! PROOFS. What a port sends out of a slot or out of its packet queue (08 R309, R313, R658; 15 R551, R554), and its statement. -/

namespace Sys2Proof.Machine

variable {s t : State} {e : QEntry}

/-! ### One frame on the wire -/

/-- With no mirror a frame sent leaves as one link unit and waits unacknowledged under the next LSEQ. -/
theorem sendOn_off (hmir : flag s R.mirCtl 31 = false) (p : Nat) (e : QEntry) :
    ∃ b x, sendOn s p e = setPort (emit s (.linkUnit p b)) p x ∧ x.next = ((portOf s p).next + 1) % 16384 ∧
      x.unacked = (portOf s p).unacked ++ [⟨(portOf s p).next, e⟩] := by
  rw [sendOn, mirrorSee_off hmir]
  exact ⟨_, _, rfl, rfl, rfl⟩

/-- A port with no control frame leaves the guard empty. -/
theorem sendGuard_nil {p : Nat} (h : ctlOf s p = []) : sendGuard s p = s := by
  simp [sendGuard, h]

/-! ### Slots -/

@[simp] theorem wireOf_setWire_same (s : State) (p : Nat) (w : WireSt) : wireOf (setWire s p w) p = w :=
  SMap.getD_setD_same _ _ _ _

/-- A frame is committed out of the circuits' part of the state. -/
theorem committed_eq {p k : Nat} (h : committed s p k = some (e, t)) : ∃ c, t = { s with cir := c } := by
  unfold committed at h
  dsimp only at h
  split at h
  · cases h
    exact ⟨_, rfl⟩
  · split at h
    · cases h
    · split at h
      · cases h
      · split at h
        · cases h
          exact ⟨_, rfl⟩
        · cases h

/-- No frame is behind its slot. -/
theorem dropSlots_none {p k : Nat} (h : ∀ x ∈ s.cir.slots, x.port = p → k ≤ x.slot) :
    dropSlots s p (fun x => decide (x.slot < k)) = s := by
  have hkeep : ∀ x ∈ s.cir.slots, (x.port == p && decide (x.slot < k)) = false := by
    intro x hx
    by_cases hp : x.port = p
    · simp [hp, h x hx hp]
    · simp [hp]
  have hhit : s.cir.slots.filter (fun x => x.port == p && decide (x.slot < k)) = [] :=
    List.filter_eq_nil_iff.2 fun x hx => by simp [hkeep x hx]
  have hrest : s.cir.slots.filter (fun x => !(x.port == p && decide (x.slot < k))) = s.cir.slots :=
    List.filter_eq_self.2 fun x hx => by simp [hkeep x hx]
  simp only [dropSlots, hhit, hrest, List.foldl_nil]

/-- A slot that begins with a committed frame, on a port with no control frame, carries it alone. -/
theorem cageSlotStart_committed {p : Port} (hup : portUp s p.val = true) (hroom : linkRoom s p.val = true)
    (hwide : getF s (R.prtStat p.val) 5 4 = 3) (hnew : slotServed s p.val (slotNow s) = false)
    (hearly : nowNs s ≤ 24 * slotNow s + 12) (hslots : ∀ x ∈ s.cir.slots, x.port = p.val → slotNow s ≤ x.slot)
    (hcom : committed s p.val (slotNow s) = some (e, t)) :
    cageSlotStart p s = sendGuard (setWire (sendOn t p.val e) p.val
      { wireOf t p.val with slot := slotNow s + 1, used := 4736 }) p.val := by
  simp [cageSlotStart, hup, hwide, dropSlots_none hslots, hnew, hroom, hearly, hcom]

/-! ### Packet queues -/

/-- A narrow port that is UP with no control frame sends the head of its packet queue, where it lies in the buffer. -/
theorem portTransmit_packet {p : Port} {r : List QEntry} (hup : portUp s p.val = true) (hroom : linkRoom s p.val = true)
    (hnarrow : getF s (R.prtStat p.val) 5 4 ≠ 3) (hctl : ctlOf s p.val = []) (hq : (queueOf s p.val).frames = e :: r)
    (hsump : e.sump = false) :
    portTransmit p s = sendOn (setQueue s p.val { queueOf s p.val with frames := r }) p.val e := by
  have hstate : portState s p.val = 2 := by
    simp only [portUp, Bool.and_eq_true, beq_iff_eq] at hup
    exact hup.1
  simp [portTransmit, hstate, hup, hnarrow, hctl, sendPacket, hq, hsump, hroom]

end Sys2Proof.Machine

open Sys2Proof Sys2Proof.Machine

/-- Settles O43: a committed frame (`cageSlotStart_committed`) or the head of a packet queue (`portTransmit_packet`) is sent alone,
and sending is one link unit and one more unacknowledged frame (`sendOn_off`). -/
theorem portSends : Obligations.PortSends := by
  unfold Obligations.PortSends
  intro s p hup hroom hmir
  refine ⟨fun e t0 hwide hnew hearly hslots hcom hctl => ?slot, fun e r hnarrow hctl hq hsump => ?packet⟩
  case slot =>
    have hexec : exec (.cageSlotStart p) s = .next (cageSlotStart p s) := rfl
    rw [cageSlotStart_committed hup hroom hwide hnew hearly hslots hcom] at hexec
    obtain ⟨c, rfl⟩ := committed_eq hcom
    obtain ⟨b, x, hsend, hnext, hunacked⟩ := sendOn_off (s := { s with cir := c }) hmir p.val e
    rw [hsend, sendGuard_nil (by exact hctl)] at hexec
    have hport : ∀ u : State, portOf (setPort u p.val x) p.val = x := fun u => portOf_setPort_same u _ _
    refine ⟨_, b, hexec, rfl, ?_, ?_, ?_, rfl, rfl, rfl, rfl, rfl⟩
    · exact (congrArg PortSt.next (hport _)).trans hnext
    · exact (congrArg PortSt.unacked (hport _)).trans hunacked
    · simp [slotServed]
  case packet =>
    have hexec : exec (.portTransmit p) s = .next (portTransmit p s) := rfl
    rw [portTransmit_packet hup hroom hnarrow hctl hq hsump] at hexec
    obtain ⟨b, x, hsend, hnext, hunacked⟩ :=
      sendOn_off (s := setQueue s p.val { queueOf s p.val with frames := r }) hmir p.val e
    rw [hsend] at hexec
    refine ⟨_, b, hexec, rfl, ?_, ?_, ?_, ?_, rfl, rfl, rfl, rfl⟩
    · rw [portOf_setPort_same, hnext]
      rfl
    · rw [portOf_setPort_same, hunacked]
      rfl
    · exact congrArg PktQ.frames (queueOf_setQueue_same s p.val _)
    · exact fun q hne => queueOf_setQueue_ne s _ hne
end

section
/-! PROOFS. A host frame that its shaper passes, and a frame that waits for a control queue (09 R342, R346, R348, R352), and their
statement. -/

namespace Sys2Proof.Machine

variable {s : State} {p : Pkt} {q fn : Nat} {h : Frame}

/-! ### What the lookup does not read -/

/-- The state with other buckets and other frames that wait for a shaper. -/
def withBuckets (s : State) (door : List DoorPkt) (shp : SMap Shaper) (pol : SMap Policer) : State :=
  { s with fab := { s.fab with door := door, shp := shp, pol := pol } }

variable (door : List DoorPkt) (shp : SMap Shaper) (pol : SMap Policer)

theorem shallowest_withBuckets (s : State) (l : List Nat) : shallowest (withBuckets s door shp pol) l = shallowest s l := by
  induction l with
  | nil => rfl
  | cons p r ih =>
    rw [shallowest, shallowest, ih]
    rfl

theorem choosePort_withBuckets (s : State) (f : Frame) (l : List Nat) :
    choosePort (withBuckets s door shp pol) f l = choosePort s f l := by
  rw [choosePort, choosePort, shallowest_withBuckets]

theorem unicastPort_withBuckets (s : State) (bank : Nat) (f : Frame) (arr : Option Nat) :
    unicastPort (withBuckets s door shp pol) bank f arr = unicastPort s bank f arr := by
  simp only [unicastPort, choosePort_withBuckets]
  rfl

/-- The lookup of a frame reads neither buckets nor what waits for a shaper. -/
theorem routeFrame_withBuckets (s : State) (bank : Nat) (f : Frame) (arr : Option Nat) :
    routeFrame (withBuckets s door shp pol) bank f arr = routeFrame s bank f arr := by
  simp only [routeFrame, lookup, unicastPort_withBuckets]
  rfl

/-! ### A frame that is placed at once -/

/-- The lookup of a frame of the door that goes to the packet queue of one port, which is not deep and has room in the pool: what
admission asks of it (R342, R359). -/
structure FitsPort (s : State) (p : Pkt) (q : Nat) (h : Frame) : Prop where
  port : q < 64
  route : routeFrame s (curEpoch s % 2) (completeHeader s p.org p.f.cls 0 p.f) none = ⟨[⟨.port q, h, none⟩], 0, false⟩
  shallow : (queueOf s q).avg ≤ bits (rd s (R.swqEdp 0)) 7 0 * lcapQ s q
  cap : depthQ s q + (completeHeader s p.org p.f.cls 0 p.f).size ≤ lcapQ s q
  pool : placeAt s q h = some false

/-- Buckets and the frames that wait for a shaper have no part in it. -/
theorem FitsPort.withBuckets (hfit : FitsPort s p q h) : FitsPort (withBuckets s door shp pol) p q h where
  port := hfit.port
  route := (routeFrame_withBuckets door shp pol s _ _ _).trans hfit.route
  shallow := hfit.shallow
  cap := hfit.cap
  pool := hfit.pool

/-- The state in which a frame of the door has joined the packet queue of a port. -/
def queued (s : State) (p : Pkt) (q : Nat) (h : Frame) : State :=
  setQueue s q { queueOf s q with
    frames := (queueOf s q).frames ++ [⟨p.uid, h, p.org, nowNs s, false, none, none⟩] }

theorem placeAll_port (p : Pkt) (hpool : placeAt s q h = some false) :
    placeAll s p [⟨.port q, h, none⟩] = some (queued s p q h) := by
  simp [placeAll, putCopy, hpool, queued, mkEntry]

/-- A green frame meets no early drop where its queue's average is below the profile (R359). -/
theorem earlyDrop_shallow (hport : q < 64) (hshallow : (queueOf s q).avg ≤ bits (rd s (R.swqEdp 0)) 7 0 * lcapQ s q) :
    earlyDrop s [q] 0 = (s, false) := by
  have hprofile : ¬ (64 ≤ q ∧ q < 72) := by omega
  simp [earlyDrop, earlyDrop1, hprofile, hshallow]

theorem settle_port (hfit : FitsPort s p q h) : settle s p true = (markAdmitted (queued s p q h) p.org, false) := by
  simp only [settle, hfit.route, placeAll_port p hfit.pool, Bool.not_true, Bool.false_and, Bool.false_eq_true, if_false]
  rfl

/-! ### The policer -/

/-- A policer that is off marks every frame green. -/
theorem mark_of_off {c : Policer} (hoff : c.en = false) (b : Nat) : Policer.mark c b = (0, c) := by simp [Policer.mark, hoff]

theorem tick_en (c : Policer) (now : Nat) : (Policer.tick c now).en = c.en := by
  cases c
  rfl

/-- The state with a policer brought to the time base. -/
def policerTicked (s : State) (k : Nat) : State := setPol s k ((polOf s k).tick s.time.now)

/-- Where its policer is off and no frame waits, a frame that fits its port is placed there. -/
theorem police_off (hfn : Origin.fn p.org = some fn) (hoff : (polOf s (2 * fn + p.f.cls - 1)).en = false)
    (hwait : s.fab.waiting = []) (hfit : FitsPort s p q h) :
    (police s p).1 = markAdmitted (queued (policerTicked s (2 * fn + p.f.cls - 1)) p q h) p.org := by
  have hmark := mark_of_off (c := (polOf s (2 * fn + p.f.cls - 1)).tick s.time.now) ((tick_en _ _).trans hoff) p.f.size
  rw [police, hfn]
  dsimp only
  rw [hmark]
  dsimp only
  rw [← policerTicked.eq_def]
  have hfit : FitsPort (policerTicked s (2 * fn + p.f.cls - 1)) p q h := hfit.withBuckets s.fab.door s.fab.shp _
  have hqueues : queuesOf ⟨[⟨.port q, h, none⟩], 0, false⟩ = [q] := rfl
  have hwait : (policerTicked s (2 * fn + p.f.cls - 1)).fab.waiting = [] := hwait
  generalize policerTicked s (2 * fn + p.f.cls - 1) = u at hfit hwait ⊢
  have hcap : ¬ lcapQ u q < depthQ u q + (completeHeader u p.org p.f.cls 0 p.f).size := hfit.cap.not_gt
  simp [hfit.route, hqueues, earlyDrop_shallow hfit.port hfit.shallow, hwait, hcap, settle_port hfit]

/-! ### The rows -/

/-- The state in which a shaper has passed the first frame that waits for it. -/
def shaperPassed (s : State) (k : Nat) (rest : List DoorPkt) (sh : Shaper) : State :=
  setShp { s with fab := { s.fab with door := rest } } k sh

/-- The first frame that waits is the host's, and its shaper holds its tokens: it goes on to policing. -/
theorem shaperPass_host {k : Fin 1026} {x : DoorPkt} {rest : List DoorPkt} {sh : Shaper} {ring idx : Nat}
    (hdoor : s.fab.door = x :: rest) (hk : x.k = k.val) (horg : x.pkt.org = .host fn ring idx) (hopen : fnState s fn = 1)
    (hpass : Shaper.pass (Shaper.tick (shpOf s k.val) s.time.now) x.pkt.f.size = some sh) :
    shaperPass k s = (police (shaperPassed s k.val rest sh) x.pkt).1 := by
  have htake : takeFirst (fun x : DoorPkt => x.k == k.val) s.fab.door = some (x, rest) := by simp [hdoor, takeFirst, hk]
  have hopen : closedFn (shaperPassed s k.val rest sh) (.host fn ring idx) = false := by
    have hstate : fnState (shaperPassed s k.val rest sh) fn = 1 := hopen
    simp [closedFn, Origin.fn, hstate]
  have hthrottle : throttle (shaperPassed s k.val rest sh) (.host fn ring idx) = shaperPassed s k.val rest sh := rfl
  simp only [shaperPass, htake, hpass, horg, ← shaperPassed.eq_def, hthrottle, hopen, Bool.false_eq_true, if_false]

/-- The one frame that waits is the device's, for a port with room in its control queue: it joins that queue. -/
theorem admitResume_device {w : WaitPkt} {c : Nat} (hwait : s.fab.waiting = [w]) (hvia : w.via = some q)
    (horg : w.pkt.org = .device c) (hup : portUp s q = true) (hroom : (ctlOf s q).length < 64) :
    admitResume 0 s = setCtl { s with fab := { s.fab with waiting := [] } } q
      (ctlOf s q ++ [⟨w.pkt.uid, w.pkt.f, w.pkt.org, nowNs s, false, w.gsrc, none⟩]) := by
  have hup : portUp { s with fab := { s.fab with waiting := [] } } q = true := hup
  have hroom : ¬ 64 ≤ (ctlOf { s with fab := { s.fab with waiting := [] } } q).length := hroom.not_ge
  simp only [admitResume, hwait, List.getElem?_cons_zero, List.take_zero, List.any_nil, List.eraseIdx_cons_zero, retryWait, hvia,
    hup, if_neg hroom, Bool.not_true, Bool.false_eq_true, if_false, horg]
  rfl

end Sys2Proof.Machine

open Sys2Proof Sys2Proof.Machine

/-- Settles O41: a frame that its shaper passes meets a policer that is off (`police_off`) and a queue that it fits
(`settle_port`), and a frame that waits for a control queue takes its place there (`admitResume_device`). -/
theorem shapersAndWaits : Obligations.ShapersAndWaits := by
  unfold Obligations.ShapersAndWaits
  refine ⟨?shaper, ?waits⟩
  case shaper =>
    intro s k x rest sh fn ring idx q h hdoor hwait hk horg hopen hpass hoff hport hroute hshallow hcap hpool
    have hexec : exec (.shaperPass k) s = .next (shaperPass k s) := rfl
    have hfit : FitsPort s x.pkt q h := ⟨hport, hroute, hshallow, hcap, hpool⟩
    have hfit : FitsPort (shaperPassed s k.val rest sh) x.pkt q h := hfit.withBuckets rest _ s.fab.pol
    have hfn : Origin.fn x.pkt.org = some fn := by rw [horg]; rfl
    rw [shaperPass_host hdoor hk horg hopen hpass, police_off (s := shaperPassed s k.val rest sh) hfn hoff hwait hfit] at hexec
    have hmark : ∀ u : State, markAdmitted u x.pkt.org = markAdmitted u (.host fn ring idx) := fun u => by rw [horg]
    rw [hmark] at hexec
    refine ⟨_, hexec, ?_, rfl, ?_, rfl, rfl, rfl, rfl⟩
    · exact shpOf_setShp_same { s with fab := { s.fab with door := rest } } k.val sh
    · exact congrArg PktQ.frames (queueOf_setQueue_same (policerTicked (shaperPassed s k.val rest sh) _) q _)
  case waits =>
    intro s w q c hwait hvia horg hup hroom
    have hexec : exec (.admitResume 0) s = .next (admitResume 0 s) := rfl
    rw [admitResume_device hwait hvia horg hup hroom] at hexec
    exact ⟨_, hexec, rfl, ctlOf_setCtl_same _ _ _, rfl⟩
end

section
/-! PROOFS. Averages, histograms, canaries and mirror records (09 R358, R367, R369, R373), and their statement. -/

namespace Sys2Proof.Machine

variable {s t : State} {p : Pkt} {q : Nat}

/-! ### Averages (R358) -/

/-- The depth of a queue is read from that queue, or from its mill. -/
theorem depthQ_congr (hq : queueOf t q = queueOf s q) (hm : t.mills = s.mills) : depthQ t q = depthQ s q := by
  simp only [depthQ, depthOf, hq, millDepth, millOf, hm]

/-- A queue with its average updated. -/
def averaged (s : State) (q : Nat) : PktQ :=
  { queueOf s q with avg := avgStep (queueOf s q).avg (depthQ s q) (getF s R.swqCtl 19 16) }

theorem averaged_congr (hq : queueOf t q = queueOf s q) (hm : t.mills = s.mills) (hr : t.regs = s.regs) :
    averaged t q = averaged s q := by
  rw [averaged, averaged, hq, depthQ_congr hq hm, getF_congr_regs hr]

/-- The state in which the first n queues have taken their averages. -/
def averagesTaken (s : State) (n : Nat) : State := (List.range n).foldl (fun s q => setQueue s q (averaged s q)) s

theorem averagesTaken_succ (s : State) (n : Nat) :
    averagesTaken s (n + 1) = setQueue (averagesTaken s n) n (averaged (averagesTaken s n) n) := by
  rw [averagesTaken, List.range_succ, List.foldl_concat]
  rfl

theorem averagesTaken_eq (s : State) (n : Nat) :
    averagesTaken s n = { s with fab := { s.fab with queues := (averagesTaken s n).fab.queues } } := by
  induction n with
  | zero => rfl
  | succ n ih =>
    rw [averagesTaken_succ]
    generalize averagesTaken s n = t at ih ⊢
    rw [ih]
    rfl

/-- Each of them is updated once, from what it held before. -/
theorem queueOf_averagesTaken (s : State) (n q : Nat) :
    queueOf (averagesTaken s n) q = if q < n then averaged s q else queueOf s q := by
  induction n with
  | zero => rfl
  | succ n ih =>
    rw [averagesTaken_succ]
    by_cases hq : q = n
    · subst hq
      rw [if_neg (lt_irrefl q)] at ih
      rw [queueOf_setQueue_same, if_pos (Nat.lt_succ_self q)]
      exact averaged_congr ih (by rw [averagesTaken_eq]) (by rw [averagesTaken_eq])
    · rw [queueOf_setQueue_ne _ _ hq, ih]
      exact if_congr (by omega) rfl rfl

theorem queueAvgUpdate_due (h : s.fab.avgAt + 256 ≤ 5 * s.time.lamp) :
    queueAvgUpdate s = averagesTaken { s with fab := { s.fab with avgAt := s.fab.avgAt + 256 } } 88 := by
  rw [queueAvgUpdate, if_neg h.not_gt]
  rfl

/-! ### Histograms (R367) -/

theorem SMap.getD_put_same {α : Type} (m : SMap α) (k : Nat) (v d : α) : SMap.getD (SMap.put m k v) k d = v := by
  rw [SMap.getD, SMap.find_put_same, Option.getD_some]

theorem SMap.getD_put_ne {α : Type} (m : SMap α) {k k' : Nat} (v d : α) (h : k' ≠ k) :
    SMap.getD (SMap.put m k v) k' d = SMap.getD m k' d := by
  rw [SMap.getD, SMap.find_put_ne m v h, SMap.getD]

theorem depthBin_lt (n : Nat) : depthBin n < 16 := by
  unfold depthBin
  split <;> omega

/-- The bin of a queue's depth. -/
def depthKey (s : State) (q : Nat) : Nat := 16 * q + depthBin (depthOf s q)

theorem depthKey_ne {q r : Nat} (h : q ≠ r) : depthKey s q ≠ depthKey s r := by
  have hq := depthBin_lt (depthOf s q)
  have hr := depthBin_lt (depthOf s r)
  unfold depthKey
  omega

/-- The time that the head of a queue has waited. -/
def headWait (s : State) (q : Nat) : Nat :=
  match (queueOf s q).frames with
  | [] => 0
  | e :: _ => nowNs s - e.since

/-- A bin that has risen by 1. -/
def binRisen (m : SMap Nat) (k : Nat) : SMap Nat := SMap.put m k (satAdd 32 (SMap.getD m k 0) 1)

/-- The state in which a queue has been sampled. -/
def queueSampled (s : State) (q : Nat) : State :=
  { s with fab := { s.fab with
      liveDep := binRisen s.fab.liveDep (depthKey s q)
      liveDly := binRisen s.fab.liveDly (16 * q + delayBin (headWait s q)) } }

/-- The state in which the first n queues have been sampled. -/
def queuesSampled (s : State) (n : Nat) : State := (List.range n).foldl queueSampled s

theorem queuesSampled_succ (s : State) (n : Nat) : queuesSampled s (n + 1) = queueSampled (queuesSampled s n) n := by
  rw [queuesSampled, List.range_succ, List.foldl_concat]
  rfl

theorem queuesSampled_eq (s : State) (n : Nat) :
    queuesSampled s n = { s with fab := { s.fab with
      liveDep := (queuesSampled s n).fab.liveDep, liveDly := (queuesSampled s n).fab.liveDly } } := by
  induction n with
  | zero => rfl
  | succ n ih =>
    rw [queuesSampled_succ]
    generalize queuesSampled s n = t at ih ⊢
    rw [ih]
    rfl

/-- Samples do not move a queue's bin. -/
theorem depthKey_queuesSampled (s : State) (n q : Nat) : depthKey (queuesSampled s n) q = depthKey s q := by
  rw [queuesSampled_eq]
  rfl

/-- A queue's depth bin rises with its own sample alone. -/
theorem liveDep_queuesSampled (s : State) (n q : Nat) :
    SMap.getD (queuesSampled s n).fab.liveDep (depthKey s q) 0 =
      if q < n then satAdd 32 (SMap.getD s.fab.liveDep (depthKey s q) 0) 1 else SMap.getD s.fab.liveDep (depthKey s q) 0 := by
  induction n with
  | zero => rfl
  | succ n ih =>
    have hbins : (queuesSampled s (n + 1)).fab.liveDep = binRisen (queuesSampled s n).fab.liveDep (depthKey s n) := by
      rw [queuesSampled_succ, queueSampled, depthKey_queuesSampled]
    rw [hbins, binRisen]
    by_cases hq : q = n
    · subst hq
      rw [if_neg (lt_irrefl q)] at ih
      rw [SMap.getD_put_same, ih, if_pos (Nat.lt_succ_self q)]
    · rw [SMap.getD_put_ne _ _ _ (depthKey_ne hq), ih]
      exact if_congr (by omega) rfl rfl

theorem histogramSample_due (h : s.fab.sampleAt + 4 * getF s R.swqHctl 15 0 ≤ 5 * s.time.lamp) :
    histogramSample s =
      queuesSampled { s with fab := { s.fab with sampleAt := s.fab.sampleAt + 4 * getF s R.swqHctl 15 0 } } 72 := by
  rw [histogramSample]
  simp only [if_neg h.not_gt]
  rfl

/-! ### Canaries (R369) -/

/-- The state in which a probe slot has counted a canary that it sends. -/
def canaryCounted (s : State) (k : Nat) : State :=
  bump { s with fab := { s.fab with
    probeSeq := SMap.put s.fab.probeSeq k ((SMap.getD s.fab.probeSeq k 0 + 1) % 8192)
    probeAt := SMap.put s.fab.probeAt k s.time.lamp } } (R.swqCny5 k) 1

/-- The canary of a probe slot. -/
def canaryFrame (s : State) (k : Nat) : Frame :=
  { Frame.blank with
    typ := 7, cls := getF s (R.swqCny0 k) 1 0, dst := getF s (R.swqCny1 k) 15 0, src := getF s R.gngUep 15 0,
    job := getF s (R.swqCny1 k) 27 16, len := 1
    tsw := getF s (R.swqCny0 k) 2 2 + 65536 * (k + 8 * SMap.getD s.fab.probeSeq k 0),
    payload := leBytes 8 (nowNs s) ++ zeros 8 }

theorem getF_canaryCounted (s : State) {off k : Nat} (h : off ≠ R.swqCny5 k) (hi lo : Nat) :
    getF (canaryCounted s k) off hi lo = getF s off hi lo := getF_congr_rd (rd_bump_ne _ 1 h) hi lo

theorem canarySend_due {n : Fin 8} (hen : flag s (R.swqCny0 n) 31 = true) (hdue : canaryDue s n.val = true) :
    canarySend n s = sendFrame (canaryCounted s n) (.device 0x7F4) (canaryFrame s n) := by
  have hcny0 : R.swqCny0 n ≠ R.swqCny5 n := by unfold R.swqCny0 R.swqCny5; omega
  have hcny1 : R.swqCny1 n ≠ R.swqCny5 n := by unfold R.swqCny1 R.swqCny5; omega
  have huep : R.gngUep ≠ R.swqCny5 n := by unfold R.gngUep R.swqCny5; omega
  rw [canaryFrame, ← getF_canaryCounted s hcny0, ← getF_canaryCounted s hcny0, ← getF_canaryCounted s hcny1,
    ← getF_canaryCounted s hcny1, ← getF_canaryCounted s huep]
  simp only [canarySend, hen, hdue, Bool.not_true, Bool.or_self, Bool.false_eq_true, if_false]
  rfl

theorem rd_canaryCounted (s : State) (k : Nat) :
    rd (canaryCounted s k) (R.swqCny5 k) = min (2 ^ 32 - 1) (rd s (R.swqCny5 k) % 2 ^ 32 + 1) := rd_bump_same _ _ _

theorem sameRegs_canaryCounted (s : State) (k : Nat) : sameRegs s (canaryCounted s k) [R.swqCny5 k] :=
  sameRegs_trans (sameRegs_of_regs rfl _) (sameRegs_bump _ 1 (List.mem_singleton_self _))

/-- A canary names its slot. -/
theorem slot_canaryFrame (s : State) {k : Nat} (hk : k < 8) : (canaryFrame s k).tsw / 65536 % 8 = k := by
  have hecho := getF_lt s (R.swqCny0 k) 2 2
  rw [canaryFrame]
  dsimp only
  omega

/-- The first canary delivered, where it heads the inbox, is taken. -/
theorem takeFirst_canary {rest : List Pkt} (hin : s.inbox = p :: rest) (htyp : p.f.typ = 7) :
    takeFirst (fun p : Pkt => p.f.typ == 7) s.inbox = some (p, rest) := by
  rw [hin, takeFirst, htyp]
  rfl

/-- The echo of a canary request. -/
def canaryEcho (s : State) (f : Frame) : Frame :=
  { Frame.blank with
    typ := 7, cls := if f.cls = 3 then 3 else 1, dst := f.src
    src := if f.mc then getF s R.gngUep 15 0 else f.dst, job := f.job, len := 1, tsw := f.tsw - 1
    payload := f.payload.take 8 ++ leBytes 8 (nowNs s) }

theorem canaryArrive_request {rest : List Pkt} (hin : s.inbox = p :: rest) (htyp : p.f.typ = 7) (hreq : p.f.tsw % 2 = 1) :
    canaryArrive s = sendFrame { s with inbox := rest } (.device 0x7F4) (canaryEcho s p.f) := by
  simp only [canaryArrive, takeFirst_canary hin htyp, if_pos hreq]
  rfl

/-- What `SWQ_CRX` takes from a canary that is not to be echoed. -/
def canarySeen (s : State) (f : Frame) : Nat :=
  min (nowNs s - leAt f.payload 0 8) (2 ^ 32 - 1) + 2 ^ 32 * (f.tsw / 65536) + 2 ^ 48 * f.src

theorem canaryArrive_seen {rest : List Pkt} (hin : s.inbox = p :: rest) (htyp : p.f.typ = 7) (hreq : p.f.tsw % 2 = 0)
    (hfresh : zeroAt p.f.payload 8 8 = true) (hpast : leAt p.f.payload 0 8 ≤ nowNs s) :
    canaryArrive s = wr64 { s with inbox := rest } R.swqCrx (canarySeen s p.f) := by
  have hreq : ¬ p.f.tsw % 2 = 1 := by omega
  have hdelay : delayOf { s with inbox := rest } (nowNs s) (leAt p.f.payload 0 8) =
      (min (nowNs s - leAt p.f.payload 0 8) (2 ^ 32 - 1), { s with inbox := rest }) := if_pos hpast
  have hnow : nowNs { s with inbox := rest } = nowNs s := rfl
  simp only [canaryArrive, takeFirst_canary hin htyp, if_neg hreq, hfresh, hnow, hdelay, Bool.not_true, Bool.false_eq_true, if_false]
  rfl

theorem rd_wr64_low (s : State) (off x : Nat) : rd (wr64 s off x) off = x % 2 ^ 32 := by
  rw [wr64, rd_wr_ne _ _ (by omega : off ≠ off + 4), rd_wr_same, Nat.mod_mod]

theorem rd_wr64_high (s : State) (off x : Nat) : rd (wr64 s off x) (off + 4) = x / 2 ^ 32 % 2 ^ 32 := rd_wr_same _ _ _

theorem canarySeen_low (s : State) (f : Frame) : canarySeen s f % 2 ^ 32 = min (nowNs s - leAt f.payload 0 8) (2 ^ 32 - 1) := by
  unfold canarySeen
  omega

theorem canarySeen_high (s : State) {f : Frame} (htsw : f.tsw < 2 ^ 32) (hsrc : f.src < 2 ^ 16) :
    canarySeen s f / 2 ^ 32 % 2 ^ 32 = f.tsw / 65536 + 2 ^ 16 * f.src := by
  unfold canarySeen
  omega

/-! ### Mirror records (R373) -/

/-- A record leaves for the host's ring, where it has room. -/
theorem mirrorRecordWrite_ring {r : List Byte} {rest : List (List Byte)} (hrecs : s.fab.mirRecs = r :: rest)
    (htgt : flag s R.mirCtl 30 = false)
    (hroom : (rd s R.mirProd + (2 ^ 32 - rd s R.mirCons)) % 2 ^ 32 < 2 ^ getF s R.mirRsize 4 0) :
    mirrorRecordWrite Upsets.none s =
      wr (hostWrite { s with fab := { s.fab with mirRecs := rest } } 0
        (rd64 s R.mirRbase / 4096 * 4096 + 160 * (rd s R.mirProd % 2 ^ getF s R.mirRsize 4 0)) r) R.mirProd (rd s R.mirProd + 1) := by
  have hread : ((List.range 8).foldl (fun (acc : State × Bool) d =>
      if acc.2 then acc else meetOnce acc.1 2 (d * stackSize + 0x2FFC000000) 0x4000000 Upsets.none) (s, false)) = (s, false) :=
    List.foldl_fixed' (fun _ => rfl) _
  simp only [mirrorRecordWrite, hrecs, htgt, hroom, decide_true, Bool.not_true, Bool.false_eq_true, if_false, hread]
  rfl

end Sys2Proof.Machine

open Sys2Proof Sys2Proof.Machine

/-- Settles O45: averages and samples go through the queues once each (`queueOf_averagesTaken`, `liveDep_queuesSampled`), a canary
is sent, echoed or seen (`canarySend_due`, `canaryArrive_request`, `canaryArrive_seen`), and a record goes to the ring
(`mirrorRecordWrite_ring`). -/
theorem queueWatch : Obligations.QueueWatch := by
  unfold Obligations.QueueWatch
  refine ⟨?averages, ?histograms, ?sends, ?arrives, ?mirror⟩
  case averages =>
    intro s hdue
    have hexec : exec .queueAvgUpdate s = .next (queueAvgUpdate s) := rfl
    rw [queueAvgUpdate_due hdue] at hexec
    refine ⟨_, hexec, fun q hq => ?_, averagesTaken_eq _ _⟩
    rw [queueOf_averagesTaken, if_pos hq]
    rfl
  case histograms =>
    intro s hdue
    have hexec : exec .histogramSample s = .next (histogramSample s) := rfl
    rw [histogramSample_due hdue] at hexec
    refine ⟨_, hexec, fun q hq => ?_, queuesSampled_eq _ _⟩
    have hbin := liveDep_queuesSampled
      { s with fab := { s.fab with sampleAt := s.fab.sampleAt + 4 * getF s R.swqHctl 15 0 } } 72 q
    rwa [if_pos hq] at hbin
  case sends =>
    intro s n hen hdue
    have hexec : exec (.canarySend n) s = .next (canarySend n s) := rfl
    rw [canarySend_due hen hdue] at hexec
    have hregs : (sendFrame (canaryCounted s n) (.device 0x7F4) (canaryFrame s n)).regs = (canaryCounted s n).regs := rfl
    refine ⟨_, ⟨s.nextId, canaryFrame s n, .device 0x7F4⟩, hexec, rfl, rfl, rfl, rfl, rfl, slot_canaryFrame s n.isLt, rfl, ?_,
      sameRegs_trans (sameRegs_canaryCounted s n) (sameRegs_of_regs hregs _), rfl, rfl⟩
    rw [← rd_canaryCounted, rd, rd, hregs]
  case arrives =>
    intro s p rest hin htyp
    have hexec : exec .canaryArrive s = .next (canaryArrive s) := rfl
    refine ⟨fun hreq => ?request, fun hreq hfresh hpast htsw hsrc => ?seen⟩
    case request =>
      rw [canaryArrive_request hin htyp hreq, sendFrame_eq] at hexec
      exact ⟨_, _, hexec, rfl, rfl, rfl, rfl, rfl, rfl, rfl, rfl, rfl⟩
    case seen =>
      rw [canaryArrive_seen hin htyp hreq hfresh hpast] at hexec
      refine ⟨_, hexec, rfl, ?_, ?_, ?_, rfl, rfl, rfl⟩
      · rw [rd_wr64_low, canarySeen_low]
      · rw [rd_wr64_high, canarySeen_high s htsw hsrc]
      · exact sameRegs_trans (sameRegs_of_regs rfl _) (sameRegs_wr64 _ _ _)
  case mirror =>
    intro s r rest hrecs htgt hroom
    have hexec : exec (.mirrorRecordWrite Upsets.none) s = .next (mirrorRecordWrite Upsets.none s) := rfl
    rw [mirrorRecordWrite_ring hrecs htgt hroom] at hexec
    exact ⟨_, hexec, rfl, rfl, rd_wr_same _ _ _,
      sameRegs_trans (sameRegs_of_regs rfl _) (sameRegs_wr _ _ (List.mem_singleton_self _)), rfl, rfl⟩
end

section
/-! PROOFS. Writes that commit a policer, a shaper, a mill version, the mirror, a barrier and the histogram bins (09 R346, R352,
R368, R371 to R376; 11 R447; 13 R497), and their statement. -/

namespace Sys2Proof.Machine

variable {s : State}

/-! ### Registers of one word -/

/-- A table in which no row before one holds an offset. -/
theorem regAt_of_split {off w : Nat} {rows rest : List RegRow} {r : RegRow} (hb : regBlock off = rows ++ r :: rest)
    (hrows : ∀ x ∈ rows, RegRow.word x off = none) (hw : RegRow.word r off = some w) : regAt off = some (r, w) := by
  have hnone : (rows.findSome? fun x => (RegRow.word x off).map fun w => (x, w)) = none :=
    List.findSome?_eq_none_iff.2 fun x hx => by rw [hrows x hx, Option.map_none]
  rw [regAt, hb, List.findSome?_append, hnone, Option.none_or, List.findSome?_cons, hw]
  rfl

/-- The offset of element k of an array of one-word registers. -/
theorem RegRow.word_array {r : RegRow} {n st k : Nat} (hd : r.dims = [(n, st)]) (hw : r.words = 1) (hb : r.base % 4 = 0)
    (hst : st % 4 = 0) (hpos : 0 < st) (hk : k < n) : RegRow.word r (r.base + st * k) = some 0 := by
  have halign : (st * k) % 4 = 0 := by rw [Nat.mul_mod, hst, Nat.zero_mul, Nat.zero_mod]
  have hstart : ¬ (r.base + st * k < r.base ∨ (r.base + st * k) % 4 ≠ 0) := by omega
  rw [RegRow.word, if_neg hstart, Nat.add_sub_cancel_left, hd, hw]
  simp [Nat.mul_div_cancel_left k hpos, hk]

/-- Before the lock the write of a one-word register hands the word that its fields take to the register's own rules; a held low
word may be given up (R14). -/
theorem bar0Write_open {off w : Nat} {r : RegRow} (v : Nat) (hr : regAt off = some (r, w)) (hw : r.words = 1)
    (hl : locked s = false) :
    ∃ x, bar0Write false off v s = write32 false { s with held := x } off v (RegRow.write r w false (rd s off) v) := by
  have hopen : closedTo s false = false := by simp [closedTo, hl]
  refine ⟨(dropHeld s off).held, ?_⟩
  rw [bar0Write_word false v hr hw, hopen, ← dropHeld_eq]

/-- The bits that a word of 32 bits keeps of a field. -/
theorem bits_mod_two_pow (w : Nat) {hi lo : Nat} (h : hi < 32) : bits (w % 2 ^ 32) hi lo = bits w hi lo := by
  refine eq_of_bit_eq fun i => ?_
  rw [bit_bits, bit_bits, bit_mod_two_pow]
  by_cases hin : i < hi + 1 - lo
  · simp [show lo + i < 32 by omega]
  · simp [hin]

theorem getF_wr_same (s : State) (off w : Nat) {hi lo : Nat} (h : hi < 32) : getF (wr s off w) off hi lo = bits w hi lo := by
  rw [getF, rd_wr_same, bits_mod_two_pow w h]

theorem flag_wr_same (s : State) (off w : Nat) {i : Nat} (h : i < 32) : flag (wr s off w) off i = bit w i := by
  rw [flag, rd_wr_same, bit_mod_two_pow]
  simp [h]

theorem bits_low (w hi : Nat) : bits w hi 0 = w % 2 ^ (hi + 1) := by
  rw [bits, Nat.shiftRight_zero, Nat.sub_zero]

/-- A field that a word has taken from another. -/
theorem bits_setBits_bits (w v : Nat) {hi lo : Nat} (h : lo ≤ hi) :
    bits (setBits w hi lo (bits v hi lo)) hi lo = bits v hi lo := by
  rw [bits_setBits_same _ _ h, bits, Nat.mod_mod]

/-! ### Policers (R352 to R354) -/

/-- The row of word 3 of `POL_CFG`. -/
def polCfg3Row : RegRow := ⟨0x90000C, [(0x402, 0x10)], 1, [⟨23, 0, .rwl, 0⟩]⟩

theorem regAt_polCfg3 {k : Nat} (hk : k < 1026) : regAt (R.polCfg3 k) = some (polCfg3Row, 0) := by
  have hblock : R.polCfg3 k / 0x100000 = 0x9 := by unfold R.polCfg3; omega
  have htable : regTable09 = regTable09.take 3 ++ polCfg3Row :: regTable09.drop 4 := by decide
  have hb : regBlock (R.polCfg3 k) = regTable09.take 3 ++ polCfg3Row :: regTable09.drop 4 := by
    rw [← htable]
    simp [regBlock, hblock]
  have hrows : ∀ r ∈ regTable09.take 3,
      r.dims = [(0x402, 0x10)] ∧ r.words = 1 ∧ 0x900000 ≤ r.base ∧ r.base < 0x90000C ∧ r.base % 4 = 0 := by decide
  refine regAt_of_split hb (fun r hr => ?_) (RegRow.word_array (r := polCfg3Row) rfl rfl rfl rfl (by decide) hk)
  obtain ⟨hdims, hwords, hlow, hhigh, halign⟩ := hrows r hr
  refine RegRow.word_off hdims ?_
  rw [hwords, R.polCfg3]
  omega

theorem write32_polCfg3 (s : State) {k : Nat} (v new : Nat) (hk : k < 1026) :
    write32 false s (R.polCfg3 k) v new = commitPolicer false s k new := by
  have hin : R.polCfg3 k < R.polCfg0 1026 ∧ (R.polCfg3 k - R.polCfg0 0) % 16 = 12 := by unfold R.polCfg3 R.polCfg0; omega
  have hindex : (R.polCfg3 k - R.polCfg0 0) / 16 = k := by unfold R.polCfg3 R.polCfg0; omega
  have hlow : 0x900000 ≤ R.polCfg3 k := by unfold R.polCfg3; omega
  have hhigh : R.polCfg3 k < 0xA00000 := by unfold R.polCfg3; omega
  rw [write32, if_neg (by omega), if_neg (by omega), if_neg (by omega), if_neg (by omega), if_neg (by omega), if_neg (by omega),
    if_neg (by omega), if_pos hhigh, writePol, if_pos hin, hindex]

/-- The word that a write leaves in word 3 of `POL_CFG`. -/
def polWord (s : State) (k : Nat) (v : Word) : Nat := setBits (rd s (R.polCfg3 k)) 23 0 (bits v.toNat 23 0)

theorem exec_policerCommit (k : Fin 1026) (v : Word) (hl : locked s = false) :
    ∃ x, exec (.policerCommit k v) s = .next (commitPolicer false { s with held := x } k (polWord s k v)).1 := by
  have hexec : exec (.policerCommit k v) s = .next (bar0Write false (R.polCfg3 k) v.toNat s).1 := rfl
  obtain ⟨x, hwrite⟩ := bar0Write_open v.toNat (regAt_polCfg3 k.isLt) rfl hl
  rw [hexec, hwrite, write32_polCfg3 _ _ _ k.isLt]
  exact ⟨x, rfl⟩

/-- The policer that the four words give, its tokens clipped to the new sizes. -/
def policerOf (s : State) (k new : Nat) : Policer :=
  { en := bit (rd s (R.polCfg0 k)) 31
    cir := bits (rd s (R.polCfg0 k)) 23 0
    pir := bits (rd s (R.polCfg1 k)) 23 0
    cbs := bits (rd s (R.polCfg2 k)) 23 0
    pbs := bits new 23 0
    tc := min ((polOf s k).tick s.time.now).tc (bits (rd s (R.polCfg2 k)) 23 0 * 64 * byteUnits)
    tp := min ((polOf s k).tick s.time.now).tp (bits new 23 0 * 64 * byteUnits)
    last := ((polOf s k).tick s.time.now).last }

theorem commitPolicer_ok {k new : Nat} (hrates : bits (rd s (R.polCfg0 k)) 23 0 ≤ bits (rd s (R.polCfg1 k)) 23 0)
    (hen : bit (rd s (R.polCfg0 k)) 31 = true → bits (rd s (R.polCfg1 k)) 23 0 ≠ 0 ∧
      4160 ≤ 64 * bits (rd s (R.polCfg2 k)) 23 0 ∧ 4160 ≤ 64 * bits new 23 0) :
    (commitPolicer false s k new).1 = setPol (wr s (R.polCfg3 k) new) k (policerOf s k new) := by
  have hok : ¬ (bits (rd s (R.polCfg1 k)) 23 0 < bits (rd s (R.polCfg0 k)) 23 0 ∨
      (bit (rd s (R.polCfg0 k)) 31 = true ∧ (bits (rd s (R.polCfg1 k)) 23 0 = 0 ∨
        bits (rd s (R.polCfg2 k)) 23 0 * 64 < 4160 ∨ bits new 23 0 * 64 < 4160))) := by
    rintro (hlt | ⟨hon, hbad⟩)
    · omega
    · have hsizes := hen hon
      omega
  simp only [commitPolicer, if_neg hok, Bool.false_eq_true, if_false]
  rfl

/-! ### Shapers (R346, R349, R354) -/

/-- The row of word 1 of `SHP_CFG`. -/
def shpCfg1Row : RegRow := ⟨0xA00004, [(0x402, 0x8)], 1, [⟨31, 23, .rwl, 0⟩, ⟨22, 0, .rwl, 0⟩]⟩

theorem regAt_shpCfg1 {k : Nat} (hk : k < 1026) : regAt (R.shpCfg1 k) = some (shpCfg1Row, 0) := by
  have hblock : R.shpCfg1 k / 0x100000 = 0xA := by unfold R.shpCfg1; omega
  have htable : regTable0A = regTable0A.take 1 ++ shpCfg1Row :: regTable0A.drop 2 := by decide
  have hb : regBlock (R.shpCfg1 k) = regTable0A.take 1 ++ shpCfg1Row :: regTable0A.drop 2 := by
    rw [← htable]
    simp [regBlock, hblock]
  have hrows : ∀ r ∈ regTable0A.take 1, r.dims = [(0x402, 0x8)] ∧ r.words = 1 ∧ r.base = 0xA00000 := by decide
  refine regAt_of_split hb (fun r hr => ?_) (RegRow.word_array (r := shpCfg1Row) rfl rfl rfl rfl (by decide) hk)
  obtain ⟨hdims, hwords, hbase⟩ := hrows r hr
  refine RegRow.word_off hdims ?_
  rw [hwords, hbase, R.shpCfg1]
  omega

theorem write32_shpCfg1 (s : State) {k : Nat} (v new : Nat) (hk : k < 1026) :
    write32 false s (R.shpCfg1 k) v new = commitShaper false s k new := by
  have hin : R.shpCfg1 k < R.shpCfg0 1026 ∧ (R.shpCfg1 k - R.shpCfg0 0) % 8 = 4 := by unfold R.shpCfg1 R.shpCfg0; omega
  have hindex : (R.shpCfg1 k - R.shpCfg0 0) / 8 = k := by unfold R.shpCfg1 R.shpCfg0; omega
  have hlow : 0xA00000 ≤ R.shpCfg1 k := by unfold R.shpCfg1; omega
  have hhigh : R.shpCfg1 k < 0xB00000 := by unfold R.shpCfg1; omega
  rw [write32, if_neg (by omega), if_neg (by omega), if_neg (by omega), if_neg (by omega), if_neg (by omega), if_neg (by omega),
    if_neg (by omega), if_neg (by omega), if_pos hhigh, writeShp, if_pos hin, hindex]

/-- The word that a write leaves in word 1 of `SHP_CFG`. -/
def shpWord (s : State) (k : Nat) (v : Word) : Nat :=
  setBits (setBits (rd s (R.shpCfg1 k)) 31 23 (bits v.toNat 31 23)) 22 0 (bits v.toNat 22 0)

theorem exec_shaperCommit (k : Fin 1026) (v : Word) (hl : locked s = false) :
    ∃ x, exec (.shaperCommit k v) s = .next (commitShaper false { s with held := x } k (shpWord s k v)).1 := by
  have hexec : exec (.shaperCommit k v) s = .next (bar0Write false (R.shpCfg1 k) v.toNat s).1 := rfl
  obtain ⟨x, hwrite⟩ := bar0Write_open v.toNat (regAt_shpCfg1 k.isLt) rfl hl
  rw [hexec, hwrite, write32_shpCfg1 _ _ _ k.isLt]
  exact ⟨x, rfl⟩

theorem depth_shpWord (s : State) (k : Nat) (v : Word) : bits (shpWord s k v) 22 0 = v.toNat % 2 ^ 23 := by
  rw [shpWord, bits_setBits_bits _ _ (by decide), bits_low]

theorem ovh_shpWord (s : State) (k : Nat) (v : Word) : bits (shpWord s k v) 31 23 = v.toNat / 2 ^ 23 := by
  have hv := v.isLt
  rw [shpWord, bits_setBits_apart _ _ (by decide) (by decide), bits_setBits_bits _ _ (by decide), bits, Nat.shiftRight_eq_div_pow]
  exact Nat.mod_eq_of_lt (by omega)

/-- The shaper that the two words give, its tokens clipped to the new depth. -/
def shaperOf (s : State) (k new : Nat) : Shaper :=
  { en := bit (rd s (R.shpCfg0 k)) 31
    rate := bits (rd s (R.shpCfg0 k)) 23 0
    depth := bits new 22 0
    ovh := bits new 31 23
    tok := min ((shpOf s k).tick s.time.now).tok (bits new 22 0 * 64 * byteUnits)
    last := ((shpOf s k).tick s.time.now).last }

theorem commitShaper_ok {k new : Nat} (hovh : -32 ≤ sext 9 (bits new 31 23))
    (hen : bit (rd s (R.shpCfg0 k)) 31 = true → bits (rd s (R.shpCfg0 k)) 23 0 ≠ 0 ∧ 4416 ≤ 64 * bits new 22 0) :
    (commitShaper false s k new).1 = setShp (wr s (R.shpCfg1 k) new) k (shaperOf s k new) := by
  have hok : ¬ (sext 9 (bits new 31 23) < -32 ∨ (bit (rd s (R.shpCfg0 k)) 31 = true ∧
      (bits (rd s (R.shpCfg0 k)) 23 0 = 0 ∨ bits new 22 0 * 64 < 4416))) := by
    rintro (hlt | ⟨hon, hbad⟩)
    · omega
    · have hsizes := hen hon
      omega
  simp only [commitShaper, if_neg hok, Bool.false_eq_true, if_false]
  rfl

/-! ### Mill versions (11 R447) -/

/-- The row of `MIL_UNIT`. -/
def milUnitRow : RegRow :=
  ⟨0xC01000, [(0x10, 0x4)], 1, [⟨31, 31, .ro, 0⟩, ⟨30, 24, .ro, 0⟩, ⟨19, 16, .rwl, 1⟩, ⟨15, 0, .rwl, 0⟩]⟩

theorem regAt_milUnit : ∀ m : MillIx, regAt (R.milUnit m) = some (milUnitRow, 0) := by decide +kernel

theorem write32_milUnit (s : State) (m : MillIx) (v new : Nat) :
    write32 false s (R.milUnit m) v new = writeUnit s m new := by
  have hm := m.isLt
  have hcmd : R.milUnit m ≠ R.milTcmd := by unfold R.milUnit R.milTcmd; omega
  have hin : R.milUnit 0 ≤ R.milUnit m ∧ R.milUnit m < R.milUnit 16 := by unfold R.milUnit; omega
  have hindex : (R.milUnit m - R.milUnit 0) / 4 = m := by unfold R.milUnit; omega
  have hlow : 0xC00000 ≤ R.milUnit m := by unfold R.milUnit; omega
  have hhigh : R.milUnit m < 0x1000000 := by unfold R.milUnit; omega
  rw [write32, if_neg (by omega), if_neg (by omega), if_neg (by omega), if_neg (by omega), if_neg (by omega), if_neg (by omega),
    if_neg (by omega), if_neg (by omega), if_neg (by omega), if_neg (by omega), if_pos hhigh, writeMil, if_neg hcmd, if_pos hin,
    hindex]

/-- The word that a write leaves in `MIL_UNIT`. -/
def unitWord (s : State) (m : MillIx) (v : Word) : Nat :=
  setBits (setBits (rd s (R.milUnit m)) 19 16 (bits v.toNat 19 16)) 15 0 (bits v.toNat 15 0)

theorem exec_millVersionWrite (m : MillIx) (v : Word) (hl : locked s = false) :
    ∃ x, exec (.millVersionWrite m v) s = .next (writeUnit { s with held := x } m (unitWord s m v)).1 := by
  have hexec : exec (.millVersionWrite m v) s = .next (bar0Write false (R.milUnit m) v.toNat s).1 := rfl
  obtain ⟨x, hwrite⟩ := bar0Write_open v.toNat (regAt_milUnit m) rfl hl
  rw [hexec, hwrite, write32_milUnit]
  exact ⟨x, rfl⟩

theorem version_unitWord (s : State) (m : MillIx) (v : Word) : bits (unitWord s m v) 19 16 = bits v.toNat 19 16 := by
  rw [unitWord, bits_setBits_apart _ _ (by decide) (by decide), bits_setBits_bits _ _ (by decide)]

/-- A version that the mills have is taken by a mill with no valid stream. -/
theorem writeUnit_ok {m new : Nat} (hver : bit (getF s R.milId 15 0) (bits new 19 16) = true) (hidle : validStreams s m = []) :
    (writeUnit s m new).1 = wr s (R.milUnit m) new := by
  simp [writeUnit, hver, hidle]

/-! ### The mirror (R371 to R374) -/

/-- The row of `MIR_CTL`. -/
def mirCtlRow : RegRow := ⟨R.mirCtl, [], 1, [⟨31, 31, .rwl, 0⟩, ⟨30, 30, .rwl, 0⟩, ⟨23, 16, .rwl, 1⟩, ⟨15, 0, .rwl, 0⟩]⟩

/-- The word that a write leaves in `MIR_CTL`. -/
def mirWord (s : State) (v : Word) : Nat :=
  setBits (setBits (setBits (setBits (rd s R.mirCtl) 31 31 (bits v.toNat 31 31)) 30 30 (bits v.toNat 30 30))
    23 16 (bits v.toNat 23 16)) 15 0 (bits v.toNat 15 0)

theorem exec_mirrorTargetWrite (v : Word) (hl : locked s = false) :
    ∃ x, exec (.mirrorTargetWrite v) s = .next (writeMirCtl { s with held := x } (mirWord s v)).1 := by
  have hrow : regAt R.mirCtl = some (mirCtlRow, 0) := by decide +kernel
  have hexec : exec (.mirrorTargetWrite v) s = .next (bar0Write false R.mirCtl v.toNat s).1 := rfl
  obtain ⟨x, hwrite⟩ := bar0Write_open v.toNat hrow rfl hl
  rw [hexec, hwrite]
  exact ⟨x, rfl⟩

/-- `MIR_CTL` takes its fields from what is written. -/
theorem bit_mirWord (s : State) (v : Word) (i : Nat) :
    bit (mirWord s v) i = if i < 24 ∨ i = 30 ∨ i = 31 then bit v.toNat i else bit (rd s R.mirCtl) i := by
  rw [mirWord, bit_setBits_bits _ _ _ (by decide), bit_setBits_bits _ _ _ (by decide), bit_setBits_bits _ _ _ (by decide),
    bit_setBits_bits _ _ _ (by decide), ← ite_or, ← ite_or, ← ite_or]
  exact if_congr (by omega) rfl rfl

/-- A field that `MIR_CTL` takes whole. -/
theorem bits_mirWord (s : State) (v : Word) {hi : Nat} (h : hi < 24) : bits (mirWord s v) hi 0 = v.toNat % 2 ^ (hi + 1) := by
  rw [← bits_low]
  refine eq_of_bit_eq fun i => ?_
  rw [bit_bits, bit_bits, bit_mirWord]
  by_cases hin : i < hi + 1 - 0
  · rw [if_pos (by omega)]
  · rw [decide_eq_false hin, Bool.false_and, Bool.false_and]

/-- A mirror whose ratio is not 0, and whose buffer no other holds, is set. -/
theorem writeMirCtl_ok {new : Nat} (hratio : bit new 31 = true → bits new 15 0 ≠ 0)
    (hbuf : bit new 30 = true → flag s R.mirCtl 30 = true ∨ mbufOwner s ≠ 2) :
    (writeMirCtl s new).1 = { wr s R.mirCtl new with fab := { s.fab with
      mirSeq := if bit new 31 && !flag s R.mirCtl 31 then 0 else s.fab.mirSeq } } := by
  have hset : ¬ (bit new 31 = true ∧ bits new 15 0 = 0) := fun h => hratio h.1 h.2
  have hfree : ¬ (bit new 30 = true ∧ (!flag s R.mirCtl 30) = true ∧ mbufOwner s = 2) := by
    rintro ⟨htgt, hoff, hown⟩
    rcases hbuf htgt with hon | hne
    · simp [hon] at hoff
    · exact hne hown
  simp only [writeMirCtl, if_neg hset, if_neg hfree]
  rfl

/-! ### Barriers (13 R497) -/

/-- The row of word 3 of `GNG_BAR`. -/
def gngBar3Row : RegRow := ⟨0x1C0100C, [(0x40, 0x10)], 1, [⟨31, 4, .rwl, 0⟩]⟩

theorem regAt_gngBar3 : ∀ b : Fin 64, regAt (R.gngBar3 b) = some (gngBar3Row, 0) := by decide +kernel

theorem write32_gngBar3 (s : State) (b : Fin 64) (v new : Nat) :
    write32 false s (R.gngBar3 b) v new = writeBar false s b 3 new := by
  have hb := b.isLt
  have hctl : R.gngBar3 b ≠ R.gngCtl := by unfold R.gngBar3 R.gngCtl; omega
  have hdper : R.gngBar3 b ≠ R.gngDper := by unfold R.gngBar3 R.gngDper; omega
  have hbond : ¬ (R.gngBond 0 ≤ R.gngBar3 b ∧ R.gngBar3 b < R.gngBond 8) := by unfold R.gngBar3 R.gngBond; omega
  have hin : R.gngBar0 0 ≤ R.gngBar3 b ∧ R.gngBar3 b < R.gngBar0 64 := by unfold R.gngBar3 R.gngBar0; omega
  have hindex : (R.gngBar3 b - R.gngBar0 0) / 16 = b := by unfold R.gngBar3 R.gngBar0; omega
  have hword : (R.gngBar3 b - R.gngBar0 0) % 16 / 4 = 3 := by unfold R.gngBar3 R.gngBar0; omega
  have hlow : 0x1C00000 ≤ R.gngBar3 b := by unfold R.gngBar3; omega
  have hhigh : R.gngBar3 b < 0x1E00000 := by unfold R.gngBar3; omega
  rw [write32, if_neg (by omega), if_neg (by omega), if_neg (by omega), if_neg (by omega), if_neg (by omega), if_neg (by omega),
    if_neg (by omega), if_neg (by omega), if_neg (by omega), if_neg (by omega), if_neg (by omega), if_neg (by omega),
    if_neg (by omega), if_neg (by omega), if_pos hhigh, writeGng, if_neg hctl, if_neg hdper, if_neg hbond, if_pos hin, hindex,
    hword]

/-- The word that a write leaves in word 3 of `GNG_BAR`. -/
def bar3Word (s : State) (b : Nat) (v : Word) : Nat := setBits (rd s (R.gngBar3 b)) 31 4 (bits v.toNat 31 4)

theorem exec_barrierCommit (b : Fin 64) (v : Word) (hl : locked s = false) :
    ∃ x, exec (.barrierCommit b v) s = .next (writeBar false { s with held := x } b 3 (bar3Word s b v)).1 := by
  have hexec : exec (.barrierCommit b v) s = .next (bar0Write false (R.gngBar3 b) v.toNat s).1 := rfl
  obtain ⟨x, hwrite⟩ := bar0Write_open v.toNat (regAt_gngBar3 b) rfl hl
  rw [hexec, hwrite, write32_gngBar3]
  exact ⟨x, rfl⟩

/-- The four words of a barrier's configuration, written. -/
def barWritten (s : State) (b new : Nat) : State :=
  wr (wr (wr (wr s (R.gngBar0 b) (barWord s b 0)) (R.gngBar1 b) (barWord s b 1)) (R.gngBar2 b) (barWord s b 2)) (R.gngBar3 b) new

/-- The state in which a barrier has taken its configuration, with its counts at 0 and no word held. -/
def barCommitted (s : State) (b new : Nat) : State :=
  { setBar (barWritten s b new) b (0, 0) with gang := { (setBar (barWritten s b new) b (0, 0)).gang with
      barHeld := s.gang.barHeld.filter fun e => e.1 / 4 != b } }

theorem writeBar_ok {b new : Nat} (hn : bits (barWord s b 0) 30 24 ≠ 0) (hjob : bits (barWord s b 0) 23 12 ≠ 0)
    (h1 : 1 ≤ bits (barWord s b 1) 12 0) (h4096 : bits (barWord s b 1) 12 0 ≤ 4096) :
    (writeBar false s b 3 new).1 = barCommitted s b new := by
  have hok : ¬ (bits (barWord s b 0) 30 24 = 0 ∨ bits (barWord s b 0) 23 12 = 0 ∨
      (!between 1 4096 (bits (barWord s b 1) 12 0)) = true) := by simp [between, hn, hjob, h1, h4096]
  simp only [writeBar, if_neg hok, Bool.false_eq_true, if_false, ne_eq, not_true_eq_false]
  rfl

theorem rd_barWritten (s : State) (b new : Nat) :
    rd (barWritten s b new) (R.gngBar0 b) = barWord s b 0 % 2 ^ 32 ∧
    rd (barWritten s b new) (R.gngBar1 b) = barWord s b 1 % 2 ^ 32 ∧
    rd (barWritten s b new) (R.gngBar2 b) = barWord s b 2 % 2 ^ 32 ∧
    rd (barWritten s b new) (R.gngBar3 b) = new % 2 ^ 32 := by
  have h01 : R.gngBar0 b ≠ R.gngBar1 b := by unfold R.gngBar0 R.gngBar1; omega
  have h02 : R.gngBar0 b ≠ R.gngBar2 b := by unfold R.gngBar0 R.gngBar2; omega
  have h03 : R.gngBar0 b ≠ R.gngBar3 b := by unfold R.gngBar0 R.gngBar3; omega
  have h12 : R.gngBar1 b ≠ R.gngBar2 b := by unfold R.gngBar1 R.gngBar2; omega
  have h13 : R.gngBar1 b ≠ R.gngBar3 b := by unfold R.gngBar1 R.gngBar3; omega
  have h23 : R.gngBar2 b ≠ R.gngBar3 b := by unfold R.gngBar2 R.gngBar3; omega
  rw [barWritten]
  refine ⟨?_, ?_, ?_, rd_wr_same _ _ _⟩
  · rw [rd_wr_ne _ _ h03, rd_wr_ne _ _ h02, rd_wr_ne _ _ h01, rd_wr_same]
  · rw [rd_wr_ne _ _ h13, rd_wr_ne _ _ h12, rd_wr_same]
  · rw [rd_wr_ne _ _ h23, rd_wr_same]

theorem sameRegs_barWritten (s : State) (b new : Nat) :
    sameRegs s (barWritten s b new) [R.gngBar0 b, R.gngBar1 b, R.gngBar2 b, R.gngBar3 b] :=
  sameRegs_trans (sameRegs_trans (sameRegs_trans (sameRegs_wr _ _ (by simp)) (sameRegs_wr _ _ (by simp)))
    (sameRegs_wr _ _ (by simp))) (sameRegs_wr _ _ (by simp))

/-! ### Histogram bins (R368) -/

/-- A run of writes leaves each register of the run with its word, where the offsets differ. -/
theorem rd_foldl_wr_of_mem {off val : Nat → Nat} (hoff : ∀ i j, off i = off j → i = j) (l : List Nat) (s : State) {k : Nat}
    (hk : k ∈ l) : rd (l.foldl (fun s i => wr s (off i) (val i)) s) (off k) = val k % 2 ^ 32 := by
  induction l using List.reverseRecOn with
  | nil => exact absurd hk List.not_mem_nil
  | append_singleton l a ih =>
    rw [List.foldl_concat]
    by_cases hka : k = a
    · rw [hka, rd_wr_same]
    · rw [rd_wr_ne _ _ fun h => hka (hoff k a h)]
      exact ih ((List.mem_append.1 hk).resolve_right fun h => hka (List.mem_singleton.1 h))

/-- It leaves every other register. -/
theorem rd_foldl_wr_of_ne {off val : Nat → Nat} {x : Nat} (l : List Nat) (s : State) (hx : ∀ i ∈ l, x ≠ off i) :
    rd (l.foldl (fun s i => wr s (off i) (val i)) s) x = rd s x := by
  induction l generalizing s with
  | nil => rfl
  | cons a l ih =>
    rw [List.foldl_cons, ih _ fun i hi => hx i (List.mem_cons_of_mem a hi), rd_wr_ne _ _ (hx a List.mem_cons_self)]

theorem foldl_wr_fab {off val : Nat → Nat} (l : List Nat) (s : State) :
    (l.foldl (fun s i => wr s (off i) (val i)) s).fab = s.fab := by
  induction l generalizing s with
  | nil => rfl
  | cons a l ih => exact ih _

/-- The offset of readable depth bin i, the bins of all queues counted together. -/
def depthOff (i : Nat) : Nat := R.swqHdep (i / 16) (i % 16)

/-- The offset of readable delay bin i, counted in the same way. -/
def delayOff (i : Nat) : Nat := R.swqHdly (i / 16) (i % 16)

theorem depthOff_inj (i j : Nat) (h : depthOff i = depthOff j) : i = j := by
  unfold depthOff R.swqHdep at h
  omega

theorem delayOff_inj (i j : Nat) (h : delayOff i = delayOff j) : i = j := by
  unfold delayOff R.swqHdly at h
  omega

/-- The readable bins of one kind, taken from live ones. -/
def binsRead (l : List Nat) (s : State) (off : Nat → Nat) (live : SMap Nat) : State :=
  l.foldl (fun s i => wr s (off i) (SMap.getD live i 0)) s

/-- A snapshot of the bins of any run: the model's own run is the case of 1,152 bins, which a proof over a variable run does not
evaluate. -/
def snapBinsOver (l : List Nat) (s : State) : State :=
  let put := fun (live : List (Nat × Nat)) (off : Nat → Nat) (s : State) =>
    l.foldl (fun s k => wr s (off k) (SMap.getD live k 0)) s
  let s := put s.fab.liveDep (fun k => R.swqHdep (k / 16) (k % 16)) s
  let s := put s.fab.liveDly (fun k => R.swqHdly (k / 16) (k % 16)) s
  { s with fab := { s.fab with liveDep := [], liveDly := [] } }

theorem snapBins_eq_over (s : State) : snapBins s = snapBinsOver (List.range 1152) s := rfl

theorem snapBinsOver_eq (l : List Nat) (s : State) :
    snapBinsOver l s = { binsRead l (binsRead l s depthOff s.fab.liveDep) delayOff s.fab.liveDly with
      fab := { s.fab with liveDep := [], liveDly := [] } } := by
  have hdep : (binsRead l s depthOff s.fab.liveDep).fab = s.fab := foldl_wr_fab _ _
  have hdly : (binsRead l (binsRead l s depthOff s.fab.liveDep) delayOff s.fab.liveDly).fab = s.fab :=
    (foldl_wr_fab _ _).trans hdep
  have hbody : snapBinsOver l s =
      { binsRead l (binsRead l s depthOff s.fab.liveDep) delayOff (binsRead l s depthOff s.fab.liveDep).fab.liveDly with
        fab := { (binsRead l (binsRead l s depthOff s.fab.liveDep) delayOff
          (binsRead l s depthOff s.fab.liveDep).fab.liveDly).fab with liveDep := [], liveDly := [] } } := rfl
  rw [hbody, hdep, hdly]

theorem live_snapBins (s : State) : (snapBins s).fab.liveDep = [] ∧ (snapBins s).fab.liveDly = [] := by
  rw [snapBins_eq_over, snapBinsOver_eq]
  exact ⟨rfl, rfl⟩

theorem depthOff_ne_delayOff {i : Nat} (hi : i < 1152) (j : Nat) : depthOff i ≠ delayOff j := by
  unfold depthOff delayOff R.swqHdep R.swqHdly
  omega

theorem rd_snapBinsOver (l : List Nat) (s : State) (off : Nat) :
    rd (snapBinsOver l s) off = rd (binsRead l (binsRead l s depthOff s.fab.liveDep) delayOff s.fab.liveDly) off := by
  rw [snapBinsOver_eq]
  exact sameRegs_of_regs rfl [] off List.not_mem_nil

theorem rd_depth_snapBinsOver {l : List Nat} (s : State) {i : Nat} (hi : i < 1152) (hmem : i ∈ l) :
    rd (snapBinsOver l s) (depthOff i) = SMap.getD s.fab.liveDep i 0 % 2 ^ 32 := by
  rw [rd_snapBinsOver, binsRead, rd_foldl_wr_of_ne l _ fun j _ => depthOff_ne_delayOff hi j, binsRead,
    rd_foldl_wr_of_mem depthOff_inj l s hmem]

theorem rd_delay_snapBinsOver {l : List Nat} (s : State) {i : Nat} (hmem : i ∈ l) :
    rd (snapBinsOver l s) (delayOff i) = SMap.getD s.fab.liveDly i 0 % 2 ^ 32 := by
  rw [rd_snapBinsOver, binsRead, rd_foldl_wr_of_mem delayOff_inj l _ hmem]

/-- After a snapshot each readable bin is the live one before. -/
theorem rd_snapBins (s : State) {q k : Nat} (hq : q < 72) (hk : k < 16) :
    rd (snapBins s) (R.swqHdep q k) = SMap.getD s.fab.liveDep (16 * q + k) 0 % 2 ^ 32 ∧
    rd (snapBins s) (R.swqHdly q k) = SMap.getD s.fab.liveDly (16 * q + k) 0 % 2 ^ 32 := by
  have hlt : 16 * q + k < 1152 := by omega
  have hq16 : (16 * q + k) / 16 = q := by omega
  have hk16 : (16 * q + k) % 16 = k := by omega
  have hdep : R.swqHdep q k = depthOff (16 * q + k) := by rw [depthOff, hq16, hk16]
  have hdly : R.swqHdly q k = delayOff (16 * q + k) := by rw [delayOff, hq16, hk16]
  rw [snapBins_eq_over, hdep, hdly]
  exact ⟨rd_depth_snapBinsOver s hlt (List.mem_range.2 hlt), rd_delay_snapBinsOver s (List.mem_range.2 hlt)⟩

/-- The row of `SWQ_HCTL`. -/
def swqHctlRow : RegRow := ⟨R.swqHctl, [], 1, [⟨31, 31, .wo, 0⟩, ⟨15, 0, .rw, 0x4E2⟩]⟩

/-- SNAP takes the live bins, and leaves the period as it is. -/
theorem exec_histogramSnap (hper : 64 ≤ getF s R.swqHctl 15 0) :
    ∃ x new, exec .histogramSnap s = .next (snapBins (wr { s with held := x } R.swqHctl new)) := by
  have hrow : regAt R.swqHctl = some (swqHctlRow, 0) := by decide +kernel
  have hexec : exec .histogramSnap s = .next (bar0Write false R.swqHctl (setBits (rd s R.swqHctl) 31 31 1) s).1 := rfl
  have hword (lk : Bool) : RegRow.write swqHctlRow 0 lk (rd s R.swqHctl) (setBits (rd s R.swqHctl) 31 31 1) =
      setBits (rd s R.swqHctl) 15 0 (bits (setBits (rd s R.swqHctl) 31 31 1) 15 0) := rfl
  have hkept : bits (setBits (rd s R.swqHctl) 31 31 1) 15 0 = getF s R.swqHctl 15 0 :=
    bits_setBits_apart _ _ (by decide) (by decide)
  have hsnap : bit (setBits (rd s R.swqHctl) 31 31 1) 31 = true := by
    rw [bit_setBits _ _ _ le_rfl]
    rfl
  have hok : decide (64 ≤ bits (setBits (rd s R.swqHctl) 15 0 (getF s R.swqHctl 15 0)) 15 0) = true := by
    rw [getF, bits_setBits_bits _ _ (by decide)]
    exact decide_eq_true hper
  refine ⟨(dropHeld s R.swqHctl).held, setBits (rd s R.swqHctl) 15 0 (getF s R.swqHctl 15 0), ?_⟩
  have hwrite (lk : Bool) (t : State) (v new : Nat) : write32 lk t R.swqHctl v new = writeSwq t R.swqHctl v new := by
    rw [write32, if_neg (by decide), if_neg (by decide), if_neg (by decide), if_neg (by decide), if_neg (by decide),
      if_neg (by decide), if_pos (by decide)]
  have hswq (t : State) (v new : Nat) : writeSwq t R.swqHctl v new =
      if bit v 31 then (snapBins (commitField (decide (64 ≤ bits new 15 0)) t R.swqHctl new 15 0 R.swqStat 0).1,
        (commitField (decide (64 ≤ bits new 15 0)) t R.swqHctl new 15 0 R.swqStat 0).2)
      else commitField (decide (64 ≤ bits new 15 0)) t R.swqHctl new 15 0 R.swqStat 0 := by
    rw [writeSwq, if_neg (by decide), if_neg (by decide), if_neg (by decide), if_pos rfl]
  rw [hexec, bar0Write_word false _ hrow rfl, hword, hkept, hwrite, hswq, if_pos hsnap, hok, ← dropHeld_eq, commitField,
    if_pos rfl]

end Sys2Proof.Machine

open Sys2Proof Sys2Proof.Machine

/-- Settles O14: a word that passes its checks is committed (`commitPolicer_ok`, `commitShaper_ok`, `writeUnit_ok`,
`writeMirCtl_ok`, `writeBar_ok`), and a snapshot takes every live bin (`rd_snapBins`). -/
theorem settingCommits : Obligations.SettingCommits := by
  unfold Obligations.SettingCommits
  refine ⟨?policer, ?shaper, ?mill, ?mirror, ?barrier, ?snap⟩
  case policer =>
    intro s k v hl hrates hen
    have hpbs : bits (polWord s k v) 23 0 = v.toNat % 2 ^ 24 := by rw [polWord, bits_setBits_bits _ _ (by decide), bits_low]
    obtain ⟨x, hexec⟩ := exec_policerCommit k v hl
    rw [← hpbs] at hen
    rw [commitPolicer_ok (s := { s with held := x }) hrates hen] at hexec
    refine ⟨_, hexec, ?_⟩
    rw [polOf_setPol_same]
    exact ⟨rfl, rfl, rfl, rfl, hpbs, min_le_right _ _, min_le_right _ _,
      sameRegs_trans (sameRegs_of_regs rfl _) (sameRegs_wr _ _ (List.mem_singleton_self _))⟩
  case shaper =>
    intro s k v hl hovh hen
    obtain ⟨x, hexec⟩ := exec_shaperCommit k v hl
    rw [← ovh_shpWord s k] at hovh
    rw [← depth_shpWord s k] at hen
    rw [commitShaper_ok (s := { s with held := x }) hovh hen] at hexec
    refine ⟨_, hexec, ?_⟩
    rw [shpOf_setShp_same]
    exact ⟨rfl, rfl, depth_shpWord s k v, ovh_shpWord s k v, min_le_right _ _,
      sameRegs_trans (sameRegs_of_regs rfl _) (sameRegs_wr _ _ (List.mem_singleton_self _))⟩
  case mill =>
    intro s m v hl hver hidle
    obtain ⟨x, hexec⟩ := exec_millVersionWrite m v hl
    rw [← version_unitWord s m] at hver ⊢
    rw [writeUnit_ok (s := { s with held := x }) hver hidle] at hexec
    refine ⟨_, hexec, getF_wr_same _ _ _ (by decide), rfl, ?_⟩
    exact sameRegs_trans (sameRegs_of_regs rfl _) (sameRegs_wr _ _ (List.mem_singleton_self _))
  case mirror =>
    intro s v hl hratio hbuf
    have h31 : bit (mirWord s v) 31 = bit v.toNat 31 := by simp [bit_mirWord]
    have h30 : bit (mirWord s v) 30 = bit v.toNat 30 := by simp [bit_mirWord]
    have hsize : bits (mirWord s v) 15 0 = v.toNat % 2 ^ 16 := bits_mirWord s v (by decide)
    obtain ⟨x, hexec⟩ := exec_mirrorTargetWrite v hl
    rw [← hsize] at hratio
    rw [← h31] at hratio ⊢
    rw [← h30] at hbuf ⊢
    rw [writeMirCtl_ok (s := { s with held := x }) hratio hbuf] at hexec
    refine ⟨_, hexec, (getF_wr_same _ _ _ (by decide)).trans (bits_mirWord s v (by decide)), flag_wr_same _ _ _ (by decide),
      flag_wr_same _ _ _ (by decide), rfl, ?_⟩
    exact sameRegs_trans (sameRegs_of_regs rfl _) (sameRegs_wr _ _ (List.mem_singleton_self _))
  case barrier =>
    intro s b v hl hn hjob h1 h4096
    obtain ⟨x, hexec⟩ := exec_barrierCommit b v hl
    rw [writeBar_ok (s := { s with held := x }) hn hjob h1 h4096] at hexec
    obtain ⟨hr0, hr1, hr2, hr3⟩ := rd_barWritten { s with held := x } b (bar3Word s b v)
    refine ⟨_, hexec, hr0, hr1, hr2, ?_, barOf_setBar_same (barWritten { s with held := x } b (bar3Word s b v)) b (0, 0),
      sameRegs_trans (sameRegs_of_regs rfl _) (sameRegs_barWritten _ _ _)⟩
    refine (congrArg (bits · 31 4) hr3).trans ?_
    rw [bits_mod_two_pow _ (by decide), bar3Word, bits_setBits_bits _ _ (by decide)]
  case snap =>
    intro s hper
    obtain ⟨x, new, hexec⟩ := exec_histogramSnap hper
    obtain ⟨hdep, hdly⟩ := live_snapBins (wr { s with held := x } R.swqHctl new)
    exact ⟨_, hexec, hdep, hdly, fun q hq k hk => rd_snapBins (wr { s with held := x } R.swqHctl new) hq hk⟩
end

section
/-! PROOFS. The comparison of a tally with the target of a WAIT (10 R395). -/

namespace Sys2Proof.Machine

variable {s : State} {fn w : Nat} {k : CoreId} {r : RunList}

/-- For a target of 32 bits the model's test is the rule's. -/
theorem tallyPassed_iff {count target : Nat} (h : target < 2 ^ 32) :
    tallyPassed count target = true ↔ (count - target : Int) % 2 ^ 32 < 2 ^ 31 := by
  rw [tallyPassed, decide_eq_true_eq, Nat.mod_eq_of_lt h]
  omega

theorem waitPassed_iff (s : State) (k : CoreId) (fn : Nat) (b : List Byte) :
    waitPassed s k.no fn b = true ↔ (tallyCount s fn k.d (leAt b 6 2) - leAt b 8 4 : Int) % 2 ^ 32 < 2 ^ 31 := by
  have hdie : coreDie k.no = k.d := coreNo_div_10240 k
  rw [waitPassed, hdie, tallyPassed_iff (leAt_lt b 8 4)]

/-- Before its tally has passed its target a WAIT waits on. -/
theorem waitComplete_waits (hc : current s k = some (fn, r)) (hexp : expired s k = false) (hw : r.phase = .waiting w)
    (hmode : byteAt r.desc 4 = 0) (hwait : ¬ waitPassed s k.no fn r.desc = true) : waitComplete k s = s :=
  (onWait_waiting hc hexp hw hmode).trans (if_neg hwait)

end Sys2Proof.Machine

open Sys2Proof Sys2Proof.Machine

/-- Settles O6: the model's test is the rule's (`waitPassed_iff`); a WAIT that has passed it has its phase set
(`markBusy_setPhase`), and one that has not stays as it is (`waitComplete_waits`). -/
theorem tallyComparison : Obligations.TallyComparison := by
  unfold Obligations.TallyComparison
  intro s k fn r w hc hexp _ hmode hw
  refine ⟨fun hpass => ?passed, fun hlow => ?waits⟩
  case passed =>
    have hdone : waitComplete k s = setPhase s k.no fn r .done :=
      (onWait_waiting hc hexp hw hmode).trans (if_pos ((waitPassed_iff s k fn r.desc).2 hpass))
    exact ⟨_, rfl, markBusy_setPhase hdone⟩
  case waits =>
    have hsame := waitComplete_waits hc hexp hw hmode fun hpass => absurd ((waitPassed_iff s k fn r.desc).1 hpass) (by omega)
    have hexec : exec (.waitComplete k) s = .next (markBusy k.clu s (waitComplete k s)) := rfl
    rw [hsame] at hexec
    exact ⟨_, hexec, by rw [seqOf_markBusy, run_of_current hc], markBusy_isl_eq k.clu s s⟩
end

section
/-! PROOFS. The frames of RREAD, RATOMIC and MSEND (10 R380, R399; 14 R530, R531). -/

namespace Sys2Proof.Machine

variable {s : State} {r : DescRef} {h : HostDesc} {row : HRow}

/-! ### Runs cut for their frames (R379) -/

theorem length_le_of_mem_cutEvery {k off fuel : Nat} {bs : List Byte} {c : Nat × List Byte} (hc : c ∈ cutEvery k off bs fuel) :
    c.2.length ≤ k := by
  induction fuel generalizing off bs with
  | zero => exact absurd hc List.not_mem_nil
  | succ n ih =>
    unfold cutEvery at hc
    split at hc
    · exact absurd hc List.not_mem_nil
    · obtain rfl | hrest := List.mem_cons.1 hc
      · exact (List.length_take_le _ _).trans (Nat.sub_le _ _)
      · exact ih hrest

/-- The pieces of a run are the run, where there is fuel for every boundary that it meets. -/
theorem flatMap_cutEvery {k off fuel : Nat} {bs : List Byte} (hk : 0 < k) (hfuel : bs = [] ∨ bs.length + off % k ≤ k * fuel) :
    (cutEvery k off bs fuel).flatMap Prod.snd = bs := by
  induction fuel generalizing off bs with
  | zero =>
    obtain rfl | hlen := hfuel
    · rfl
    · exact (List.eq_nil_of_length_eq_zero (by omega)).symm
  | succ n ih =>
    unfold cutEvery
    split
    case isTrue hnil => exact (List.isEmpty_iff.1 hnil).symm
    case isFalse hcons =>
      have hlen := hfuel.resolve_left fun e => hcons (List.isEmpty_iff.2 e)
      have hmod := Nat.mod_lt off hk
      have hround : (off + (k - off % k)) % k = 0 := by
        rw [← Nat.dvd_iff_mod_eq_zero]
        exact ⟨off / k + 1, by rw [Nat.mul_succ]; have := Nat.div_add_mod off k; omega⟩
      have hrest : (bs.drop (k - off % k)).length + (off + (k - off % k)) % k ≤ k * n ∨ bs.drop (k - off % k) = [] := by
        rw [hround, List.length_drop, List.drop_eq_nil_iff]
        rw [Nat.mul_succ] at hlen
        omega
      rw [List.flatMap_cons, ih hrest.symm, List.take_append_drop]

/-- A run is cut at every 4,096 bytes from its first byte to its last. -/
theorem flatMap_cutRun (off : Nat) (bs : List Byte) : (cutRun off bs (bs.length / 4096 + 2)).flatMap Prod.snd = bs :=
  flatMap_cutEvery (by decide) (.inr (by omega))

/-! ### READ and ATOMIC frames (R530) -/

/-- Line 0 of a READ or ATOMIC frame: the return offset and the tally of its reply. -/
def returnLine (b : List Byte) : List Byte := leBytes 6 (leAt b 26 6) ++ leBytes 2 (leAt b 18 2) ++ zeros 8

/-- The READ or ATOMIC frame of a descriptor under a tag. -/
def requestFrame (s : State) (h : HostDesc) (typ tsw tag : Nat) (more : List Byte) : Frame :=
  { Frame.blank with
    typ := typ, cls := 1, dst := leAt h.bytes 16 2, src := fnEp s h.fn, job := fnJob s h.fn, cid := tag,
    len := (returnLine h.bytes ++ more).length / 16, offset := leAt h.bytes 20 6, tsw := tsw,
    payload := returnLine h.bytes ++ more }

/-- A descriptor's request, before its frame is admitted. -/
def requestOf (s : State) (h : HostDesc) : Request :=
  ⟨h.fn, h.ring, h.idx, leAt h.bytes 16 2, fnEp s h.fn, fnJob s h.fn, none⟩

/-- The state with a descriptor's request outstanding under a tag. -/
def requested (s : State) (r : DescRef) (h : HostDesc) (tag : Nat) : State :=
  workDesc { s with rem := { s.rem with requests := SMap.put s.rem.requests tag (requestOf s h) } } r

theorem sendRequest_of_freeTag {tag : Nat} (hfree : freeTag s = some tag) (typ tsw : Nat) (more : List Byte) :
    sendRequest r h typ tsw more s =
      sendFrame (requested s r h tag) (.host h.fn h.ring h.idx) (requestFrame s h typ tsw tag more) := by
  unfold sendRequest
  rw [hfree]
  rfl

/-- A request leaves its descriptor working, its tag taken and its frame in the outbox; registers and memories stay. -/
theorem sendFrame_requested (hs : startable s r h row) (tag : Nat) (o : Origin) (f : Frame) :
    worksOn s (sendFrame (requested s r h tag) o f) r ∧
    (sendFrame (requested s r h tag) o f).outbox = s.outbox ++ [⟨s.nextId, f, o⟩] ∧
    (SMap.find (sendFrame (requested s r h tag) o f).rem.requests tag).isSome ∧
    (sendFrame (requested s r h tag) o f).regs = s.regs ∧ (sendFrame (requested s r h tag) o f).comp = s.comp ∧
    (sendFrame (requested s r h tag) o f).deep = s.deep :=
  ⟨worksOn_of_host hs rfl, rfl, Option.isSome_of_eq_some (SMap.find_put_same _ _ _), rfl, rfl, rfl⟩

theorem returnLine_length (b : List Byte) : (returnLine b).length = 16 := by simp [returnLine, zeros]

/-- A reply's offset and tally are read from line 0 of its request. -/
theorem leAt_returnLine (b more : List Byte) :
    leAt (returnLine b ++ more) 0 6 = leAt b 26 6 ∧ leAt (returnLine b ++ more) 6 2 = leAt b 18 2 := by
  have hoff := leAt_of_leBytes (pre := []) (suf := leBytes 2 (leAt b 18 2) ++ (zeros 8 ++ more)) rfl (leAt_lt b 26 6)
  have htally := leAt_of_leBytes (pre := leBytes 6 (leAt b 26 6)) (suf := zeros 8 ++ more) (leBytes_length _ _) (leAt_lt b 18 2)
  constructor
  · simpa [returnLine] using hoff
  · simpa [returnLine] using htally

theorem rreadBody_of_freeTag {tag : Nat} (h1 : 1 ≤ leAt h.bytes 32 2) (h256 : leAt h.bytes 32 2 ≤ 256)
    (hfree : freeTag s = some tag) :
    rreadBody r h s = sendFrame (requested s r h tag) (.host h.fn h.ring h.idx)
      (requestFrame s h 1 (leAt h.bytes 32 2) tag []) := by
  simp [rreadBody, between, h1, h256, sendRequest_of_freeTag hfree]

/-- The lines of an ATOMIC after its first: the operand, and for a compare-swap the compare value. -/
def operandLines (b : List Byte) : List Byte :=
  (b.drop 40).take 16 ++ if byteAt b 32 % 16 = 2 then leBytes 8 (leAt b 56 8) ++ zeros 8 else []

theorem ratomicBody_of_freeTag {tag : Nat} (hfree : freeTag s = some tag) :
    ratomicBody r h s = sendFrame (requested s r h tag) (.host h.fn h.ring h.idx)
      (requestFrame s h 3 (byteAt h.bytes 32) tag (operandLines h.bytes)) := by
  simp only [ratomicBody, operandLines, sendRequest_of_freeTag hfree]

/-- Line 1 is the operand. -/
theorem operand_of_lines {b : List Byte} (hlen : b.length = 64) :
    ((returnLine b ++ operandLines b).drop 16).take 16 = (b.drop 40).take 16 := by
  rw [List.drop_left' (returnLine_length b), operandLines, List.take_left' (by simp [hlen])]

/-- A compare-swap is one line longer. -/
theorem lines_of_operand {b : List Byte} (hlen : b.length = 64) :
    (returnLine b ++ operandLines b).length / 16 = if byteAt b 32 % 16 = 2 then 3 else 2 := by
  rw [List.length_append, returnLine_length, operandLines]
  split <;> simp [hlen, zeros]

/-! ### MILL frames (R531) -/

/-- A MILL frame of an MSEND: its origin, its destination and the fields that name a stream. -/
def isMillFrame (h : HostDesc) (p : Pkt) : Prop :=
  p.org = .host h.fn h.ring h.idx ∧ p.f.typ = 5 ∧ p.f.dst = leAt h.bytes 16 2 ∧
    p.f.tsw = leAt h.bytes 28 2 + 4096 * byteAt h.bytes 26 ∧ p.f.tally = leAt h.bytes 18 2

/-- The pieces of an MSEND leave in their order, and nothing else changes but the names. -/
theorem foldl_sendMill (h : HostDesc) (l : List (Nat × List Byte)) (s : State) :
    ∃ ps n, l.foldl (sendMill h) s = { s with outbox := s.outbox ++ ps, nextId := n } ∧
      ps.map (fun p => p.f.payload) = l.map Prod.snd ∧ ∀ p ∈ ps, isMillFrame h p := by
  induction l generalizing s with
  | nil => exact ⟨[], s.nextId, by simp, rfl, by simp⟩
  | cons c l ih =>
    obtain ⟨ps, n, hfold, hpay, hmill⟩ := ih (sendMill h s c)
    have hsend : ∃ p, sendMill h s c = { s with outbox := s.outbox ++ [p], nextId := s.nextId + 1 } ∧
        p.f.payload = c.2 ∧ isMillFrame h p := ⟨_, rfl, rfl, rfl, rfl, rfl, rfl, rfl⟩
    obtain ⟨p, hsend, hp, hpmill⟩ := hsend
    refine ⟨p :: ps, n, ?_, by simp [hp, hpay], List.forall_mem_cons.2 ⟨hpmill, hmill⟩⟩
    rw [List.foldl_cons, hfold, hsend]
    simp

theorem msendBody_ok {data : List Byte} (hne : leAt h.bytes 32 4 ≠ 0) (hmod : leAt h.bytes 32 4 % 16 = 0)
    (hrank : leAt h.bytes 28 2 ≤ 4095) (hlen : data.length = leAt h.bytes 32 4) :
    msendBody r data h s = (cutRun (leAt h.bytes 20 6) data (data.length / 4096 + 2)).foldl (sendMill h) (workDesc s r) := by
  simp only [msendBody]
  rw [if_neg (by omega), if_neg (not_not.2 hlen)]

theorem byteAt_lt (b : List Byte) (i : Nat) : byteAt b i < 256 := (b.getD i 0#8).isLt

/-- RANK and STREAM of a MILL frame, read from the one word that holds them. -/
theorem rank_stream_of_mill {p : Pkt} (hp : isMillFrame h p) (hrank : leAt h.bytes 28 2 ≤ 4095) :
    p.f.rank = leAt h.bytes 28 2 ∧ p.f.stream = byteAt h.bytes 26 := by
  obtain ⟨-, -, -, htsw, -⟩ := hp
  have := byteAt_lt h.bytes 26
  rw [Frame.rank, Frame.stream, htsw]
  omega

end Sys2Proof.Machine

open Sys2Proof Sys2Proof.Machine

/-- Settles O21: a READ and an ATOMIC leave under the free tag (`sendRequest_of_freeTag`) with their lines; an MSEND leaves as the
pieces of its run, in order (`foldl_sendMill`, `flatMap_cutRun`). -/
theorem hostFrames : Obligations.HostFrames := by
  unfold Obligations.HostFrames
  refine ⟨?rread, ?ratomic, ?msend⟩
  case rread =>
    intro s r h tag hs h1 h256 hfree
    have hexec : exec (.rread r) s = .next (startDesc .rread r (rreadBody r) s) := rfl
    rw [startDesc_of_startable hs, rreadBody_of_freeTag h1 h256 hfree] at hexec
    obtain ⟨hworks, hout, htag, hregs, hcomp, hdeep⟩ :=
      sendFrame_requested hs tag (.host h.fn h.ring h.idx) (requestFrame s h 1 (leAt h.bytes 32 2) tag [])
    obtain ⟨hoff, htally⟩ := leAt_returnLine h.bytes []
    have hlines : (requestFrame s h 1 (leAt h.bytes 32 2) tag []).rlen = leAt h.bytes 32 2 :=
      Nat.mod_eq_of_lt (show leAt h.bytes 32 2 < 512 by omega)
    exact ⟨_, _, hexec, hworks, hout, rfl, rfl, rfl, rfl, hlines, rfl, rfl, rfl, hoff, htally, htag, hregs, hcomp, hdeep⟩
  case ratomic =>
    intro s r h tag hs hlen hfree
    have hexec : exec (.ratomic r) s = .next (startDesc .ratomic r (ratomicBody r) s) := rfl
    rw [startDesc_of_startable hs, ratomicBody_of_freeTag hfree] at hexec
    obtain ⟨hworks, hout, htag, hregs, hcomp, hdeep⟩ := sendFrame_requested hs tag (.host h.fn h.ring h.idx)
      (requestFrame s h 3 (byteAt h.bytes 32) tag (operandLines h.bytes))
    exact ⟨_, _, hexec, hworks, hout, rfl, rfl, rfl, rfl, rfl, rfl, rfl, operand_of_lines hlen, lines_of_operand hlen, htag,
      hregs, hcomp, hdeep⟩
  case msend =>
    intro s r h data hs hne hmod hrank hlen
    have hexec : exec (.msend r data) s = .next (startDesc .msend r (msendBody r data) s) := rfl
    rw [startDesc_of_startable hs, msendBody_ok hne hmod hrank hlen] at hexec
    obtain ⟨ps, n, hfold, hpay, hmill⟩ :=
      foldl_sendMill h (cutRun (leAt h.bytes 20 6) data (data.length / 4096 + 2)) (workDesc s r)
    rw [hfold] at hexec
    have hwhole : ps.flatMap (fun p => p.f.payload) = data := by
      rw [List.flatMap_def, hpay, ← List.flatMap_def, flatMap_cutRun]
    refine ⟨_, ps, hexec, worksOn_of_host hs rfl, rfl, hwhole, fun p hp => ?_, rfl, rfl, rfl⟩
    obtain ⟨hrankP, hstream⟩ := rank_stream_of_mill (hmill p hp) hrank
    have hpiece : p.f.payload ∈ ps.map fun p => p.f.payload := List.mem_map_of_mem hp
    rw [hpay] at hpiece
    obtain ⟨c, hc, hcp⟩ := List.mem_map.1 hpiece
    obtain ⟨horg, htyp, hdst, -, htally⟩ := hmill p hp
    exact ⟨horg, htyp, hdst, hrankP, hstream, htally, hcp.symm ▸ length_le_of_mem_cutEvery hc⟩
end

section
/-! PROOFS. The first atomic of a deep-store unit (10 R401, R403; Table MEM-4), and the statement of the atomics and replies. -/

namespace Sys2Proof.Machine

variable {s u : State} {a : AtomicOp} {rest : List AtomicOp}

/-! ### Little-endian numbers -/

theorem leNat_zeros (n : Nat) : leNat (zeros n) = 0 := by
  induction n with
  | zero => rfl
  | succ n ih => simpa [zeros, List.replicate_succ, leNat] using ih

theorem leNat_append_zeros (bs : List Byte) (n : Nat) : leNat (bs ++ zeros n) = leNat bs := by
  induction bs with
  | nil => exact leNat_zeros n
  | cons b bs ih => rw [List.cons_append, leNat, leNat, ih]

/-- A run of at most n bytes padded to n is the same number. -/
theorem leNat_padTo {bs : List Byte} {n : Nat} (h : bs.length ≤ n) : leNat (padTo n bs) = leNat bs := by
  rw [padTo, List.take_of_length_le h, leNat_append_zeros]

/-! ### An atomic carried out -/

/-- The first atomic that waits is one of 32 or 64 bits for deep store, and no error stands. -/
structure FirstAtomic (s : State) (a : AtomicOp) (rest : List AtomicOp) : Prop where
  noUe : noUe s
  first : s.rem.atomics = a :: rest
  deep : a.deep = true
  size : a.f.asize < 2

/-- The bytes at an atomic's target. -/
def oldWord (s : State) (a : AtomicOp) : List Byte := readDeep s a.addr (4 + 4 * a.f.asize)

theorem oldWord_length (s : State) (a : AtomicOp) : (oldWord s a).length = 4 + 4 * a.f.asize := memReadN_length _ _ _

/-- The state with other atomics waiting. -/
def withAtomics (s : State) (l : List AtomicOp) : State := { s with rem := { s.rem with atomics := l } }

/-- A state in which an atomic writes bytes at its target in deep store and answers with others. -/
def atomicAnswered (a : AtomicOp) (o : State × List Byte × List Byte) : State :=
  answer { o.1 with deep := { o.1.deep with mem := memWriteN o.1.deep.mem a.addr o.2.1 } } a.f a.die 0 (padTo 16 o.2.2)

theorem doAtomic_deep (h : FirstAtomic s a rest) {aop : Nat} (hop : a.f.aop = aop)
    (op : State → AtomicOp → List Byte → State × List Byte × List Byte) :
    doAtomic (unstruck s) aop op = atomicAnswered a (op (withAtomics (unstruck s) rest) a (oldWord s a)) := by
  obtain ⟨hue, hfirst, hdeep, hsize⟩ := h
  have htake : takeAtomic aop [] (unstruck s).rem.atomics = some (a, rest) := by
    rw [show (unstruck s).rem.atomics = a :: rest from hfirst]
    simp [takeAtomic, hop]
  have hquiet : Quiet (withAtomics (unstruck s) rest) := ⟨hue, rfl⟩
  have hbytes : (if a.f.asize = 0 then 4 else if a.f.asize = 1 then 8 else 48) = 4 + 4 * a.f.asize := by
    obtain h0 | h1 : a.f.asize = 0 ∨ a.f.asize = 1 := by omega
    · simp [h0]
    · simp [h1]
  have hread : readTarget (withAtomics (unstruck s) rest) a.target (4 + 4 * a.f.asize) =
      (withAtomics (unstruck s) rest, oldWord s a, false) := by
    simp only [readTarget, AtomicOp.target, hdeep, if_true, hquiet.meetDeep_eq]
    rfl
  rw [withAtomics] at hread
  simp only [doAtomic, htake, hbytes, hread, writeAtomic, hdeep, if_true, Bool.false_eq_true, if_false]
  rfl

/-- An atomic has been carried out (R401): its target reads a new value, the answer of an ATOMIC carries the old one, the other
atomics wait on, and no cluster has changed. -/
def atomicDone (s t : State) (a : AtomicOp) (rest : List AtomicOp) (new : Nat) : Prop :=
  leNat (oldWord t a) = new ∧
  (∃ p, t.outbox = s.outbox ++ [p] ∧ p.f.typ = 4 ∧ p.f.status = 0 ∧ leNat p.f.payload = leNat (oldWord s a)) ∧
  t.rem.atomics = rest ∧ t.comp = s.comp

/-- So it is where the frame that waits is an ATOMIC, and its operation writes as many bytes as it reads and changes neither the
outbox nor a cluster nor what waits. -/
theorem atomicDone_of_op (h : FirstAtomic s a rest) (htyp : a.f.typ = 3) {aop : Nat} (hop : a.f.aop = aop)
    {op : State → AtomicOp → List Byte → State × List Byte × List Byte} {bs : List Byte}
    (hres : op (withAtomics (unstruck s) rest) a (oldWord s a) = (u, bs, oldWord s a))
    (hlen : bs.length = (oldWord s a).length) (hout : u.outbox = s.outbox) (hrem : u.rem.atomics = rest)
    (hcomp : u.comp = s.comp) : atomicDone s (unstruck (doAtomic (unstruck s) aop op)) a rest (leNat bs) := by
  rw [doAtomic_deep h hop, hres]
  have hread : oldWord (unstruck (atomicAnswered a (u, bs, oldWord s a))) a = bs := by
    rw [oldWord, ← oldWord_length s a, ← hlen]
    exact memReadN_memWriteN u.deep.mem a.addr bs
  have hold : (oldWord s a).length ≤ 16 := by
    have := h.size
    rw [oldWord_length]
    omega
  exact ⟨congrArg leNat hread, ⟨_, congrArg (· ++ _) hout, congrArg (· + 1) htyp, rfl, leNat_padTo hold⟩, hrem, hcomp⟩

/-! ### The four operations (Table MEM-4) -/

/-- A number of the bytes of an atomic's target is one of 32 or 64 bits. -/
theorem pow_oldWord_length (s : State) (a : AtomicOp) : 256 ^ (oldWord s a).length = 2 ^ (32 + 32 * a.f.asize) := by
  rw [oldWord_length, show 256 = 2 ^ 8 from rfl, ← Nat.pow_mul]
  congr 1
  omega

/-- The operand of an atomic fits in its target. -/
theorem leNat_operandBytes (hsize : a.f.asize < 2) : leNat (leBytes (oldWord s a).length a.operand) = a.operand := by
  have hbytes : atomicBytes a.f.asize = (oldWord s a).length := by
    rw [oldWord_length]
    obtain h0 | h1 : a.f.asize = 0 ∨ a.f.asize = 1 := by omega
    · simp [atomicBytes, h0]
    · simp [atomicBytes, h1]
  rw [leNat_leBytes, ← hbytes]
  exact Nat.mod_eq_of_lt (leAt_lt a.f.payload 16 (atomicBytes a.f.asize))

theorem atomicIntegerAdd_of_atomic (h : FirstAtomic s a rest) (htyp : a.f.typ = 3) (hop : a.f.aop = 0) :
    ∃ t, exec (.atomicIntegerAdd Upsets.none) s = .next t ∧
      atomicDone s t a rest ((leNat (oldWord s a) + a.operand) % 2 ^ (32 + 32 * a.f.asize)) := by
  rw [← pow_oldWord_length s a, ← leNat_leBytes]
  exact ⟨unstruck (atomicIntegerAdd (unstruck s)), rfl,
    atomicDone_of_op h htyp hop rfl (leBytes_length _ _) rfl rfl rfl⟩

theorem atomicSwap_of_atomic (h : FirstAtomic s a rest) (htyp : a.f.typ = 3) (hop : a.f.aop = 1) :
    ∃ t, exec (.atomicSwap Upsets.none) s = .next t ∧ atomicDone s t a rest a.operand := by
  have hdone := atomicDone_of_op h htyp hop (op := fun s a old => (s, leBytes old.length a.operand, old)) rfl
    (leBytes_length _ _) rfl rfl rfl
  rw [leNat_operandBytes h.size] at hdone
  exact ⟨unstruck (atomicSwap (unstruck s)), rfl, hdone⟩

theorem atomicCompareSwap_of_atomic (h : FirstAtomic s a rest) (htyp : a.f.typ = 3) (hop : a.f.aop = 2) :
    ∃ t, exec (.atomicCompareSwap Upsets.none) s = .next t ∧
      atomicDone s t a rest (if leNat (oldWord s a) = a.compare then a.operand else leNat (oldWord s a)) := by
  have hdone {bs : List Byte}
      (hbs : (if leNat (oldWord s a) = a.compare then leBytes (oldWord s a).length a.operand else oldWord s a) = bs)
      (hlen : bs.length = (oldWord s a).length) :
      atomicDone s (unstruck (atomicCompareSwap (unstruck s))) a rest (leNat bs) :=
    atomicDone_of_op (u := withAtomics (unstruck s) rest) h htyp hop (by simp only [hbs]) hlen rfl rfl rfl
  refine ⟨unstruck (atomicCompareSwap (unstruck s)), rfl, ?_⟩
  by_cases hcmp : leNat (oldWord s a) = a.compare
  · have hswapped := hdone (if_pos hcmp) (leBytes_length _ _)
    rw [leNat_operandBytes h.size] at hswapped
    rwa [if_pos hcmp]
  · rw [if_neg hcmp]
    exact hdone (if_neg hcmp) rfl

/-- The state of a floating add before its word is written: the sum's flags and NONDET are told (R403, R404). -/
def floatTold (s : State) (a : AtomicOp) (fl : FpFlags) : State := raise (atomicFlags s a.die fl) R.glbStatus 0

/-- R403: one rounding, under the target die's FTZ; NONDET is set. -/
theorem atomicFloatingAdd_of_atomic (h : FirstAtomic s a rest) (htyp : a.f.typ = 3) (hop : a.f.aop = 3)
    (hsize : a.f.asize = 0) :
    ∃ t, exec (.atomicFloatingAdd Upsets.none) s = .next t ∧
      atomicDone s t a rest ((floatSum (flag s (R.cpxFpmode a.die) 0) (leNat (oldWord s a)) a.operand).1 % 2 ^ 32) ∧
      flag t R.glbStatus 0 = true := by
  generalize hsum : floatSum (flag s (R.cpxFpmode a.die) 0) (leNat (oldWord s a)) a.operand = r
  have hsum' : floatSum (flag (withAtomics (unstruck s) rest) (R.cpxFpmode a.die) 0) (leNat (oldWord s a)) a.operand = r := hsum
  have hlen : (leBytes 4 r.1).length = (oldWord s a).length := by rw [leBytes_length, oldWord_length, hsize]
  have hdone : atomicDone s (unstruck (atomicFloatingAdd (unstruck s))) a rest (leNat (leBytes 4 r.1)) :=
    atomicDone_of_op (u := floatTold (withAtomics (unstruck s) rest) a r.2) h htyp hop
      (by simp only [if_neg (by omega : ¬ a.f.asize = 2), hsum', floatTold]) hlen rfl rfl rfl
  have hregs : (atomicFloatingAdd (unstruck s)).regs = (floatTold (withAtomics (unstruck s) rest) a r.2).regs := by
    rw [atomicFloatingAdd, doAtomic_deep h hop]
    simp only [if_neg (by omega : ¬ a.f.asize = 2), hsum', floatTold, atomicAnswered, answer, sendFrame_eq]
  rw [leNat_leBytes] at hdone
  exact ⟨unstruck (atomicFloatingAdd (unstruck s)), rfl, hdone, (flag_congr_regs hregs _ _).trans (flag_raise_same _ _ (by decide))⟩

/-! ### The state that refutes -/

/-- The state after reset, but a WRITE waits at the atomic unit of deep store. -/
def writeAtUnit : State := { State.reset with rem := { State.reset.rem with
  atomics := [⟨{ Frame.blank with payload := zeros 48 }, 0, true, 0, 0, 0, 0, 0⟩] } }

/-- It is answered as a READ. -/
theorem atomicIntegerAdd_writeAtUnit :
    ∃ t : State, exec (.atomicIntegerAdd Upsets.none) writeAtUnit = .next t ∧ t.outbox.map (fun p => p.f.typ) = [1] :=
  ⟨_, rfl, by decide +kernel⟩

end Sys2Proof.Machine

open Sys2Proof Sys2Proof.Machine

/-- Refutes O28. The statement speaks of every `State`, and of the frame that waits at an atomic unit it asks the operation but not
the type: an answer's type is the next after its request's (R398), so that a WRITE that waited there, where no command puts one
(`remoteAtomic`), would be answered as a READ. Where the frame is an ATOMIC the clause holds (`atomicIntegerAdd_of_atomic`,
`atomicSwap_of_atomic`, `atomicCompareSwap_of_atomic`, `atomicFloatingAdd_of_atomic`). -/
theorem not_atomicsAndReplies : ¬ Obligations.AtomicsAndReplies := by
  unfold Obligations.AtomicsAndReplies
  rintro ⟨hatomics, -⟩
  obtain ⟨hadd, -⟩ := hatomics writeAtUnit _ [] ⟨rfl, rfl, rfl⟩ rfl rfl (by decide) (by decide)
  obtain ⟨t, p, ht, -, hout, htyp, -⟩ := hadd (by decide)
  obtain ⟨u, hu, hread⟩ := atomicIntegerAdd_writeAtUnit
  obtain rfl := Host.Outcome.next.inj (hu.symm.trans ht)
  rw [hout] at hread
  have hone : p.f.typ = 1 := List.singleton_inj.1 hread
  omega
end

section
/-! PROOFS. A WRITE that passes its checks (10 R382, R394, R405), and the statement of the remote frames. -/

namespace Sys2Proof.Machine

variable {s : State} {q : Fin 9} {e : QEntry} {w : Nat} {tg : Target}

/-! ### The first frame that waits for the receiver -/

/-- A mirror point tells what it misses in `MIR_CNT_LOST` and `MIR_STAT` alone (09 R371). -/
theorem sameRegs_mirrorSee (s : State) (point unit verdict : Nat) (f : Frame) :
    sameRegs s (mirrorSee s point unit verdict f) [R.mirCntLost, R.mirStat] := by
  unfold mirrorSee
  dsimp only
  split
  · exact sameRegs_refl _ _
  · split
    · exact sameRegs_of_regs rfl _
    · split
      · exact sameRegs_trans (sameRegs_bump _ 1 (by simp)) (sameRegs_raise _ 1 (by simp))
      · exact sameRegs_of_regs rfl _

/-- The first frame that waits is taken with no change but to the mirror's registers and the fabric. -/
theorem popArrival_changes (s : State) (q : Nat) :
    (∃ regs fab, popArrival s q = { s with regs := regs, fab := fab }) ∧
      sameRegs s (popArrival s q) [R.mirCntLost, R.mirStat] := by
  have hdrop (u : State) : (∃ fab, dropArrival u q = { u with fab := fab }) := ⟨_, dropArrival_frame u q⟩
  unfold popArrival
  split
  · exact ⟨⟨s.regs, s.fab, rfl⟩, sameRegs_refl _ _⟩
  next e _ =>
    split
    · obtain ⟨regs, cnt, recs, seq, hsee⟩ := mirrorSee_frame s 3 q 0 e.f
      have hregs := sameRegs_mirrorSee s 3 q 0 e.f
      obtain ⟨fab, hfab⟩ := hdrop (mirrorSee s 3 q 0 e.f)
      rw [hfab]
      exact ⟨⟨regs, fab, by rw [hsee]⟩, hregs⟩
    · obtain ⟨fab, hfab⟩ := hdrop s
      rw [hfab]
      exact ⟨⟨s.regs, fab, rfl⟩, sameRegs_of_regs rfl _⟩

/-- The tallies of a function of the device lie below the mirror's registers. -/
theorem tallyRange_popArrival (s : State) (q : Nat) {fn d : Nat} (hfn : fn ≤ 512) (hd : d < 8) :
    tallyRange (popArrival s q) fn d = tallyRange s fn d := by
  have hlow : R.vfTally fn d ∉ [R.mirCntLost, R.mirStat] := by
    simp only [R.vfTally, R.mirCntLost, R.mirStat, List.mem_cons, List.not_mem_nil, or_false]
    omega
  have hrd := (popArrival_changes s q).2 _ hlow
  rw [tallyRange, tallyRange, getF_congr_rd hrd, getF_congr_rd hrd]

/-- The owner word of a cluster lies above them. -/
theorem clown_popArrival (s : State) (q g : Nat) : clown (popArrival s q) g = clown s g := by
  have hhigh {x : Nat} (hx : clownOff g ≤ x) : x ∉ [R.mirCntLost, R.mirStat] := by
    simp only [clownOff, R.cpxClown, R.mirCntLost, R.mirStat, List.mem_cons, List.not_mem_nil, or_false] at hx ⊢
    omega
  have hrd := (popArrival_changes s q).2
  rw [clown, clown, rd64, rd64, hrd _ (hhigh le_rfl), hrd _ (hhigh (Nat.le_add_right _ 4))]

/-- Where a function's bytes are live is told by the owner word and the slot. -/
theorem isLive_congr {t : State} {g : Nat} (hclown : clown t g = clown s g) (hcomp : t.comp = s.comp) (fn a : Nat) :
    isLive t g fn a = isLive s g fn a := by
  simp only [isLive, slotOf, slotValid, slotFn, resSlot, slotSt, hclown, hcomp]

/-! ### The WRITE -/

/-- A WRITE waits first, and its checks give one target, which it need not wait for. -/
structure FirstWrite (s : State) (q : Fin 9) (e : QEntry) (w : Nat) (tg : Target) : Prop where
  head : (arrivals s q).head? = some e
  typ : e.f.typ = 0
  single : e.f.mc = false
  judged : judge s e = .passed w [tg]
  ready : mustWait s e [tg] = false

/-- It lands at its target. -/
theorem FirstWrite.remoteWrite_eq (h : FirstWrite s q e w tg) : remoteWrite q s = land (popArrival s q) e.f tg := by
  obtain ⟨hhead, htyp, hmc, hjudged, hready⟩ := h
  simp only [remoteWrite, hhead, htyp, hjudged, hmc, hready, Bool.false_and, Bool.false_eq_true, if_false,
    List.foldl_cons, List.foldl_nil, if_neg (by omega : ¬ (1 ≤ 0 ∧ 0 ≤ 4))]

theorem land_deep (hdeep : tg.deep = true) (f : Frame) :
    land s f tg = landTally (writeDeep s tg.addr f.payload) tg.fn tg.die f.tally (tallyInc f) := by
  simp only [land, hdeep, if_true]

theorem land_live {i : Nat} (hdeep : tg.deep = false) (hclus : tg.clus = [i]) (hue : s.comp.storeUe = [])
    (hups : s.ups.store = []) (hlive : ∀ a, isLive s (160 * tg.die + i) tg.fn a = true) (f : Frame) :
    land s f tg = landTally (storeBytes s (storeKey (160 * tg.die + i) tg.addr) f.payload) tg.fn tg.die f.tally (tallyInc f) := by
  simp only [land, hdeep, hclus, Bool.false_eq_true, if_false, List.foldl_cons, List.foldl_nil,
    landCluster_live hue hups hlive]

/-- A count that lands where neither the tallies nor the function's slice of them have changed. -/
theorem tallyCount_landed {u : State} {fn die tally : Nat} (n : Nat) (hrem : u.rem = s.rem)
    (hrange : tallyRange u fn die = tallyRange s fn die) (htally : tally ≠ 0xFFFF) (hlt : tally < (tallyRange s fn die).2) :
    tallyCount (landTally u fn die tally n) fn die tally = (tallyCount s fn die tally + n) % 2 ^ 32 := by
  rw [tallyCount_landTally u htally (hrange ▸ hlt), tallyCount, tallyCount, hrange, hrem]

/-- A command that strikes nothing finds the frame as it waits. -/
theorem FirstWrite.in_unstruck (h : FirstWrite s q e w tg) : FirstWrite (unstruck s) q e w tg :=
  ⟨h.head, h.typ, h.single, h.judged, h.ready⟩

theorem FirstWrite.exec_eq (h : FirstWrite s q e w tg) :
    exec (.remoteWrite ⟨q, Upsets.none⟩) s =
      .next (unstruck (land (popArrival (unstruck s) q) e.f tg)) := by
  rw [← h.in_unstruck.remoteWrite_eq]
  rfl

/-- Where the frame lands by a write of a memory, it is counted once, for a function and a die of the device. -/
theorem FirstWrite.landed (h : FirstWrite s q e w tg) (hfn : tg.fn ≤ 512) (hdie : tg.die < 8) {v : State}
    (hland : land (popArrival (unstruck s) q) e.f tg = landTally v tg.fn tg.die e.f.tally (tallyInc e.f))
    (hregs : v.regs = (popArrival (unstruck s) q).regs) (hrem : v.rem = (popArrival (unstruck s) q).rem) :
    ∃ t : State, exec (.remoteWrite ⟨q, Upsets.none⟩) s = .next t ∧ t.comp = v.comp ∧ t.deep = v.deep ∧ t.outbox = v.outbox ∧
      (e.f.tally < (tallyRange s tg.fn tg.die).2 → e.f.tally ≠ 0xFFFF → tallyCount t tg.fn tg.die e.f.tally =
        (tallyCount s tg.fn tg.die e.f.tally + e.f.tinc) % 2 ^ 32) := by
  have hexec := h.exec_eq
  have hinc : tallyInc e.f = e.f.tinc := if_pos h.typ
  have hrange : tallyRange v tg.fn tg.die = tallyRange s tg.fn tg.die :=
    (tallyRange_congr tg.fn tg.die hregs).trans (tallyRange_popArrival (unstruck s) q hfn hdie)
  obtain ⟨⟨regs, fab, hpop⟩, -⟩ := popArrival_changes (unstruck s) q
  have hrem' : v.rem = s.rem := hrem.trans (by rw [hpop]; rfl)
  have hframe := landTally_eq v tg.fn tg.die e.f.tally e.f.tinc
  rw [hland, hinc] at hexec
  refine ⟨_, hexec, ?_, ?_, ?_, fun hlt hne => tallyCount_landed (s := s) e.f.tinc hrem' hrange hne hlt⟩
  all_goals rw [hframe]; rfl

/-- R382, R394, R405 for a function and a die of the device: the clause of `Obligations.RemoteFrames` on deep store, which fails of
other targets. -/
theorem remoteWrite_deep_of_fn (h : FirstWrite s q e w tg) (hdeep : tg.deep = true) (hfn : tg.fn ≤ 512) (hdie : tg.die < 8) :
    ∃ t : State, exec (.remoteWrite ⟨q, Upsets.none⟩) s = .next t ∧ readDeep t tg.addr e.f.payload.length = e.f.payload ∧
      (∀ a, a < tg.addr ∨ tg.addr + e.f.payload.length ≤ a → memRead t.deep.mem a = memRead s.deep.mem a) ∧
      t.comp = s.comp ∧ t.outbox = s.outbox ∧
      (e.f.tally < (tallyRange s tg.fn tg.die).2 → e.f.tally ≠ 0xFFFF → tallyCount t tg.fn tg.die e.f.tally =
        (tallyCount s tg.fn tg.die e.f.tally + e.f.tinc) % 2 ^ 32) := by
  obtain ⟨t, hexec, hcomp, hdp, hout, hcount⟩ := h.landed hfn hdie (land_deep hdeep e.f) rfl rfl
  obtain ⟨⟨regs, fab, hpop⟩, -⟩ := popArrival_changes (unstruck s) q
  rw [hpop] at hcomp hdp hout
  have hmem : t.deep.mem = memWriteN s.deep.mem tg.addr e.f.payload := congrArg DeepSt.mem hdp
  refine ⟨t, hexec, ?_, fun a ha => ?_, hcomp, hout, hcount⟩
  · rw [readDeep, hmem, memReadN_memWriteN]
  · rw [hmem, memRead_memWriteN_out _ _ ha]

/-- The same for a cluster that holds its function's stores live (R183). -/
theorem remoteWrite_live_of_fn (h : FirstWrite s q e w tg) {i : Nat} (hue : noUe s) (hdeep : tg.deep = false)
    (hclus : tg.clus = [i]) (hlive : ∀ a, isLive s (160 * tg.die + i) tg.fn a = true) (hfn : tg.fn ≤ 512) (hdie : tg.die < 8) :
    ∃ t : State, exec (.remoteWrite ⟨q, Upsets.none⟩) s = .next t ∧
      readStore t (160 * tg.die + i) tg.addr e.f.payload.length = e.f.payload ∧
      (∀ a, a < storeKey (160 * tg.die + i) tg.addr ∨
        storeKey (160 * tg.die + i) tg.addr + e.f.payload.length ≤ a →
        memRead t.comp.store a = memRead s.comp.store a) ∧ t.deep = s.deep ∧ t.outbox = s.outbox ∧
      (e.f.tally < (tallyRange s tg.fn tg.die).2 → e.f.tally ≠ 0xFFFF → tallyCount t tg.fn tg.die e.f.tally =
        (tallyCount s tg.fn tg.die e.f.tally + e.f.tinc) % 2 ^ 32) := by
  obtain ⟨hstoreUe, -, -⟩ := hue
  have hclown := clown_popArrival (unstruck s) q (160 * tg.die + i)
  obtain ⟨⟨regs, fab, hpop⟩, -⟩ := popArrival_changes (unstruck s) q
  have hcompPop : (popArrival (unstruck s) q).comp = s.comp := by rw [hpop]; rfl
  have hupsPop : (popArrival (unstruck s) q).ups.store = [] := by rw [hpop]; rfl
  have hlivePop (a : Nat) : isLive (popArrival (unstruck s) q) (160 * tg.die + i) tg.fn a = true :=
    (isLive_congr hclown hcompPop tg.fn a).trans (hlive a)
  have hland := land_live hdeep hclus (hcompPop ▸ hstoreUe) hupsPop hlivePop e.f
  obtain ⟨t, hexec, hcomp, hdp, hout, hcount⟩ := h.landed hfn hdie hland rfl rfl
  rw [hpop] at hcomp hdp hout
  have hstore : t.comp.store = memWriteN s.comp.store (storeKey (160 * tg.die + i) tg.addr) e.f.payload :=
    congrArg ComputeSt.store hcomp
  refine ⟨t, hexec, ?_, fun a ha => ?_, hdp, hout, hcount⟩
  · rw [readStore, hstore, memReadN_memWriteN]
  · rw [hstore, memRead_memWriteN_out _ _ ha]

/-! ### The state that refutes -/

/-- Where a mirror point sees a frame that is to be recorded and the mirror is full, the record is lost. -/
theorem mirrorSee_full {point unit : Nat} (verdict : Nat) (f : Frame) (hon : flag s R.mirCtl 31 = true)
    (hat : mirrorAt s point unit = true) (hjob : flag s R.mirJob 31 = false) (hratio : getF s R.mirCtl 15 0 ≤ 1)
    (hfull : mirrorRoom ≤ s.fab.mirRecs.length) :
    (mirrorSee s point unit verdict f).regs = (raise (bump s R.mirCntLost 1) R.mirStat 1).regs := by
  unfold mirrorSee
  dsimp only
  rw [if_neg (by simp [hon, hat, hjob]), if_neg (by omega), if_pos hfull]
  rfl

/-- A target whose tally register would be `MIR_STAT`. -/
def strayTarget : Target := ⟨0, true, 0, 7, [], 131072⟩

/-- A WRITE that was checked for that target. -/
def strayWrite : QEntry := ⟨0, { Frame.blank with tally := 0 }, .port 0, 0, false, none, some strayTarget⟩

/-- The state after reset, but that WRITE waits on the die link of die 0, which the mirror watches, with some records so far;
`MIR_STAT` reads as a slice of one tally from 0, and tally 2 of die 7 stands at 1. -/
def watched (recs : List (List Byte)) : State := { State.reset with
  regs := [(R.mirCtl, 0x80010000), (R.mirStat, 0x10000)]
  rem := { State.reset.rem with tallies := [(16384 * 7 + 2, ⟨1, 131072, true⟩)] }
  fab := { State.reset.fab with sink := [(0, [strayWrite])], mirRecs := recs } }

variable {recs : List (List Byte)}

theorem firstWrite_watched : FirstWrite (watched recs) 0 strayWrite 0 strayTarget := ⟨rfl, rfl, rfl, rfl, rfl⟩

/-- Before the WRITE that slice is tally 0 of die 7, which has counted nothing. -/
theorem tallyRange_watched : tallyRange (watched recs) 131072 7 = (0, 1) :=
  (tallyRange_congr (s := watched []) 131072 7 rfl).trans (by decide +kernel)

theorem tallyCount_watched : tallyCount (watched recs) 131072 7 0 = 0 := by
  rw [tallyCount, tallyRange_watched]
  rfl

/-- As the WRITE is taken its mirror record is lost, and the slice that `MIR_STAT` would name moves by two. -/
theorem tallyRange_popArrival_watched (hfull : mirrorRoom ≤ recs.length) :
    tallyRange (popArrival (unstruck (watched recs)) (0 : Fin 9)) 131072 7 = (2, 1) := by
  have hpop : popArrival (unstruck (watched recs)) (0 : Fin 9) =
      dropArrival (mirrorSee (unstruck (watched recs)) 3 0 0 strayWrite.f) 0 :=
    popArrival_eq (d := 0) firstWrite_watched.head
  have hflag (off i : Nat) : flag (unstruck (watched recs)) off i = flag (watched []) off i := rfl
  have hratio : getF (unstruck (watched recs)) R.mirCtl 15 0 = getF (watched []) R.mirCtl 15 0 := rfl
  have hon : flag (unstruck (watched recs)) R.mirCtl 31 = true := (hflag _ _).trans (by decide +kernel)
  have hat : mirrorAt (unstruck (watched recs)) 3 0 = true := (hflag _ _).trans (by decide +kernel)
  have hjob : flag (unstruck (watched recs)) R.mirJob 31 = false := (hflag _ _).trans (by decide +kernel)
  have hone : getF (watched []) R.mirCtl 15 0 ≤ 1 := by decide +kernel
  have hregs : (popArrival (unstruck (watched recs)) (0 : Fin 9)).regs =
      (raise (bump (watched []) R.mirCntLost 1) R.mirStat 1).regs := by
    rw [hpop, dropArrival_frame]
    exact mirrorSee_full 0 strayWrite.f hon hat hjob (hratio ▸ hone) hfull
  rw [tallyRange_congr _ _ hregs]
  decide +kernel

/-- So the WRITE, of TINC 0, is counted where 1 stands. -/
theorem remoteWrite_watched (hfull : mirrorRoom ≤ recs.length) :
    ∃ t : State, exec (.remoteWrite ⟨0, Upsets.none⟩) (watched recs) = .next t ∧ tallyCount t 131072 7 0 = 1 := by
  have hexec := (firstWrite_watched (recs := recs)).exec_eq
  rw [land_deep rfl] at hexec
  have hrange := tallyRange_popArrival_watched hfull
  have hrem : (popArrival (unstruck (watched recs)) (0 : Fin 9)).rem = (watched recs).rem := by
    obtain ⟨⟨regs, fab, hpop⟩, -⟩ := popArrival_changes (unstruck (watched recs)) (0 : Fin 9)
    rw [hpop]
    rfl
  generalize popArrival (unstruck (watched recs)) (0 : Fin 9) = u at hexec hrange hrem
  have hbefore : tallyCount u 131072 7 0 = 1 := by
    rw [tallyCount, hrange, hrem]
    rfl
  have hlt : 0 < (tallyRange u 131072 7).2 := by rw [hrange]; decide
  have hcount := tallyCount_landTally (writeDeep u strayTarget.addr strayWrite.f.payload) (n := 0) (by decide) hlt
  exact ⟨_, hexec, hcount.trans (congrArg (fun c => (c + 0) % 2 ^ 32) hbefore)⟩

end Sys2Proof.Machine

open Sys2Proof Sys2Proof.Machine

/-- Refutes O27. The statement speaks of every `State`, and asks of a WRITE that was already checked not whether its target's
function is one of the device's: the tallies of function 131,072 on die 7 would be told by `MIR_STAT`, which changes as the WRITE is
taken where the mirror that watches its die link is full (09 R371 to R373), so that the count read after it is another tally's. For a function and a die of the device the clause holds (`remoteWrite_deep_of_fn`, `remoteWrite_live_of_fn`). -/
theorem not_remoteFrames : ¬ Obligations.RemoteFrames := by
  unfold Obligations.RemoteFrames
  rintro ⟨hwrite, -⟩
  obtain ⟨u, hu, hone⟩ := remoteWrite_watched (recs := List.replicate mirrorRoom []) (by rw [List.length_replicate])
  generalize List.replicate mirrorRoom [] = recs at hu
  obtain ⟨hhead, htyp, hmc, hjudged, hready⟩ := firstWrite_watched (recs := recs)
  obtain ⟨hdeep, -⟩ := hwrite (watched recs) 0 strayWrite 0 strayTarget ⟨rfl, rfl, rfl⟩ hhead htyp hmc hjudged hready
  obtain ⟨t, ht, -, -, -, -, hcount⟩ := hdeep rfl
  obtain rfl := Host.Outcome.next.inj (hu.symm.trans ht)
  have hlt : 0 < (tallyRange (watched recs) 131072 7).2 := by
    rw [tallyRange_watched]
    decide
  have hzero := (hcount hlt (by decide)).trans (congrArg (fun c => (c + strayWrite.f.tinc) % 2 ^ 32) tallyCount_watched)
  exact absurd (hone.symm.trans hzero) (by decide)
end

section
/-! PROOFS. An instruction at hand of a mill that goes on (11 R421 to R425): what the state then holds, and what it keeps. -/

namespace Sys2Proof.Machine

variable {s t u : State} {m : Nat} {h : HandlerSt} {w op : Nat} {pick used : MCtx → Bool} {eff : State → MCtx → MRes}

/-! ### Streams, accumulators and counters after an update of their mill -/

@[simp] theorem streamOf_setStream_same (s : State) (m n : Nat) (x : StreamSt) : streamOf (setStream s m n x) m n = x := by
  rw [streamOf, setStream, millOf_setMill_same]
  exact SMap.getD_setD_same _ _ _ _

@[simp] theorem accOf_setAcc_same (s : State) (m j : Nat) (v : Image) : accOf (setAcc s m j v) m j = v := by
  rw [accOf, setAcc, millOf_setMill_same]
  exact SMap.getD_setD_same _ _ _ _

theorem accOf_setAcc_ne (s : State) (m : Nat) {j k : Nat} (v : Image) (hne : k ≠ j) :
    accOf (setAcc s m j v) m k = accOf s m k := by
  rw [accOf, setAcc, millOf_setMill_same]
  exact SMap.getD_setD_ne _ _ _ _ hne

@[simp] theorem ctrOf_setCtr_same (s : State) (m j v : Nat) : ctrOf (setCtr s m j v) m j = v % 2 ^ 32 := by
  rw [ctrOf, setCtr, millOf_setMill_same]
  exact SMap.getD_setD_same _ _ _ _

@[simp] theorem streamOf_setAcc (s : State) (m j n : Nat) (v : Image) : streamOf (setAcc s m j v) m n = streamOf s m n := by
  rw [streamOf, setAcc, millOf_setMill_same, streamOf]

@[simp] theorem streamOf_setCtr (s : State) (m j v n : Nat) : streamOf (setCtr s m j v) m n = streamOf s m n := by
  rw [streamOf, setCtr, millOf_setMill_same, streamOf]

@[simp] theorem streamOf_setHandler (s : State) (m n : Nat) (h : HandlerSt) :
    streamOf (setHandler s m h) m n = streamOf s m n := by
  rw [streamOf, setHandler, millOf_setMill_same, streamOf]

@[simp] theorem accOf_setHandler (s : State) (m j : Nat) (h : HandlerSt) : accOf (setHandler s m h) m j = accOf s m j := by
  rw [accOf, setHandler, millOf_setMill_same, accOf]

@[simp] theorem ctrOf_setHandler (s : State) (m j : Nat) (h : HandlerSt) : ctrOf (setHandler s m h) m j = ctrOf s m j := by
  rw [ctrOf, setHandler, millOf_setMill_same, ctrOf]

@[simp] theorem accOf_setStream (s : State) (m n j : Nat) (x : StreamSt) : accOf (setStream s m n x) m j = accOf s m j := by
  rw [accOf, setStream, millOf_setMill_same, accOf]

@[simp] theorem ctrOf_setStream (s : State) (m n j : Nat) (x : StreamSt) : ctrOf (setStream s m n x) m j = ctrOf s m j := by
  rw [ctrOf, setStream, millOf_setMill_same, ctrOf]

@[simp] theorem run_setHandler (s : State) (m : Nat) (h : HandlerSt) : (millOf (setHandler s m h) m).run = some h := by
  rw [setHandler, millOf_setMill_same]

/-! ### Updates of one mill -/

theorem onlyMill_trans (hst : onlyMill s t m) (htu : onlyMill t u m) : onlyMill s u m := by
  obtain ⟨hs, hothers⟩ := hst
  obtain ⟨ht, hothers'⟩ := htu
  exact ⟨by rw [ht, hs], fun k hk => (hothers' k hk).trans (hothers k hk)⟩

theorem onlyMill_refl (s : State) (m : Nat) : onlyMill s s m := ⟨rfl, fun _ _ => rfl⟩

theorem onlyMill_keeps (hst : onlyMill s t m) :
    t.outbox = s.outbox ∧ t.regs = s.regs ∧ t.comp = s.comp ∧ t.deep = s.deep := by
  obtain ⟨hs, -⟩ := hst
  rw [hs]
  exact ⟨rfl, rfl, rfl, rfl⟩

theorem onlyMill_setMill (s : State) (m : Nat) (x : MillSt) : onlyMill s (setMill s m x) m :=
  ⟨rfl, fun _ hk => millOf_setMill_ne s x hk⟩

theorem onlyMill_setStream (s : State) (m n : Nat) (x : StreamSt) : onlyMill s (setStream s m n x) m := onlyMill_setMill s m _
theorem onlyMill_setHandler (s : State) (m : Nat) (h : HandlerSt) : onlyMill s (setHandler s m h) m := onlyMill_setMill s m _
theorem onlyMill_setAcc (s : State) (m j : Nat) (v : Image) : onlyMill s (setAcc s m j v) m := onlyMill_setMill s m _
theorem onlyMill_setCtr (s : State) (m j v : Nat) : onlyMill s (setCtr s m j v) m := onlyMill_setMill s m _

/-! ### The step of an instruction that goes on -/

/-- The state in which a handler stands at an address, one more instruction executed. -/
def standsAt (s : State) (m : Nat) (g : HandlerSt) (pc : Nat) : State :=
  setHandler s m { g with pc := pc, count := g.count + 1 }

/-- The state in which a handler has written gd and stands at the next address. -/
def resultIn (s : State) (c : MCtx) (v : Nat) : State :=
  standsAt (c.setReg s c.d v).1 c.m (c.setReg s c.d v).2 (c.h.pc + 1)

theorem runsWord_pc_lt (hruns : runsWord s m h w) : h.pc < 4095 := by
  obtain ⟨-, -, -, hpc, -, -⟩ := hruns
  exact hpc

/-- An instruction within the budget, whose unused fields are 0 and which need not wait for the output staging, has its effect. -/
theorem millStep_go {g : HandlerSt} {pc : Int} (hruns : runsWord s m h w) (hop : bits w 31 26 = op)
    (hpick : pick ⟨m, h, w⟩ = true) (hused : used ⟨m, h, w⟩ = true) (hout : (putsOut op && outFull s m) = false)
    (heff : eff s ⟨m, h, w⟩ = .go t g pc) (hcount : g.count = h.count) (hlow : 0 ≤ pc) (hhigh : pc ≤ 4095) :
    millStep m op pick used eff s = standsAt t m g pc.toNat := by
  obtain ⟨hrun, rfl, hbudget, -, -, -⟩ := hruns
  have hopc : MCtx.op ⟨m, h, codeWord s m h.pc⟩ = op := hop
  have hpc : ¬(pc < 0 ∨ 4095 < pc) := by omega
  have hspent : ¬1024 ≤ h.count := by omega
  simp [millStep, hrun, hopc, hpick, hspent, hused, hout, heff, hpc, standsAt, hcount]

theorem millStep_goOn (hruns : runsWord s m h w) (hop : bits w 31 26 = op) (hpick : pick ⟨m, h, w⟩ = true)
    (hused : used ⟨m, h, w⟩ = true) (hout : (putsOut op && outFull s m) = false)
    (heff : eff s ⟨m, h, w⟩ = MCtx.goOn ⟨m, h, w⟩ t) : millStep m op pick used eff s = standsAt t m h (h.pc + 1) := by
  have hpc := runsWord_pc_lt hruns
  exact millStep_go hruns hop hpick hused hout heff rfl (Int.natCast_nonneg _) (by simp only; omega)

theorem setReg_handler (c : MCtx) (s : State) (i v : Nat) :
    (c.setReg s i v).2.count = c.h.count ∧ (c.setReg s i v).2.stream = c.h.stream ∧ (c.setReg s i v).2.f = c.h.f := by
  unfold MCtx.setReg
  (repeat' split) <;> exact ⟨rfl, rfl, rfl⟩

theorem millStep_result {v : Nat} (hruns : runsWord s m h w) (hop : bits w 31 26 = op) (hpick : pick ⟨m, h, w⟩ = true)
    (hused : used ⟨m, h, w⟩ = true) (hout : (putsOut op && outFull s m) = false)
    (heff : eff s ⟨m, h, w⟩ = MCtx.result ⟨m, h, w⟩ t v) :
    millStep m op pick used eff s = resultIn t ⟨m, h, w⟩ v := by
  have hpc := runsWord_pc_lt hruns
  obtain ⟨hcount, -, -⟩ := setReg_handler ⟨m, h, w⟩ t (MCtx.d ⟨m, h, w⟩) v
  exact millStep_go hruns hop hpick hused hout heff hcount (Int.natCast_nonneg _) (by simp only; omega)

/-! ### What a handler then reads -/

theorem onlyMill_standsAt (hst : onlyMill s t m) (g : HandlerSt) (pc : Nat) : onlyMill s (standsAt t m g pc) m :=
  onlyMill_trans hst (onlyMill_setHandler t m _)

theorem onlyMill_setReg (c : MCtx) (s : State) (i v : Nat) : onlyMill s (c.setReg s i v).1 c.m := by
  unfold MCtx.setReg
  split
  · exact onlyMill_refl s c.m
  · split
    · exact onlyMill_refl s c.m
    · exact onlyMill_setStream s c.m _ _

theorem onlyMill_resultIn {c : MCtx} (hst : onlyMill s t c.m) (v : Nat) : onlyMill s (resultIn t c v) c.m :=
  onlyMill_standsAt (onlyMill_trans hst (onlyMill_setReg c t c.d v)) _ _

theorem ctrOf_resultIn (s : State) (c : MCtx) (v j : Nat) : ctrOf (resultIn s c v) c.m j = ctrOf s c.m j := by
  rw [resultIn, standsAt, ctrOf_setHandler, MCtx.setReg]
  (repeat' split) <;> simp

theorem regNow_standsAt (s : State) (m : Nat) (g : HandlerSt) (pc i : Nat) :
    regNow (standsAt s m g pc) m { g with pc := pc, count := g.count + 1 } i = regNow s m g i := by
  simp [regNow, MCtx.reg, MCtx.st, standsAt]

theorem regNow_congr (hregs : (streamOf t m h.stream).regs = (streamOf s m h.stream).regs) (i : Nat) :
    regNow t m h i = regNow s m h i := by
  simp [regNow, MCtx.reg, MCtx.st, hregs]

/-- A handler that stands elsewhere reads its registers as before, where those of its stream stay. -/
theorem wentOn_standsAt (hregs : (streamOf t m h.stream).regs = (streamOf s m h.stream).regs) (pc : Nat) :
    wentOn s (standsAt t m h pc) m h pc 0 0 := by
  refine ⟨_, run_setHandler t m _, rfl, rfl, rfl, rfl, fun i _ => ?_⟩
  rw [if_neg (by omega), regNow_standsAt, regNow_congr hregs]

theorem getD_set_of_lt {l : List Nat} {a : Nat} (ha : a < l.length) (x b : Nat) :
    (l.set a x).getD b 0 = if b = a then x else l.getD b 0 := by
  by_cases hab : b = a
  · subst hab
    simp [ha]
  · simp [List.getD_eq_getElem?_getD, hab, Ne.symm hab]

/-- A register that was set reads as its new value modulo 2^64, every other as before; g0 reads 0. -/
theorem regNow_setReg (hlen : h.regs.length = 7) (hlen' : (streamOf t m h.stream).regs.length = 8) {d : Nat} (hd : d < 16)
    (v i : Nat) :
    regNow (MCtx.setReg ⟨m, h, w⟩ t d v).1 m (MCtx.setReg ⟨m, h, w⟩ t d v).2 i =
      if i = d ∧ i ≠ 0 then v % 2 ^ 64 else regNow t m h i := by
  simp only [regNow, MCtx.reg, MCtx.st, MCtx.setReg]
  by_cases hzero : d = 0
  · grind
  rw [if_neg hzero]
  by_cases hown : d < 8
  · rw [if_pos hown, getD_set_of_lt (by omega)]
    grind
  · rw [if_neg hown]
    dsimp only
    rw [streamOf_setStream_same, getD_set_of_lt (by omega)]
    grind

theorem bits_d_lt (w : Nat) : bits w 25 22 < 16 := Nat.mod_lt _ (by decide)

/-- A handler that has written gd reads it, and every other register as before. -/
theorem wentOn_resultIn (hruns : runsWord s m h w)
    (hregs : (streamOf t m h.stream).regs = (streamOf s m h.stream).regs) (v : Nat) :
    wentOn s (resultIn t ⟨m, h, w⟩ v) m h (h.pc + 1) (bits w 25 22) v := by
  obtain ⟨-, -, -, -, hlen, hlen'⟩ := hruns
  obtain ⟨hcount, hstream, hf⟩ := setReg_handler ⟨m, h, w⟩ t (bits w 25 22) v
  refine ⟨_, run_setHandler _ m _, rfl, congrArg (· + 1) hcount, hstream, hf, fun i _ => ?_⟩
  exact (regNow_standsAt _ m _ _ i).trans <|
    (regNow_setReg hlen (hregs ▸ hlen') (bits_d_lt w) v i).trans (by rw [regNow_congr hregs])

end Sys2Proof.Machine
end

section
/-! PROOFS. The scalar instructions of the mills that write gd (11 R424, R425; Table MIL-7), and their statement. -/

namespace Sys2Proof.Machine

variable {s : State} {m : MillIx} {h : HandlerSt} {w op : Nat} {c : Instr}

/-- A form-A operation writes gd. -/
theorem exec_aluA {f : Nat → Nat → Nat} (hexec : exec c s = .next (aluA m op f s)) (hruns : runsWord s m.val h w)
    (hop : bits w 31 26 = op) (hx : bits w 13 0 = 0) (hout : putsOut op = false) :
    ∃ t : State, exec c s = .next t ∧ wentOn s t m.val h (h.pc + 1) (bits w 25 22)
      (f (regNow s m.val h (bits w 21 18)) (regNow s m.val h (bits w 17 14))) ∧ onlyMill s t m.val := by
  have hused : usesDab ⟨m.val, h, w⟩ = true := beq_iff_eq.2 hx
  rw [aluA, millStep_result hruns hop rfl hused (by rw [hout]; rfl) rfl] at hexec
  exact ⟨_, hexec, wentOn_resultIn hruns rfl _, onlyMill_resultIn (c := ⟨m.val, h, w⟩) (onlyMill_refl s m.val) _⟩

/-- A form-B operation writes gd. -/
theorem exec_aluB {f : Nat → MCtx → Nat} (hexec : exec c s = .next (aluB m op f s)) (hruns : runsWord s m.val h w)
    (hop : bits w 31 26 = op) (hout : putsOut op = false) :
    ∃ t : State, exec c s = .next t ∧ wentOn s t m.val h (h.pc + 1) (bits w 25 22)
      (f (regNow s m.val h (bits w 21 18)) ⟨m.val, h, w⟩) ∧ onlyMill s t m.val := by
  rw [aluB, millStep_result hruns hop rfl rfl (by rw [hout]; rfl) rfl] at hexec
  exact ⟨_, hexec, wentOn_resultIn hruns rfl _, onlyMill_resultIn (c := ⟨m.val, h, w⟩) (onlyMill_refl s m.val) _⟩

theorem millFld_known {v : Nat} (hruns : runsWord s m.val h w) (hop : bits w 31 26 = 0x0E) (ha : bits w 21 18 = 0)
    (hfield : frameField s ⟨m.val, h, w⟩ = some v) : millFld m s = resultIn s ⟨m.val, h, w⟩ v :=
  millStep_result hruns hop rfl (beq_iff_eq.2 ha) rfl (by simp only [hfield])

/-- The number of the counter C(ga) of the instruction at hand. -/
def ctrIx (s : State) (m : Nat) (h : HandlerSt) (w : Nat) : Nat :=
  (streamOf s m h.stream).fld 16 2 + regNow s m h (bits w 21 18)

theorem millCadd_inside (hruns : runsWord s m.val h w) (hop : bits w 31 26 = 0x0F)
    (hlt : regNow s m.val h (bits w 21 18) < (streamOf s m.val h.stream).fld 18 2) :
    millCadd m s = resultIn (setCtr s m.val (ctrIx s m.val h w) (ctrOf s m.val (ctrIx s m.val h w) + bits w 17 0)) ⟨m.val, h, w⟩
      ((ctrOf s m.val (ctrIx s m.val h w) + bits w 17 0) % 2 ^ 32) := by
  refine millStep_result hruns hop rfl rfl rfl ((if_neg (Nat.not_le.2 hlt)).trans ?_)
  dsimp only
  rw [ctrOf_setCtr_same]
  rfl

theorem millCset_inside (hruns : runsWord s m.val h w) (hop : bits w 31 26 = 0x10) (hx : bits w 13 0 = 0)
    (hlt : regNow s m.val h (bits w 21 18) < (streamOf s m.val h.stream).fld 18 2) :
    millCset m s = resultIn (setCtr s m.val (ctrIx s m.val h w) (regNow s m.val h (bits w 17 14))) ⟨m.val, h, w⟩
      (ctrOf s m.val (ctrIx s m.val h w)) :=
  millStep_result hruns hop rfl (beq_iff_eq.2 hx) rfl (if_neg (Nat.not_le.2 hlt))

/-- A handler that has set a counter and written gd: the counter holds the new value modulo 2^32. -/
theorem result_setCtr (hruns : runsWord s m.val h w) (j x v : Nat) :
    ctrOf (resultIn (setCtr s m.val j x) ⟨m.val, h, w⟩ v) m.val j = x % 2 ^ 32 ∧
    wentOn s (resultIn (setCtr s m.val j x) ⟨m.val, h, w⟩ v) m.val h (h.pc + 1) (bits w 25 22) v ∧
    onlyMill s (resultIn (setCtr s m.val j x) ⟨m.val, h, w⟩ v) m.val :=
  ⟨(ctrOf_resultIn _ ⟨m.val, h, w⟩ v j).trans (ctrOf_setCtr_same s m.val j x),
    wentOn_resultIn hruns (by rw [streamOf_setCtr]) v,
    onlyMill_resultIn (c := ⟨m.val, h, w⟩) (onlyMill_setCtr s m.val j x) v⟩

end Sys2Proof.Machine

open Sys2Proof Sys2Proof.Machine

/-- Settles O46: each form of operation has one lemma (`exec_aluA`, `exec_aluB`), `fld`, `cadd` and `cset` have their own; all write
gd alone (`wentOn_resultIn`). -/
theorem millScalars : Obligations.MillScalars := by
  unfold Obligations.MillScalars
  rintro s m h w a b imm simm hruns rfl rfl rfl rfl
  refine ⟨?formA, ?formB, ?fld, ?cadd, ?cset⟩
  case formA =>
    intro c op v hmem hop hx
    have hrow : ∃ f, exec c s = .next (aluA m op f s) ∧
        v = f (regNow s m.val h (bits w 21 18)) (regNow s m.val h (bits w 17 14)) ∧ putsOut op = false := by
      simp only [List.mem_cons, Prod.mk.injEq, List.not_mem_nil, or_false] at hmem
      obtain ⟨rfl, rfl, rfl⟩ | ⟨rfl, rfl, rfl⟩ | ⟨rfl, rfl, rfl⟩ | ⟨rfl, rfl, rfl⟩ | ⟨rfl, rfl, rfl⟩ | ⟨rfl, rfl, rfl⟩ |
        ⟨rfl, rfl, rfl⟩ | ⟨rfl, rfl, rfl⟩ := hmem <;>
      exact ⟨_, rfl, rfl, rfl⟩
    obtain ⟨f, hexec, rfl, hout⟩ := hrow
    exact exec_aluA hexec hruns hop hx hout
  case formB =>
    intro c op v hmem hop
    have hrow : ∃ f, exec c s = .next (aluB m op f s) ∧
        v = f (regNow s m.val h (bits w 21 18)) ⟨m.val, h, w⟩ ∧ putsOut op = false := by
      simp only [List.mem_cons, Prod.mk.injEq, List.not_mem_nil, or_false] at hmem
      obtain ⟨rfl, rfl, rfl⟩ | ⟨rfl, rfl, rfl⟩ | ⟨rfl, rfl, rfl⟩ | ⟨rfl, rfl, rfl⟩ | ⟨rfl, rfl, rfl⟩ := hmem <;>
      exact ⟨_, rfl, rfl, rfl⟩
    obtain ⟨f, hexec, rfl, hout⟩ := hrow
    exact exec_aluB hexec hruns hop hout
  case fld =>
    intro v hop ha hfield
    have hexec : exec (.fld m) s = .next (millFld m s) := rfl
    rw [millFld_known hruns hop ha hfield] at hexec
    exact ⟨_, hexec, wentOn_resultIn hruns rfl v, onlyMill_resultIn (c := ⟨m.val, h, w⟩) (onlyMill_refl s m.val) v⟩
  case cadd =>
    intro hop hlt
    have hexec : exec (.cadd m) s = .next (millCadd m s) := rfl
    rw [millCadd_inside hruns hop hlt] at hexec
    exact ⟨_, hexec, result_setCtr hruns _ _ _⟩
  case cset =>
    intro hop hx hlt
    have hexec : exec (.cset m) s = .next (millCset m s) := rfl
    rw [millCset_inside hruns hop hx hlt] at hexec
    exact ⟨_, hexec, result_setCtr hruns _ _ _⟩
end

section
/-! PROOFS. `nop`, the branches, `jmp` and `end` of the mills, and the trap of a handler whose budget is spent (11 R423 to R425,
R444), and their statement. -/

namespace Sys2Proof.Machine

variable {s t : State} {m : MillIx} {h : HandlerSt} {w op : Nat} {c : Instr}

/-! ### Instructions that only move on -/

/-- A branch goes to its target where its condition holds, else to the next address (R424). -/
def branchTarget (h : HandlerSt) (w : Nat) (taken : Bool) : Nat :=
  if taken then ((h.pc : Int) + 1 + sext 18 (bits w 17 0)).toNat else h.pc + 1

theorem branch_inside {p : Nat → Nat → Bool} (hruns : runsWord s m.val h w) (hop : bits w 31 26 = op)
    (hout : putsOut op = false) (hlow : 0 ≤ (h.pc : Int) + 1 + sext 18 (bits w 17 0))
    (hhigh : (h.pc : Int) + 1 + sext 18 (bits w 17 0) ≤ 4095) :
    branch m op p s =
      standsAt s m.val h (branchTarget h w (p (regNow s m.val h (bits w 25 22)) (regNow s m.val h (bits w 21 18)))) := by
  have hpc := runsWord_pc_lt hruns
  have htarget (b : Bool) : (h.pc : Int) + 1 + (if b then sext 18 (bits w 17 0) else 0) = branchTarget h w b := by
    cases b
    · simp [branchTarget]
    · simpa [branchTarget] using hlow
  have hbound (b : Bool) : branchTarget h w b ≤ 4095 := by
    unfold branchTarget
    split <;> omega
  refine millStep_go (pc := branchTarget h w _) hruns hop rfl rfl (by rw [hout]; rfl) ?_ rfl (Int.natCast_nonneg _)
    (Int.ofNat_le.2 (hbound _))
  exact congrArg _ (htarget _)

theorem exec_branch {p : Nat → Nat → Bool} (hexec : exec c s = .next (branch m op p s)) (hruns : runsWord s m.val h w)
    (hop : bits w 31 26 = op) (hout : putsOut op = false) (hlow : 0 ≤ (h.pc : Int) + 1 + sext 18 (bits w 17 0))
    (hhigh : (h.pc : Int) + 1 + sext 18 (bits w 17 0) ≤ 4095) :
    ∃ t : State, exec c s = .next t ∧ wentOn s t m.val h
      (branchTarget h w (p (regNow s m.val h (bits w 25 22)) (regNow s m.val h (bits w 21 18)))) 0 0 ∧
      onlyMill s t m.val := by
  rw [branch_inside hruns hop hout hlow hhigh] at hexec
  exact ⟨_, hexec, wentOn_standsAt rfl _, onlyMill_standsAt (onlyMill_refl s m.val) h _⟩

theorem millNop_goOn (hruns : runsWord s m.val h w) (hop : bits w 31 26 = 0x00) (hw : w % 2 ^ 26 = 0) :
    millNop m s = standsAt s m.val h (h.pc + 1) :=
  millStep_goOn hruns hop rfl (beq_iff_eq.2 hw) rfl rfl

theorem millJmp_inside (hruns : runsWord s m.val h w) (hop : bits w 31 26 = 0x15) (hd : bits w 25 22 = 0)
    (ha : bits w 21 18 = 0) (hlow : 0 ≤ (h.pc : Int) + 1 + sext 18 (bits w 17 0))
    (hhigh : (h.pc : Int) + 1 + sext 18 (bits w 17 0) ≤ 4095) :
    millJmp m s = standsAt s m.val h ((h.pc : Int) + 1 + sext 18 (bits w 17 0)).toNat :=
  millStep_go hruns hop rfl ((Bool.and_eq_true _ _).mpr ⟨beq_iff_eq.2 hd, beq_iff_eq.2 ha⟩) rfl rfl rfl hlow hhigh

/-! ### The end of a handler -/

/-- The state in which a mill runs no handler. -/
def handlerEnded (s : State) (m : Nat) : State := setMill s m { millOf s m with run := none }

theorem millEnd_ends (hruns : runsWord s m.val h w) (hop : bits w 31 26 = 0x16) (hw : w % 2 ^ 26 = 0) :
    millEnd m s = handlerEnded s m.val := by
  obtain ⟨hrun, rfl, hbudget, -, -, -⟩ := hruns
  have hopc : MCtx.op ⟨m.val, h, codeWord s m.val h.pc⟩ = 0x16 := hop
  have hused : usesNone ⟨m.val, h, codeWord s m.val h.pc⟩ = true := beq_iff_eq.2 hw
  have hspent : ¬1024 ≤ h.count := by omega
  simp [millEnd, millStep, hrun, hopc, anyWord, hused, hspent, putsOut, memNat, handlerEnded]

/-! ### The budget (R423, R444) -/

theorem millStep_budget {k : Nat} {pick used : MCtx → Bool} {eff : State → MCtx → MRes} (hrun : (millOf s k).run = some h)
    (hop : bits (codeWord s k h.pc) 31 26 = op) (hpick : pick ⟨k, h, codeWord s k h.pc⟩ = true) (hspent : 1024 ≤ h.count) :
    millStep k op pick used eff s = trapOne s k h.stream 9 h.pc := by
  have hopc : MCtx.op ⟨k, h, codeWord s k h.pc⟩ = op := hop
  simp [millStep, hrun, hopc, hpick, hspent]

theorem faultBell_mills (s : State) (cause unit job : Nat) : (faultBell s cause unit job).mills = s.mills := by
  refine List.foldlRecOn (motive := fun t : State => t.mills = s.mills) _ _ (sendBell_mills _ _ _ _ _ _ _ _) fun t ht fn _ => ?_
  split
  · rw [sendBell_mills, ht]
  · exact ht

theorem trapOne_mills (s : State) (k n code pc : Nat) : (trapOne s k n code pc).mills = (streamStopped s k n code pc).mills := by
  rw [trapOne, faultBell_mills, trapStream_eq]
  split
  · exact raise_mills _ _ _
  · rw [wr64_mills, raise_mills]

theorem millOf_congr {k : Nat} (hmills : t.mills = s.mills) : millOf t k = millOf s k := by rw [millOf, hmills, millOf]
theorem streamOf_congr {k n : Nat} (hmills : t.mills = s.mills) : streamOf t k n = streamOf s k n := by
  rw [streamOf, millOf_congr hmills, streamOf]

theorem streamOf_handlerEnded (s : State) (k n : Nat) : streamOf (handlerEnded s k) k n = streamOf s k n := by
  rw [streamOf, handlerEnded, millOf_setMill_same, streamOf]

/-- The trap of a running handler stops it, and its stream shows the code and the address. -/
theorem streamStopped_running {k code pc : Nat} (hrun : (millOf s k).run = some h) :
    (millOf (streamStopped s k h.stream code pc) k).run = none ∧
    streamOf (streamStopped s k h.stream code pc) k h.stream =
      { streamOf s k h.stream with state := 2, trap := code, tpc := pc } := by
  have hset : streamStopped s k h.stream code pc =
      handlerEnded (setStream s k h.stream { streamOf s k h.stream with state := 2, trap := code, tpc := pc }) k := by
    simp [streamStopped, setStream, hrun, handlerEnded]
  rw [hset, streamOf_handlerEnded, streamOf_setStream_same, handlerEnded, millOf_setMill_same]
  exact ⟨rfl, rfl⟩

theorem flag_trapOne (s : State) (k n code pc : Nat) : flag (trapOne s k n code pc) R.milStat 1 = true := by
  have hbell : rd (trapOne s k n code pc) R.milStat = rd (trapStream s k n code pc) R.milStat :=
    sameRegs_faultBell _ _ _ _ [] _ List.not_mem_nil
  rw [flag, hbell, ← flag, trapStream_eq]
  split
  · exact flag_raise_same _ _ (by decide)
  · rw [flag, sameRegs_wr64 _ _ _ _ (by decide), ← flag]
    exact flag_raise_same _ _ (by decide)

theorem sameRegs_trapOne (s : State) (k n code pc : Nat) :
    sameRegs s (trapOne s k n code pc) [R.milStat, R.milTrap, R.milTrap + 4] :=
  sameRegs_trans (sameRegs_trapStream s k n code pc) (sameRegs_faultBell _ _ _ _ _)

end Sys2Proof.Machine

open Sys2Proof Sys2Proof.Machine

/-- Settles O47: `nop`, the branches (`exec_branch`) and `jmp` move on, `end` ends the handler, and a spent budget traps the stream
(`streamStopped_running`). -/
theorem millFlow : Obligations.MillFlow := by
  unfold Obligations.MillFlow
  refine ⟨?within, ?budget⟩
  case within =>
    rintro s m h w d a simm hruns rfl rfl rfl
    refine ⟨?nop, ?endH, ?branches, ?jmp⟩
    case nop =>
      intro hw hop
      have hexec : exec (.millNop m) s = .next (millNop m s) := rfl
      rw [millNop_goOn hruns hop hw] at hexec
      exact ⟨_, hexec, wentOn_standsAt rfl _, onlyMill_standsAt (onlyMill_refl s m.val) h _⟩
    case endH =>
      intro hw hop
      have hexec : exec (.endHandler m) s = .next (millEnd m s) := rfl
      rw [millEnd_ends hruns hop hw] at hexec
      have hended : millOf (handlerEnded s m.val) m.val = { millOf s m.val with run := none } := millOf_setMill_same _ _ _
      exact ⟨_, hexec, congrArg MillSt.run hended, hended, onlyMill_setMill s m.val _⟩
    case branches =>
      intro c op cond hmem hop hlow hhigh
      have hrow : ∃ p, exec c s = .next (branch m op p s) ∧
          cond = p (regNow s m.val h (bits w 25 22)) (regNow s m.val h (bits w 21 18)) ∧ putsOut op = false := by
        simp only [List.mem_cons, Prod.mk.injEq, List.not_mem_nil, or_false] at hmem
        obtain ⟨rfl, rfl, rfl⟩ | ⟨rfl, rfl, rfl⟩ | ⟨rfl, rfl, rfl⟩ | ⟨rfl, rfl, rfl⟩ := hmem <;>
        exact ⟨_, rfl, rfl, rfl⟩
      obtain ⟨p, hexec, rfl, hout⟩ := hrow
      exact exec_branch hexec hruns hop hout hlow hhigh
    case jmp =>
      intro hop hd ha hlow hhigh
      have hexec : exec (.jmp m) s = .next (millJmp m s) := rfl
      rw [millJmp_inside hruns hop hd ha hlow hhigh] at hexec
      exact ⟨_, hexec, wentOn_standsAt rfl _, onlyMill_standsAt (onlyMill_refl s m.val) h _⟩
  case budget =>
    intro s m h hrun hspent hop
    have hexec : exec (.add m) s = .next (aluA m 0x01 (· + ·) s) := rfl
    rw [aluA, millStep_budget hrun hop rfl hspent] at hexec
    obtain ⟨hstopped, hstream⟩ := streamStopped_running (code := 9) (pc := h.pc) hrun
    have hmills := trapOne_mills s m.val h.stream 9 h.pc
    rw [← millOf_congr hmills] at hstopped
    rw [← streamOf_congr hmills] at hstream
    exact ⟨_, hexec, hstopped, congrArg StreamSt.state hstream, congrArg StreamSt.trap hstream, congrArg StreamSt.tpc hstream,
      flag_trapOne _ _ _ _ _, sameRegs_trapOne _ _ _ _ _⟩
end

section
/-! PROOFS. Handlers that start, accumulators, and an image that is emitted (11 R420, R421, R426 to R431), and their statement. -/

namespace Sys2Proof.Machine

variable {s : State} {m : MillIx} {h : HandlerSt} {w : Nat} {q : QEntry} {rest : List QEntry}

/-! ### The frame at the head of the input (R420, R421) -/

/-- The state in which a mill's input is what followed its head. -/
def headTaken (s : State) (m : Nat) (rest : List QEntry) : State := setMill s m { millOf s m with inq := rest }

theorem streamOf_headTaken (s : State) (k n : Nat) (rest : List QEntry) :
    streamOf (headTaken s k rest) k n = streamOf s k n := by
  rw [streamOf, headTaken, millOf_setMill_same, streamOf]

theorem millCheck_headTaken (s : State) (k : Nat) (rest : List QEntry) (f : Frame) :
    millCheck (headTaken s k rest) k f = millCheck s k f := by
  simp only [millCheck, streamOf_headTaken]
  rfl

/-- The handler of a frame as it starts: at ENTRY of its stream, g1 to g7 at 0. -/
def handlerOf (x : StreamSt) (f : Frame) : HandlerSt := ⟨f.stream, f, x.fld 0 2 % 4096, List.replicate 7 0, 0⟩

/-- A stream that has run one handler more. -/
def frameCounted (x : StreamSt) : StreamSt := { x with frames := satAdd 32 x.frames 1 }

/-- With no handler running, what follows is about the frame at the head, the input being without it. -/
theorem millHandler_idle (hrun : (millOf s m.val).run = none) (hinq : (millOf s m.val).inq = q :: rest) :
    millHandler m .none s = (millCheck (headTaken s m.val rest) m.val q.f).elim
      (setHandler (setStream (headTaken s m.val rest) m.val q.f.stream
        (frameCounted (streamOf (headTaken s m.val rest) m.val q.f.stream))) m.val
        (handlerOf (streamOf (headTaken s m.val rest) m.val q.f.stream) q.f))
      (refuseMill (headTaken s m.val rest) m.val q.f) := by
  rcases hmill : millOf s m.val with ⟨code, streams, blocks, accs, ctrs, slots, counts, disp, inq, run⟩
  rw [hmill] at hrun hinq
  obtain rfl : run = none := hrun
  obtain rfl : inq = q :: rest := hinq
  simp only [millHandler, headTaken, hmill]
  cases millCheck _ m.val q.f <;> rfl

theorem millHandler_starts (hrun : (millOf s m.val).run = none) (hinq : (millOf s m.val).inq = q :: rest)
    (hok : millCheck s m.val q.f = none) :
    millHandler m .none s =
      setHandler (setStream (headTaken s m.val rest) m.val q.f.stream (frameCounted (streamOf s m.val q.f.stream))) m.val
        (handlerOf (streamOf s m.val q.f.stream) q.f) := by
  rw [millHandler_idle hrun hinq, millCheck_headTaken, hok, streamOf_headTaken]
  rfl

theorem millHandler_refuses {why : Nat} (hrun : (millOf s m.val).run = none) (hinq : (millOf s m.val).inq = q :: rest)
    (hwhy : millCheck s m.val q.f = some why) :
    millHandler m .none s = refuseMill (headTaken s m.val rest) m.val q.f why := by
  rw [millHandler_idle hrun hinq, millCheck_headTaken, hwhy]
  rfl

theorem inq_setStream (s : State) (k n : Nat) (x : StreamSt) : (millOf (setStream s k n x) k).inq = (millOf s k).inq := by
  rw [setStream, millOf_setMill_same]
theorem run_setStream (s : State) (k n : Nat) (x : StreamSt) : (millOf (setStream s k n x) k).run = (millOf s k).run := by
  rw [setStream, millOf_setMill_same]
theorem inq_setHandler (s : State) (k : Nat) (h : HandlerSt) : (millOf (setHandler s k h) k).inq = (millOf s k).inq := by
  rw [setHandler, millOf_setMill_same]

/-- A handler that starts reads 0 in g0 to g7. -/
theorem regNow_handlerOf (t : State) (k : Nat) (x : StreamSt) (f : Frame) {i : Nat} (hi : i < 8) :
    regNow t k (handlerOf x f) i = 0 := by
  unfold regNow MCtx.reg
  split
  · rfl
  · exact List.getD_replicate 0 (by omega)

/-- A refused frame is counted in a register, and in its stream at most. -/
theorem refuseMill_keeps (s : State) (k : Nat) (f : Frame) (why : Nat) :
    refuseMill s k f why = { bump s (R.milCnt k why) 1 with mills := (refuseMill s k f why).mills } ∧
    (millOf (refuseMill s k f why) k).run = (millOf s k).run ∧ (millOf (refuseMill s k f why) k).inq = (millOf s k).inq := by
  unfold refuseMill
  dsimp only
  split
  · exact ⟨rfl, run_setStream _ _ _ _, inq_setStream _ _ _ _⟩
  · exact ⟨rfl, rfl, rfl⟩

/-! ### Records that enter an accumulator (R429 to R431) -/

theorem recordsOf_nil (n k : Nat) : recordsOf n [] k = [] := by cases k <;> rfl

/-- A run of the length of one record is that record. -/
theorem recordsOf_whole {n : Nat} {bs : List Byte} (hlen : bs.length = n) (hn : n ≠ 0) : recordsOf n bs bs.length = [bs] := by
  obtain ⟨k, hk⟩ := Nat.exists_eq_succ_of_ne_zero (hlen ▸ hn)
  have hne : bs.isEmpty = false := by
    cases bs
    · cases hk
    · rfl
  rw [hk, recordsOf, hne, List.take_of_length_le hlen.le, List.drop_eq_nil_of_le hlen.le, recordsOf_nil]
  rfl

theorem streamOf_streamFlags (s : State) (k n : Nat) (fl : FpFlags) :
    (streamOf (streamFlags s k n fl) k n).regs = (streamOf s k n).regs := by
  rw [streamFlags, streamOf_setStream_same]

theorem accOf_streamFlags (s : State) (k n j : Nat) (fl : FpFlags) : accOf (streamFlags s k n fl) k j = accOf s k j :=
  accOf_setStream _ _ _ _ _

theorem onlyMill_streamFlags (s : State) (k n : Nat) (fl : FpFlags) : onlyMill s (streamFlags s k n fl) k :=
  onlyMill_setStream s k n _

/-- The number of the accumulator A(ga) of the instruction at hand. -/
def accIx (s : State) (m : Nat) (h : HandlerSt) (w : Nat) : Nat :=
  (streamOf s m h.stream).fld 8 2 + regNow s m h (bits w 21 18)

/-- The state in which an accumulator holds an image and a stream has its flags. -/
def accEntered (s : State) (m n j : Nat) (v : Image × FpFlags) : State := streamFlags (setAcc s m j v.1) m n v.2

theorem millAcc_one {rf : Nat} (hruns : runsWord s m.val h w) (hop : bits w 31 26 = 0x20) (hb : bits w 17 14 = 0)
    (hd : bits w 25 22 = 0) (hx : bits w 13 0 = rf) (hrf : rf < 8) (hsize : rfSize rf ≠ 0)
    (hlen : h.f.payload.length = rfSize rf)
    (hlt : regNow s m.val h (bits w 21 18) < (streamOf s m.val h.stream).fld 10 2) :
    millAcc m s = standsAt (accEntered s m.val h.stream (accIx s m.val h w)
      (enterRecord rf (accOf s m.val (accIx s m.val h w)) h.f.payload)) m.val h (h.pc + 1) := by
  have hxc : MCtx.x ⟨m.val, h, w⟩ = rf := hx
  have hmod : MCtx.x ⟨m.val, h, w⟩ % 8 = rf := by rw [hxc, Nat.mod_eq_of_lt hrf]
  have hwhole : h.f.payload.length % rfSize rf = 0 := by rw [hlen, Nat.mod_self]
  refine millStep_goOn hruns hop rfl ?used rfl ?effect
  case used => simp [hxc, Nat.mod_eq_of_lt hrf, hrf, hsize, MCtx.d, MCtx.b, hb, hd]
  case effect =>
    simp only [hmod, hwhole, recordsOf_whole hlen hsize, enterAll]
    have hin : ¬(MCtx.st ⟨m.val, h, w⟩ s).fld 10 2 ≤ MCtx.reg ⟨m.val, h, w⟩ s (MCtx.a ⟨m.val, h, w⟩) := Nat.not_le.2 hlt
    simp only [hin, if_false]
    rfl

/-! ### Accumulators that are emptied -/

/-- The state in which accumulators of a mill are empty. -/
def accsCleared (s : State) (m base : Nat) (l : List Nat) : State :=
  l.foldl (fun t j => setAcc t m (base + j) Image.empty) s

theorem accOf_accsCleared (s : State) (k base : Nat) (l : List Nat) (j : Nat) :
    accOf (accsCleared s k base l) k j = if ∃ i ∈ l, j = base + i then Image.empty else accOf s k j := by
  induction l generalizing s with
  | nil => simp [accsCleared]
  | cons i l ih =>
    have hcons : accsCleared s k base (i :: l) = accsCleared (setAcc s k (base + i) Image.empty) k base l := rfl
    rw [hcons, ih]
    by_cases hj : j = base + i
    · simp [hj]
    · simp [hj, accOf_setAcc_ne s k Image.empty hj]

theorem streamOf_accsCleared (s : State) (k base : Nat) (l : List Nat) (n : Nat) :
    streamOf (accsCleared s k base l) k n = streamOf s k n :=
  List.foldlRecOn (motive := fun t : State => streamOf t k n = streamOf s k n) l _ rfl fun t ht j _ =>
    (streamOf_setAcc t k (base + j) n _).trans ht

theorem onlyMill_accsCleared (s : State) (k base : Nat) (l : List Nat) : onlyMill s (accsCleared s k base l) k :=
  List.foldlRecOn (motive := fun t => onlyMill s t k) l _ (onlyMill_refl s k) fun t ht j _ =>
    onlyMill_trans ht (onlyMill_setAcc t k (base + j) _)

theorem mem_upto {a n j : Nat} : j ∈ upto a n ↔ a ≤ j ∧ j < a + n := by
  simp only [upto, List.mem_map, List.mem_range]
  exact ⟨by rintro ⟨i, hi, rfl⟩; omega, fun hj => ⟨j - a, by omega, by omega⟩⟩

/-- The streams' ABASE stays as their accumulators are emptied. -/
theorem foldl_clear_eq (s : State) (k n : Nat) (l : List Nat) :
    l.foldl (fun t j => setAcc t k ((streamOf t k n).fld 8 2 + j) Image.empty) s =
      accsCleared s k ((streamOf s k n).fld 8 2) l := by
  induction l generalizing s with
  | nil => rfl
  | cons j l ih => rw [List.foldl_cons, ih, streamOf_setAcc, accsCleared, accsCleared, List.foldl_cons]

theorem millAclr_inside {a b : Nat} (hruns : runsWord s m.val h w) (hop : bits w 31 26 = 0x21) (hd : bits w 25 22 = 0)
    (hx : bits w 13 0 = 0) (ha : a = regNow s m.val h (bits w 21 18)) (hb : b = regNow s m.val h (bits w 17 14))
    (hle : a + b ≤ (streamOf s m.val h.stream).fld 10 2) :
    millAclr m s =
      standsAt (accsCleared s m.val ((streamOf s m.val h.stream).fld 8 2) (upto a b)) m.val h (h.pc + 1) := by
  refine millStep_goOn hruns hop rfl ((Bool.and_eq_true _ _).mpr ⟨beq_iff_eq.2 hd, beq_iff_eq.2 hx⟩) rfl ?_
  have hra : MCtx.reg ⟨m.val, h, w⟩ s (MCtx.a ⟨m.val, h, w⟩) = a := ha.symm
  have hrb : MCtx.reg ⟨m.val, h, w⟩ s (MCtx.b ⟨m.val, h, w⟩) = b := hb.symm
  have hst : MCtx.st ⟨m.val, h, w⟩ s = streamOf s m.val h.stream := rfl
  simp only [hra, hrb, hst]
  rw [Nat.min_eq_left (by omega), if_neg (by omega)]
  exact congrArg _ (foldl_clear_eq s m.val h.stream _)

/-! ### Output of one frame (R412, R426, R427) -/

/-- The frame in which a mill's output leaves for a pair. -/
def pairFrame (s : State) (c : MCtx) (p : Pair) (off : Nat) (bs : List Byte) : Frame :=
  { Frame.blank with
    typ := if p.mill then 5 else 0, cls := 1, mc := p.mc, gal := p.gal, dst := p.dst,
    src := getF s (R.milUnit c.m) 15 0, job := (c.st s).job, len := bs.length / 16, offset := off,
    tally := p.tally, tsw := if p.mill then p.rank + 4096 * p.stream else 1, payload := bs }

/-- The origin of a mill's output: the stream, its function and the instruction. -/
def pairOrigin (s : State) (c : MCtx) : Origin := .mill c.m c.h.stream (c.st s).fn c.h.pc

/-- A run that meets no boundary is one piece. -/
theorem cutRun_whole {off : Nat} {bs : List Byte} (hne : bs ≠ []) (hfit : off % 4096 + bs.length ≤ 4096) (n : Nat) :
    cutRun off bs (n + 2) = [(off, bs)] := by
  have hlen : bs.length ≤ 4096 - off % 4096 := by omega
  simp [cutRun, cutEvery, hne, List.take_of_length_le hlen, List.drop_eq_nil_of_le hlen]

/-- Output that meets no boundary leaves in one frame. -/
theorem millOut_whole {c : MCtx} {p : Pair} {off : Nat} {bs : List Byte} (hoff : off < 2 ^ 48) (hne : bs ≠ [])
    (hfit : off % 4096 + bs.length ≤ 4096) :
    millOut s c p off bs = sendFrame s (pairOrigin s c) (pairFrame s c p off bs) := by
  have hmod := Nat.mod_eq_of_lt hoff
  simp only [millOut, hmod, cutRun_whole hne hfit, List.foldl_cons, List.foldl_nil, pairFrame, pairOrigin]

/-- An instruction whose output meets no boundary, its own mill apart, adds one frame to those of local origin. -/
theorem exec_sendsOne {c : Instr} {u : State} {p : Pair} {off : Nat} {bs : List Byte}
    (hexec : exec c s = .next (standsAt (millOut u ⟨m.val, h, w⟩ p off bs) m.val h (h.pc + 1)))
    (honly : onlyMill s u m.val) (hregs : (streamOf u m.val h.stream).regs = (streamOf s m.val h.stream).regs)
    (hoff : off < 2 ^ 48) (hne : bs ≠ []) (hfit : off % 4096 + bs.length ≤ 4096) :
    ∃ (t : State) (g : Pkt), exec c s = .next t ∧ t.outbox = s.outbox ++ [g] ∧ g.f = pairFrame u ⟨m.val, h, w⟩ p off bs ∧
      streamOf t m.val h.stream = streamOf u m.val h.stream ∧ wentOn s t m.val h (h.pc + 1) 0 0 ∧
      t.regs = s.regs ∧ t.comp = s.comp ∧ t.deep = s.deep := by
  obtain ⟨houtbox, hregs', hcomp, hdeep⟩ := onlyMill_keeps honly
  rw [millOut_whole hoff hne hfit] at hexec
  exact ⟨_, ⟨u.nextId, pairFrame u ⟨m.val, h, w⟩ p off bs, pairOrigin u ⟨m.val, h, w⟩⟩, hexec, congrArg (· ++ [_]) houtbox,
    rfl, streamOf_setHandler _ _ _ _, wentOn_standsAt hregs _, hregs', hcomp, hdeep⟩

/-- One image is emitted as its 48 bytes, and stays (R430). -/
theorem emitAll_image {c : MCtx} {j : Nat} (hlt : j < (c.st s).fld 10 2) :
    emitAll s c none false j 1 = (streamFlags s c.m c.h.stream FpFlags.none, [0],
      Image.bytes (accOf s c.m ((c.st s).fld 8 2 + j)), true) := by
  simp [emitAll, Nat.not_le.2 hlt]

theorem millEmit_image {p : Pair} (hruns : runsWord s m.val h w) (hout : outFull s m.val = false)
    (hop : bits w 31 26 = 0x22) (hx : bits w 13 0 = 0xFF) (hb : regNow s m.val h (bits w 17 14) = 1)
    (hlt : regNow s m.val h (bits w 21 18) < (streamOf s m.val h.stream).fld 10 2)
    (hpair : pairOf s ⟨m.val, h, w⟩ = some p) :
    millEmit m s = standsAt (millOut (streamFlags s m.val h.stream FpFlags.none) ⟨m.val, h, w⟩ p p.offset
      (Image.bytes (accOf s m.val (accIx s m.val h w)))) m.val h (h.pc + 1) := by
  have hxc : MCtx.x ⟨m.val, h, w⟩ = 0xFF := hx
  have hrb : MCtx.reg ⟨m.val, h, w⟩ s (MCtx.b ⟨m.val, h, w⟩) = 1 := hb
  have hemit : emitAll s ⟨m.val, h, w⟩ none false (MCtx.reg ⟨m.val, h, w⟩ s (MCtx.a ⟨m.val, h, w⟩)) (min 1 2049) = _ :=
    emitAll_image hlt
  have hfmt : fmtOf (0xFF % 256) = none := rfl
  have hclr : bit 0xFF 8 = false := by decide
  refine millStep_goOn hruns hop rfl (by simp [hxc]) (by rw [hout, Bool.and_false]) ?_
  simp only [hxc, hrb, hpair, hfmt, hclr, Option.map_none, hemit]
  rfl

end Sys2Proof.Machine

open Sys2Proof Sys2Proof.Machine

/-- Settles O48: a frame that passes the checks starts its handler (`millHandler_starts`) and one that does not is counted
(`millHandler_refuses`); `acc`, `aclr` and `emit` of an image have a lemma each. -/
theorem millSums : Obligations.MillSums := by
  unfold Obligations.MillSums
  refine ⟨?head, ?sums⟩
  case head =>
    intro s m q rest hrun hinq
    refine ⟨fun hok => ?starts, fun why hwhy _ => ?refused⟩
    case starts =>
      have hexec : exec (.millHandler m .none) s = .next (millHandler m .none s) := rfl
      rw [millHandler_starts hrun hinq hok] at hexec
      refine ⟨_, _, hexec, run_setHandler _ _ _, rfl, rfl, rfl, rfl, fun i hi => regNow_handlerOf _ _ _ _ hi, ?_, ?_, ?_⟩
      · rw [inq_setHandler, inq_setStream, headTaken, millOf_setMill_same]
      · rw [streamOf_setHandler, streamOf_setStream_same, frameCounted]
      · exact onlyMill_trans (onlyMill_trans (onlyMill_setMill _ _ _) (onlyMill_setStream _ _ _ _)) (onlyMill_setHandler _ _ _)
    case refused =>
      have hexec : exec (.millHandler m .none) s = .next (millHandler m .none s) := rfl
      rw [millHandler_refuses hrun hinq hwhy] at hexec
      obtain ⟨hframe, hrun', hinq'⟩ := refuseMill_keeps (headTaken s m.val rest) m.val q.f why
      have hregs : (refuseMill (headTaken s m.val rest) m.val q.f why).regs = (bump s (R.milCnt m.val why) 1).regs := by
        rw [hframe]
        rfl
      rw [headTaken, millOf_setMill_same] at hrun' hinq'
      have hcount := rd_bump_same s (R.milCnt m.val why) 1
      refine ⟨_, hexec, hrun'.trans hrun, hinq', ?_, ?_, ?_, ?_, ?_⟩
      · rw [← hcount, rd, rd, hregs]
      · exact sameRegs_trans (sameRegs_bump s 1 (List.mem_singleton_self _)) (sameRegs_of_regs hregs _)
      all_goals rw [hframe]; rfl
  case sums =>
    rintro s m h w a b base hruns rfl rfl rfl
    refine ⟨?acc, ?aclr, ?emit⟩
    case acc =>
      intro hop hb hd hx hsize hlen hlt
      have hexec : exec (.acc m) s = .next (millAcc m s) := rfl
      rw [millAcc_one hruns hop hb hd rfl hx hsize hlen hlt] at hexec
      refine ⟨_, hexec, ?_, fun j hj => ?_, wentOn_standsAt ?_ _, onlyMill_standsAt ?_ h _⟩
      · rw [standsAt, accOf_setHandler, accEntered, accOf_streamFlags]
        exact accOf_setAcc_same _ _ _ _
      · rw [standsAt, accOf_setHandler, accEntered, accOf_streamFlags]
        exact accOf_setAcc_ne _ _ _ hj
      · rw [accEntered, streamOf_streamFlags, streamOf_setAcc]
      · exact onlyMill_trans (onlyMill_setAcc _ _ _ _) (onlyMill_streamFlags _ _ _ _)
    case aclr =>
      intro hop hd hx hle
      have hexec : exec (.aclr m) s = .next (millAclr m s) := rfl
      rw [millAclr_inside hruns hop hd hx rfl rfl hle] at hexec
      refine ⟨_, hexec, fun j hlow hhigh => ?_, fun j hj => ?_, wentOn_standsAt ?_ _, onlyMill_standsAt ?_ h _⟩
      · rw [standsAt, accOf_setHandler, accOf_accsCleared]
        exact if_pos ⟨j - (streamOf s m.val h.stream).fld 8 2, mem_upto.2 (by omega), by omega⟩
      · rw [standsAt, accOf_setHandler, accOf_accsCleared]
        refine if_neg ?_
        rintro ⟨i, hi, rfl⟩
        have := mem_upto.1 hi
        omega
      · rw [streamOf_accsCleared]
      · exact onlyMill_accsCleared _ _ _ _
    case emit =>
      intro p hout hop hx hb hlt hpair hmill hfit hoff
      have hexec : exec (.emit m) s = .next (millEmit m s) := rfl
      rw [millEmit_image hruns hout hop hx hb hlt hpair] at hexec
      obtain ⟨t, g, hnext, hsent, hg, -, hwent, hkept⟩ := exec_sendsOne hexec (onlyMill_streamFlags _ _ _ _)
        (streamOf_streamFlags _ _ _ _) hoff (by simp [← List.length_pos_iff]) (by simp; omega)
      have htyp : (if p.mill then 5 else 0) = 0 := by rw [hmill]; rfl
      have htsw : (if p.mill then p.rank + 4096 * p.stream else 1) = 1 := by rw [hmill]; rfl
      refine ⟨t, g, hnext, hsent, ?_, ?_, ?_, ?_, ?_, ?_, hwent, hkept⟩ <;> rw [hg]
      exacts [htyp, rfl, rfl, rfl, htsw, rfl]
end

section
/-! PROOFS. The sort section, gathered payloads, dispatch records and the removal of a stream (11 R419, R434 to R442), and their
statement. -/

namespace Sys2Proof.Machine

variable {s : State} {m : MillIx} {h : HandlerSt} {w : Nat} {x : StreamSt} {r : SortRec} {p : Pair}

/-! ### The sort section -/

/-- The state in which a stream's sort section holds a list. -/
def sortSet (s : State) (m n : Nat) (l : List SortRec) : State := setStream s m n { streamOf s m n with sort := l }

theorem streamOf_sortSet (s : State) (k n : Nat) (l : List SortRec) :
    streamOf (sortSet s k n l) k n = { streamOf s k n with sort := l } := streamOf_setStream_same _ _ _ _

theorem onlyMill_sortSet (s : State) (k n : Nat) (l : List SortRec) : onlyMill s (sortSet s k n l) k := onlyMill_setStream _ _ _ _

/-- A handler that goes on once its stream's sort section has changed. -/
theorem goesOn_sortSet (s : State) (k : Nat) (h : HandlerSt) (l : List SortRec) :
    (streamOf (standsAt (sortSet s k h.stream l) k h (h.pc + 1)) k h.stream).sort = l ∧
    wentOn s (standsAt (sortSet s k h.stream l) k h (h.pc + 1)) k h (h.pc + 1) 0 0 ∧
    onlyMill s (standsAt (sortSet s k h.stream l) k h (h.pc + 1)) k := by
  refine ⟨?_, wentOn_standsAt ?_ _, onlyMill_standsAt (onlyMill_sortSet _ _ _ _) _ _⟩
  · rw [standsAt, streamOf_setHandler, streamOf_sortSet]
  · rw [streamOf_sortSet]

/-- A record that finds room and no equal enters in its place (R434, R435). -/
theorem enterSort_room {c : MCtx} (hroom : (c.st s).sort.length < 16 * (c.st s).fld 14 2)
    (hdiff : ∀ y ∈ (c.st s).sort, recEqual (c.st s) y r = false) :
    enterSort s c 0 r = (sortSet s c.m c.h.stream (insertRec (c.st s) r (c.st s).sort), none) := by
  have hfull : decide (16 * (c.st s).fld 14 2 ≤ (c.st s).sort.length) = false := decide_eq_false (Nat.not_le.2 hroom)
  have htwin : ((c.st s).sort.any fun y => recEqual (c.st s) y r && y.tag != r.tag) = false :=
    List.any_eq_false.2 fun y hy => by simp [hdiff y hy]
  simp only [enterSort, hfull, htwin]
  rfl

theorem any_disp_eq_false {l : List SortRec} (hl : ∀ y ∈ l, y.disp = false) : l.any (·.disp) = false :=
  List.any_eq_false.2 fun y hy => by simp [hl y hy]

theorem millSort_room (hruns : runsWord s m.val h w) (hx : x = streamOf s m.val h.stream) (hop : bits w 31 26 = 0x23)
    (hw : w % 2 ^ 26 = 0) (hlen : h.f.payload.length = 16) (hr : r = sortRecOf x h.f.rank false h.f.payload)
    (hsorts : ∀ y ∈ x.sort, y.disp = false) (hkeep : x.fld 24 4 = 0) (hroom : x.sort.length < 16 * x.fld 14 2)
    (hdiff : ∀ y ∈ x.sort, recEqual x y r = false) :
    millSort m s = standsAt (sortSet s m.val h.stream (insertRec x r x.sort)) m.val h (h.pc + 1) := by
  have hst : MCtx.st ⟨m.val, h, w⟩ s = x := hx.symm
  have henter : enterSort s ⟨m.val, h, w⟩ 0 r = (sortSet s m.val h.stream (insertRec x r x.sort), none) := by
    rw [enterSort_room (by rwa [hst]) (by rwa [hst]), hst]
  refine millStep_goOn hruns hop rfl (beq_iff_eq.2 hw) rfl ?_
  simp only [hst, any_disp_eq_false hsorts, hkeep, recordsOf_whole hlen (by decide), List.map_cons, List.map_nil, ← hr,
    enterSorts, henter]
  simp [hlen]

theorem millDisp_holds (hruns : runsWord s m.val h w) (hx : x = streamOf s m.val h.stream) (hout : outFull s m.val = false)
    (hop : bits w 31 26 = 0x26) (hw : w % 2 ^ 26 = 0) (hlen : h.f.payload.length = 16)
    (hr : r = sortRecOf x h.f.rank true h.f.payload) (hdisps : ∀ y ∈ x.sort, y.disp = true)
    (hslot : r.tag % 65536 < x.fld 22 2) (hdetl : x.detl = true) (hroom : x.sort.length < 16 * x.fld 14 2)
    (hdiff : ∀ y ∈ x.sort, recEqual x y r = false) :
    millDisp m s = standsAt (sortSet s m.val h.stream (insertRec x r x.sort)) m.val h (h.pc + 1) := by
  have hst : MCtx.st ⟨m.val, h, w⟩ s = x := hx.symm
  have henter : enterSort s ⟨m.val, h, w⟩ 0 r = (sortSet s m.val h.stream (insertRec x r x.sort), none) := by
    rw [enterSort_room (by rwa [hst]) (by rwa [hst]), hst]
  have hmixed : (x.sort.any fun y => !y.disp) = false := List.any_eq_false.2 fun y hy => by simp [hdisps y hy]
  refine millStep_goOn hruns hop rfl (beq_iff_eq.2 hw) (by rw [hout, Bool.and_false]) ?_
  simp only [hst, hmixed, recordsOf_whole hlen (by decide), List.map_cons, List.map_nil, ← hr, dealAll,
    if_neg (Nat.not_le.2 hslot), hdetl, henter]
  simp [hlen]

theorem millSclr_empties (hruns : runsWord s m.val h w) (hop : bits w 31 26 = 0x28) (hw : w % 2 ^ 26 = 0) :
    millSclr m s = standsAt (sortSet s m.val h.stream []) m.val h (h.pc + 1) :=
  millStep_goOn hruns hop rfl (beq_iff_eq.2 hw) rfl rfl

/-! ### The section is read (R436) -/

/-- The state once a stream's section has been read: it is emptied with clr. -/
def sectionRead (s : State) (m n clr : Nat) : State := if clr = 1 then sortSet s m n [] else s

theorem streamOf_sectionRead (s : State) (k n clr : Nat) :
    streamOf (sectionRead s k n clr) k n =
      { streamOf s k n with sort := if clr = 1 then [] else (streamOf s k n).sort } := by
  unfold sectionRead
  split
  · exact streamOf_sortSet _ _ _ _
  · rfl

theorem onlyMill_sectionRead (s : State) (k n clr : Nat) : onlyMill s (sectionRead s k n clr) k := by
  unfold sectionRead
  split
  · exact onlyMill_sortSet _ _ _ _
  · exact onlyMill_refl s k

theorem SortRec.bytes_length (r : SortRec) : (SortRec.bytes r).length = 16 := by simp [SortRec.bytes]

/-- A pair's OFFSET is a multiple of 16 (R426). -/
theorem pairOf_aligned {c : MCtx} (hpair : pairOf s c = some p) : p.offset % 16 = 0 := by
  unfold pairOf at hpair
  dsimp only at hpair
  split at hpair
  · cases hpair
  · next hok =>
    cases hpair
    simp only [not_or, not_not] at hok
    obtain ⟨-, -, -, -, -, hline⟩ := hok
    exact hline

theorem millTake_first (hruns : runsWord s m.val h w) (hx : x = streamOf s m.val h.stream) (hout : outFull s m.val = false)
    (hop : bits w 31 26 = 0x24) (hclr : bits w 13 0 < 2) (ha : regNow s m.val h (bits w 21 18) = 0)
    (hb : regNow s m.val h (bits w 17 14) = 1) (hhead : x.sort.head? = some r) (hr : r.disp = false)
    (hpair : pairOf s ⟨m.val, h, w⟩ = some p) :
    millTake m s = standsAt (millOut (sectionRead s m.val h.stream (bits w 13 0)) ⟨m.val, h, w⟩ p p.offset (SortRec.bytes r))
      m.val h (h.pc + 1) := by
  have hst : MCtx.st ⟨m.val, h, w⟩ s = x := hx.symm
  have hra : MCtx.reg ⟨m.val, h, w⟩ s (MCtx.a ⟨m.val, h, w⟩) = 0 := ha
  have hrb : MCtx.reg ⟨m.val, h, w⟩ s (MCtx.b ⟨m.val, h, w⟩) = 1 := hb
  have hone : (x.sort.drop 0).take 1 = [r] := by
    obtain ⟨rest, hsort⟩ := List.head?_eq_some_iff.1 hhead
    rw [hsort]
    rfl
  refine millStep_goOn hruns hop rfl (decide_eq_true hclr) (by rw [hout, Bool.and_false]) ?_
  simp only [hst, hra, hrb, hone, hpair, List.any_cons, hr, List.any_nil, List.flatMap_cons, List.flatMap_nil, List.append_nil]
  rw [hx]
  rfl

/-! ### Gathering (R437, R441) -/

theorem millGathRank_sends (hruns : runsWord s m.val h w) (hout : outFull s m.val = false) (hop : bits w 31 26 = 0x25)
    (hmode : bits w 13 0 = 0) (hpair : pairOf s ⟨m.val, h, w⟩ = some p) :
    millGathRank m s = standsAt (millOut s ⟨m.val, h, w⟩ p
      (p.offset + h.f.rank * regNow s m.val h (bits w 21 18) + h.f.offset) h.f.payload) m.val h (h.pc + 1) := by
  have hxc : MCtx.x ⟨m.val, h, w⟩ = 0 := hmode
  refine millStep_goOn hruns hop (by rw [hxc]; rfl) (by rw [hxc]; rfl) (by rw [hout, Bool.and_false]) ?_
  simp only [hpair]
  rfl

/-- The state in which a stream holds gathered payloads. -/
def heldSet (s : State) (m n : Nat) (l : List HeldGath) : State := setStream s m n { streamOf s m n with held := l }

theorem streamOf_heldSet (s : State) (k n : Nat) (l : List HeldGath) :
    streamOf (heldSet s k n l) k n = { streamOf s k n with held := l } := streamOf_setStream_same _ _ _ _

/-- The payload that the instruction at hand holds, with its RANK, OFFSET and counter (R437). -/
def gathered (s : State) (m : Nat) (h : HandlerSt) (w : Nat) : HeldGath :=
  ⟨h.f.rank, h.f.offset, regNow s m h (bits w 17 14), h.f.payload⟩

theorem millGathArrival_holds (hruns : runsWord s m.val h w) (hx : x = streamOf s m.val h.stream)
    (hout : outFull s m.val = false) (hop : bits w 31 26 = 0x25) (hmode : bits w 13 0 = 1)
    (hpair : pairOf s ⟨m.val, h, w⟩ = some p) (hdetl : x.detl = true)
    (hlt : regNow s m.val h (bits w 17 14) < x.fld 18 2)
    (hroom : heldBytes s m.val + h.f.payload.length ≤ 512 * 1024) :
    millGathArrival m s =
      standsAt (heldSet s m.val h.stream (x.held ++ [gathered s m.val h w])) m.val h (h.pc + 1) := by
  have hst : MCtx.st ⟨m.val, h, w⟩ s = x := hx.symm
  have hxc : MCtx.x ⟨m.val, h, w⟩ = 1 := hmode
  have hin : ¬x.fld 18 2 ≤ MCtx.reg ⟨m.val, h, w⟩ s (MCtx.b ⟨m.val, h, w⟩) := Nat.not_le.2 hlt
  refine millStep_goOn hruns hop (by rw [hxc]; rfl) (by rw [hxc]; rfl) (by rw [hout, Bool.and_false]) ?_
  simp only [hpair, hst, if_neg hin, hdetl, if_true, if_neg (Nat.not_lt.2 hroom)]
  rw [hx]
  rfl

/-! ### A flush with nothing held (R441) -/

theorem millFlush_nothing (hruns : runsWord s m.val h w) (hx : x = streamOf s m.val h.stream)
    (hout : outFull s m.val = false) (hop : bits w 31 26 = 0x27) (hw : bits w 21 0 = 0)
    (hpair : pairOf s ⟨m.val, h, w⟩ = some p) (hheld : x.held = []) (hsorts : ∀ y ∈ x.sort, y.disp = false)
    (hdisp : (millOf s m.val).disp = []) :
    millFlush m s = standsAt (heldSet s m.val h.stream []) m.val h (h.pc + 1) := by
  have hst : MCtx.st ⟨m.val, h, w⟩ s = x := hx.symm
  have hkept (y : StreamSt) : (millOf (setStream s m.val h.stream y) m.val).disp = [] := by
    rw [setStream, millOf_setMill_same]
    exact hdisp
  have hnone : x.sort.filter (·.disp) = [] := List.filter_eq_nil_iff.2 fun y hy => by simp [hsorts y hy]
  refine millStep_goOn hruns hop rfl (beq_iff_eq.2 hw) (by rw [hout, Bool.and_false]) ?_
  simp only [hpair, hst, hheld, hnone, any_disp_eq_false hsorts, sortBy, List.foldl_nil, hkept, List.filter_nil]
  rw [hx]
  rfl

/-! ### The end of a removal (R419) -/

/-- The state once a stream is removed: VALID is clear and its partly filled dispatch frames are gone. -/
def streamRemoved (s : State) (m n : Nat) : State :=
  let x := streamOf s m n
  let t := setStream s m n (clearValid x)
  setMill t m { millOf t m with disp := (millOf t m).disp.filter fun d =>
    !(decide (x.fld 20 2 ≤ d.slot) && decide (d.slot < x.fld 20 2 + x.fld 22 2)) }

theorem streamOf_streamRemoved (s : State) (k n : Nat) : streamOf (streamRemoved s k n) k n = clearValid (streamOf s k n) := by
  rw [streamOf, streamRemoved, millOf_setMill_same]
  exact streamOf_setStream_same _ _ _ _

theorem onlyMill_streamRemoved (s : State) (k n : Nat) : onlyMill s (streamRemoved s k n) k :=
  onlyMill_trans (onlyMill_setStream _ _ _ _) (onlyMill_setMill _ _ _)

theorem streamRemoveDone_idle {n : Byte} (hremoving : (streamOf s m.val n.toNat).removing = true)
    (hrun : (millOf s m.val).run = none) (hwaiters : (streamOf s m.val n.toNat).waiters = [])
    (hwin : (streamOf s m.val n.toNat).byWin = false) : streamRemoveDone m n s = streamRemoved s m.val n.toNat := by
  simp only [streamRemoveDone, hremoving, hrun, hwaiters, hwin]
  rfl

theorem valid_clearValid (x : StreamSt) : (clearValid x).valid = false := by
  have hword : leAt (clearValid x).bytes 0 2 = setBits (leAt x.bytes 0 2) 12 12 0 :=
    leAt_of_leBytes (pre := []) rfl (setBits_lt (n := 16) (leAt_lt x.bytes 0 2) (by decide) (by decide))
  rw [StreamSt.valid, hword, bit_setBits _ _ _ le_rfl]
  rfl

end Sys2Proof.Machine

open Sys2Proof Sys2Proof.Machine

/-- Settles O49: a record enters in its place (`millSort_room`, `millDisp_holds`), what is read or gathered leaves in one frame
(`millOut_whole`), and a removal clears VALID (`valid_clearValid`). -/
theorem millSections : Obligations.MillSections := by
  unfold Obligations.MillSections
  refine ⟨?instructions, ?removal⟩
  case instructions =>
    intro s m h w x hruns hx
    refine ⟨?sort, ?take, ?gathRank, ?gathArrival, ?disp, ?flush, ?sclr⟩
    case sort =>
      intro r hop hw hlen hr hsorts hkeep hroom hdiff
      have hexec : exec (.sort m) s = .next (millSort m s) := rfl
      rw [millSort_room hruns hx hop hw hlen hr hsorts hkeep hroom hdiff] at hexec
      exact ⟨_, hexec, goesOn_sortSet s m.val h _⟩
    case take =>
      intro p r hout hop hclr ha hb hhead hr hpair hoff
      have hexec : exec (.take m) s = .next (millTake m s) := rfl
      rw [millTake_first hruns hx hout hop hclr ha hb hhead hr hpair] at hexec
      have hread := streamOf_sectionRead s m.val h.stream (bits w 13 0)
      have hline := pairOf_aligned hpair
      obtain ⟨t, g, hnext, hsent, hg, hstream, hwent, hkept⟩ := exec_sendsOne hexec (onlyMill_sectionRead _ _ _ _)
        (by rw [hread]) hoff (List.ne_nil_of_length_pos (by rw [SortRec.bytes_length]; decide))
        (by rw [SortRec.bytes_length]; omega)
      refine ⟨t, g, hnext, hsent, ?_, ?_, ?_, by rw [hstream, hread, hx], hwent, hkept⟩ <;> rw [hg] <;> rfl
    case gathRank =>
      intro p hout hop hmode hpair hlen hoff hline
      have hexec : exec (.gathRank m) s = .next (millGathRank m s) := rfl
      rw [millGathRank_sends hruns hout hop hmode hpair] at hexec
      obtain ⟨t, g, hnext, hsent, hg, -, hwent, hkept⟩ := exec_sendsOne hexec (onlyMill_refl _ _) rfl hoff
        (List.ne_nil_of_length_pos (by rw [hlen]; decide)) (by omega)
      refine ⟨t, g, hnext, hsent, ?_, ?_, ?_, hwent, hkept⟩ <;> rw [hg] <;> rfl
    case gathArrival =>
      intro p hout hop hmode hpair hdetl hlt hroom
      have hexec : exec (.gathArrival m) s = .next (millGathArrival m s) := rfl
      rw [millGathArrival_holds hruns hx hout hop hmode hpair hdetl hlt hroom] at hexec
      refine ⟨_, hexec, ?_, wentOn_standsAt ?_ _, onlyMill_standsAt (onlyMill_setStream _ _ _ _) _ _⟩
      · rw [standsAt, streamOf_setHandler, streamOf_heldSet, gathered]
      · rw [streamOf_heldSet]
    case disp =>
      intro r hout hop hw hlen hr hdisps hslot hdetl hroom hdiff
      have hexec : exec (.disp m) s = .next (millDisp m s) := rfl
      rw [millDisp_holds hruns hx hout hop hw hlen hr hdisps hslot hdetl hroom hdiff] at hexec
      exact ⟨_, hexec, goesOn_sortSet s m.val h _⟩
    case flush =>
      intro p hout hop hw hpair hheld hsorts hdisp
      have hexec : exec (.flush m) s = .next (millFlush m s) := rfl
      rw [millFlush_nothing hruns hx hout hop hw hpair hheld hsorts hdisp] at hexec
      refine ⟨_, hexec, rfl, ?_, wentOn_standsAt ?_ _, onlyMill_standsAt (onlyMill_setStream _ _ _ _) _ _⟩
      · rw [standsAt, streamOf_setHandler, streamOf_heldSet, hx]
      · rw [streamOf_heldSet]
    case sclr =>
      intro hop hw
      have hexec : exec (.sclr m) s = .next (millSclr m s) := rfl
      rw [millSclr_empties hruns hop hw] at hexec
      exact ⟨_, hexec, goesOn_sortSet s m.val h _⟩
  case removal =>
    intro s m n hremoving hrun hwaiters hwin
    have hexec : exec (.streamRemoveDone m n) s = .next (streamRemoveDone m n s) := rfl
    rw [streamRemoveDone_idle hremoving hrun hwaiters hwin] at hexec
    have hstream := streamOf_streamRemoved s m.val n.toNat
    exact ⟨_, hexec, by rw [hstream, valid_clearValid], by rw [hstream]; rfl, by rw [hstream]; rfl, onlyMill_streamRemoved _ _ _⟩
end

section
/-! PROOFS. One ns with no command waiting (13 R473): what passes with it while no cluster switches, and what the restore of a
context image may end (06 R235). -/

namespace Sys2Proof.Machine

variable {s : State}

/-! ### The parts of one ns -/

/-- The state with both clocks a ns on. -/
def clocked (s : State) : State :=
  { s with time := { s.time with now := advance s.time.now (rd s R.tbRate), lamp := s.time.lamp + 1 } }

/-- The state whose clocks, windows and meshes are a ns on. -/
def meshed (s : State) : State := (s.fab.mesh.map (·.1)).foldl meshNs (closeWindows (clocked s))

theorem tick_eq (s : State) : tick s = keepBusy (((meshed s).comp.slots.map (·.1)).foldl transferNs (meshed s)) := rfl

theorem closeWindows_frame (s : State) : ∃ regs gang, closeWindows s = { s with regs := regs, gang := gang } := by
  unfold closeWindows
  dsimp only
  refine List.foldlRecOn (motive := fun t : State => ∃ regs gang, t = { s with regs := regs, gang := gang }) _ _
    ⟨s.regs, s.gang, rfl⟩ ?_
  rintro _ ⟨regs, gang, rfl⟩ e -
  split <;> exact ⟨_, _, rfl⟩

theorem foldl_meshNs_frame (l : List Nat) (s : State) : ∃ fab, l.foldl meshNs s = { s with fab := fab } := by
  refine List.foldlRecOn (motive := fun t : State => ∃ fab, t = { s with fab := fab }) l _ ⟨s.fab, rfl⟩ ?_
  rintro _ ⟨fab, rfl⟩ d -
  exact ⟨_, rfl⟩

theorem keepBusy_frame (s : State) : ∃ power, keepBusy s = { s with power := power } := by
  unfold keepBusy
  refine List.foldlRecOn (motive := fun t : State => ∃ power, t = { s with power := power }) _ _ ⟨s.power, rfl⟩ ?_
  rintro _ ⟨power, rfl⟩ g -
  split <;> exact ⟨_, rfl⟩

/-- Before any transfer moves, a ns has changed the clocks, the gang and its registers, and the fabric. -/
theorem meshed_frame (s : State) :
    ∃ regs gang fab, meshed s = { clocked s with regs := regs, gang := gang, fab := fab } := by
  obtain ⟨regs, gang, hwindows⟩ := closeWindows_frame (clocked s)
  obtain ⟨fab, hmesh⟩ := foldl_meshNs_frame (s.fab.mesh.map (·.1)) (closeWindows (clocked s))
  exact ⟨regs, gang, fab, by rw [meshed, hmesh, hwindows]⟩

/-- Where no cluster switches, no block moves. -/
theorem foldl_transferNs_idle (h : ∀ g, (slotSt s g).switch = none) (l : List Nat) : l.foldl transferNs s = s := by
  induction l with
  | nil => rfl
  | cons g l ih =>
    have hg : transferNs s g = s := by simp only [transferNs, h g]
    rw [List.foldl_cons, hg, ih]

/-- While no cluster switches, one ns changes the clocks, the gang, the fabric, the islands and some registers. -/
theorem tick_frame (h : ∀ g, (slotSt s g).switch = none) :
    ∃ regs gang fab power, tick s = { clocked s with regs := regs, gang := gang, fab := fab, power := power } := by
  obtain ⟨regs, gang, fab, hmeshed⟩ := meshed_frame s
  have hidle : ∀ g, (slotSt (meshed s) g).switch = none := by
    rw [hmeshed]
    exact h
  obtain ⟨power, hbusy⟩ := keepBusy_frame (meshed s)
  exact ⟨regs, gang, fab, power, by rw [tick_eq, foldl_transferNs_idle hidle, hbusy, hmeshed]⟩

/-- The statement's second clause where no cluster switches. -/
theorem step_idle_of_noSwitch (hp : s.pending = []) (h : ∀ g, (slotSt s g).switch = none) :
    ∃ t : State, step s = .next t ∧ t.pending = [] ∧ t.time.lamp = s.time.lamp + 1 ∧
      t.time.now = advance s.time.now (rd s R.tbRate) ∧ t.host = s.host ∧ t.comp = s.comp ∧ t.deep = s.deep ∧
      t.out = s.out := by
  have hstep : step s = .next (tick s) := by rw [step, hp]
  obtain ⟨regs, gang, fab, power, htick⟩ := tick_frame h
  rw [htick] at hstep
  exact ⟨_, hstep, hp, rfl, rfl, rfl, rfl, rfl, rfl⟩

/-! ### The state that refutes -/

/-- A LAUNCH of function 2 that waits for the end of its list on core 0. -/
def launchWaits : HostDesc := ⟨2, 0, 0, [], .working, [⟨0, 7, none, 0, FpFlags.none⟩], 0, 0, [], 0⟩

/-- Functions 1 and 2 share cluster 0; function 2 comes in, its list is queued on core 0, and the first block of its context image,
whose first codeword stands in error, has been under way for 15 ns. -/
def spoiledRestore : State := { State.reset with
  regs := [(R.dstLayout, 0x100), (R.cpxClown 0 0, 1 + 2 ^ 10 * 2), (R.cpxClown 0 0 + 4, 0x30000)]
  comp := { State.reset.comp with
    seqs := [(0, [(2, ⟨[⟨7, 2, 0, (2, 0, 0), 0⟩], none, [], FpFlags.none⟩)])]
    slots := [(0, ⟨0, true, some ⟨1, false, 0, 15⟩⟩)] }
  deep := { State.reset.deep with ue := [0x2F98A00000] }
  host := { State.reset.host with descs := [launchWaits] } }

/-- The codeword is the first of the image. -/
theorem imageBase_spoiledRestore : imageBase spoiledRestore 0 1 = 0x2F98A00000 := by decide +kernel

/-- The ns that ends the block's transfer reads it, and the list of the LAUNCH ends with FAULT (06 R235). -/
theorem step_spoiledRestore :
    ∃ t : State, step spoiledRestore = .next t ∧ t.host.descs.map (fun h => h.lists.map (·.status)) = [[some 9]] :=
  ⟨_, rfl, by decide +kernel⟩

end Sys2Proof.Machine

open Sys2Proof Sys2Proof.Machine

/-- Refutes O1. Of the host's part the statement says that one ns leaves it as it is, also while a cluster switches: but where a
block of a context image is restored whose codeword stands in error, the lists of the incoming function stop with FAULT (06 R235),
and the LAUNCH that waits for them takes that status. While no cluster switches the clause holds (`step_idle_of_noSwitch`). -/
theorem not_stepRunsFront : ¬ Obligations.StepRunsFront := by
  unfold Obligations.StepRunsFront
  rintro ⟨-, hidle⟩
  obtain ⟨t, ht, -, -, -, hhost, -⟩ := hidle spoiledRestore rfl
  obtain ⟨u, hu, hended⟩ := step_spoiledRestore
  obtain rfl := Host.Outcome.next.inj (hu.symm.trans ht)
  rw [hhost] at hended
  exact absurd hended (by decide)
end

section
/-! PROOFS. TSYNC frames sent and taken (13 R479), delay exchanges (13 R480), and their statement. -/

namespace Sys2Proof.Machine

variable {s : State}

/-! ### TSYNC frames (R479) -/

/-- A TSYNC frame of this device, complete. -/
def tsyncFrame (s : State) (src bseq blen ts : Nat) : Frame :=
  completeHeader s (.device 0) 3 0 { Frame.blank with
    typ := 8, cls := 3, src := src, job := getF s R.gngCtl 11 0, len := 1, tsw := bseq + 256 * blen,
    payload := leBytes 8 ts ++ zeros 8 }

/-- The frame as its port sends it, under the next name. -/
def tsyncEntry (s : State) (src bseq blen ts : Nat) : QEntry :=
  ⟨s.nextId, tsyncFrame s src bseq blen ts, .device 0, nowNs s, false, none, none⟩

theorem sendTsync_eq (s : State) (p src bseq blen ts : Nat) :
    sendTsync s p src bseq blen ts =
      if linkRoom s p then sendOn (newId s).2 p (tsyncEntry s src bseq blen ts) else s := by
  unfold sendTsync
  cases linkRoom s p <;> rfl

/-- With no mirror a TSYNC frame leaves as one link unit and waits unacknowledged. -/
theorem sendTsync_off {p : Nat} (hmir : flag s R.mirCtl 31 = false) (hroom : linkRoom s p = true) (src bseq blen ts : Nat) :
    ∃ b x, sendTsync s p src bseq blen ts = { s with
        out := s.out ++ [.linkUnit p b], nextId := s.nextId + 1, ports := SMap.setD s.ports p PortSt.blank x } ∧
      x.unacked = (portOf s p).unacked ++ [⟨(portOf s p).next, tsyncEntry s src bseq blen ts⟩] := by
  obtain ⟨b, x, hsend, -, hunacked⟩ := sendOn_off (s := (newId s).2) hmir p (tsyncEntry s src bseq blen ts)
  exact ⟨b, x, by rw [sendTsync_eq, if_pos hroom, hsend]; rfl, hunacked⟩

/-- The first frame received on a port is taken where it is a TSYNC frame that passes its checks and the test. -/
theorem takeTsync_first {p : Nat} {pick : Frame → Bool} {x : RxPkt} {rest : List RxPkt} (hlive : dead s = false)
    (hmir : flag s R.mirCtl 31 = false) (hrx : rxOf s p = x :: rest) (htyp : x.f.typ = 8) (hpick : pick x.f = true)
    (hchk : doorCheck s x.f (some p) = none) : takeTsync s p pick = some (x.f, popRx s p) := by
  have hsee : mirrorSee (popRx s p) 0 p 0 x.f = popRx s p := mirrorSee_off (s := popRx s p) hmir _ _ _ _
  have htakes : x.f.typ = 8 ∧ pick x.f = true ∧ (doorCheck s x.f (some p)).isNone = true ∧ (!dead s) = true :=
    ⟨htyp, hpick, by rw [hchk]; rfl, by rw [hlive]; rfl⟩
  simp only [takeTsync, hrx, List.head?_cons, if_pos htakes, hsee]

theorem rxOf_popRx_cons {p : Nat} {x : RxPkt} {rest : List RxPkt} (hrx : rxOf s p = x :: rest) : rxOf (popRx s p) p = rest := by
  rw [rxOf_popRx, hrx, List.drop_one, List.tail_cons]

/-! ### Delay exchanges (R480) -/

variable {p : Port}

/-- When the exchange after one that starts now is due (R480). -/
def nextExchange (s : State) (p : Nat) : Nat :=
  if 1 < (delayExchOf s p).left then (delayExchOf s p).due + 1000 else s.time.lamp + 1000000 * getF s R.gngDper 7 0

/-- The exchanges of a port with one more request under way. -/
def exchangeStarted (s : State) (p t : Nat) : DelaySt :=
  { delayExchOf s p with
    reqs := (delayExchOf s p).reqs ++ [t], left := (delayExchOf s p).left - 1, due := nextExchange s p }

theorem delayExchangeStart_due (t : DWord) (hlive : dead s = false) (hup : portUp s p.val = true)
    (hroom : linkRoom s p.val = true) (hdue : (delayExchOf s p.val).due ≤ s.time.lamp) :
    delayExchangeStart p t s =
      sendTsync (setDelay s p.val (exchangeStarted s p.val t.toNat)) p.val (getF s R.gngUep 15 0) 0 0 t.toNat := by
  simp only [delayExchangeStart, hup, hroom, hlive, Nat.not_lt.2 hdue, decide_false, Bool.not_true, Bool.or_self,
    Bool.false_eq_true, if_false]
  rfl

theorem delayReplySend_due {t2 : Nat} {rest : List Nat} (hreplies : (delayExchOf s p.val).replies = t2 :: rest)
    (hdue : t2 + 16384 ≤ s.time.now / 2 ^ 26) (hup : portUp s p.val = true) (hroom : linkRoom s p.val = true) :
    delayReplySend p s =
      sendTsync (setDelay s p.val { delayExchOf s p.val with replies := rest }) p.val (getF s R.gngUep 15 0) 1 0 t2 := by
  have hgo : ¬ (s.time.now / 2 ^ 26 < t2 + 256 * 64 ∨ (!portUp s p.val) = true ∨ (!linkRoom s p.val) = true) := by
    simp only [hup, hroom, Bool.not_true, Bool.false_eq_true, or_false]
    omega
  simp only [delayReplySend, hreplies, if_neg hgo]

/-- A TSYNC frame that belongs to no burst is a request or a reply by its BSEQ (R480). -/
theorem exchange_of_tsw {f : Frame} {k : Nat} (hk : k < 256) (h : f.tsw % 65536 = k) :
    (f.blen == 0 && f.bseq == k) = true := by
  simp only [Frame.blen, Frame.bseq, Bool.and_eq_true, beq_iff_eq]
  omega

section
variable {x : RxPkt} {rest : List RxPkt} (hlive : dead s = false) (hmir : flag s R.mirCtl 31 = false)
  (hrx : rxOf s p.val = x :: rest) (htyp : x.f.typ = 8) (hchk : doorCheck s x.f (some p.val) = none)
include hlive hmir hrx htyp hchk

theorem takeTsync_exchange {k : Nat} (hk : k < 256) (htsw : x.f.tsw % 65536 = k) :
    takeTsync s p.val (fun f => f.blen == 0 && f.bseq == k) = some (x.f, popRx s p.val) :=
  takeTsync_first (pick := fun f => f.blen == 0 && f.bseq == k) hlive hmir hrx htyp (exchange_of_tsw hk htsw) hchk

theorem delayRequest_taken (t : DWord) (htsw : x.f.tsw % 65536 = 0) :
    delayRequest p t s = setDelay (popRx s p.val) p.val
      { delayExchOf s p.val with replies := (delayExchOf s p.val).replies ++ [t.toNat] } := by
  simp only [delayRequest, takeTsync_exchange hlive hmir hrx htyp hchk (by decide) htsw]
  rfl

/-- A reply before the sixteenth is kept as a round trip less 256 ns, with the responder's offset. -/
theorem delayReply_taken (t : DWord) {t1 : Nat} {reqs : List Nat} (htsw : x.f.tsw % 65536 = 1)
    (hreqs : (delayExchOf s p.val).reqs = t1 :: reqs) (hfew : (delayExchOf s p.val).samples.length < 15) :
    delayReply p t s = setDelay (popRx s p.val) p.val { delayExchOf s p.val with
      reqs := reqs
      samples := ((t.toNat : Int) - t1 - 16384) :: (delayExchOf s p.val).samples
      offset := 2 * ((leAt x.f.payload 0 8 : Int) - t1) - ((t.toNat : Int) - t1 - 16384) } := by
  have hexch : delayExchOf (popRx s p.val) p.val = delayExchOf s p.val := rfl
  have htake (trip : Int) : (trip :: (delayExchOf s p.val).samples).take 16 = trip :: (delayExchOf s p.val).samples :=
    List.take_of_length_le (by rw [List.length_cons]; omega)
  have hlen (trip : Int) : (trip :: (delayExchOf s p.val).samples).length < 16 := by rw [List.length_cons]; omega
  simp only [delayReply, takeTsync_exchange hlive hmir hrx htyp hchk (by decide) htsw, hexch, hreqs, htake, hlen,
    true_or, if_true]
  rfl

end

end Sys2Proof.Machine

open Sys2Proof Sys2Proof.Machine

/-- Settles O50: a request or a reply that is due leaves as one link unit (`sendTsync_off`), and one that arrives changes its
port's exchanges alone (`delayRequest_taken`, `delayReply_taken`). -/
theorem delayExchanges : Obligations.DelayExchanges := by
  unfold Obligations.DelayExchanges
  intro s p hlive hmir
  refine ⟨?start, ?request, ?replySend, ?reply⟩
  case start =>
    intro t hup hroom hdue
    have hexec : exec (.delayExchangeStart p t) s = .next (delayExchangeStart p t s) := rfl
    obtain ⟨b, x, hsend, hunacked⟩ := sendTsync_off (s := setDelay s p.val (exchangeStarted s p.val t.toNat)) hmir hroom
      (getF s R.gngUep 15 0) 0 0 t.toNat
    rw [delayExchangeStart_due t hlive hup hroom hdue, hsend] at hexec
    have hexch : delayExchOf (setDelay s p.val (exchangeStarted s p.val t.toNat)) p.val = exchangeStarted s p.val t.toNat :=
      delayExchOf_setDelay_same _ _ _
    refine ⟨_, b, hexec, rfl, congrArg DelaySt.reqs hexch, congrArg DelaySt.left hexch, ?_, rfl, rfl, rfl⟩
    rw [portOf, SMap.getD_setD_same, hunacked, List.length_append]
    rfl
  case request =>
    intro t x rest hrx htyp htsw hchk
    have hexec : exec (.delayRequest p t) s = .next (delayRequest p t s) := rfl
    rw [delayRequest_taken hlive hmir hrx htyp hchk t htsw] at hexec
    exact ⟨_, hexec, rxOf_popRx_cons hrx, congrArg DelaySt.replies (delayExchOf_setDelay_same _ _ _), rfl, rfl, rfl, rfl⟩
  case replySend =>
    intro t2 rest hreplies hdue hup hroom
    have hexec : exec (.delayReplySend p) s = .next (delayReplySend p s) := rfl
    obtain ⟨b, x, hsend, hunacked⟩ := sendTsync_off (s := setDelay s p.val { delayExchOf s p.val with replies := rest }) hmir hroom
      (getF s R.gngUep 15 0) 1 0 t2
    rw [delayReplySend_due hreplies hdue hup hroom, hsend] at hexec
    refine ⟨_, b, hexec, rfl, congrArg DelaySt.replies (delayExchOf_setDelay_same s _ _), ?_, rfl, rfl, rfl⟩
    rw [portOf, SMap.getD_setD_same, hunacked]
    exact ⟨_, List.getLast?_concat, rfl, rfl, rfl⟩
  case reply =>
    intro t x rest t1 reqs hrx htyp htsw hchk hreqs hfew
    have hexec : exec (.delayReply p t) s = .next (delayReply p t s) := rfl
    rw [delayReply_taken hlive hmir hrx htyp hchk t htsw hreqs hfew] at hexec
    have hexch := delayExchOf_setDelay_same (popRx s p.val) p.val { delayExchOf s p.val with
      reqs := reqs
      samples := ((t.toNat : Int) - t1 - 16384) :: (delayExchOf s p.val).samples
      offset := 2 * ((leAt x.f.payload 0 8 : Int) - t1) - ((t.toNat : Int) - t1 - 16384) }
    exact ⟨_, hexec, rxOf_popRx_cons hrx, congrArg DelaySt.reqs hexch, congrArg DelaySt.samples hexch,
      congrArg DelaySt.offset hexch, rfl, rfl, rfl, rfl⟩
end

section
/-! PROOFS. Bursts, the standby, the reference and GSYNC (13 R474, R484 to R487, R490; 17 R629), and their statement. -/

namespace Sys2Proof.Machine

variable {s t u : State}

/-! ### Frames that leave (R484) -/

/-- Frames have been sent on ports, and nothing else has happened: the mirror may have seen them, and has told in its own registers
what it missed. -/
structure OnlySent (s t : State) : Prop where
  frame : ∃ regs fab ports out nextId, t = { s with regs := regs, fab := fab, ports := ports, out := out, nextId := nextId }
  regs : sameRegs s t [R.mirCntLost, R.mirStat]

namespace OnlySent

theorem refl (s : State) : OnlySent s s := ⟨⟨s.regs, s.fab, s.ports, s.out, s.nextId, rfl⟩, sameRegs_refl _ _⟩

theorem trans (hst : OnlySent s t) (htu : OnlySent t u) : OnlySent s u := by
  refine ⟨?_, sameRegs_trans hst.regs htu.regs⟩
  obtain ⟨⟨regs, fab, ports, out, nextId, rfl⟩, -⟩ := hst
  obtain ⟨⟨regs', fab', ports', out', nextId', rfl⟩, -⟩ := htu
  exact ⟨regs', fab', ports', out', nextId', rfl⟩

theorem foldl {α : Type} {f : State → α → State} (hf : ∀ s a, OnlySent s (f s a)) (l : List α) (s : State) :
    OnlySent s (l.foldl f s) := by
  induction l generalizing s with
  | nil => exact refl s
  | cons a l ih => exact (hf s a).trans (ih _)

theorem gang (h : OnlySent s t) : t.gang = s.gang := by
  obtain ⟨⟨_, _, _, _, _, rfl⟩, -⟩ := h
  rfl

theorem comp (h : OnlySent s t) : t.comp = s.comp := by
  obtain ⟨⟨_, _, _, _, _, rfl⟩, -⟩ := h
  rfl

theorem deep (h : OnlySent s t) : t.deep = s.deep := by
  obtain ⟨⟨_, _, _, _, _, rfl⟩, -⟩ := h
  rfl

theorem time (h : OnlySent s t) : t.time = s.time := by
  obtain ⟨⟨_, _, _, _, _, rfl⟩, -⟩ := h
  rfl

theorem rd_gngStat (h : OnlySent s t) : rd t R.gngStat = rd s R.gngStat := h.regs _ (by decide)

end OnlySent

theorem onlySent_sendOn (s : State) (p : Nat) (e : QEntry) : OnlySent s (sendOn s p e) := by
  refine ⟨?_, sameRegs_trans (sameRegs_mirrorSee s 1 p 0 (outFrame e.f)) (sameRegs_of_regs rfl _)⟩
  obtain ⟨regs, cnt, recs, seq, hsee⟩ := mirrorSee_frame s 1 p 0 (outFrame e.f)
  simp only [sendOn, hsee]
  exact ⟨_, _, _, _, _, rfl⟩

theorem onlySent_sendTsync (s : State) (p src bseq blen ts : Nat) : OnlySent s (sendTsync s p src bseq blen ts) := by
  have hname : OnlySent s (newId s).2 := ⟨⟨_, _, _, _, _, rfl⟩, sameRegs_of_regs rfl _⟩
  rw [sendTsync_eq]
  split
  · exact hname.trans (onlySent_sendOn _ _ _)
  · exact .refl s

theorem onlySent_sendBurst (s : State) (mask src ts : Nat) : OnlySent s (sendBurst s mask src ts) :=
  .foldl (fun s _ => .foldl (fun s _ => onlySent_sendTsync s _ _ _ _ _) _ s) _ s

/-- With no port up a burst leaves nowhere. -/
theorem sendBurst_down (h : ∀ p < 64, portUp s p = false) (mask src ts : Nat) : sendBurst s mask src ts = s := by
  have hnone : (List.range 64).filter (fun p => bit mask p && portUp s p) = [] :=
    List.filter_eq_nil_iff.2 fun p hp => by rw [h p (List.mem_range.1 hp), Bool.and_false]; exact Bool.false_ne_true
  rw [sendBurst, hnone, List.foldl_nil]

/-! ### A source's bursts (R484) -/

/-- The state of a source whose next burst is due after one more PER. -/
def burstCounted (s : State) : State :=
  { s with gang := { s.gang with nextBurst := s.time.lamp + 1000 * getF s R.gngCtl 23 16 } }

/-- The ports that a source's burst leaves by. -/
def burstMask (s : State) : Nat := if flag s R.gngStat 3 then rd64 s R.gngDowns else rd64 s R.gngDownm

theorem burstSend_due (ts : DWord) (hlive : dead s = false) (hsource : gangState s = 4) (hdue : s.gang.nextBurst ≤ s.time.lamp) :
    burstSend ts s = sendBurst (burstCounted s) (burstMask s) (getF s R.gngUep 15 0) ts.toNat := by
  have hgo : ¬ (gangState s ≠ 4 ∨ s.time.lamp < s.gang.nextBurst ∨ dead s = true) := by
    simp only [hsource, hlive, ne_eq, not_true_eq_false, Bool.false_eq_true, or_false, false_or]
    omega
  rw [burstSend, if_neg hgo]
  rfl

theorem onlySent_burstSend (ts : DWord) (hlive : dead s = false) (hsource : gangState s = 4)
    (hdue : s.gang.nextBurst ≤ s.time.lamp) : OnlySent (burstCounted s) (burstSend ts s) := by
  rw [burstSend_due ts hlive hsource hdue]
  exact onlySent_sendBurst _ _ _ _

/-- A follower relays a burst of the first source that waits (R486). -/
theorem burstRelay_first (ts : DWord) {src : Nat} {rest : List Nat} (h : s.gang.relay = src :: rest) :
    OnlySent { s with gang := { s.gang with relay := rest } } (burstRelay ts s) := by
  simp only [burstRelay, h]
  exact onlySent_sendBurst _ _ _ _

/-! ### A burst that begins (R485) -/

/-- With no burst arriving no window closes. -/
theorem closeWindows_none (h : s.gang.bursts = []) : closeWindows s = s := by
  simp only [closeWindows, h, List.filter_nil, List.foldl_nil]

/-- A burst of which the first frame has arrived. -/
def burstBegun (f : Frame) (ts : Nat) : BurstRx :=
  ⟨f.src, f.blen, 1, ts, (leAt f.payload 0 8 : Int) - ts, false⟩

theorem tsyncBurstFrame_first {p : Port} (ts : DWord) {x : RxPkt} {rest : List RxPkt} (hlive : dead s = false)
    (hmir : flag s R.mirCtl 31 = false) (hrx : rxOf s p.val = x :: rest) (htyp : x.f.typ = 8) (hblen : x.f.blen ≠ 0)
    (hbseq : x.f.bseq = 0) (hchk : doorCheck s x.f (some p.val) = none) (hgang : gangState s ≠ 0)
    (hnone : s.gang.bursts = []) :
    tsyncBurstFrame p ts s = { popRx s p.val with
      gang := { s.gang with bursts := [(p.val, burstBegun x.f ts.toNat)] } } := by
  have htake : takeTsync s p.val (fun f => f.blen != 0) = some (x.f, popRx s p.val) :=
    takeTsync_first (pick := fun f => f.blen != 0) hlive hmir hrx htyp (bne_iff_ne.2 hblen) hchk
  have hgang' : gangState (popRx s p.val) ≠ 0 := hgang
  have hnone' : (popRx s p.val).gang.bursts = [] := hnone
  simp only [tsyncBurstFrame, htake, if_neg hgang', closeWindows_none hnone', hnone', SMap.find, hbseq, if_true]
  rfl

/-! ### The standby (R490) -/

/-- The state of a standby that has become the source. -/
def sourceTaken (s : State) : State := setF (raise (setGang s 4) R.gngStat 4) R.gngStat 3 3 1

/-- The state in which its first burst is due now. -/
def takenOver (s : State) : State :=
  { sourceTaken s with gang := { (sourceTaken s).gang with nextBurst := s.time.lamp } }

theorem setF_changes (s : State) (off hi lo v : Nat) : ∃ regs, setF s off hi lo v = { s with regs := regs } := ⟨_, rfl⟩

theorem sourceTaken_changes (s : State) : ∃ regs, sourceTaken s = { s with regs := regs } := by
  obtain ⟨regs, hstate⟩ := setF_changes s R.gngStat 2 0 4
  obtain ⟨regs', htook⟩ := setF_changes { s with regs := regs } R.gngStat 4 4 1
  obtain ⟨regs'', hsource⟩ := setF_changes { s with regs := regs' } R.gngStat 3 3 1
  exact ⟨regs'', by rw [sourceTaken, setGang, hstate, raise, htook, hsource]⟩

theorem burstCounted_takenOver (s : State) :
    ∃ regs gang, burstCounted (takenOver s) = { s with regs := regs, gang := gang } := by
  obtain ⟨regs, hsource⟩ := sourceTaken_changes s
  rw [takenOver, hsource]
  exact ⟨_, _, rfl⟩

theorem standbyTakeover_silent (ts : DWord) (hlive : dead s = false) (hrole : getF s R.gngCtl 29 28 = 2)
    (hlocked : gangState s = 2) (hsilent : s.gang.masterAt + 200000 ≤ s.time.lamp) :
    standbyTakeover ts s = burstSend ts (takenOver s) := by
  have hgo : ¬ (getF s R.gngCtl 29 28 ≠ 2 ∨ gangState s = 0 ∨ gangState s = 4 ∨ s.time.lamp < s.gang.masterAt + 200000 ∨
      dead s = true) := by
    simp only [hrole, hlocked, hlive, ne_eq, not_true_eq_false, Bool.false_eq_true, or_false, false_or]
    omega
  rw [standbyTakeover, if_neg hgo]
  rfl

theorem rd_takenOver (s : State) (off : Nat) : rd (takenOver s) off = rd (sourceTaken s) off :=
  sameRegs_of_regs (s := sourceTaken s) (t := takenOver s) rfl [] off List.not_mem_nil

theorem gangState_takenOver (s : State) : gangState (takenOver s) = 4 := by
  rw [gangState, getF_congr_rd (rd_takenOver s _), sourceTaken, getF_setF_apart _ _ _ le_rfl (by decide) (by decide), raise,
    getF_setF_apart _ _ _ le_rfl (by decide) (by decide), setGang, getF_setF_same _ _ _ (by decide) (by decide)]
  rfl

theorem flag_takenOver_takeover (s : State) : flag (takenOver s) R.gngStat 4 = true := by
  rw [flag_congr_rd (rd_takenOver s _), sourceTaken, flag_setF_same _ _ _ le_rfl (by decide), if_neg (by decide),
    flag_raise_same _ _ (by decide)]

theorem flag_takenOver_source (s : State) : flag (takenOver s) R.gngStat 3 = true := by
  rw [flag_congr_rd (rd_takenOver s _), sourceTaken, flag_setF_same _ _ _ le_rfl (by decide)]
  rfl

/-- A device runs on where its fault register stays. -/
theorem dead_congr (h : rd t R.glbFault = rd s R.glbFault) : dead t = dead s := by
  simp only [dead, flag, getF, h]

theorem dead_takenOver (s : State) : dead (takenOver s) = dead s := by
  refine dead_congr ?_
  rw [rd_takenOver, sourceTaken, rd_setF_ne _ _ _ _ (by decide), rd_raise_ne _ _ (by decide), setGang,
    rd_setF_ne _ _ _ _ (by decide)]

/-! ### The reference and GSYNC (R474, R629) -/

theorem holdoverEnter_late {at' : Nat} (hat : s.gang.burstAt = some at') (hlocked : gangState s = 2)
    (hlate : at' + 2000 * getF s R.gngCtl 23 16 ≤ s.time.lamp) : holdoverEnter s = setF s R.gngStat 2 0 3 := by
  simp only [holdoverEnter, hat, if_pos (And.intro hlocked hlate)]
  rfl

theorem referenceLoss_lost (hsel : flag s R.tbCtl 16 = true) (hheld : s.time.refLost = false) :
    referenceLoss s = raise { s with time := { s.time with refLost := true } } R.tbStat 0 := by
  rw [referenceLoss, if_pos ⟨hsel, by rw [hheld]; rfl⟩]

/-- The state that a GSYNC edge has been captured in. -/
def gsyncCaptured (s : State) : State :=
  raise (wr64 { s with time := { s.time with capAt := some s.time.lamp } } R.tbGscap (nowNs s)) R.tbStat 2

/-- An edge more than 1 microsecond after the last one captured is captured. -/
theorem gsyncCapture_apart (h : ∀ at', s.time.capAt = some at' → at' + 1000 < s.time.lamp) :
    gsyncCapture s = gsyncCaptured s := by
  cases hcap : s.time.capAt with
  | none => simp only [gsyncCapture, hcap]; rfl
  | some at' =>
    have hfar : ¬ s.time.lamp ≤ at' + 1000 := Nat.not_le.2 (h at' hcap)
    simp only [gsyncCapture, hcap, decide_eq_false hfar]
    rfl

theorem rd64_gsyncCaptured (h : nowNs s < 2 ^ 64) : rd64 (gsyncCaptured s) R.tbGscap = nowNs s := by
  rw [rd64, gsyncCaptured, rd_raise_ne _ _ (by decide), rd_raise_ne _ _ (by decide)]
  exact (rd64_wr64_same _ _ _).trans (Nat.mod_eq_of_lt h)

theorem sameRegs_gsyncCaptured (s : State) : sameRegs s (gsyncCaptured s) [R.tbGscap, R.tbGscap + 4, R.tbStat] :=
  sameRegs_trans (sameRegs_of_regs (t := { s with time := { s.time with capAt := some s.time.lamp } }) rfl _)
    (sameRegs_trans (sameRegs_mono (sameRegs_wr64 _ _ _) (by simp)) (sameRegs_raise _ 2 (by simp)))

theorem gsyncPulse_due {per : Nat} (hper : per = 1000 * getF s R.tbCtl 15 0) (hon : flag s R.tbCtl 31 = true) (hpos : per ≠ 0)
    (hnow : nowNs s % per < 100) (hnew : s.time.pulse ≠ nowNs s / per * per) :
    gsyncPulse s = { s with
      time := { s.time with pulse := nowNs s / per * per }
      out := s.out ++ [.pin "GSYNC_OUT" true] ++ [.pin "GSYNC_OUT" false] } := by
  subst hper
  have hgo : (!flag s R.tbCtl 31 || 1000 * getF s R.tbCtl 15 0 == 0 || decide (100 ≤ nowNs s % (1000 * getF s R.tbCtl 15 0)) ||
      s.time.pulse == nowNs s / (1000 * getF s R.tbCtl 15 0) * (1000 * getF s R.tbCtl 15 0)) = false := by
    simp only [hon, beq_false_of_ne hpos, beq_false_of_ne hnew, Nat.not_le.2 hnow, decide_false, Bool.not_true, Bool.or_self]
  simp only [gsyncPulse, hgo, Bool.false_eq_true, if_false]
  rfl

end Sys2Proof.Machine

open Sys2Proof Sys2Proof.Machine

/-- Settles O51: what a burst sends leaves the gang, the stores and the time base as they are (`onlySent_sendBurst`), and each
other event is one change of state (`tsyncBurstFrame_first`, `gangState_takenOver`, `gsyncCapture_apart`, `gsyncPulse_due`). -/
theorem gangBursts : Obligations.GangBursts := by
  unfold Obligations.GangBursts
  intro s hlive
  refine ⟨?send, ?relay, ?first, ?holdover, ?takeover, ?reference, ?capture, ?pulse⟩
  case send =>
    intro ts hsource hdue
    have hexec : exec (.burstSend ts) s = .next (burstSend ts s) := rfl
    have hsent := onlySent_burstSend ts hlive hsource hdue
    have hgang : (burstSend ts s).gang = (burstCounted s).gang := hsent.gang
    refine ⟨_, hexec, by rw [hgang]; rfl, by rw [hgang]; rfl, hsent.comp, hsent.deep, hsent.time, fun hdown => ?_⟩
    rw [burstSend_due ts hlive hsource hdue, sendBurst_down (s := burstCounted s) hdown]
    exact ⟨rfl, rfl⟩
  case relay =>
    intro ts src rest hrelay
    have hexec : exec (.burstRelay ts) s = .next (burstRelay ts s) := rfl
    have hsent := burstRelay_first ts hrelay
    exact ⟨_, hexec, hsent.gang, hsent.comp, hsent.deep, hsent.time⟩
  case first =>
    intro p ts x rest hmir hrx htyp hblen hbseq hchk hgang hnone
    have hexec : exec (.tsyncBurstFrame p ts) s = .next (tsyncBurstFrame p ts s) := rfl
    rw [tsyncBurstFrame_first ts hlive hmir hrx htyp hblen hbseq hchk hgang hnone] at hexec
    exact ⟨_, hexec, rxOf_popRx_cons hrx, rfl, rfl, rfl, rfl, rfl⟩
  case holdover =>
    intro at' hat hlocked hlate
    have hexec : exec .holdoverEnter s = .next (holdoverEnter s) := rfl
    rw [hexec, holdoverEnter_late hat hlocked hlate]
  case takeover =>
    intro ts hrole hlocked hsilent
    have hexec : exec (.standbyTakeover ts) s = .next (standbyTakeover ts s) := rfl
    rw [standbyTakeover_silent ts hlive hrole hlocked hsilent] at hexec
    have hsent := onlySent_burstSend (s := takenOver s) ts ((dead_takenOver s).trans hlive) (gangState_takenOver s) le_rfl
    have hstat : rd (burstSend ts (takenOver s)) R.gngStat = rd (takenOver s) R.gngStat := hsent.rd_gngStat
    obtain ⟨regs, gang, hframe⟩ := burstCounted_takenOver s
    rw [hframe] at hsent
    exact ⟨_, hexec, (getF_congr_rd hstat _ _).trans (gangState_takenOver s),
      (flag_congr_rd hstat _).trans (flag_takenOver_takeover s), (flag_congr_rd hstat _).trans (flag_takenOver_source s),
      hsent.comp, hsent.deep, hsent.time⟩
  case reference =>
    intro hsel hheld
    have hexec : exec .referenceLoss s = .next (referenceLoss s) := rfl
    rw [referenceLoss_lost hsel hheld] at hexec
    exact ⟨_, hexec, rfl, flag_raise_same _ _ (by decide), rfl, sameRegs_trans (sameRegs_of_regs rfl _) (sameRegs_raise _ 0 (by simp))⟩
  case capture =>
    intro hapart hnow
    have hexec : exec .gsyncCapture s = .next (gsyncCapture s) := rfl
    rw [gsyncCapture_apart hapart] at hexec
    exact ⟨_, hexec, rd64_gsyncCaptured hnow, flag_raise_same _ _ (by decide), rfl, rfl, sameRegs_gsyncCaptured s⟩
  case pulse =>
    intro per hper hon hpos hnow hnew
    have hexec : exec .gsyncPulse s = .next (gsyncPulse s) := rfl
    rw [hexec, gsyncPulse_due hper hon hpos hnow hnew]
end

section
/-! PROOFS. Arrivals at barriers and start bells (13 R497 to R499), and their statement. -/

namespace Sys2Proof.Machine

variable {s : State} {p : Pkt} {rest : List Pkt} {b : Nat}

/-- The first element of a list is taken where it meets the test. -/
theorem takeFirst_head {α : Type} {pick : α → Bool} {x : α} {l r : List α} (hl : l = x :: r) (hx : pick x = true) :
    takeFirst pick l = some (x, r) := by
  rw [hl, takeFirst, if_pos hx]

/-! ### Arrivals (R497, R498) -/

/-- Does a barrier's entry refuse an arrival (R498)? -/
def refusesArrival (s : State) (b : Nat) (f : Frame) : Bool :=
  !bit (rd s (R.gngBar0 b)) 31 || bits (rd s (R.gngBar0 b)) 11 0 != f.job || f.len != 1

/-- An arrival that the entry takes counts by where it came from (R497). -/
def arrivalCounted (s : State) (org : Origin) (b : Nat) : State :=
  match org with
  | .port _ => deviceArrival s b
  | .device _ => deviceArrival s b
  | .core _ _ _ _ => localArrival s b
  | .host _ _ _ => localArrival s b
  | .mill _ _ _ _ => localArrival s b
  | .reply _ => localArrival s b

/-- The first arrival delivered is refused or counted. -/
theorem barrierArrival_first (hin : s.inbox = p :: rest) (harrival : isArrival s p.f = true) :
    barrierArrival s = if refusesArrival s (p.f.offset / 16) p.f then bump { s with inbox := rest } R.gngCntBref 1
      else arrivalCounted { s with inbox := rest } p.org (p.f.offset / 16) := by
  simp only [barrierArrival, takeFirst_head (pick := fun p : Pkt => isArrival s p.f) hin harrival]
  rfl

theorem refusesArrival_iff (s : State) (b : Nat) (f : Frame) :
    refusesArrival s b f = true ↔
      bit (rd s (R.gngBar0 b)) 31 = false ∨ bits (rd s (R.gngBar0 b)) 11 0 ≠ f.job ∨ f.len ≠ 1 := by
  rw [refusesArrival, Bool.or_eq_true, Bool.or_eq_true, Bool.not_eq_true', bne_iff_ne, bne_iff_ne, or_assoc]

theorem refusesArrival_eq_false {f : Frame} (hvalid : bit (rd s (R.gngBar0 b)) 31 = true)
    (hjob : bits (rd s (R.gngBar0 b)) 11 0 = f.job) (hlen : f.len = 1) : refusesArrival s b f = false := by
  rw [← Bool.not_eq_true, refusesArrival_iff]
  rintro (hfree | hother | hlong)
  · exact Bool.false_ne_true (hfree.symm.trans hvalid)
  · exact hother hjob
  · exact hlong hlen

theorem localArrival_early (h : (barOf s b).1 + 1 < getF s (R.gngBar0 b) 23 12) :
    localArrival s b = setBar s b ((barOf s b).1 + 1, (barOf s b).2) := by
  simp only [localArrival, if_pos h]

/-- The WRITE with which a device's last local arrival of a round tells the source. -/
def roundWrite (s : State) (b : Nat) (payload : List Byte) : Frame :=
  { Frame.blank with
    typ := 0, cls := 1, dst := sourceEp s, src := getF s R.gngUep 15 0, job := getF s (R.gngBar0 b) 11 0, len := 1,
    offset := 16 * b, tsw := 1, payload := payload }

/-- The last local arrival of a round starts the next count and sends one WRITE. -/
theorem localArrival_last (h : getF s (R.gngBar0 b) 23 12 ≤ (barOf s b).1 + 1) :
    ∃ payload, localArrival s b = { s with
      gang := (setBar s b ((barOf s b).1 + 1 - getF s (R.gngBar0 b) 23 12, (barOf s b).2)).gang
      freeCtr := s.freeCtr + 16
      outbox := s.outbox ++ [⟨s.nextId, roundWrite s b payload, .device 0x7F2⟩]
      nextId := s.nextId + 1 } := by
  simp only [localArrival, if_neg (Nat.not_lt.2 h), sendFrame_eq]
  exact ⟨(freshBytes s 16).1, rfl⟩

/-- T of a round that starts now (R497). -/
def startTime (s : State) (b : Nat) : Nat :=
  24 * ceilDiv (s.time.now + bits (rd s (R.gngBar0 b)) 30 24 * 1000 * 2 ^ 32) (24 * 2 ^ 32)

/-- The start bell of a round. -/
def startBell (s : State) (b : Nat) : Frame :=
  { Frame.blank with
    typ := 6, cls := 3, mc := true, dst := getF s (R.gngBar1 b) 27 16, src := getF s R.gngUep 15 0
    job := bits (rd s (R.gngBar0 b)) 11 0, len := (leBytes 8 (startTime s b) ++ zeros 8).length / 16
    tsw := 6 + 256 * b, payload := leBytes 8 (startTime s b) ++ zeros 8 }

/-- The last device's arrival at the source starts the next count and sends the bell. -/
theorem deviceArrival_last (hsource : gangState s = 4) (h : getF s (R.gngBar1 b) 12 0 ≤ (barOf s b).2 + 1) :
    deviceArrival s b = { s with
      gang := (setBar s b ((barOf s b).1, (barOf s b).2 + 1 - getF s (R.gngBar1 b) 12 0)).gang
      outbox := s.outbox ++ [⟨s.nextId, startBell s b, .device 0x7F1⟩]
      nextId := s.nextId + 1 } := by
  simp only [deviceArrival, hsource, ne_eq, not_true_eq_false, if_false, if_neg (Nat.not_lt.2 h)]
  rfl

/-! ### The start bell (R497, R499) -/

/-- The state that has counted a start bell whose T comes too late for the local write to be certain (R499). -/
def lateCounted (s : State) (f : Frame) : State :=
  if leAt f.payload 0 8 * 2 ^ 32 < s.time.now + 1000 * 2 ^ 32 then raise (bump s R.gngCntLate 1) R.gngStat 6 else s

/-- The local write of T. -/
def startWrite (s : State) (f : Frame) (b : Nat) : Frame :=
  { Frame.blank with
    typ := 0, cls := 1, dst := bits (rd s (R.gngBar2 b)) 15 0, src := getF s R.gngUep 15 0
    job := getF s (R.gngBar0 b) 11 0, len := 1, offset := getF s (R.gngBar3 b) 31 4 * 16
    tally := bits (rd s (R.gngBar2 b)) 31 16, tsw := 1, payload := leBytes 8 (leAt f.payload 0 8) ++ zeros 8 }

theorem sameRegs_lateCounted (s : State) (f : Frame) : sameRegs s (lateCounted s f) [R.gngCntLate, R.gngStat] := by
  unfold lateCounted
  split
  · exact sameRegs_trans (sameRegs_bump _ 1 (by simp)) (sameRegs_raise _ 6 (by simp))
  · exact sameRegs_refl _ _

theorem rd_lateCounted (f : Frame) {off : Nat} (hcnt : off ≠ R.gngCntLate) (hstat : off ≠ R.gngStat) :
    rd (lateCounted s f) off = rd s off :=
  sameRegs_lateCounted s f off (by simp [hcnt, hstat])

theorem lateCounted_frame (s : State) (f : Frame) : ∃ regs, lateCounted s f = { s with regs := regs } := by
  unfold lateCounted
  split <;> exact ⟨_, rfl⟩

/-- A late start bell sets its flag and is counted. -/
theorem lateCounted_late {f : Frame} (h : leAt f.payload 0 8 * 2 ^ 32 < s.time.now + 1000 * 2 ^ 32) :
    flag (lateCounted s f) R.gngStat 6 = true ∧
      rd (lateCounted s f) R.gngCntLate = min (2 ^ 32 - 1) (rd s R.gngCntLate % 2 ^ 32 + 1) := by
  rw [lateCounted, if_pos h]
  exact ⟨flag_raise_same _ _ (by decide), by rw [rd_raise_ne _ _ (by decide), rd_bump_same]⟩

theorem lateCounted_early {f : Frame} (h : s.time.now + 1000 * 2 ^ 32 ≤ leAt f.payload 0 8 * 2 ^ 32) : lateCounted s f = s :=
  if_neg (Nat.not_lt.2 h)

/-- The first start bell delivered for a VALID entry makes the local write. -/
theorem barrierStartBell_valid (hin : s.inbox = p :: rest) (htyp : p.f.typ = 6) (hcode : p.f.code = 6)
    (hb : b = p.f.arg % 64) (hvalid : flag s (R.gngBar0 b) 31 = true) :
    barrierStartBell s = sendFrame (lateCounted { s with inbox := rest } p.f) (.device 0x7F2)
      (startWrite (lateCounted { s with inbox := rest } p.f) p.f b) := by
  subst hb
  have hpick : (p.f.typ == 6 && p.f.code == 6) = true := by simp [htyp, hcode]
  have hvalid' : flag { s with inbox := rest } (R.gngBar0 (p.f.arg % 64)) 31 = true := hvalid
  have hdst : rd (lateCounted { s with inbox := rest } p.f) (R.gngBar2 (p.f.arg % 64)) =
      rd { s with inbox := rest } (R.gngBar2 (p.f.arg % 64)) :=
    rd_lateCounted _ (by unfold R.gngBar2 R.gngCntLate; omega) (by unfold R.gngBar2 R.gngStat; omega)
  simp only [barrierStartBell, takeFirst_head (pick := fun p : Pkt => p.f.typ == 6 && p.f.code == 6) hin hpick, hvalid',
    Bool.not_true, Bool.false_eq_true, if_false, startWrite, hdst]
  rfl

end Sys2Proof.Machine

open Sys2Proof Sys2Proof.Machine

/-- Settles O52: an arrival is refused or counted (`barrierArrival_first`), the last of a round sends one frame
(`localArrival_last`, `deviceArrival_last`), and a start bell makes one write (`barrierStartBell_valid`). -/
theorem barriers : Obligations.Barriers := by
  unfold Obligations.Barriers
  refine ⟨?arrival, ?start⟩
  case arrival =>
    intro s p rest b hin harrival hb
    have hexec : exec .barrierArrival s = .next (barrierArrival s) := rfl
    rw [barrierArrival_first hin harrival, ← hb] at hexec
    refine ⟨fun hrefused => ?refused, fun hvalid hjob hlen => ?taken⟩
    case refused =>
      rw [if_pos ((refusesArrival_iff s b p.f).2 hrefused)] at hexec
      exact ⟨_, hexec, rfl, rd_bump_same _ _ _, rfl, sameRegs_trans (sameRegs_of_regs rfl _) (sameRegs_bump _ 1 (by simp))⟩
    case taken =>
      rw [refusesArrival_eq_false hvalid hjob hlen, if_neg Bool.false_ne_true] at hexec
      refine ⟨fun core fn l c horg => ⟨fun hearly => ?early, fun hlast => ?last⟩, fun a horg hsource hlast => ?device⟩
      case early =>
        rw [horg, arrivalCounted, localArrival_early (s := { s with inbox := rest }) hearly] at hexec
        exact ⟨_, hexec, barOf_setBar_same _ _ _, rfl⟩
      case last =>
        obtain ⟨payload, hround⟩ := localArrival_last (s := { s with inbox := rest }) hlast
        rw [horg, arrivalCounted, hround] at hexec
        exact ⟨_, _, hexec, barOf_setBar_same { s with inbox := rest } _ _, rfl, rfl, rfl, rfl, rfl, rfl, hjob, rfl, rfl, rfl⟩
      case device =>
        rw [horg, arrivalCounted, deviceArrival_last (s := { s with inbox := rest }) hsource hlast] at hexec
        exact ⟨_, _, hexec, barOf_setBar_same { s with inbox := rest } _ _, rfl, rfl, rfl, rfl, rfl, rfl, rfl, rfl, rfl⟩
  case start =>
    intro s p rest b hin htyp hcode hb hvalid
    have hlow : b < 64 := by omega
    have hexec : exec .barrierStartBell s = .next (barrierStartBell s) := rfl
    rw [barrierStartBell_valid hin htyp hcode hb hvalid] at hexec
    have hbar2 : rd (lateCounted { s with inbox := rest } p.f) (R.gngBar2 b) = rd s (R.gngBar2 b) :=
      rd_lateCounted (s := { s with inbox := rest }) _ (by unfold R.gngBar2 R.gngCntLate; omega)
        (by unfold R.gngBar2 R.gngStat; omega)
    have hbar3 : rd (lateCounted { s with inbox := rest } p.f) (R.gngBar3 b) = rd s (R.gngBar3 b) :=
      rd_lateCounted (s := { s with inbox := rest }) _ (by unfold R.gngBar3 R.gngCntLate; omega)
        (by unfold R.gngBar3 R.gngStat; omega)
    have hlate := lateCounted_late (s := { s with inbox := rest }) (f := p.f)
    have hearly := lateCounted_early (s := { s with inbox := rest }) (f := p.f)
    have hsame : sameRegs s (lateCounted { s with inbox := rest } p.f) [R.gngCntLate, R.gngStat] :=
      sameRegs_trans (sameRegs_of_regs (t := { s with inbox := rest }) rfl _) (sameRegs_lateCounted _ _)
    obtain ⟨regs, hframe⟩ := lateCounted_frame { s with inbox := rest } p.f
    generalize lateCounted { s with inbox := rest } p.f = u at hexec hbar2 hbar3 hlate hearly hsame hframe
    have hwas : rd { s with inbox := rest } R.gngCntLate = rd s R.gngCntLate := rfl
    have hregs : (sendFrame u (.device 0x7F2) (startWrite u p.f b)).regs = u.regs := sendFrame_regs _ _ _
    refine ⟨_, ⟨u.nextId, startWrite u p.f b, .device 0x7F2⟩, hexec, by rw [hframe]; rfl, by rw [hframe]; rfl, rfl,
      congrArg (bits · 15 0) hbar2, congrArg (bits · 31 16) hbar2, rfl, congrArg (bits · 31 4 * 16) hbar3, rfl,
      fun h => ?late, fun h => ?early, sameRegs_trans hsame (sameRegs_of_regs hregs _), by rw [hframe]; rfl, by rw [hframe]; rfl⟩
    case late =>
      obtain ⟨hflag, hcount⟩ := hlate h
      refine ⟨(flag_congr_regs hregs _ _).trans hflag, ?_⟩
      rw [sameRegs_of_regs hregs [] _ List.not_mem_nil, hcount, hwas]
    case early => rw [hregs, hearly h]
end

section
/-! PROOFS. The registers in which the close of a port's circuits shows (07 R254, R268, R366; 08 R321, R324; 11 R444; 18 R651). -/

namespace Sys2Proof.Machine

variable {s t : State}

/-! ### Lists that stop and streams that trap (R651) -/

theorem stopSeq_regs (s : State) (core fn st : Nat) (pick : Launch → Bool) : (stopSeq s core fn st pick).regs = s.regs := by
  have hreports (l : List Launch) (u : State) : (l.foldl (fun s x => reportList s x st 0xFFFF FpFlags.none) u).regs = u.regs := by
    induction l generalizing u with
    | nil => rfl
    | cons x l ih => exact ih _
  have hend : (endList s core fn st 0xFFFF).regs = s.regs := by rw [endList_frame]
  unfold stopSeq
  dsimp only
  rw [hreports, setSeq_regs]
  split
  · rfl
  · split
    · exact hend
    · rfl

theorem stopLists_regs (s : State) (st : Nat) (pick : Nat → Nat → Launch → Bool) : (stopLists s st pick).regs = s.regs :=
  List.foldlRecOn (motive := fun t : State => t.regs = s.regs) (seqKeys s) _ rfl fun _ ht _ _ => (stopSeq_regs _ _ _ _ _).trans ht

theorem alertLow_regs (s : State) : (alertLow s).regs = s.regs := by
  unfold alertLow
  split <;> rfl

/-- The registers in which traps show. -/
def trapRegs : List Nat := [R.milStat, R.milTrap, R.milTrap + 4]

theorem sameRegs_trapAllStreams (s : State) : sameRegs s (trapAllStreams s) trapRegs :=
  sameRegs_foldl (fun t m => sameRegs_foldl (fun u n => sameRegs_trapStream u m n 13 _) (validStreams t m) t) _ s

theorem sameRegs_faultBells (s : State) (cause unit : Nat) (jobs : List Nat) (offs : List Nat) :
    sameRegs s (faultBells s cause unit jobs) offs :=
  sameRegs_foldl (fun t job => sameRegs_faultBell t cause unit job offs) jobs s

/-- A device fault shows in `GLB_FAULT` and in the traps' registers. -/
theorem sameRegs_deviceFault (s : State) (cause unit : Nat) : sameRegs s (deviceFault s cause unit) (R.glbFault :: trapRegs) := by
  unfold deviceFault
  dsimp only
  split
  · exact sameRegs_refl s _
  · have hpin (u : State) : (if flag u R.mgtCtl 0 then emit u (.pin "FAULT_N" false) else u).regs = u.regs := by
      split <;> rfl
    refine sameRegs_trans ?_ (sameRegs_faultBells _ _ _ _ _)
    refine sameRegs_trans ?_ (sameRegs_mono (sameRegs_trapAllStreams _) (List.subset_cons_self _ _))
    refine sameRegs_trans (t := wr s R.glbFault (2 ^ 31 + 256 * unit + cause)) (sameRegs_wr s _ List.mem_cons_self)
      (sameRegs_of_regs ?_ _)
    rw [stopLists_regs, alertLow_regs, hpin]

/-! ### Copies of a frame (R254 to R290) -/

/-- The copies that are bound for a mill are bound for one of the device's. -/
def boundForMills (cs : List Copy) : Prop := ∀ c ∈ cs, ∀ m, c.mill = some m → m < 16

theorem boundForMills_of_none {cs : List Copy} (h : ∀ c ∈ cs, c.mill = none) : boundForMills cs := by
  intro c hc m hm
  rw [h c hc] at hm
  cases hm

theorem boundForMills_singleton {c : Copy} (h : c.mill = none) : boundForMills [c] :=
  boundForMills_of_none fun _ hc => List.mem_singleton.1 hc ▸ h

theorem boundForMills_nil : boundForMills [] := boundForMills_of_none fun _ hc => absurd hc List.not_mem_nil

/-- A copy for a port is bound for no mill. -/
theorem mill_portTgt (f : Frame) (p : Nat) (h : Frame) (c : Option Nat) : Copy.mill ⟨portTgt f p, h, c⟩ = none := by
  unfold portTgt
  split <;> rfl

theorem mill_groupLocal {g : Nat} {f : Frame} {c : Copy} (h : c ∈ groupLocal s g f) : c.mill = none := by
  unfold groupLocal at h
  split at h
  · rw [List.mem_singleton.1 h]; rfl
  · split at h
    · exact absurd h List.not_mem_nil
    · split at h
      · rw [List.mem_singleton.1 h]; rfl
      · split at h
        · obtain ⟨d, -, rfl⟩ := List.mem_map.1 h
          rfl
        · rw [List.mem_singleton.1 h]; rfl

theorem mill_galleryCopy {bank dim c : Nat} {f : Frame} {x : Copy} (h : galleryCopy s bank dim f c = some (some x)) :
    x.mill = none := by
  unfold galleryCopy at h
  split at h
  · cases h
  · split at h
    · cases h
      exact mill_portTgt _ _ _ _
    · obtain ⟨r, -, hr⟩ := Option.map_eq_some_iff.1 (Option.some.inj h)
      rw [← hr]
      exact mill_portTgt _ _ _ _

/-- The lookup of a multicast frame names no mill (R285 to R290). -/
theorem boundForMills_multicast {bank : Nat} {f : Frame} {arr : Option Nat} (hmc : f.mc = true) :
    boundForMills (lookup s bank f arr).copies := by
  refine boundForMills_of_none fun c hc => ?_
  unfold lookup at hc
  rw [if_pos hmc] at hc
  dsimp only at hc
  split at hc
  · split at hc
    · rcases List.mem_append.1 hc with hgallery | hlocal
      · obtain ⟨x, hx, hid⟩ := List.mem_filterMap.1 hgallery
        obtain ⟨k, -, hk⟩ := List.mem_filterMap.1 hx
        rw [show x = some c from hid] at hk
        exact mill_galleryCopy hk
      · exact mill_groupLocal hlocal
    · split at hc
      · split at hc
        · split at hc
          · rw [List.mem_singleton.1 hc]
            exact mill_portTgt _ _ _ _
          · exact absurd hc List.not_mem_nil
        · exact absurd hc List.not_mem_nil
      · exact mill_groupLocal hc
  · rcases List.mem_append.1 hc with hport | hlocal
    · obtain ⟨p, -, rfl⟩ := List.mem_map.1 hport
      exact mill_portTgt _ _ _ _
    · exact mill_groupLocal hlocal

/-- The lookup of a unicast frame names the mill of its route entry's LUNIT (R259). -/
theorem boundForMills_unicast {bank : Nat} {f : Frame} {arr : Option Nat} (hmc : f.mc = false) :
    boundForMills (lookup s bank f arr).copies := by
  unfold lookup
  rw [hmc, if_neg Bool.false_ne_true]
  dsimp only
  split
  · split
    · split
      · exact boundForMills_singleton rfl
      · split <;> exact boundForMills_singleton rfl
    · split
      · intro c hc m hm
        rw [List.mem_singleton.1 hc] at hm
        obtain rfl : rtUnit (routeOf s bank f.dst) = m := Option.some.inj hm
        exact Nat.mod_lt _ (by decide)
      · split <;> exact boundForMills_singleton rfl
  · split
    · exact boundForMills_singleton (mill_portTgt _ _ _ _)
    · exact boundForMills_nil

theorem boundForMills_routeFrame (s : State) (bank : Nat) (f : Frame) (arr : Option Nat) :
    boundForMills (routeFrame s bank f arr).copies := by
  unfold routeFrame
  dsimp only
  split
  · exact boundForMills_nil
  · cases hmc : f.mc
    · exact boundForMills_unicast hmc
    · exact boundForMills_multicast hmc

/-! ### Frames that go on (R361) -/

/-- The registers in which a frame that goes on through the lookup shows. -/
def forwardRegs : List Nat :=
  [R.fabCntHops, R.fabCntUnreach, R.fabStat, R.swqCntSump, R.swqCntOvercap, R.swqStat, R.glbFault, R.milStat, R.milTrap,
    R.milTrap + 4] ++ (List.range 16).map fun m => R.milCnt m 5

theorem sameRegs_putCopy (s : State) (uid : Nat) (org : Origin) (c : Copy) : sameRegs s (putCopy s uid org c).1 forwardRegs := by
  have hfault : sameRegs s (deviceFault s 0x05 0) forwardRegs :=
    sameRegs_mono (sameRegs_deviceFault s 0x05 0) (by decide)
  have hsump (sp : Bool) : sameRegs s (if sp then bump s R.swqCntSump 1 else s) forwardRegs := by
    split
    · exact sameRegs_bump s 1 (by decide)
    · exact sameRegs_refl s _
  unfold putCopy
  split
  · split
    · exact sameRegs_trans (hsump _) (sameRegs_of_regs rfl _)
    · exact hfault
  · split
    · exact sameRegs_trans (hsump _) (sameRegs_of_regs rfl _)
    · exact hfault
  all_goals exact sameRegs_of_regs rfl _

theorem sameRegs_unreachable (s : State) (job n : Nat) : sameRegs s (unreachable s job n) forwardRegs :=
  sameRegs_foldl (fun t _ => sameRegs_trans (sameRegs_trans (sameRegs_bump t 1 (by decide)) (sameRegs_raise _ 5 (by decide)))
    (sameRegs_faultBell _ _ _ _ _)) _ s

/-- One copy that is placed, or waits for its control queue. -/
theorem sameRegs_transitPut (s : State) (uid : Nat) (org : Origin) {cs : List Copy} (hcs : boundForMills cs) :
    sameRegs s (transitPut s uid org cs) forwardRegs := by
  unfold transitPut
  extract_lets placed
  have hplaced : sameRegs s placed.1 forwardRegs := by
    refine List.foldlRecOn (motive := fun acc : State × Bool => sameRegs s acc.1 forwardRegs) cs _ (sameRegs_refl s _) ?_
    intro acc hacc c hc
    dsimp only
    split
    · exact sameRegs_trans hacc (sameRegs_of_regs rfl _)
    · have hput := sameRegs_trans hacc (sameRegs_putCopy acc.1 uid org c)
      split
      next m hm =>
        have hcnt : R.milCnt m 5 ∈ forwardRegs :=
          List.mem_append_right _ (List.mem_map.2 ⟨m, List.mem_range.2 (hcs c hc m hm), rfl⟩)
        split
        · exact sameRegs_trans hput (sameRegs_trans (sameRegs_bump _ 1 hcnt) (sameRegs_raise _ 2 (by decide)))
        · exact hput
      next => exact hput
  split
  · exact sameRegs_trans hplaced (sameRegs_trans (sameRegs_bump _ 1 (by decide)) (sameRegs_raise _ 1 (by decide)))
  · exact hplaced

theorem sameRegs_forward (s : State) (uid : Nat) (org : Origin) (f : Frame) (arr : Option Nat) :
    sameRegs s (forward s uid org f arr) forwardRegs := by
  unfold forward
  dsimp only
  split
  · exact sameRegs_doorCount s 3 (by decide) (by decide)
  · exact sameRegs_trans (sameRegs_unreachable _ _ _) (sameRegs_transitPut _ _ _ (boundForMills_routeFrame _ _ _ _))

/-! ### Circuits that close (08 R321, R324) -/

/-- The registers in which the close of circuits shows. -/
def closeRegs : List Nat := [R.cirCntFallback, R.cirStat] ++ forwardRegs

theorem sameRegs_fallBackOn (s : State) (e : QEntry) : sameRegs s (fallBackOn s e) closeRegs := by
  have hcounted : sameRegs s (fallBack s e).1 closeRegs :=
    sameRegs_trans (sameRegs_bump s 1 (by decide)) (sameRegs_raise _ 3 (by decide))
  have hnamed : sameRegs s (newId (fallBack s e).1).2 closeRegs := sameRegs_trans hcounted (sameRegs_of_regs rfl _)
  exact sameRegs_trans hnamed (sameRegs_mono (sameRegs_forward _ _ _ _ _) (List.subset_append_right _ _))

theorem sameRegs_closeCid (s : State) (cid st : Nat) : sameRegs s (closeCid s cid st) closeRegs := by
  have hopens : (endOpens (setCir s cid 0) cid st).regs = s.regs := by
    rw [endOpens_eq]
    rfl
  have hcloses (u : State) : (endCloses u cid 0).regs = u.regs := by rw [endCloses_eq]
  have hempty (u : State) : sameRegs u (emptySource u cid) closeRegs :=
    sameRegs_trans (sameRegs_of_regs (setSrcq_regs u cid []) _) (sameRegs_foldl sameRegs_fallBackOn _ _)
  exact sameRegs_trans (sameRegs_trans (sameRegs_of_regs hopens _) (hempty _)) (sameRegs_of_regs (hcloses _) _)

/-- A port that closes its circuits shows in the registers of what falls back and goes on. -/
theorem sameRegs_closeOnPort (s : State) (p : Nat) : sameRegs s (closeOnPort s p) closeRegs := by
  have hbell (t u : State) (port code cid : Nat) (h : sameRegs t u closeRegs) :
      sameRegs t (sendCirBell u port code cid 9) closeRegs := sameRegs_trans h (sameRegs_of_regs (sendCirBell_regs _ _ _ _ _) _)
  refine sameRegs_foldl (fun t cid => ?_) _ s
  dsimp only
  split
  · exact sameRegs_refl t _
  · split
    · split
      · exact hbell _ _ _ _ _ (sameRegs_closeCid t cid 9)
      · exact hbell _ _ _ _ _ (sameRegs_closeCid t cid 9)
    · exact sameRegs_closeCid t cid 9

end Sys2Proof.Machine
end

section
/-! PROOFS. O15: gang and bond writes, and claims of shared resources (13 R487, R494; 17 R613, R630). -/

namespace Sys2Proof.Machine

variable {s t : State}

/-! ### Registers whose fields are all RW-L (00 R17) -/

/-- Fields of the first word of a register that take what is written before the lock. -/
def allTaken (fs : List FieldRow) : Prop := ∀ f ∈ fs, f.acc = .rwl ∧ f.lo ≤ f.hi ∧ f.hi < 32

/-- Does a field cover a bit? -/
def fieldsCover (fs : List FieldRow) (i : Nat) : Bool := fs.any fun f => decide (f.lo ≤ i ∧ i ≤ f.hi)

/-- Before the lock the bits that the fields cover are those written, and the others stay. -/
theorem bit_write_allTaken (base words : Nat) (dims : List (Nat × Nat)) (old v i : Nat) (fs : List FieldRow)
    (h : allTaken fs) :
    bit (RegRow.write ⟨base, dims, words, fs⟩ 0 false old v) i = if fieldsCover fs i then bit v i else bit old i := by
  induction fs using List.reverseRecOn with
  | nil => rfl
  | append_singleton fs f ih =>
    obtain ⟨hacc, hle, hlt⟩ := h f (List.mem_append_right _ (List.mem_singleton.2 rfl))
    have hfield : FieldRow.inWord f 0 = some (f.hi, f.lo, 0) := by
      simp [FieldRow.inWord, show ¬ 31 < f.lo by omega, show f.hi ≤ 31 by omega]
    have hwrite : RegRow.write ⟨base, dims, words, fs ++ [f]⟩ 0 false old v =
        setBits (RegRow.write ⟨base, dims, words, fs⟩ 0 false old v) f.hi f.lo (bits v f.hi f.lo) := by
      simp only [RegRow.write, List.foldl_concat, hfield, hacc]
      rfl
    rw [hwrite, bit_setBits_bits _ _ _ hle, ih fun g hg => h g (List.mem_append_left _ hg)]
    by_cases hin : f.lo ≤ i ∧ i ≤ f.hi
    · simp [fieldsCover, hin]
    · simp [fieldsCover, hin]

theorem bits_congr {w w' hi lo : Nat} (h : ∀ i, lo ≤ i → i ≤ hi → bit w i = bit w' i) : bits w hi lo = bits w' hi lo := by
  refine eq_of_bit_eq fun i => ?_
  rw [bit_bits, bit_bits]
  by_cases hin : i < hi + 1 - lo
  · rw [h (lo + i) (by omega) (by omega)]
  · simp [hin]

/-- A bit that a field covers is as written. -/
theorem bit_write_of_cover {r : RegRow} (old v : Nat) {i : Nat} (h : allTaken r.fields) (hc : fieldsCover r.fields i = true) :
    bit (RegRow.write r 0 false old v) i = bit v i :=
  (bit_write_allTaken r.base r.words r.dims old v i r.fields h).trans (if_pos hc)

/-- A range of bits that the fields cover is as written. -/
theorem bits_write_of_cover {r : RegRow} (old v : Nat) {hi lo : Nat} (h : allTaken r.fields)
    (hc : ∀ i, i ≤ hi → lo ≤ i → fieldsCover r.fields i = true) : bits (RegRow.write r 0 false old v) hi lo = bits v hi lo :=
  bits_congr fun i hlo hhi => bit_write_of_cover old v h (hc i hhi hlo)

/-! ### The gang's EN (R487) -/

/-- The row of `GNG_CTL`. -/
def gngCtlRow : RegRow :=
  ⟨R.gngCtl, [], 1, [⟨31, 31, .rwl, 0⟩, ⟨29, 28, .rwl, 0⟩, ⟨27, 24, .rwl, 8⟩, ⟨23, 16, .rwl, 0xA⟩, ⟨11, 0, .rwl, 0⟩]⟩

theorem exec_gangEnable (v : Word) (hl : locked s = false) :
    ∃ x, exec (.gangEnable v) s =
      .next (writeGng false { s with held := x } R.gngCtl (RegRow.write gngCtlRow 0 false (rd s R.gngCtl) v.toNat)).1 := by
  have hrow : regAt R.gngCtl = some (gngCtlRow, 0) := by decide +kernel
  have hexec : exec (.gangEnable v) s = .next (bar0Write false R.gngCtl v.toNat s).1 := rfl
  obtain ⟨x, hwrite⟩ := bar0Write_open v.toNat hrow rfl hl
  rw [hexec, hwrite]
  exact ⟨x, rfl⟩

/-- What a write of `GNG_CTL` leaves of ROLE, PER and the window, and of EN. -/
theorem bits_gngCtlRow (old v : Nat) :
    bit (RegRow.write gngCtlRow 0 false old v) 31 = bit v 31 ∧
    bits (RegRow.write gngCtlRow 0 false old v) 29 28 = bits v 29 28 ∧
    bits (RegRow.write gngCtlRow 0 false old v) 27 24 = bits v 27 24 ∧
    bits (RegRow.write gngCtlRow 0 false old v) 23 16 = bits v 23 16 := by
  have hall : allTaken gngCtlRow.fields := by unfold allTaken; decide
  exact ⟨bit_write_of_cover old v hall (by decide), bits_write_of_cover old v hall (by decide),
    bits_write_of_cover old v hall (by decide), bits_write_of_cover old v hall (by decide)⟩

/-- A word that `GNG_CTL` may take. -/
theorem writeGng_gngCtl_ok {new : Nat} (hrole : bits new 29 28 ≠ 3) (hper : 2 ≤ bits new 27 24) (hwin : 2 ≤ bits new 23 16)
    (hwin' : bits new 23 16 ≤ 50) :
    (writeGng false s R.gngCtl new).1 = gangWritten (wr s R.gngCtl new) (flag s R.gngCtl 31) := by
  have hper' : bits new 27 24 ≤ 15 := Nat.le_of_lt_succ (Nat.mod_lt _ (by decide))
  have hok : ¬ (bits new 29 28 = 3 ∨ (!between 2 15 (bits new 27 24)) = true ∨ (!between 2 50 (bits new 23 16)) = true) := by
    simp [between, hrole, hper, hper', hwin, hwin']
  rw [writeGng, if_pos rfl, if_neg hok]

/-- As EN of the gang rises, its state and HOLDOVER's flag are set (Table DET-1). -/
theorem gangWritten_rises (hon : flag s R.gngCtl 31 = true) :
    (gangWritten s false).gang.burstAt = none ∧ (gangWritten s false).regs =
      (setF (setGang s (if getF s R.gngCtl 29 28 = 1 then 4 else 1)) R.gngStat 3 3 0).regs := by
  unfold gangWritten
  simp only [hon]
  exact ⟨rfl, rfl⟩

/-- The gang's registers as EN rises. -/
theorem gngStat_entered {st : Nat} (hst : st < 8) :
    gangState (setF (setGang s st) R.gngStat 3 3 0) = st ∧ flag (setF (setGang s st) R.gngStat 3 3 0) R.gngStat 3 = false := by
  constructor
  · calc gangState (setF (setGang s st) R.gngStat 3 3 0) = getF (setGang s st) R.gngStat 2 0 :=
        getF_setF_apart _ _ _ le_rfl (.inl (by decide)) (by decide)
      _ = st % 2 ^ (2 + 1 - 0) := getF_setF_same _ _ _ (by decide) (by decide)
      _ = st := Nat.mod_eq_of_lt hst
  · rw [flag_setF_same _ _ _ le_rfl (by decide)]
    rfl

theorem gangEnable_rises (v : Word) (hl : locked s = false) (hrole : bits v.toNat 29 28 ≠ 3) (hper : 2 ≤ bits v.toNat 27 24)
    (hwin : 2 ≤ bits v.toNat 23 16) (hwin' : bits v.toNat 23 16 ≤ 50) (hen : bit v.toNat 31 = true)
    (hoff : flag s R.gngCtl 31 = false) :
    ∃ t : State, exec (.gangEnable v) s = .next t ∧ flag t R.gngCtl 31 = true ∧
      gangState t = (if bits v.toNat 29 28 = 1 then 4 else 1) ∧ flag t R.gngStat 3 = false ∧ t.gang.burstAt = none ∧
      sameRegs s t [R.gngCtl, R.gngStat] := by
  obtain ⟨x, hexec⟩ := exec_gangEnable v hl
  obtain ⟨hnewEn, hnewRole, hnewPer, hnewWin⟩ := bits_gngCtlRow (rd s R.gngCtl) v.toNat
  generalize RegRow.write gngCtlRow 0 false (rd s R.gngCtl) v.toNat = new at hexec hnewEn hnewRole hnewPer hnewWin
  have hwas : flag { s with held := x } R.gngCtl 31 = false := hoff
  have hon : flag (wr { s with held := x } R.gngCtl new) R.gngCtl 31 = true := by
    rw [flag_wr_same _ _ _ (by decide), hnewEn, hen]
  obtain ⟨hburst, hregs⟩ := gangWritten_rises hon
  rw [getF_wr_same _ _ _ (by decide), hnewRole] at hregs
  rw [writeGng_gngCtl_ok (hnewRole ▸ hrole) (hnewPer ▸ hper) (hnewWin ▸ hwin) (hnewWin ▸ hwin'), hwas] at hexec
  generalize hst : (if bits v.toNat 29 28 = 1 then 4 else 1) = st at hregs ⊢
  have hst8 : st < 8 := by subst hst; split <;> decide
  have hwr : sameRegs s (wr { s with held := x } R.gngCtl new) [R.gngCtl, R.gngStat] := sameRegs_wr _ _ List.mem_cons_self
  generalize wr { s with held := x } R.gngCtl new = u at hexec hon hburst hregs hwr
  have hctl : rd (setF (setGang u st) R.gngStat 3 3 0) R.gngCtl = rd u R.gngCtl :=
    (rd_setF_ne _ _ _ _ (by decide)).trans (rd_setF_ne _ _ _ _ (by decide))
  obtain ⟨hstate, hflag⟩ := gngStat_entered (s := u) hst8
  have hmem : R.gngStat ∈ [R.gngCtl, R.gngStat] := List.mem_cons_of_mem _ List.mem_cons_self
  refine ⟨_, hexec, ?_, (getF_congr_regs hregs _ _ _).trans hstate, (flag_congr_regs hregs _ _).trans hflag, hburst, ?_⟩
  · rw [flag_congr_regs hregs, flag_congr_rd hctl, hon]
  · exact sameRegs_trans hwr (sameRegs_trans (sameRegs_trans (sameRegs_setF u 2 0 st hmem) (sameRegs_setF _ 3 3 0 hmem))
      (sameRegs_of_regs hregs _))

/-! ### Bonds (R494, R495) -/

/-- The row of `GNG_BOND`. -/
def gngBondRow : RegRow := ⟨R.gngBond 0, [(8, 4)], 1, [⟨31, 31, .rwl, 0⟩, ⟨9, 8, .rwl, 0⟩, ⟨5, 0, .rwl, 0⟩]⟩

theorem regAt_gngBond : ∀ b : Fin 8, regAt (R.gngBond b) = some (gngBondRow, 0) := by decide +kernel

theorem write32_gngBond (s : State) (b : Fin 8) (v new : Nat) :
    write32 false s (R.gngBond b) v new = writeBond false s b new := by
  revert b
  simp only [Fin.forall_fin_succ]
  refine ⟨rfl, rfl, rfl, rfl, rfl, rfl, rfl, rfl, fun i => i.elim0⟩

theorem exec_bondWrite (b : Fin 8) (v : Word) (hl : locked s = false) :
    ∃ x, exec (.bondWrite b v) s = .next
      (writeBond false { s with held := x } b (RegRow.write gngBondRow 0 false (rd s (R.gngBond b)) v.toNat)).1 := by
  have hexec : exec (.bondWrite b v) s = .next (bar0Write false (R.gngBond b) v.toNat s).1 := rfl
  obtain ⟨x, hwrite⟩ := bar0Write_open v.toNat (regAt_gngBond b) rfl hl
  rw [hexec, hwrite, write32_gngBond]
  exact ⟨x, rfl⟩

/-- Two words that name the same bond: EN, the count and BASE agree. -/
def sameBond (w w' : Nat) : Prop := bit w 31 = bit w' 31 ∧ bits w 9 8 = bits w' 9 8 ∧ bits w 5 0 = bits w' 5 0

theorem sameBond_write (old v : Nat) : sameBond (RegRow.write gngBondRow 0 false old v) v := by
  have hall : allTaken gngBondRow.fields := by unfold allTaken; decide
  exact ⟨bit_write_of_cover old v hall (by decide), bits_write_of_cover old v hall (by decide),
    bits_write_of_cover old v hall (by decide)⟩

theorem sameBond_trans {a b c : Nat} (hab : sameBond a b) (hbc : sameBond b c) : sameBond a c := by
  obtain ⟨hen, hcount, hbase⟩ := hab
  obtain ⟨hen', hcount', hbase'⟩ := hbc
  exact ⟨hen.trans hen', hcount.trans hcount', hbase.trans hbase'⟩

theorem sameBond_mod (w : Nat) : sameBond (w % 2 ^ 32) w :=
  ⟨(bit_mod_two_pow _ _ _).trans (by simp), bits_mod_two_pow w (by decide), bits_mod_two_pow w (by decide)⟩

/-- Whether a bond may take a word depends on the bond that the word names. -/
theorem bondOk_congr (s : State) (b : Nat) {w w' : Nat} (h : sameBond w w') : bondOk s b w = bondOk s b w' := by
  obtain ⟨hen, hcount, hbase⟩ := h
  simp only [bondOk, bondRange, hen, hcount, hbase]

/-- The word of a bond that does not name it has no member. -/
theorem bondOk_off (s : State) (b : Nat) {w : Nat} (h : bit w 31 = false) : bondOk s b w = true := by
  simp [bondOk, h]

/-- A bond names ports below 72, whatever its word. -/
theorem lt_of_mem_bondRange {w p : Nat} (h : p ∈ bondRange w) : p < 72 := by
  unfold bondRange at h
  split at h
  · obtain ⟨-, hlt⟩ := mem_upto.1 h
    have hbase : bits w 5 0 < 2 ^ 6 := Nat.mod_lt _ (by decide)
    have hcount : 2 ^ bits w 9 8 ≤ 2 ^ 3 :=
      Nat.pow_le_pow_right (by decide) (Nat.le_of_lt_succ (Nat.mod_lt _ (by decide)))
    omega
  · exact absurd h List.not_mem_nil

theorem mem_bondRange_of_mem_bondPorts {b p : Nat} (h : p ∈ bondPorts s b) : p ∈ bondRange (rd s (R.gngBond b)) := by
  unfold bondPorts at h
  dsimp only at h
  unfold bondRange
  split at h
  next hen =>
    rw [if_pos hen]
    exact List.mem_of_mem_filter h
  next => exact absurd h List.not_mem_nil

/-- The pad of a port lies apart from the fields of a bond, even where a port that the device does not have shares its register. -/
theorem sameBond_setPad (s : State) (b p : Nat) : sameBond (rd (setPad s p) (R.gngBond b)) (rd s (R.gngBond b)) := by
  have hpad (u : State) (hu : u.regs = s.regs) (x : Nat) :
      sameBond (rd (setF u (R.gngPdly p) 30 24 x) (R.gngBond b)) (rd s (R.gngBond b)) := by
    have hrd : rd s (R.gngBond b) = rd u (R.gngBond b) := by rw [rd, rd, hu]
    rw [hrd]
    by_cases hoff : R.gngBond b = R.gngPdly p
    · rw [hoff]
      exact ⟨(flag_setF_same u _ x (by decide) (by decide)).trans (if_neg (by decide)),
        getF_setF_apart u _ x (by decide) (.inl (by decide)) (by decide),
        getF_setF_apart u _ x (by decide) (.inl (by decide)) (by decide)⟩
    · rw [rd_setF_ne u _ _ _ hoff]
      exact ⟨rfl, rfl, rfl⟩
  have hfree (c : Prop) [Decidable c] : (if c then s else (fresh s 1).2).regs = s.regs :=
    (apply_ite State.regs c s (fresh s 1).2).trans (ite_self s.regs)
  exact hpad _ (hfree _) _

/-- The lag of a port shows in `CIR_PORT`, and the close of its circuits where its circuits close. -/
theorem rd_setLag_gngBond (s : State) {b p : Nat} (hb : b < 8) (hp : p < 72) :
    rd (setLag s p) (R.gngBond b) = rd s (R.gngBond b) := by
  have hport : R.gngBond b ≠ R.cirPort p := by unfold R.gngBond R.cirPort; omega
  have hclosed : ∀ b : Fin 8, R.gngBond b ∉ closeRegs := by decide
  have hlag (n x : Nat) :
      rd (setF (setF s (R.cirPort p) 5 0 n) (R.cirPort p) 31 31 x) (R.gngBond b) = rd s (R.gngBond b) :=
    (rd_setF_ne _ _ _ _ hport).trans (rd_setF_ne _ _ _ _ hport)
  unfold setLag
  split
  · rfl
  · dsimp only
    split
    · rw [sameRegs_closeOnPort _ _ _ (hclosed ⟨b, hb⟩), rd_raise_ne _ _ (by unfold R.gngBond R.cirStat; omega), hlag]
    · rw [hlag]

/-- The fields of a bond stay as pads and lags of its ports are set anew. -/
theorem sameBond_remeasure (s : State) {b : Nat} {ps : List Nat} (hb : b < 8) (hps : ∀ p ∈ ps, p < 72) :
    sameBond (rd (remeasure s ps) (R.gngBond b)) (rd s (R.gngBond b)) := by
  have hpads : sameBond (rd (ps.foldl setPad s) (R.gngBond b)) (rd s (R.gngBond b)) :=
    List.foldlRecOn (motive := fun t : State => sameBond (rd t (R.gngBond b)) (rd s (R.gngBond b))) ps _ ⟨rfl, rfl, rfl⟩
      fun t ht p _ => sameBond_trans (sameBond_setPad t b p) ht
  have hlags : rd (ps.foldl setLag (ps.foldl setPad s)) (R.gngBond b) = rd (ps.foldl setPad s) (R.gngBond b) :=
    List.foldlRecOn (motive := fun t : State => rd t (R.gngBond b) = rd (ps.foldl setPad s) (R.gngBond b)) ps _ rfl
      fun t ht p hp => (rd_setLag_gngBond t hb (hps p hp)).trans ht
  rw [remeasure, hlags]
  exact hpads

/-- A bond takes a word that passes R494's checks. -/
theorem sameBond_writeBond {b new : Nat} (hb : b < 8) (hok : bondOk s b new = true) :
    sameBond (rd (writeBond false s b new).1 (R.gngBond b)) new := by
  have hports (p : Nat) (hp : p ∈ ((bondPorts s b).filter fun p => !memNat p (bondRange new)) ++ bondRange new) : p < 72 := by
    rcases List.mem_append.1 hp with hold | hnew
    · exact lt_of_mem_bondRange (mem_bondRange_of_mem_bondPorts (List.mem_of_mem_filter hold))
    · exact lt_of_mem_bondRange hnew
  have hwritten (u : State) (hu : u.regs = (wr s (R.gngBond b) new).regs) : sameBond (rd u (R.gngBond b)) new := by
    have hrd : rd u (R.gngBond b) = new % 2 ^ 32 := by rw [rd, hu]; exact rd_wr_same s _ new
    exact hrd ▸ sameBond_mod new
  unfold writeBond
  rw [if_neg Bool.false_ne_true, if_neg (by simp [hok])]
  exact sameBond_trans (sameBond_remeasure _ hb hports) (hwritten _ rfl)

theorem bondWrite_taken (b : Fin 8) (v : Word) (hl : locked s = false) (hok : bondOk s b v.toNat = true) :
    ∃ t : State, exec (.bondWrite b v) s = .next t ∧ flag t (R.gngBond b) 31 = bit v.toNat 31 ∧
      getF t (R.gngBond b) 9 8 = bits v.toNat 9 8 ∧ getF t (R.gngBond b) 5 0 = bits v.toNat 5 0 := by
  obtain ⟨x, hexec⟩ := exec_bondWrite b v hl
  have hnew := sameBond_write (rd s (R.gngBond b)) v.toNat
  have hok' : bondOk { s with held := x } b (RegRow.write gngBondRow 0 false (rd s (R.gngBond b)) v.toNat) = true :=
    (bondOk_congr _ _ hnew).trans hok
  exact ⟨_, hexec, sameBond_trans (sameBond_writeBond b.isLt hok') hnew⟩

/-! ### Claims of shared resources (R613, R630) -/

theorem exec_resourceClaimWrite {off : Nat} {r : RegRow} (v : Word) (hclaims : claims off = true)
    (hrow : regAt off = some (r, 0)) (hw : r.words = 1) (hl : locked s = false) :
    ∃ x, exec (.resourceClaimWrite off v) s =
      .next (write32 false { s with held := x } off v.toNat (RegRow.write r 0 false (rd s off) v.toNat)).1 := by
  have hexec : exec (.resourceClaimWrite off v) s =
    .next (if claims off then (bar0Write false off v.toNat s).1 else s) := rfl
  obtain ⟨x, hwrite⟩ := bar0Write_open v.toNat hrow hw hl
  rw [hexec, if_pos hclaims, hwrite]
  exact ⟨x, rfl⟩

/-- The row of `MGT_CTL`. -/
def mgtCtlRow : RegRow := ⟨R.mgtCtl, [], 1, [⟨2, 2, .rwl, 1⟩, ⟨1, 1, .rwl, 1⟩, ⟨0, 0, .rwl, 1⟩]⟩

/-- With no pin of FAULT_N, WAKE_N and PMB_ALERT_N in GPIO use, `MGT_CTL` is written. -/
theorem writeMgtCtl_regs (new : Nat) (hfree : ∀ n < 3, gpioMode s n = 0) :
    (writeMgtCtl s new).1.regs = (wr s R.mgtCtl new).regs := by
  have hnone : (List.range 3).find? (fun n => bit new n && !flag s R.mgtCtl n && gpioMode s n != 0) = none := by
    refine List.find?_eq_none.2 fun n hn => ?_
    simp [hfree n (List.mem_range.1 hn)]
  unfold writeMgtCtl
  rw [hnone]
  dsimp only
  split <;> rfl

theorem mgtCtl_claimed (v : Word) (hl : locked s = false) (hfree : ∀ n < 3, gpioMode s n = 0) :
    ∃ t : State, exec (.resourceClaimWrite R.mgtCtl v) s = .next t ∧ (∀ n < 3, flag t R.mgtCtl n = bit v.toNat n) ∧
      sameRegs s t [R.mgtCtl] := by
  obtain ⟨x, hexec⟩ := exec_resourceClaimWrite v (by decide) (show regAt R.mgtCtl = some (mgtCtlRow, 0) by decide +kernel) rfl hl
  have hall : allTaken mgtCtlRow.fields := by unfold allTaken; decide
  have hcovered : ∀ n < 3, fieldsCover mgtCtlRow.fields n = true := by decide
  have hbit (n : Nat) (hn : n < 3) := bit_write_of_cover (rd s R.mgtCtl) v.toNat hall (hcovered n hn)
  have hregs := writeMgtCtl_regs (s := { s with held := x }) (RegRow.write mgtCtlRow 0 false (rd s R.mgtCtl) v.toNat) hfree
  refine ⟨_, hexec, fun n hn => ?_, ?_⟩
  · exact (flag_congr_regs hregs R.mgtCtl n).trans ((flag_wr_same _ _ _ (by omega)).trans (hbit n hn))
  · exact sameRegs_trans (t := wr { s with held := x } R.mgtCtl _) (sameRegs_wr _ _ List.mem_cons_self)
      (sameRegs_of_regs hregs _)

/-- The row of `UART_CTL`. -/
def uartCtlRow : RegRow :=
  ⟨R.uartCtl, [], 1, [⟨31, 31, .rwl, 1⟩, ⟨30, 30, .rwl, 0⟩, ⟨29, 29, .rwl, 0⟩, ⟨28, 28, .rwl, 0⟩, ⟨15, 0, .rwl, 0x1B2⟩]⟩

/-- The word that `UART_CTL` takes: a divisor below 0x0010 leaves the field. -/
def uartWord (s : State) (new : Nat) : Nat :=
  if bits new 15 0 < 16 then setBits new 15 0 (getF s R.uartCtl 15 0) else new

theorem bits_uartWord (s : State) (new : Nat) :
    bits (uartWord s new) 31 28 = bits new 31 28 ∧
    bits (uartWord s new) 15 0 = if bits new 15 0 < 16 then getF s R.uartCtl 15 0 else bits new 15 0 := by
  unfold uartWord
  split
  · exact ⟨bits_setBits_apart _ _ (by decide) (by decide), bits_setBits_bits _ _ (by decide)⟩
  · exact ⟨rfl, rfl⟩

/-- With the alternate pins and the buffer free, `UART_CTL` is written. -/
theorem writeUart_ok (new : Nat) (h14 : gpioMode s 14 = 0) (h15 : gpioMode s 15 = 0) (hbuf : mbufOwner s ≠ 1) :
    (writeUart s new).1 = wr s R.uartCtl (uartWord s new) := by
  simp [writeUart, uartWord, h14, h15, hbuf]

theorem uartCtl_claimed (v : Word) (hl : locked s = false) (h14 : gpioMode s 14 = 0) (h15 : gpioMode s 15 = 0)
    (hbuf : mbufOwner s ≠ 1) :
    ∃ t : State, exec (.resourceClaimWrite R.uartCtl v) s = .next t ∧ getF t R.uartCtl 31 28 = bits v.toNat 31 28 ∧
      getF t R.uartCtl 15 0 = (if v.toNat % 2 ^ 16 < 16 then getF s R.uartCtl 15 0 else v.toNat % 2 ^ 16) ∧
      onlyRegs s t [R.uartCtl] := by
  obtain ⟨x, hexec⟩ := exec_resourceClaimWrite v (by decide) (show regAt R.uartCtl = some (uartCtlRow, 0) by decide +kernel) rfl hl
  have hall : allTaken uartCtlRow.fields := by unfold allTaken; decide
  have hpins := bits_write_of_cover (hi := 31) (lo := 28) (rd s R.uartCtl) v.toNat hall (by decide)
  have hdiv := (bits_write_of_cover (hi := 15) (lo := 0) (rd s R.uartCtl) v.toNat hall (by decide)).trans (bits_low _ _)
  generalize RegRow.write uartCtlRow 0 false (rd s R.uartCtl) v.toNat = new at hexec hpins hdiv
  have hok := writeUart_ok (s := { s with held := x }) new h14 h15 hbuf
  obtain ⟨hword, hword'⟩ := bits_uartWord { s with held := x } new
  rw [show (write32 false { s with held := x } R.uartCtl v.toNat new).1 = (writeUart { s with held := x } new).1 from rfl,
    hok] at hexec
  refine ⟨_, hexec, ?_, ?_, rfl, sameRegs_wr _ _ List.mem_cons_self⟩
  · rw [getF_wr_same _ _ _ (by decide), hword, hpins]
  · rw [getF_wr_same _ _ _ (by decide), hword', hdiv]
    rfl

/-- The row of `GPIO_CFG`. -/
def gpioCfgRow : RegRow :=
  ⟨R.gpioCfg 0, [(0x10, 4)], 1,
    [⟨31, 16, .rwl, 0⟩, ⟨15, 8, .rwl, 0⟩, ⟨7, 6, .rwl, 0⟩, ⟨5, 4, .rwl, 0⟩, ⟨3, 3, .rwl, 0⟩, ⟨2, 0, .rwl, 0⟩]⟩

theorem regAt_gpioCfg : ∀ n : Fin 16, regAt (R.gpioCfg n) = some (gpioCfgRow, 0) := by decide +kernel

theorem write32_gpioCfg (s : State) (n : Fin 16) (v new : Nat) :
    write32 false s (R.gpioCfg n) v new = writeGpio s n new := by
  have hn := n.isLt
  have hlow : 0x1E40000 ≤ R.gpioCfg n := by unfold R.gpioCfg; omega
  have hmgt : R.gpioCfg n ≠ R.mgtCtl := by unfold R.gpioCfg R.mgtCtl; omega
  have huart : R.gpioCfg n ≠ R.uartCtl := by unfold R.gpioCfg R.uartCtl; omega
  have hdata : R.gpioCfg n ≠ R.uartData := by unfold R.gpioCfg R.uartData; omega
  have hspi : R.gpioCfg n ≠ R.spiCmd := by unfold R.gpioCfg R.spiCmd; omega
  have hin : R.gpioCfg 0 ≤ R.gpioCfg n ∧ R.gpioCfg n < R.gpioCfg 16 := by unfold R.gpioCfg; omega
  have hindex : (R.gpioCfg n - R.gpioCfg 0) / 4 = n := by unfold R.gpioCfg; omega
  rw [write32, if_neg (by omega), if_neg (by omega), if_neg (by omega), if_neg (by omega), if_neg (by omega), if_neg (by omega),
    if_neg (by omega), if_neg (by omega), if_neg (by omega), if_neg (by omega), if_neg (by omega), if_neg (by omega),
    if_neg (by omega), if_neg (by omega), if_neg (by omega), writeMgt, if_neg hmgt, if_neg huart, if_neg hdata, if_neg hspi,
    if_pos hin, if_neg Bool.false_ne_true, hindex]

theorem drivePin_eq (s : State) (n : Nat) : drivePin s n = { s with out := (drivePin s n).out } := by
  unfold drivePin
  split <;> rfl

/-- The pulses after pin n has taken a mode. -/
def pulsesWith (s : State) (n new : Nat) : SMap Nat :=
  if bits new 2 0 = 4 then SMap.put s.mgmt.pulses n (s.time.lamp + 5120 * bits new 31 16) else SMap.erase s.mgmt.pulses n

theorem find_pulsesWith (s : State) (n new : Nat) : SMap.find (pulsesWith s n new) n =
    if bits new 2 0 = 4 then some (s.time.lamp + 5120 * bits new 31 16) else none := by
  unfold pulsesWith
  split
  · exact SMap.find_put_same _ _ _
  · exact SMap.find_erase_same _ _

/-- A pin that no other feature holds takes its mode, and its timer starts or stops. -/
theorem writeGpio_ok {n new : Nat} (hmode : bits new 2 0 ≤ 4)
    (hpulse : bits new 2 0 = 4 → bits new 31 16 ≠ 0 ∧ timerHeld s (bits new 7 6) n = false)
    (hpin : bits new 2 0 ≠ 0 → pinHeld s n = false) :
    ∃ o, (writeGpio s n new).1 =
      { wr s (R.gpioCfg n) new with mgmt := { s.mgmt with pulses := pulsesWith s n new }, out := o } := by
  have hperiod : ¬ (bits new 2 0 = 4 ∧ bits new 31 16 = 0) := fun h => (hpulse h.1).1 h.2
  have hfree : ¬ (bits new 2 0 ≠ 0 ∧ pinHeld s n = true) := fun h => by simp [hpin h.1] at h
  have htimer : ¬ (bits new 2 0 = 4 ∧ timerHeld s (bits new 7 6) n = true) := fun h => by simp [(hpulse h.1).2] at h
  unfold writeGpio
  dsimp only
  rw [if_neg (by omega), if_neg hperiod, if_neg hfree, if_neg htimer]
  dsimp only
  rw [drivePin_eq]
  exact ⟨_, rfl⟩

theorem gpioCfg_claimed (n : Fin 16) (v : Word) (hl : locked s = false) (hmode : v.toNat % 8 ≤ 4)
    (hpulse : v.toNat % 8 = 4 → bits v.toNat 31 16 ≠ 0 ∧ timerHeld s (bits v.toNat 7 6) n = false)
    (hpin : v.toNat % 8 ≠ 0 → pinHeld s n = false) :
    ∃ t : State, exec (.resourceClaimWrite (R.gpioCfg n) v) s = .next t ∧ rd t (R.gpioCfg n) = v.toNat ∧
      SMap.find t.mgmt.pulses n =
        (if v.toNat % 8 = 4 then some (s.time.lamp + 5120 * bits v.toNat 31 16) else none) ∧
      sameRegs s t [R.gpioCfg n] := by
  have hclaims : ∀ n : Fin 16, claims (R.gpioCfg n) = true := by decide
  obtain ⟨x, hexec⟩ := exec_resourceClaimWrite v (hclaims n) (regAt_gpioCfg n) rfl hl
  have hall : allTaken gpioCfgRow.fields := by unfold allTaken; decide
  have hword (hi lo : Nat) (hhi : hi ≤ 31) := bits_write_of_cover (hi := hi) (lo := lo) (rd s (R.gpioCfg n)) v.toNat hall
    fun i hi' _ => (show ∀ i ≤ 31, fieldsCover gpioCfgRow.fields i = true by decide) i (by omega)
  have hmode' := (hword 2 0 (by decide)).trans (bits_low _ _)
  have hperiod := hword 31 16 (by decide)
  have htimer := hword 7 6 (by decide)
  have hwhole := (hword 31 0 (by decide)).trans (bits_low _ _)
  generalize RegRow.write gpioCfgRow 0 false (rd s (R.gpioCfg n)) v.toNat = new at hexec hmode' hperiod htimer hwhole
  obtain ⟨o, hok⟩ := writeGpio_ok (s := { s with held := x }) (n := n) (new := new) (by omega)
    (fun h => hperiod ▸ htimer ▸ hpulse (hmode' ▸ h)) (fun h => hpin (hmode' ▸ h))
  rw [write32_gpioCfg, hok] at hexec
  refine ⟨_, hexec, ?_, ?_, ?_⟩
  · calc rd (wr { s with held := x } (R.gpioCfg n) new) (R.gpioCfg n) = new % 2 ^ 32 := rd_wr_same _ _ _
      _ = v.toNat % 2 ^ 32 := (bits_low new 31).symm.trans hwhole
      _ = v.toNat := Nat.mod_eq_of_lt v.isLt
  · exact (find_pulsesWith _ _ _).trans (by rw [hmode', hperiod]; rfl)
  · exact sameRegs_wr (s := { s with held := x }) _ List.mem_cons_self

end Sys2Proof.Machine

open Sys2Proof Sys2Proof.Machine

/-- Settles O15: each write passes its register's checks on the fields it takes; the pads and lags that a bond's members get
leave the bond's own fields. -/
theorem gangAndClaims : Obligations.GangAndClaims := by
  unfold Obligations.GangAndClaims
  refine ⟨⟨?_, ?_, ?_⟩, ?_, ?_, ?_⟩
  · intro s v hl hrole hper hwin hwin' hen hoff
    exact gangEnable_rises v hl hrole hper hwin hwin' hen hoff
  · intro s b hl
    obtain ⟨t, hexec, hen, -, -⟩ := bondWrite_taken b 0 hl (bondOk_off s b rfl)
    exact ⟨t, hexec, hen⟩
  · intro s b v hl hok
    exact bondWrite_taken b v hl hok
  · intro s v hl hfree
    exact mgtCtl_claimed v hl hfree
  · intro s v hl h14 h15 hbuf
    exact uartCtl_claimed v hl h14 h15 hbuf
  · intro s n v hl hmode hpulse hpin
    exact gpioCfg_claimed n v hl hmode hpulse hpin

end

section
/-! PROOFS. The console's queues and the deferred requests stay within their sizes (O4). Most functions of the model leave them as
they are: one lemma each says so, in the order of the model's files. The console, the arbiter and the resets change them, and
each of these keeps them within their sizes. -/

namespace Sys2Proof.Machine

/-! ### The bounded queues as one value -/

/-- The console's receive FIFO, transmit FIFO and log, the deferred maintenance requests, and the maintenance that runs. -/
abbrev Fifos := List (Nat × Bool) × List Byte × List Byte × List Deferred × List (Nat × Nat)

/-- The bounded queues of a state, and beside the deferred requests those that run. -/
def State.fifos (s : State) : Fifos := (s.mgmt.rx, s.mgmt.tx, s.mgmt.log, s.power.deferred, s.power.running)

/-- `simp` compares the queues of two states as they stand and does not rewrite inside a state first. -/
@[congr] theorem State.fifos_congr (s : State) : s.fifos = s.fifos := (rfl)

/-- Are the queues within the sizes that `queuesOk` asks for? -/
def Fits (q : Fifos) : Prop :=
  q.1.length ≤ 64 ∧ q.2.1.length ≤ 64 ∧ q.2.2.1.length ≤ 131072 ∧ q.2.2.2.1.length ≤ 16

theorem queuesOk_iff (s : State) : queuesOk s ↔ Fits s.fifos := Iff.rfl

/-! A record update of a state that names none of the queues leaves them alone; the lemmas are the shapes such an update takes: of
the state's own fields, of the power part's, of the management part's. -/

section
variable (pending : List Instr) (regs : List (Nat × Nat)) (held : Option (Nat × Nat)) (captured : List (Nat × Nat))
  (time : TimeSt) (comp : ComputeSt) (deep : DeepSt) (rem : RemoteSt) (host : HostSt) (flt : FaultSt) (fab : FabSt) (cir : CirSt)
  (ports : List (Nat × PortSt)) (mills : List (Nat × MillSt)) (sendTbl : List (Nat × Nat)) (delay : List (Nat × DelaySt))
  (gang : GangSt) (outbox inbox : List Pkt) (out : List Emission) (freeCtr nextId : Nat) (ups : Upsets) (t : State)

@[simp] theorem State.fifos_mk :
    State.fifos ⟨pending, regs, held, captured, time, comp, deep, rem, host, flt, fab, cir, ports, mills, sendTbl, delay,
      gang, t.power, t.mgmt, outbox, inbox, out, freeCtr, nextId, ups⟩ = t.fifos := (rfl)
@[simp] theorem State.fifos_mk_power (a b c d e f g h i j l m n o p) :
    State.fifos ⟨pending, regs, held, captured, time, comp, deep, rem, host, flt, fab, cir, ports, mills, sendTbl, delay,
      gang, ⟨a, b, c, d, e, f, g, h, i, j, t.power.running, t.power.deferred, l, m, n, o, p⟩, t.mgmt, outbox, inbox, out, freeCtr, nextId,
      ups⟩ = t.fifos := (rfl)
@[simp] theorem State.fifos_mk_mgmt (a b c d e f g h i j k l m n) :
    State.fifos ⟨pending, regs, held, captured, time, comp, deep, rem, host, flt, fab, cir, ports, mills, sendTbl, delay,
      gang, t.power, ⟨a, t.mgmt.rx, t.mgmt.tx, t.mgmt.log, b, c, d, e, f, g, h, i, j, k, l, m, n⟩, outbox, inbox, out, freeCtr,
      nextId, ups⟩ = t.fifos := (rfl)
end

@[simp] theorem setMgmt_fifos_mk (t : State) (a b c d e f g h i j k l m n) :
    State.fifos (setMgmt t ⟨a, t.mgmt.rx, t.mgmt.tx, t.mgmt.log, b, c, d, e, f, g, h, i, j, k, l, m, n⟩) = t.fifos := (rfl)
@[simp] theorem setMgmt_wr_fifos (s : State) (off v : Nat) (m : MgmtSt) :
    (setMgmt (wr s off v) m).fifos = (setMgmt s m).fifos := (rfl)
@[simp] theorem setMgmt_setF_fifos (s : State) (off hi lo v : Nat) (m : MgmtSt) :
    (setMgmt (setF s off hi lo v) m).fifos = (setMgmt s m).fifos := (rfl)
theorem setMgmt_fits {s : State} {m : MgmtSt} (hrx : m.rx.length ≤ 64) (htx : m.tx.length ≤ 64) (hlog : m.log.length ≤ 131072)
    (hs : Fits s.fifos) : Fits (setMgmt s m).fifos := ⟨hrx, htx, hlog, hs.2.2.2⟩

@[simp] theorem State.fifos_ite (c : Prop) [Decidable c] (a b : State) :
    (if c then a else b).fifos = if c then a.fifos else b.fifos := apply_ite _ _ _ _

@[simp] theorem foldl_fifos {α : Type} {f : State → α → State} (h : ∀ s x, (f s x).fifos = s.fifos) (l : List α)
    (s : State) :
    (l.foldl f s).fifos = s.fifos := by
  induction l generalizing s with
  | nil => rfl
  | cons x r ih => rw [List.foldl_cons, ih, h]

@[simp] theorem foldl_fifos_fst {α β : Type} {f : State × β → α → State × β}
    (h : ∀ a x, (f a x).1.fifos = a.1.fifos) (l : List α) (a : State × β) :
    (l.foldl f a).1.fifos = a.1.fifos := by
  induction l generalizing a with
  | nil => rfl
  | cons x r ih => rw [List.foldl_cons, ih, h]

/-! ### Functions that leave the queues as they are, by file of the model -/

/-! #### Ops -/

@[simp] theorem wr_fifos (s : State) (off v : Nat) : (wr s off v).fifos = s.fifos := (rfl)
@[simp] theorem setF_fifos (s : State) (off hi lo v : Nat) : (setF s off hi lo v).fifos = s.fifos := (rfl)
@[simp] theorem raise_fifos (s : State) (off i : Nat) : (raise s off i).fifos = s.fifos := (rfl)
@[simp] theorem bumpF_fifos (s : State) (off hi lo n : Nat) : (bumpF s off hi lo n).fifos = s.fifos := (rfl)
@[simp] theorem bump_fifos (s : State) (off n : Nat) : (bump s off n).fifos = s.fifos := (rfl)
@[simp] theorem wr64_fifos (s : State) (off v : Nat) : (wr64 s off v).fifos = s.fifos := (rfl)
@[simp] theorem setMill_fifos (s : State) (m : Nat) (x : MillSt) : (setMill s m x).fifos = s.fifos := (rfl)
@[simp] theorem setStream_fifos (s : State) (m n : Nat) (x : StreamSt) : (setStream s m n x).fifos = s.fifos := (rfl)
@[simp] theorem setIsl_fifos (s : State) (g : Nat) (x : IslSt) : (setIsl s g x).fifos = s.fifos := (rfl)
@[simp] theorem wakeIsl_fifos (s : State) (g : Nat) : (wakeIsl s g).fifos = s.fifos := by simp [wakeIsl]
@[simp] theorem logStoreUe_fifos (s : State) (line : Nat) : (logStoreUe s line).fifos = s.fifos := by simp [logStoreUe]
@[simp] theorem strikeStore_fifos (s : State) (ls : List Nat) : (strikeStore s ls).fifos = s.fifos := (rfl)
@[simp] theorem strikeDeep_fifos (s : State) (cs : List Nat) : (strikeDeep s cs).fifos = s.fifos := (rfl)
@[simp] theorem logDeepUe_fifos (s : State) (src c : Nat) : (logDeepUe s src c).fifos = s.fifos := by simp [logDeepUe]
@[simp] theorem tallyAdd_fifos (s : State) (fn d idx n : Nat) :
    (tallyAdd s fn d idx n).fifos = s.fifos := by simp [tallyAdd]
@[simp] theorem emit_fifos (s : State) (e : Emission) : (emit s e).fifos = s.fifos := (rfl)
@[simp] theorem fresh_fifos (s : State) (w : Nat) : (fresh s w).2.fifos = s.fifos := (rfl)
@[simp] theorem freshBytes_fifos (s : State) (n : Nat) : (freshBytes s n).2.fifos = s.fifos := (rfl)
@[simp] theorem newId_fifos (s : State) : (newId s).2.fifos = s.fifos := (rfl)
@[simp] theorem sendFrame_fifos (s : State) (org : Machine.Origin) (f : Frame) :
    (sendFrame s org f).fifos = s.fifos := (rfl)
@[simp] theorem sendBell_fifos (s : State) (mc : Bool) (dst src job code arg : Nat) (payload : List Byte) :
    (sendBell s mc dst src job code arg payload).fifos = s.fifos := (rfl)
@[simp] theorem hostWrite_fifos (s : State) (fn addr : Nat) (bs : List Byte) :
    (hostWrite s fn addr bs).fifos = s.fifos := (rfl)
@[simp] theorem setMesh_fifos (s : State) (d : Nat) (m : MeshSt) : (setMesh s d m).fifos = s.fifos := (rfl)
@[simp] theorem sendCore_fifos (s : State) (no fn : Nat) (org : Machine.Origin) (f : Frame) :
    (sendCore s no fn org f).fifos = s.fifos := (rfl)
@[simp] theorem sendRun_fifos (s : State) (no : Nat) (org : Machine.Origin) (fn ep rt off : Nat) (bs : List Byte) :
    (sendRun s no org fn ep rt off bs).fifos = s.fifos := by simp [sendRun]
@[simp] theorem setSeq_fifos (s : State) (core fn : Nat) (q : SeqSt) : (setSeq s core fn q).fifos = s.fifos := (rfl)
@[simp] theorem setRun_fifos (s : State) (core fn : Nat) (r : RunList) : (setRun s core fn r).fifos = s.fifos := (rfl)
@[simp] theorem reportList_fifos (s : State) (l : Launch) (status didx : Nat) (fl : FpFlags) :
    (reportList s l status didx fl).fifos = s.fifos := (rfl)
@[simp] theorem endList_fifos (s : State) (core fn status didx : Nat) :
    (endList s core fn status didx).fifos = s.fifos := by
  unfold endList
  dsimp only
  (repeat' split) <;> simp
@[simp] theorem stopList_fifos (s : State) (core fn status : Nat) : (stopList s core fn status).fifos = s.fifos := by
  unfold stopList
  split <;> simp
@[simp] theorem stopSeq_fifos (s : State) (core fn status : Nat) (p : Launch → Bool) :
    (stopSeq s core fn status p).fifos = s.fifos := by
  unfold stopSeq
  dsimp only
  (repeat' split) <;> simp
@[simp] theorem stopLists_fifos (s : State) (status : Nat) (p : Nat → Nat → Launch → Bool) :
    (stopLists s status p).fifos = s.fifos := by simp [stopLists]
@[simp] theorem raiseFlags_fifos (s : State) (core fn : Nat) (fl : FpFlags) :
    (raiseFlags s core fn fl).fifos = s.fifos := (rfl)
@[simp] theorem dropHeld_fifos (s : State) (base : Nat) : (dropHeld s base).fifos = s.fifos := by
  unfold dropHeld
  split <;> simp

/-! #### Faults -/

@[simp] theorem faultBell_fifos (s : State) (cause unit job : Nat) :
    (faultBell s cause unit job).fifos = s.fifos := by simp [faultBell]
@[simp] theorem faultBells_fifos (s : State) (cause unit : Nat) (jobs : List Nat) :
    (faultBells s cause unit jobs).fifos = s.fifos := by simp [faultBells]
@[simp] theorem trapStream_fifos (s : State) (m n code pc : Nat) : (trapStream s m n code pc).fifos = s.fifos := by
  unfold trapStream
  dsimp only
  (repeat' split) <;> simp
@[simp] theorem trapOne_fifos (s : State) (m n code pc : Nat) :
    (trapOne s m n code pc).fifos = s.fifos := by simp [trapOne]
@[simp] theorem trapMill_fifos (s : State) (m : Nat) : (trapMill s m).fifos = s.fifos := by simp [trapMill]
@[simp] theorem trapJobs_fifos (s : State) (m : Nat) : (trapJobs s m).fifos = s.fifos := by simp [trapJobs]
@[simp] theorem trapAllStreams_fifos (s : State) : (trapAllStreams s).fifos = s.fifos := by simp [trapAllStreams]
@[simp] theorem alertLow_fifos (s : State) : (alertLow s).fifos = s.fifos := by simp [alertLow]
@[simp] theorem deviceFault_fifos (s : State) (cause unit : Nat) :
    (deviceFault s cause unit).fifos = s.fifos := by simp [deviceFault]
@[simp] theorem makeRoom_fifos (s : State) (r : Res) : (makeRoom s r).fifos = s.fifos := by
  unfold makeRoom
  split <;> simp
@[simp] theorem setTimes_fifos (s : State) (r : Res) (ts : List Nat) : (setTimes s r ts).fifos = s.fifos := (rfl)
@[simp] theorem event_fifos (s : State) (r : Res) (n : Nat) : (event s r n).1.fifos = s.fifos := by
  unfold event
  dsimp only
  (repeat' split) <;> simp
@[simp] theorem recordWrite_fifos (s : State) : (recordWrite s).2.fifos = s.fifos := by
  unfold recordWrite
  dsimp only
  (repeat' split) <;> simp
@[simp] theorem recordRetired_fifos (s : State) (r : Res) :
    (recordRetired s r).fifos = s.fifos := by simp [recordRetired]
@[simp] theorem stopCopiesOn_fifos (s : State) (g : Nat) : (stopCopiesOn s g).fifos = s.fifos := by
  unfold stopCopiesOn
  exact foldl_fifos (fun _ _ => by dsimp only; (repeat' split) <;> simp) _ _
@[simp] theorem fenceCluster_fifos (s : State) (g : Nat) : (fenceCluster s g).fifos = s.fifos := by simp [fenceCluster]
@[simp] theorem clusterEvent_fifos (s : State) (g n : Nat) :
    (clusterEvent s g n).fifos = s.fifos := by simp [clusterEvent]
@[simp] theorem bypassMill_fifos (s : State) (m : Nat) : (bypassMill s m).fifos = s.fifos := by simp [bypassMill]
@[simp] theorem millEvent_fifos (s : State) (m : Nat) : (millEvent s m).fifos = s.fifos := by simp [millEvent]
@[simp] theorem exhaustBank_fifos (s : State) (b : Nat) : (exhaustBank s b).fifos = s.fifos := by simp [exhaustBank]
@[simp] theorem retireRow_fifos (s : State) (n : Nat) : (retireRow s n).fifos = s.fifos := by simp [retireRow]
@[simp] theorem rowEvent_fifos (s : State) (a n : Nat) : (rowEvent s a n).fifos = s.fifos := by simp [rowEvent]
@[simp] theorem losePc_fifos (s : State) (c : Nat) : (losePc s c).fifos = s.fifos := by simp [losePc]
@[simp] theorem meetStore_fifos (s : State) (runs : List (Nat × Nat)) : (meetStore s runs).1.fifos = s.fifos := by
  unfold meetStore
  dsimp only
  (repeat' split) <;> simp
@[simp] theorem meetDeep_fifos (s : State) (src : Nat) (runs : List (Nat × Nat)) :
    (meetDeep s src runs).1.fifos = s.fifos := by
  unfold meetDeep
  dsimp only
  (repeat' split) <;> simp
@[simp] theorem meetRuns_fifos (s : State) (src : Nat) (rs : List (Nat × Nat) × List (Nat × Nat)) :
    (meetRuns s src rs).1.fifos = s.fifos := by
  unfold meetRuns
  dsimp only
  (repeat' split) <;> simp

/-! #### Frames -/

@[simp] theorem setPort_fifos (s : State) (p : Nat) (x : PortSt) : (setPort s p x).fifos = s.fifos := (rfl)

/-! #### Routing -/

@[simp] theorem setQueue_fifos (s : State) (q : Nat) (x : PktQ) : (setQueue s q x).fifos = s.fifos := (rfl)
@[simp] theorem setCtl_fifos (s : State) (p : Nat) (l : List QEntry) : (setCtl s p l).fifos = s.fifos := (rfl)
@[simp] theorem setSrcq_fifos (s : State) (cid : Nat) (l : List QEntry) : (setSrcq s cid l).fifos = s.fifos := (rfl)
@[simp] theorem putCopy_fifos (s : State) (uid : Nat) (org : Machine.Origin) (c : Copy) :
    (putCopy s uid org c).1.fifos = s.fifos := by
  unfold putCopy
  (repeat' split) <;> simp
@[simp] theorem unreachable_fifos (s : State) (job n : Nat) :
    (unreachable s job n).fifos = s.fifos := by simp [unreachable]
@[simp] theorem doorCount_fifos (s : State) (chk : Nat) : (doorCount s chk).fifos = s.fifos := (rfl)

/-! #### Admission -/

@[simp] theorem mirrorSee_fifos (s : State) (point unit verdict : Nat) (f : Frame) :
    (mirrorSee s point unit verdict f).fifos = s.fifos := by simp [mirrorSee]
@[simp] theorem stopLaunch_fifos (s : State) (core fn launch status : Nat) :
    (stopLaunch s core fn launch status).fifos = s.fifos := by
  unfold stopLaunch
  split <;> simp
@[simp] theorem endHost_fifos (s : State) (fn ring idx status : Nat) :
    (endHost s fn ring idx status).fifos = s.fifos := (rfl)
@[simp] theorem resumeTable_fifos (s : State) (fn ring idx : Nat) : (resumeTable s fn ring idx).fifos = s.fifos := (rfl)
@[simp] theorem dropRequests_fifos (s : State) (fn ring idx : Nat) :
    (dropRequests s fn ring idx).fifos = s.fifos := (rfl)
@[simp] theorem markAdmitted_fifos (s : State) (o : Machine.Origin) : (markAdmitted s o).fifos = s.fifos := by
  unfold markAdmitted
  split <;> simp
@[simp] theorem stopSender_fifos (s : State) (o : Machine.Origin) : (stopSender s o).fifos = s.fifos := by
  unfold stopSender
  split <;> simp
@[simp] theorem dropFrame_fifos (s : State) (o : Machine.Origin) (reason : Nat) :
    (dropFrame s o reason).fifos = s.fifos := by
  unfold dropFrame
  split <;> simp
@[simp] theorem setPol_fifos (s : State) (k : Nat) (p : Policer) : (setPol s k p).fifos = s.fifos := (rfl)
@[simp] theorem setShp_fifos (s : State) (k : Nat) (p : Shaper) : (setShp s k p).fifos = s.fifos := (rfl)
@[simp] theorem earlyDrop1_fifos (s : State) (q colour : Nat) : (earlyDrop1 s q colour).1.fifos = s.fifos := by
  unfold earlyDrop1
  dsimp only
  (repeat' split) <;> simp
@[simp] theorem throttle1_fifos (s : State) (d : Nat) (fn : Option Nat) :
    (throttle1 s d fn).fifos = s.fifos := by simp [throttle1]
@[simp] theorem throttle_fifos (s : State) (o : Machine.Origin) : (throttle s o).fifos = s.fifos := by
  unfold throttle
  split <;> simp
@[simp] theorem waitAtDoor_fifos (s : State) (p : Pkt) (policed : Bool) (cid : Option Nat) :
    (waitAtDoor s p policed cid).fifos = s.fifos := by simp [waitAtDoor]
@[simp] theorem countFallback_fifos (s : State) : (countFallback s).fifos = s.fifos := (rfl)
@[simp] theorem rejudge_fifos (s : State) : (rejudge s).fifos = s.fifos := by
  unfold rejudge
  exact foldl_fifos (fun _ _ => by dsimp only; (repeat' split) <;> simp) _ _

/-! #### PortOps -/

@[simp] theorem setCir_fifos (s : State) (cid st : Nat) : (setCir s cid st).fifos = s.fifos := (rfl)
@[simp] theorem sendCirBellTo_fifos (s : State) (port dst job code cid status : Nat) :
    (sendCirBellTo s port dst job code cid status).fifos = s.fifos := by simp [sendCirBellTo]
@[simp] theorem sendCirBell_fifos (s : State) (port code cid status : Nat) :
    (sendCirBell s port code cid status).fifos = s.fifos := by simp [sendCirBell]
@[simp] theorem fallBack_fifos (s : State) (e : QEntry) : (fallBack s e).1.fifos = s.fifos := (rfl)
@[simp] theorem endOpens_fifos (s : State) (cid status : Nat) :
    (endOpens s cid status).fifos = s.fifos := by simp [endOpens]
@[simp] theorem endCloses_fifos (s : State) (cid status : Nat) :
    (endCloses s cid status).fifos = s.fifos := by simp [endCloses]
@[simp] theorem finishClose_fifos (s : State) (cid : Nat) : (finishClose s cid).fifos = s.fifos := by simp [finishClose]
@[simp] theorem setPortState_fifos (s : State) (p st : Nat) : (setPortState s p st).fifos = s.fifos := (rfl)
@[simp] theorem leftUp_fifos (s : State) (p st : Nat) : (leftUp s p st).fifos = s.fifos := by simp [leftUp]
@[simp] theorem sendReport_fifos (s : State) (p : Nat) : (sendReport s p).fifos = s.fifos := (rfl)

/-! #### Engine -/

@[simp] theorem countOf_fifos (s : State) (off n : Nat) : (countOf s off n).fifos = s.fifos := by simp [countOf]
@[simp] theorem noteStep_fifos (s : State) (core fn : Nat) (old new : EmitAcc) :
    (noteStep s core fn old new).fifos = s.fifos := by simp [noteStep]

/-! #### WorkList -/

@[simp] theorem issue_fifos (s : State) (core fn : Nat) : (issue s core fn).fifos = s.fifos := by
  unfold issue
  dsimp only
  (repeat' split) <;> simp
@[simp] theorem finish_fifos (s : State) (core fn : Nat) (ue : Bool) : (finish s core fn ue).fifos = s.fifos := by
  unfold finish
  (repeat' split) <;> simp
@[simp] theorem listStart_fifos (k : CoreId) (s : State) : (listStart k s).fifos = s.fifos := by
  unfold listStart
  dsimp only
  (repeat' split) <;> simp
@[simp] theorem getFree_fifos (s : State) (core w o n : Nat) : (getFree s core w o n).2.fifos = s.fifos := (rfl)
@[simp] theorem wakeTargets_fifos (s : State) (core : Nat) (desc : List Byte) :
    (wakeTargets s core desc).fifos = s.fifos := by simp [wakeTargets]
@[simp] theorem faultLaunch_fifos (s : State) (core fn launch : Nat) :
    (faultLaunch s core fn launch).fifos = s.fifos := by
  unfold faultLaunch
  split <;> simp
@[simp] theorem mapCopies_fifos (s : State) (core fn : Nat) (f : List AsyncCopy → List AsyncCopy) :
    (mapCopies s core fn f).fifos = s.fifos := (rfl)
@[simp] theorem endCopy_fifos (s : State) (core fn : Nat) (c : AsyncCopy) :
    (endCopy s core fn c).fifos = s.fifos := by simp [endCopy]
@[simp] theorem setPhase_fifos (s : State) (core fn : Nat) (r : RunList) (p : Phase) :
    (setPhase s core fn r p).fifos = s.fifos := (rfl)
@[simp] theorem syncPil_fifos (s : State) (g : Nat) : (syncPil s g).fifos = s.fifos := (rfl)
@[simp] theorem setSlot_fifos (s : State) (g : Nat) (x : SlotSt) : (setSlot s g x).fifos = s.fifos := (rfl)
@[simp] theorem quantumExpire_fifos (d : Die) (i : Clu) (s : State) : (quantumExpire d i s).fifos = s.fifos := by
  unfold quantumExpire
  dsimp only
  (repeat' split) <;> simp
@[simp] theorem resumeCopies_fifos (s : State) (g fn : Nat) :
    (resumeCopies s g fn).fifos = s.fifos := by simp [resumeCopies]
@[simp] theorem newQuantum_fifos (s : State) (g : Nat) : (newQuantum s g).fifos = s.fifos := by simp [newQuantum]
@[simp] theorem contextSwitchStart_fifos (d : Die) (i : Clu) (s : State) :
    (contextSwitchStart d i s).fifos = s.fifos := by
  unfold contextSwitchStart
  dsimp only
  (repeat' split) <;> simp
@[simp] theorem clearUe_fifos (s : State) (a n : Nat) : (clearUe s a n).fifos = s.fifos := (rfl)

/-! #### Remote -/

@[simp] theorem answer_fifos (s : State) (f : Frame) (die status : Nat) (data : List Byte) :
    (answer s f die status data).fifos = s.fifos := (rfl)
@[simp] theorem logRefusal_fifos (s : State) (f : Frame) (reason : Nat) :
    (logRefusal s f reason).fifos = s.fifos := (rfl)
@[simp] theorem refuseFrame_fifos (s : State) (f : Frame) (die status reason : Nat) :
    (refuseFrame s f die status reason).fifos = s.fifos := by simp [refuseFrame]
@[simp] theorem landTally_fifos (s : State) (fn die tally n : Nat) :
    (landTally s fn die tally n).fifos = s.fifos := by simp [landTally]
@[simp] theorem dropArrival_fifos (s : State) (q : Nat) : (dropArrival s q).fifos = s.fifos := by
  unfold dropArrival
  (repeat' split) <;> simp
@[simp] theorem popArrival_fifos (s : State) (q : Nat) : (popArrival s q).fifos = s.fifos := by
  unfold popArrival
  split <;> simp
@[simp] theorem mapArrivals_fifos (s : State) (g : Nat → List QEntry → List QEntry) :
    (mapArrivals s g).fifos = s.fifos := by simp [mapArrivals]
@[simp] theorem dropCopies_fifos (s : State) (uid : Nat) : (dropCopies s uid).fifos = s.fifos := by simp [dropCopies]
@[simp] theorem markCopies_fifos (s : State) (uid : Nat) (ts : List Target) :
    (markCopies s uid ts).fifos = s.fifos := by simp [markCopies]
@[simp] theorem readTarget_fifos (s : State) (t : Target) (n : Nat) : (readTarget s t n).1.fifos = s.fifos := by
  unfold readTarget
  split <;> simp
@[simp] theorem remoteRead_fifos (q : Fin 9) (s : State) : (remoteRead q s).fifos = s.fifos := by
  unfold remoteRead
  (repeat' split) <;> simp
@[simp] theorem remoteAtomic_fifos (q : Fin 9) (s : State) : (remoteAtomic q s).fifos = s.fifos := by
  unfold remoteAtomic
  (repeat' split) <;> simp
@[simp] theorem atomicFlags_fifos (s : State) (d : Nat) (fl : FpFlags) : (atomicFlags s d fl).fifos = s.fifos := (rfl)
@[simp] theorem endRequest_fifos (s : State) (tag : Nat) (r : Request) (status : Nat) :
    (endRequest s tag r status).fifos = s.fifos := (rfl)
@[simp] theorem setResult_fifos (s : State) (r : Request) (v : Nat) : (setResult s r v).fifos = s.fifos := (rfl)
@[simp] theorem requestTimeout_fifos (t : BitVec 12) (s : State) : (requestTimeout t s).fifos = s.fifos := by
  unfold requestTimeout
  (repeat' split) <;> simp

/-! #### Fabric -/

@[simp] theorem popRx_fifos (s : State) (p : Nat) : (popRx s p).fifos = s.fifos := (rfl)
@[simp] theorem sendOn_fifos (s : State) (p : Nat) (e : QEntry) : (sendOn s p e).fifos = s.fifos := by simp [sendOn]
@[simp] theorem sendCtl_fifos (s : State) (p : Nat) : (sendCtl s p).fifos = s.fifos := by
  unfold sendCtl
  split <;> simp
@[simp] theorem sendPacket_fifos (s : State) (p : Nat) : (sendPacket s p).fifos = s.fifos := by
  unfold sendPacket
  split <;> simp
@[simp] theorem setWire_fifos (s : State) (p : Nat) (w : WireSt) : (setWire s p w).fifos = s.fifos := (rfl)
@[simp] theorem sendGuard_fifos (s : State) (p : Nat) : (sendGuard s p).fifos = s.fifos := by simp [sendGuard]
@[simp] theorem meetOnce_fifos (s : State) (src lo n : Nat) (u : Upsets) :
    (meetOnce s src lo n u).1.fifos = s.fifos := by
  unfold meetOnce
  dsimp only
  (repeat' split) <;> simp
@[simp] theorem sumpReadback_fifos (q : Fin 72) (u : Upsets) (s : State) : (sumpReadback q u s).fifos = s.fifos := by
  unfold sumpReadback
  dsimp only
  (repeat' split) <;> simp
@[simp] theorem queueAvgUpdate_fifos (s : State) : (queueAvgUpdate s).fifos = s.fifos := by simp [queueAvgUpdate]
@[simp] theorem canarySend_fifos (n : Fin 8) (s : State) : (canarySend n s).fifos = s.fifos := by simp [canarySend]
@[simp] theorem delayOf_fifos (s : State) (a b : Nat) : (delayOf s a b).2.fifos = s.fifos := by
  unfold delayOf
  split <;> simp
@[simp] theorem canaryReturn_fifos (s : State) (f : Frame) : (canaryReturn s f).fifos = s.fifos := by
  unfold canaryReturn
  dsimp only
  (repeat' split) <;> simp
@[simp] theorem canaryArrive_fifos (s : State) : (canaryArrive s).fifos = s.fifos := by
  unfold canaryArrive
  split <;> simp

/-! #### Circuit -/

@[simp] theorem fabFlip_fifos (s : State) : (fabFlip s).fifos = s.fifos := by simp [fabFlip]
@[simp] theorem setRefusal_fifos (s : State) (cid status : Nat) : (setRefusal s cid status).fifos = s.fifos := (rfl)
@[simp] theorem refuseRequest_fifos (s : State) (p : Nat) (f : Frame) (status : Nat) :
    (refuseRequest s p f status).fifos = s.fifos := by simp [refuseRequest]
@[simp] theorem teardownForward_fifos (cid : BitVec 16) (s : State) : (teardownForward cid s).fifos = s.fifos := by
  unfold teardownForward
  split <;> simp
@[simp] theorem circuitCloseSend_fifos (cid : BitVec 16) (s : State) :
    (circuitCloseSend cid s).fifos = s.fifos := by simp [circuitCloseSend]
@[simp] theorem shiftChangeBell_fifos (s : State) : (shiftChangeBell s).fifos = s.fifos := by
  unfold shiftChangeBell
  split <;> simp
@[simp] theorem shiftChangeStart_fifos (s : State) : (shiftChangeStart s).fifos = s.fifos := by simp [shiftChangeStart]
@[simp] theorem openAuto_fifos (s : State) : (openAuto s).fifos = s.fifos := by simp [openAuto]

/-! #### Mill -/

@[simp] theorem setHandler_fifos (s : State) (m : Nat) (h : HandlerSt) : (setHandler s m h).fifos = s.fifos := (rfl)
@[simp] theorem MCtx.setReg_fifos (c : MCtx) (s : State) (i v : Nat) : (MCtx.setReg c s i v).1.fifos = s.fifos := by
  unfold MCtx.setReg; (repeat' split) <;> simp
@[simp] theorem setAcc_fifos (s : State) (m j : Nat) (v : Image) : (setAcc s m j v).fifos = s.fifos := (rfl)
@[simp] theorem setCtr_fifos (s : State) (m j v : Nat) : (setCtr s m j v).fifos = s.fifos := (rfl)
@[simp] theorem streamFlags_fifos (s : State) (m n : Nat) (fl : FpFlags) :
    (streamFlags s m n fl).fifos = s.fifos := (rfl)
@[simp] theorem setNondet_fifos (s : State) (m n : Nat) : (setNondet s m n).fifos = s.fifos := (rfl)
@[simp] theorem millOut_fifos (s : State) (c : MCtx) (p : Pair) (off : Nat) (bs : List Byte) :
    (millOut s c p off bs).fifos = s.fifos := by simp [millOut]
@[simp] theorem enterSort_fifos (s : State) (c : MCtx) (keep : Nat) (r : SortRec) :
    (enterSort s c keep r).1.fifos = s.fifos := by
  unfold enterSort
  dsimp only
  (repeat' split) <;> simp
@[simp] theorem setCounts_fifos (s : State) (m k : Nat) (v : Nat × Nat) : (setCounts s m k v).fifos = s.fifos := (rfl)
@[simp] theorem sendDisp_fifos (s : State) (c : MCtx) (d : DispFrame) : (sendDisp s c d).fifos = s.fifos := (rfl)
@[simp] theorem placeRec_fifos (s : State) (c : MCtx) (k : Nat) (r : SortRec) :
    (placeRec s c k r).1.fifos = s.fifos := by
  unfold placeRec
  dsimp only
  (repeat' split) <;> simp
@[simp] theorem meetMill_fifos (s : State) (m n pc : Nat) (e : MillUpset) : (meetMill s m n pc e).fifos = s.fifos := by
  unfold meetMill
  split <;> simp
@[simp] theorem refuseMill_fifos (s : State) (m : Nat) (f : Frame) (why : Nat) :
    (refuseMill s m f why).fifos = s.fifos := by simp [refuseMill]
@[simp] theorem millHandler_fifos (m : MillIx) (e : MillUpset) (s : State) : (millHandler m e s).fifos = s.fifos := by
  unfold millHandler
  dsimp only
  (repeat' split) <;> simp
@[simp] theorem streamRemoveDone_fifos (m : MillIx) (n : Byte) (s : State) :
    (streamRemoveDone m n s).fifos = s.fifos := by simp [streamRemoveDone]

/-! #### Time -/

@[simp] theorem stepTo_fifos (s : State) (v : Nat) : (stepTo s v).fifos = s.fifos := (rfl)
@[simp] theorem stepBy_fifos (s : State) (sum : Int) (n : Nat) : (stepBy s sum n).fifos = s.fifos := (rfl)
@[simp] theorem correctRate_fifos (s : State) : (correctRate s).fifos = s.fifos := (rfl)
@[simp] theorem setDelay_fifos (s : State) (p : Nat) (x : DelaySt) : (setDelay s p x).fifos = s.fifos := (rfl)
@[simp] theorem startExchanges_fifos (s : State) (p : Nat) : (startExchanges s p).fifos = s.fifos := (rfl)
@[simp] theorem sendTsync_fifos (s : State) (p src bseq blen ts : Nat) :
    (sendTsync s p src bseq blen ts).fifos = s.fifos := by simp [sendTsync]
@[simp] theorem setPad_fifos (s : State) (p : Nat) : (setPad s p).fifos = s.fifos := by simp [setPad]
@[simp] theorem meanDelay_fifos (s : State) (l : List Int) : (meanDelay s l).2.fifos = s.fifos := by
  unfold meanDelay
  dsimp only
  (repeat' split) <;> simp
@[simp] theorem delayExchangeStart_fifos (p : Port) (t : DWord) (s : State) :
    (delayExchangeStart p t s).fifos = s.fifos := by simp [delayExchangeStart]
@[simp] theorem delayReplySend_fifos (p : Port) (s : State) : (delayReplySend p s).fifos = s.fifos := by
  unfold delayReplySend
  dsimp only
  (repeat' split) <;> simp
@[simp] theorem setGang_fifos (s : State) (st : Nat) : (setGang s st).fifos = s.fifos := (rfl)
@[simp] theorem sendBurst_fifos (s : State) (mask src t : Nat) :
    (sendBurst s mask src t).fifos = s.fifos := by simp [sendBurst]
@[simp] theorem burstSend_fifos (t : DWord) (s : State) : (burstSend t s).fifos = s.fifos := by simp [burstSend]
@[simp] theorem burstRelay_fifos (t : DWord) (s : State) : (burstRelay t s).fifos = s.fifos := by
  unfold burstRelay
  split <;> simp
@[simp] theorem countPartial_fifos (s : State) : (countPartial s).fifos = s.fifos := (rfl)
@[simp] theorem closeWindows_fifos (s : State) : (closeWindows s).fifos = s.fifos := by simp [closeWindows]
@[simp] theorem useBurst_fifos (s : State) (src : Nat) (sum : Int) (n : Nat) :
    (useBurst s src sum n).fifos = s.fifos := by simp [useBurst]
@[simp] theorem completeBurst_fifos (s : State) (p : Nat) (b : BurstRx) :
    (completeBurst s p b).fifos = s.fifos := by simp [completeBurst]
@[simp] theorem holdoverEnter_fifos (s : State) : (holdoverEnter s).fifos = s.fifos := by
  unfold holdoverEnter
  split <;> simp
@[simp] theorem standbyTakeover_fifos (t : DWord) (s : State) :
    (standbyTakeover t s).fifos = s.fifos := by simp [standbyTakeover]
@[simp] theorem referenceLoss_fifos (s : State) : (referenceLoss s).fifos = s.fifos := by simp [referenceLoss]
@[simp] theorem gsyncCapture_fifos (s : State) : (gsyncCapture s).fifos = s.fifos := by simp [gsyncCapture]
@[simp] theorem gsyncPulse_fifos (s : State) : (gsyncPulse s).fifos = s.fifos := by simp [gsyncPulse]
@[simp] theorem setBar_fifos (s : State) (b : Nat) (v : Nat × Nat) : (setBar s b v).fifos = s.fifos := (rfl)
@[simp] theorem startBarrier_fifos (s : State) (b : Nat) : (startBarrier s b).fifos = s.fifos := (rfl)
@[simp] theorem deviceArrival_fifos (s : State) (b : Nat) :
    (deviceArrival s b).fifos = s.fifos := by simp [deviceArrival]
@[simp] theorem localArrival_fifos (s : State) (b : Nat) : (localArrival s b).fifos = s.fifos := by simp [localArrival]
@[simp] theorem barrierArrival_fifos (s : State) : (barrierArrival s).fifos = s.fifos := by
  unfold barrierArrival
  (repeat' split) <;> simp
@[simp] theorem barrierStartBell_fifos (s : State) : (barrierStartBell s).fifos = s.fifos := by
  unfold barrierStartBell
  split <;> simp

/-! #### Maint -/

@[simp] theorem sendTraining_fifos (s : State) (p : Nat) : (sendTraining s p).fifos = s.fifos := (rfl)
@[simp] theorem startTraining_fifos (s : State) (p : Nat) :
    (startTraining s p).fifos = s.fifos := by simp [startTraining]
@[simp] theorem scrubSlice_fifos (s : State) (d : Nat) : (scrubSlice s d).fifos = s.fifos := by simp [scrubSlice]

/-! #### Link -/

@[simp] theorem resendAll_fifos (s : State) (p : Nat) : (resendAll s p).fifos = s.fifos := by simp [resendAll]
@[simp] theorem takeAck_fifos (s : State) (p ack : Nat) : (takeAck s p ack).fifos = s.fifos := by simp [takeAck]
@[simp] theorem countFec_fifos (s : State) (p : Nat) (fec : List (Nat × Nat)) :
    (countFec s p fec).fifos = s.fifos := by simp [countFec]
@[simp] theorem linkIdleSend_fifos (p : Port) (s : State) : (linkIdleSend p s).fifos = s.fifos := by simp [linkIdleSend]
@[simp] theorem trainingFails_fifos (s : State) (p : Nat) : (trainingFails s p).fifos = s.fifos := (rfl)
@[simp] theorem resume_fifos (s : State) (p : Nat) (rt : Bool) (ack : Nat) :
    (resume s p rt ack).fifos = s.fifos := by simp [resume]
@[simp] theorem trainRetry_fifos (p : Port) (s : State) : (trainRetry p s).fifos = s.fifos := by
  unfold trainRetry
  split <;> simp
@[simp] theorem sendControl_fifos (s : State) (p op width mask at0 : Nat) :
    (sendControl s p op width mask at0).fifos = s.fifos := (rfl)
@[simp] theorem askWidth_fifos (s : State) (p : Nat) : (askWidth s p).fifos = s.fifos := by simp [askWidth]
@[simp] theorem laneFail_fifos (p : Port) (l : Fin 8) (s : State) :
    (laneFail p l s).fifos = s.fifos := by simp [laneFail]
@[simp] theorem portDrainEnd_fifos (p : Port) (s : State) : (portDrainEnd p s).fifos = s.fifos := by
  unfold portDrainEnd
  dsimp only
  (repeat' split) <;> simp
@[simp] theorem downTimeout_fifos (p : Port) (s : State) : (downTimeout p s).fifos = s.fifos := by simp [downTimeout]
@[simp] theorem linkReportTimeout_fifos (p : Port) (s : State) :
    (linkReportTimeout p s).fifos = s.fifos := by simp [linkReportTimeout]

/-! #### Power -/

@[simp] theorem setGrant_fifos (s : State) (g c : Nat) : (setGrant s g c).fifos = s.fifos := (rfl)
@[simp] theorem roundFree_fifos (s : State) (x d : Int) : (roundFree s x d).2.fifos = s.fifos := by
  unfold roundFree
  split <;> simp
@[simp] theorem stackReading_fifos (s : State) (d : Nat) (t : Int) :
    (stackReading s d t).fifos = s.fifos := by
  unfold stackReading
  cases decide (-80 ≤ t) && decide (t ≤ 500) <;> simp
@[simp] theorem takeReadings_fifos (s : State) (r : Readings) :
    (takeReadings s r).fifos = s.fifos := by simp [takeReadings]
@[simp] theorem sensorLimits_fifos (s : State) : (sensorLimits s).fifos = s.fifos := by simp [sensorLimits]
@[simp] theorem showIsland_fifos (s : State) (g : Nat) : (showIsland s g).fifos = s.fifos := by simp [showIsland]
@[simp] theorem thermalLimit_fifos (d : Die) (i : Clu) (s : State) : (thermalLimit d i s).fifos = s.fifos := by
  unfold thermalLimit
  dsimp only
  (repeat' split) <;> simp
@[simp] theorem grantSwitch_fifos (d : Die) (i : Clu) (s : State) : (grantSwitch d i s).fifos = s.fifos := by
  unfold grantSwitch
  dsimp only
  (repeat' split) <;> simp
@[simp] theorem droop_fifos (d : Die) (i : Clu) (s : State) : (droop d i s).fifos = s.fifos := by simp [droop]
@[simp] theorem droopRecovery_fifos (d : Die) (i : Clu) (s : State) : (droopRecovery d i s).fifos = s.fifos := by
  unfold droopRecovery
  dsimp only
  (repeat' split) <;> simp
@[simp] theorem powerTelemetry_fifos (w : Nat) (s : State) : (powerTelemetry w s).fifos = s.fifos := (rfl)
@[simp] theorem dozeIsl_fifos (s : State) (g : Nat) : (dozeIsl s g).fifos = s.fifos := by simp [dozeIsl]
@[simp] theorem dozeEnter_fifos (d : Die) (i : Clu) (s : State) :
    (dozeEnter d i s).fifos = s.fifos := by simp [dozeEnter]
@[simp] theorem islandWake_fifos (d : Die) (i : Clu) (s : State) :
    (islandWake d i s).fifos = s.fifos := by simp [islandWake]
@[simp] theorem wakeComplete_fifos (d : Die) (i : Clu) (s : State) : (wakeComplete d i s).fifos = s.fifos := by
  unfold wakeComplete
  dsimp only
  (repeat' split) <;> simp
@[simp] theorem wakeFn_fifos (s : State) (fn : Nat) : (wakeFn s fn).fifos = s.fifos := by simp [wakeFn]
@[simp] theorem lampWake_fifos (s : State) : (lampWake s).fifos = s.fifos := by simp [lampWake]
@[simp] theorem lampAlarm_fifos (s : State) : (lampAlarm s).fifos = s.fifos := by simp [lampAlarm]
@[simp] theorem lampExitComplete_fifos (s : State) : (lampExitComplete s).fifos = s.fifos := by simp [lampExitComplete]
@[simp] theorem bar0AccessWake_fifos (off : Nat) (s : State) :
    (bar0AccessWake off s).fifos = s.fifos := by simp [bar0AccessWake]
@[simp] theorem setRails_fifos (s : State) : (setRails s).fifos = s.fifos := (rfl)
@[simp] theorem replanIsland_fifos (s : State) (g : Nat) : (replanIsland s g).fifos = s.fifos := by simp [replanIsland]
@[simp] theorem maintenanceLate_fits (n : Nat) (s : State) (hs : Fits s.fifos) : Fits (maintenanceLate n s).fifos := by
  obtain ⟨hrx, htx, hlog, hdef⟩ := hs
  unfold maintenanceLate
  split
  · exact ⟨hrx, htx, hlog, hdef⟩
  · split
    · exact ⟨hrx, htx, hlog, hdef⟩
    · simp only [wr_fifos, bump_fifos, raise_fifos]
      exact ⟨hrx, htx, hlog, by simpa [State.fifos] using hdef⟩
@[simp] theorem rowSpareCopyDone_fifos (n : Nat) (s : State) : (rowSpareCopyDone n s).fifos = s.fifos := by
  unfold rowSpareCopyDone
  split <;> simp

/-! #### Tenants -/

@[simp] theorem setFn_fifos (s : State) (fn : Nat) (x : FnSt) : (setFn s fn x).fifos = s.fifos := (rfl)
@[simp] theorem logControl_fifos (s : State) (fn status : Nat) : (logControl s fn status).fifos = s.fifos := (rfl)
@[simp] theorem enableFn_fifos (s : State) (fn : Nat) : (enableFn s fn).1.fifos = s.fifos := by
  unfold enableFn
  (repeat' split) <;> simp
@[simp] theorem cancelVectors_fifos (s : State) (fn : Nat) : (cancelVectors s fn).fifos = s.fifos := (rfl)
@[simp] theorem discardFn_fifos (s : State) (fn : Nat) : (discardFn s fn).fifos = s.fifos := by simp [discardFn]
@[simp] theorem drainBellOut_fifos (s : State) (fn : Nat) : (drainBellOut s fn).fifos = s.fifos := by simp [drainBellOut]
@[simp] theorem stopFn_fifos (s : State) (fn : Nat) : (stopFn s fn).fifos = s.fifos := (rfl)
@[simp] theorem removeStreams_fifos (s : State) (fn : Nat) :
    (removeStreams s fn).fifos = s.fifos := by simp [removeStreams]
@[simp] theorem closeOpen_fifos (s : State) (w : CirWait) : (closeOpen s w).fifos = s.fifos := by simp [closeOpen]
@[simp] theorem closeOpens_fifos (s : State) (fn : Nat) : (closeOpens s fn).fifos = s.fifos := by simp [closeOpens]
@[simp] theorem startTeardown_fifos (s : State) (fn : Nat) :
    (startTeardown s fn).fifos = s.fifos := by simp [startTeardown]
@[simp] theorem disableFn_fifos (s : State) (fn : Nat) : (disableFn s fn).fifos = s.fifos := by simp [disableFn]
@[simp] theorem reclaimTallies_fifos (s : State) (fn : Nat) : (reclaimTallies s fn).fifos = s.fifos := (rfl)
@[simp] theorem zeroTokens_fifos (s : State) (fn : Nat) : (zeroTokens s fn).fifos = s.fifos := by simp [zeroTokens]
@[simp] theorem clearVfEnable_fifos (s : State) : (clearVfEnable s).fifos = s.fifos := by simp [clearVfEnable]
@[simp] theorem resetConfig_fifos (s : State) (fn : Nat) : (resetConfig s fn).fifos = s.fifos := by simp [resetConfig]
@[simp] theorem drainBell_fifos (s : State) : (drainBell s).fifos = s.fifos := by
  unfold drainBell
  split <;> simp

/-! #### Pcie -/

@[simp] theorem setVec_fifos (s : State) (fn v : Nat) (x : Machine.Vector) : (setVec s fn v x).fifos = s.fifos := (rfl)
@[simp] theorem sendMsix_fifos (s : State) (fn v : Nat) : (sendMsix s fn v).fifos = s.fifos := (rfl)
@[simp] theorem fireVec_fifos (s : State) (fn v : Nat) : (fireVec s fn v).fifos = s.fifos := by simp [fireVec]
@[simp] theorem unmask_fifos (fn v : Nat) (s : State) : (unmask fn v s).fifos = s.fifos := by simp [unmask]
@[simp] theorem writeVec_fifos (s : State) (fn v w val : Nat) :
    (writeVec s fn v w val).fifos = s.fifos := by simp [writeVec]
@[simp] theorem msixWrite_fifos (s : State) (fn o val : Nat) :
    (msixWrite s fn o val).fifos = s.fifos := by simp [msixWrite]
@[simp] theorem configWrite_fifos (s : State) (o val : Nat) : (configWrite s o val).fifos = s.fifos := by
  unfold configWrite
  (repeat' split) <;> simp
@[simp] theorem pcieRead_fifos (off : Nat) (s : State) : (pcieRead off s).fifos = s.fifos := by
  unfold pcieRead
  split <;> simp
@[simp] theorem pcieWrite_fifos (off val : Nat) (s : State) : (pcieWrite off val s).fifos = s.fifos := by
  unfold pcieWrite
  split <;> simp

/-! #### Tables -/

@[simp] theorem fabWrite_fifos (s : State) (tid bank idx : Nat) (data : List Byte) :
    (fabWrite s tid bank idx data).1.fifos = s.fifos := by
  unfold fabWrite
  dsimp only
  (repeat' split) <;> simp
@[simp] theorem cirWrite_fifos (s : State) (tid bank idx : Nat) (data : List Byte) :
    (cirWrite s tid bank idx data).1.fifos = s.fifos := by
  unfold cirWrite
  dsimp only
  (repeat' split) <;> simp
@[simp] theorem streamLoad_fifos (s : State) (m n : Nat) (data : List Byte) :
    (streamLoad s m n data).1.fifos = s.fifos := by
  unfold streamLoad
  dsimp only
  (repeat' split) <;> simp
@[simp] theorem milWrite_fifos (s : State) (tid idx : Nat) (data : List Byte) (who : Option (Nat × Nat × Nat)) :
    (milWrite s tid idx data who).1.fifos = s.fifos := by
  unfold milWrite
  dsimp only
  (repeat' split) <;> simp
@[simp] theorem tblWrite_fifos (s : State) (tid bank idx : Nat) (data : List Byte) (who : Option (Nat × Nat × Nat)) :
    (tblWrite s tid bank idx data who).1.fifos = s.fifos := by
  unfold tblWrite
  (repeat' split) <;> simp
@[simp] theorem winDone_fifos (s : State) (w : Window3) (st : Nat) : (winDone s w st).fifos = s.fifos := (rfl)
@[simp] theorem newCommand_fifos (s : State) (w : Window3) : (newCommand s w).fifos = s.fifos := by simp [newCommand]
@[simp] theorem winWrite_fifos (s : State) (w : Window3) : (winWrite s w).fifos = s.fifos := by simp [winWrite]
@[simp] theorem winRead_fifos (s : State) (w : Window3) : (winRead s w).fifos = s.fifos := by
  unfold winRead
  dsimp only
  (repeat' split) <;> simp
@[simp] theorem winCommand_fifos (s : State) (w : Window3) (v : Nat) :
    (winCommand s w v).fifos = s.fifos := by simp [winCommand]

/-! #### Mgmt -/

@[simp] theorem mgtConflict_fifos (s : State) (res : Nat) : (mgtConflict s res).fifos = s.fifos := by simp [mgtConflict]
@[simp] theorem logByte_fits (s : State) (b : Byte) (hs : Fits s.fifos) : Fits (logByte s b).fifos := by
  unfold logByte
  extract_lets l
  split
  · exact setMgmt_fits hs.1 hs.2.1 (by rw [List.length_drop]; omega) hs
  · exact hs
@[simp] theorem uartDataWrite_fits (host : Bool) (b : Byte) (s : State) (hs : Fits s.fifos) :
    Fits (uartDataWrite host b s).fifos := by
  have ⟨hrx, _, hlog, _⟩ := hs
  unfold uartDataWrite
  split
  · next h =>
    simp only [Bool.and_eq_true, decide_eq_true_eq] at h
    exact setMgmt_fits hrx (by simpa using h.2) hlog hs
  · exact hs
@[simp] theorem uartDataRead_fits (host : Bool) (s : State) (hs : Fits s.fifos) : Fits (uartDataRead host s).fifos := by
  have ⟨hrx, htx, hlog, _⟩ := hs
  unfold uartDataRead
  split
  · exact hs
  · next b fe rest h =>
    simp only [State.fifos, h, List.length_cons] at hrx
    split
    · rw [emit_fifos]
      exact setMgmt_fits (Nat.le_of_succ_le hrx) htx hlog hs
    · exact hs
@[simp] theorem uartRxFrame_fits (b : Byte) (stop : Bool) (s : State) (hs : Fits s.fifos) :
    Fits (uartRxFrame b stop s).fifos := by
  unfold uartRxFrame
  split
  · exact hs
  · extract_lets t
    have ht : Fits t.fifos := by
      unfold t
      split <;> simp [hs]
    have ⟨_, htx, hlog, _⟩ := ht
    split
    · next h => exact logByte_fits _ _ (setMgmt_fits (by simpa using h) htx hlog ht)
    · exact ht
@[simp] theorem uartByteSent_fits (s : State) (hs : Fits s.fifos) : Fits (uartByteSent s).fifos := by
  have ⟨hrx, htx, hlog, _⟩ := hs
  unfold uartByteSent
  split
  · exact hs
  · next b rest h =>
    simp only [State.fifos, h, List.length_cons] at htx
    split
    · refine logByte_fits _ _ ?_
      rw [emit_fifos]
      exact setMgmt_fits hrx (Nat.le_of_succ_le htx) hlog hs
    · exact hs
@[simp] theorem programFlash_fifos (s : State) (a : Nat) (bs : List Byte) :
    (programFlash s a bs).fifos = s.fifos := (rfl)
@[simp] theorem eraseFlash_fifos (s : State) (a n : Nat) : (eraseFlash s a n).fifos = s.fifos := (rfl)
@[simp] theorem touchRecords_fifos (s : State) (a n : Nat) :
    (touchRecords s a n).fifos = s.fifos := by simp [touchRecords]
@[simp] theorem flashRead_fifos (s : State) (a n : Nat) : (flashRead s a n).2.fifos = s.fifos := by
  unfold flashRead
  split <;> simp
@[simp] theorem spiDone_fifos (s : State) (st : Nat) : (spiDone s st).fifos = s.fifos := by simp [spiDone]
@[simp] theorem spiCommand_fifos (op : Nat) (spBusy : Bool) (s : State) :
    (spiCommand op spBusy s).fifos = s.fifos := by simp [spiCommand]
@[simp] theorem spiEffect_fifos (s : State) (x : SpiOp) : (spiEffect s x).fifos = s.fifos := by simp [spiEffect]
@[simp] theorem spiOpDone_fifos (timedOut : Bool) (s : State) : (spiOpDone timedOut s).fifos = s.fifos := by
  unfold spiOpDone
  split <;> simp
@[simp] theorem alertHigh_fifos (s : State) : (alertHigh s).fifos = s.fifos := by simp [alertHigh]
@[simp] theorem capWrite_fifos (w : BitVec 16) (pecOk : Bool) (s : State) :
    (capWrite w pecOk s).fifos = s.fifos := by simp [capWrite]
@[simp] theorem alertResponse_fifos (won : Bool) (s : State) :
    (alertResponse won s).fifos = s.fifos := by simp [alertResponse]
@[simp] theorem railFault_fifos (s : State) (failed bad : Bool) :
    (railFault s failed bad).fifos = s.fifos := by simp [railFault]
@[simp] theorem pmbusIoutPoll_fifos (rails : List RailTry) (s : State) :
    (pmbusIoutPoll rails s).fifos = s.fifos := by simp [pmbusIoutPoll]
@[simp] theorem busFreed_fifos (s : State) : (busFreed s).fifos = s.fifos := (rfl)
@[simp] theorem busRecovery_fifos (freed : Bool) (s : State) :
    (busRecovery freed s).fifos = s.fifos := by simp [busRecovery]
@[simp] theorem busRecoveryRepeat_fifos (freed : Bool) (s : State) : (busRecoveryRepeat freed s).fifos = s.fifos := by
  unfold busRecoveryRepeat
  split <;> simp
@[simp] theorem imonOne_fifos (s : State) (i mv : Nat) : (imonOne s i mv).fifos = s.fifos := by simp [imonOne]
@[simp] theorem gpioEdge_fifos (n : Fin 16) (level : Bool) (s : State) :
    (gpioEdge n level s).fifos = s.fifos := by simp [gpioEdge]
@[simp] theorem gpioPulse_fifos (n : Fin 16) (s : State) : (gpioPulse n s).fifos = s.fifos := by
  unfold gpioPulse
  dsimp only
  (repeat' split) <;> simp
@[simp] theorem testInstr_fifos (k : Nat) (s : State) : (testInstr k s).fifos = s.fifos := (rfl)

/-! #### Reset -/

@[simp] theorem hotReset_fifos (s : State) : (hotReset s).fifos = s.fifos := by simp [hotReset]
@[simp] theorem setBoot_fifos (s : State) (p : Nat) : (setBoot s p).fifos = s.fifos := (rfl)
@[simp] theorem restoreAges_fifos (s : State) : (restoreAges s).fifos = s.fifos := by simp [restoreAges]
@[simp] theorem startBoot_fifos (s : State) (sfdp : Option Byte) : (startBoot s sfdp).fifos = s.fifos := by
  unfold startBoot
  split <;> simp
@[simp] theorem resetRelease_fifos (straps : BitVec 2) (sfdp : Option Byte) (s : State) :
    (resetRelease straps sfdp s).fifos = s.fifos := by simp [resetRelease]
@[simp] theorem bootLinkTrained_fifos (s : State) : (bootLinkTrained s).fifos = s.fifos := by simp [bootLinkTrained]
@[simp] theorem bootImageSelect_fifos (s : State) : (bootImageSelect s).fifos = s.fifos := by simp [bootImageSelect]
@[simp] theorem restoreRes_fifos (s : State) (r : Res) : (restoreRes s r).fifos = s.fifos := by
  unfold restoreRes
  split <;> simp
@[simp] theorem restoreRows_fifos (s : State) : (restoreRows s).fifos = s.fifos := by simp [restoreRows]
@[simp] theorem selfTest_fifos (f : SelfTest) (s : State) : (selfTest f s).fifos = s.fifos := by simp [selfTest]
@[simp] theorem stopBefore_fifos (s : State) (fn t : Nat) : (stopBefore s fn t).fifos = s.fifos := by simp [stopBefore]
@[simp] theorem faultBellReceive_fifos (s : State) : (faultBellReceive s).fifos = s.fifos := by
  unfold faultBellReceive
  dsimp only
  (repeat' split) <;> simp

/-! #### Setup -/

@[simp] theorem refuseAt_fifos (s : State) (off bitNo : Nat) : (refuseAt s off bitNo).1.fifos = s.fifos := (rfl)
@[simp] theorem commitIf_fifos (ok : Bool) (s : State) (off new errOff errBit : Nat) :
    (commitIf ok s off new errOff errBit).1.fifos = s.fifos := by
  unfold commitIf
  split <;> simp
@[simp] theorem commitField_fifos (ok : Bool) (s : State) (off new hi lo errOff errBit : Nat) :
    (commitField ok s off new hi lo errOff errBit).1.fifos = s.fifos := by
  unfold commitField
  split <;> simp
@[simp] theorem writeFrec_fifos (s : State) (v new : Nat) : (writeFrec s v new).1.fifos = s.fifos := by
  unfold writeFrec
  (repeat' split) <;> simp
@[simp] theorem writeTb_fifos (lk : Bool) (s : State) (off new : Nat) : (writeTb lk s off new).1.fifos = s.fifos := by
  unfold writeTb
  (repeat' split) <;> simp
@[simp] theorem commitTbSet_fifos (s : State) (v : Nat) : (commitTbSet s v).1.fifos = s.fifos := by
  unfold commitTbSet
  split <;> simp
@[simp] theorem writeVfCtl_fifos (s : State) (n v : Nat) : (writeVfCtl s n v).1.fifos = s.fifos := by
  unfold writeVfCtl
  dsimp only
  (repeat' split) <;> simp
@[simp] theorem writeHst_fifos (lk : Bool) (s : State) (off v new : Nat) :
    (writeHst lk s off v new).1.fifos = s.fifos := by
  unfold writeHst
  dsimp only
  (repeat' split) <;> simp
@[simp] theorem writeEpoch_fifos (s : State) (v new : Nat) : (writeEpoch s v new).1.fifos = s.fifos := by
  unfold writeEpoch
  dsimp only
  (repeat' split) <;> simp
@[simp] theorem writeFab_fifos (s : State) (off v new : Nat) : (writeFab s off v new).1.fifos = s.fifos := by
  unfold writeFab
  (repeat' split) <;> simp
@[simp] theorem writeCirCtl_fifos (s : State) (v new : Nat) : (writeCirCtl s v new).1.fifos = s.fifos := by
  unfold writeCirCtl
  dsimp only
  (repeat' split) <;> simp
@[simp] theorem writeCir_fifos (s : State) (off v new : Nat) : (writeCir s off v new).1.fifos = s.fifos := by
  unfold writeCir
  (repeat' split) <;> simp
@[simp] theorem commitPolicer_fifos (lk : Bool) (s : State) (k new : Nat) :
    (commitPolicer lk s k new).1.fifos = s.fifos := by
  unfold commitPolicer
  dsimp only
  (repeat' split) <;> simp
@[simp] theorem commitShaper_fifos (lk : Bool) (s : State) (k new : Nat) :
    (commitShaper lk s k new).1.fifos = s.fifos := by
  unfold commitShaper
  dsimp only
  (repeat' split) <;> simp
@[simp] theorem writePol_fifos (lk : Bool) (s : State) (off new : Nat) : (writePol lk s off new).1.fifos = s.fifos := by
  unfold writePol
  split <;> simp
@[simp] theorem writeShp_fifos (lk : Bool) (s : State) (off new : Nat) : (writeShp lk s off new).1.fifos = s.fifos := by
  unfold writeShp
  split <;> simp
@[simp] theorem writeMirCtl_fifos (s : State) (new : Nat) : (writeMirCtl s new).1.fifos = s.fifos := by
  unfold writeMirCtl
  (repeat' split) <;> simp
@[simp] theorem writeMir_fifos (s : State) (off new : Nat) : (writeMir s off new).1.fifos = s.fifos := by
  unfold writeMir
  (repeat' split) <;> simp
@[simp] theorem writeUnit_fifos (s : State) (m new : Nat) : (writeUnit s m new).1.fifos = s.fifos := by
  unfold writeUnit
  dsimp only
  (repeat' split) <;> simp
@[simp] theorem writeMil_fifos (s : State) (off v new : Nat) : (writeMil s off v new).1.fifos = s.fifos := by
  unfold writeMil
  (repeat' split) <;> simp
@[simp] theorem writeLevels_fifos (s : State) (off new : Nat) : (writeLevels s off new).1.fifos = s.fifos := by
  unfold writeLevels
  dsimp only
  (repeat' split) <;> simp
@[simp] theorem writeDst_fifos (lk : Bool) (s : State) (off new : Nat) : (writeDst lk s off new).1.fifos = s.fifos := by
  unfold writeDst
  dsimp only
  (repeat' split) <;> simp
@[simp] theorem clErr_fifos (s : State) (d : Nat) (sts : List Nat) (idx : Nat) :
    (clErr s d sts idx).fifos = s.fifos := by simp [clErr]
@[simp] theorem writeCpx_fifos (s : State) (off new : Nat) : (writeCpx s off new).1.fifos = s.fifos := by
  unfold writeCpx
  dsimp only
  (repeat' split) <;> simp
@[simp] theorem gangWritten_fifos (s : State) (was : Bool) : (gangWritten s was).fifos = s.fifos := by simp [gangWritten]
@[simp] theorem writeBar_fifos (lk : Bool) (s : State) (b w new : Nat) : (writeBar lk s b w new).1.fifos = s.fifos := by
  unfold writeBar
  dsimp only
  (repeat' split) <;> simp
@[simp] theorem writeMgtCtl_fifos (s : State) (new : Nat) : (writeMgtCtl s new).1.fifos = s.fifos := by
  unfold writeMgtCtl
  split <;> simp
@[simp] theorem writeUart_fifos (s : State) (new : Nat) : (writeUart s new).1.fifos = s.fifos := by
  unfold writeUart
  dsimp only
  (repeat' split) <;> simp
@[simp] theorem drivePin_fifos (s : State) (n : Nat) : (drivePin s n).fifos = s.fifos := by simp [drivePin]
@[simp] theorem writeGpio_fifos (s : State) (n new : Nat) : (writeGpio s n new).1.fifos = s.fifos := by
  unfold writeGpio
  dsimp only
  (repeat' split) <;> simp
@[simp] theorem writeGpioOut_fifos (s : State) (new : Nat) :
    (writeGpioOut s new).fifos = s.fifos := by simp [writeGpioOut]
@[simp] theorem writeMgt_fits (lk : Bool) (s : State) (off v new : Nat) (hs : Fits s.fifos) :
    Fits (writeMgt lk s off v new).1.fifos := by
  unfold writeMgt
  (repeat' split) <;> simp [hs]
@[simp] theorem bar0Read_fits (off : Nat) (s : State) (hs : Fits s.fifos) : Fits (bar0Read off s).fifos := by
  unfold bar0Read
  (repeat' split) <;> simp [hs]
@[simp] theorem epochFlipAt_fifos (s : State) : (epochFlipAt s).fifos = s.fifos := by simp [epochFlipAt]
@[simp] theorem retentionEnd_fifos (s : State) : (retentionEnd s).fifos = s.fifos := by simp [retentionEnd]

/-! #### HostIf -/

@[simp] theorem reportAer_fifos (s : State) (fn : Nat) : (reportAer s fn).fifos = s.fifos := (rfl)
@[simp] theorem hasRead_fifos (s : State) : (hasRead s).fifos = s.fifos := (rfl)
@[simp] theorem setRing_fifos (s : State) (fn r : Nat) (x : Machine.Ring) : (setRing s fn r x).fifos = s.fifos := (rfl)
@[simp] theorem restartRing_fifos (entries : List Byte) (fn : Nat) (s : State) (r : Nat) :
    (restartRing entries fn s r).fifos = s.fifos := by simp [restartRing]
@[simp] theorem takeConfig_fifos (s : State) (fn gen : Nat) (entries : List Byte) :
    (takeConfig s fn gen entries).fifos = s.fifos := by simp [takeConfig]
@[simp] theorem seeTail_fifos (page : List Byte) (fn : Nat) (s : State) (r : Nat) :
    (seeTail page fn s r).fifos = s.fifos := by
  unfold seeTail
  split <;> simp
@[simp] theorem doorbellPoll_fifos (fn : Nat) (page entries : List Byte) (s : State) :
    (doorbellPoll fn page entries s).fifos = s.fifos := by simp [doorbellPoll]
@[simp] theorem readHead_fifos (s : State) (fn r cqh : Nat) : (readHead s fn r cqh).fifos = s.fifos := by
  unfold readHead
  split <;> simp
@[simp] theorem served_fifos (s : State) (fn : Nat) : (served s fn).fifos = s.fifos := (rfl)
@[simp] theorem descriptorFetch_fifos (fn r cqh : Nat) (data : List Byte) (s : State) :
    (descriptorFetch fn r cqh data s).fifos = s.fifos := by
  unfold descriptorFetch
  dsimp only
  (repeat' split) <;> simp
@[simp] theorem updDesc_fifos (s : State) (r : DescRef) (f : HostDesc → HostDesc) :
    (updDesc s r f).fifos = s.fifos := (rfl)
@[simp] theorem endDesc_fifos (s : State) (r : DescRef) (st : Nat) : (endDesc s r st).fifos = s.fifos := (rfl)
@[simp] theorem workDesc_fifos (s : State) (r : DescRef) : (workDesc s r).fifos = s.fifos := (rfl)
@[simp] theorem launchOn_fifos (r : DescRef) (fn g addr : Nat) (s : State) (c : Nat) :
    (launchOn r fn g addr s c).fifos = s.fifos := (rfl)
@[simp] theorem launchBody_fifos (r : DescRef) (h : HostDesc) (s : State) :
    (launchBody r h s).fifos = s.fifos := by simp [launchBody]
@[simp] theorem copyMoved_fifos (r : DescRef) (h : HostDesc) (s : State) :
    (copyMoved r h s).fifos = s.fifos := by simp [copyMoved]
@[simp] theorem copyOut_fifos (r : DescRef) (h : HostDesc) (s : State) :
    (copyOut r h s).fifos = s.fifos := by simp [copyOut]
@[simp] theorem sendRequest_fifos (r : DescRef) (h : HostDesc) (typ tsw : Nat) (more : List Byte) (s : State) :
    (sendRequest r h typ tsw more s).fifos = s.fifos := by
  unfold sendRequest
  split <;> simp
@[simp] theorem rreadBody_fifos (r : DescRef) (h : HostDesc) (s : State) :
    (rreadBody r h s).fifos = s.fifos := by simp [rreadBody]
@[simp] theorem ratomicBody_fifos (r : DescRef) (h : HostDesc) (s : State) :
    (ratomicBody r h s).fifos = s.fifos := by simp [ratomicBody]
@[simp] theorem sendMill_fifos (h : HostDesc) (s : State) (p : Nat × List Byte) :
    (sendMill h s p).fifos = s.fifos := (rfl)
@[simp] theorem msendBody_fifos (r : DescRef) (data : List Byte) (h : HostDesc) (s : State) :
    (msendBody r data h s).fifos = s.fifos := by simp [msendBody]
@[simp] theorem fctlEnableBody_fifos (r : DescRef) (h : HostDesc) (s : State) :
    (fctlEnableBody r h s).fifos = s.fifos := by simp [fctlEnableBody]
@[simp] theorem fctlStopBody_fifos (r : DescRef) (h : HostDesc) (s : State) :
    (fctlStopBody r h s).fifos = s.fifos := by simp [fctlStopBody]
@[simp] theorem fbindBody_fifos (r : DescRef) (h : HostDesc) (s : State) :
    (fbindBody r h s).fifos = s.fifos := by simp [fbindBody]
@[simp] theorem granBody_fifos (on : Bool) (r : DescRef) (h : HostDesc) (s : State) :
    (granBody on r h s).fifos = s.fifos := by simp [granBody]
@[simp] theorem tblrdBody_fifos (r : DescRef) (h : HostDesc) (s : State) :
    (tblrdBody r h s).fifos = s.fifos := by simp [tblrdBody]
@[simp] theorem winLoadBody_fifos (r : DescRef) (h : HostDesc) (s : State) :
    (winLoadBody r h s).fifos = s.fifos := by simp [winLoadBody]
@[simp] theorem winRemoveBody_fifos (r : DescRef) (h : HostDesc) (s : State) :
    (winRemoveBody r h s).fifos = s.fifos := by simp [winRemoveBody]
@[simp] theorem winRecordBody_fifos (clear : Bool) (r : DescRef) (h : HostDesc) (s : State) :
    (winRecordBody clear r h s).fifos = s.fifos := by simp [winRecordBody]
@[simp] theorem cirOpenBody_fifos (r : DescRef) (h : HostDesc) (s : State) :
    (cirOpenBody r h s).fifos = s.fifos := by simp [cirOpenBody]
@[simp] theorem cirCloseBody_fifos (r : DescRef) (h : HostDesc) (s : State) :
    (cirCloseBody r h s).fifos = s.fifos := by simp [cirCloseBody]
@[simp] theorem countVec_fifos (s : State) (fn : Nat) (e : List Byte) :
    (countVec s fn e).fifos = s.fifos := by simp [countVec]
@[simp] theorem completeHost_fifos (r : DescRef) (s : State) : (completeHost r s).fifos = s.fifos := by
  unfold completeHost
  (repeat' split) <;> simp
@[simp] theorem mtimeExpire_fifos (fn v : Nat) (s : State) :
    (mtimeExpire fn v s).fifos = s.fifos := by simp [mtimeExpire]
@[simp] theorem fetchError_fifos (r : DescRef) (s : State) : (fetchError r s).fifos = s.fifos := by
  unfold fetchError
  split <;> simp
@[simp] theorem pollError_fifos (fn : Nat) (entries : Bool) (s : State) :
    (pollError fn entries s).fifos = s.fifos := by simp [pollError]
@[simp] theorem headError_fifos (fn r : Nat) (s : State) : (headError fn r s).fifos = s.fifos := by
  unfold headError
  split <;> simp
@[simp] theorem accessError_fifos (r : HostRead) (s : State) : (accessError r s).fifos = s.fifos := by
  unfold accessError
  (repeat' split) <;> simp

/-! #### Tick -/

@[simp] theorem keepBusy_fifos (s : State) : (keepBusy s).fifos = s.fifos := by simp [keepBusy]
@[simp] theorem meshNs_fifos (s : State) (d : Nat) : (meshNs s d).fifos = s.fifos := (rfl)

/-! ### The shapes of a row, and the writers of the byte memories -/

@[simp] theorem fits_ite {c : Prop} [Decidable c] {a b : Fifos} :
    Fits (if c then a else b) ↔ (c → Fits a) ∧ (¬ c → Fits b) := by
  split <;> simp_all

@[simp] theorem foldl_fits {α : Type} {f : State → α → State}
    (hf : ∀ s x, Fits s.fifos → Fits (f s x).fifos) (l : List α) {s : State} (h : Fits s.fifos) :
    Fits (l.foldl f s).fifos := by
  induction l generalizing s with
  | nil => exact h
  | cons x r ih => exact ih (hf s x h)

@[simp] theorem foldl_fits_fst {α β : Type} {f : State × β → α → State × β}
    (hf : ∀ a x, Fits a.1.fifos → Fits (f a x).1.fifos) (l : List α) {a : State × β}
    (h : Fits a.1.fifos) :
    Fits (l.foldl f a).1.fifos := by
  induction l generalizing a with
  | nil => exact h
  | cons x r ih => exact ih (hf a x h)

@[simp] theorem markBusy_fifos (g : Nat) (s t : State) : (markBusy g s t).fifos = t.fifos := by simp [markBusy]
@[simp] theorem keepFlash_fifos (s t : State) : (keepFlash s t).fifos = t.fifos := (rfl)
@[simp] theorem keepModel_fifos (s t : State) : (keepModel s t).fifos = t.fifos := (rfl)
@[simp] theorem reset_fits : Fits State.reset.fifos := by unfold Fits; decide

section
variable {s : State}
@[simp] theorem meeting_fits {u : Upsets} {f : State → State} (hf : ∀ t, Fits t.fifos → Fits (f t).fifos)
    (h : Fits s.fifos) :
    Fits (meeting u f s).fifos := by
  unfold meeting
  have : Fits (List.foldl losePc s u.lost).fifos := foldl_fits (by simp) _ h
  exact hf _ this
@[simp] theorem onOp_fifos {k : CoreId} {p : List Byte → Bool} {f : Nat → RunList → State}
    (hf : ∀ fn r, (f fn r).fifos = s.fifos) :
    (onOp s k p f).fifos = s.fifos := by
  unfold onOp
  split
  · split
    · exact hf _ _
    · rfl
  · rfl
@[simp] theorem onOp_fits {k : CoreId} {p : List Byte → Bool} {f : Nat → RunList → State} (h : Fits s.fifos)
    (hf : ∀ fn r, Fits (f fn r).fifos) :
    Fits (onOp s k p f).fifos := by
  unfold onOp
  split
  · split
    · exact hf _ _
    · exact h
  · exact h
@[simp] theorem onWait_fifos {k : CoreId} {m : Nat} {f : Nat → RunList → Nat → State}
    (hf : ∀ fn r t, (f fn r t).fifos = s.fifos) :
    (onWait s k m f).fifos = s.fifos := by
  unfold onWait
  repeat' split
  all_goals simp [hf]
@[simp] theorem startDesc_fifos {row : HRow} {r : DescRef} {body : HostDesc → State → State}
    (hf : ∀ h, (body h s).fifos = s.fifos) :
    (startDesc row r body s).fifos = s.fifos := by
  unfold startDesc
  repeat' split
  all_goals simp [hf]
@[simp] theorem startDesc_fits {row : HRow} {r : DescRef} {body : HostDesc → State → State}
    (h : Fits s.fifos) (hf : ∀ h, Fits (body h s).fifos) :
    Fits (startDesc row r body s).fifos := by
  unfold startDesc
  repeat' split
  all_goals simp [hf, h]
end

/-- The bounded queues of the state that a mill instruction gives. -/
def MRes.fifos : MRes → Fifos
  | .go t _ _ => t.fifos
  | .done t => t.fifos
  | .trap t _ => t.fifos
@[simp] theorem MRes.fifos_go (t g pc) : (MRes.go t g pc).fifos = t.fifos := rfl
@[simp] theorem MRes.fifos_done (t) : (MRes.done t).fifos = t.fifos := rfl
@[simp] theorem MRes.fifos_trap (t c) : (MRes.trap t c).fifos = t.fifos := rfl
@[simp] theorem MRes.fifos_ite (c : Prop) [Decidable c] (a b : MRes) :
    (if c then a else b).fifos = if c then a.fifos else b.fifos := apply_ite _ _ _ _
@[simp] theorem millStep_fifos {m op : Nat} {pick used : MCtx → Bool} {eff : State → MCtx → MRes} {s : State}
    (hf : ∀ c, (eff s c).fifos = s.fifos) : (millStep m op pick used eff s).fifos = s.fifos := by
  unfold millStep
  split
  · rfl
  · next h _ =>
    have heff := hf ⟨m, h, codeWord s m h.pc⟩
    cases he : eff s ⟨m, h, codeWord s m h.pc⟩ <;> rw [he] at heff <;> simp_all
@[simp] theorem writeKey_fifos (s : State) (a : Nat) (bs : List Byte) : (writeKey s a bs).1.fifos = s.fifos := rfl
@[simp] theorem writeDeep_fifos (s : State) (a : Nat) (bs : List Byte) : (writeDeep s a bs).fifos = s.fifos := rfl
@[simp] theorem zeroCluster_fifos (s : State) (g : Nat) : (zeroCluster s g).fifos = s.fifos := rfl

/-! ### What calls the writers: stores, routing, admission, ports -/

/-! #### Ops -/

@[simp] theorem writeImage_fits (s : State) (a : Nat) (bs : List Byte) (hs : Fits s.fifos) :
    Fits (writeImage s a bs).fifos := by simp [writeImage, hs]

/-! #### Faults -/

@[simp] theorem putStore_fits (s : State) (a : Nat) (bs : List Byte) (hs : Fits s.fifos) :
    Fits (putStore s a bs).1.fifos := by
  unfold putStore
  dsimp only
  (repeat' split) <;> simp [hs]
@[simp] theorem putPlace_fits (s : State) (g fn a : Nat) (bs : List Byte) (hs : Fits s.fifos) :
    Fits (putPlace s g fn a bs).1.fifos := by
  unfold putPlace
  exact foldl_fits_fst (fun _ _ h => by dsimp only; (repeat' split) <;> simp [h]) _ hs

/-! #### Routing -/

@[simp] theorem transitPut_fifos (s : State) (uid : Nat) (org : Origin) (cs : List Copy) :
    (transitPut s uid org cs).fifos = s.fifos := by
  unfold transitPut
  extract_lets r
  have hr : r.1.fifos = s.fifos := foldl_fifos_fst (fun _ _ => by dsimp only; (repeat' split) <;> simp) cs (s, false)
  simp [hr]
theorem placeAll_fifos {p : Pkt} {cs : List Copy} {s t : State} (h : placeAll s p cs = some t) : t.fifos = s.fifos := by
  refine List.foldlRecOn (motive := fun a => ∀ t, a = some t → t.fifos = s.fifos) cs _ ?_ ?_ t h
  · rintro _ ⟨⟩; rfl
  · intro a ha c _ t ht
    cases a with
    | none => cases ht
    | some u =>
      dsimp only at ht
      split at ht
      all_goals
        split at ht <;> cases ht
        simp [ha _ rfl]
@[simp] theorem forward_fifos (s : State) (uid : Nat) (org : Origin) (f : Frame) (arr : Option Nat) :
    (forward s uid org f arr).fifos = s.fifos := by simp [forward]

/-! #### Admission -/

@[simp] theorem earlyDrop_fifos (s : State) (qs : List Nat) (colour : Nat) :
    (earlyDrop s qs colour).1.fifos = s.fifos := by
  simp [earlyDrop]
@[simp] theorem settle_fifos (s : State) (p : Pkt) (policed : Bool) : (settle s p policed).1.fifos = s.fifos := by
  unfold settle
  extract_lets f r
  split
  · simp
  · split
    · simp
    · split
      · simp
      · next h => simp [placeAll_fifos h]
@[simp] theorem police_fifos (s : State) (p : Pkt) : (police s p).1.fifos = s.fifos := by
  unfold police
  split
  · rfl
  · simp [apply_ite Prod.fst]
@[simp] theorem admitPacket_fifos (s : State) (p : Pkt) : (admitPacket s p).1.fifos = s.fifos := by
  unfold admitPacket
  dsimp only
  split
  · simp [apply_ite Prod.fst]
  · split <;> simp
@[simp] theorem admitBound_fifos (s : State) (p : Pkt) (cid : Nat) (first : Bool) :
    (admitBound s p cid first).1.fifos = s.fifos := by
  simp [admitBound, apply_ite Prod.fst]
@[simp] theorem admitPkt_fifos (s : State) (p : Pkt) (first : Bool) : (admitPkt s p first).1.fifos = s.fifos := by
  unfold admitPkt
  split <;> simp
@[simp] theorem atDoor_fifos (s : State) (p : Pkt) : (atDoor s p).fifos = s.fifos := by
  unfold atDoor
  extract_lets f r
  have hr : r.1.fifos = s.fifos := by
    unfold r
    split <;> simp
  split
  · rfl
  · split <;> simp [hr]

/-! #### PortOps -/

@[simp] theorem fallBackOn_fifos (s : State) (e : QEntry) : (fallBackOn s e).fifos = s.fifos := by simp [fallBackOn]
@[simp] theorem dropSlots_fifos (s : State) (p : Nat) (test : SlotFrame → Bool) :
    (dropSlots s p test).fifos = s.fifos := by simp [dropSlots]
@[simp] theorem emptySource_fifos (s : State) (cid : Nat) : (emptySource s cid).fifos = s.fifos := by simp [emptySource]
@[simp] theorem closeCid_fifos (s : State) (cid openStatus : Nat) :
    (closeCid s cid openStatus).fifos = s.fifos := by simp [closeCid]
@[simp] theorem closeOnPort_fifos (s : State) (p : Nat) : (closeOnPort s p).fifos = s.fifos := by simp [closeOnPort]
@[simp] theorem reroute_fifos (s : State) (e0 : QEntry) : (reroute s e0).fifos = s.fifos := by
  unfold reroute
  extract_lets r s1 e b
  have hs1 : s1.fifos = s.fifos := by simp [s1, r, apply_ite Prod.fst]
  repeat' split
  all_goals simp [hs1]
@[simp] theorem rerouteAll_fifos (s : State) (l : List QEntry) : (rerouteAll s l).fifos = s.fifos := by simp [rerouteAll]
@[simp] theorem clearPort_fifos (s : State) (p k : Nat) : (clearPort s p k).fifos = s.fifos := by simp [clearPort]
@[simp] theorem resolveDoubt_fifos (s : State) (p k : Nat) (b : Bool) :
    (resolveDoubt s p k b).fifos = s.fifos := by simp [resolveDoubt]
@[simp] theorem goDown_fifos (s : State) (p : Nat) (b : Option Nat) : (goDown s p b).fifos = s.fifos := by
  cases b <;> simp [goDown]
@[simp] theorem startFailing_fifos (s : State) (p : Nat) : (startFailing s p).fifos = s.fifos := by simp [startFailing]
@[simp] theorem portEvent_fifos (s : State) (p : Nat) : (portEvent s p).fifos = s.fifos := by simp [portEvent]
@[simp] theorem enterFailing_fifos (s : State) (p : Nat) : (enterFailing s p).fifos = s.fifos := by simp [enterFailing]
@[simp] theorem linkError_fifos (s : State) (p : Nat) : (linkError s p).fifos = s.fifos := by simp [linkError]

/-! ### The matrix engine -/

/-- A fold keeps the queues within their sizes whatever else its accumulator carries, where each of its steps does. -/
theorem foldl_fits_of {α β : Type} (st : β → State) {f : β → α → β}
    (hf : ∀ a x, Fits (st a).fifos → Fits (st (f a x)).fifos) (l : List α) {a : β}
    (h : Fits (st a).fifos) : Fits (st (l.foldl f a)).fifos :=
  List.foldlRecOn (motive := fun b => Fits (st b).fifos) l f h fun b hb x _ => hf b x hb

theorem stepsFrom_fits {α : Type} (st : α → State) {f : α → Nat → α} (bad : α → Bool) (one : Bool)
    (hf : ∀ a j, Fits (st a).fifos → Fits (st (f a j)).fifos) (n j : Nat) {a : α}
    (h : Fits (st a).fifos) : Fits (st (stepsFrom f bad one n j a).1).fifos := by
  induction n generalizing j a with
  | zero => exact h
  | succ n ih =>
    unfold stepsFrom
    dsimp only
    split
    · exact hf _ _ h
    · exact ih _ (hf _ _ h)

section
variable {s : State} (hs : Fits s.fifos)
include hs

@[simp] theorem putOp_fits (core fn : Nat) (org : Origin) (rm : Remote) (w : Nat) (ws : List (Nat × List Byte)) :
    Fits (putOp s core fn org rm w ws).1.fifos := by
  unfold putOp
  split
  · simp [hs]
  · split
    · exact foldl_fits (fun t r ht => by simpa using ht) _ hs
    · refine foldl_fits_fst (fun t r ht => ?_) _ hs
      split
      · dsimp only
        split <;> simp [ht]
      · exact ht

@[simp] theorem putLocal_fits (core a : Nat) (bs : List Byte) : Fits (putLocal s core a bs).1.fifos := by
  unfold putLocal
  split <;> simp [hs]

@[simp] theorem endTile_fits (core : Nat) (p : Params) (e : EFmt) (t : TileAcc) :
    Fits (endTile s core p e t).1.fifos := by
  unfold endTile
  extract_lets a b
  have ha : Fits a.1.fifos := by
    unfold a
    split <;> simp [hs, apply_ite Prod.fst]
  show Fits b.1.fifos
  unfold b
  split <;> simp [ha]

theorem endFused_fits (core : Nat) (p : Params) (o : Option EFmt) (t : TileAcc) (ue : Bool) :
    Fits (endFused s core p o t ue).s.fifos := by
  unfold endFused
  split
  · dsimp only
    split <;> simp [hs]
  · exact hs

@[simp] theorem putElem_fits (core fn : Nat) (org : Origin) (rm : Remote) (w wd o code : Nat) :
    Fits (putElem s core fn org rm w wd o code).1.fifos := by simp [putElem, hs]

end

theorem seamStep_fits (core fn : Nat) (org : Origin) (d : MatmulD) (p : Params) (bl : Nat × Nat × Nat × Nat) (i : Nat)
    {a : MatmulAcc} (ha : Fits a.s.fifos) : Fits (seamStep core fn org d p bl i a).s.fifos := by
  unfold seamStep
  extract_lets sm runs m a' x ws fl out w src ims fl' w'
  have hm : Fits m.1.fifos := by simp [m, ha]
  split
  · exact hm
  · split
    · exact putOp_fits hm _ _ _ _ _ _
    · show Fits w'.1.fifos
      unfold w'
      split
      · refine foldl_fits_fst (fun b _ hb => ?_) _ hm
        exact putLocal_fits hb _ _ _
      · exact hm

theorem blockStep_fits (core fn : Nat) (org : Origin) (d : MatmulD) (p : Params) (bl : Nat × Nat × Nat × Nat)
    {a : MatmulAcc} (ha : Fits a.s.fifos) : Fits (blockStep core fn org d p bl a).s.fifos := by
  unfold blockStep
  extract_lets k w m a'
  split
  · exact ha
  · split
    · exact ha
    · show Fits w.1.fifos
      refine foldl_fits_fst (fun b _ hb => ?_) _ ha
      exact putLocal_fits hb _ _ _
  · extract_lets res o1 o2
    have hm : Fits m.1.fifos := by simp [m, ha]
    have ho1 : Fits o1.1.fifos := putOp_fits hm _ _ _ _ _ _
    split
    · exact hm
    · show Fits o2.1.fifos
      unfold o2
      split
      · exact putOp_fits ho1 _ _ _ _ _ _
      · exact ho1

theorem matmulStep_fits (core fn : Nat) (org : Origin) (d : MatmulD) (p : Params) (j : Nat)
    {a : MatmulAcc} (ha : Fits a.s.fifos) : Fits (matmulStep core fn org d p a j).s.fifos := by
  unfold matmulStep
  extract_lets k bl b
  show Fits (noteStep b.s core fn a.ea b.ea).fifos
  rw [noteStep_fifos]
  unfold b
  split
  · exact blockStep_fits _ _ _ _ _ _ ha
  · exact seamStep_fits _ _ _ _ _ _ _ ha

theorem matmulFrom_fifos (s : State) (core : Nat) (d : MatmulD) (part : Option Part) :
    (matmulFrom s core d part).2.s.fifos = s.fifos := by
  unfold matmulFrom
  extract_lets m fresh
  have hfresh : fresh.2.s.fifos = s.fifos := by
    unfold fresh
    split <;> simp [m]
  split
  · rfl
  all_goals exact hfresh

theorem runMatmul_fits {s : State} (hs : Fits s.fifos) (core fn : Nat) (org : Origin) (d : MatmulD) (p : Params)
    (one : Bool) (part : Option Part) : Fits (runMatmul s core fn org d p one part).s.fifos := by
  unfold runMatmul
  extract_lets total a r
  have ha : Fits a.2.s.fifos := by rw [matmulFrom_fifos]; exact hs
  have hr : Fits r.1.s.fifos :=
    stepsFrom_fits MatmulAcc.s _ _ (fun _ j h => matmulStep_fits core fn org d p j h) _ _ ha
  split
  · exact ha
  · split
    · exact hr
    · split
      · exact hr
      · exact endFused_fits hr _ _ _ _ _

theorem runConvert_fits {s : State} (hs : Fits s.fifos) (core fn : Nat) (org : Origin) (d : ConvertD) (p : Params) :
    Fits (runConvert s core fn org d p).s.fifos := by
  unfold runConvert
  extract_lets m res code step a s1 e
  have hm : Fits m.1.fifos := by simp [m, hs]
  have hs1 : Fits s1.fifos := by
    rw [noteStep_fifos]
    exact foldl_fits_fst (fun b r hb => by simp [step, hb]) _ hm
  split
  · exact hm
  · split
    · exact hs1
    · exact endTile_fits hs1 _ _ _ _

theorem reduceSumStep_fits (core fn : Nat) (org : Origin) (d : ReduceD) (p : Params) (o : Nat) {a : ReduceAcc}
    (ha : Fits a.s.fifos) : Fits (reduceSumStep core fn org d p a o).s.fifos := by
  unfold reduceSumStep
  dsimp only
  split
  · simp [ha]
  · split
    · split <;> simp [ha]
    · simp [ha]
  · exact ha
  · exact ha

theorem reducePickStep_fits (core fn : Nat) (org : Origin) (d : ReduceD) (p : Params) (o : Nat) {a : ReduceAcc}
    (ha : Fits a.s.fifos) : Fits (reducePickStep core fn org d p a o).s.fifos := by
  unfold reducePickStep
  split <;> simp [ha]

theorem reduceStep_fits (core fn : Nat) (org : Origin) (d : ReduceD) (p : Params) (o : Nat) {a : ReduceAcc}
    (ha : Fits a.s.fifos) : Fits (reduceStep core fn org d p a o).s.fifos := by
  unfold reduceStep
  extract_lets m a' b
  have hm : Fits m.1.fifos := by simp [m, ha]
  split
  · exact hm
  · dsimp only
    rw [noteStep_fifos]
    unfold b
    split
    · exact reduceSumStep_fits _ _ _ _ _ _ hm
    · exact reducePickStep_fits _ _ _ _ _ _ hm

theorem runReduce_fits {s : State} (hs : Fits s.fifos) (core fn : Nat) (org : Origin) (d : ReduceD) (p : Params)
    (one : Bool) (part : Option Part) : Fits (runReduce s core fn org d p one part).s.fifos := by
  unfold runReduce
  extract_lets a r
  have hr : Fits r.1.s.fifos :=
    stepsFrom_fits ReduceAcc.s _ _ (fun _ j h => reduceStep_fits core fn org d p j h) _ _
      (by rw [reduceFrom_s]; exact hs)
  split
  · exact hr
  · split
    · exact hr
    · exact endFused_fits hr _ _ _ _ _

/-! ### Sparse operations -/

@[simp] theorem SparseAcc.meet_fifos (a : SparseAcc) (rs : Runs) : (SparseAcc.meet a rs).s.fifos = a.s.fifos := by
  simp [SparseAcc.meet]

section
variable {a : SparseAcc} (ha : Fits a.s.fifos)
include ha

theorem rawSpill_fits (x : SparseCtx) (i : Nat) (o : Octet) : Fits (rawSpill x a i o).s.fifos :=
  putLocal_fits (s := (freshBytes a.s 144).2) ha _ _ _

theorem enterImages_fits (x : SparseCtx) (o : Octet) : Fits (enterImages x a o).s.fifos := by
  unfold enterImages
  refine foldl_fits_of SparseAcc.s (fun b w hb => ?_) _ (by simp [ha])
  exact putLocal_fits hb _ _ _

theorem spillOctet_fits (x : SparseCtx) (o : Octet) : Fits (spillOctet x a o).s.fifos := by
  unfold spillOctet
  extract_lets narrow a' count
  split
  · refine enterImages_fits ?_ x o
    show Fits (bump _ _ _).fifos
    split <;> simp [a', ha]
  · split
    · show Fits (raise _ _ _).fifos
      simp [a', ha]
    · exact rawSpill_fits (by simp [count, a', ha]) _ _ _

theorem takeOctet_fits (x : SparseCtx) (r g : Nat) : Fits (takeOctet x a r g).1.s.fifos := by
  unfold takeOctet
  split
  · exact ha
  · extract_lets mine a'
    have ha' : Fits a'.s.fifos := by
      unfold a'
      split
      · exact ha
      · split
        · exact spillOctet_fits ha _ _
        · exact ha
    split
    · simp [ha']
    · exact ha'

theorem sparseGroup_fits (x : SparseCtx) (v : Num) (r t g : Nat) : Fits (sparseGroup x v r t a g).s.fifos := by
  unfold sparseGroup
  split
  · exact ha
  · extract_lets q
    have hq : Fits q.1.s.fifos := takeOctet_fits ha x r g
    split <;> exact hq

theorem flushOctets_fits (x : SparseCtx) (si : Nat) : Fits (flushOctets x si a).s.fifos := by
  unfold flushOctets
  refine foldl_fits_of SparseAcc.s (fun b o hb => ?_) _ ha
  split
  · exact enterImages_fits hb _ _
  · exact hb
  · exact hb

theorem writeSeams_fits (x : SparseCtx) (r si n : Nat) : Fits (writeSeams x r si n a).s.fifos := by
  unfold writeSeams
  split
  · exact ha
  · refine foldl_fits_of SparseAcc.s (fun b i hb => ?_) _ ha
    split
    · exact hb
    · exact putOp_fits hb _ _ _ _ _ _

theorem endRow_fits (x : SparseCtx) (r : Nat) : Fits (endRow x r a).s.fifos := by
  unfold endRow
  split
  · exact ha
  · exact ha
  · extract_lets ims vals fl src em o w w2
    have hw : Fits w.1.fifos := putOp_fits ha _ _ _ _ _ _
    show Fits w2.1.fifos
    unfold w2
    split
    · exact putOp_fits hw _ _ _ _ _ _
    · exact hw

theorem endSeam_fits (x : SparseCtx) (si : Nat) : Fits (endSeam x si a).s.fifos := by
  unfold endSeam
  split
  · exact ha
  · exact ha
  · exact putOp_fits ha _ _ _ _ _ _

theorem failContent_fits (x : SparseCtx) : Fits (failContent x a).s.fifos := by
  show Fits (raise _ _ _).fifos
  simp [ha]

end

theorem walkRow_fits (x : SparseCtx) (i : Nat) (ks : List Nat) (prev : Option Nat) (cur : Nat) {a : SparseAcc}
    (ha : Fits a.s.fifos) : Fits (walkRow x i ks prev cur a).1.s.fifos := by
  induction ks generalizing prev cur a with
  | nil => exact ha
  | cons k ks ih =>
    unfold walkRow
    extract_lets m j rising sj nxt a1 r t a2 v a3
    have hm : Fits m.s.fifos := by simp [m, ha]
    have h1 : Fits a1.s.fifos := by
      unfold a1
      split
      · exact writeSeams_fits (flushOctets_fits hm _ _) _ _ _ _
      · exact hm
    have h2 : Fits a2.s.fifos := by
      unfold a2
      split
      · exact h1
      · simp [h1]
    split
    · exact hm
    · split
      · exact failContent_fits hm x
      · split
        · exact h2
        · exact ih _ _ (foldl_fits_of SparseAcc.s (fun b g hb => sparseGroup_fits hb _ _ _ _ _) _ h2)

theorem sparseRow_fits (x : SparseCtx) (i : Nat) {a : SparseAcc} (ha : Fits a.s.fifos) :
    Fits (sparseRow x a i).s.fifos := by
  unfold sparseRow
  extract_lets m lo hi w sm si b
  have hm : Fits m.s.fifos := by simp [m, ha]
  have hw : Fits w.1.s.fifos := walkRow_fits x i _ _ _ hm
  have hb : Fits b.s.fifos := writeSeams_fits (flushOctets_fits hw _ _) _ _ _ _
  split
  · exact hm
  · split
    · exact failContent_fits hm x
    · split
      · exact hw
      · split
        · split
          · exact endSeam_fits (flushOctets_fits hw _ _) _ _
          · exact hw
        · split
          · exact hb
          · exact endRow_fits hb _ _

theorem clearImages_fits (x : SparseCtx) {s : State} (hs : Fits s.fifos) :
    Fits (clearImages x s).1.fifos := by
  unfold clearImages
  split
  · exact putLocal_fits hs _ _ _
  · exact hs

theorem sparseStep_fits (x : SparseCtx) (j : Nat) {a : SparseAcc} (ha : Fits a.s.fifos) :
    Fits (sparseStep x a j).s.fifos := by
  show Fits (noteStep _ _ _ _ _).fifos
  rw [noteStep_fifos]
  exact sparseRow_fits x _ ha

theorem spillLive_fits (x : SparseCtx) {a : SparseAcc} (ha : Fits a.s.fifos) :
    Fits (spillLive x a).s.fifos := by
  unfold spillLive
  refine foldl_fits_of SparseAcc.s (fun b o hb => ?_) _ ha
  split
  · exact hb
  · exact spillOctet_fits hb _ _

theorem sparseWalk_fits (x : SparseCtx) (one : Bool) (n j : Nat) {a : SparseAcc} (ha : Fits a.s.fifos) :
    Fits (sparseWalk x one n j a).1.s.fifos := by
  induction n generalizing j a with
  | zero => exact ha
  | succ n ih =>
    unfold sparseWalk
    extract_lets b
    have hb : Fits b.s.fifos := sparseStep_fits x j ha
    split
    · exact hb
    · split
      · exact spillLive_fits x hb
      · exact ih _ hb

theorem scrambleC_fits (x : SparseCtx) {s : State} (hs : Fits s.fifos) : Fits (scrambleC x s).fifos := by
  unfold scrambleC
  extract_lets one s1
  have hone : ∀ w t e, Fits t.fifos → Fits (one w t e).fifos := by
    intro w t e ht
    unfold one
    split
    · exact ht
    · exact putOp_fits (s := (freshBytes t e.2).2) ht _ _ _ _ _ _
  have h1 : Fits s1.fifos := foldl_fits (hone _) _ hs
  split
  · exact foldl_fits (hone _) _ h1
  · exact h1

theorem sparseFrom_fits (x : SparseCtx) {s : State} (hs : Fits s.fifos) (part : Option Part) :
    Fits (sparseFrom x s part).2.s.fifos := by
  unfold sparseFrom
  split
  · exact hs
  all_goals exact clearImages_fits x hs

theorem runSparse_fits {s : State} (hs : Fits s.fifos) (core fn : Nat) (org : Origin) (d : SparseD) (p : Params)
    (det one : Bool) (part : Option Part) : Fits (runSparse s core fn org d p det one part).1.s.fifos := by
  unfold runSparse
  extract_lets x a r
  have ha : Fits a.2.s.fifos := sparseFrom_fits x hs part
  have hr : Fits r.1.s.fifos := by
    unfold r
    split
    · exact ha
    · exact sparseWalk_fits x one _ _ ha
  split
  · exact hr
  · exact scrambleC_fits x hr
  · exact scrambleC_fits x hr
  · split
    · exact hr
    · exact endFused_fits hr _ _ _ _ _

/-! ### Work lists and context switches -/

@[simp] theorem stageNext_fifos (s : State) (core fn : Nat) (l : List StageTodo) :
    (stageNext s core fn l).fifos = s.fifos := by
  induction l generalizing s with
  | nil =>
    unfold stageNext
    (repeat' split) <;> simp
  | cons x t ih =>
    cases x <;> unfold stageNext <;> split <;> simp [ih]

@[simp] theorem completeDesc_fifos (s : State) (core fn : Nat) (r : RunList) :
    (completeDesc s core fn r).fifos = s.fifos := by
  unfold completeDesc
  extract_lets flags t
  have ht : t.fifos = s.fifos := by simp [t]
  (repeat' split) <;> simp [ht]

@[simp] theorem descriptorComplete_fifos (k : CoreId) (s : State) : (descriptorComplete k s).fifos = s.fifos := by
  unfold descriptorComplete
  split <;> simp

@[simp] theorem listNop_fifos (k : CoreId) (s : State) : (listNop k s).fifos = s.fifos := by simp [listNop]
@[simp] theorem waitTally_fifos (k : CoreId) (s : State) : (waitTally k s).fifos = s.fifos := by simp [waitTally]
@[simp] theorem waitTime_fifos (k : CoreId) (s : State) : (waitTime k s).fifos = s.fifos := by simp [waitTime]
@[simp] theorem waitComplete_fifos (k : CoreId) (s : State) : (waitComplete k s).fifos = s.fifos := by
  simp [waitComplete]
@[simp] theorem waitTimeout_fifos (k : CoreId) (s : State) : (waitTimeout k s).fifos = s.fifos := by
  simp [waitTimeout]
@[simp] theorem waitTimeReached_fifos (k : CoreId) (s : State) : (waitTimeReached k s).fifos = s.fifos := by
  simp [waitTimeReached]
@[simp] theorem listLoop_fifos (k : CoreId) (s : State) : (listLoop k s).fifos = s.fifos := by simp [listLoop]
@[simp] theorem pillarMark_fifos (k : CoreId) (s : State) : (pillarMark k s).fifos = s.fifos := by simp [pillarMark]
@[simp] theorem pillarClear_fifos (k : CoreId) (s : State) : (pillarClear k s).fifos = s.fifos := by simp [pillarClear]

theorem finishOp_fifos (r : OpRes) (core fn : Nat) : (finishOp r core fn).fifos = r.s.fifos := by
  unfold finishOp
  (repeat' split) <;> simp

theorem copyPiece_fits (core fn : Nat) (org : Origin) (d : CopyD) (goOn : Bool) (g : List CopySeg) {a : State × Bool}
    (ha : Fits a.1.fifos) : Fits (copyPiece core fn org d goOn a g).1.fifos := by
  unfold copyPiece
  extract_lets m
  have hm : Fits m.1.fifos := by simp [m, ha]
  split
  · exact hm
  · refine foldl_fits_fst (fun b x hb => ?_) _ hm
    refine putOp_fits ?_ _ _ _ _ _ _
    split
    · simpa using hb
    · exact hb

theorem moveCopy_fits {s : State} (hs : Fits s.fifos) (core fn : Nat) (org : Origin) (d : CopyD) (goOn one : Bool)
    (j : Nat) : Fits (moveCopy s core fn org d goOn one j).1.1.fifos :=
  stepsFrom_fits Prod.fst _ _ (fun _ _ h => copyPiece_fits core fn org d goOn _ h) _ _ hs

section
variable {s : State} (hs : Fits s.fifos)
include hs

@[simp] theorem listMatmul_fits (k : CoreId) : Fits (listMatmul k s).fifos := by
  refine onOp_fits hs fun fn r => ?_
  split
  · rw [finishOp_fifos]
    exact runMatmul_fits hs _ _ _ _ _ _ _
  · exact hs

@[simp] theorem listConvert_fits (k : CoreId) : Fits (listConvert k s).fifos := by
  refine onOp_fits hs fun fn r => ?_
  split
  · rw [finishOp_fifos]
    exact runConvert_fits hs _ _ _ _ _
  · exact hs

@[simp] theorem listSparse_fits (k : CoreId) : Fits (listSparse k s).fifos := by
  refine onOp_fits hs fun fn r => ?_
  split
  · extract_lets x
    have hx : Fits x.1.s.fifos := runSparse_fits hs _ _ _ _ _ _ _ _
    split <;> simp [finishOp_fifos, hx]
  · exact hs

@[simp] theorem listReduce_fits (k : CoreId) (rop : Nat) : Fits (listReduce k rop s).fifos := by
  refine onOp_fits hs fun fn r => ?_
  split
  · rw [finishOp_fifos]
    exact runReduce_fits hs _ _ _ _ _ _ _
  · exact hs

@[simp] theorem listCopy_fits (k : CoreId) : Fits (listCopy k s).fifos := by
  refine onOp_fits hs fun fn r => ?_
  extract_lets d q n c n' m
  have hm : Fits m.1.1.fifos := moveCopy_fits (by simp [n', hs, apply_ite Prod.snd]) _ _ _ _ _ _ _
  split
  · simp [n, hs]
  · split
    · simp [hs]
    · split
      · simp [hm]
      · split
        · exact hm
        · simp [hm]

@[simp] theorem copyComplete_fits (k : CoreId) (n : Nat) : Fits (copyComplete k n s).fifos := by
  unfold copyComplete
  split
  · exact hs
  · split
    · exact hs
    · extract_lets d total m t
      have hm : Fits m.1.1.fifos := moveCopy_fits hs _ _ _ _ _ _ _
      have ht : Fits t.fifos := by simp [t, hm]
      (repeat' split) <;> simp [hs, ht]

@[simp] theorem listStage_fits (k : CoreId) : Fits (listStage k s).fifos := by
  refine onOp_fits hs fun fn r => ?_
  extract_lets d src t m
  have ht : Fits t.fifos := by simp [t, src, hs]
  have hm : Fits m.1.fifos := by
    unfold m
    split
    · exact moveCopy_fits ht _ _ _ _ _ _ _
    · exact ht
  split
  · exact hs
  · split <;> simp [hm]

@[simp] theorem saveBlock_fits (g img b : Nat) : Fits (saveBlock s g img b).fifos := by
  unfold saveBlock
  split
  · exact hs
  · extract_lets o
    split
    · simp [hs]
    · extract_lets k m bad m' src t
      have hm : Fits m.fifos := by simp [m, hs]
      have hm' : Fits m'.fifos := foldl_fits (fun b l hb => by simp [hb]) _ hm
      have ht : Fits t.fifos := hm'
      exact foldl_fits (fun b l hb => by simp [hb]) _ ht

@[simp] theorem restoreBlock_fits (g fn img b : Nat) : Fits (restoreBlock s g fn img b).fifos := by
  unfold restoreBlock
  extract_lets o m t
  have hm : Fits m.1.fifos := by
    unfold m
    split <;> simp [hs]
  have ht : Fits t.fifos := by simp [t, hm]
  split
  · exact ht
  · exact foldl_fits (fun b c hb => by simpa using hb) _ ht

@[simp] theorem moveBlock_fits (g : Nat) : Fits (moveBlock s g).fifos := by
  unfold moveBlock
  extract_lets x
  split
  · exact hs
  · extract_lets t y
    have ht : Fits t.fifos := by
      unfold t
      split <;> simp [hs]
    split
    · exact hs
    · split <;> simp [ht]

theorem moveBlocks_fits (g : Nat) : Fits (moveBlocks s g).fifos :=
  foldl_fits (fun _ _ h => moveBlock_fits h g) _ hs

@[simp] theorem contextSaveDone_fits (d : Die) (i : Clu) : Fits (contextSaveDone d i s).fifos := by
  have ht := moveBlocks_fits hs (cluNo d i)
  cases hw : (slotSt s (cluNo d i)).switch with
  | none => simp [contextSaveDone, hw, hs]
  | some w =>
    cases hy : (slotSt (moveBlocks s (cluNo d i)) (cluNo d i)).switch <;> simp [contextSaveDone, hw, hy, hs, ht]

@[simp] theorem contextRestoreDone_fits (d : Die) (i : Clu) : Fits (contextRestoreDone d i s).fifos := by
  have ht := moveBlocks_fits hs (cluNo d i)
  unfold contextRestoreDone
  dsimp only
  generalize moveBlocks s (cluNo d i) = t at ht ⊢
  (repeat' split) <;> simp [hs, ht]

@[simp] theorem transferNs_fits (g : Nat) : Fits (transferNs s g).fifos := by
  unfold transferNs
  extract_lets x
  split
  · exact hs
  · split <;> simp [hs]

end

/-! ### Remote operations -/

section
variable {s : State} (hs : Fits s.fifos)
include hs

@[simp] theorem landCluster_fits (g fn a : Nat) (bs : List Byte) : Fits (landCluster s g fn a bs).fifos := by
  simp [landCluster, hs]

@[simp] theorem land_fits (f : Frame) (t : Target) : Fits (land s f t).fifos := by
  unfold land
  extract_lets t'
  have ht : Fits t'.fifos := by
    unfold t'
    split
    · simp [hs]
    · exact foldl_fits (fun _ _ h => by simp [h]) _ hs
  simp [ht]

@[simp] theorem remoteWrite_fits (q : Fin 9) : Fits (remoteWrite q s).fifos := by
  unfold remoteWrite
  split
  · exact hs
  · split
    · exact hs
    · split
      · simp [hs]
      · extract_lets here t
        have ht : Fits t.fifos := by simp [t, hs]
        split
        · exact hs
        · exact foldl_fits (fun _ _ h => by simp [h]) _ (by simp [ht])

@[simp] theorem writeAtomic_fits (a : AtomicOp) (bs : List Byte) : Fits (writeAtomic s a bs).fifos := by
  unfold writeAtomic
  split
  · exact hs
  · simp [hs]

theorem doAtomic_fits (aop : Nat) {op : State → AtomicOp → List Byte → State × List Byte × List Byte}
    (hop : ∀ s a old, (op s a old).1.fifos = s.fifos) : Fits (doAtomic s aop op).fifos := by
  unfold doAtomic
  split
  · exact hs
  · extract_lets _ t n r o
    have hr : r.1.fifos = s.fifos := by simp [r, t]
    have ho : o.1.fifos = s.fifos := by rw [← hr]; exact hop _ _ _
    split
    · simp [hr, hs]
    · rw [answer_fifos]
      exact writeAtomic_fits (by rw [ho]; exact hs) _ _

@[simp] theorem atomicIntegerAdd_fits : Fits (atomicIntegerAdd s).fifos :=
  doAtomic_fits hs 0 fun _ _ _ => rfl
@[simp] theorem atomicSwap_fits : Fits (atomicSwap s).fifos :=
  doAtomic_fits hs 1 fun _ _ _ => rfl
@[simp] theorem atomicCompareSwap_fits : Fits (atomicCompareSwap s).fifos :=
  doAtomic_fits hs 2 fun _ _ _ => rfl
@[simp] theorem atomicFloatingAdd_fits : Fits (atomicFloatingAdd s).fifos :=
  doAtomic_fits hs 3 fun _ _ _ => by dsimp only; split <;> simp

theorem replyArrive_fits (typ : Nat) (q : Fin 9) : Fits (replyArrive typ q s).fifos := by
  unfold replyArrive
  split
  · exact hs
  · extract_lets f popped
    have hp : Fits popped.fifos := by simp [popped, hs]
    have hl (ts : List Target) : Fits (ts.foldl (fun s t => land s f t) popped).fifos :=
      foldl_fits (fun _ _ h => land_fits h _ _) _ hp
    clear_value popped
    (repeat' split) <;> simp [hs, hp, hl]
@[simp] theorem rdataArrive_fits (q : Fin 9) : Fits (rdataArrive q s).fifos := replyArrive_fits hs 2 q
@[simp] theorem atrespArrive_fits (q : Fin 9) : Fits (atrespArrive q s).fifos := replyArrive_fits hs 4 q

end

/-! ### The fabric -/

@[simp] theorem frameAdmit_fifos (n : Nat) (s : State) : (frameAdmit n s).fifos = s.fifos := by
  unfold frameAdmit
  split
  · rfl
  · simp

@[simp] theorem shaperPass_fifos (k : Fin 1026) (s : State) : (shaperPass k s).fifos = s.fifos := by
  unfold shaperPass
  split
  · rfl
  · split <;> simp

theorem retryWait_fifos {s t : State} {w : WaitPkt} (h : retryWait s w = some t) : t.fifos = s.fifos := by
  unfold retryWait at h
  extract_lets p e t' at h
  have ht : t'.fifos = s.fifos := by simp [t']
  split at h
  · split at h
    · cases h
      simp
    · split at h <;> cases h
      simp
  · split at h
    · cases h
      rfl
    · split at h
      · cases h
      · exact Option.some.inj h ▸ ht

@[simp] theorem admitResume_fifos (n : Nat) (s : State) : (admitResume n s).fifos = s.fifos := by
  unfold admitResume
  split
  · rfl
  · split
    · rfl
    · extract_lets _ s0
      split
      · rfl
      · next h => simp [retryWait_fifos h, s0]

@[simp] theorem arriveOn_fifos (s : State) (p : Nat) (f : Frame) : (arriveOn s p f).fifos = s.fifos := by
  simp [arriveOn]
@[simp] theorem refuseAtDoor_fifos (s : State) (p chk : Nat) : (refuseAtDoor s p chk).fifos = s.fifos := by
  simp [refuseAtDoor]
@[simp] theorem frameArrive_fifos (p : Port) (s : State) : (frameArrive p s).fifos = s.fifos := by
  unfold frameArrive
  split
  · rfl
  · extract_lets f t
    have ht : t.fifos = s.fifos := by simp [t]
    split <;> simp [ht]
@[simp] theorem fallBackArrive_fifos (s : State) (p : Nat) (f : Frame) : (fallBackArrive s p f).fifos = s.fifos := by
  simp [fallBackArrive]

@[simp] theorem circuitFrameArrive_fifos (p : Port) (t : DWord) (s : State) :
    (circuitFrameArrive p t s).fifos = s.fifos := by
  unfold circuitFrameArrive
  split
  · rfl
  · split
    · rfl
    · split
      · simp
      · extract_lets m _ f e slot a g r r' _ c c' l
        have hm : m.fifos = s.fifos := by simp [m]
        have hr : r.2.fifos = s.fifos := by simp [r, hm]
        have hc : c'.fifos = s.fifos := by simp [c', c, hm]
        (repeat' split) <;> simp [hm, hr, hc, r']

theorem sendInSlot_fifos {s t : State} {p k : Nat} (h : sendInSlot s p k = some t) : t.fifos = s.fifos := by
  unfold sendInSlot at h
  split at h
  · cases h
  · extract_lets o at h
    split at h <;> cases h
    simp

@[simp] theorem sendFitting_fifos (s : State) (p k n : Nat) : (sendFitting s p k n).fifos = s.fifos := by
  induction n generalizing s with
  | zero => rfl
  | succ n ih =>
    unfold sendFitting
    split
    · rfl
    · next h => rw [ih, sendInSlot_fifos h]

theorem committed_fifos {s t : State} {p k : Nat} {e : QEntry} (h : committed s p k = some (e, t)) :
    t.fifos = s.fifos := by
  unfold committed at h
  split at h
  · cases h
    rfl
  · extract_lets g stopped at h
    split at h
    · cases h
    · split at h
      · cases h
      · split at h <;> cases h
        simp

@[simp] theorem cageSlotStart_fifos (p : Port) (s : State) : (cageSlotStart p s).fifos = s.fifos := by
  unfold cageSlotStart
  extract_lets k s1 s2
  have h2 : s2.fifos = s.fifos := by
    unfold s2
    split
    · simp [s1]
    · split
      · next h =>
        split at h
        · simp [committed_fifos h, s1]
        · cases h
      · simp [s1]
  split
  · rfl
  · simp [h2]

@[simp] theorem portTransmit_fifos (p : Port) (s : State) : (portTransmit p s).fifos = s.fifos := by
  unfold portTransmit
  extract_lets x t k kept
  split
  · simp [t]
  · split
    · rfl
    · split
      · split
        · next h =>
          split at h
          · cases h
          · exact sendInSlot_fifos h
        · simp
      · simp

@[simp] theorem histogramSample_fifos (s : State) : (histogramSample s).fifos = s.fifos := by
  unfold histogramSample
  extract_lets per t
  split
  · rfl
  · exact foldl_fifos (fun _ _ => by simp) _ _

@[simp] theorem mirrorRecordWrite_fifos (u : Upsets) (s : State) : (mirrorRecordWrite u s).fifos = s.fifos := by
  unfold mirrorRecordWrite
  split
  · rfl
  · extract_lets ringSize toSp room m _ _ t
    have hm : m.1.fifos = s.fifos := foldl_fifos_fst (fun _ _ => by simp [apply_ite Prod.fst]) _ _
    have ht : t.fifos = s.fifos := hm
    (repeat' split) <;> simp [ht]

section
variable {s : State} (hs : Fits s.fifos)
include hs

@[simp] theorem dieLinkSend_fits (d : Die) : Fits (dieLinkSend d s).fifos := by
  unfold dieLinkSend
  split
  · exact hs
  · split
    · exact hs
    · split
      · simp [hs]
      · split
        · simp [hs]
        · extract_lets t t'
          have ht : Fits t'.fifos := by simp [t', t, hs]
          (repeat' split) <;> simp [hs, ht]

@[simp] theorem meshPacketArrive_fits (d : Die) (n : Nat) : Fits (meshPacketArrive d n s).fifos := by
  unfold meshPacketArrive
  extract_lets m t
  split
  · exact hs
  · extract_lets g t'
    have ht : t.fifos = s.fifos := by simp [t]
    have ht' : Fits t'.fifos := by simp [t', ht, hs]
    (repeat' split) <;> simp [hs, ht, ht']
end

/-! ### Circuits, mills, time and maintenance -/

theorem takeCirBell_fifos {s t : State} {code p : Nat} {f : Frame} (h : takeCirBell s code = some (f, p, t)) :
    t.fifos = s.fifos := by
  unfold takeCirBell at h
  extract_lets isIt at h
  split at h <;> cases h
  rfl

@[simp] theorem circuitRequest_fifos (s : State) : (circuitRequest s).fifos = s.fifos := by
  unfold circuitRequest
  split
  · rfl
  · next h => simp [takeCirBell_fifos h]
@[simp] theorem circuitGrant_fifos (s : State) : (circuitGrant s).fifos = s.fifos := by
  unfold circuitGrant
  split
  · rfl
  · next h => simp [takeCirBell_fifos h]
@[simp] theorem circuitRefuse_fifos (s : State) : (circuitRefuse s).fifos = s.fifos := by
  unfold circuitRefuse
  split
  · rfl
  · next h => simp [takeCirBell_fifos h]
@[simp] theorem circuitTeardown_fifos (s : State) : (circuitTeardown s).fifos = s.fifos := by
  unfold circuitTeardown
  split
  · rfl
  · next h => simp [takeCirBell_fifos h]
@[simp] theorem circuitHandshakeTimeout_fifos (cid : BitVec 16) (s : State) :
    (circuitHandshakeTimeout cid s).fifos = s.fifos := by simp [circuitHandshakeTimeout]
@[simp] theorem rebind_fifos (s : State) (e : QEntry) : (rebind s e).fifos = s.fifos := by
  unfold rebind
  split <;> simp
@[simp] theorem cirShift_fifos (s : State) : (cirShift s).fifos = s.fifos := by simp [cirShift]
@[simp] theorem shiftChangeFlip_fifos (s : State) : (shiftChangeFlip s).fifos = s.fifos := by
  unfold shiftChangeFlip
  split <;> simp

@[simp] theorem MCtx.fifos_goOn (c : MCtx) (s : State) : (c.goOn s).fifos = s.fifos := (rfl)
@[simp] theorem MCtx.fifos_result (c : MCtx) (s : State) (v : Nat) : (c.result s v).fifos = s.fifos := by
  simp [MCtx.result]

@[simp] theorem aluA_fifos (m : MillIx) (op : Nat) (f : Nat → Nat → Nat) (s : State) :
    (aluA m op f s).fifos = s.fifos := by simp [aluA]
@[simp] theorem aluB_fifos (m : MillIx) (op : Nat) (f : Nat → MCtx → Nat) (s : State) :
    (aluB m op f s).fifos = s.fifos := by simp [aluB]
@[simp] theorem branch_fifos (m : MillIx) (op : Nat) (p : Nat → Nat → Bool) (s : State) :
    (branch m op p s).fifos = s.fifos :=
  millStep_fifos fun _ => rfl
@[simp] theorem millFld_fifos (m : MillIx) (s : State) : (millFld m s).fifos = s.fifos := by
  refine millStep_fifos fun c => ?_
  split <;> simp
@[simp] theorem enterAll_fifos (s : State) (c : MCtx) (rf j : Nat) (l : List (List Byte)) :
    (enterAll s c rf j l).1.fifos = s.fifos := by
  induction l generalizing s j with
  | nil => rfl
  | cons r rs ih =>
    unfold enterAll
    split <;> simp [ih]
@[simp] theorem millAcc_fifos (m : MillIx) (s : State) : (millAcc m s).fifos = s.fifos := by
  simp [millAcc]
@[simp] theorem emitAll_fifos (s : State) (c : MCtx) (fmt : Option Fmt) (clr : Bool) (j n : Nat) :
    (emitAll s c fmt clr j n).1.fifos = s.fifos := by
  induction n generalizing s j with
  | zero => rfl
  | succ n ih =>
    unfold emitAll
    split <;> simp [ih]
@[simp] theorem millEmit_fifos (m : MillIx) (s : State) : (millEmit m s).fifos = s.fifos := by
  refine millStep_fifos fun c => ?_
  extract_lets _ _ _ _ _ w r bs
  have hr : r.1.fifos = s.fifos := emitAll_fifos _ _ _ _ _ _
  split
  · simp
  · split <;> simp [hr]
@[simp] theorem enterSorts_fifos (s : State) (c : MCtx) (keep : Nat) (l : List SortRec) :
    (enterSorts s c keep l).1.fifos = s.fifos := by
  induction l generalizing s with
  | nil => rfl
  | cons r rs ih =>
    unfold enterSorts
    extract_lets e
    have he : e.1.fifos = s.fifos := enterSort_fifos _ _ _ _
    split <;> simp [ih, he]
@[simp] theorem millSort_fifos (m : MillIx) (s : State) : (millSort m s).fifos = s.fifos := by
  refine millStep_fifos fun c => ?_
  extract_lets x bs e
  have he : e.1.fifos = s.fifos := enterSorts_fifos _ _ _ _
  (repeat' split) <;> simp [he]
@[simp] theorem millTake_fifos (m : MillIx) (s : State) : (millTake m s).fifos = s.fifos := by
  refine millStep_fifos fun c => ?_
  (repeat' split) <;> simp
@[simp] theorem millGathRank_fifos (m : MillIx) (s : State) : (millGathRank m s).fifos = s.fifos := by
  refine millStep_fifos fun c => ?_
  split <;> simp
@[simp] theorem millGathArrival_fifos (m : MillIx) (s : State) : (millGathArrival m s).fifos = s.fifos := by
  refine millStep_fifos fun c => ?_
  split <;> simp
@[simp] theorem dealAll_fifos (s : State) (c : MCtx) (l : List SortRec) : (dealAll s c l).1.fifos = s.fifos := by
  induction l generalizing s with
  | nil => rfl
  | cons r rs ih =>
    unfold dealAll
    extract_lets x k e p
    have he : e.1.fifos = s.fifos := enterSort_fifos _ _ _ _
    have hp : p.1.fifos = s.fifos := placeRec_fifos _ _ _ _
    (repeat' split) <;> simp [ih, he, hp]
@[simp] theorem millDisp_fifos (m : MillIx) (s : State) : (millDisp m s).fifos = s.fifos := by
  refine millStep_fifos fun c => ?_
  extract_lets x bs e
  have he : e.1.fifos = s.fifos := dealAll_fifos _ _ _
  (repeat' split) <;> simp [he]
@[simp] theorem millFlush_fifos (m : MillIx) (s : State) : (millFlush m s).fifos = s.fifos := by
  refine millStep_fifos fun c => ?_
  split <;> simp
@[simp] theorem millNop_fifos (m : MillIx) (s : State) : (millNop m s).fifos = s.fifos := by simp [millNop]
@[simp] theorem millAdd_fifos (m : MillIx) (s : State) : (millAdd m s).fifos = s.fifos := by simp [millAdd]
@[simp] theorem millSub_fifos (m : MillIx) (s : State) : (millSub m s).fifos = s.fifos := by simp [millSub]
@[simp] theorem millAnd_fifos (m : MillIx) (s : State) : (millAnd m s).fifos = s.fifos := by simp [millAnd]
@[simp] theorem millOr_fifos (m : MillIx) (s : State) : (millOr m s).fifos = s.fifos := by simp [millOr]
@[simp] theorem millXor_fifos (m : MillIx) (s : State) : (millXor m s).fifos = s.fifos := by simp [millXor]
@[simp] theorem millShl_fifos (m : MillIx) (s : State) : (millShl m s).fifos = s.fifos := by simp [millShl]
@[simp] theorem millShr_fifos (m : MillIx) (s : State) : (millShr m s).fifos = s.fifos := by simp [millShr]
@[simp] theorem millMul_fifos (m : MillIx) (s : State) : (millMul m s).fifos = s.fifos := by simp [millMul]
@[simp] theorem millAddi_fifos (m : MillIx) (s : State) : (millAddi m s).fifos = s.fifos := by simp [millAddi]
@[simp] theorem millAndi_fifos (m : MillIx) (s : State) : (millAndi m s).fifos = s.fifos := by simp [millAndi]
@[simp] theorem millOri_fifos (m : MillIx) (s : State) : (millOri m s).fifos = s.fifos := by simp [millOri]
@[simp] theorem millShli_fifos (m : MillIx) (s : State) : (millShli m s).fifos = s.fifos := by simp [millShli]
@[simp] theorem millShri_fifos (m : MillIx) (s : State) : (millShri m s).fifos = s.fifos := by simp [millShri]
@[simp] theorem millCadd_fifos (m : MillIx) (s : State) : (millCadd m s).fifos = s.fifos := by simp [millCadd]
@[simp] theorem millCset_fifos (m : MillIx) (s : State) : (millCset m s).fifos = s.fifos := by simp [millCset]
@[simp] theorem millBeq_fifos (m : MillIx) (s : State) : (millBeq m s).fifos = s.fifos := by simp [millBeq]
@[simp] theorem millBne_fifos (m : MillIx) (s : State) : (millBne m s).fifos = s.fifos := by simp [millBne]
@[simp] theorem millBltu_fifos (m : MillIx) (s : State) : (millBltu m s).fifos = s.fifos := by simp [millBltu]
@[simp] theorem millBgeu_fifos (m : MillIx) (s : State) : (millBgeu m s).fifos = s.fifos := by simp [millBgeu]
@[simp] theorem millJmp_fifos (m : MillIx) (s : State) : (millJmp m s).fifos = s.fifos :=
  millStep_fifos fun _ => rfl
@[simp] theorem millEnd_fifos (m : MillIx) (s : State) : (millEnd m s).fifos = s.fifos :=
  millStep_fifos fun _ => rfl
@[simp] theorem millAclr_fifos (m : MillIx) (s : State) : (millAclr m s).fifos = s.fifos := by simp [millAclr]
@[simp] theorem millSclr_fifos (m : MillIx) (s : State) : (millSclr m s).fifos = s.fifos := by simp [millSclr]

@[simp] theorem setLag_fifos (s : State) (p : Nat) : (setLag s p).fifos = s.fifos := by simp [setLag]
@[simp] theorem remeasure_fifos (s : State) (ps : List Nat) : (remeasure s ps).fifos = s.fifos := by simp [remeasure]
@[simp] theorem measured_fifos (s : State) (p : Nat) : (measured s p).fifos = s.fifos := by simp [measured]
theorem takeTsync_fifos {s t : State} {p : Nat} {pick : Frame → Bool} {f : Frame} (h : takeTsync s p pick = some (f, t)) :
    t.fifos = s.fifos := by
  unfold takeTsync at h
  split at h
  · cases h
  · split at h <;> cases h
    simp
@[simp] theorem delayRequest_fifos (p : Port) (t : DWord) (s : State) : (delayRequest p t s).fifos = s.fifos := by
  unfold delayRequest
  split
  · rfl
  · next h => simp [takeTsync_fifos h]
@[simp] theorem delayReply_fifos (p : Port) (t4 : DWord) (s : State) : (delayReply p t4 s).fifos = s.fifos := by
  unfold delayReply
  split
  · rfl
  · next h =>
    have ht := takeTsync_fifos h
    extract_lets x
    split
    · exact ht
    · extract_lets trip l t d
      simp [t, ht, d]
@[simp] theorem tsyncBurstFrame_fifos (p : Port) (t : DWord) (s : State) : (tsyncBurstFrame p t s).fifos = s.fifos := by
  unfold tsyncBurstFrame
  split
  · rfl
  · next h =>
    have ht := takeTsync_fifos h
    extract_lets t put ts d old live follows partialNow
    have hput (t' : State) (b : Option BurstRx) : (put t' b).fifos = t'.fifos := rfl
    have hpart (t' : State) : (partialNow t').fifos = t'.fifos := by simp [partialNow]
    have ht' : t.fifos = s.fifos := by simp [t, ht]
    clear_value put partialNow live follows old t
    split
    · exact ht
    · cases old <;> simp [hput, hpart, ht']

@[simp] theorem stopPort_fifos (s : State) (p why : Nat) : (stopPort s p why).fifos = s.fifos := by
  unfold stopPort
  extract_lets x t t'
  have ht : t'.fifos = s.fifos := by simp [t', t]
  split
  · rfl
  · split <;> simp [ht]
/-- An activity that starts joins those that run. -/
theorem startActivity_fifos (s : State) (a : Nat × Nat) :
    (startActivity s a).fifos =
      State.fifos { s with power := { s.power with running := s.power.running ++ [a] } } := by simp [startActivity]
/-- What runs has no bound of its own. -/
@[simp] theorem fits_running (s : State) (l : List (Nat × Nat)) :
    Fits (State.fifos { s with power := { s.power with running := l } }) ↔ Fits s.fifos := Iff.rfl
@[simp] theorem startActivity_fits (s : State) (a : Nat × Nat) (hs : Fits s.fifos) : Fits (startActivity s a).fifos := by
  rw [startActivity_fifos]
  exact hs
@[simp] theorem requestMaint_fits (s : State) (a : Nat × Nat) (hs : Fits s.fifos) : Fits (requestMaint s a).1.fifos := by
  unfold requestMaint
  dsimp only
  split
  · exact hs
  · split
    · simp [hs]
    · split
      · exact hs
      · next h =>
        have ⟨hrx, htx, hlog, _⟩ := hs
        refine ⟨hrx, htx, hlog, ?_⟩
        simp only [State.fifos, List.length_append, List.length_singleton]
        omega
@[simp] theorem startDeferred_fits (s : State) (hs : Fits s.fifos) : Fits (startDeferred s).fifos :=
  foldl_fits_fst (fun a d ha => by
    dsimp only
    split
    · obtain ⟨hrx, htx, hlog, hdef⟩ := ha
      exact startActivity_fits _ _ ⟨hrx, htx, hlog, (List.length_filter_le _ _).trans hdef⟩
    · exact ha) _ hs
@[simp] theorem abortScans_fits (s : State) (p : Nat) (hs : Fits s.fifos) : Fits (abortScans s p).fifos := by
  unfold abortScans
  extract_lets hit last p t t'
  have ht : Fits t.fifos := hs
  have ht' : Fits t'.fifos := by
    unfold t'
    split <;> simp [ht]
  split
  · exact hs
  · exact startDeferred_fits _ ht'

/-! ### Links to the host interface, and one ns -/

/-! #### Link -/

theorem takeControl_fifos {s t : State} {p op a : Nat} {b : List Byte} (h : takeControl s p op = some (a, b, t)) :
    t.fifos = s.fifos := by
  unfold takeControl at h
  split at h
  · cases h
  · split at h <;> cases h
    simp

/-! #### Link -/

@[simp] theorem resend_fifos (s : State) (p : Nat) : (resend s p).fifos = s.fifos := by simp [resend]
@[simp] theorem linkUnitReceive_fifos (p : Port) (data : List Byte) (ucw : Bool) (fec : List (Nat × Nat)) (s : State) :
    (linkUnitReceive p data ucw fec s).fifos = s.fifos := by simp [linkUnitReceive]
@[simp] theorem linkReplayTimeout_fifos (p : Port) (s : State) :
    (linkReplayTimeout p s).fifos = s.fifos := by simp [linkReplayTimeout]
@[simp] theorem reachUp_fifos (s : State) (p peer uep port rt ack : Nat) (r : Nat × Nat × Nat) :
    (reachUp s p peer uep port rt ack r).fifos = s.fifos := by simp [reachUp]
@[simp] theorem trainingUnitReceive_fits (p : Port) (data : List Byte) (good : Byte) (s : State) (hs : Fits s.fifos) :
    Fits (trainingUnitReceive p data good s).fifos := by
  unfold trainingUnitReceive
  split
  · exact hs
  · dsimp only
    split
    · split <;> simp [hs]
    · simp [hs]
@[simp] theorem wreq_fifos (p : Port) (cw : Word) (s : State) : (wreq p cw s).fifos = s.fifos := by
  unfold wreq
  split
  · rfl
  · next h =>
    have ht := takeControl_fifos h
    extract_lets x decide1
    have hd (t' : State) (own : Nat) : (decide1 t' own).fifos = t'.fifos := by simp [decide1]
    clear_value decide1
    (repeat' split) <;> simp [hd, ht]
@[simp] theorem wack_fifos (p : Port) (s : State) : (wack p s).fifos = s.fifos := by
  unfold wack
  split
  · rfl
  · next h =>
    split <;> simp [takeControl_fifos h]
@[simp] theorem widthSwitch_fifos (p : Port) (s : State) : (widthSwitch p s).fifos = s.fifos := by
  unfold widthSwitch
  extract_lets x t0
  split
  · extract_lets t t'
    have ht : t'.fifos = s.fifos := by simp [t', t, t0]
    (repeat' split) <;> simp [ht]
  · rfl
  · rfl
@[simp] theorem sendFail_fifos (s : State) (p : Nat) : (sendFail s p).fifos = s.fifos := by simp [sendFail]
@[simp] theorem failingBellsEnd_fifos (p : Port) (s : State) :
    (failingBellsEnd p s).fifos = s.fifos := by simp [failingBellsEnd]
@[simp] theorem failReceive_fifos (p : Port) (s : State) : (failReceive p s).fifos = s.fifos := by
  unfold failReceive
  split
  · rfl
  · next h => simp [takeControl_fifos h]
@[simp] theorem failingTimeout_fifos (p : Port) (s : State) :
    (failingTimeout p s).fifos = s.fifos := by simp [failingTimeout]
@[simp] theorem loseSignal_fifos (s : State) (ps : List Nat) : (loseSignal s ps).fifos = s.fifos := by simp [loseSignal]
@[simp] theorem signalLoss_fifos (p : SignalAt) (s : State) : (signalLoss p s).fifos = s.fifos := by simp [signalLoss]
@[simp] theorem linkReport_fifos (s : State) : (linkReport s).fifos = s.fifos := by
  unfold linkReport
  split <;> simp

/-! #### Power -/

@[simp] theorem evalIsland_fifos (s0 : State) (ovr hold : Bool) (s : State) (g : Nat) :
    (evalIsland s0 ovr hold s g).fifos = s.fifos := by simp [evalIsland]
@[simp] theorem healthEvaluate_fifos (r : Readings) (s : State) : (healthEvaluate r s).fifos = s.fifos := by
  unfold healthEvaluate
  extract_lets s1 ovr hold s2 _ s3 t
  have h1 : s1.fifos = s.fifos := by simp [s1]
  have h2 : s2.fifos = s.fifos := by simp [s2, h1]
  have h3 : s3.fifos = s.fifos := (State.fifos_mk_power ..).trans h2
  have ht : t.fifos = s.fifos := (foldl_fifos (evalIsland_fifos _ _ _) _ _).trans h3
  split
  · exact h1
  · exact (foldl_fifos showIsland_fifos _ _).trans ht
@[simp] theorem lampEnter_fifos (s : State) : (lampEnter s).fifos = s.fifos := by simp [lampEnter]
@[simp] theorem ageSweep_fits (s : State) (hs : Fits s.fifos) : Fits (ageSweep s).fifos := by simp [ageSweep, hs]
@[simp] theorem scrubSliceDue_fits (d : Die) (s : State) (hs : Fits s.fifos) : Fits (scrubSliceDue d s).fifos := by
  simp [scrubSliceDue, hs]
@[simp] theorem replan_fifos (s : State) : (replan s).fifos = s.fifos := by simp [replan]
@[simp] theorem sweepEnds_fits (s : State) (slow : List (Nat × Nat)) (hs : Fits s.fifos) : Fits (sweepEnds s slow).fifos := by
  simp [sweepEnds, hs]
@[simp] theorem maintenanceEnd_fits (act : Fin 5) (unit : Fin 64) (slow : List (Nat × Nat)) (s : State) (hs : Fits s.fifos) :
    Fits (maintenanceEnd act unit slow s).fifos := by
  unfold maintenanceEnd
  extract_lets a p t t'
  have ht : Fits t.fifos := hs
  have ht' : Fits t'.fifos := by
    unfold t'
    (repeat' split) <;> simp [ht]
  split
  · exact hs
  · exact startDeferred_fits _ ht'

/-! #### Tenants -/

@[simp] theorem zeroImage_fits (s : State) (g sl : Nat) (hs : Fits s.fifos) :
    Fits (zeroImage s g sl).fifos := by
  unfold zeroImage
  split
  · exact hs
  · exact hs
@[simp] theorem takeOwner_fits (s : State) (g new : Nat) (hs : Fits s.fifos) :
    Fits (takeOwner s g new).fifos := by
  unfold takeOwner
  extract_lets old res had t1 _ t2 t3 gone _ t4 first t5 x
  have h1 : t1.fifos = s.fifos := by simp [t1]
  have h2 : t2.fifos = s.fifos := by
    unfold t2
    split <;> exact h1
  have h3 : t3.fifos = s.fifos := by
    unfold t3
    split <;> simp [h2]
  have h4 : Fits t4.fifos := h3.symm ▸ hs
  have h5 : Fits t5.fifos := foldl_fits (fun t sl ht => by
    (repeat' split) <;> simp [ht]) _ h4
  (repeat' split) <;> simp [h5]
@[simp] theorem dropSlot_fits (s : State) (fn g : Nat) (hs : Fits s.fifos) :
    Fits (dropSlot s fn g).fifos := by
  unfold dropSlot
  split <;> simp [hs]
@[simp] theorem teardownDrainEnd_fits (fn : Fn) (s : State) (hs : Fits s.fifos) :
    Fits (teardownDrainEnd fn s).fifos := by
  unfold teardownDrainEnd
  extract_lets f _ t t' gs alone t''
  have ht : Fits t''.fifos := foldl_fits (fun _ _ h => by simp [h]) _ (by simp [t', t, hs])
  split
  · exact hs
  · exact hs
  · split
    · exact hs
    · simp [ht]
@[simp] theorem teardownDone_fits (fn : Fn) (s : State) (hs : Fits s.fifos) :
    Fits (teardownDone fn s).fifos := by
  unfold teardownDone
  extract_lets f
  split
  · exact hs
  · exact hs
  · extract_lets t t' t''
    have ht : Fits t.fifos := foldl_fits (fun _ _ h => by split <;> simp [h]) _ hs
    simp [t'', t', ht]

/-! #### Mgmt -/

@[simp] theorem pmbAlert_fifos (rails : List RailTry) (s : State) :
    (pmbAlert rails s).fifos = s.fifos := by simp [pmbAlert]

/-! #### Reset -/

@[simp] theorem coldReset_fits (s : State) : Fits (coldReset s).fifos := by simp [coldReset]
@[simp] theorem deviceReset_fits (s : State) (hs : Fits s.fifos) : Fits (deviceReset s).fifos := by
  unfold deviceReset
  extract_lets t _ _ _ _ _ t1 t2 t3
  obtain ⟨hrx, htx, _, hdef⟩ := coldReset_fits s
  have h1 : Fits t1.fifos := ⟨hrx, htx, hs.2.2.1, hdef⟩
  have h3 : Fits t3.fifos := by simp [t3, t2, h1]
  split <;> simp [h3]
@[simp] theorem deviceResetWrite_fits (s : State) (hs : Fits s.fifos) :
    Fits (deviceResetWrite s).fifos := by simp [deviceResetWrite, hs]
@[simp] theorem bootStoresReady_fits (s : State) (hs : Fits s.fifos) : Fits (bootStoresReady s).fifos := by
  unfold bootStoresReady
  extract_lets _ t t'
  have ht : Fits t.fifos := by
    unfold t
    split
    · exact hs
    · exact hs
  split
  · exact hs
  · simp [t', ht]
@[simp] theorem bootReady_fifos (s : State) : (bootReady s).fifos = s.fifos := by simp [bootReady]

/-! #### Setup -/

@[simp] theorem writeRst_fits (s : State) (v : Nat) (hs : Fits s.fifos) : Fits (writeRst s v).1.fifos := by
  unfold writeRst
  extract_lets p r
  have hr : Fits r.1.fifos := by
    unfold r
    (repeat' split) <;> simp [p, hs]
  split <;> simp [hr]
@[simp] theorem writeGlb_fits (s : State) (off v new : Nat) (hs : Fits s.fifos) :
    Fits (writeGlb s off v new).1.fifos := by
  unfold writeGlb
  (repeat' split) <;> simp [hs]
@[simp] theorem goMaint_fits (s : State) (v : Nat) (hs : Fits s.fifos) : Fits (goMaint s v).1.fifos := by
  simp [goMaint, apply_ite Prod.fst, hs]
@[simp] theorem writePwr_fits (s : State) (off v new : Nat) (hs : Fits s.fifos) : Fits (writePwr s off v new).1.fifos := by
  unfold writePwr
  (repeat' split) <;> simp [hs]
@[simp] theorem snapBins_fifos (s : State) : (snapBins s).fifos = s.fifos := by
  unfold snapBins
  extract_lets put t t'
  have hput (l off t) : (put l off t).fifos = t.fifos := foldl_fifos (fun _ _ => by simp) _ _
  simp only [State.fifos_mk, t', t, hput]
@[simp] theorem writeSwq_fifos (s : State) (off v new : Nat) : (writeSwq s off v new).1.fifos = s.fifos := by
  unfold writeSwq
  (repeat' split) <;> simp
@[simp] theorem enableWritten_fifos (s : State) (p : Nat) (was : Bool) :
    (enableWritten s p was).fifos = s.fifos := by simp [enableWritten]
@[simp] theorem widthWritten_fits (s : State) (p was : Nat) (hs : Fits s.fifos) : Fits (widthWritten s p was).fifos := by
  unfold widthWritten
  dsimp only
  (repeat' split) <;> simp [hs]
@[simp] theorem writePrtCtl_fits (s : State) (p v new : Nat) (hs : Fits s.fifos) :
    Fits (writePrtCtl s p v new).1.fifos := by
  unfold writePrtCtl
  extract_lets off en wreq r t q
  have ht : Fits t.fifos := by simp [t, r, hs]
  split
  · exact requestMaint_fits _ _ ht
  · exact ht
@[simp] theorem writePrt_fits (s : State) (off v new : Nat) (hs : Fits s.fifos) : Fits (writePrt s off v new).1.fifos := by
  unfold writePrt
  extract_lets p r t
  have ht : t.fifos = s.fifos := by simp [t]
  (repeat' split) <;> simp [ht, hs]
@[simp] theorem commitClown_fits (s : State) (g new : Nat) (hs : Fits s.fifos) :
    Fits (commitClown s g new).1.fifos := by
  unfold commitClown
  extract_lets sts
  split <;> simp [hs]
@[simp] theorem writeBond_fifos (lk : Bool) (s : State) (b new : Nat) : (writeBond lk s b new).1.fifos = s.fifos := by
  unfold writeBond
  extract_lets old ps t _ t'
  have ht : t'.fifos = s.fifos := wr_fifos s (R.gngBond b) new
  (repeat' split) <;> simp [ht]
@[simp] theorem writeGng_fifos (lk : Bool) (s : State) (off new : Nat) : (writeGng lk s off new).1.fifos = s.fifos := by
  unfold writeGng
  split
  · split <;> simp
  · (repeat' split) <;> simp
@[simp] theorem write32_fits (lk : Bool) (s : State) (off v new : Nat) (hs : Fits s.fifos) :
    Fits (write32 lk s off v new).1.fifos := by
  simp [write32, apply_ite Prod.fst, hs]
@[simp] theorem commit64_fits (lk : Bool) (s : State) (off new : Nat) (hs : Fits s.fifos) :
    Fits (commit64 lk s off new).1.fifos := by
  unfold commit64
  extract_lets n t
  have ht : t.fifos = s.fifos := by simp [t]
  (repeat' split) <;> simp [ht, hs]
@[simp] theorem bar0Write_fits (adm : Bool) (off v : Nat) (s : State) (hs : Fits s.fifos) :
    Fits (bar0Write adm off v s).1.fifos := by
  unfold bar0Write
  extract_lets lk t0
  have ht0 : Fits t0.fifos := by simp [t0, hs]
  split
  · exact ht0
  · extract_lets base t low high
    have ht : Fits t.fifos := by simp [t, hs]
    (repeat' split) <;> simp [ht0, ht]

/-! #### HostIf -/

@[simp] theorem storeTarget_fits (s : State) (t : Target) (bs : List Byte) (hs : Fits s.fifos) :
    Fits (storeTarget s t bs).1.fifos := by
  unfold storeTarget
  split <;> simp [hs]
@[simp] theorem copyIn_fits (r : DescRef) (h : HostDesc) (data : List Byte) (s : State) (hs : Fits s.fifos) :
    Fits (copyIn r h data s).fifos := by simp [copyIn, hs]
@[simp] theorem copyTurn_fits (r : DescRef) (data : List Byte) (h : HostDesc) (s : State) (hs : Fits s.fifos) :
    Fits (copyTurn r data h s).fifos := by
  unfold copyTurn
  extract_lets t
  (repeat' split) <;> simp [hs]
@[simp] theorem hcopyBody_fits (r : DescRef) (data : List Byte) (h : HostDesc) (s : State) (hs : Fits s.fifos) :
    Fits (hcopyBody r data h s).fifos := by simp [hcopyBody, hs]
@[simp] theorem hcopy_fits (r : DescRef) (data : List Byte) (s : State) (hs : Fits s.fifos) :
    Fits (hcopy r data s).fifos := by
  unfold hcopy
  split
  · exact hs
  · split
    · simp [hs]
    · exact startDesc_fits hs fun _ => hcopyBody_fits _ _ _ _ hs
@[simp] theorem clownBody_fits (on : Bool) (r : DescRef) (h : HostDesc) (s : State) (hs : Fits s.fifos) :
    Fits (clownBody on r h s).fifos := by
  unfold clownBody
  extract_lets b g sl fn old new st
  (repeat' split) <;> simp [hs]
@[simp] theorem setregBody_fits (r : DescRef) (h : HostDesc) (s : State) (hs : Fits s.fifos) :
    Fits (setregBody r h s).fifos := by
  unfold setregBody
  extract_lets b off v m
  split
  · simp [hs]
  · split <;> simp [hs]
@[simp] theorem writeEntries_fifos (r : DescRef) (h : HostDesc) (data : List Byte) (n k : Nat) (s : State) :
    (writeEntries r h data n k s).fifos = s.fifos := by
  induction n generalizing k s with
  | zero => simp [writeEntries]
  | succ n ih =>
    unfold writeEntries
    extract_lets b tid idx e waits p
    have hp : p.1.fifos = s.fifos := tblWrite_fifos _ _ _ _ _ _
    (repeat' split) <;> simp [ih, hp]
@[simp] theorem tblwrBody_fifos (r : DescRef) (data : List Byte) (h : HostDesc) (s : State) :
    (tblwrBody r data h s).fifos = s.fifos := by simp [tblwrBody]

/-! #### Tick -/

@[simp] theorem tick_fits (s : State) (hs : Fits s.fifos) : Fits (tick s).fifos := by
  unfold tick
  extract_lets _ t t'
  have ht : Fits t'.fifos := by simp [t', t, hs]
  simp only [keepBusy_fifos]
  exact foldl_fits (fun _ _ h => transferNs_fits h _) _ ht

/-! ### One command, one step -/

/-- Does an outcome that goes on keep the queues within their sizes? -/
def FitsNext : Out → Prop
  | .next t => Fits t.fifos
  | .fault _ => True
  | .refused _ => True

theorem fitsNext_ite {c : Prop} [Decidable c] {a b : Out} (ha : FitsNext a) (hb : FitsNext b) :
    FitsNext (if c then a else b) := by
  split <;> assumption

theorem meeting_markBusy_fits {s : State} (hs : Fits s.fifos) (g : Nat) (u : Upsets) {f : State → State}
    (hf : ∀ t, Fits t.fifos → Fits (f t).fifos) : Fits (markBusy g s (meeting u f s)).fifos := by
  rw [markBusy_fifos]
  exact meeting_fits hf hs

theorem exec_fits {s : State} (hs : Fits s.fifos) (i : Instr) : FitsNext (exec i s) := by
  cases i
  case doorbellPoll | descriptorFetch | trainingUnitReceive =>
    exact fitsNext_ite (by simp [FitsNext, hs]) trivial
  case matmul | convert | sparse | reduceSumImages | reduceSumPartials | reduceMax | reduceMin | copy | copyComplete | stage |
      contextSaveDone | contextRestoreDone =>
    exact meeting_markBusy_fits hs _ _ fun _ ht => by simp [ht]
  case scrubSliceDue | maintenanceEnd => exact meeting_fits (fun _ ht => by simp [ht]) hs
  case meshPacketArrive | remoteWrite | atomicIntegerAdd | atomicSwap | atomicCompareSwap | atomicFloatingAdd | rdataArrive |
      atrespArrive | hcopy =>
    exact meeting_fits (fun _ ht => by simp [ht]) hs
  all_goals
    change Fits (State.fifos _)
    simp [hs]

theorem step_fits {s : State} (hs : Fits s.fifos) : FitsNext (step s) := by
  unfold step
  split
  · exact tick_fits s hs
  · next c rest _ => exact exec_fits (s := { s with pending := rest }) hs c

end Sys2Proof.Machine

open Sys2Proof Sys2Proof.Machine

/-- Settles O4: a command, or one ns, leaves the queues as they were, or shortens them, or lengthens them where there is room. -/
theorem queuesStayBounded : Obligations.QueuesStayBounded := by
  refine ⟨(queuesOk_iff _).2 reset_fits, fun s t hs hst => ?_⟩
  have h := step_fits ((queuesOk_iff s).1 hs)
  rw [hst] at h
  exact (queuesOk_iff t).2 h
end

section
/-! PROOFS. What a device fault leaves alone, and the package's management interfaces (O58, O59, O60). -/

namespace Sys2Proof.Machine

/-! ### What a device fault leaves alone (R651) -/

/-- The state without the parts in which a device fault shows: the registers, the sequencers, the host's descriptors, the mills,
the alert, the frames sent and what was put out. -/
def State.faultless (s : State) : State :=
  { s with regs := [], comp := { s.comp with seqs := [] }, host := { s.host with descs := [] }, mills := [],
           mgmt := { s.mgmt with alert := false }, outbox := [], out := [], nextId := 0 }

/-- `simp` compares these parts of two states as they stand and does not rewrite inside a state first. -/
@[congr] theorem State.faultless_congr (s : State) : s.faultless = s.faultless := (rfl)

@[simp] theorem State.faultless_ite (c : Prop) [Decidable c] (a b : State) :
    (if c then a else b).faultless = if c then a.faultless else b.faultless := apply_ite _ _ _ _

@[simp] theorem foldl_faultless {α : Type} {f : State → α → State} (h : ∀ s x, (f s x).faultless = s.faultless) (l : List α)
    (s : State) : (l.foldl f s).faultless = s.faultless := by
  induction l generalizing s with
  | nil => rfl
  | cons x r ih => rw [List.foldl_cons, ih, h]

@[simp] theorem wr_faultless (s : State) (off v : Nat) : (wr s off v).faultless = s.faultless := (rfl)
@[simp] theorem raise_faultless (s : State) (off i : Nat) : (raise s off i).faultless = s.faultless := (rfl)
@[simp] theorem wr64_faultless (s : State) (off v : Nat) : (wr64 s off v).faultless = s.faultless := (rfl)
@[simp] theorem emit_faultless (s : State) (e : Emission) : (emit s e).faultless = s.faultless := (rfl)
@[simp] theorem setMill_faultless (s : State) (m : Nat) (x : MillSt) : (setMill s m x).faultless = s.faultless := (rfl)
@[simp] theorem setStream_faultless (s : State) (m n : Nat) (x : StreamSt) : (setStream s m n x).faultless = s.faultless := (rfl)
@[simp] theorem setSeq_faultless (s : State) (core fn : Nat) (q : SeqSt) : (setSeq s core fn q).faultless = s.faultless := (rfl)
@[simp] theorem reportList_faultless (s : State) (l : Launch) (status didx : Nat) (fl : FpFlags) :
    (reportList s l status didx fl).faultless = s.faultless := (rfl)
@[simp] theorem sendBell_faultless (s : State) (mc : Bool) (dst src job code arg : Nat) (payload : List Byte) :
    (sendBell s mc dst src job code arg payload).faultless = s.faultless := (rfl)

@[simp] theorem endList_faultless (s : State) (core fn status didx : Nat) :
    (endList s core fn status didx).faultless = s.faultless := by
  rw [endList_frame]
  rfl
@[simp] theorem stopSeq_faultless (s : State) (core fn status : Nat) (p : Launch → Bool) :
    (stopSeq s core fn status p).faultless = s.faultless := by
  unfold stopSeq
  dsimp only
  (repeat' split) <;> simp
@[simp] theorem stopLists_faultless (s : State) (status : Nat) (p : Nat → Nat → Launch → Bool) :
    (stopLists s status p).faultless = s.faultless := by simp [stopLists]
@[simp] theorem faultBell_faultless (s : State) (cause unit job : Nat) :
    (faultBell s cause unit job).faultless = s.faultless := by simp [faultBell]
@[simp] theorem faultBells_faultless (s : State) (cause unit : Nat) (jobs : List Nat) :
    (faultBells s cause unit jobs).faultless = s.faultless := by simp [faultBells]
@[simp] theorem trapStream_faultless (s : State) (m n code pc : Nat) : (trapStream s m n code pc).faultless = s.faultless := by
  unfold trapStream
  dsimp only
  (repeat' split) <;> simp
@[simp] theorem trapMill_faultless (s : State) (m : Nat) : (trapMill s m).faultless = s.faultless := by simp [trapMill]
@[simp] theorem trapAllStreams_faultless (s : State) : (trapAllStreams s).faultless = s.faultless := by simp [trapAllStreams]
@[simp] theorem alertLow_faultless (s : State) : (alertLow s).faultless = s.faultless := by
  unfold alertLow
  split <;> rfl
@[simp] theorem deviceFault_faultless (s : State) (cause unit : Nat) :
    (deviceFault s cause unit).faultless = s.faultless := by simp [deviceFault]

theorem deviceFault_deep (s : State) (cause unit : Nat) : (deviceFault s cause unit).deep = s.deep :=
  (congrArg State.deep (deviceFault_faultless s cause unit) :)
theorem deviceFault_fab (s : State) (cause unit : Nat) : (deviceFault s cause unit).fab = s.fab :=
  (congrArg State.fab (deviceFault_faultless s cause unit) :)
theorem deviceFault_time (s : State) (cause unit : Nat) : (deviceFault s cause unit).time = s.time :=
  (congrArg State.time (deviceFault_faultless s cause unit) :)
theorem deviceFault_osc (s : State) (cause unit : Nat) : (deviceFault s cause unit).mgmt.osc = s.mgmt.osc :=
  (congrArg (fun x : State => x.mgmt.osc) (deviceFault_faultless s cause unit) :)

/-! ### What a device fault records (R651) -/

theorem deviceFault_of_faulted {s : State} (h : flag s R.glbFault 31 = true) (cause unit : Nat) : deviceFault s cause unit = s :=
  if_pos h

/-- The first device fault is recorded with its cause and unit. -/
theorem rd_deviceFault_first {s : State} (h : flag s R.glbFault 31 = false) (cause unit : Nat) :
    rd (deviceFault s cause unit) R.glbFault = (2 ^ 31 + 256 * unit + cause) % 2 ^ 32 := by
  have hpin (u : State) : rd (if flag u R.mgtCtl 0 then emit u (.pin "FAULT_N" false) else u) R.glbFault = rd u R.glbFault := by
    split <;> rfl
  have hlists (u : State) : rd (stopLists (alertLow u) 9 fun _ _ _ => true) R.glbFault = rd u R.glbFault :=
    sameRegs_of_regs ((stopLists_regs _ _ _).trans (alertLow_regs u)) [] _ (by simp)
  unfold deviceFault
  rw [h]
  simp only [Bool.false_eq_true, if_false]
  rw [sameRegs_faultBells _ _ _ _ [] _ (by simp), sameRegs_trapAllStreams _ _ (by decide), hlists, hpin, rd_wr_same]

/-- After a device fault `GLB_FAULT.VALID` stands. -/
theorem flag_deviceFault (s : State) {cause unit : Nat} (h : 256 * unit + cause < 2 ^ 31) :
    flag (deviceFault s cause unit) R.glbFault 31 = true := by
  cases hf : flag s R.glbFault 31 with
  | true => rwa [deviceFault_of_faulted hf]
  | false =>
    rw [flag, rd_deviceFault_first hf, bit_mod_two_pow, bit, show 2 ^ 31 + 256 * unit + cause = 2 ^ 31 + (256 * unit + cause) by omega,
      Nat.testBit_two_pow_add_eq, Nat.testBit_lt_two_pow h]
    rfl

/-- A device fault leaves every register but its own and the traps'. -/
theorem rd_deviceFault_ne (s : State) (cause unit : Nat) {off : Nat} (h : off ∉ R.glbFault :: trapRegs) :
    rd (deviceFault s cause unit) off = rd s off := sameRegs_deviceFault s cause unit off h

end Sys2Proof.Machine
end

section
/-! PROOFS. Pins, sensors and the test port (O60). -/

namespace Sys2Proof.Machine

/-! ### One index of a fold -/

/-- What a fold keeps that every step of it keeps. -/
theorem foldl_keeps {α β : Type} (φ : State → β) {f : State → α → State} {l : List α} (h : ∀ s, ∀ x ∈ l, φ (f s x) = φ s)
    (s : State) : φ (l.foldl f s) = φ s := by
  induction l generalizing s with
  | nil => rfl
  | cons x r ih =>
    rw [List.foldl_cons, ih (fun s y hy => h s y (List.mem_cons_of_mem _ hy)), h s x List.mem_cons_self]

/-- A property that every step of a fold keeps is kept by the fold. -/
theorem foldl_preserves {α : Type} {P : State → Prop} {f : State → α → State} (h : ∀ s x, P s → P (f s x)) (l : List α)
    {s : State} (hs : P s) : P (l.foldl f s) := by
  induction l generalizing s with
  | nil => exact hs
  | cons x r ih => exact ih (h s x hs)

/-! ### GPIO (R630) -/

theorem flag_setF_bit (s : State) (off : Nat) {i j : Nat} (b : Bool) (hj : j < 32) :
    flag (setF s off i i (b2n b)) off j = if j = i then b else flag s off j := by
  rw [flag_setF_same s off _ le_rfl hj]
  by_cases h : j = i
  · subst h
    cases b <;> simp [b2n, bit]
  · rw [if_neg h, if_neg (by omega)]

theorem gpioCfg_ne_gpioIn : ∀ n : Fin 16, R.gpioCfg n ≠ R.gpioIn := by decide

theorem gpioEdge_spec (s : State) (n : Fin 16) (level : Bool) :
    flag (gpioEdge n level s) R.gpioIn n.val = level ∧
      (∀ k : Fin 16, k ≠ n → flag (gpioEdge n level s) R.gpioIn k.val = flag s R.gpioIn k.val) ∧
      (flag (gpioEdge n level s) R.gpioEvt n.val = true ↔ flag s R.gpioEvt n.val = true ∨
        (flag s R.gpioIn n.val ≠ level ∧ getF s (R.gpioCfg n) 2 0 = 1 ∧ flag s (R.gpioCfg n) 3 = level)) ∧
      onlyRegs s (gpioEdge n level s) [R.gpioIn, R.gpioEvt] := by
  set u := setF s R.gpioIn n n (b2n level) with hu
  have hcfg : rd u (R.gpioCfg n) = rd s (R.gpioCfg n) := rd_setF_ne _ _ _ _ (gpioCfg_ne_gpioIn n)
  have hevt : flag u R.gpioEvt n = flag s R.gpioEvt n := flag_congr_rd (rd_setF_ne _ _ _ _ (by decide)) _
  have hin (k : Fin 16) : flag u R.gpioIn k = if k.val = n.val then level else flag s R.gpioIn k :=
    flag_setF_bit s _ level (by omega)
  have hraise (k : Fin 16) : flag (raise u R.gpioEvt n) R.gpioIn k = flag u R.gpioIn k :=
    flag_congr_rd (rd_raise_ne _ _ (by decide)) _
  have hmode : gpioMode u n = getF s (R.gpioCfg n) 2 0 := getF_congr_rd hcfg 2 0
  have hpol : flag u (R.gpioCfg n) 3 = flag s (R.gpioCfg n) 3 := flag_congr_rd hcfg 3
  have hregs : sameRegs s u [R.gpioIn, R.gpioEvt] := sameRegs_setF _ _ _ _ (by simp)
  have hval : gpioEdge n level s = if flag s R.gpioIn n ≠ level ∧ getF s (R.gpioCfg n) 2 0 = 1 ∧ flag s (R.gpioCfg n) 3 = level
      then raise u R.gpioEvt n else u := by
    unfold gpioEdge
    dsimp only
    rw [← hu, hmode, hpol]
    refine if_congr ?_ rfl rfl
    simp [and_assoc]
  rw [hval]
  split
  case isTrue hedge =>
    refine ⟨(hraise n).trans (by simp [hin]), fun k hk => (hraise k).trans ?_, ?_, rfl, ?_⟩
    · rw [hin, if_neg fun e => hk (Fin.ext e)]
    · simp [flag_raise_same u R.gpioEvt (show n.val < 32 by omega), hedge]
    · exact sameRegs_trans hregs (sameRegs_raise _ _ (by simp))
  case isFalse hedge =>
    refine ⟨by simp [hin], fun k hk => ?_, ?_, rfl, hregs⟩
    · rw [hin, if_neg fun e => hk (Fin.ext e)]
    · rw [hevt]
      exact ⟨.inl, fun h => h.resolve_right hedge⟩

/-- A pulse pin's timer that is due gives a pulse and starts its next period. -/
theorem gpioPulse_due {s : State} {n : Fin 16} {due : Nat} (hp : SMap.find s.mgmt.pulses n.val = some due)
    (hmode : getF s (R.gpioCfg n) 2 0 = 4) (hdue : due ≤ s.time.lamp) (hw : getF s (R.gpioCfg n) 15 8 ≠ 0) :
    gpioPulse n s = { s with
      mgmt := { s.mgmt with pulses := SMap.put s.mgmt.pulses n.val (due + 5120 * getF s (R.gpioCfg n) 31 16) }
      out := s.out ++ [.pin (pinName n.val) false, .pin (pinName n.val) true] } := by
  have hgo : ¬ (gpioMode s n ≠ 4 ∨ s.time.lamp < due) := by
    simp only [gpioMode, hmode]
    omega
  unfold gpioPulse
  simp only [hp, if_neg hgo]
  refine (if_neg hw).trans ?_
  simp [emit, setMgmt]

/-! ### The IMON inputs (R629) -/

/-- What the machine holds of one IMON input: its mean, its discarded readings, and whether its rail fell back. -/
def imonAt (i : Nat) (s : State) : Option Nat × Option Nat × Bool :=
  (s.mgmt.imon[i]?, s.mgmt.imonBad[i]?, decide (i ∈ s.mgmt.imonFell))

/-- A state whose IMON part changed, with flags of `MGT_STAT` raised. -/
def imonFrame (s t : State) : Prop :=
  t = { s with regs := t.regs, mgmt := t.mgmt } ∧ sameRegs s t [R.mgtStat] ∧ keepsFlags s t R.mgtStat ∧
    t.mgmt.imon.length = s.mgmt.imon.length ∧ t.mgmt.imonBad.length = s.mgmt.imonBad.length

theorem imonFrame_refl (s : State) : imonFrame s s := ⟨rfl, sameRegs_refl s _, keepsFlags_of_rd rfl, rfl, rfl⟩

theorem imonFrame_trans {s t u : State} (h₁ : imonFrame s t) (h₂ : imonFrame t u) : imonFrame s u := by
  obtain ⟨ht, hr₁, hk₁, hl₁, hb₁⟩ := h₁
  obtain ⟨hu, hr₂, hk₂, hl₂, hb₂⟩ := h₂
  refine ⟨?_, sameRegs_trans hr₁ hr₂, keepsFlags_trans hk₁ hk₂, hl₂.trans hl₁, hb₂.trans hb₁⟩
  rw [hu, ht]

theorem imonOne_frame (s : State) (i mv : Nat) : imonFrame s (imonOne s i mv) := by
  unfold imonOne
  dsimp only
  split
  · exact ⟨rfl, sameRegs_of_regs rfl _, keepsFlags_of_rd rfl, by simp [setMgmt], by simp [setMgmt]⟩
  · split
    · exact ⟨rfl, sameRegs_raise (setMgmt s _) 30 (by simp), keepsFlags_trans (t := setMgmt s _) (keepsFlags_of_rd rfl)
        (keepsFlags_raise _ _ _ _), by simp [setMgmt], by simp [setMgmt]⟩
    · exact ⟨rfl, sameRegs_of_regs rfl _, keepsFlags_of_rd rfl, by simp [setMgmt], by simp [setMgmt]⟩

theorem imonOne_apart (s : State) {i j : Nat} (mv : Nat) (h : j ≠ i) : imonAt i (imonOne s j mv) = imonAt i s := by
  unfold imonOne imonAt
  dsimp only
  (repeat' split) <;> simp [setMgmt, List.getElem?_set_ne h, Ne.symm h]

/-- A good mean is taken. -/
theorem imonOne_good (s : State) {i mv : Nat} (hlo : 20 ≤ mv) (hhi : mv ≤ 1150) (hi : i < s.mgmt.imon.length)
    (hb : i < s.mgmt.imonBad.length) : imonAt i (imonOne s i mv) = (some mv, some 0, false) := by
  unfold imonOne imonAt
  simp [hlo, hhi, setMgmt, hi, hb]

/-- A mean out of range is discarded. -/
theorem imonOne_bad (s : State) {i mv : Nat} (h : mv < 20 ∨ 1150 < mv) :
    (imonOne s i mv).mgmt.imon = s.mgmt.imon := by
  unfold imonOne
  rw [if_neg (by omega)]
  dsimp only
  split
  · rw [raise_mgmt]
    rfl
  · rfl

/-- The third mean out of range in a row makes the input's rail fall back. -/
theorem imonOne_third {s : State} {i mv : Nat} (h : mv < 20 ∨ 1150 < mv) (hbad : s.mgmt.imonBad[i]? = some 2) :
    i ∈ (imonOne s i mv).mgmt.imonFell ∧ flag (imonOne s i mv) R.mgtStat 30 = true := by
  have hcount : s.mgmt.imonBad.getD i 0 + 1 = 3 := by rw [List.getD_eq_getElem?_getD, hbad]; rfl
  unfold imonOne
  rw [if_neg (by omega)]
  dsimp only
  rw [hcount, if_pos rfl]
  refine ⟨?_, flag_raise_same _ _ (by decide)⟩
  rw [raise_mgmt]
  simp only [setMgmt, le_refl, true_and]
  split
  · simp
  · rename_i hin
    simpa [memNat] using hin

/-- The means taken, each at its input. -/
def imonFold (l : List (Nat × Nat)) (s : State) : State := l.foldl (fun s e => imonOne s e.1 e.2) s

theorem imonFold_frame (l : List (Nat × Nat)) (s : State) : imonFrame s (imonFold l s) :=
  foldl_preserves (P := imonFrame s) (fun t e ht => imonFrame_trans ht (imonOne_frame t e.1 e.2)) l (imonFrame_refl s)

theorem imonFold_apart {l : List (Nat × Nat)} {i : Nat} (h : ∀ e ∈ l, e.1 ≠ i) (s : State) :
    imonAt i (imonFold l s) = imonAt i s :=
  foldl_keeps (imonAt i) (fun s e he => imonOne_apart s e.2 (h e he)) s

/-- Among the numbered readings each input occurs once: those before it and after it are of other inputs. -/
theorem zip_range_split {mv : List Nat} {n i v : Nat} (hn : mv.length = n) (hv : mv[i]? = some v) :
    ∃ pre post, (List.range n).zip mv = pre ++ (i, v) :: post ∧ (∀ e ∈ pre, e.1 ≠ i) ∧ ∀ e ∈ post, e.1 ≠ i := by
  obtain ⟨hi, hvi⟩ := List.getElem?_eq_some_iff.1 hv
  have hlen : i < ((List.range n).zip mv).length := by simp [hn]; omega
  have hget (k : Nat) (hk : k < ((List.range n).zip mv).length) : ((List.range n).zip mv)[k].1 = k := by simp
  refine ⟨((List.range n).zip mv).take i, ((List.range n).zip mv).drop (i + 1), ?_, fun e he => ?_, fun e he => ?_⟩
  · conv_lhs => rw [← List.take_append_drop i ((List.range n).zip mv), List.drop_eq_getElem_cons hlen]
    simp [hvi]
  · obtain ⟨k, hk, rfl⟩ := List.mem_take_iff_getElem.1 he
    rw [hget]
    omega
  · obtain ⟨k, hk, rfl⟩ := List.mem_drop_iff_getElem.1 he
    rw [hget]
    omega

/-- What the readings of a sweep do with one input. -/
theorem imonSweep_input {s : State} {mv : List Nat} {i v : Nat} (hn : mv.length = 9) (himon : s.mgmt.imon.length = 9)
    (hbad : s.mgmt.imonBad.length = 9) (hv : mv[i]? = some v) {t : State} (ht : t = imonFold ((List.range 9).zip mv) s) :
    (20 ≤ v → v ≤ 1150 → imonAt i t = (some v, some 0, false)) ∧
    (v < 20 ∨ 1150 < v → t.mgmt.imon[i]? = s.mgmt.imon[i]? ∧
      (s.mgmt.imonBad[i]? = some 2 → i ∈ t.mgmt.imonFell ∧ flag t R.mgtStat 30 = true)) := by
  have hi : i < 9 := hn ▸ (List.getElem?_eq_some_iff.1 hv).1
  obtain ⟨pre, post, hsplit, hpre, hpost⟩ := zip_range_split hn hv
  set u := imonFold pre s
  have htu : t = imonFold post (imonOne u i v) := by
    rw [ht, hsplit, imonFold, List.foldl_append, List.foldl_cons]
    rfl
  have hu : imonAt i u = imonAt i s := imonFold_apart hpre s
  have hut : imonAt i t = imonAt i (imonOne u i v) := htu ▸ imonFold_apart hpost _
  obtain ⟨-, -, -, hlen, hblen⟩ : imonFrame s u := imonFold_frame pre s
  simp only [imonAt, Prod.mk.injEq, decide_eq_decide] at hu
  obtain ⟨hu1, hu2, -⟩ := hu
  refine ⟨fun hlo hhi => hut.trans (imonOne_good u hlo hhi (by omega) (by omega)), fun hout => ?_⟩
  simp only [imonAt, Prod.mk.injEq, decide_eq_decide] at hut
  obtain ⟨hut1, -, hut3⟩ := hut
  refine ⟨by rw [hut1, imonOne_bad u hout, hu1], fun h2 => ?_⟩
  obtain ⟨hfell, hflag⟩ := imonOne_third (s := u) hout (hu2.trans h2)
  obtain ⟨-, -, hkeep, -⟩ : imonFrame (imonOne u i v) t := htu ▸ imonFold_frame post _
  exact ⟨hut3.2 hfell, hkeep 30 (by decide) hflag⟩

/-! ### The loss of SYSCLK (R611) -/

theorem sysclkLoss_spec {s u : State} (hu : u = setMgmt s { s.mgmt with osc := true }) {t : State}
    (ht : t = deviceFault u 0x02 0) :
    t.mgmt.osc = true ∧ flag t R.glbFault 31 = true ∧ (flag s R.glbFault 31 = false → rd t R.glbFault = 2 ^ 31 + 2) ∧
      (flag s R.glbFault 31 = true → t = u) ∧ t.deep = s.deep ∧ t.fab = s.fab ∧ t.time = s.time := by
  have hflag : flag u R.glbFault 31 = flag s R.glbFault 31 := by rw [hu]; rfl
  rw [ht, deviceFault_osc, deviceFault_deep, deviceFault_fab, deviceFault_time]
  refine ⟨by rw [hu]; rfl, flag_deviceFault u (by decide), fun h => ?_, fun h => ?_, by rw [hu]; rfl, by rw [hu]; rfl,
    by rw [hu]; rfl⟩
  · rw [rd_deviceFault_first (hflag.trans h)]
    rfl
  · exact deviceFault_of_faulted (hflag.trans h) _ _

/-! ### The test port (R627, R628) -/

theorem testActs_testInstr (k : Nat) (s : State) :
    testActs (testInstr k s) = if s.mgmt.inReset = false ∧ 3 ≤ k then 1 else k := by
  unfold testActs testInstr setMgmt
  simp [and_comm]

end Sys2Proof.Machine

open Sys2Proof Sys2Proof.Machine

/-- Settles O60: pin by pin and input by input; a fold over the IMON inputs touches each input once. -/
theorem pinsAndTestPort : Obligations.PinsAndTestPort := by
  refine ⟨⟨fun s n level => ⟨_, rfl, gpioEdge_spec s n level⟩, fun s n due hp hmode hdue hw => ?_, fun s hlamp => ?_,
    fun s mv hmv himon hbad => ?_, fun s => ⟨_, rfl, sysclkLoss_spec rfl rfl⟩⟩, fun s => ⟨fun c k hc => ?_, ⟨_, rfl, rfl⟩, fun _ => rfl⟩⟩
  · refine ⟨_, congrArg Host.Outcome.next (gpioPulse_due hp hmode hdue hw), rfl, ?_, rfl⟩
    rw [SMap.find_put_same]
    congr 1
    omega
  · have hwake : lampWake s = { s with power := { s.power with lamp := 2, since := s.time.lamp } } := if_pos hlamp
    have hexec : exec .wakeN s = .next (if flag s R.mgtCtl 1 then lampWake s else s) := rfl
    refine ⟨fun h => ?_, fun h => ?_⟩
    · rw [hexec, h]
      rfl
    · rw [hexec, h, hwake]
      rfl
  · obtain ⟨hframe, hregs, -⟩ := imonFold_frame ((List.range 9).zip mv) s
    refine ⟨_, rfl, fun i v hv => ?_, hframe, hregs⟩
    obtain ⟨hgood, hout⟩ := imonSweep_input hmv himon hbad hv rfl
    refine ⟨fun hlo hhi => ?_, hout⟩
    obtain ⟨hval, hzero, hstands⟩ := by simpa only [imonAt, Prod.mk.injEq] using hgood hlo hhi
    exact ⟨hval, hzero, of_decide_eq_false hstands⟩
  · simp only [List.mem_cons, Prod.mk.injEq, List.not_mem_nil, or_false] at hc
    have hval : exec c s = .next (testInstr k s) := by
      obtain ⟨rfl, rfl⟩ | ⟨rfl, rfl⟩ | ⟨rfl, rfl⟩ | ⟨rfl, rfl⟩ | ⟨rfl, rfl⟩ := hc <;> rfl
    exact ⟨_, hval, rfl, testActs_testInstr k s⟩
end

section
/-! PROOFS. The SMBus target, the regulator bus and the console (O58, O59). -/

namespace Sys2Proof.Machine

/-! ### The SMBus target (R618 to R621) -/

/-- The five flags of a status word are read back. -/
theorem bit_fiveFlags (a b c d e : Bool) :
    let w := b2n a + 2 * b2n b + 4 * b2n c + 8 * b2n d + 16 * b2n e
    w < 32 ∧ bit w 0 = a ∧ bit w 1 = b ∧ bit w 2 = c ∧ bit w 3 = d ∧ bit w 4 = e := by
  revert a b c d e
  decide

theorem alertHigh_eq (s : State) :
    alertHigh s = { s with mgmt := { s.mgmt with alert := false },
                           out := s.out ++ if s.mgmt.alert then [.pin "SMB0_ALERT_N" true] else [] } := by
  unfold alertHigh
  split
  case isTrue => rfl
  case isFalse h =>
    rw [List.append_nil, ← Bool.eq_false_of_not_eq_true h]

/-- The target reads `STATUS`: five flags, and the alert is released. -/
theorem execStatus_spec (s : State) : ∃ (t : State) (w : Nat), execStatus s = .next t ∧
    t.out = s.out ++ [.smbus (leBytes 2 w)] ++ (if s.mgmt.alert then [.pin "SMB0_ALERT_N" true] else []) ∧ w < 32 ∧
    bit w 0 = flag s R.glbFault 31 ∧ bit w 1 = s.power.isl.any (fun e => e.2.throt) ∧ bit w 2 = flag s R.pwrStat 3 ∧
    (bit w 3 = true ↔ s.power.lamp ≠ 0) ∧ bit w 4 = flag s R.pwrStat 2 ∧
    t = { s with mgmt := { s.mgmt with alert := false }, out := t.out } := by
  obtain ⟨hlt, h0, h1, h2, h3, h4⟩ := bit_fiveFlags (flag s R.glbFault 31) (s.power.isl.any fun e => e.2.throt)
    (flag s R.pwrStat 3) (s.power.lamp != 0) (flag s R.pwrStat 2)
  refine ⟨_, smbStatus s, congrArg Host.Outcome.next (alertHigh_eq _), rfl, hlt, h0, h1, h2, ?_, h4, rfl⟩
  rw [smbStatus, h3]
  exact bne_iff_ne

theorem capOk_iff (w : Nat) : capOk w = true ↔ 500 ≤ w ∧ w ≤ 2600 := by simp [capOk]

/-- CAP is refused for a wrong PEC or a value out of range, and else taken. -/
theorem capWrite_eq (w : BitVec 16) (pecOk : Bool) (s : State) :
    capWrite w pecOk s = if (flag s R.i2cCtl 7 = true ∧ pecOk = false) ∨ w.toNat < 500 ∨ 2600 < w.toNat then s
      else setF s R.pwrCap 11 0 w.toNat := by
  unfold capWrite
  refine if_congr ?_ rfl rfl
  rw [Bool.or_eq_true, Bool.and_eq_true, Bool.not_eq_true', Bool.not_eq_true', ← Bool.not_eq_true (capOk _), capOk_iff]
  refine or_congr Iff.rfl ?_
  omega

/-! ### The regulator bus (R622, R623) -/

/-- What the rails' failures leave: `I2C_STAT.1` and `GLB_FAULT.VALID` once set, deep store and the fabric. -/
def railFrame (s t : State) : Prop :=
  (flag s R.i2cStat 1 = true → flag t R.i2cStat 1 = true) ∧ (flag s R.glbFault 31 = true → flag t R.glbFault 31 = true) ∧
    t.deep = s.deep ∧ t.fab = s.fab

theorem railFrame_refl (s : State) : railFrame s s := ⟨id, id, rfl, rfl⟩

theorem railFrame_trans {s t u : State} (h₁ : railFrame s t) (h₂ : railFrame t u) : railFrame s u := by
  obtain ⟨hi₁, hg₁, hd₁, hf₁⟩ := h₁
  obtain ⟨hi₂, hg₂, hd₂, hf₂⟩ := h₂
  exact ⟨hi₂ ∘ hi₁, hg₂ ∘ hg₁, hd₂.trans hd₁, hf₂.trans hf₁⟩

theorem railFrame_deviceFault (s : State) : railFrame s (deviceFault s 0x03 0) :=
  ⟨fun h => by rwa [flag, rd_deviceFault_ne s _ _ (by decide)], fun _ => flag_deviceFault s (by decide),
    deviceFault_deep s _ _, deviceFault_fab s _ _⟩

theorem railFrame_raise (s : State) : railFrame s (raise s R.i2cStat 1) :=
  ⟨fun _ => flag_raise_same _ _ (by decide), fun h => by rwa [flag, rd_raise_ne _ _ (by decide)], rfl, rfl⟩

theorem railFault_frame (s : State) (failed bad : Bool) : railFrame s (railFault s failed bad) := by
  have hraised : railFrame s (if failed then raise s R.i2cStat 1 else s) := by
    split
    · exact railFrame_raise s
    · exact railFrame_refl s
  unfold railFault
  dsimp only
  split
  · exact railFrame_trans hraised (railFrame_deviceFault _)
  · exact hraised

/-- A rail that failed, or shows an output fault, is a device fault; one that failed sets `I2C_STAT.1` too. -/
theorem railFault_flags (s : State) {failed bad : Bool} (h : failed = true ∨ bad = true) :
    flag (railFault s failed bad) R.glbFault 31 = true ∧ (failed = true → flag (railFault s failed bad) R.i2cStat 1 = true) := by
  have hany : (failed || bad) = true := by simpa using h
  unfold railFault
  dsimp only
  rw [if_pos hany]
  refine ⟨flag_deviceFault _ (by decide), fun hf => ?_⟩
  rw [flag, rd_deviceFault_ne _ _ _ (by decide), if_pos hf]
  exact flag_raise_same _ _ (by decide)

/-- One rail of a poll. -/
def pollRail (s : State) (r : RailTry) : State :=
  if 3 ≤ r.failures then railFault s true false else setMgmt s { s.mgmt with iout := SMap.put s.mgmt.iout r.rail r.value }

/-- One rail read after an alert. -/
def alertRail (s : State) (r : RailTry) : State :=
  railFault s (decide (3 ≤ r.failures)) (decide (r.failures < 3) && outputFault r.value)

theorem pmbusIoutPoll_eq (rails : List RailTry) (s : State) : pmbusIoutPoll rails s = rails.foldl pollRail s := rfl

theorem pmbAlert_eq {s : State} (h : flag s R.mgtCtl 2 = true) (rails : List RailTry) :
    pmbAlert rails s = rails.foldl alertRail s := by
  unfold pmbAlert
  rw [h]
  rfl

theorem pollRail_frame (s : State) (r : RailTry) : railFrame s (pollRail s r) := by
  unfold pollRail
  split
  · exact railFault_frame s _ _
  · exact ⟨id, id, rfl, rfl⟩

/-- A fold with a frame, at one of its elements: the element's step, and the frame around it. -/
theorem railFrame_foldl_mem {f : State → RailTry → State} (hf : ∀ s r, railFrame s (f s r)) {rails : List RailTry} {r : RailTry}
    (hr : r ∈ rails) (s : State) : ∃ u, railFrame (f u r) (rails.foldl f s) := by
  obtain ⟨pre, post, rfl⟩ := List.append_of_mem hr
  refine ⟨pre.foldl f s, ?_⟩
  rw [List.foldl_append, List.foldl_cons]
  exact foldl_preserves (P := railFrame (f (pre.foldl f s) r)) (fun t x ht => railFrame_trans ht (hf t x)) post (railFrame_refl _)

theorem railFrame_foldl {f : State → RailTry → State} (hf : ∀ s r, railFrame s (f s r)) (rails : List RailTry) (s : State) :
    railFrame s (rails.foldl f s) :=
  foldl_preserves (P := railFrame s) (fun t x ht => railFrame_trans ht (hf t x)) rails (railFrame_refl _)

/-- With no rail failing, a poll takes every reading and changes nothing else. -/
theorem pmbusIoutPoll_good {rails : List RailTry} (hgood : ∀ r ∈ rails, r.failures < 3) (hnd : (rails.map (·.rail)).Nodup)
    (s : State) : (∀ r ∈ rails, SMap.find (rails.foldl pollRail s).mgmt.iout r.rail = some r.value) ∧
      (∀ k, k ∉ rails.map (·.rail) → SMap.find (rails.foldl pollRail s).mgmt.iout k = SMap.find s.mgmt.iout k) ∧
      rails.foldl pollRail s = { s with mgmt := { s.mgmt with iout := (rails.foldl pollRail s).mgmt.iout } } := by
  induction rails generalizing s with
  | nil => exact ⟨by simp, fun _ _ => rfl, rfl⟩
  | cons x rest ih =>
    obtain ⟨hx, hrest⟩ := List.forall_mem_cons.1 hgood
    rw [List.map_cons, List.nodup_cons] at hnd
    obtain ⟨hnot, hnd⟩ := hnd
    have hstep : pollRail s x = setMgmt s { s.mgmt with iout := SMap.put s.mgmt.iout x.rail x.value } := if_neg (by omega)
    obtain ⟨hin, hout, hframe⟩ := ih hrest hnd (pollRail s x)
    rw [List.foldl_cons]
    refine ⟨List.forall_mem_cons.2 ⟨?_, hin⟩, fun k hk => ?_, ?_⟩
    · rw [hout _ hnot, hstep]
      exact SMap.find_put_same _ _ _
    · rw [List.map_cons, List.mem_cons, not_or] at hk
      obtain ⟨hne, hk⟩ := hk
      rw [hout k hk, hstep]
      exact SMap.find_put_ne _ _ hne
    · exact hframe.trans (by rw [hstep]; rfl)

/-- A rail that fails three times in a row is a device fault. -/
theorem pmbusIoutPoll_bad {rails : List RailTry} (h : ∃ r ∈ rails, 3 ≤ r.failures) (s : State) :
    flag (rails.foldl pollRail s) R.i2cStat 1 = true ∧ flag (rails.foldl pollRail s) R.glbFault 31 = true ∧
      (rails.foldl pollRail s).deep = s.deep ∧ (rails.foldl pollRail s).fab = s.fab := by
  obtain ⟨r, hr, hbad⟩ := h
  obtain ⟨u, hi2c, hglb, -, -⟩ := railFrame_foldl_mem pollRail_frame hr s
  obtain ⟨-, -, hdeep, hfab⟩ := railFrame_foldl pollRail_frame rails s
  have hstep : pollRail u r = railFault u true false := if_pos hbad
  obtain ⟨hf, hi⟩ := railFault_flags u (failed := true) (bad := false) (.inl rfl)
  rw [← hstep] at hf hi
  exact ⟨hi2c (hi rfl), hglb hf, hdeep, hfab⟩

theorem alertRail_frame (s : State) (r : RailTry) : railFrame s (alertRail s r) := railFault_frame s _ _

/-- Regulators that answer with no output fault change nothing. -/
theorem alertRails_good {rails : List RailTry} (h : ∀ r ∈ rails, r.failures < 3 ∧ outputFault r.value = false) (s : State) :
    rails.foldl alertRail s = s :=
  foldl_keeps id (fun u r hr => by
    obtain ⟨hf, ho⟩ := h r hr
    simp [alertRail, railFault, ho, Nat.not_le.2 hf]) s

theorem alertRail_flags (s : State) {r : RailTry} (h : 3 ≤ r.failures ∨ outputFault r.value = true) :
    flag (alertRail s r) R.glbFault 31 = true ∧ (3 ≤ r.failures → flag (alertRail s r) R.i2cStat 1 = true) := by
  have hany : decide (3 ≤ r.failures) = true ∨ (decide (r.failures < 3) && outputFault r.value) = true := by
    by_cases hf : 3 ≤ r.failures
    · exact .inl (decide_eq_true hf)
    · exact .inr (by simp [h.resolve_left hf]; omega)
  obtain ⟨hglb, hi2c⟩ := railFault_flags s hany
  exact ⟨hglb, fun hf => hi2c (decide_eq_true hf)⟩

/-- A regulator that fails three times in a row, or shows an output fault, is a device fault. -/
theorem alertRails_bad {rails : List RailTry} (h : ∃ r ∈ rails, 3 ≤ r.failures ∨ outputFault r.value = true) (s : State) :
    flag (rails.foldl alertRail s) R.glbFault 31 = true ∧
      ((∃ r ∈ rails, 3 ≤ r.failures) → flag (rails.foldl alertRail s) R.i2cStat 1 = true) ∧
      (rails.foldl alertRail s).deep = s.deep ∧ (rails.foldl alertRail s).fab = s.fab := by
  obtain ⟨-, -, hdeep, hfab⟩ := railFrame_foldl alertRail_frame rails s
  refine ⟨?_, fun ⟨r, hr, hf⟩ => ?_, hdeep, hfab⟩
  · obtain ⟨r, hr, hbad⟩ := h
    obtain ⟨u, -, hglb, -⟩ := railFrame_foldl_mem alertRail_frame hr s
    exact hglb (alertRail_flags u hbad).1
  · obtain ⟨u, hi2c, -⟩ := railFrame_foldl_mem alertRail_frame hr s
    exact hi2c ((alertRail_flags u (.inl hf)).2 hf)

/-! ### A console write while a low word is held (R14, R615) -/

/-- A cold device whose host owns the console, with the low word of `FAB_FLIPAT` held. -/
def heldConsole : State :=
  { State.reset with regs := [(R.uartCtl, 2 ^ 30)], held := some (R.fabFlipat, 0) }

/-- The host's console write drops the word held. -/
theorem uartDataWrite_heldConsole :
    (uartDataWrite true 0#8 (dropHeld heldConsole R.uartData)).held = none := by decide

/-! ### Recovery of SMB1 (R624) -/

theorem busRecovery_spec {s : State} (h : s.mgmt.stuck = none) (freed : Bool) {t : State} (ht : t = busRecovery freed s) :
    (freed = true → t.mgmt = s.mgmt ∧ rd t R.i2cCntRecov = min (2 ^ 32 - 1) (rd s R.i2cCntRecov % 2 ^ 32 + 1)) ∧
      (freed = false → t.mgmt = { s.mgmt with stuck := some (s.time.lamp + 35000000, false) } ∧ t.regs = s.regs) ∧
      t = { s with regs := t.regs, mgmt := t.mgmt } ∧ sameRegs s t [R.i2cCntRecov] := by
  have hval : t = if freed then busFreed s else setMgmt s { s.mgmt with stuck := some (s.time.lamp + 35000000, false) } := by
    rw [ht, busRecovery, h]
    rfl
  cases freed with
  | true =>
    subst hval
    have hfree : ({ s.mgmt with stuck := none } : MgmtSt) = s.mgmt := by rw [← h]
    exact ⟨fun _ => ⟨hfree, rd_bump_same s _ _⟩, fun h => (nomatch h), rfl, sameRegs_bump s 1 (by simp)⟩
  | false =>
    subst hval
    exact ⟨fun h => (nomatch h), fun _ => ⟨rfl, rfl⟩, rfl, sameRegs_of_regs rfl _⟩

theorem busRecoveryRepeat_eq {s : State} {due : Nat} {told : Bool} (h : s.mgmt.stuck = some (due, told)) (hdue : due ≤ s.time.lamp)
    (freed : Bool) {u : State} (hu : u = if told then s else raise s R.i2cStat 0) :
    busRecoveryRepeat freed s =
      if freed then busFreed u else setMgmt u { u.mgmt with stuck := some (s.time.lamp + 100000000, true) } := by
  have htime : u.time = s.time := by
    rw [hu]
    split <;> rfl
  unfold busRecoveryRepeat
  rw [h]
  dsimp only
  rw [if_neg (by omega), ← hu, htime]

theorem busRecoveryRepeat_spec {s : State} {due : Nat} {told : Bool} (h : s.mgmt.stuck = some (due, told)) (hdue : due ≤ s.time.lamp)
    (freed : Bool) {t : State} (ht : t = busRecoveryRepeat freed s) :
    (told = false → flag t R.i2cStat 0 = true) ∧
      (freed = true → t.mgmt = { s.mgmt with stuck := none } ∧
        rd t R.i2cCntRecov = min (2 ^ 32 - 1) (rd s R.i2cCntRecov % 2 ^ 32 + 1)) ∧
      (freed = false → t.mgmt = { s.mgmt with stuck := some (s.time.lamp + 100000000, true) } ∧
        rd t R.i2cCntRecov = rd s R.i2cCntRecov) ∧
      t = { s with regs := t.regs, mgmt := t.mgmt } ∧ sameRegs s t [R.i2cCntRecov, R.i2cStat] := by
  obtain ⟨u, hu⟩ : ∃ u, u = if told then s else raise s R.i2cStat 0 := ⟨_, rfl⟩
  have hframe : u = { s with regs := u.regs } := by
    rw [hu]
    split <;> rfl
  have hmgmt : u.mgmt = s.mgmt := by rw [hframe]
  have hcnt : rd u R.i2cCntRecov = rd s R.i2cCntRecov := by
    rw [hu]
    split
    · rfl
    · exact rd_raise_ne _ _ (by decide)
  have htold : told = false → flag u R.i2cStat 0 = true := by
    rintro rfl
    rw [hu]
    exact flag_raise_same _ _ (by decide)
  have hregs : sameRegs s u [R.i2cCntRecov, R.i2cStat] := by
    rw [hu]
    split
    · exact sameRegs_refl s _
    · exact sameRegs_raise _ _ (by simp)
  rw [busRecoveryRepeat_eq h hdue freed hu] at ht
  clear hu
  cases freed with
  | true =>
    subst ht
    refine ⟨fun hn => ?_, fun _ => ⟨by rw [← hmgmt]; rfl, ?_⟩, fun h => (nomatch h), ?_,
      sameRegs_trans hregs (sameRegs_bump u 1 (by simp))⟩
    · exact (flag_congr_rd (rd_bump_ne u 1 (by decide)) 0).trans (htold hn)
    · rw [← hcnt]
      exact rd_bump_same u _ _
    · rw [hframe]
      rfl
  | false =>
    subst ht
    refine ⟨htold, fun h => (nomatch h), fun _ => ⟨by rw [← hmgmt]; rfl, hcnt⟩, ?_,
      sameRegs_trans hregs (sameRegs_of_regs rfl _)⟩
    rw [hframe]
    rfl

end Sys2Proof.Machine

open Sys2Proof Sys2Proof.Machine

/-- Settles O59: the target's answers by their equations; the rails by a frame that every rail's step keeps. -/
theorem sideBuses : Obligations.SideBuses := by
  refine ⟨fun s => ⟨rfl, execStatus_spec s, rfl, rfl, rfl, fun w pecOk => ⟨fun h => ?_, fun hpec hlo hhi => ?_⟩, fun won => ⟨fun h => ?_, fun ha hw => ?_⟩,
    ⟨_, rfl, flag_raise_same _ _ (by decide), rfl, sameRegs_raise s 2 (by simp)⟩⟩,
    ⟨fun s rails => ⟨fun hgood hnd => ?_, fun hbad => ⟨_, rfl, pmbusIoutPoll_bad hbad s⟩, fun h => ?_, fun h => ⟨fun hgood => ?_, fun hbad => ?_⟩⟩,
      fun s freed h => ⟨_, rfl, busRecovery_spec h freed rfl⟩, fun s freed told due h hdue => ⟨_, rfl, busRecoveryRepeat_spec h hdue freed rfl⟩⟩⟩
  · exact congrArg Host.Outcome.next ((capWrite_eq w pecOk s).trans (if_pos h))
  · have hgo : ¬ ((flag s R.i2cCtl 7 = true ∧ pecOk = false) ∨ w.toNat < 500 ∨ 2600 < w.toNat) := by
      rintro (⟨hc, hp⟩ | h)
      · exact absurd (hp.symm.trans (hpec hc)) (by decide)
      · omega
    refine ⟨_, congrArg Host.Outcome.next ((capWrite_eq w pecOk s).trans (if_neg hgo)), ?_, rfl, sameRegs_setF _ _ _ _ (by simp)⟩
    rw [getF_setF_same _ _ _ (by decide) (by decide)]
    exact Nat.mod_eq_of_lt (lt_of_le_of_lt hhi (by decide))
  · have hrefused : (s.mgmt.alert && won) = false := by
      obtain h | h := h <;> simp [h]
    exact congrArg Host.Outcome.next (if_neg (by simp [hrefused]))
  · have hwon : (s.mgmt.alert && won) = true := by simp [ha, hw]
    have hval : alertResponse won s = alertHigh (emit s (.smbus [BitVec.ofNat 8 (2 * smbAddr s)])) := if_pos hwon
    refine congrArg Host.Outcome.next (hval.trans ((alertHigh_eq _).trans ?_))
    simp [emit, ha, smbAddr]
  · obtain ⟨hin, -, hframe⟩ := pmbusIoutPoll_good hgood hnd s
    exact ⟨_, rfl, hin, hframe⟩
  · exact congrArg Host.Outcome.next (if_pos (by simp [h]))
  · exact congrArg Host.Outcome.next ((pmbAlert_eq h rails).trans (alertRails_good hgood s))
  · exact ⟨_, congrArg Host.Outcome.next (pmbAlert_eq h rails), alertRails_bad hbad s⟩

/-- Refutes O58: a host's write of `UART_DATA` drops the low word held for another register (R14), so the state is not the
one before with the byte queued and nothing else changed. -/
theorem not_consoleAndFlash : ¬ Obligations.ConsoleAndFlash := by
  rintro ⟨⟨hwrite, -⟩, -⟩
  obtain ⟨hqueued, -⟩ := hwrite heldConsole true 0#8
  have hnext := Host.Outcome.next.inj (hqueued (by decide) (by decide))
  have hheld : (uartDataWrite true 0#8 (dropHeld heldConsole R.uartData)).held = heldConsole.held :=
    (congrArg State.held hnext :)
  rw [uartDataWrite_heldConsole] at hheld
  exact absurd hheld (by decide)
end

section
/-! PROOFS. The maintenance arbiter's requests (O7) and late requests (O8). -/

namespace Sys2Proof.Machine

/-! ### What the arbiter answers (R598) -/

/-- Does a request's activity and unit run, or wait? -/
def requestKnown (s : State) (a u : Nat) : Prop := (a, u) ∈ s.power.running ∨ ∃ d ∈ s.power.deferred, d.act = a ∧ d.unit = u

/-- Is a request compatible with everything that runs or waits? -/
def requestFits (s : State) (a u : Nat) : Prop :=
  (∀ b ∈ s.power.running, compatible s (a, u) b = true) ∧
    ∀ d ∈ s.power.deferred, compatible s (a, u) (d.act, d.unit) = true

theorem requestKnown_iff (s : State) (a u : Nat) :
    (s.power.running.contains (a, u) || s.power.deferred.any fun d => d.act == a && d.unit == u) = true ↔
      requestKnown s a u := by
  simp [requestKnown]

theorem requestFits_iff (s : State) (a u : Nat) :
    ((s.power.running.all (compatible s (a, u))) &&
      (s.power.deferred.all fun d => compatible s (a, u) (d.act, d.unit))) = true ↔ requestFits s a u := by
  simp [requestFits]

/-- A request is refused that is known. -/
theorem requestMaint_known {s : State} {a u : Nat} (h : requestKnown s a u) : requestMaint s (a, u) = (s, 2) :=
  if_pos ((requestKnown_iff s a u).2 h)

/-- One that is new and fits starts. -/
theorem requestMaint_fitting {s : State} {a u : Nat} (hk : ¬ requestKnown s a u) (hf : requestFits s a u) :
    requestMaint s (a, u) = (startActivity s (a, u), 0) :=
  (if_neg (mt (requestKnown_iff s a u).1 hk)).trans (if_pos ((requestFits_iff s a u).2 hf))

/-- One that is new and does not fit waits, where fewer than 16 wait. -/
theorem requestMaint_waiting {s : State} {a u : Nat} (hk : ¬ requestKnown s a u) (hf : ¬ requestFits s a u) :
    requestMaint s (a, u) =
      ({ s with power := { s.power with
          deferred := s.power.deferred ++ if s.power.deferred.length < 16 then [⟨a, u, s.time.lamp, false⟩] else [] } },
        if s.power.deferred.length < 16 then 1 else 2) := by
  refine (if_neg (mt (requestKnown_iff s a u).1 hk)).trans ((if_neg (mt (requestFits_iff s a u).1 hf)).trans ?_)
  by_cases h : s.power.deferred.length < 16
  · rw [if_neg (by omega), if_pos h, if_pos h]
  · rw [if_pos (by omega), if_neg h, if_neg h, List.append_nil]

/-- What a start leaves of the requests: the activity runs, and those that wait still wait. -/
theorem startActivity_requests (s : State) (a : Nat × Nat) :
    (startActivity s a).power.running = s.power.running ++ [a] ∧
      (startActivity s a).power.deferred = s.power.deferred := by
  have h := startActivity_fifos s a
  exact ⟨(congrArg (fun q : Fifos => q.2.2.2.2) h :), (congrArg (fun q : Fifos => q.2.2.2.1) h :)⟩

theorem compatible_congr {s t : State} {a : Nat × Nat} (h : rd t (R.pwrMcmp a.1) = rd s (R.pwrMcmp a.1)) (b : Nat × Nat) :
    compatible t a b = compatible s a b := by
  simp only [compatible, h]

/-- A field set in a state whose registers are another's. -/
theorem sameRegs_setF_of_regs {s t : State} (h : t.regs = s.regs) (off hi lo v : Nat) : sameRegs s (setF t off hi lo v) [off] :=
  sameRegs_trans (sameRegs_of_regs h _) (sameRegs_setF t hi lo v List.mem_cons_self)

/-! ### A write of `PWR_MREQ` with GO -/

/-- The row of `PWR_MREQ`. -/
def pwrMreqRow : RegRow := ⟨R.pwrMreq, [], 1, [⟨31, 31, .wo, 0⟩, ⟨18, 16, .rw, 0⟩, ⟨13, 8, .rw, 0⟩, ⟨3, 0, .ro, 0⟩]⟩

/-- The state in which the arbiter takes the request of a word. -/
def mreqTaken (s : State) (w : Nat) (a : Nat × Nat) : State :=
  let t := wr (dropHeld s R.pwrMreq) R.pwrMreq (RegRow.write pwrMreqRow 0 (closedTo s false) (rd s R.pwrMreq) w)
  { t with power := { t.power with lastReq := some a } }

theorem mreqTaken_frame (s : State) (w : Nat) (a : Nat × Nat) :
    (mreqTaken s w a).power = { s.power with lastReq := some a } ∧ (mreqTaken s w a).time = s.time ∧
      sameRegs s (mreqTaken s w a) [R.pwrMreq] := by
  have hregs : sameRegs s (dropHeld s R.pwrMreq) [R.pwrMreq] := sameRegs_of_regs (dropHeld_regs s _) _
  have htaken : sameRegs (dropHeld s R.pwrMreq) (mreqTaken s w a) [R.pwrMreq] := fun off ho =>
    rd_wr_ne (dropHeld s R.pwrMreq) _ (by simpa using ho)
  refine ⟨?_, ?_, sameRegs_trans hregs htaken⟩
  · rw [mreqTaken, dropHeld_eq, wr_power]
  · rw [mreqTaken, dropHeld_eq]
    rfl

/-- A request of the arbiter's own activities, on a unit there is, is put to it. -/
theorem goMaint_eq {s : State} {w a u : Nat} (ha : bits w 18 16 = a) (hu : bits w 13 8 = u) (h2 : 2 ≤ a) (h4 : a ≤ 4)
    (hrep : a = 2 → u = 0) {r : State × Nat}
    (hr : r = requestMaint { s with power := { s.power with lastReq := some (a, u) } } (a, u)) :
    goMaint s w = (setF r.1 R.pwrMreq 3 0 r.2, r.2) := by
  have hok : ¬ (a ≤ 1 ∨ 4 < a ∨ (a = 2 ∧ u ≠ 0)) := by omega
  subst ha hu hr
  exact if_neg hok

theorem write32_pwrMreq {lk : Bool} {s : State} {w new : Nat} (h : bit w 31 = true) :
    write32 lk s R.pwrMreq w new = goMaint (wr s R.pwrMreq new) w := by
  have hmreq : write32 lk s R.pwrMreq w new =
      if bit w 31 then goMaint (wr s R.pwrMreq new) w else (wr s R.pwrMreq new, 0) := rfl
  rw [hmreq, if_pos h]

theorem exec_maintenanceRequest {s : State} {v : Word} {a u : Nat} (ha : a = bits v.toNat 18 16) (hu : u = bits v.toNat 13 8)
    (h2 : 2 ≤ a) (h4 : a ≤ 4) (hrep : a = 2 → u = 0) {r : State × Nat}
    (hr : r = requestMaint (mreqTaken s (setBits v.toNat 31 31 1) (a, u)) (a, u)) :
    exec (.maintenanceRequest v) s = .next (setF r.1 R.pwrMreq 3 0 r.2) := by
  have hrow : regAt R.pwrMreq = some (pwrMreqRow, 0) := by decide +kernel
  have hgo : bit (setBits v.toNat 31 31 1) 31 = true := by rw [bit_setBits _ _ _ (by decide)]; rfl
  have hact : bits (setBits v.toNat 31 31 1) 18 16 = a := (bits_setBits_apart _ _ (by decide) (by decide)).trans ha.symm
  have hunit : bits (setBits v.toNat 31 31 1) 13 8 = u := (bits_setBits_apart _ _ (by decide) (by decide)).trans hu.symm
  have hexec : exec (.maintenanceRequest v) s = .next (bar0Write false R.pwrMreq (setBits v.toNat 31 31 1) s).1 := rfl
  rw [hexec, bar0Write_word false _ hrow rfl, write32_pwrMreq hgo, goMaint_eq hact hunit h2 h4 hrep hr]

/-! ### A deferred request that is late (R600) -/

/-- The activities that run, a bit each. -/
def runningMask (s : State) : Nat :=
  ((List.range 5).filter fun a => s.power.running.any fun r => r.1 == a).foldl (fun m a => m + 2 ^ a) 0

theorem maskOf_bits (p : Nat → Bool) : ∀ a < 5,
    ((List.range 5).filter p).foldl (fun m a => m + 2 ^ a) 0 < 32 ∧
      bit (((List.range 5).filter p).foldl (fun m a => m + 2 ^ a) 0) a = p a := by
  have hmask : ((List.range 5).filter p).foldl (fun m a => m + 2 ^ a) 0 =
      b2n (p 0) + 2 * b2n (p 1) + 4 * b2n (p 2) + 8 * b2n (p 3) + 16 * b2n (p 4) := by
    have hlist : (List.range 5).filter p = [0, 1, 2, 3, 4].filter p := rfl
    rw [hlist]
    simp only [List.filter]
    generalize p 0 = b0, p 1 = b1, p 2 = b2, p 3 = b3, p 4 = b4
    revert b0 b1 b2 b3 b4
    decide
  obtain ⟨hlt, h0, h1, h2, h3, h4⟩ := bit_fiveFlags (p 0) (p 1) (p 2) (p 3) (p 4)
  rw [hmask]
  intro a ha
  refine ⟨hlt, ?_⟩
  interval_cases a <;> assumption

theorem bit_runningMask (s : State) {a : Nat} (ha : a < 5) :
    bit (runningMask s) a = true ↔ ∃ u, (a, u) ∈ s.power.running := by
  rw [runningMask, (maskOf_bits _ a ha).2]
  simp [List.any_eq_true]

/-- The word of `PWR_MLOG` for a late request, read back by its fields. -/
theorem lateLog_fields (s : State) {x : Deferred} (ha : x.act < 8) (hu : x.unit < 64) :
    lateLog s x < 2 ^ 32 ∧ bit (lateLog s x) 31 = true ∧ bits (lateLog s x) 26 24 = x.act ∧
      bits (lateLog s x) 21 16 = x.unit ∧ ∀ a < 5, bit (lateLog s x) a = bit (runningMask s) a := by
  have hmask : runningMask s < 32 := (maskOf_bits _ 0 (by decide)).1
  have hlog : lateLog s x = 2 ^ 31 + 2 ^ 24 * x.act + 2 ^ 16 * x.unit + runningMask s := rfl
  refine ⟨by rw [hlog]; omega, ?_, ?_, ?_, fun a h5 => ?_⟩
  · rw [hlog, bit, show 2 ^ 31 + 2 ^ 24 * x.act + 2 ^ 16 * x.unit + runningMask s =
      2 ^ 31 + (2 ^ 24 * x.act + 2 ^ 16 * x.unit + runningMask s) by omega, Nat.testBit_two_pow_add_eq,
      Nat.testBit_lt_two_pow (by omega)]
    rfl
  · rw [hlog, bits, Nat.shiftRight_eq_div_pow]
    omega
  · rw [hlog, bits, Nat.shiftRight_eq_div_pow]
    omega
  · rw [hlog, bit, show 2 ^ 31 + 2 ^ 24 * x.act + 2 ^ 16 * x.unit + runningMask s =
      2 ^ 16 * (2 ^ 15 + 2 ^ 8 * x.act + x.unit) + runningMask s by omega,
      Nat.testBit_two_pow_mul_add _ (by omega), if_pos (by omega)]
    rfl

/-- The state with a deferred request marked late. -/
def markedLate (s : State) (n : Nat) (x : Deferred) : State :=
  { s with power := { s.power with deferred := s.power.deferred.set n { x with late := true } } }

theorem maintenanceLate_eq {s : State} {n : Nat} {x : Deferred} (hx : s.power.deferred[n]? = some x) (hl : x.late = false)
    (hdue : x.since + 10000000000 < s.time.lamp) :
    maintenanceLate n s =
      wr (bump (raise (markedLate s n x) R.pwrStat 4) R.pwrCntMlate 1) R.pwrMlog (lateLog s x) := by
  have hgo : ¬ (x.late = true ∨ s.time.lamp ≤ x.since + 10000000000) := by simp [hl, hdue]
  unfold maintenanceLate
  rw [hx]
  exact if_neg hgo

end Sys2Proof.Machine

open Sys2Proof Sys2Proof.Machine

/-- Settles O7: by the arbiter's three answers; the write of `PWR_MREQ` leaves what it compares as it was. -/
theorem arbiterRequests : Obligations.ArbiterRequests := by
  intro s v a u ha hu h2 h4 hrep
  have hexec := exec_maintenanceRequest ha hu h2 h4 hrep (s := s) rfl
  obtain ⟨hpower, htime, hregs⟩ := mreqTaken_frame s (setBits v.toNat 31 31 1) (a, u)
  generalize mreqTaken s (setBits v.toNat 31 31 1) (a, u) = x at hexec hpower htime hregs
  have hstatus (t : State) (n : Nat) (hn : n < 16) : getF (setF t R.pwrMreq 3 0 n) R.pwrMreq 3 0 = n :=
    (getF_setF_same _ _ _ (by decide) (by decide)).trans (Nat.mod_eq_of_lt hn)
  have hcmp : rd x (R.pwrMcmp a) = rd s (R.pwrMcmp a) := hregs _ (by simp [R.pwrMcmp, R.pwrMreq]; omega)
  have hknown : requestKnown x a u ↔ requestKnown s a u := by rw [requestKnown, hpower]; rfl
  have hfits : requestFits x a u ↔ requestFits s a u := by
    simp only [requestFits, hpower, compatible_congr (s := s) (t := x) (a := (a, u)) hcmp]
  refine ⟨fun hk => ?_, fun hrun hdef => ⟨fun hr hd => ?_, fun hbad => ?_⟩⟩
  · rw [requestMaint_known (hknown.2 hk)] at hexec
    exact ⟨_, hexec, hstatus _ 2 (by decide), hpower, sameRegs_trans hregs (sameRegs_setF _ _ _ _ (by simp))⟩
  all_goals
    have hnew : ¬ requestKnown x a u := fun hk => (hknown.1 hk).elim hrun fun ⟨d, hd, he⟩ => hdef d hd he
  · rw [requestMaint_fitting hnew (hfits.2 ⟨hr, hd⟩)] at hexec
    obtain ⟨hruns, hwaits⟩ := startActivity_requests x (a, u)
    rw [hpower] at hruns hwaits
    exact ⟨_, hexec, hstatus _ 0 (by decide), hruns, hwaits⟩
  · have hnot : ¬ requestFits x a u := fun hf => by
      obtain ⟨hr, hd⟩ := hfits.1 hf
      obtain ⟨b, hb, hc⟩ | ⟨d, hd', hc⟩ := hbad
      · exact absurd (hr b hb) (by simp [hc])
      · exact absurd (hd d hd') (by simp [hc])
    rw [requestMaint_waiting hnew hnot] at hexec
    refine ⟨_, hexec, ?_, ?_, ?_, sameRegs_trans hregs ?_⟩
    · rw [hstatus _ _ (show (if x.power.deferred.length < 16 then 1 else 2) < 16 by split <;> decide), hpower]
    · rw [setF_power, hpower]
    · rw [setF_power, hpower, htime]
    · exact sameRegs_setF_of_regs (by rfl) _ _ _ _

/-- Settles O8: by the one branch in which the request is late and not yet marked. -/
theorem lateRequests : Obligations.LateRequests := by
  intro s n x hx hl ha hu hdue
  obtain ⟨hlt, hvalid, hact, hunit, hmask⟩ := lateLog_fields s ha hu
  have hlog (t : State) : rd (wr t R.pwrMlog (lateLog s x)) R.pwrMlog = lateLog s x := by
    rw [rd_wr_same, Nat.mod_eq_of_lt hlt]
  have hexec : exec (.maintenanceLate n) s = .next (maintenanceLate n s) := rfl
  rw [hexec, maintenanceLate_eq hx hl hdue]
  have hframe (u : State) (k m l : Nat) (v : Nat) : wr (bump (raise u k 4) m 1) l v =
      { u with regs := (wr (bump (raise u k 4) m 1) l v).regs } := rfl
  refine ⟨_, rfl, ?_, ?_, ?_, ?_, ?_, fun a h5 => ?_, ?_, ?_, ?_⟩
  · rw [flag, rd_wr_ne _ _ (by decide), rd_bump_ne _ _ (by decide)]
    exact flag_raise_same _ _ (by decide)
  · rw [rd_wr_ne _ _ (by decide), rd_bump_same, rd_raise_ne _ _ (by decide)]
    rfl
  · rw [flag, hlog, hvalid]
  · rw [getF, hlog, hact]
  · rw [getF, hlog, hunit]
  · rw [hlog, hmask a h5, bit_runningMask s h5]
  · rw [wr_power, bump_power, raise_power]
    rfl
  · rw [hframe (markedLate s n x)]
    rfl
  · exact sameRegs_trans (sameRegs_raise (markedLate s n x) _ (by simp))
      (sameRegs_trans (sameRegs_bump _ _ (by simp)) (sameRegs_wr _ _ (by simp)))
end

section
/-! PROOFS. Functions torn down: what a teardown changes and leaves (14 R538, R542). -/

namespace Sys2Proof.Machine

/-! ### The parts that a teardown leaves -/

/-- The registers, the time, deep store, the clusters' bytes, the functions' live states, the vectors and the SR-IOV sizes. -/
abbrev Standing := List (Nat × Nat) × TimeSt × DeepSt × List (Nat × Byte) × List (Nat × FnSt) × List (Nat × Vector) × Nat × Bool

/-- These parts of a state. -/
def State.standing (s : State) : Standing :=
  (s.regs, s.time, s.deep, s.comp.store, s.host.fns, s.host.vectors, s.host.numVfs, s.host.vfEnable)

/-- `simp` compares these parts of two states as they stand and does not rewrite inside a state first. -/
@[congr] theorem State.standing_congr (s : State) : s.standing = s.standing := (rfl)

@[simp] theorem State.standing_ite (c : Prop) [Decidable c] (a b : State) :
    (if c then a else b).standing = if c then a.standing else b.standing := apply_ite _ _ _ _

@[simp] theorem foldl_standing {α : Type} {f : State → α → State} (h : ∀ s x, (f s x).standing = s.standing) (l : List α)
    (s : State) : (l.foldl f s).standing = s.standing := by
  induction l generalizing s with
  | nil => rfl
  | cons x r ih => rw [List.foldl_cons, ih, h]

@[simp] theorem setStream_standing (s : State) (m n : Nat) (x : StreamSt) : (setStream s m n x).standing = s.standing := (rfl)
@[simp] theorem sendBell_standing (s : State) (mc : Bool) (dst src job code arg : Nat) (payload : List Byte) :
    (sendBell s mc dst src job code arg payload).standing = s.standing := (rfl)
@[simp] theorem throttle1_standing (s : State) (d : Nat) (fn : Option Nat) : (throttle1 s d fn).standing = s.standing := by
  unfold throttle1
  dsimp only
  (repeat' split) <;> rfl
@[simp] theorem discardFn_standing (s : State) (fn : Nat) : (discardFn s fn).standing = s.standing :=
  (foldl_standing (fun t d => throttle1_standing t d none) _ _).trans rfl
@[simp] theorem drainBellOut_standing (s : State) (fn : Nat) : (drainBellOut s fn).standing = s.standing := by
  simp [drainBellOut]
@[simp] theorem stopFn_standing (s : State) (fn : Nat) : (stopFn s fn).standing = s.standing := (rfl)
@[simp] theorem removeStreams_standing (s : State) (fn : Nat) : (removeStreams s fn).standing = s.standing := by
  have hmill (t : State) (m : Nat) : ((millOf t m).streams.foldl (fun u e =>
      if StreamSt.valid e.2 && StreamSt.fn e.2 == fn then setStream u m e.1 { e.2 with removing := true } else u) t).standing =
        t.standing :=
    foldl_standing (fun u e => by simp) _ _
  have hsend (t : State) (l : List (Nat × Nat)) : State.standing { t with sendTbl := l } = t.standing := rfl
  unfold removeStreams
  extract_lets t
  rw [hsend]
  exact foldl_standing hmill _ _
@[simp] theorem closeOpens_standing (s : State) (fn : Nat) : (closeOpens s fn).standing = s.standing := by
  obtain ⟨hregs, hcomp, hdeep, hhost, -, htime⟩ := closeOpens_frame s fn
  simp only [State.standing, hregs, hcomp, hdeep, hhost, htime]

/-! ### A teardown that starts -/

/-- A vector of a function that is torn down. -/
def cancelled (fn : Nat) (e : Nat × Vector) : Nat × Vector :=
  if e.1 / 64 = fn then (e.1, { e.2 with pending := false, count := 0 }) else e

/-- The live state of a function whose drain wait begins. -/
def drainingFn (s : State) (fn : Nat) : FnSt := { fnSt s fn with rings := [], teardown := .draining s.time.lamp }

theorem startTeardown_standing (s : State) (fn : Nat) :
    (startTeardown s fn).standing = ((setF s (R.vfStatus fn) 1 0 2).regs, s.time, s.deep, s.comp.store,
      SMap.put s.host.fns fn (drainingFn s fn), s.host.vectors.map (cancelled fn), s.host.numVfs, s.host.vfEnable) := by
  unfold startTeardown
  extract_lets t u v w _ _ x
  have hx : x.standing = w.standing := rfl
  rw [removeStreams_standing, stopFn_standing, drainBellOut_standing, discardFn_standing, hx, closeOpens_standing]
  rfl

theorem startTeardown_regs (s : State) (fn : Nat) : (startTeardown s fn).regs = (setF s (R.vfStatus fn) 1 0 2).regs :=
  (Prod.mk.inj (startTeardown_standing s fn)).1

theorem sameRegs_startTeardown (s : State) (fn : Nat) : sameRegs s (startTeardown s fn) [R.vfStatus fn] := by
  have hregs := startTeardown_regs s fn
  exact sameRegs_trans (sameRegs_setF s 1 0 2 List.mem_cons_self) (sameRegs_of_regs hregs _)

theorem fnState_startTeardown (s : State) (fn : Nat) : fnState (startTeardown s fn) fn = 2 := by
  have hregs := startTeardown_regs s fn
  have hrd : rd (startTeardown s fn) (R.vfStatus fn) = rd (setF s (R.vfStatus fn) 1 0 2) (R.vfStatus fn) := by
    rw [rd, rd, hregs]
  rw [fnState, getF_congr_rd hrd]
  exact getF_setF_same _ _ _ (by decide) (by decide)

theorem fnSt_startTeardown (s : State) (fn : Nat) : fnSt (startTeardown s fn) fn = drainingFn s fn := by
  have h := startTeardown_standing s fn
  simp only [State.standing, Prod.mk.injEq] at h
  obtain ⟨-, -, -, -, hfns, -⟩ := h
  rw [fnSt, SMap.getD, hfns, SMap.find_put_same]
  rfl

/-! ### Disables of many functions -/

theorem vfStatus_ne {f g : Nat} (h : f ≠ g) : R.vfStatus f ≠ R.vfStatus g := by
  simp only [R.vfStatus]
  omega

theorem fnState_congr {s t : State} {f : Nat} (h : rd t (R.vfStatus f) = rd s (R.vfStatus f)) : fnState t f = fnState s f :=
  getF_congr_rd h 1 0

/-- What a disable of one function, ENABLED or not, leaves: the registers but its own, the time, deep store and the clusters'
bytes, the sizes, and the vectors that there are. -/
structure Disabled (s t : State) (offs : List Nat) : Prop where
  regs : sameRegs s t offs
  time : t.time = s.time
  deep : t.deep = s.deep
  store : t.comp.store = s.comp.store
  numVfs : t.host.numVfs = s.host.numVfs
  vfEnable : t.host.vfEnable = s.host.vfEnable
  vectors : t.host.vectors.map (·.1) = s.host.vectors.map (·.1)

theorem Disabled.refl (s : State) (offs : List Nat) : Disabled s s offs := ⟨sameRegs_refl s offs, rfl, rfl, rfl, rfl, rfl, rfl⟩

theorem Disabled.trans {s t u : State} {offs : List Nat} (h : Disabled s t offs) (h' : Disabled t u offs) : Disabled s u offs :=
  ⟨sameRegs_trans h.regs h'.regs, h'.time.trans h.time, h'.deep.trans h.deep, h'.store.trans h.store,
    h'.numVfs.trans h.numVfs, h'.vfEnable.trans h.vfEnable, h'.vectors.trans h.vectors⟩

theorem Disabled.mono {s t : State} {offs offs' : List Nat} (h : Disabled s t offs) (hsub : offs ⊆ offs') : Disabled s t offs' :=
  { h with regs := sameRegs_mono h.regs hsub }

theorem cancelled_fst (fn : Nat) (e : Nat × Vector) : (cancelled fn e).1 = e.1 := by
  unfold cancelled
  split <;> rfl

theorem disabled_startTeardown (s : State) (fn : Nat) : Disabled s (startTeardown s fn) [R.vfStatus fn] := by
  have h := startTeardown_standing s fn
  simp only [State.standing, Prod.mk.injEq] at h
  obtain ⟨-, htime, hdeep, hstore, -, hvec, hnum, hen⟩ := h
  refine ⟨sameRegs_startTeardown s fn, htime, hdeep, hstore, hnum, hen, ?_⟩
  rw [hvec, List.map_map]
  exact List.map_congr_left fun e _ => cancelled_fst fn e

theorem disabled_disableFn (s : State) (fn : Nat) : Disabled s (disableFn s fn) [R.vfStatus fn] := by
  unfold disableFn
  split
  · exact disabled_startTeardown s fn
  · exact Disabled.refl s _

/-- An ENABLED function that is disabled is in TEARDOWN; any other keeps its state. -/
theorem fnState_disableFn (s : State) (fn : Nat) :
    fnState (disableFn s fn) fn = if fnState s fn = 1 then 2 else fnState s fn := by
  unfold disableFn
  split
  · exact fnState_startTeardown s fn
  · rfl

theorem fnState_disableFn_ne (s : State) {f fn : Nat} (h : f ≠ fn) : fnState (disableFn s fn) f = fnState s f :=
  fnState_congr ((disabled_disableFn s fn).regs _ (by simpa using vfStatus_ne h))

theorem disabled_foldl (l : List Nat) (s : State) : Disabled s (l.foldl disableFn s) (l.map R.vfStatus) := by
  induction l generalizing s with
  | nil => exact Disabled.refl s _
  | cons fn l ih =>
    exact ((disabled_disableFn s fn).mono (by simp)).trans ((ih _).mono (by simp))

/-- After the disables of a list of functions, those of it that were ENABLED are in TEARDOWN; every other state stands. -/
theorem fnState_foldl_disableFn (l : List Nat) (s : State) (f : Nat) :
    fnState (l.foldl disableFn s) f = if f ∈ l ∧ fnState s f = 1 then 2 else fnState s f := by
  induction l generalizing s with
  | nil => simp
  | cons fn l ih =>
    rw [List.foldl_cons, ih]
    by_cases hf : f = fn
    · subst hf
      rw [fnState_disableFn]
      by_cases h1 : fnState s f = 1 <;> simp [h1]
    · rw [fnState_disableFn_ne s hf]
      simp [hf]

end Sys2Proof.Machine
end


section
/-! PROOFS. The state after reset (O2) and the resets (O31). -/

namespace Sys2Proof.Machine

/-! ### The registers after reset (Table BOOT-2) -/

theorem rd_reset (off : Nat) : rd State.reset off = resetReg off := rfl

theorem clown_reset (d : Die) (i : Clu) : clown State.reset (cluNo d i) = 0 := by
  have hdie : cluNo d i / 160 = d := by simp only [cluNo]; omega
  have hclu : cluNo d i % 160 = i := by simp only [cluNo]; omega
  have hlow : rd State.reset (R.cpxClown d i) = 0 := resetReg_cpxClown (k := 0) d.isLt i.isLt (by decide)
  have hhigh : rd State.reset (R.cpxClown d i + 4) = 0 := resetReg_cpxClown (k := 1) d.isLt i.isLt (by decide)
  rw [clown, clownOff, hdie, hclu, rd64, hlow, hhigh]
  rfl

theorem flag_dstOwn_reset (g : Fin 6144) : flag State.reset (R.dstOwn g) 31 = false := by
  rw [flag, rd_reset, resetReg_dstOwn g.isLt]
  exact Nat.zero_testBit 31

/-! ### A device reset (R634, R635) -/

/-- A field set makes the same registers of the same registers. -/
theorem setF_regs_congr {s t : State} (h : s.regs = t.regs) (off hi lo v : Nat) :
    (setF s off hi lo v).regs = (setF t off hi lo v).regs := by
  simp only [setF, wr, rd, h]

/-- What a device reset leaves of the registers: their reset values, with `GLB_BOOT.COLD` cleared. -/
theorem deviceReset_regs (s : State) : (deviceReset s).regs = (setF State.reset R.glbBoot 26 26 0).regs := by
  unfold deviceReset
  simp only [apply_ite State.regs, emit_regs, ite_self]
  exact setF_regs_congr (by rfl) _ _ _ _

/-- The parts of the state that a device reset keeps or clears. -/
theorem deviceReset_parts (s : State) : (deviceReset s).deep.mem = s.deep.mem ∧ (deviceReset s).time.now = s.time.now ∧
    (deviceReset s).comp = State.reset.comp ∧ (deviceReset s).rem = State.reset.rem ∧ (deviceReset s).mills = [] ∧
    (deviceReset s).flt.record = s.flt.record ∧ (deviceReset s).power.ages = s.power.ages := by
  unfold deviceReset
  dsimp only
  (repeat' split) <;> exact ⟨rfl, rfl, rfl, rfl, rfl, rfl, rfl⟩

theorem rd_deviceReset (s : State) (off : Nat) :
    rd (deviceReset s) off = rd (setF State.reset R.glbBoot 26 26 0) off := by
  rw [rd, deviceReset_regs]
  rfl

theorem bootPhase_deviceReset (s : State) : bootPhase (deviceReset s) = 0 := by
  rw [bootPhase, getF_congr_rd (rd_deviceReset s _), getF_setF_apart _ _ _ (by decide) (by decide) (by decide)]
  decide

theorem locked_deviceReset (s : State) : locked (deviceReset s) = false := by
  rw [locked, flag_congr_rd (rd_deviceReset s _), flag, rd_setF_ne _ _ _ _ (by decide)]
  decide

/-- What the service processor's start changes: `SPI_INFO`, and the rails. -/
theorem startBoot_frame (s : State) (sfdp : Option Byte) :
    startBoot s sfdp = { wr s R.spiInfo (sfdp.elim (2 ^ 31 + 24) (·.toNat)) with
      power := { s.power with rails := (startBoot s sfdp).power.rails } } := by
  cases sfdp <;> rfl

theorem rd_startBoot_ne (s : State) (sfdp : Option Byte) {off : Nat} (h : off ≠ R.spiInfo) :
    rd (startBoot s sfdp) off = rd s off := by
  rw [startBoot_frame]
  exact rd_wr_ne s _ h

theorem rd_startBoot_spiInfo (s : State) (n : Byte) : rd (startBoot s (some n)) R.spiInfo = n.toNat := by
  have hn : n.toNat < 2 ^ 32 := by have := n.isLt; omega
  have hval : rd (startBoot s (some n)) R.spiInfo = n.toNat % 2 ^ 32 := by
    rw [startBoot_frame]
    exact rd_wr_same s _ _
  rw [hval, Nat.mod_eq_of_lt hn]

/-- The state in which a device reset by `GLB_RST` starts to boot. -/
def resetForBoot (s : State) : State := setMgmt (deviceReset s) { (deviceReset s).mgmt with inReset := false }

theorem deviceResetWrite_eq (s : State) :
    deviceResetWrite s = startBoot (resetForBoot s)
      (if bit (rd s R.spiInfo) 31 then none else some (BitVec.ofNat 8 (rd s R.spiInfo))) := rfl

theorem deviceResetWrite_spec (s : State) {t : State} (ht : t = deviceResetWrite s) :
    t.deep.mem = s.deep.mem ∧ t.time.now = s.time.now ∧ t.comp = State.reset.comp ∧ t.rem = State.reset.rem ∧ t.mills = [] ∧
      t.flt.record = s.flt.record ∧ t.mgmt.inReset = false ∧ (rd s R.spiInfo < 256 → rd t R.spiInfo = rd s R.spiInfo) ∧
      bootPhase t = 0 ∧ locked t = false := by
  obtain ⟨hmem, hnow, hcomp, hrem, hmills, hrec, -⟩ := deviceReset_parts s
  have hrd {off : Nat} (h : off ≠ R.spiInfo) : rd t off = rd (deviceReset s) off := by
    rw [ht, deviceResetWrite_eq, rd_startBoot_ne _ _ h]
    rfl
  have hinfo : rd s R.spiInfo < 256 → rd t R.spiInfo = rd s R.spiInfo := by
    intro hlt
    have hbit : bit (rd s R.spiInfo) 31 = false := Nat.testBit_lt_two_pow (lt_of_lt_of_le hlt (by decide))
    rw [ht, deviceResetWrite_eq, hbit]
    refine (rd_startBoot_spiInfo _ _).trans ?_
    rw [BitVec.toNat_ofNat, Nat.mod_eq_of_lt hlt]
  refine ⟨?_, ?_, ?_, ?_, ?_, ?_, ?_, hinfo, ?_, ?_⟩
  · rw [ht, deviceResetWrite_eq, startBoot_frame, ← hmem]; rfl
  · rw [ht, deviceResetWrite_eq, startBoot_frame, ← hnow]; rfl
  · rw [ht, deviceResetWrite_eq, startBoot_frame, ← hcomp]; rfl
  · rw [ht, deviceResetWrite_eq, startBoot_frame, ← hrem]; rfl
  · rw [ht, deviceResetWrite_eq, startBoot_frame, ← hmills]; rfl
  · rw [ht, deviceResetWrite_eq, startBoot_frame, ← hrec]; rfl
  · rw [ht, deviceResetWrite_eq, startBoot_frame]; rfl
  · rw [bootPhase, getF_congr_rd (hrd (by decide))]
    exact bootPhase_deviceReset s
  · rw [locked, flag_congr_rd (hrd (by decide))]
    exact locked_deviceReset s

/-! ### A hot reset (R633, R636) -/

/-- What a hot reset does once every function is disabled. -/
def hotCleared (s : State) : State :=
  { s with
    host := { s.host with
      vectors := [], aer := [], numVfs := HostSt.start.numVfs, vfEnable := HostSt.start.vfEnable
      payload := HostSt.start.payload, readReq := HostSt.start.readReq }
    deep := { s.deep with scrubPos := [] } }

theorem hotReset_eq (s : State) : hotReset s = hotCleared (allFns.foldl disableFn s) := rfl

theorem rd_hotCleared (s : State) (off : Nat) : rd (hotCleared s) off = rd s off := rfl

theorem vfStatus_lt {off f : Nat} (hf : f ∈ allFns) (h : off < 0x300000 ∨ 0x400000 ≤ off) : R.vfStatus f ≠ off := by
  have hlt : f < 513 := List.mem_range.1 hf
  simp only [R.vfStatus]
  omega

theorem hotReset_spec (s : State) {t : State} (ht : t = hotReset s) :
    (∀ fn : Fn, fnState s fn = 1 → fnState t fn = 2) ∧ (∀ fn : Fn, fnState s fn ≠ 1 → fnState t fn = fnState s fn) ∧
      locked t = locked s ∧ t.deep.mem = s.deep.mem ∧ t.deep.scrubPos = [] ∧
      (∀ g : Fin 6144, rd t (R.dstOwn g) = rd s (R.dstOwn g)) ∧ t.time = s.time := by
  have hdis := disabled_foldl allFns s
  have hfold (fn : Fn) := fnState_foldl_disableFn allFns s fn
  have hin (fn : Fn) : fn.val ∈ allFns := List.mem_range.2 fn.isLt
  have hoff {off : Nat} (h : off < 0x300000 ∨ 0x400000 ≤ off) : off ∉ allFns.map R.vfStatus := fun hmem => by
    obtain ⟨f, hf, he⟩ := List.mem_map.1 hmem
    exact vfStatus_lt hf h he
  rw [hotReset_eq] at ht
  generalize allFns.foldl disableFn s = u at ht hdis hfold
  subst ht
  have hstate (fn : Fn) : fnState (hotCleared u) fn = if fnState s fn = 1 then 2 else fnState s fn := by
    refine Eq.trans (fnState_congr (rd_hotCleared u _)) ((hfold fn).trans ?_)
    simp [hin fn]
  have hrd {off : Nat} (h : off < 0x300000 ∨ 0x400000 ≤ off) : rd (hotCleared u) off = rd s off :=
    (rd_hotCleared u off).trans (hdis.regs off (hoff h))
  refine ⟨fun fn h => by rw [hstate, if_pos h], fun fn h => by rw [hstate, if_neg h], ?_, ?_, rfl, fun g => hrd (.inr ?_), hdis.time⟩
  · exact flag_congr_rd (hrd (.inl (by decide))) 0
  · exact (congrArg DeepSt.mem hdis.deep :)
  · simp only [R.dstOwn]
    omega

end Sys2Proof.Machine

open Sys2Proof Sys2Proof.Machine

/-- Settles O2: the parts by their start values, the arrays of registers by their reset words. -/
theorem resetState : Obligations.ResetState :=
  ⟨rfl, rfl, rfl, rfl, rfl, rfl, by decide, by decide, by decide, by decide, by decide, by decide +kernel, by decide +kernel,
    clown_reset, flag_dstOwn_reset⟩

/-- Settles O31: a hot reset disables the functions one after another, and each disable leaves the others as they are. -/
theorem resets : Obligations.Resets := by
  refine ⟨fun s => ⟨_, rfl, rfl, rfl, rfl, rfl, rfl, rfl, rfl, rfl, rfl, rfl, rfl⟩, fun s => ?_,
    fun s => ⟨_, rfl, deviceResetWrite_spec s rfl⟩, fun s => ⟨_, rfl, hotReset_spec s rfl⟩⟩
  obtain ⟨hmem, hnow, hcomp, hrem, hmills, hrec, hages⟩ := deviceReset_parts s
  refine ⟨_, rfl, hmem, hnow, hcomp, hrem, hmills, hrec, hages, ?_, fun off ho => ?_⟩
  · rw [flag_congr_rd (rd_deviceReset s _), flag_setF_same _ _ _ le_rfl (by decide)]
    decide
  · rw [rd_deviceReset, rd_setF_ne _ _ _ _ (by simpa using ho)]
end

section
/-! PROOFS. Boot phases, the self-test and FAULT bells received (O32). -/

namespace Sys2Proof.Machine

/-! ### `GLB_BOOT` -/

theorem onlyRegs_setF (s : State) (off hi lo v : Nat) : onlyRegs s (setF s off hi lo v) [off] :=
  ⟨rfl, sameRegs_setF s hi lo v List.mem_cons_self⟩

theorem onlyRegs_trans {s t u : State} {offs : List Nat} (h₁ : onlyRegs s t offs) (h₂ : onlyRegs t u offs) :
    onlyRegs s u offs := by
  obtain ⟨ht, hst⟩ := h₁
  obtain ⟨hu, htu⟩ := h₂
  refine ⟨?_, sameRegs_trans hst htu⟩
  rw [hu, ht]

theorem bootPhase_setBoot (s : State) {p : Nat} (h : p < 16) : bootPhase (setBoot s p) = p :=
  (getF_setF_same _ _ _ (by decide) (by decide)).trans (Nat.mod_eq_of_lt h)

theorem bootPhase_setF_apart (s : State) {hi lo : Nat} (v : Nat) (hl : lo ≤ hi) (h : hi < 28) :
    bootPhase (setF s R.glbBoot hi lo v) = bootPhase s :=
  getF_setF_apart s _ v hl (.inr h) (by decide)

theorem bootPhase_congr {s t : State} (h : rd t R.glbBoot = rd s R.glbBoot) : bootPhase t = bootPhase s := getF_congr_rd h 31 28

/-- The service processor starts on the sampled straps with the size that SFDP tells. -/
theorem resetRelease_spec {s : State} (straps : BitVec 2) (n : Byte) (hin : s.mgmt.inReset = true) (hp : bootPhase s = 0)
    {t : State} (ht : t = resetRelease straps (some n) s) :
    t.mgmt.straps = straps.toNat ∧ t.mgmt.inReset = false ∧ rd t R.spiInfo = n.toNat ∧ bootPhase t = 0 := by
  have hgo : ¬ (bootPhase s ≠ 0 ∨ (!s.mgmt.inReset) = true) := by simp [hp, hin]
  have hval : t = startBoot (setMgmt s { s.mgmt with straps := straps.toNat, inReset := false }) (some n) :=
    ht.trans (if_neg hgo)
  generalize hu : setMgmt s { s.mgmt with straps := straps.toNat, inReset := false } = u at hval
  have hregs : u.regs = s.regs := by rw [← hu]; rfl
  have hboot : rd u R.glbBoot = rd s R.glbBoot := by rw [rd, rd, hregs]
  refine ⟨?_, ?_, hval ▸ rd_startBoot_spiInfo u n, ?_⟩
  · rw [hval, startBoot_frame, ← hu]; rfl
  · rw [hval, startBoot_frame, ← hu]; rfl
  · rw [bootPhase_congr ((hval ▸ rd_startBoot_ne u (some n) (by decide)).trans hboot), hp]

/-! ### The image (R639, R642) -/

/-- The image chosen: PHASE IMAGE, and which slot it is. -/
theorem imageChosen_spec (s : State) (b : Bool) {t : State} (ht : t = setF (setBoot s 2) R.glbBoot 27 27 (b2n b)) :
    bootPhase t = 2 ∧ flag t R.glbBoot 27 = b ∧ onlyRegs s t [R.glbBoot] := by
  refine ⟨?_, ?_, ?_⟩
  · rw [ht, bootPhase_setF_apart _ _ le_rfl (by decide), bootPhase_setBoot _ (by decide)]
  · rw [ht, flag_setF_bit _ _ _ (by decide), if_pos rfl]
  · rw [ht]
    exact onlyRegs_trans (onlyRegs_setF s _ _ _ _) (onlyRegs_setF _ _ _ _ _)

theorem bootImageSelect_eq {s : State} (hp : bootPhase s = 1) : bootImageSelect s =
    if slotOk s true = true ∧ ((!slotOk s false) = true ∨ slotSeq s false < slotSeq s true) then
      setF (setBoot s 2) R.glbBoot 27 27 (b2n true)
    else if slotOk s false = true then setF (setBoot s 2) R.glbBoot 27 27 (b2n false) else setBoot s 6 := by
  unfold bootImageSelect
  rw [if_neg (by simp [hp])]
  rfl

/-! ### What the fault record restores (R648) -/

/-- The bits of every register from bit 3 on that are set stay set. -/
def keepsTop (s t : State) : Prop := ∀ off i, 3 ≤ i → i < 32 → flag s off i = true → flag t off i = true

theorem keepsTop_refl (s : State) : keepsTop s s := fun _ _ _ _ => id

theorem keepsTop_trans {s t u : State} (h₁ : keepsTop s t) (h₂ : keepsTop t u) : keepsTop s u :=
  fun off i h3 h32 h => h₂ off i h3 h32 (h₁ off i h3 h32 h)

theorem keepsTop_raise (s : State) (off i : Nat) : keepsTop s (raise s off i) :=
  fun x j _ h32 h => keepsFlags_raise s off i x j h32 h

theorem keepsTop_setPortState (s : State) (p st : Nat) : keepsTop s (setPortState s p st) := by
  intro off i h3 h32 h
  by_cases hoff : off = R.prtStat p
  · subst hoff
    have hflag : flag (setPortState s p st) (R.prtStat p) i = flag (setF s (R.prtStat p) 2 0 st) (R.prtStat p) i := rfl
    rw [hflag, flag_setF_same _ _ _ (by decide) h32, if_neg (by omega)]
    exact h
  · exact (flag_congr_rd (rd_setF_ne s 2 0 st hoff) i).trans h

theorem keepsTop_restoreRes (s : State) (r : Res) : keepsTop s (restoreRes s r) := by
  cases r with
  | row n => exact keepsTop_refl s
  | lane n =>
    unfold restoreRes
    dsimp only
    split
    · exact keepsTop_raise s _ _
    · exact keepsTop_refl s
  | port p =>
    unfold restoreRes
    dsimp only
    split
    · exact keepsTop_trans (keepsTop_raise s _ _) (keepsTop_setPortState _ _ _)
    · exact keepsTop_refl s
  | mill m =>
    unfold restoreRes
    dsimp only
    split
    · exact keepsTop_raise s _ _
    · exact keepsTop_refl s
  | cluster g =>
    unfold restoreRes
    dsimp only
    split
    · exact keepsTop_raise s _ _
    · exact keepsTop_refl s

theorem keepsTop_restored (l : List Res) (s : State) : keepsTop s (l.foldl restoreRes s) :=
  foldl_preserves (P := keepsTop s) (fun t r ht => keepsTop_trans ht (keepsTop_restoreRes t r)) l (keepsTop_refl s)

/-- A bit that a resource's restoration sets stands once the whole record is restored. -/
theorem flag_restored {l : List Res} {r : Res} (hr : r ∈ l) {off i : Nat} (h3 : 3 ≤ i) (h32 : i < 32)
    (h : ∀ t, flag (restoreRes t r) off i = true) (s : State) : flag (l.foldl restoreRes s) off i = true := by
  obtain ⟨pre, post, rfl⟩ := List.append_of_mem hr
  rw [List.foldl_append, List.foldl_cons]
  exact keepsTop_restored post _ off i h3 h32 (h _)

theorem fenced_eq (s : State) (g : Nat) : fenced s g = flag s (clownOff g + 4) 31 := by
  rw [fenced, clown, rd64, bit, Nat.add_comm,
    Nat.testBit_two_pow_mul_add _ (Nat.mod_lt _ (by decide)), if_neg (by decide)]
  rfl

theorem flag_restoreRes_cluster {g : Nat} (hg : g < 1280) (t : State) :
    flag (restoreRes t (.cluster g)) (clownOff g + 4) 31 = true := by
  rw [restoreRes, if_pos hg]
  exact flag_raise_same t _ (by decide)

theorem flag_restoreRes_mill {m : Nat} (hm : m < 16) (t : State) : flag (restoreRes t (.mill m)) (R.milUnit m) 31 = true := by
  rw [restoreRes, if_pos hm]
  exact flag_raise_same t _ (by decide)

theorem flag_restoreRes_port {p : Nat} (hp : p < 64) (t : State) : flag (restoreRes t (.port p)) (R.prtStat p) 25 = true := by
  rw [restoreRes, if_pos hp]
  exact keepsTop_setPortState _ p 5 _ 25 (by decide) (by decide) (flag_raise_same t _ (by decide))

/-! ### The stores (R641, R240) -/

theorem restoreRes_deep (s : State) (r : Res) : (restoreRes s r).deep = s.deep := by
  have hset (u : State) (off hi lo v : Nat) (c : Prop) [Decidable c] (hu : u.deep = s.deep) :
      (if c then setF u off hi lo v else s).deep = s.deep := by
    split
    · exact (setF_deep _ _ _ _ _).trans hu
    · rfl
  have hport (p : Nat) : (setPortState (setF s (R.prtStat p) 25 25 1) p 5).deep = s.deep := by
    rw [setPortState, setPort_deep, setF_deep, setF_deep]
  cases r with
  | row n => rfl
  | lane n => exact hset s _ _ _ _ _ rfl
  | port p =>
    unfold restoreRes
    dsimp only
    split
    · exact hport p
    · rfl
  | mill m => exact hset s _ _ _ _ _ rfl
  | cluster g => exact hset s _ _ _ _ _ rfl

theorem restoreAges_deep (s : State) : (restoreAges s).deep = s.deep := by
  unfold restoreAges
  exact foldl_keeps State.deep (fun _ _ _ => by simp only [setF_deep]) s

theorem restoreAges_flt (s : State) : (restoreAges s).flt = s.flt := by
  unfold restoreAges
  exact foldl_keeps State.flt (fun _ _ _ => by simp only [setF_flt]) s

/-- The banks of the retired-row record that have no free spare. -/
def spentBanks (s : State) : List Nat :=
  (s.deep.rowMap.map fun e => rowBank e.1).eraseDups.filter fun b => decide (32 ≤ sparesUsed s b)

/-- Deep store with its retired rows mapped and its spent banks listed. -/
def rowsMapped (s : State) : State :=
  let t : State := { s with deep := { s.deep with rowMap := s.deep.rowLog } }
  { t with deep := { t.deep with exhausted := spentBanks t } }

/-- `DST_SPARE` of a stack after its retired rows are mapped. -/
def spareCounted (banks : List Nat) (s : State) (d : Nat) : State :=
  setF (setF s (R.dstSpare d) 15 0 (s.deep.rowMap.filter fun e => rowStack e.1 == d).length) (R.dstSpare d) 31 16
    (banks.filter fun b => rowStack (b * 2 ^ 17) == d).length

theorem restoreRows_eq (s : State) : restoreRows s =
    (List.range 8).foldl (spareCounted (rowsMapped s).deep.exhausted) (rowsMapped s) := rfl

theorem spareCounted_frame (banks : List Nat) (s : State) (d : Nat) :
    (spareCounted banks s d).deep = s.deep ∧ (spareCounted banks s d).flt = s.flt := ⟨rfl, rfl⟩

/-- Deep store as the retired-row record leaves it: every recorded row is mapped. -/
theorem restoreRows_parts (s : State) : (restoreRows s).deep.mem = s.deep.mem ∧ (restoreRows s).deep.ue = s.deep.ue ∧
    (restoreRows s).deep.rowMap = s.deep.rowLog ∧ (restoreRows s).deep.rowLog = s.deep.rowLog ∧ (restoreRows s).flt = s.flt := by
  rw [restoreRows_eq, foldl_keeps State.deep (fun u d _ => (spareCounted_frame _ u d).1),
    foldl_keeps State.flt (fun u d _ => (spareCounted_frame _ u d).2)]
  exact ⟨rfl, rfl, rfl, rfl, rfl⟩

/-- The state in which the records of the flash are applied: on a cold reset the stacks are zeros. -/
def storesZeroed (s : State) : State :=
  if flag s R.glbBoot 26 then { s with deep := { s.deep with mem := [], ue := [] } } else s

theorem bootStoresReady_eq {s : State} (hp : bootPhase s = 2) : bootStoresReady s =
    setBoot (s.flt.record.foldl restoreRes (restoreAges (restoreRows (storesZeroed s)))) 3 := by
  have hrec : (restoreAges (restoreRows (storesZeroed s))).flt.record = s.flt.record := by
    obtain ⟨-, -, -, -, hflt⟩ := restoreRows_parts (storesZeroed s)
    rw [restoreAges_flt, hflt, storesZeroed]
    split <;> rfl
  rw [← hrec]
  unfold bootStoresReady
  rw [if_neg (by simp [hp])]
  rfl

theorem flag_setBoot_ne (s : State) (p : Nat) {off : Nat} (h : off ≠ R.glbBoot) (i : Nat) :
    flag (setBoot s p) off i = flag s off i := flag_congr_rd (rd_setF_ne s _ _ _ h) i

theorem clownOff_ne {off : Nat} (g : Nat) (h : off < 0x1400000) : clownOff g + 4 ≠ off := by
  simp only [clownOff, R.cpxClown]
  omega

theorem bootStoresReady_spec {s : State} (hp : bootPhase s = 2) {t : State} (ht : t = bootStoresReady s) :
    bootPhase t = 3 ∧ (flag s R.glbBoot 26 = true → t.deep.mem = []) ∧
      (flag s R.glbBoot 26 = false → t.deep.mem = s.deep.mem ∧ t.deep.ue = s.deep.ue) ∧ t.deep.rowMap = s.deep.rowLog ∧
      t.deep.rowLog = s.deep.rowLog ∧
      (∀ g < 1280, Res.cluster g ∈ s.flt.record → fenced t g = true) ∧
      (∀ m < 16, Res.mill m ∈ s.flt.record → flag t (R.milUnit m) 31 = true) ∧
      (∀ p < 64, Res.port p ∈ s.flt.record → flag t (R.prtStat p) 25 = true) := by
  rw [bootStoresReady_eq hp] at ht
  obtain ⟨hmem, hue, hmap, hlog, -⟩ := restoreRows_parts (storesZeroed s)
  have hdeep : t.deep = (restoreRows (storesZeroed s)).deep := by
    rw [ht, setBoot, setF_deep, foldl_keeps State.deep (fun x r _ => restoreRes_deep x r), restoreAges_deep]
  have hzero : (storesZeroed s).deep.rowLog = s.deep.rowLog := by
    unfold storesZeroed
    split <;> rfl
  rw [hdeep, hmem, hue, hmap, hlog, hzero]
  refine ⟨ht ▸ bootPhase_setBoot _ (by decide), fun hc => ?_, fun hc => ?_, rfl, rfl, fun g hg hr => ?_, fun m hm hr => ?_,
    fun p hq hr => ?_⟩
  · rw [storesZeroed, if_pos hc]
  · rw [storesZeroed, hc]
    exact ⟨rfl, rfl⟩
  · rw [fenced_eq, ht, flag_setBoot_ne _ _ (clownOff_ne g (by decide))]
    exact flag_restored hr (by decide) (by decide) (flag_restoreRes_cluster hg) _
  · rw [ht, flag_setBoot_ne _ _ (by simp only [R.milUnit, R.glbBoot]; omega)]
    exact flag_restored hr (by decide) (by decide) (flag_restoreRes_mill hm) _
  · rw [ht, flag_setBoot_ne _ _ (by simp only [R.prtStat, R.glbBoot]; omega)]
    exact flag_restored hr (by decide) (by decide) (flag_restoreRes_port hq) _

end Sys2Proof.Machine
end

section
/-! PROOFS. The self-test, the ports at READY, and FAULT bells received (18 R643, R654). -/

namespace Sys2Proof.Machine

/-! ### Clusters fenced and mills bypassed (R648, R649) -/

/-- Is an offset a register that fences a cluster or bypasses a mill? -/
def retires (off : Nat) : Prop := (∃ g < 1280, off = clownOff g + 4) ∨ ∃ m < 16, off = R.milUnit m

theorem retires_notMem {off : Nat} (h : retires off) {offs : List Nat} (hoffs : ∀ x ∈ offs, x < 0xC01000) : off ∉ offs := by
  intro hmem
  have hlt := hoffs off hmem
  obtain ⟨g, -, rfl⟩ | ⟨m, -, rfl⟩ := h
  · simp only [clownOff, R.cpxClown] at hlt
    omega
  · simp only [R.milUnit] at hlt
    omega

/-- What is fenced or bypassed stays so. -/
def keepsRetired (s t : State) : Prop := ∀ off, retires off → flag s off 31 = true → flag t off 31 = true

theorem keepsRetired_refl (s : State) : keepsRetired s s := fun _ _ => id

theorem keepsRetired_trans {s t u : State} (h₁ : keepsRetired s t) (h₂ : keepsRetired t u) : keepsRetired s u :=
  fun off hoff h => h₂ off hoff (h₁ off hoff h)

theorem keepsRetired_of_sameRegs {s t : State} {offs : List Nat} (h : sameRegs s t offs) (hoffs : ∀ x ∈ offs, x < 0xC01000) :
    keepsRetired s t := fun off hoff hs => (flag_congr_rd (h off (retires_notMem hoff hoffs)) 31).trans hs

theorem keepsRetired_raise (s : State) (off : Nat) : keepsRetired s (raise s off 31) :=
  fun x _ h => keepsFlags_raise s off 31 x 31 (by decide) h

theorem stopList_regs (s : State) (core fn status : Nat) : (stopList s core fn status).regs = s.regs := by
  unfold stopList
  split
  · rfl
  · rw [endList_frame]

theorem stopCopiesOn_regs (s : State) (g : Nat) : (stopCopiesOn s g).regs = s.regs := by
  refine foldl_keeps State.regs (fun u k _ => ?_) s
  dsimp only
  (repeat' split)
  · rfl
  · exact stopList_regs _ _ _ _
  · rfl
  · rfl

/-- A cluster is fenced, and beside it nothing but the record's registers changes. -/
theorem fenceCluster_regs (s : State) (g : Nat) :
    sameRegs (raise s (clownOff g + 4) 31) (fenceCluster s g) [R.glbCntRetire, R.glbFstat] := by
  unfold fenceCluster
  extract_lets t u _ _ v w x fns
  obtain ⟨-, hrec, -⟩ := recordRetired_spec t (.cluster g)
  have hx : x.regs = u.regs := (stopCopiesOn_regs _ _).trans (stopLists_regs _ _ _)
  exact sameRegs_trans hrec (sameRegs_trans (sameRegs_of_regs hx _) (sameRegs_faultBells _ _ _ _ _))

theorem keepsRetired_fenceCluster (s : State) (g : Nat) : keepsRetired s (fenceCluster s g) :=
  keepsRetired_trans (keepsRetired_raise s _) (keepsRetired_of_sameRegs (fenceCluster_regs s g) (by decide))

theorem fenced_fenceCluster (s : State) {g : Nat} (hg : g < 1280) : fenced (fenceCluster s g) g = true := by
  rw [fenced_eq]
  exact keepsRetired_of_sameRegs (fenceCluster_regs s g) (by decide) _ (.inl ⟨g, hg, rfl⟩) (flag_raise_same s _ (by decide))

theorem sameRegs_trapMill (s : State) (m : Nat) : sameRegs s (trapMill s m) trapRegs :=
  sameRegs_foldl (fun t n => sameRegs_trapStream t m n 13 _) _ s

theorem bypassMill_regs (s : State) (m : Nat) : sameRegs (raise s (R.milUnit m) 31) (bypassMill s m) trapRegs :=
  sameRegs_trans (sameRegs_trapMill (raise s (R.milUnit m) 31) m) (sameRegs_faultBells _ _ _ _ _)

theorem keepsRetired_bypassMill (s : State) (m : Nat) : keepsRetired s (bypassMill s m) :=
  keepsRetired_trans (keepsRetired_raise s _) (keepsRetired_of_sameRegs (bypassMill_regs s m) (by decide))

theorem flag_bypassMill (s : State) {m : Nat} (hm : m < 16) : flag (bypassMill s m) (R.milUnit m) 31 = true :=
  keepsRetired_of_sameRegs (bypassMill_regs s m) (by decide) _ (.inr ⟨m, hm, rfl⟩) (flag_raise_same s _ (by decide))

theorem keepsRetired_recordRetired (s : State) (r : Res) : keepsRetired s (recordRetired s r) := by
  obtain ⟨-, hrec, -⟩ := recordRetired_spec s r
  exact keepsRetired_of_sameRegs hrec (by decide)

/-! ### The self-test (R643) -/

/-- A failing cluster of the self-test. -/
def testCluster (s : State) (g : Nat) : State := if g < 1280 ∧ !fenced s g then fenceCluster s g else s

/-- A failing mill of the self-test. -/
def testMill (s : State) (m : Nat) : State :=
  if m < 16 ∧ !flag s (R.milUnit m) 31 then bypassMill (recordRetired s (.mill m)) m else s

/-- The packet buffers and table banks of the self-test. -/
def testBanks (s : State) (bad : Bool) : State := if bad then deviceFault s 0x07 0 else s

theorem keepsRetired_testCluster (s : State) (g : Nat) : keepsRetired s (testCluster s g) := by
  unfold testCluster
  split
  · exact keepsRetired_fenceCluster s g
  · exact keepsRetired_refl s

theorem fenced_testCluster (s : State) {g : Nat} (hg : g < 1280) : fenced (testCluster s g) g = true := by
  unfold testCluster
  split
  case isTrue => exact fenced_fenceCluster s hg
  case isFalse h => simpa [hg] using h

theorem keepsRetired_testMill (s : State) (m : Nat) : keepsRetired s (testMill s m) := by
  unfold testMill
  split
  · exact keepsRetired_trans (keepsRetired_recordRetired s _) (keepsRetired_bypassMill _ m)
  · exact keepsRetired_refl s

theorem flag_testMill (s : State) {m : Nat} (hm : m < 16) : flag (testMill s m) (R.milUnit m) 31 = true := by
  unfold testMill
  split
  case isTrue => exact flag_bypassMill _ hm
  case isFalse h => simpa [hm] using h

theorem keepsRetired_testBanks (s : State) (bad : Bool) : keepsRetired s (testBanks s bad) := by
  unfold testBanks
  split
  · exact keepsRetired_of_sameRegs (sameRegs_deviceFault s _ _) (by decide)
  · exact keepsRetired_refl s

/-- A fold of steps that keep what is retired keeps it, and keeps what one of its steps retires. -/
theorem keepsRetired_foldl {f : State → Nat → State} (hf : ∀ s x, keepsRetired s (f s x)) (l : List Nat) (s : State) :
    keepsRetired s (l.foldl f s) :=
  foldl_preserves (P := keepsRetired s) (fun t x ht => keepsRetired_trans ht (hf t x)) l (keepsRetired_refl s)

theorem flag_foldl_retired {f : State → Nat → State} (hf : ∀ s x, keepsRetired s (f s x)) {l : List Nat} {x : Nat} (hx : x ∈ l)
    {off : Nat} (hoff : retires off) (h : ∀ s, flag (f s x) off 31 = true) (s : State) :
    flag (l.foldl f s) off 31 = true := by
  obtain ⟨pre, post, rfl⟩ := List.append_of_mem hx
  rw [List.foldl_append, List.foldl_cons]
  exact keepsRetired_foldl hf post _ off hoff (h _)

/-- The state after the self-test's own work. -/
def tested (s : State) (f : SelfTest) : State :=
  testBanks (f.mills.foldl testMill (f.clusters.foldl testCluster s)) f.banks

theorem selfTest_eq {s : State} (hp : bootPhase s = 3) (f : SelfTest) :
    selfTest f s = setF (setBoot (tested s f) 4) R.glbBoot 10 0 (fencedCount (tested s f)) := by
  unfold selfTest
  rw [if_neg (by simp [hp])]
  rfl

theorem fencedCount_congr {s t : State} (h : ∀ g, rd t (clownOff g + 4) = rd s (clownOff g + 4)) :
    fencedCount t = fencedCount s := by
  have hfence : fenced t = fenced s := by
    funext g
    rw [fenced_eq, fenced_eq, flag_congr_rd (h g)]
  rw [fencedCount, fencedCount, hfence]

theorem selfTest_spec {s : State} (hp : bootPhase s = 3) (f : SelfTest) {t : State} (ht : t = selfTest f s) :
    bootPhase t = 4 ∧ (∀ g ∈ f.clusters, g < 1280 → fenced t g = true) ∧
      (∀ m ∈ f.mills, m < 16 → flag t (R.milUnit m) 31 = true) ∧
      (f.banks = true → flag t R.glbFault 31 = true) ∧ getF t R.glbBoot 10 0 = fencedCount t := by
  rw [selfTest_eq hp] at ht
  have hrd {off : Nat} (h : off ≠ R.glbBoot) : rd t off = rd (tested s f) off := by
    rw [ht, rd_setF_ne _ _ _ _ h]
    exact rd_setF_ne _ _ _ _ h
  have hmill := keepsRetired_foldl keepsRetired_testMill f.mills (f.clusters.foldl testCluster s)
  have hbanks := keepsRetired_testBanks (f.mills.foldl testMill (f.clusters.foldl testCluster s)) f.banks
  refine ⟨?_, fun g hg hlt => ?_, fun m hm hlt => ?_, fun hb => ?_, ?_⟩
  · rw [ht, bootPhase_setF_apart _ _ (by decide) (by decide), bootPhase_setBoot _ (by decide)]
  · have hretires : retires (clownOff g + 4) := .inl ⟨g, hlt, rfl⟩
    have hfold := flag_foldl_retired keepsRetired_testCluster hg hretires
      (fun u => (fenced_eq _ g) ▸ fenced_testCluster u hlt) s
    rw [fenced_eq, flag_congr_rd (hrd (clownOff_ne g (by decide)))]
    exact hbanks _ hretires (hmill _ hretires hfold)
  · have hretires : retires (R.milUnit m) := .inr ⟨m, hlt, rfl⟩
    have hfold := flag_foldl_retired keepsRetired_testMill hm hretires (fun u => flag_testMill u hlt)
      (f.clusters.foldl testCluster s)
    rw [flag_congr_rd (hrd (by simp only [R.milUnit, R.glbBoot]; omega))]
    exact hbanks _ hretires hfold
  · rw [flag_congr_rd (hrd (by decide)), tested, hb]
    exact flag_deviceFault _ (by decide)
  · have hlt : fencedCount (tested s f) < 2 ^ 11 :=
      lt_of_le_of_lt (List.length_filter_le _ _) (by simp)
    rw [fencedCount_congr fun g => hrd (clownOff_ne g (by decide)), ht, getF_setF_same _ _ _ (by decide) (by decide)]
    exact Nat.mod_eq_of_lt hlt

/-! ### READY (Table BOOT-5) -/

theorem startTraining_frame (s : State) (p : Nat) : (startTraining s p).deep = s.deep ∧ (startTraining s p).comp = s.comp ∧
    sameRegs s (startTraining s p) [R.prtStat p] := by
  have hset (st : Nat) : (setPortState s p st).deep = s.deep ∧ (setPortState s p st).comp = s.comp ∧
      sameRegs s (setPortState s p st) [R.prtStat p] := ⟨rfl, rfl, sameRegs_setF s 2 0 st List.mem_cons_self⟩
  unfold startTraining
  (repeat' split)
  · exact hset 5
  · exact hset 0
  · exact hset 1

/-- A port with EN = 1 begins training. -/
def trainEnabled (s : State) (p : Nat) : State := if flag s (R.prtCtl p) 31 then startTraining s p else s

theorem trainEnabled_frame (s : State) (p : Nat) : (trainEnabled s p).deep = s.deep ∧ (trainEnabled s p).comp = s.comp ∧
    rd (trainEnabled s p) R.glbBoot = rd s R.glbBoot := by
  unfold trainEnabled
  split
  · obtain ⟨hdeep, hcomp, hregs⟩ := startTraining_frame s p
    refine ⟨hdeep, hcomp, hregs _ ?_⟩
    simp only [R.prtStat, R.glbBoot, List.mem_singleton]
    omega
  · exact ⟨rfl, rfl, rfl⟩

theorem bootReady_eq {s : State} (hp : bootPhase s = 4) : bootReady s = (List.range 64).foldl trainEnabled (setBoot s 5) := by
  unfold bootReady
  rw [if_neg (by simp [hp])]
  rfl

theorem bootReady_spec {s : State} (hp : bootPhase s = 4) : bootPhase (bootReady s) = 5 ∧ (bootReady s).deep = s.deep ∧
    (bootReady s).comp = s.comp := by
  rw [bootReady_eq hp]
  refine ⟨?_, (foldl_keeps State.deep (fun u p _ => (trainEnabled_frame u p).1) _).trans (setF_deep _ _ _ _ _),
    (foldl_keeps State.comp (fun u p _ => (trainEnabled_frame u p).2.1) _).trans (setF_comp _ _ _ _ _)⟩
  rw [bootPhase_congr (foldl_keeps (rd · R.glbBoot) (fun u p _ => (trainEnabled_frame u p).2.2) _),
    bootPhase_setBoot _ (by decide)]

/-! ### FAULT bells received (R654) -/

/-- What `GLB_FBELL` holds of a bell. -/
def bellLog (f : Frame) : Nat := 2 ^ 63 + 2 ^ 48 * f.job + 2 ^ 32 * f.src + f.arg % 2 ^ 20

theorem boundFns_congr {s t : State} (h : ∀ f ∈ allFns, bindOf t f = bindOf s f) (job : Nat) : boundFns t job = boundFns s job := by
  refine List.filter_congr fun f hf => ?_
  rw [fnBound, fnBound, fnJob, fnJob, h f hf]

theorem bindOf_congr {s t : State} {f : Nat} (hlow : rd t (R.vfBind f) = rd s (R.vfBind f))
    (hhigh : rd t (R.vfBind f + 4) = rd s (R.vfBind f + 4)) : bindOf t f = bindOf s f := by
  rw [bindOf, bindOf, rd64, rd64, hlow, hhigh]

/-- The state with a bell taken from the inbox and logged. -/
def bellLogged (s : State) (p : Pkt) (rest : List Pkt) : State :=
  raise (wr64 { s with inbox := rest } R.glbFbell (bellLog p.f)) R.glbFstat 0

theorem sameRegs_bellLogged (s : State) (p : Pkt) (rest : List Pkt) :
    sameRegs s (bellLogged s p rest) [R.glbFbell, R.glbFbell + 4, R.glbFstat] :=
  sameRegs_trans (sameRegs_mono (sameRegs_wr64 { s with inbox := rest } _ _) (by simp)) (sameRegs_raise _ _ (by simp))

theorem boundFns_bellLogged (s : State) (p : Pkt) (rest : List Pkt) (job : Nat) :
    boundFns (bellLogged s p rest) job = boundFns s job := by
  have hsame := sameRegs_bellLogged s p rest
  have hoff {off : Nat} (h : 0x300000 ≤ off) : off ∉ [R.glbFbell, R.glbFbell + 4, R.glbFstat] := by
    simp only [R.glbFbell, R.glbFstat, List.mem_cons, List.not_mem_nil, or_false, not_or]
    omega
  exact boundFns_congr (fun f _ => bindOf_congr (hsame _ (hoff (by simp only [R.vfBind]; omega)))
    (hsame _ (hoff (by simp only [R.vfBind]; omega)))) job

/-- A bell that stops no list is only logged. -/
theorem faultBellReceive_logged {s : State} {p : Pkt} {rest : List Pkt} (hin : s.inbox = p :: rest) (htyp : p.f.typ = 6)
    (hcode : p.f.code = 1) (h : flag s R.glbFctl 0 = false ∨ boundFns s p.f.job = []) :
    faultBellReceive s = bellLogged s p rest := by
  have htake : takeFirst (fun q : Pkt => q.f.typ == 6 && q.f.code == 1) s.inbox = some (p, rest) :=
    takeFirst_head hin (by simp [htyp, hcode])
  have hctl : flag (bellLogged s p rest) R.glbFctl 0 = flag s R.glbFctl 0 :=
    flag_congr_rd (sameRegs_bellLogged s p rest _ (by decide)) 0
  unfold faultBellReceive
  rw [htake]
  dsimp only
  rw [← bellLog, ← bellLogged, hctl, boundFns_bellLogged]
  obtain hf | hb := h
  · rw [hf]
    rfl
  · rw [hb]
    exact ite_self _

theorem bellLogged_spec (s : State) {p : Pkt} (rest : List Pkt) (hjob : p.f.job < 4096) (hsrc : p.f.src < 65536) :
    rd64 (bellLogged s p rest) R.glbFbell = bellLog p.f ∧ flag (bellLogged s p rest) R.glbFstat 0 = true ∧
      bellLogged s p rest = { s with inbox := rest, regs := (bellLogged s p rest).regs } := by
  have hlt : bellLog p.f < 2 ^ 64 := by
    simp only [bellLog]
    omega
  have hraise {off : Nat} (h : off ≠ R.glbFstat) :
      rd (bellLogged s p rest) off = rd (wr64 { s with inbox := rest } R.glbFbell (bellLog p.f)) off := rd_raise_ne _ _ h
  refine ⟨?_, flag_raise_same _ _ (by decide), rfl⟩
  have hlog := rd64_wr64_same { s with inbox := rest } R.glbFbell (bellLog p.f)
  rw [Nat.mod_eq_of_lt hlt] at hlog
  rw [rd64, hraise (by decide), hraise (by decide), ← rd64, hlog]

end Sys2Proof.Machine

open Sys2Proof Sys2Proof.Machine

/-- Settles O32: phase by phase; the fault record and the self-test by what their folds keep. -/
theorem bootAndFaultBells : Obligations.BootAndFaultBells := by
  refine ⟨⟨fun s straps n hin hp => ⟨_, rfl, resetRelease_spec straps n hin hp rfl⟩, fun s hin hp => ?_, fun s hp => ?_,
    fun s hp => ⟨_, rfl, bootStoresReady_spec hp rfl⟩, fun s f hp => ⟨_, rfl, selfTest_spec hp f rfl⟩,
    fun s hp => ⟨_, rfl, bootReady_spec hp⟩⟩, fun s p rest hin htyp hcode hjob hsrc h => ?_⟩
  · exact congrArg Host.Outcome.next (if_pos ⟨hp, by simp [hin]⟩)
  · have hexec : exec .bootImageSelect s = .next (bootImageSelect s) := rfl
    rw [hexec, bootImageSelect_eq hp]
    refine ⟨fun hA hB => ?_, fun hB hA => ?_, fun hA hB => ?_⟩
    · have hnot : ¬ (slotOk s true = true ∧ ((!slotOk s false) = true ∨ slotSeq s false < slotSeq s true)) := by
        rintro ⟨htrue, hless⟩
        simp only [hA, htrue, Bool.not_true, Bool.false_eq_true, Bool.true_eq_false, false_or] at hless hB
        omega
      rw [if_neg hnot, if_pos hA]
      exact ⟨_, rfl, imageChosen_spec s false rfl⟩
    · rw [if_pos ⟨hB, hA.imp (by simp [·]) id⟩]
      exact ⟨_, rfl, imageChosen_spec s true rfl⟩
    · rw [if_neg (by simp [hB]), if_neg (by simp [hA])]
      exact ⟨_, rfl, bootPhase_setBoot s (by decide), onlyRegs_setF s _ _ _ _⟩
  · obtain ⟨hlog, hflag, hframe⟩ := bellLogged_spec s rest hjob hsrc
    exact ⟨_, congrArg Host.Outcome.next (faultBellReceive_logged hin htyp hcode h), hlog, hflag, hframe,
      sameRegs_bellLogged s p rest⟩
end

section
/-! PROOFS. Completion records and interrupts (O25). -/

namespace Sys2Proof.Machine

/-! ### Vectors (R536) -/

@[simp] theorem vecOf_setVec_same (s : State) (fn v : Nat) (x : Vector) : vecOf (setVec s fn v x) fn v = x :=
  SMap.getD_setD_same _ _ _ _

/-- A masked vector keeps its message as its pending bit. -/
theorem fireVec_masked {s : State} {fn v : Nat} (h : (vecOf s fn v).masked = true) :
    fireVec s fn v = setVec s fn v { vecOf s fn v with pending := true, count := 0 } := if_pos h

/-- A vector that is not masked sends its message. -/
theorem fireVec_unmasked {s : State} {fn v : Nat} (h : (vecOf s fn v).masked = false) :
    fireVec s fn v = emit (setVec s fn v { vecOf s fn v with count := 0 })
      (.msix fn v (vecOf s fn v).addr (vecOf s fn v).data) := by
  have hgo : ¬ (vecOf s fn v).masked = true := by simp [h]
  unfold fireVec
  dsimp only
  rw [if_neg hgo, sendMsix, vecOf_setVec_same]

theorem fireVec_spec (s : State) (fn v : Nat) : (vecOf (fireVec s fn v) fn v).count = 0 ∧
    (if (vecOf s fn v).masked then (vecOf (fireVec s fn v) fn v).pending = true ∧ (fireVec s fn v).out = s.out
      else (fireVec s fn v).out = s.out ++ [.msix fn v (vecOf s fn v).addr (vecOf s fn v).data]) ∧
    fireVec s fn v = { s with host := { s.host with vectors := (fireVec s fn v).host.vectors }, out := (fireVec s fn v).out } := by
  cases hm : (vecOf s fn v).masked with
  | true =>
    rw [fireVec_masked hm]
    refine ⟨?_, ⟨?_, rfl⟩, rfl⟩
    · rw [vecOf_setVec_same]
    · rw [vecOf_setVec_same]
  | false =>
    rw [fireVec_unmasked hm]
    refine ⟨?_, rfl, rfl⟩
    rw [show vecOf (emit (setVec s fn v _) _) fn v = vecOf (setVec s fn v _) fn v from rfl, vecOf_setVec_same]

/-- A vector that there is, unmasked: its pending message is sent. -/
theorem unmask_eq {s : State} {fn v : Nat} (h : hasVec fn v = true) : unmask fn v s =
    { setVec s fn v { vecOf s fn v with masked := false, pending := false } with
      out := s.out ++ if (vecOf s fn v).pending then [.msix fn v (vecOf s fn v).addr (vecOf s fn v).data] else [] } := by
  unfold unmask
  dsimp only
  rw [if_neg (by simp [h])]
  split
  · simp only [sendMsix, vecOf_setVec_same]
    rfl
  · rw [List.append_nil]
    rfl

theorem unmask_spec {s : State} {fn v : Nat} (h : hasVec fn v = true) {t : State} (ht : t = unmask fn v s) :
    (vecOf t fn v).masked = false ∧ (vecOf t fn v).pending = false ∧
      t.out = s.out ++ (if (vecOf s fn v).pending then [.msix fn v (vecOf s fn v).addr (vecOf s fn v).data] else []) ∧
      t = { s with host := { s.host with vectors := t.host.vectors }, out := t.out } := by
  rw [unmask_eq h] at ht
  have hvec : vecOf t fn v = { vecOf s fn v with masked := false, pending := false } := by
    rw [ht]
    exact vecOf_setVec_same s fn v _
  refine ⟨by rw [hvec], by rw [hvec], by rw [ht], ?_⟩
  rw [ht]
  rfl

/-! ### Rings and descriptors -/

theorem ringOf_setRing_same (s : State) (fn r : Nat) (x : Ring) : ringOf (setRing s fn r x) fn r = some x := by
  rw [ringOf, setRing, fnSt_setFn_same]
  exact SMap.find_put_same _ _ _

theorem ringOf_setRing_ne (s : State) {fn r q : Nat} (x : Ring) (h : q ≠ r) : ringOf (setRing s fn r x) fn q = ringOf s fn q := by
  rw [ringOf, setRing, fnSt_setFn_same]
  exact SMap.find_put_ne _ _ h

/-- The state with a descriptor and its namesakes gone. -/
def withoutDesc (s : State) (r : DescRef) : State :=
  { s with host := { s.host with descs := s.host.descs.filter fun g => !isDesc r g } }

theorem descOf_withoutDesc_same (s : State) (r : DescRef) : descOf (withoutDesc s r) r = none := by
  rw [descOf, List.find?_eq_none]
  intro h hh
  simpa using (List.mem_filter.1 hh).2

theorem sameDescs_withoutDesc (s : State) (r : DescRef) : sameDescs s (withoutDesc s r) r := by
  intro q hq
  rw [descOf, withoutDesc, List.find?_filter]
  refine congrArg (fun p => List.find? p s.host.descs) (funext fun h => ?_)
  cases hqh : isDesc q h with
  | false => simp
  | true =>
    have hrh : isDesc r h = false := by
      by_contra hr
      exact hq (eq_of_isDesc hqh (by simpa using hr))
    simp [hrh]

/-! ### Completion records (R534, Table HST-9) -/

/-- A number that stands in a run reads back, modulo its bytes. -/
theorem leAt_of_piece {l pre suf : List Byte} {i n v : Nat} (hl : l = pre ++ (leBytes n v ++ suf)) (hi : pre.length = i) :
    leAt l i n = v % 256 ^ n := by
  rw [hl, leAt, List.drop_left' hi, List.take_left' (leBytes_length n v), leNat_leBytes]

/-- A byte that stands in a run reads back, modulo 256. -/
theorem byteAt_of_piece {l pre suf : List Byte} {i v : Nat} (hl : l = pre ++ (leBytes 1 v ++ suf)) (hi : pre.length = i) :
    byteAt l i = v % 256 := by
  rw [hl, byteAt, List.getD_append_right _ _ _ _ hi.le, hi, Nat.sub_self]
  exact BitVec.toNat_ofNat v 8

/-- The phase of the record that a ring takes next. -/
def recordPhase (x : Ring) : Nat := (x.done / 2 ^ enCqLog x.entry + 1) % 2

/-- The flags of a record's twelfth byte are read back: the status, the ring and the phase. -/
theorem recordByte_fields {st ring phase : Nat} (hst : st < 16) (hring : ring < 8) (hph : phase < 2) :
    (st + 16 * ring + 128 * phase) % 256 % 16 = st ∧ (st + 16 * ring + 128 * phase) % 256 / 16 % 8 = ring ∧
      (st + 16 * ring + 128 * phase) % 256 / 128 = phase := by omega

theorem recordBytes_spec (h : HostDesc) (x : Ring) {st didx : Nat} (hst : st < 16) (hring : h.ring < 8) (hd : didx < 65536) :
    (recordBytes h x st didx).length = 32 ∧ leAt (recordBytes h x st didx) 0 8 = leAt h.bytes 4 8 ∧
      leAt (recordBytes h x st didx) 8 4 = h.idx % 2 ^ 32 ∧ byteAt (recordBytes h x st didx) 12 % 16 = st ∧
      byteAt (recordBytes h x st didx) 12 / 16 % 8 = h.ring ∧ byteAt (recordBytes h x st didx) 12 / 128 = recordPhase x ∧
      leAt (recordBytes h x st didx) 14 2 = didx ∧ leAt (recordBytes h x st didx) 24 8 = h.result % 2 ^ 64 := by
  have hph : recordPhase x < 2 := Nat.mod_lt _ (by decide)
  obtain ⟨hb1, hb2, hb3⟩ := recordByte_fields hst hring hph
  obtain ⟨p, hp⟩ : ∃ p, p = leBytes 8 (leAt h.bytes 4 8) := ⟨_, rfl⟩
  obtain ⟨q, hq⟩ : ∃ q, q = leBytes 4 (min 0xFFFFFFFF h.drops) ++ zeros 4 := ⟨_, rfl⟩
  have hplen : p.length = 8 := by rw [hp, leBytes_length]
  have hqlen : q.length = 8 := by simp [hq, zeros]
  have hrec : recordBytes h x st didx = p ++ (leBytes 4 h.idx ++ (leBytes 1 (st + 16 * h.ring + 128 * recordPhase x) ++
      (leBytes 1 (listsFlags h) ++ (leBytes 2 didx ++ (q ++ leBytes 8 h.result))))) := by
    simp only [recordBytes, hp, hq, List.append_assoc]
    rfl
  generalize recordBytes h x st didx = l at hrec
  have htag : leAt l 0 8 = leAt h.bytes 4 8 :=
    (leAt_of_piece (pre := []) (hp ▸ hrec) rfl).trans (Nat.mod_eq_of_lt (leAt_lt _ _ _))
  have hidx : leAt l 8 4 = h.idx % 2 ^ 32 := leAt_of_piece hrec hplen
  have hbyte : byteAt l 12 = (st + 16 * h.ring + 128 * recordPhase x) % 256 :=
    byteAt_of_piece (pre := p ++ leBytes 4 h.idx) (by rw [hrec]; simp only [List.append_assoc]; rfl) (by simp [hplen])
  have hdx : leAt l 14 2 = didx :=
    (leAt_of_piece (pre := p ++ leBytes 4 h.idx ++ leBytes 1 (st + 16 * h.ring + 128 * recordPhase x) ++
      leBytes 1 (listsFlags h)) (by rw [hrec]; simp only [List.append_assoc]; rfl) (by simp [hplen])).trans (Nat.mod_eq_of_lt hd)
  have hres : leAt l 24 8 = h.result % 2 ^ 64 :=
    leAt_of_piece (pre := p ++ leBytes 4 h.idx ++ leBytes 1 (st + 16 * h.ring + 128 * recordPhase x) ++
      leBytes 1 (listsFlags h) ++ leBytes 2 didx ++ q) (suf := [])
      (by rw [hrec]; simp only [List.append_assoc, List.append_nil]) (by simp [hplen, hqlen])
  rw [hbyte]
  exact ⟨by simp [hrec, hplen, hqlen], htag, hidx, hb1, hb2, hb3, hdx, hres⟩

/-- The state in which a descriptor that is done has put its record and left. -/
def recorded (s : State) (r : DescRef) (h : HostDesc) (x : Ring) (bs : List Byte) : State :=
  withoutDesc (setRing (hostWrite s h.fn (enCq x.entry + 32 * (x.done % 2 ^ enCqLog x.entry)) bs) h.fn h.ring
    { x with done := (x.done + 1) % 2 ^ 32 }) r

/-- A descriptor that is done and asks for no interrupt puts its record and leaves. -/
theorem completeHost_silent {s : State} {r : DescRef} {h : HostDesc} {x : Ring} {st didx : Nat} (hd : descOf s r = some h)
    (hdone : doneStatus s h = some (st, didx)) (hx : ringOf s h.fn h.ring = some x) (hirq : bit (byteAt h.bytes 1) 0 = false) :
    completeHost r s = recorded s r h x (recordBytes h x st didx) := by
  unfold completeHost
  simp only [hd, hdone, hx, hirq, Bool.false_eq_true, false_and, if_false]
  rfl

theorem recorded_spec {s : State} {r : DescRef} {h : HostDesc} {x : Ring} (bs : List Byte) {t : State}
    (ht : t = recorded s r h x bs) :
    t.out = s.out ++ hostTlps s h.fn (enCq x.entry + 32 * (x.done % 2 ^ enCqLog x.entry)) bs ∧
      ringOf t h.fn h.ring = some { x with done := (x.done + 1) % 2 ^ 32 } ∧ descOf t r = none ∧ sameDescs s t r ∧
      t.host.vectors = s.host.vectors ∧ t.regs = s.regs ∧ t.comp = s.comp ∧ t.deep = s.deep := by
  subst ht
  refine ⟨rfl, ?_, descOf_withoutDesc_same _ r, fun q hq => ?_, rfl, rfl, rfl, rfl⟩
  · exact ringOf_setRing_same _ _ _ _
  · exact (sameDescs_withoutDesc _ r q hq).trans rfl

end Sys2Proof.Machine

open Sys2Proof Sys2Proof.Machine

/-- Settles O25: the record by its fields in order, the vectors by their two ways to fire. -/
theorem completionsAndInterrupts : Obligations.CompletionsAndInterrupts := by
  refine ⟨fun s r h x st didx hd hdone hx hring hst hdidx hirq => ?_, fun s fn v hcount hmtime hdue => ?_, fun s fn v hv => ?_⟩
  · obtain ⟨hlen, htag, hidx, hstat, hrng, hphase, hdx, hres⟩ := recordBytes_spec h x hst hring hdidx
    obtain ⟨hout, hringOf, hnone, hsame, hvec, hregs, hcomp, hdeep⟩ :=
      recorded_spec (s := s) (r := r) (h := h) (x := x) (recordBytes h x st didx) rfl
    exact ⟨_, recordBytes h x st didx, congrArg Host.Outcome.next (completeHost_silent hd hdone hx hirq), hout, hlen, htag,
      hidx, hstat, hrng, hphase, hdx, hres, hringOf, hnone, hsame, hvec, hregs, hcomp, hdeep⟩
  · have hgo : ¬ ((vecOf s fn v).count = 0 ∨ (vecOf s fn v).mtime = 0 ∨
        s.time.lamp < (vecOf s fn v).first + 1000 * (vecOf s fn v).mtime) := by omega
    exact ⟨_, congrArg Host.Outcome.next (if_neg hgo), fireVec_spec s fn v⟩
  · have hhas : hasVec fn v = true := by
      rw [hasVec, decide_eq_true_iff, vecCount]
      split <;> omega
    exact ⟨_, rfl, unmask_spec hhas rfl⟩
end

section
/-! PROOFS. Functions enabled, torn down and bound (O22). -/

namespace Sys2Proof.Machine

/-! ### A function that is enabled (Table HST-11) -/

/-- The state with a function enabled. -/
def fnEnabled (s : State) (fn : Nat) : State :=
  setFn (setF (setF s (R.vfStatus fn) 2 2 0) (R.vfStatus fn) 1 0 1) fn (FnSt.start s.time.lamp)

theorem enableFn_ok {s : State} {fn : Nat} (hstate : fnState s fn = 0) (hbound : fnBound s fn = true)
    (hdb : bit (rd64 s (R.vfDb fn)) 0 = true) (hnum : fn ≤ s.host.numVfs) : enableFn s fn = (fnEnabled s fn, 0) := by
  have h1 : ¬ fnState s fn = 1 := by omega
  have h2 : ¬ fnState s fn = 2 := by omega
  unfold enableFn
  rw [if_neg h1, if_neg h2, if_pos (by simp [hbound, hdb, hnum])]
  rfl

theorem fnEnabled_spec (s : State) (fn : Nat) {t : State} (ht : t = fnEnabled s fn) :
    fnState t fn = 1 ∧ flag t (R.vfStatus fn) 2 = false ∧ fnSt t fn = FnSt.start s.time.lamp ∧ sameRegs s t [R.vfStatus fn] ∧
      t.comp = s.comp ∧ t.deep = s.deep ∧ t.rem = s.rem ∧ t.host.descs = s.host.descs := by
  generalize hoff : R.vfStatus fn = off at *
  have hval : t = setFn (setF (setF s off 2 2 0) off 1 0 1) fn (FnSt.start s.time.lamp) := by rw [ht, fnEnabled, hoff]
  have hrd (x : Nat) : rd t x = rd (setF (setF s off 2 2 0) off 1 0 1) x := by rw [hval]; rfl
  refine ⟨?_, ?_, ?_, ?_, ?_, ?_, ?_, ?_⟩
  · rw [fnState, hoff, getF_congr_rd (hrd off), getF_setF_same _ _ _ (by decide) (by decide)]
    rfl
  · rw [flag_congr_rd (hrd off), flag_setF_same _ _ _ (by decide) (by decide), if_neg (by decide),
      flag_setF_same _ _ _ le_rfl (by decide)]
    rfl
  · rw [hval, fnSt_setFn_same]
  · intro x hx
    have hne : x ≠ off := by simpa using hx
    rw [hrd, rd_setF_ne _ _ _ _ hne, rd_setF_ne _ _ _ _ hne]
  · rw [hval]; rfl
  · rw [hval]; rfl
  · rw [hval]; rfl
  · rw [hval]; rfl

/-! ### FCTL (R542) -/

theorem fctlOk_of_between {b : List Byte} {fn : Nat} (hfn : fn = leAt b 16 2) (h1 : 1 ≤ fn) (h512 : fn ≤ 512) : fctlOk b = true := by
  subst hfn
  simp [fctlOk, between, h1, h512]

theorem fctlEnableBody_ok {s : State} {r : DescRef} {h : HostDesc} {fn : Nat} (hfn : fn = leAt h.bytes 16 2) (h1 : 1 ≤ fn)
    (h512 : fn ≤ 512) (hstate : fnState s fn = 0) (hbound : fnBound s fn = true) (hdb : bit (rd64 s (R.vfDb fn)) 0 = true)
    (hnum : fn ≤ s.host.numVfs) : fctlEnableBody r h s = endDesc (fnEnabled s fn) r 0 := by
  have hok := fctlOk_of_between hfn h1 h512
  subst hfn
  unfold fctlEnableBody
  rw [hok, enableFn_ok hstate hbound hdb hnum]
  rfl

theorem fctlStopBody_enabled {s : State} {r : DescRef} {h : HostDesc} {fn : Nat} (hfn : fn = leAt h.bytes 16 2) (h1 : 1 ≤ fn)
    (h512 : fn ≤ 512) (hstate : fnState s fn = 1) : fctlStopBody r h s = workDesc (startTeardown s fn) r := by
  have hok := fctlOk_of_between hfn h1 h512
  subst hfn
  unfold fctlStopBody
  simp only [hok, hstate, disableFn]
  rfl

theorem fnSt_workDesc (u : State) (r : DescRef) (fn : Nat) : fnSt (workDesc u r) fn = fnSt u fn := rfl

theorem fnState_workDesc (u : State) (r : DescRef) (fn : Nat) : fnState (workDesc u r) fn = fnState u fn := rfl

/-- FCTL disable and reset tear an ENABLED function down. -/
theorem fctlStopBody_spec {s : State} {r : DescRef} {h : HostDesc} {fn : Nat} (hfn : fn = leAt h.bytes 16 2) (h1 : 1 ≤ fn)
    (h512 : fn ≤ 512) (hstate : fnState s fn = 1) {t : State} (ht : t = fctlStopBody r h s) :
    fnState t fn = 2 ∧ (fnSt t fn).teardown = .draining s.time.lamp ∧ (fnSt t fn).rings = [] := by
  rw [fctlStopBody_enabled hfn h1 h512 hstate] at ht
  have hfnst : fnSt t fn = drainingFn s fn := by
    rw [ht, fnSt_workDesc, fnSt_startTeardown]
  exact ⟨by rw [ht, fnState_workDesc, fnState_startTeardown], by rw [hfnst]; rfl, by rw [hfnst]; rfl⟩

/-! ### FBIND (R512, R533) -/

/-- The word that an FBIND writes to `VF_BIND`. -/
def bindWord (b : List Byte) : Nat :=
  leAt b 18 2 + 2 ^ 15 + 2 ^ 16 * leAt b 20 2 + 2 ^ 32 * (leAt b 22 2 % 4096) + 2 ^ 44 * (leAt b 22 2 / 2 ^ 15)

/-- The word that it writes to `VF_TALLY` for a die. -/
def bindTallyWord (b : List Byte) (d : Nat) : Nat := (bindTally b d).1 + 2 ^ 16 * (bindTally b d).2

/-- The state with a function bound. -/
def fnBoundBy (s : State) (b : List Byte) (fn : Nat) : State :=
  dies8.foldl (fun s d => wr s (R.vfTally fn d) (bindTallyWord b d))
    (wr64 (wr64 s (R.vfBind fn) (bindWord b)) (R.vfDb fn) (leAt b 56 8 + 1))

theorem fbindBody_ok {s : State} {r : DescRef} {h : HostDesc} (hchk : bindCheck s h.bytes = 0) :
    fbindBody r h s = endDesc (fnBoundBy s h.bytes (leAt h.bytes 16 2)) r 0 := by
  unfold fbindBody
  simp only [hchk]
  rfl

/-- What the checks of an FBIND say of its fields. -/
theorem bindCheck_fields {s : State} {b : List Byte} (h : bindCheck s b = 0) :
    leAt b 18 2 < 4096 ∧ leAt b 56 8 % 4096 = 0 ∧
      ∀ d < 8, (bindTally b d).1 < 16384 ∧ (bindTally b d).1 + (bindTally b d).2 ≤ 16384 := by
  unfold bindCheck at h
  dsimp only at h
  split at h
  · exact absurd h (by decide)
  split at h
  · exact absurd h (by decide)
  split at h
  · exact absurd h (by decide)
  next hbad =>
    simp only [not_or, Bool.not_eq_true, List.any_eq_false, Bool.or_eq_false_iff, decide_eq_false_iff_not, not_le] at hbad
    obtain ⟨hjob, -, hpage, hdies⟩ := hbad
    refine ⟨hjob, by omega, fun d hd => ?_⟩
    have hdie := hdies d (List.mem_range.2 hd)
    simp at hdie
    omega

theorem vfTally_notMem (fn : Nat) {off : Nat} (h : off = R.vfBind fn ∨ off = R.vfBind fn + 4 ∨ off = R.vfDb fn ∨ off = R.vfDb fn + 4) :
    ∀ d ∈ dies8, R.vfTally fn d ≠ off := by
  intro d hd
  have hlt : d < 8 := List.mem_range.1 hd
  simp only [R.vfTally, R.vfBind, R.vfDb] at h ⊢
  omega

theorem rd_fnBoundBy_apart (s : State) (b : List Byte) (fn : Nat) {off : Nat}
    (h : off = R.vfBind fn ∨ off = R.vfBind fn + 4 ∨ off = R.vfDb fn ∨ off = R.vfDb fn + 4) :
    rd (fnBoundBy s b fn) off = rd (wr64 (wr64 s (R.vfBind fn) (bindWord b)) (R.vfDb fn) (leAt b 56 8 + 1)) off :=
  foldl_keeps (rd · off) (fun t d hd => rd_wr_ne t _ (vfTally_notMem fn h d hd).symm) _

theorem rd64_fnBoundBy_vfBind (s : State) (b : List Byte) (fn : Nat) :
    rd64 (fnBoundBy s b fn) (R.vfBind fn) = bindWord b % 2 ^ 64 := by
  have hapart : ∀ off, off = R.vfBind fn ∨ off = R.vfBind fn + 4 → off ∉ [R.vfDb fn, R.vfDb fn + 4] := by
    intro off h
    simp only [R.vfBind, R.vfDb, List.mem_cons, List.not_mem_nil, or_false, not_or] at h ⊢
    omega
  rw [← rd64_wr64_same s (R.vfBind fn) (bindWord b), rd64, rd64, rd_fnBoundBy_apart s b fn (.inl rfl),
    rd_fnBoundBy_apart s b fn (.inr (.inl rfl)), sameRegs_wr64 _ _ _ _ (hapart _ (.inl rfl)),
    sameRegs_wr64 _ _ _ _ (hapart _ (.inr rfl))]

theorem rd64_fnBoundBy_vfDb (s : State) (b : List Byte) (fn : Nat) :
    rd64 (fnBoundBy s b fn) (R.vfDb fn) = (leAt b 56 8 + 1) % 2 ^ 64 := by
  rw [← rd64_wr64_same (wr64 s (R.vfBind fn) (bindWord b)) (R.vfDb fn) (leAt b 56 8 + 1), rd64, rd64,
    rd_fnBoundBy_apart s b fn (.inr (.inr (.inl rfl))), rd_fnBoundBy_apart s b fn (.inr (.inr (.inr rfl)))]

theorem bindWord_fields {b : List Byte} (hjob : leAt b 18 2 < 4096) :
    bindWord b < 2 ^ 64 ∧ bit (bindWord b) 15 = true ∧ bits (bindWord b) 11 0 = leAt b 18 2 ∧
      bits (bindWord b) 31 16 = leAt b 20 2 ∧ bits (bindWord b) 43 32 = leAt b 22 2 % 4096 ∧
      bit (bindWord b) 44 = bit (leAt b 22 2) 15 := by
  have hep : leAt b 20 2 < 65536 := leAt_lt b 20 2
  have hgrp : leAt b 22 2 < 65536 := leAt_lt b 22 2
  simp only [bindWord, bit, bits, Nat.testBit, Nat.shiftRight_eq_div_pow, Nat.and_comm 1, Nat.and_one_is_mod]
  generalize leAt b 18 2 = j at hjob ⊢
  generalize leAt b 20 2 = e at hep ⊢
  generalize leAt b 22 2 = g at hgrp ⊢
  refine ⟨by omega, ?_, by omega, by omega, by omega, ?_⟩
  · rw [bne_iff_ne]
    omega
  · congr 1
    omega

/-- After an FBIND the function's tally range of a die is the one it names. -/
theorem tallyRange_fnBoundBy (s : State) (b : List Byte) (fn : Nat) {d : Nat} (hd : d < 8) (hbase : (bindTally b d).1 < 16384)
    (hsum : (bindTally b d).1 + (bindTally b d).2 ≤ 16384) : tallyRange (fnBoundBy s b fn) fn d = bindTally b d := by
  have hword : rd (fnBoundBy s b fn) (R.vfTally fn d) = bindTallyWord b d % 2 ^ 32 := by
    rw [fnBoundBy]
    refine rd_foldl_wr_of_mem (off := R.vfTally fn) (val := bindTallyWord b) (fun x y hxy => ?_) dies8 _ (List.mem_range.2 hd)
    simp only [R.vfTally] at hxy
    omega
  rw [tallyRange, getF, getF, hword, bindTallyWord, bits, bits, Nat.shiftRight_eq_div_pow, Nat.shiftRight_eq_div_pow]
  generalize bindTally b d = p at hbase hsum ⊢
  obtain ⟨base, count⟩ := p
  simp only [Prod.mk.injEq] at hbase hsum ⊢
  omega

theorem fnBoundBy_frame (s : State) (b : List Byte) (fn : Nat) :
    (fnBoundBy s b fn).comp = s.comp ∧ (fnBoundBy s b fn).deep = s.deep ∧ (fnBoundBy s b fn).host = s.host :=
  ⟨by rw [fnBoundBy, foldl_keeps State.comp fun u _ _ => wr_comp u _ _, wr64_comp, wr64_comp],
    by rw [fnBoundBy, foldl_keeps State.deep fun u _ _ => wr_deep u _ _, wr64_deep, wr64_deep],
    by rw [fnBoundBy, foldl_keeps State.host fun u _ _ => wr_host u _ _, wr64_host, wr64_host]⟩

theorem rd64_endDesc (u : State) (r : DescRef) (st off : Nat) : rd64 (endDesc u r st) off = rd64 u off := rfl

theorem tallyRange_endDesc (u : State) (r : DescRef) (st fn d : Nat) : tallyRange (endDesc u r st) fn d = tallyRange u fn d := rfl

theorem endDesc_comp (u : State) (r : DescRef) (st : Nat) : (endDesc u r st).comp = u.comp := rfl

theorem endDesc_deep (u : State) (r : DescRef) (st : Nat) : (endDesc u r st).deep = u.deep := rfl

theorem pageAlign_succ {x : Nat} (hpage : x % 4096 = 0) (hlt : x < 2 ^ 64) : (x + 1) % 2 ^ 64 / 4096 * 4096 = x := by
  omega

theorem fbind_spec {s : State} {r : DescRef} {h : HostDesc} {fn : Nat} (hchk : bindCheck s h.bytes = 0) {t : State}
    (ht : t = endDesc (fnBoundBy s h.bytes fn) r 0) :
    fnBound t fn = true ∧ fnJob t fn = leAt h.bytes 18 2 ∧ fnEp t fn = leAt h.bytes 20 2 ∧
      bits (bindOf t fn) 43 32 = leAt h.bytes 22 2 % 4096 ∧ bit (bindOf t fn) 44 = bit (leAt h.bytes 22 2) 15 ∧
      pageOf t fn = leAt h.bytes 56 8 ∧ (∀ d < 8, tallyRange t fn d = bindTally h.bytes d) ∧ t.comp = s.comp ∧ t.deep = s.deep := by
  obtain ⟨hjob, hpage, hdies⟩ := bindCheck_fields hchk
  obtain ⟨hlt, hbound, hjobF, hepF, hgrpF, hvalid⟩ := bindWord_fields hjob
  obtain ⟨hcomp, hdeep, -⟩ := fnBoundBy_frame s h.bytes fn
  have hbind : bindOf t fn = bindWord h.bytes := by
    rw [ht, bindOf, rd64_endDesc, rd64_fnBoundBy_vfBind, Nat.mod_eq_of_lt hlt]
  have hdb : rd64 t (R.vfDb fn) = (leAt h.bytes 56 8 + 1) % 2 ^ 64 := by
    rw [ht, rd64_endDesc, rd64_fnBoundBy_vfDb]
  refine ⟨by rw [fnBound, hbind, hbound], by rw [fnJob, hbind, hjobF], by rw [fnEp, hbind, hepF], by rw [hbind, hgrpF],
    by rw [hbind, hvalid], ?_, fun d hd => ?_, by rw [ht, endDesc_comp, hcomp], by rw [ht, endDesc_deep, hdeep]⟩
  · rw [pageOf, hdb, pageAlign_succ hpage ((leAt_lt h.bytes 56 8).trans_eq (by norm_num))]
  · obtain ⟨hbase, hsum⟩ := hdies d hd
    rw [ht, tallyRange_endDesc, tallyRange_fnBoundBy s h.bytes fn hd hbase hsum]

end Sys2Proof.Machine

open Sys2Proof Sys2Proof.Machine

/-- Settles O22: the descriptors' bodies on a function that may be enabled, that is ENABLED, and that may be bound. -/
theorem functionControl : Obligations.FunctionControl := by
  refine ⟨fun s r h fn hst hfn h1 h512 hstate hbound hdb hnum => ?_, fun s r h fn hst hfn h1 h512 hstate => ?_,
    fun s r h fn hst hfn h1 h512 hstate => ?_, fun s r h fn hst hfn hchk => ?_⟩
  · have hbody := fctlEnableBody_ok (r := r) hfn h1 h512 hstate hbound hdb hnum
    obtain ⟨hstate', hflag, hfnst, hregs, hcomp, hdeep, -, hdescs⟩ := fnEnabled_spec s fn rfl
    have hdesc (q : DescRef) : descOf (fnEnabled s fn) q = descOf s q := by rw [descOf, descOf, hdescs]
    obtain ⟨hd, -⟩ := id hst
    refine ⟨_, congrArg Host.Outcome.next ((startDesc_of_startable hst).trans hbody),
      endedWith_endDesc ((hdesc r).trans hd) fun q _ => hdesc q, hstate', hflag, ?_, ?_, hregs, hcomp, hdeep⟩
    · exact (congrArg FnSt.interval hfnst).trans rfl
    · exact (congrArg FnSt.gen hfnst).trans rfl
  · exact ⟨_, congrArg Host.Outcome.next (startDesc_of_startable hst), fctlStopBody_spec hfn h1 h512 hstate rfl⟩
  · exact ⟨_, congrArg Host.Outcome.next (startDesc_of_startable hst), fctlStopBody_spec hfn h1 h512 hstate rfl⟩
  · obtain ⟨-, -, hhost⟩ := fnBoundBy_frame s h.bytes fn
    have hbody : fbindBody r h s = endDesc (fnBoundBy s h.bytes fn) r 0 := by rw [fbindBody_ok hchk, hfn]
    exact ⟨_, congrArg Host.Outcome.next ((startDesc_of_startable hst).trans hbody), endedWith_of_host hst hhost,
      fbind_spec hchk rfl⟩
end

section
/-! PROOFS. A function is enabled, torn down and done (O26). -/

namespace Sys2Proof.Machine

/-! ### The control of a function through its registers (Table HST-11) -/

theorem locked_dropHeld (s : State) (base : Nat) : locked (dropHeld s base) = locked s := by
  rw [dropHeld_eq]
  rfl

theorem fnState_dropHeld (s : State) (base fn : Nat) : fnState (dropHeld s base) fn = fnState s fn := by
  rw [dropHeld_eq]
  rfl

/-- VF_ENABLE of a DISABLED function that may be enabled. -/
theorem vfEnable_spec {s : State} (fn : Fn) (hlock : locked s = false) (hstate : fnState s fn = 0) (hbound : fnBound s fn = true)
    (hdb : bit (rd64 s (R.vfDb fn)) 0 = true) (hnum : fn.val ≤ s.host.numVfs) :
    ∃ t : State, exec (.vfEnable fn) s = .next t ∧ fnState t fn = 1 ∧ flag t (R.vfStatus fn) 2 = false ∧
      (fnSt t fn).interval = 500 ∧ (fnSt t fn).due = s.time.lamp ∧ (fnSt t fn).gen = none ∧
      sameRegs s t [R.vfStatus fn] ∧ t.comp = s.comp ∧ t.deep = s.deep ∧ t.rem = s.rem := by
  obtain ⟨held, hheld⟩ : ∃ held, dropHeld s (R.vfCtl fn) = { s with held := held } := ⟨_, dropHeld_eq s _⟩
  have hlock' : locked { s with held := held } = false := hlock
  have hok : enableFn { s with held := held } fn = (fnEnabled { s with held := held } fn, 0) :=
    enableFn_ok (s := { s with held := held }) hstate hbound hdb hnum
  obtain ⟨hst, hflag, hfn, hregs, hcomp, hdeep, hrem, -⟩ := fnEnabled_spec { s with held := held } fn rfl
  refine ⟨_, ?_, hst, hflag, ?_, ?_, ?_, hregs, hcomp, hdeep, hrem⟩
  · simp only [exec, execVfEnable, hheld, hlock', hok]
    rfl
  · rw [hfn]; rfl
  · rw [hfn]; rfl
  · rw [hfn]; rfl

/-- VF_DISABLE and VF_RESET of an ENABLED function start its teardown. -/
theorem vfStop_spec {s : State} (fn : Fn) (base : Nat) (hlock : locked s = false) (hstate : fnState s fn = 1) {t : State}
    (ht : t = if locked (dropHeld s base) then dropHeld s base else disableFn (dropHeld s base) fn) :
    fnState t fn = 2 ∧ (fnSt t fn).teardown = .draining s.time.lamp ∧ sameRegs s t [R.vfStatus fn] ∧ t.deep = s.deep ∧
      t.comp.store = s.comp.store := by
  rw [locked_dropHeld, hlock, if_neg (by decide), disableFn, if_pos ((fnState_dropHeld s base fn).trans hstate)] at ht
  obtain ⟨held, hheld⟩ : ∃ held, dropHeld s base = { s with held := held } := ⟨_, dropHeld_eq s _⟩
  rw [hheld] at ht
  have hdis := disabled_startTeardown { s with held := held } fn
  have hfn := fnSt_startTeardown { s with held := held } fn
  subst ht
  exact ⟨fnState_startTeardown _ _, by rw [hfn]; rfl, hdis.regs, hdis.deep, hdis.store⟩

/-! ### Resets of the configuration space -/

theorem find_eq_none_of_disabled {s t : State} {offs : List Nat} (h : Disabled s t offs) {k : Nat}
    (hk : k ∉ s.host.vectors.map (·.1)) : SMap.find t.host.vectors k = none :=
  SMap.find_eq_none_of_not_mem (h.vectors ▸ hk)

/-- The state whose function has no vector left. -/
def vectorsReset (s : State) (fn : Nat) : State :=
  { s with host := { s.host with vectors := s.host.vectors.filter fun e => e.1 / 64 != fn } }

theorem notMem_vectorsReset (s : State) (fn : Nat) {v : Nat} (hv : v < 64) :
    64 * fn + v ∉ (vectorsReset s fn).host.vectors.map (·.1) := by
  intro h
  obtain ⟨e, he, hkey⟩ := List.mem_map.1 h
  have hne := (List.mem_filter.1 he).2
  simp only [bne_iff_ne] at hne
  omega

theorem disabled_clearVfEnable (s : State) :
    Disabled { s with host := { s.host with vfEnable := false } } (clearVfEnable s) ((upto 1 512).map R.vfStatus) :=
  disabled_foldl _ _

theorem fnState_foldl_disableFn_of_mem {l : List Nat} {s : State} {f : Nat} (hf : f ∈ l) (hstate : fnState s f = 1) :
    fnState (l.foldl disableFn s) f = 2 := by
  rw [fnState_foldl_disableFn, if_pos ⟨hf, hstate⟩]

theorem fnState_foldl_disableFn_of_notMem {l : List Nat} (s : State) {f : Nat} (hf : f ∉ l) :
    fnState (l.foldl disableFn s) f = fnState s f := by
  rw [fnState_foldl_disableFn, if_neg fun h => hf h.1]

theorem mem_vfs {f : Nat} (h : 1 ≤ f) (h512 : f ≤ 512) : f ∈ upto 1 512 :=
  List.mem_map.2 ⟨f - 1, List.mem_range.2 (by omega), by omega⟩

theorem zero_notMem_vfs : 0 ∉ upto 1 512 := by
  simp [upto]

theorem fnState_clearVfEnable_zero (s : State) : fnState (clearVfEnable s) 0 = fnState s 0 :=
  fnState_foldl_disableFn_of_notMem _ zero_notMem_vfs

theorem fnState_clearVfEnable_vf {s : State} {f : Nat} (h : 1 ≤ f) (h512 : f ≤ 512) (hstate : fnState s f = 1) :
    fnState (clearVfEnable s) f = 2 :=
  fnState_foldl_disableFn_of_mem (mem_vfs h h512) hstate

theorem vfEnable_clearVfEnable (s : State) : (clearVfEnable s).host.vfEnable = false := by
  rw [(disabled_clearVfEnable s).vfEnable]

/-- The state with the sizes of the physical function's configuration space reset. -/
def sizesReset (s : State) : State :=
  { s with host := { s.host with
      numVfs := HostSt.start.numVfs, payload := HostSt.start.payload, readReq := HostSt.start.readReq } }

theorem resetConfig_zero (s : State) : resetConfig s 0 = sizesReset (clearVfEnable (vectorsReset s 0)) := by
  rw [resetConfig, if_neg (by decide), sizesReset, vectorsReset]

theorem resetConfig_vf (s : State) {fn : Nat} (h : fn ≠ 0) : resetConfig s fn = vectorsReset s fn := by
  rw [resetConfig, if_pos h, vectorsReset]

/-- FLR of an ENABLED function. -/
theorem flr_spec {s : State} (fn : Fn) (hstate : fnState s fn = 1) {t : State} (ht : t = resetConfig (disableFn s fn) fn) :
    fnState t fn = 2 ∧ (∀ v < 64, vecOf t fn v = Vector.start) ∧ (fn.val ≠ 0 → sameRegs s t [R.vfStatus fn]) := by
  have hdis := disabled_disableFn s fn
  have hst := fnState_disableFn s fn
  rw [if_pos hstate] at hst
  generalize disableFn s fn = u at ht hdis hst
  by_cases h0 : fn.val = 0
  · rw [h0] at ht hst ⊢
    rw [resetConfig_zero] at ht
    have hclear := disabled_clearVfEnable (vectorsReset u 0)
    have hwst := fnState_clearVfEnable_zero (vectorsReset u 0)
    generalize clearVfEnable (vectorsReset u 0) = w at ht hclear hwst
    subst ht
    refine ⟨hwst.trans hst, fun v hv => ?_, fun h => absurd rfl h⟩
    have hnone : SMap.find w.host.vectors (64 * 0 + v) = none := find_eq_none_of_disabled hclear (notMem_vectorsReset u 0 hv)
    exact congrArg (Option.getD · Vector.start) hnone
  · rw [resetConfig_vf u h0] at ht
    subst ht
    refine ⟨hst, fun v hv => ?_, fun _ => hdis.regs⟩
    rw [vecOf, SMap.getD, SMap.find_eq_none_of_not_mem (notMem_vectorsReset u fn hv)]
    rfl

/-- VF Enable cleared disables an ENABLED virtual function and leaves the physical function as it is. -/
theorem vfEnableClear_spec {s : State} (fn : Fn) (h0 : fn.val ≠ 0) (hstate : fnState s fn = 1) {t : State}
    (ht : t = clearVfEnable s) : fnState t fn = 2 ∧ fnState t 0 = fnState s 0 ∧ t.host.vfEnable = false := by
  have hpos : 1 ≤ fn.val := by omega
  have hlt : fn.val ≤ 512 := Nat.le_of_lt_succ fn.isLt
  rw [ht]
  refine ⟨?_, ?_, ?_⟩
  · exact fnState_clearVfEnable_vf hpos hlt hstate
  · exact fnState_clearVfEnable_zero s
  · exact vfEnable_clearVfEnable s

/-! ### The end of the drain and of the teardown (Table HST-10) -/

/-- The state whose function has no window left. -/
def windowsRemoved (s : State) (fn : Nat) : State :=
  { s with rem := { s.rem with windows := s.rem.windows.filter fun e => e.2.fn != fn } }

theorem clustersOf_eq_nil {s : State} {fn : Nat} (h : ∀ g < 1280, holds s g fn = false) : clustersOf s fn = [] := by
  rw [clustersOf, List.filter_eq_nil_iff]
  intro g hg
  simp [h g (List.mem_range.1 hg)]

/-- The state with the windows removed and the tallies reclaimed, whose teardown goes on to the zeroing of no cluster. -/
def drainEnded (s : State) (fn : Nat) : State :=
  setFn (reclaimTallies (windowsRemoved s fn) fn) fn { fnSt s fn with teardown := .zeroing [] }

theorem teardownDrainEnd_eq {s : State} {fn : Fn} {t0 : Nat} (hstate : fnState s fn = 2)
    (htd : (fnSt s fn).teardown = .draining t0) (hdue : t0 + 1000 * getF s R.hstDrain 9 0 ≤ s.time.lamp)
    (hframes : holdsFrames s fn = false) (hheld : ∀ g < 1280, holds s g fn = false) :
    teardownDrainEnd fn s = drainEnded s fn := by
  have hclus : clustersOf (reclaimTallies (windowsRemoved s fn) fn) fn = [] :=
    (clustersOf_eq_nil hheld : clustersOf s fn = [])
  have hgo : ¬ (fnState s fn ≠ 2 ∨ s.time.lamp < t0 + 1000 * getF s R.hstDrain 9 0 ∨ holdsFrames s fn = true) := by
    simp [hstate, hframes, hdue]
  unfold teardownDrainEnd
  dsimp only
  rw [htd]
  dsimp only
  rw [if_neg hgo]
  have hfold := hclus
  unfold windowsRemoved at hfold
  rw [hfold]
  rfl

theorem tallyCount_reclaimTallies (s : State) {fn d i : Nat} (hi : i < (tallyRange s fn d).2)
    (hlt : i < 16384 - (tallyRange s fn d).1) : tallyCount (reclaimTallies s fn) fn d i = 0 := by
  have hdie : (16384 * d + (tallyRange s fn d).1 + i) / 16384 = d := by omega
  have hidx : (16384 * d + (tallyRange s fn d).1 + i) % 16384 = (tallyRange s fn d).1 + i := by omega
  have hrange : tallyRange (reclaimTallies s fn) fn d = tallyRange s fn d := rfl
  rw [tallyCount, hrange, SMap.getD, reclaimTallies,
    SMap.find_filter s.rem.tallies (fun k => !(decide ((tallyRange s fn (k / 16384)).1 ≤ k % 16384) &&
      decide (k % 16384 < (tallyRange s fn (k / 16384)).1 + (tallyRange s fn (k / 16384)).2))), hdie, hidx,
    if_neg (by simpa using hi)]
  rfl

theorem drainEnded_spec (s : State) (fn : Nat) {t : State} (ht : t = drainEnded s fn) :
    (fnSt t fn).teardown = .zeroing [] ∧ fnState t fn = fnState s fn ∧ (∀ e ∈ t.rem.windows, e.2.fn ≠ fn) ∧ t.regs = s.regs ∧
      t.comp = s.comp ∧ t.deep = s.deep ∧
      ∀ d i, i < (tallyRange s fn d).2 → i < 16384 - (tallyRange s fn d).1 → tallyCount t fn d i = 0 := by
  subst ht
  refine ⟨?_, rfl, fun e he => ?_, rfl, rfl, rfl, fun d i hi hlt => ?_⟩
  · rw [drainEnded, fnSt_setFn_same]
  · simpa using (List.mem_filter.1 he).2
  · exact tallyCount_reclaimTallies (windowsRemoved s fn) hi hlt

/-- One policer and shaper that hold no token. -/
def bucketEmptied (s : State) (k : Nat) : State :=
  setShp (setPol s k { polOf s k with tc := 0, tp := 0, last := s.time.now }) k { shpOf s k with tok := 0, last := s.time.now }

theorem zeroTokens_eq (s : State) (fn : Nat) : zeroTokens s fn = bucketEmptied (bucketEmptied s (2 * fn)) (2 * fn + 1) := rfl

/-- Does the policer and shaper of a number hold no token? -/
def NoTokens (s : State) (k : Nat) : Prop := (polOf s k).tc = 0 ∧ (polOf s k).tp = 0 ∧ (shpOf s k).tok = 0

theorem noTokens_bucketEmptied (s : State) (k : Nat) : NoTokens (bucketEmptied s k) k := by
  have hpol : polOf (bucketEmptied s k) k = { polOf s k with tc := 0, tp := 0, last := s.time.now } := polOf_setPol_same s k _
  have hshp : shpOf (bucketEmptied s k) k = { shpOf s k with tok := 0, last := s.time.now } := shpOf_setShp_same _ k _
  rw [NoTokens, hpol, hshp]
  exact ⟨rfl, rfl, rfl⟩

theorem noTokens_bucketEmptied_ne {s : State} {j k : Nat} (hne : j ≠ k) (h : NoTokens s j) : NoTokens (bucketEmptied s k) j := by
  have hpol : polOf (bucketEmptied s k) j = polOf s j := SMap.getD_setD_ne _ _ _ _ hne
  have hshp : shpOf (bucketEmptied s k) j = shpOf s j := SMap.getD_setD_ne _ _ _ _ hne
  rwa [NoTokens, hpol, hshp]

theorem noTokens_zeroTokens (s : State) (fn c : Nat) (hc : c < 2) : NoTokens (zeroTokens s fn) (2 * fn + c) := by
  rw [zeroTokens_eq]
  obtain rfl | rfl : c = 0 ∨ c = 1 := by omega
  · exact noTokens_bucketEmptied_ne (by omega) (noTokens_bucketEmptied s _)
  · exact noTokens_bucketEmptied _ _

/-- The status word of a function that is torn down. -/
def downMarked (s : State) (off : Nat) : State := setF (setF s off 2 2 1) off 1 0 0

theorem polOf_downMarked (s : State) (off k : Nat) : polOf (downMarked s off) k = polOf s k := rfl

theorem shpOf_downMarked (s : State) (off k : Nat) : shpOf (downMarked s off) k = shpOf s k := rfl

theorem bucketEmptied_regs (s : State) (k : Nat) : (bucketEmptied s k).regs = s.regs := rfl
theorem bucketEmptied_comp (s : State) (k : Nat) : (bucketEmptied s k).comp = s.comp := rfl
theorem bucketEmptied_deep (s : State) (k : Nat) : (bucketEmptied s k).deep = s.deep := rfl

theorem zeroTokens_regs (s : State) (fn : Nat) : (zeroTokens s fn).regs = s.regs := by
  rw [zeroTokens_eq, bucketEmptied_regs, bucketEmptied_regs]

theorem downMarked_frame (s : State) (fn off : Nat) :
    (downMarked (zeroTokens s fn) off).comp = s.comp ∧ (downMarked (zeroTokens s fn) off).deep = s.deep := by
  rw [downMarked, setF_comp, setF_comp, setF_deep, setF_deep, zeroTokens_eq, bucketEmptied_comp, bucketEmptied_comp,
    bucketEmptied_deep, bucketEmptied_deep]
  exact ⟨rfl, rfl⟩

theorem downMarked_spec (s : State) (off : Nat) : getF (downMarked s off) off 1 0 = 0 ∧ flag (downMarked s off) off 2 = true ∧
    sameRegs s (downMarked s off) [off] := by
  refine ⟨?_, ?_, fun x hx => ?_⟩
  · rw [downMarked, getF_setF_same _ _ _ (by decide) (by decide)]
    rfl
  · rw [downMarked, flag_setF_same _ _ _ (by decide) (by decide), if_neg (by decide),
      flag_setF_same _ _ _ le_rfl (by decide)]
    rfl
  · have hne : x ≠ off := by simpa using hx
    rw [downMarked, rd_setF_ne _ _ _ _ hne, rd_setF_ne _ _ _ _ hne]

/-- The state with a function's live state gone, and the descriptors that waited for it ended. -/
def fnGone (s : State) (fn : Nat) : State :=
  { s with host := { s.host with
      fns := SMap.erase s.host.fns fn
      descs := s.host.descs.map fun h => if waitsFor fn h then { h with phase := .ended 0 } else h } }

theorem teardownDone_eq {s : State} (fn : Fn) (htd : (fnSt s fn).teardown = .zeroing []) :
    teardownDone fn s = fnGone (downMarked (zeroTokens s fn) (R.vfStatus fn)) fn := by
  unfold teardownDone
  dsimp only
  rw [htd]
  dsimp only
  rw [List.foldl_nil, fnGone, downMarked]

/-- TEARDOWN_DONE of a function that held no cluster alone. -/
theorem teardownDone_spec {s : State} (fn : Fn) (htd : (fnSt s fn).teardown = .zeroing []) {t : State}
    (ht : t = teardownDone fn s) :
    fnState t fn = 0 ∧ flag t (R.vfStatus fn) 2 = true ∧
      (∀ c < 2, (polOf t (2 * fn.val + c)).tc = 0 ∧ (polOf t (2 * fn.val + c)).tp = 0 ∧ (shpOf t (2 * fn.val + c)).tok = 0) ∧
      sameRegs s t [R.vfStatus fn] ∧ t.comp = s.comp ∧ t.deep = s.deep := by
  obtain ⟨hstate, hflag, hregs⟩ := downMarked_spec (zeroTokens s fn) (R.vfStatus fn)
  have htok := noTokens_zeroTokens s fn
  have hframe : (downMarked (zeroTokens s fn) (R.vfStatus fn)).comp = s.comp ∧
      (downMarked (zeroTokens s fn) (R.vfStatus fn)).deep = s.deep := downMarked_frame s fn _
  have hpol (k : Nat) : polOf (downMarked (zeroTokens s fn) (R.vfStatus fn)) k = polOf (zeroTokens s fn) k := polOf_downMarked _ _ k
  have hshp (k : Nat) : shpOf (downMarked (zeroTokens s fn) (R.vfStatus fn)) k = shpOf (zeroTokens s fn) k := shpOf_downMarked _ _ k
  have hregs' : sameRegs s (downMarked (zeroTokens s fn) (R.vfStatus fn)) [R.vfStatus fn] :=
    sameRegs_trans (sameRegs_of_regs (zeroTokens_regs s fn) _) hregs
  rw [ht, teardownDone_eq fn htd]
  clear hregs
  generalize downMarked (zeroTokens s fn) (R.vfStatus fn) = w at *
  refine ⟨hstate, hflag, fun c hc => ?_, hregs', hframe⟩
  have hw : NoTokens w (2 * fn + c) := by
    rw [NoTokens, hpol, hshp]
    exact htok c hc
  exact hw

/-! ### The drain bell (R541) -/

/-- A word written to one register, and a flag set in another. -/
theorem raise_wr_spec (s : State) {off log i : Nat} (v : Nat) (hi : i < 32) (hne : off ≠ log) :
    rd (raise (wr s log v) off i) log = v % 2 ^ 32 ∧ flag (raise (wr s log v) off i) off i = true ∧
      sameRegs s (raise (wr s log v) off i) [log, off] ∧
      raise (wr s log v) off i = { s with regs := (raise (wr s log v) off i).regs } :=
  ⟨by rw [rd_raise_ne _ _ hne.symm, rd_wr_same], flag_raise_same _ _ hi,
    sameRegs_trans (sameRegs_wr s v (by simp)) (sameRegs_raise _ i (by simp)), rfl⟩

theorem logWord_fields {src arg : Nat} (hsrc : src < 65536) :
    bits ((2 ^ 31 + 2 ^ 16 * (arg % 4096) + src) % 2 ^ 32) 15 0 = src ∧
      bits ((2 ^ 31 + 2 ^ 16 * (arg % 4096) + src) % 2 ^ 32) 27 16 = arg % 4096 ∧
      bit ((2 ^ 31 + 2 ^ 16 * (arg % 4096) + src) % 2 ^ 32) 31 = true := by
  simp only [bit, bits, Nat.testBit, Nat.shiftRight_eq_div_pow, Nat.and_comm 1, Nat.and_one_is_mod]
  refine ⟨by omega, by omega, ?_⟩
  rw [bne_iff_ne]
  omega

theorem drainBell_spec {s : State} {p : Pkt} {rest : List Pkt} (hin : s.inbox = p :: rest) (htyp : p.f.typ = 6)
    (hcode : p.f.code = 8) (hsrc : p.f.src < 65536) {t : State} (ht : t = drainBell s) :
    t.inbox = rest ∧ flag t R.hstStat 2 = true ∧ getF t R.hstDlog 15 0 = p.f.src ∧ getF t R.hstDlog 27 16 = p.f.arg % 4096 ∧
      flag t R.hstDlog 31 = true ∧ t = { s with inbox := rest, regs := t.regs } ∧ sameRegs s t [R.hstDlog, R.hstStat] := by
  rw [drainBell, takeFirst_head hin (by simp [htyp, hcode])] at ht
  obtain ⟨hlog, hflag, hregs, hframe⟩ := raise_wr_spec { s with inbox := rest } (off := R.hstStat) (log := R.hstDlog) (i := 2)
    (2 ^ 31 + 2 ^ 16 * (p.f.arg % 4096) + p.f.src) (by decide) (by decide)
  obtain ⟨hsrcF, hargF, hvalid⟩ := logWord_fields (arg := p.f.arg) hsrc
  dsimp only at ht
  rw [← ht] at hlog hflag hregs hframe
  have hin' : t.inbox = rest := (congrArg State.inbox hframe :)
  exact ⟨hin', hflag, by rw [getF, hlog, hsrcF], by rw [getF, hlog, hargF], by rw [flag, hlog, hvalid], hframe, hregs⟩

end Sys2Proof.Machine

open Sys2Proof Sys2Proof.Machine

/-- Settles O26: what starts a teardown, its two steps with no cluster held, and the drain bell. -/
theorem tenantLifecycle : Obligations.TenantLifecycle := by
  refine ⟨⟨fun s fn hlock hstate hbound hdb hnum => vfEnable_spec fn hlock hstate hbound hdb hnum,
    fun s fn hlock hstate => ⟨_, rfl, vfStop_spec fn _ hlock hstate rfl⟩,
    fun s fn hlock hstate => ⟨_, rfl, vfStop_spec fn _ hlock hstate rfl⟩,
    fun s fn hstate => ⟨_, rfl, flr_spec fn hstate rfl⟩,
    fun s fn h0 hstate => ⟨_, rfl, vfEnableClear_spec fn h0 hstate rfl⟩⟩,
    fun s fn t0 hstate htd hdue hframes hheld => ?_,
    fun s fn htd => ⟨_, rfl, teardownDone_spec fn htd rfl⟩,
    fun s p rest hin htyp hcode hsrc => ⟨_, rfl, drainBell_spec hin htyp hcode hsrc rfl⟩⟩
  obtain ⟨htd', hstate', hwin, hregs, hcomp, hdeep, htally⟩ := drainEnded_spec s fn rfl
  exact ⟨_, congrArg Host.Outcome.next (teardownDrainEnd_eq hstate htd hdue hframes hheld), htd', hstate'.trans hstate, hwin, hregs,
    hcomp, hdeep, fun d _ i hi hlt _ => htally d i hi hlt⟩
end

section
/-! PROOFS. Refused host descriptors and errors of host reads (O17). -/

namespace Sys2Proof.Machine

/-! ### The checks of every OP (R526) -/

theorem headCheck_cases (fn : Nat) (b : List Byte) : headCheck fn b = 0 ∨ headCheck fn b = 4 ∨ headCheck fn b = 6 := by
  unfold headCheck
  dsimp only
  split
  · exact .inr (.inl rfl)
  split
  · exact .inr (.inr rfl)
  split
  · exact .inr (.inl rfl)
  · exact .inl rfl

/-- A command that is one row of the descriptors: it starts the named descriptor, or is an HCOPY, which may go on too. -/
def IsRow (r : DescRef) (c : Instr) (row : HRow) : Prop :=
  (∃ body, ∀ s, exec c s = .next (startDesc row r body s)) ∨ (row = .hcopy ∧ ∃ data, c = .hcopy r data Upsets.none)

theorem isRow_of_mem {r : DescRef} {data : List Byte} :
    ∀ p ∈ [(Instr.hostNop r, HRow.nop), (.launch r, .launch), (.hcopy r data Upsets.none, .hcopy), (.rread r, .rread),
      (.ratomic r, .ratomic), (.msend r data, .msend), (.fctlEnable r, .fctlEnable), (.fctlDisable r, .fctlDisable),
      (.fctlReset r, .fctlReset), (.fbind r, .fbind), (.clownAssign r, .clownAssign), (.clownRelease r, .clownRelease),
      (.granAssign r, .granAssign), (.granRelease r, .granRelease), (.setreg r, .setreg), (.tblwr r data, .tblwr),
      (.tblrd r, .tblrd), (.winLoad r, .winLoad), (.winRemove r, .winRemove), (.winReadRecord r, .winRead),
      (.winReadClear r, .winClear), (.cirOpen r, .cirOpen), (.cirClose r, .cirClose)], IsRow r p.1 p.2 := by
  have hstart {c : Instr} {row : HRow} (body : HostDesc → State → State) (h : ∀ s, exec c s = .next (startDesc row r body s)) :
      IsRow r c row := .inl ⟨body, h⟩
  simp only [List.forall_mem_cons]
  exact ⟨hstart _ fun _ => rfl, hstart _ fun _ => rfl, .inr ⟨rfl, data, rfl⟩, hstart _ fun _ => rfl, hstart _ fun _ => rfl,
    hstart _ fun _ => rfl, hstart _ fun _ => rfl, hstart _ fun _ => rfl, hstart _ fun _ => rfl, hstart _ fun _ => rfl,
    hstart _ fun _ => rfl, hstart _ fun _ => rfl, hstart _ fun _ => rfl, hstart _ fun _ => rfl, hstart _ fun _ => rfl,
    hstart _ fun _ => rfl, hstart _ fun _ => rfl, hstart _ fun _ => rfl, hstart _ fun _ => rfl, hstart _ fun _ => rfl,
    hstart _ fun _ => rfl, hstart _ fun _ => rfl, hstart _ fun _ => rfl, by simp⟩

theorem startDesc_refused {s : State} {r : DescRef} {h : HostDesc} {row : HRow} (body : HostDesc → State → State)
    (hd : descOf s r = some h) (hrow : rowOf h.bytes = row) (hmay : mayStart s h = true) (hhead : headCheck h.fn h.bytes ≠ 0) :
    startDesc row r body s = endDesc s r (headCheck h.fn h.bytes) := by
  simp [startDesc, hd, hrow, hmay, hhead]

theorem not_working_of_mayStart {s : State} {h : HostDesc} (hmay : mayStart s h = true) : h.phase ≠ .working := by
  intro hw
  simp [mayStart, hw] at hmay

theorem exec_hcopy (r : DescRef) (data : List Byte) (s : State) :
    exec (.hcopy r data Upsets.none) s = .next (unstruck (hcopy r data (unstruck s))) := rfl

/-- What a refused descriptor's row does: the descriptor ends with the refusal's status. -/
theorem exec_refused {s : State} {r : DescRef} {h : HostDesc} {c : Instr} {row : HRow} (hc : IsRow r c row)
    (hd : descOf s r = some h) (hrow : rowOf h.bytes = row) (hmay : mayStart s h = true) (hhead : headCheck h.fn h.bytes ≠ 0) :
    ∃ ups, exec c s = .next { endDesc s r (headCheck h.fn h.bytes) with ups := ups } := by
  rcases hc with ⟨body, hbody⟩ | ⟨rfl, data, rfl⟩
  · exact ⟨s.ups, (hbody s).trans (congrArg Host.Outcome.next (startDesc_refused body hd hrow hmay hhead))⟩
  · have hd' : descOf (unstruck s) r = some h := hd
    have hcopy : hcopy r data (unstruck s) = endDesc (unstruck s) r (headCheck h.fn h.bytes) := by
      rw [hcopy, hd']
      dsimp only
      rw [if_neg fun hw => not_working_of_mayStart hmay hw.1, startDesc_refused _ hd' hrow hmay hhead]
    exact ⟨_, by rw [exec_hcopy, hcopy]; rfl⟩

theorem keepsName_ended (st : Nat) : keepsName fun h => { h with phase := .ended st } := fun _ _ => rfl

/-! ### Reads of host memory that end in an error (R511) -/

theorem aer_reportAer (s : State) (fn : Nat) :
    SMap.getD (reportAer s fn).host.aer fn 0 = SMap.getD s.host.aer fn 0 + 1 :=
  (SMap.getD_setD_same s.host.aer fn 0 (SMap.getD s.host.aer fn 0 + 1) :)

theorem pollError_spec {s : State} {fn : Fn} (hdue : pollDue s fn = true) {t : State} (ht : t = pollError fn false s) :
    t.out = s.out ++ [.aer fn] ∧ SMap.getD t.host.aer fn 0 = SMap.getD s.host.aer fn 0 + 1 ∧
      (fnSt t fn).gen = (fnSt s fn).gen ∧ (fnSt t fn).sqts = (fnSt s fn).sqts ∧ (fnSt t fn).rings = (fnSt s fn).rings ∧
      t.host.descs = s.host.descs ∧ sameRegs s t [R.hstCntPoll] := by
  have hval : t = reportAer (setFn (bump (hasRead s) R.hstCntPoll 1) fn { fnSt s fn with
      interval := nextInterval s fn, due := s.time.lamp + nextInterval s fn }) fn := by
    rw [ht, pollError, hdue]
    rfl
  generalize R.hstCntPoll = off at hval ⊢
  have hfn : fnSt t fn = { fnSt s fn with interval := nextInterval s fn, due := s.time.lamp + nextInterval s fn } := by
    rw [hval]
    exact fnSt_setFn_same _ _ _
  subst hval
  exact ⟨rfl, aer_reportAer _ _, by rw [hfn], by rw [hfn], by rw [hfn], rfl,
    sameRegs_bump (hasRead s) 1 List.mem_cons_self⟩

theorem descError_spec {s : State} {r : DescRef} {h : HostDesc} (hd : descOf s r = some h) {t : State}
    (ht : t = reportAer (endDesc s r 9) h.fn) :
    endedWith s t r 9 ∧ t.out = s.out ++ [.aer h.fn] ∧ SMap.getD t.host.aer h.fn 0 = SMap.getD s.host.aer h.fn 0 + 1 ∧
      t.regs = s.regs ∧ t.comp = s.comp ∧ t.deep = s.deep ∧ t.rem = s.rem ∧ t.outbox = s.outbox := by
  have hend : endedWith s (endDesc s r 9) r 9 := endedWith_endDesc hd fun _ _ => rfl
  subst ht
  exact ⟨hend, rfl, aer_reportAer _ _, rfl, rfl, rfl, rfl, rfl⟩

end Sys2Proof.Machine

open Sys2Proof Sys2Proof.Machine

/-- Settles O17: every row starts its descriptor through the same checks, and an access error reports itself. -/
theorem descriptorRefusals : Obligations.DescriptorRefusals := by
  refine ⟨fun s r h data c row hmem hd hrow hmay hhead => ?_, fun s fn hdue => ⟨_, rfl, pollError_spec hdue rfl⟩,
    fun s r h hd hreads => ⟨_, ?_, descError_spec hd rfl⟩⟩
  · obtain ⟨ups, hexec⟩ := exec_refused (isRow_of_mem (c, row) hmem) hd hrow hmay hhead
    exact ⟨_, hexec, (headCheck_cases _ _).resolve_left hhead, descOf_updDesc_same (keepsName_ended _) hd, sameDescs_updDesc (keepsName_ended _),
      rfl⟩
  · rw [exec, execHostAccessError, accessError, hd]
    dsimp only
    rw [if_pos hreads]
end

section
/-! PROOFS. NOP and LAUNCH descriptors (O19). -/

namespace Sys2Proof.Machine

/-! ### One core's list is launched (R528) -/

/-- The list that a LAUNCH puts on a core's queue. -/
def listFor (r : DescRef) (fn addr : Nat) (s : State) : Launch :=
  ⟨s.nextId, fn, addr, (r.fn.val, r.ring.val, r.idx.toNat), nowNs s⟩

/-- The state after a launch on one core, but for its descriptor. -/
def listQueued (r : DescRef) (fn g addr : Nat) (s : State) (c : Nat) : State :=
  setSeq { s with nextId := s.nextId + 1 } (64 * g + c) fn
    { seqOf s (64 * g + c) fn with queue := (seqOf s (64 * g + c) fn).queue ++ [listFor r fn addr s] }

/-- A descriptor that waits for one more list. -/
def withList (core id : Nat) (h : HostDesc) : HostDesc := { h with lists := h.lists ++ [⟨core, id, none, 0xFFFF, FpFlags.none⟩] }

theorem launchOn_eq (r : DescRef) (fn g addr : Nat) (s : State) (c : Nat) :
    launchOn r fn g addr s c = updDesc (listQueued r fn g addr s c) r (withList (64 * g + c) s.nextId) := rfl

theorem queue_launchOn_same (r : DescRef) (fn g addr : Nat) (s : State) (c : Nat) :
    (seqOf (launchOn r fn g addr s c) (64 * g + c) fn).queue = (seqOf s (64 * g + c) fn).queue ++ [listFor r fn addr s] := by
  have hseq : seqOf (launchOn r fn g addr s c) (64 * g + c) fn = seqOf (listQueued r fn g addr s c) (64 * g + c) fn := rfl
  rw [hseq, listQueued, seqOf_setSeq_same]

theorem queue_launchOn_ne (r : DescRef) (fn g addr : Nat) (s : State) {c k : Nat} (h : k ≠ c) :
    (seqOf (launchOn r fn g addr s c) (64 * g + k) fn).queue = (seqOf s (64 * g + k) fn).queue := by
  have hseq : seqOf (launchOn r fn g addr s c) (64 * g + k) fn = seqOf (listQueued r fn g addr s c) (64 * g + k) fn := rfl
  rw [hseq, listQueued, seqOf_setSeq_ne _ _ (.inl (by omega))]
  rfl

/-- The lists that a LAUNCH has put on a core's queue: one on a core that it names, with its function, address and name. -/
def Launched (r : DescRef) (fn addr : Nat) (named : Bool) (more : List Launch) : Prop :=
  more.length = b2n named ∧ ∀ x ∈ more, x.fn = fn ∧ x.addr = addr ∧ x.host = (r.fn.val, r.ring.val, r.idx.toNat)

theorem queue_foldl_launchOn (r : DescRef) (fn g addr k : Nat) {l : List Nat} (hl : l.Nodup) (s : State) :
    ∃ more, (seqOf (l.foldl (launchOn r fn g addr) s) (64 * g + k) fn).queue = (seqOf s (64 * g + k) fn).queue ++ more ∧
      Launched r fn addr (decide (k ∈ l)) more := by
  induction l generalizing s with
  | nil => exact ⟨[], by simp, by simp [Launched, b2n]⟩
  | cons c l ih =>
    obtain ⟨hc, hnodup⟩ := List.nodup_cons.1 hl
    obtain ⟨more, hqueue, hmore⟩ := ih hnodup (launchOn r fn g addr s c)
    rw [List.foldl_cons, hqueue]
    by_cases hk : k = c
    · subst hk
      have hnil : more = [] := by simpa [Launched, hc, b2n] using hmore.1
      refine ⟨[listFor r fn addr s], by rw [queue_launchOn_same, hnil, List.append_nil], by simp [b2n], fun x hx => ?_⟩
      rw [List.mem_singleton.1 hx]
      exact ⟨rfl, rfl, rfl⟩
    · refine ⟨more, by rw [queue_launchOn_ne _ _ _ _ _ hk], ?_⟩
      have hmem : decide (k ∈ c :: l) = decide (k ∈ l) := by simp [hk]
      rwa [hmem]

/-- The parts of the state that a launch leaves as they are. -/
def State.unlaunched (s : State) : List (Nat × Nat) × SMap Byte × DeepSt × RemoteSt × List Pkt :=
  (s.regs, s.comp.store, s.deep, s.rem, s.outbox)

theorem launchOn_unlaunched (r : DescRef) (fn g addr : Nat) (s : State) (c : Nat) :
    (launchOn r fn g addr s c).unlaunched = s.unlaunched := rfl

theorem worksOn_workDesc {s : State} {r : DescRef} {h : HostDesc} (hd : descOf s r = some h) : worksOn s (workDesc s r) r := by
  have hname : keepsName fun h => { h with phase := .working } := fun _ _ => rfl
  exact ⟨⟨_, descOf_updDesc_same hname hd, rfl⟩, sameDescs_updDesc hname⟩

theorem worksOn_launchOn {s u : State} {r : DescRef} {fn g addr : Nat} (c : Nat) (hw : worksOn s u r) :
    worksOn s (launchOn r fn g addr u c) r := by
  obtain ⟨⟨h, hd, hphase⟩, hsame⟩ := hw
  have hname : keepsName (withList (64 * g + c) u.nextId) := fun _ _ => rfl
  have hd' : descOf (listQueued r fn g addr u c) r = some h := hd
  rw [launchOn_eq]
  exact ⟨⟨_, descOf_updDesc_same hname hd', hphase⟩, fun q hq => (sameDescs_updDesc hname q hq).trans (hsame q hq)⟩

/-! ### The cores that a LAUNCH names -/

theorem mem_maskCores {m c : Nat} : c ∈ maskCores m ↔ c < 64 ∧ bit m c = true := by
  simp [maskCores]

theorem nodup_maskCores (m : Nat) : (maskCores m).Nodup := List.nodup_range.filter _

theorem maskCores_ne_nil {m : Nat} (h0 : m ≠ 0) (hlt : m < 2 ^ 64) : maskCores m ≠ [] := by
  obtain ⟨i, hi⟩ := Nat.exists_testBit_of_ne_zero h0
  have hi64 : i < 64 := by
    by_contra hge
    have hpow : 2 ^ 64 ≤ 2 ^ i := Nat.pow_le_pow_right (by decide) (not_lt.1 hge)
    rw [Nat.testBit_lt_two_pow (hlt.trans_le hpow)] at hi
    exact absurd hi (by decide)
  exact List.ne_nil_of_mem (mem_maskCores.2 ⟨hi64, hi⟩)

/-- What a wake changes: the islands' states. -/
theorem wakeIsl_eq (s : State) (g : Nat) : wakeIsl s g = { s with power := (wakeIsl s g).power } := by
  unfold wakeIsl
  split <;> rfl

theorem launchBody_eq {s : State} {r : DescRef} {h : HostDesc} (hchk : launchCheck s h.fn h.bytes = 0)
    (hmask : leAt h.bytes 24 8 ≠ 0) :
    launchBody r h s = wakeIsl ((maskCores (leAt h.bytes 24 8)).foldl
      (launchOn r h.fn (160 * byteAt h.bytes 16 + byteAt h.bytes 17) (leAt h.bytes 20 4)) (workDesc s r))
        (160 * byteAt h.bytes 16 + byteAt h.bytes 17) := by
  have hne : maskCores (leAt h.bytes 24 8) ≠ [] := maskCores_ne_nil hmask ((leAt_lt h.bytes 24 8).trans_eq (by norm_num))
  unfold launchBody
  dsimp only
  rw [hchk, if_neg (by simp [hne])]

theorem launch_spec {s : State} {r : DescRef} {h : HostDesc} {g addr m : Nat} (hd : descOf s r = some h) {t : State}
    (ht : t = wakeIsl ((maskCores m).foldl (launchOn r h.fn g addr) (workDesc s r)) g) :
    worksOn s t r ∧
      (∀ c < 64, (seqOf t (64 * g + c) h.fn).queue.length = (seqOf s (64 * g + c) h.fn).queue.length + b2n (bit m c)) ∧
      (∀ c < 64, bit m c = true → ∃ l, (seqOf t (64 * g + c) h.fn).queue.getLast? = some l ∧
        l.fn = h.fn ∧ l.addr = addr ∧ l.host = (r.fn.val, r.ring.val, r.idx.toNat)) ∧
      t.regs = s.regs ∧ t.comp.store = s.comp.store ∧ t.deep = s.deep ∧ t.rem = s.rem ∧ t.outbox = s.outbox := by
  have hworks : worksOn s ((maskCores m).foldl (launchOn r h.fn g addr) (workDesc s r)) r :=
    foldl_preserves (P := fun u => worksOn s u r) (fun _ c hw => worksOn_launchOn c hw) _ (worksOn_workDesc hd)
  have hqueue (k : Nat) := queue_foldl_launchOn r h.fn g addr k (nodup_maskCores m) (workDesc s r)
  have hparts : _ = (workDesc s r).unlaunched :=
    foldl_keeps State.unlaunched (fun u c (_ : c ∈ maskCores m) => launchOn_unlaunched r h.fn g addr u c) (workDesc s r)
  generalize (maskCores m).foldl (launchOn r h.fn g addr) (workDesc s r) = u at *
  rw [wakeIsl_eq] at ht
  subst ht
  obtain ⟨hregs, hstore, hdeep, hrem, hout⟩ := by simpa only [State.unlaunched, Prod.mk.injEq] using hparts
  have hnamed {c : Nat} (hc : c < 64) : decide (c ∈ maskCores m) = bit m c := by simp [mem_maskCores, hc]
  refine ⟨hworks, fun c hc => ?_, fun c hc hbit => ?_, hregs, hstore, hdeep, hrem, hout⟩
  · obtain ⟨more, hmore, hlen, -⟩ := hqueue c
    refine (congrArg List.length hmore).trans ?_
    rw [List.length_append, hlen, hnamed hc]
    rfl
  · obtain ⟨more, hmore, hlen, hfields⟩ := hqueue c
    rw [hnamed hc, hbit] at hlen
    obtain ⟨l, rfl⟩ := List.length_eq_one_iff.1 hlen
    exact ⟨l, (congrArg List.getLast? hmore).trans List.getLast?_concat, hfields l List.mem_cons_self⟩

end Sys2Proof.Machine

open Sys2Proof Sys2Proof.Machine

/-- Settles O19: a LAUNCH goes through the cores it names, each of which gets one list at the end of its queue. -/
theorem nopAndLaunch : Obligations.NopAndLaunch := by
  refine ⟨fun s r h hst => ?_, fun s r h hst hchk hmask => ?_⟩
  · exact ⟨_, congrArg Host.Outcome.next (startDesc_of_startable hst), endedWith_of_host hst rfl, rfl⟩
  · obtain ⟨hd, -⟩ := id hst
    have hbody : launchBody r h s = _ := launchBody_eq hchk hmask
    exact ⟨_, congrArg Host.Outcome.next ((startDesc_of_startable hst).trans hbody), launch_spec hd rfl⟩
end

section
/-! PROOFS. HCOPY descriptors (O20). -/

namespace Sys2Proof.Machine

/-! ### A copy's turn (R516) -/

/-- A descriptor that works. -/
def copying (h : HostDesc) : HostDesc := { h with phase := .working }

/-- The state in which a copy moves its next bytes: its descriptor works, and it is its function's turn. -/
structure CopyReady (s u : State) (r : DescRef) (h : HostDesc) : Prop where
  desc : descOf u r = some (copying h)
  same : sameDescs s u r
  turn : hostTurn u h.fn = true
  state : u = { s with host := { s.host with descs := u.host.descs }, ups := Upsets.none }

theorem fn_of_isDesc {r : DescRef} {h : HostDesc} (hr : isDesc r h = true) : h.fn = r.fn := by
  simp only [isDesc, Bool.and_eq_true, beq_iff_eq] at hr
  exact hr.1.1

theorem length_ringDescs_workDesc (s : State) (r : DescRef) (fn ring : Nat) :
    (ringDescs (workDesc s r) fn ring).length = (ringDescs s fn ring).length := by
  have hkeep : ((fun h : HostDesc => h.fn == fn && h.ring == ring) ∘ fun h => if isDesc r h then copying h else h) =
      fun h => h.fn == fn && h.ring == ring := by
    funext h
    simp only [Function.comp]
    split <;> rfl
  have hmap : ringDescs (workDesc s r) fn ring = _ := List.filter_map
  rw [hmap]
  refine (List.length_map _).trans ?_
  exact congrArg (fun p => (s.host.descs.filter p).length) hkeep

theorem fetchable_workDesc (s : State) (r : DescRef) (fn k : Nat) (x : Ring) (n : Nat) :
    fetchable (workDesc s r) fn k x n = fetchable s fn k x n := by
  simp only [fetchable, cqRoom, length_ringDescs_workDesc]

theorem wantsHost_workDesc_ne (s : State) {r : DescRef} {fn : Nat} (hne : fn ≠ r.fn) :
    wantsHost (workDesc s r) fn = wantsHost s fn := by
  have hring (k : Nat) : ringOf (workDesc s r) fn k = ringOf s fn k := rfl
  have hasleep (h : HostDesc) : copyAsleep (workDesc s r) h = copyAsleep s h := rfl
  have hdescs : (workDesc s r).host.descs = s.host.descs.map fun h => if isDesc r h then copying h else h := rfl
  unfold wantsHost
  rw [fnState_workDesc, hdescs, List.any_map]
  congr 1
  · simp only [hring, fetchable_workDesc]
  · congr 1
    funext h
    simp only [Function.comp, hasleep]
    by_cases hr : isDesc r h = true
    · have hfn : h.fn ≠ fn := fun he => hne (he.symm.trans (fn_of_isDesc hr))
      have hfn' : (copying h).fn ≠ fn := hfn
      rw [if_pos hr, beq_false_of_ne hfn, beq_false_of_ne hfn']
      rfl
    · rw [if_neg hr]

theorem hostTurn_workDesc {s : State} {r : DescRef} (hturn : hostTurn s r.fn = true) : hostTurn (workDesc s r) r.fn = true := by
  rw [hostTurn, List.all_eq_true] at hturn ⊢
  intro o ho
  by_cases hne : o.1 = r.fn
  · simp [hne]
  · rw [wantsHost_workDesc_ne s hne]
    exact hturn o ho

theorem copying_of_working {h : HostDesc} (hw : h.phase = .working) : copying h = h := by
  cases h
  simp_all [copying]

/-- An HCOPY that may move bytes moves them in such a state. -/
theorem hcopy_of_copyGoes {s : State} {r : DescRef} {h : HostDesc} (hgo : copyGoes s r h) (data : List Byte) :
    ∃ u, CopyReady s u r h ∧ hcopy r data (unstruck s) = copyTurn r data (copying h) u := by
  obtain ⟨hd, hrow, hturn, hphase⟩ := hgo
  have hd' : descOf (unstruck s) r = some h := hd
  rcases hphase with hw | ⟨hmay, hhead, hchk⟩
  · refine ⟨unstruck s, ⟨by rw [copying_of_working hw, hd'], fun _ _ => rfl, hturn, rfl⟩, ?_⟩
    rw [hcopy, hd']
    dsimp only
    rw [if_pos ⟨hw, hrow⟩, copying_of_working hw]
  · have hname : keepsName copying := fun _ _ => rfl
    have hst : startable (unstruck s) r h .hcopy := ⟨hd, hrow, hmay, hhead⟩
    have hfn : h.fn = r.fn := fn_of_isDesc (List.find?_some hd)
    refine ⟨workDesc (unstruck s) r, ⟨descOf_updDesc_same hname hd', sameDescs_updDesc hname, ?_, rfl⟩, ?_⟩
    · rw [hfn] at hturn ⊢
      exact hostTurn_workDesc (s := unstruck s) hturn
    · have hchk' : copyCheck (unstruck s) h.fn h.bytes = 0 := hchk
      rw [hcopy, hd']
      dsimp only
      rw [if_neg fun hw => not_working_of_mayStart hmay hw.1, startDesc_of_startable hst, hcopyBody, hchk']
      rfl

/-! ### The end of a turn -/

theorem copyMoved_eq (r : DescRef) (h : HostDesc) (v : State) :
    copyMoved r h v = { v with host := { v.host with descs := (copyMoved r h v).host.descs } } := by
  unfold copyMoved
  split <;> rfl

/-- A descriptor as a turn that moved its next bytes leaves it. -/
def copyStepped (h : HostDesc) : HostDesc :=
  if lastTurn h then { h with phase := .ended 0 } else { h with phase := .working, moved := h.moved + turnBytes h }

theorem copyMoved_updDesc (r : DescRef) (h : HostDesc) (v : State) :
    ∃ f, keepsName f ∧ f (copying h) = copyStepped h ∧ copyMoved r (copying h) v = updDesc v r f := by
  have hlast : lastTurn (copying h) = lastTurn h := rfl
  unfold copyMoved copyStepped
  rw [hlast]
  cases hl : lastTurn h with
  | true => exact ⟨fun g => { g with phase := .ended 0 }, fun _ _ => rfl, rfl, rfl⟩
  | false => exact ⟨fun g => { g with moved := h.moved + turnBytes h }, fun _ _ => rfl, rfl, rfl⟩

theorem copyWent_copyMoved {s v : State} {r : DescRef} {h : HostDesc} (hd : descOf v r = some (copying h))
    (hs : sameDescs s v r) : copyWent s (unstruck (copyMoved r (copying h) v)) r h := by
  obtain ⟨f, hname, hf, hmove⟩ := copyMoved_updDesc r h v
  rw [hmove]
  exact ⟨(descOf_updDesc_same hname hd).trans (congrArg some hf), fun q hq => (sameDescs_updDesc hname q hq).trans (hs q hq)⟩

/-- The state with a copy's tally counted, where this was its last turn. -/
def copyTallied (h : HostDesc) (w : State) : State :=
  if leAt h.bytes 18 2 = 0xFFFF ∨ !lastTurn h then w else tallyAdd w h.fn (byteAt h.bytes 17) (leAt h.bytes 18 2) 1

theorem copyTallied_frame (h : HostDesc) (w : State) : copyTallied h w = { w with rem := (copyTallied h w).rem } := by
  unfold copyTallied
  split
  · rfl
  · unfold tallyAdd
    split <;> rfl

/-- A turn of a copy to the device that meets no line in error. -/
theorem copyTurn_in {r : DescRef} {data : List Byte} {h : HostDesc} {u w : State} (hawake : copyAsleep u h = false)
    (hturn : hostTurn u h.fn = true) (hdir : byteAt h.bytes 16 = 0) (hlen : data.length = turnBytes h)
    (hstore : storeTarget (served u h.fn) (turnTarget h) data = (w, false)) :
    copyTurn r data h u = copyMoved r h (copyTallied h w) := by
  have hturned : (!hostTurn u h.fn) = false := by rw [hturn]; rfl
  unfold copyTurn
  dsimp only
  rw [hawake, hturned, if_neg (by decide), if_neg (by decide), if_neg (by omega), if_neg (not_not.2 hlen), copyIn, hstore]
  rfl

/-- A turn of a copy to the host that meets no error. -/
theorem copyTurn_out {r : DescRef} {data bs : List Byte} {h : HostDesc} {u w : State} (hawake : copyAsleep u h = false)
    (hturn : hostTurn u h.fn = true) (hdir : byteAt h.bytes 16 = 1)
    (hread : readTarget (served u h.fn) (turnTarget h) (turnBytes h) = (w, bs, false)) :
    copyTurn r data h u = copyMoved r h (hostWrite w h.fn (leAt h.bytes 32 8 + h.moved) bs) := by
  have hturned : (!hostTurn u h.fn) = false := by rw [hturn]; rfl
  unfold copyTurn
  dsimp only
  rw [hawake, hturned, if_neg (by decide), if_neg (by decide), if_pos hdir, copyOut, hread]
  rfl

/-! ### Targets -/

theorem turnTarget_deep {h : HostDesc} (hsp : space (leAt h.bytes 24 8) = 2) :
    (turnTarget h).deep = true ∧ (turnTarget h).addr = bits (leAt h.bytes 24 8) 40 0 + h.moved := by
  simp [turnTarget, copyTarget, hsp]

theorem copyAsleep_deep (u : State) {h : HostDesc} (hsp : space (leAt h.bytes 24 8) = 2) : copyAsleep u h = false := by
  simp [copyAsleep, copyTarget, hsp]

theorem turnTarget_cluster {h : HostDesc} (hsp : space (leAt h.bytes 24 8) = 1) :
    turnTarget h = ⟨0, false, leAt h.bytes 24 8 % 2 ^ 32 + h.moved, byteAt h.bytes 17, [bits (leAt h.bytes 24 8) 39 32], h.fn⟩ := by
  simp [turnTarget, copyTarget, hsp]

theorem copyAsleep_cluster (u : State) {h : HostDesc} (hsp : space (leAt h.bytes 24 8) = 1) :
    copyAsleep u h = dozing u (160 * byteAt h.bytes 17 + bits (leAt h.bytes 24 8) 39 32) := by
  simp [copyAsleep, copyTarget, hsp]

theorem leNat_take (bs : List Byte) (n : Nat) : leNat (bs.take n) = leNat bs % 256 ^ n := by
  induction n generalizing bs with
  | zero => simp [leNat, Nat.mod_one]
  | succ n ih =>
    cases bs with
    | nil => simp [leNat]
    | cons b bs =>
      have hb : b.toNat < 256 := b.isLt
      have hquot : (b.toNat + 256 * leNat bs) / 256 = leNat bs := by omega
      have hrem : (b.toNat + 256 * leNat bs) % 256 = b.toNat := by omega
      rw [List.take_succ_cons, leNat, leNat, ih, Nat.pow_succ', Nat.mod_mul, hquot, hrem]

/-- The low word of an address. -/
theorem leAt_low (bs : List Byte) (i : Nat) : leAt bs i 8 % 2 ^ 32 = leAt bs i 4 := by
  rw [leAt, leAt, leNat_take, leNat_take, Nat.mod_mod_of_dvd _ (by decide)]
  rfl

/-! ### HCOPY -/

/-- The state that a turn of a copy to the device leaves, where its bytes were stored with no line in error. -/
theorem copiedIn_spec {s u w : State} {r : DescRef} {h : HostDesc} (hu : CopyReady s u r h) (hhost : w.host = (served u h.fn).host)
    (hregs : w.regs = s.regs) (hrem : w.rem = s.rem) {t : State}
    (ht : t = unstruck (copyMoved r (copying h) (copyTallied (copying h) w))) :
    copyWent s t r h ∧ t.comp = w.comp ∧ t.deep = w.deep ∧ t.regs = s.regs ∧ (lastTurn h = false → t.rem = s.rem) ∧
      (lastTurn h = true → leAt h.bytes 18 2 ≠ 0xFFFF → leAt h.bytes 18 2 < (tallyRange s h.fn (byteAt h.bytes 17)).2 →
        tallyCount t h.fn (byteAt h.bytes 17) (leAt h.bytes 18 2) =
          (tallyCount s h.fn (byteAt h.bytes 17) (leAt h.bytes 18 2) + 1) % 2 ^ 32) := by
  have hframe := copyTallied_frame (copying h) w
  have hdesc (q : DescRef) : descOf (copyTallied (copying h) w) q = descOf u q := by
    rw [hframe, descOf]
    exact congrArg (fun x => x.descs.find? (isDesc q)) hhost
  have hwent := copyWent_copyMoved ((hdesc r).trans hu.desc) fun q hq => (hdesc q).trans (hu.same q hq)
  have hrange (fn d : Nat) : tallyRange w fn d = tallyRange s fn d := by simp only [tallyRange, getF, rd, hregs]
  have hcount (fn d i : Nat) : tallyCount w fn d i = tallyCount s fn d i := by simp only [tallyCount, hrange, hrem]
  have hmoved := copyMoved_eq r (copying h) (copyTallied (copying h) w)
  rw [← ht] at hwent
  have hregs' : t.regs = w.regs := by rw [ht, hmoved, hframe]; rfl
  have hrem' : t.rem = (copyTallied (copying h) w).rem := by rw [ht, hmoved]; rfl
  refine ⟨hwent, by rw [ht, hmoved, hframe]; rfl, by rw [ht, hmoved, hframe]; rfl, hregs'.trans hregs, fun hl => ?_, fun hl hno hlt => ?_⟩
  · have hno : copyTallied (copying h) w = w := if_pos (.inr (by rw [show lastTurn (copying h) = lastTurn h from rfl, hl]; rfl))
    rw [hrem', hno, hrem]
  · have hlast : lastTurn (copying h) = true := hl
    have hadd : copyTallied (copying h) w = tallyAdd w h.fn (byteAt h.bytes 17) (leAt h.bytes 18 2) 1 :=
      if_neg (by rw [hlast]; simpa [copying] using hno)
    have hregs'' : t.regs = (tallyAdd w h.fn (byteAt h.bytes 17) (leAt h.bytes 18 2) 1).regs := by
      rw [hregs', tallyAdd_eq]
    rw [tallyCount_congr _ _ _ hregs'' (hrem'.trans (congrArg State.rem hadd)), ← hcount]
    exact tallyCount_tallyAdd_same w _ _ _ 1 (by rwa [hrange])

theorem hcopy_deep {s : State} {r : DescRef} {h : HostDesc} {data : List Byte} {a : Nat} (hgo : copyGoes s r h)
    (hdir : byteAt h.bytes 16 = 0) (hsp : space (leAt h.bytes 24 8) = 2) (ha : a = bits (leAt h.bytes 24 8) 40 0 + h.moved)
    (hlen : data.length = turnBytes h) :
    ∃ t : State, exec (.hcopy r data Upsets.none) s = .next t ∧ copyWent s t r h ∧ readDeep t a data.length = data ∧
      (∀ x, x < a ∨ a + data.length ≤ x → memRead t.deep.mem x = memRead s.deep.mem x) ∧
      t.comp = s.comp ∧ t.regs = s.regs ∧ (lastTurn h = false → t.rem = s.rem) ∧
      (lastTurn h = true → leAt h.bytes 18 2 ≠ 0xFFFF → leAt h.bytes 18 2 < (tallyRange s h.fn (byteAt h.bytes 17)).2 →
        tallyCount t h.fn (byteAt h.bytes 17) (leAt h.bytes 18 2) =
          (tallyCount s h.fn (byteAt h.bytes 17) (leAt h.bytes 18 2) + 1) % 2 ^ 32) := by
  obtain ⟨u, hu, hcopy⟩ := hcopy_of_copyGoes hgo data
  obtain ⟨hdeepT, haddr⟩ := turnTarget_deep (h := copying h) hsp
  have hstore : storeTarget (served u h.fn) (turnTarget (copying h)) data = (writeDeep (served u h.fn) a data, false) := by
    rw [storeTarget, if_pos hdeepT, haddr, ha]
    rfl
  have hturn := copyTurn_in (r := r) (h := copying h) (copyAsleep_deep u hsp) hu.turn hdir hlen hstore
  obtain ⟨hwent, hcomp, hdeep, hrest⟩ := copiedIn_spec hu (w := writeDeep (served u h.fn) a data) rfl
    (by rw [hu.state]; rfl) (by rw [hu.state]; rfl) rfl
  have hmem : (unstruck (copyMoved r (copying h) (copyTallied (copying h) (writeDeep (served u h.fn) a data)))).deep.mem =
      memWriteN s.deep.mem a data := by
    rw [hdeep, hu.state]
    rfl
  refine ⟨_, by rw [exec_hcopy, hcopy, hturn], hwent, ?_, fun x hx => ?_, ?_, hrest⟩
  · rw [readDeep, hmem]
    exact memReadN_stored _ _ rfl
  · rw [hmem, memRead_memWriteN_out _ _ hx]
  · rw [hcomp, hu.state]
    rfl

theorem hcopy_cluster {s : State} {r : DescRef} {h : HostDesc} {data : List Byte} {g a : Nat} (hgo : copyGoes s r h)
    (hno : noUe s) (hdir : byteAt h.bytes 16 = 0) (hsp : space (leAt h.bytes 24 8) = 1)
    (hg : g = 160 * byteAt h.bytes 17 + bits (leAt h.bytes 24 8) 39 32) (hawake : dozing s g = false)
    (hslot : slotOf s g h.fn = some (resSlot s g)) (hswitch : (slotSt s g).switch = none) (ha : a = leAt h.bytes 24 4 + h.moved)
    (hlen : data.length = turnBytes h) :
    ∃ t : State, exec (.hcopy r data Upsets.none) s = .next t ∧ copyWent s t r h ∧ readStore t g a data.length = data ∧
      (∀ x, x < storeKey g a ∨ storeKey g a + data.length ≤ x → memRead t.comp.store x = memRead s.comp.store x) ∧
      t.deep = s.deep ∧ t.regs = s.regs := by
  obtain ⟨u, hu, hcopy⟩ := hcopy_of_copyGoes hgo data
  have hquiet : Quiet (served u h.fn) := ⟨by rw [hu.state]; exact hno, by rw [hu.state]; rfl⟩
  have hlive (x : Nat) : isLive (served u h.fn) g h.fn x = true := by
    have hs : isLive (served u h.fn) g h.fn x = isLive s g h.fn x := by rw [hu.state]; rfl
    rw [hs, isLive, hslot]
    dsimp only
    rw [hswitch]
    exact beq_self_eq_true _
  have hstore : storeTarget (served u h.fn) (turnTarget (copying h)) data =
      (storeBytes (served u h.fn) (storeKey g a) data, false) := by
    have htgt := turnTarget_cluster (h := copying h) hsp
    have hput := hquiet.putPlace_eq hlive a data
    rw [htgt, storeTarget, if_neg Bool.false_ne_true]
    dsimp only
    rw [leAt_low]
    rw [hg, ha] at hput
    rw [hg, ha]
    exact hput
  have hasleep : copyAsleep u (copying h) = false := by
    have hd : dozing u g = dozing s g := by rw [hu.state]; rfl
    rw [copyAsleep_cluster u (h := copying h) hsp]
    rw [hg] at hd hawake
    exact hd.trans hawake
  have hturn := copyTurn_in (r := r) (h := copying h) hasleep hu.turn hdir hlen hstore
  obtain ⟨hwent, hcomp, hdeep, hregs, -⟩ := copiedIn_spec hu (w := storeBytes (served u h.fn) (storeKey g a) data) rfl
    (by rw [hu.state]; rfl) (by rw [hu.state]; rfl) rfl
  have hmem : (unstruck (copyMoved r (copying h) (copyTallied (copying h)
      (storeBytes (served u h.fn) (storeKey g a) data)))).comp.store = memWriteN s.comp.store (storeKey g a) data := by
    rw [hcomp, hu.state]
    rfl
  refine ⟨_, by rw [exec_hcopy, hcopy, hturn], hwent, ?_, fun x hx => ?_, ?_, hregs⟩
  · rw [readStore, hmem]
    exact memReadN_stored _ _ rfl
  · rw [hmem, memRead_memWriteN_out _ _ hx]
  · rw [hdeep, hu.state]
    rfl

theorem hcopy_out {s : State} {r : DescRef} {h : HostDesc} {data : List Byte} (hgo : copyGoes s r h) (hno : noUe s)
    (hdir : byteAt h.bytes 16 = 1) (hsp : space (leAt h.bytes 24 8) = 2) :
    ∃ t : State, exec (.hcopy r data Upsets.none) s = .next t ∧ copyWent s t r h ∧
      t.out = s.out ++ hostTlps s h.fn (leAt h.bytes 32 8 + h.moved)
        (readDeep s (bits (leAt h.bytes 24 8) 40 0 + h.moved) (turnBytes h)) ∧
      t.comp = s.comp ∧ t.deep = s.deep ∧ t.regs = s.regs ∧ t.rem = s.rem := by
  obtain ⟨u, hu, hcopy⟩ := hcopy_of_copyGoes hgo data
  obtain ⟨hdeepT, haddr⟩ := turnTarget_deep (h := copying h) hsp
  have hquiet : Quiet (served u h.fn) := ⟨by rw [hu.state]; exact hno, by rw [hu.state]; rfl⟩
  have hread : readTarget (served u h.fn) (turnTarget (copying h)) (turnBytes (copying h)) =
      (served u h.fn, readDeep (served u h.fn) (bits (leAt h.bytes 24 8) 40 0 + h.moved) (turnBytes h), false) := by
    rw [readTarget, if_pos hdeepT, hquiet.meetDeep_eq, haddr]
    rfl
  have hturn := copyTurn_out (r := r) (data := data) (h := copying h) (copyAsleep_deep u hsp) hu.turn hdir hread
  have hmoved := copyMoved_eq r (copying h) (hostWrite (served u h.fn) h.fn (leAt h.bytes 32 8 + h.moved)
    (readDeep (served u h.fn) (bits (leAt h.bytes 24 8) 40 0 + h.moved) (turnBytes h)))
  have hwent := copyWent_copyMoved (v := hostWrite (served u h.fn) h.fn (leAt h.bytes 32 8 + h.moved)
    (readDeep (served u h.fn) (bits (leAt h.bytes 24 8) 40 0 + h.moved) (turnBytes h))) hu.desc hu.same
  refine ⟨_, by rw [exec_hcopy, hcopy, hturn]; rfl, hwent, ?_⟩
  rw [hmoved, hu.state]
  exact ⟨rfl, rfl, rfl, rfl, rfl⟩

end Sys2Proof.Machine

open Sys2Proof Sys2Proof.Machine

/-- Settles O20: a copy's turn runs where its descriptor works, and stores or writes its bytes there. -/
theorem hostCopies : Obligations.HostCopies :=
  ⟨fun _ _ _ _ _ hgo hdir hsp ha hlen => hcopy_deep hgo hdir hsp ha hlen,
    fun _ _ _ _ _ _ hgo hno hdir hsp hg hawake hslot hswitch ha hlen =>
      hcopy_cluster hgo hno hdir hsp hg hawake hslot hswitch ha hlen,
    fun _ _ _ _ hgo hno hdir hsp => hcopy_out hgo hno hdir hsp⟩
end

section
/-! PROOFS. Doorbell polls and descriptor fetches (O18). -/

namespace Sys2Proof.Machine

/-! ### A ring sees its tail (R523) -/

/-- The tail of a ring in the page. -/
def tailOf (page : List Byte) (r : Nat) : Nat := leAt page (4 + 4 * r) 4

/-- Is a tail so far ahead of a ring's head that it stops the ring? -/
def tailTooFar (page : List Byte) (x : Ring) (r : Nat) : Prop :=
  2 ^ enSqLog x.entry < (tailOf page r + 2 ^ 32 - x.sqh) % 2 ^ 32

/-- The state with a ring that its tail stopped. -/
def tailRefused (page : List Byte) (fn : Nat) (s : State) (r : Nat) (x : Ring) : State :=
  hostWrite (setRing s fn r { x with sqt := tailOf page r, stopped := true }) fn (pageOf s fn + 0x228 + r) (leBytes 1 4)

theorem seeTail_none {page : List Byte} {fn r : Nat} {s : State} (h : ringOf s fn r = none) : seeTail page fn s r = s := by
  rw [seeTail, h]

theorem seeTail_taken {page : List Byte} {fn r : Nat} {s : State} {x : Ring} (h : ringOf s fn r = some x)
    (hok : x.stopped = true ∨ ¬ tailTooFar page x r) :
    seeTail page fn s r = setRing s fn r { x with sqt := tailOf page r } := by
  rw [seeTail, h]
  dsimp only
  rw [if_neg]
  · rfl
  · rintro ⟨hrun, hfar⟩
    rcases hok with hst | hnear
    · simp [hst] at hrun
    · exact hnear hfar

theorem seeTail_refused {page : List Byte} {fn r : Nat} {s : State} {x : Ring} (h : ringOf s fn r = some x)
    (hrun : x.stopped = false) (hfar : tailTooFar page x r) : seeTail page fn s r = tailRefused page fn s r x := by
  have hgo : (!x.stopped) = true := by rw [hrun]; rfl
  rw [seeTail, h]
  dsimp only
  rw [if_pos ⟨hgo, hfar⟩]
  rfl

/-- The three things that a ring's tail can do. -/
theorem seeTail_cases (page : List Byte) (fn : Nat) (s : State) (r : Nat) :
    (ringOf s fn r = none ∧ seeTail page fn s r = s) ∨
    (∃ x, ringOf s fn r = some x ∧ (x.stopped = true ∨ ¬ tailTooFar page x r) ∧
      seeTail page fn s r = setRing s fn r { x with sqt := tailOf page r }) ∨
    (∃ x, ringOf s fn r = some x ∧ x.stopped = false ∧ tailTooFar page x r ∧ seeTail page fn s r = tailRefused page fn s r x) := by
  cases h : ringOf s fn r with
  | none => exact .inl ⟨rfl, seeTail_none h⟩
  | some x =>
    by_cases hok : x.stopped = true ∨ ¬ tailTooFar page x r
    · exact .inr (.inl ⟨x, rfl, hok, seeTail_taken h hok⟩)
    · rw [not_or, not_not, Bool.not_eq_true] at hok
      exact .inr (.inr ⟨x, rfl, hok.1, hok.2, seeTail_refused h hok.1 hok.2⟩)

/-- What no tail changes: the registers, the time, the lamp state, and the function's interval. -/
def State.polled (fn : Nat) (s : State) : List (Nat × Nat) × TimeSt × PowerSt × Nat :=
  (s.regs, s.time, s.power, (fnSt s fn).interval)

theorem setRing_polled (s : State) (fn r : Nat) (x : Ring) : (setRing s fn r x).polled fn = s.polled fn := by
  have hfn : fnSt (setRing s fn r x) fn = { fnSt s fn with rings := SMap.put (fnSt s fn).rings r x } := fnSt_setFn_same _ _ _
  simp only [State.polled, hfn]
  rfl

theorem seeTail_polled (page : List Byte) (fn : Nat) (s : State) (r : Nat) : (seeTail page fn s r).polled fn = s.polled fn := by
  obtain ⟨-, h⟩ | ⟨x, -, -, h⟩ | ⟨x, -, -, -, h⟩ := seeTail_cases page fn s r
  · rw [h]
  · rw [h, setRing_polled]
  · rw [h]
    exact setRing_polled s fn r { x with sqt := tailOf page r, stopped := true }

theorem ringOf_seeTail_ne (page : List Byte) (fn : Nat) (s : State) {r q : Nat} (hq : q ≠ r) :
    ringOf (seeTail page fn s r) fn q = ringOf s fn q := by
  obtain ⟨-, h⟩ | ⟨x, -, -, h⟩ | ⟨x, -, -, -, h⟩ := seeTail_cases page fn s r
  · rw [h]
  · rw [h, ringOf_setRing_ne _ _ hq]
  · rw [h]
    exact ringOf_setRing_ne _ _ hq

/-- A ring that runs sees its tail, and is stopped where the tail is too far ahead. -/
theorem ringOf_seeTail_same {page : List Byte} {fn r : Nat} {s : State} {x : Ring} (hx : ringOf s fn r = some x)
    (hrun : x.stopped = false) :
    ∃ y, ringOf (seeTail page fn s r) fn r = some y ∧ y.sqt = tailOf page r ∧ y.sqh = x.sqh ∧ y.entry = x.entry ∧
      (y.stopped = true ↔ tailTooFar page x r) := by
  by_cases hfar : tailTooFar page x r
  · rw [seeTail_refused hx hrun hfar]
    exact ⟨_, ringOf_setRing_same _ _ _ _, rfl, rfl, rfl, by simp [hfar]⟩
  · rw [seeTail_taken hx (.inr hfar)]
    exact ⟨_, ringOf_setRing_same _ _ _ _, rfl, rfl, rfl, by simp [hfar, hrun]⟩

/-- Does no ring of a function stop at its tail? -/
def TailsNear (page : List Byte) (s : State) (fn r : Nat) : Prop :=
  ∀ x, ringOf s fn r = some x → x.stopped = true ∨ ¬ tailTooFar page x r

theorem out_seeTail {page : List Byte} {fn r : Nat} {s : State} (h : TailsNear page s fn r) : (seeTail page fn s r).out = s.out := by
  cases hx : ringOf s fn r with
  | none => rw [seeTail_none hx]
  | some x =>
    rw [seeTail_taken hx (h x hx)]
    rfl

theorem out_foldl_seeTail {page : List Byte} {fn : Nat} {l : List Nat} (hl : l.Nodup) {s : State}
    (h : ∀ r ∈ l, TailsNear page s fn r) : (l.foldl (seeTail page fn) s).out = s.out := by
  induction l generalizing s with
  | nil => rfl
  | cons r l ih =>
    obtain ⟨hr, hnodup⟩ := List.nodup_cons.1 hl
    rw [List.foldl_cons, ih hnodup, out_seeTail (h r List.mem_cons_self)]
    intro q hq x hx
    rw [ringOf_seeTail_ne page fn s (ne_of_mem_of_not_mem hq hr)] at hx
    exact h q (List.mem_cons_of_mem _ hq) x hx

theorem ringOf_foldl_seeTail_of_notMem (page : List Byte) (fn : Nat) {l : List Nat} {q : Nat} (hq : q ∉ l) (s : State) :
    ringOf (l.foldl (seeTail page fn) s) fn q = ringOf s fn q :=
  foldl_keeps (ringOf · fn q) (fun u _ hr => ringOf_seeTail_ne page fn u (ne_of_mem_of_not_mem hr hq).symm) s

theorem ringOf_foldl_seeTail {page : List Byte} {fn r : Nat} {l : List Nat} (hl : l.Nodup) (hr : r ∈ l) {s : State} {x : Ring}
    (hx : ringOf s fn r = some x) (hrun : x.stopped = false) :
    ∃ y, ringOf (l.foldl (seeTail page fn) s) fn r = some y ∧ y.sqt = tailOf page r ∧ y.sqh = x.sqh ∧ y.entry = x.entry ∧
      (y.stopped = true ↔ tailTooFar page x r) := by
  induction l generalizing s with
  | nil => exact absurd hr List.not_mem_nil
  | cons q l ih =>
    obtain ⟨hq, hnodup⟩ := List.nodup_cons.1 hl
    rw [List.foldl_cons]
    by_cases he : r = q
    · subst he
      rw [ringOf_foldl_seeTail_of_notMem page fn hq]
      exact ringOf_seeTail_same hx hrun
    · exact ih hnodup (List.mem_of_ne_of_mem he hr) ((ringOf_seeTail_ne page fn s he).trans hx)

/-! ### A doorbell poll (R518 to R520) -/

/-- The tails that a page shows. -/
def pageTails (page : List Byte) : List Nat := rings8.map fun r => leAt page (4 + 4 * r) 4

/-- The state of a poll before its rings see their tails. -/
def pollCounted (s : State) (hit : Bool) : State :=
  if hit then bump (bump (hasRead s) R.hstCntPoll 1) R.hstCntHit 1 else bump (hasRead s) R.hstCntPoll 1

/-- What a poll notes of its function. -/
def pollNoted (s : State) (fn gen iv : Nat) (sqts : List Nat) : State :=
  setFn s fn { fnSt s fn with gen := some gen, sqts := sqts, interval := iv, due := s.time.lamp + iv }

/-- A poll that shows the GEN known is a hit where a tail is new. -/
theorem doorbellPoll_eq {s : State} {fn : Nat} {page : List Byte} (entries : List Byte) (hdue : pollDue s fn = true)
    (hgen : (fnSt s fn).gen = some (leAt page 0 4)) {hit : Bool} (hhit : ((fnSt s fn).sqts != pageTails page) = hit) {u : State}
    (hu : u = rings8.foldl (seeTail page fn) (pollCounted s hit)) :
    doorbellPoll fn page entries s =
      if hit then lampWake (wakeFn (pollNoted u fn (leAt page 0 4) 500 (pageTails page)) fn)
      else pollNoted u fn (leAt page 0 4) (nextInterval u fn) (pageTails page) := by
  have hhit' : ((fnSt s fn).gen != some (leAt page 0 4) || (fnSt s fn).sqts != pageTails page) = hit := by
    rw [hhit, hgen, bne_self_eq_false, Bool.false_or]
  unfold pageTails at hhit'
  unfold doorbellPoll
  dsimp only
  rw [hdue, hhit', if_neg (by decide), if_pos hgen, ← pollCounted, ← hu]
  unfold pollNoted pageTails
  cases hit with
  | true => simp only [if_true]
  | false => simp only [Bool.false_eq_true, if_false]

theorem nodup_rings8 : rings8.Nodup := List.nodup_range

theorem polled_foldl (page : List Byte) (fn : Nat) (s : State) :
    (rings8.foldl (seeTail page fn) s).polled fn = s.polled fn :=
  foldl_keeps (State.polled fn) (fun u r _ => seeTail_polled page fn u r) s

/-- A poll that shows nothing new. -/
theorem poll_miss {s : State} {fn : Nat} {page entries : List Byte} (hdue : pollDue s fn = true)
    (hgen : (fnSt s fn).gen = some (leAt page 0 4)) (htails : (fnSt s fn).sqts = pageTails page)
    (hnear : ∀ r < 8, TailsNear page s fn r) {t : State} (ht : t = doorbellPoll fn page entries s) :
    (fnSt t fn).interval = (if s.power.lamp = 0 then min 64000 (2 * (fnSt s fn).interval) else 64000) ∧
      (fnSt t fn).due = s.time.lamp + (fnSt t fn).interval ∧
      rd t R.hstCntPoll = min (2 ^ 32 - 1) (rd s R.hstCntPoll % 2 ^ 32 + 1) ∧ t.out = s.out ∧ sameRegs s t [R.hstCntPoll] := by
  rw [doorbellPoll_eq entries hdue hgen (hit := false) (by rw [htails, bne_self_eq_false]) rfl, if_neg Bool.false_ne_true] at ht
  have hparts := polled_foldl page fn (pollCounted s false)
  have hout : (rings8.foldl (seeTail page fn) (pollCounted s false)).out = s.out :=
    out_foldl_seeTail nodup_rings8 fun r hr => hnear r (List.mem_range.1 hr)
  have hcounted : pollCounted s false = bump (hasRead s) R.hstCntPoll 1 := rfl
  generalize rings8.foldl (seeTail page fn) (pollCounted s false) = u at ht hparts hout
  have hsame : (pollCounted s false).polled fn = ((bump (hasRead s) R.hstCntPoll 1).regs, s.time, s.power, (fnSt s fn).interval) := by
    rw [hcounted]
    rfl
  obtain ⟨hregs, htime, hpower, hiv⟩ := by simpa only [State.polled, Prod.mk.injEq] using hparts.trans hsame
  have hfn : fnSt t fn = { fnSt u fn with gen := some (leAt page 0 4), sqts := pageTails page, interval := nextInterval u fn
                                          due := u.time.lamp + nextInterval u fn } := by
    rw [ht]
    exact fnSt_setFn_same _ _ _
  have hregs' : t.regs = (bump (hasRead s) R.hstCntPoll 1).regs := by
    rw [ht, ← hregs]
    rfl
  have hrd (x : Nat) : rd t x = rd (bump (hasRead s) R.hstCntPoll 1) x := by rw [rd, rd, hregs']
  refine ⟨?_, by rw [hfn, htime], ?_, ?_, fun x hx => ?_⟩
  · rw [hfn]
    simp only [nextInterval, hpower, hiv]
  · rw [hrd, rd_bump_same]
    rfl
  · rw [ht, ← hout]
    rfl
  · rw [hrd]
    exact sameRegs_bump (hasRead s) 1 List.mem_cons_self x hx

theorem host_wakeFn (s : State) (fn : Nat) : (wakeFn s fn).host = s.host := by
  refine foldl_keeps State.host (fun u g _ => ?_) s
  split
  · rw [wakeIsl_eq]
  · rfl

theorem host_lampWake (s : State) : (lampWake s).host = s.host := by
  unfold lampWake
  split <;> rfl

/-- A poll that shows a new tail. -/
theorem poll_hit {s : State} {fn r : Nat} {page entries : List Byte} {x : Ring} (hr : r < 8) (hdue : pollDue s fn = true)
    (hgen : (fnSt s fn).gen = some (leAt page 0 4)) (htails : (fnSt s fn).sqts ≠ pageTails page) (hx : ringOf s fn r = some x)
    (hrun : x.stopped = false) {t : State} (ht : t = doorbellPoll fn page entries s) :
    (fnSt t fn).interval = 500 ∧ (fnSt t fn).due = s.time.lamp + 500 ∧
      ∃ y, ringOf t fn r = some y ∧ y.sqt = tailOf page r ∧ y.sqh = x.sqh ∧ y.entry = x.entry ∧
        (y.stopped = true ↔ tailTooFar page x r) := by
  rw [doorbellPoll_eq entries hdue hgen (hit := true) (by simpa using htails) rfl, if_pos rfl] at ht
  have hparts := polled_foldl page fn (pollCounted s true)
  have hx' : ringOf (pollCounted s true) fn r = some x := hx
  obtain ⟨y, hy, hfields⟩ := ringOf_foldl_seeTail (page := page) nodup_rings8 (List.mem_range.2 hr) hx' hrun
  have htime : (rings8.foldl (seeTail page fn) (pollCounted s true)).time = s.time := (Prod.mk.inj (Prod.mk.inj hparts).2).1
  generalize rings8.foldl (seeTail page fn) (pollCounted s true) = u at ht hy htime
  have hhost : t.host = (pollNoted u fn (leAt page 0 4) 500 (pageTails page)).host := by rw [ht, host_lampWake, host_wakeFn]
  have hfn : fnSt t fn = { fnSt u fn with gen := some (leAt page 0 4), sqts := pageTails page, interval := 500
                                          due := u.time.lamp + 500 } := by
    rw [fnSt, hhost]
    exact fnSt_setFn_same u fn _
  refine ⟨by rw [hfn], by rw [hfn, htime], y, ?_, hfields⟩
  rw [ringOf, hfn]
  exact hy

/-! ### A fetch (R516, R524) -/

theorem length_newDescs (fn r n i : Nat) (bs : List Byte) : (newDescs fn r n i bs).length = n := by
  induction n generalizing i bs with
  | zero => rfl
  | succ n ih => rw [newDescs, List.length_cons, ih]

theorem newDescs_getElem? (fn r : Nat) {n k : Nat} (hk : k < n) (i : Nat) (bs : List Byte) :
    (newDescs fn r n i bs)[k]? = some ⟨fn, r, (i + k) % 2 ^ 32, (bs.drop (64 * k)).take 64, .fetched, [], 0, 0, [], 0⟩ := by
  induction n generalizing k i bs with
  | zero => omega
  | succ n ih =>
    rw [newDescs]
    cases k with
    | zero => rfl
    | succ k =>
      rw [List.getElem?_cons_succ, ih (by omega), List.drop_drop, show i + 1 + k = i + (k + 1) by omega,
        show 64 + 64 * k = 64 * (k + 1) by omega]

/-- Only where no record is free is the completion ring's head read. -/
theorem readHead_of_room {s : State} {fn r cqh : Nat} {x : Ring} (hx : ringOf s fn r = some x) (hroom : cqRoom s fn r x ≠ 0) :
    readHead s fn r cqh = s := by
  have hdue : headDue s fn r x = false := by simp [headDue, hroom]
  rw [readHead, hx]
  dsimp only
  rw [hdue, if_neg Bool.false_ne_true]

/-- The state with descriptors fetched. -/
def descsFetched (s : State) (fn r n : Nat) (x : Ring) (data : List Byte) : State :=
  { setRing (served s fn) fn r { x with sqh := (x.sqh + n) % 2 ^ 32 } with
    host := { (setRing (served s fn) fn r { x with sqh := (x.sqh + n) % 2 ^ 32 }).host with
      descs := s.host.descs ++ newDescs fn r n x.sqh data } }

theorem descriptorFetch_eq {s : State} {fn r cqh n : Nat} {data : List Byte} {x : Ring} (hfn : fnState s fn = 1)
    (hx : ringOf s fn r = some x) (hroom : cqRoom s fn r x ≠ 0) (hn : n = fetchable s fn r x (data.length / 64)) (h0 : n ≠ 0)
    (hturn : hostTurn s fn = true) :
    descriptorFetch fn r cqh data s = hostWrite (descsFetched s fn r n x data) fn (pageOf s fn + 0x208 + 4 * r)
      (leBytes 4 ((x.sqh + n) % 2 ^ 32)) := by
  subst hn
  unfold descriptorFetch
  rw [if_neg (not_not.2 hfn)]
  dsimp only
  rw [readHead_of_room hx hroom, hx]
  dsimp only
  rw [if_neg (by simp [h0, hturn])]
  rfl

theorem fetch_spec (s : State) (fn r n : Nat) (x : Ring) (data bs : List Byte) {t : State}
    (ht : t = hostWrite (descsFetched s fn r n x data) fn (pageOf s fn + 0x208 + 4 * r) bs) :
    ringOf t fn r = some { x with sqh := (x.sqh + n) % 2 ^ 32 } ∧
      t.host.descs.length = s.host.descs.length + n ∧ t.host.descs.take s.host.descs.length = s.host.descs ∧
      (∀ k < n, ∃ h, t.host.descs[s.host.descs.length + k]? = some h ∧ h.idx = (x.sqh + k) % 2 ^ 32 ∧
        h.bytes = (data.drop (64 * k)).take 64 ∧ h.phase = .fetched) ∧
      t.out = s.out ++ hostTlps s fn (pageOf s fn + 0x208 + 4 * r) bs ∧ t.regs = s.regs ∧ t.comp = s.comp ∧ t.deep = s.deep := by
  have hdescs : t.host.descs = s.host.descs ++ newDescs fn r n x.sqh data := by rw [ht]; rfl
  refine ⟨?_, ?_, ?_, fun k hk => ?_, by rw [ht]; rfl, by rw [ht]; rfl, by rw [ht]; rfl, by rw [ht]; rfl⟩
  · rw [ht]
    exact ringOf_setRing_same (served s fn) fn r _
  · rw [hdescs, List.length_append, length_newDescs]
  · rw [hdescs, List.take_left']
    rfl
  · rw [hdescs, List.getElem?_append_right (Nat.le_add_right _ _), Nat.add_sub_cancel_left, newDescs_getElem? fn r hk]
    exact ⟨_, rfl, rfl, rfl, rfl⟩

end Sys2Proof.Machine

open Sys2Proof Sys2Proof.Machine

/-- Settles O18: a poll by whether it is a hit, with the rings taken one after another; a fetch by its new descriptors. -/
theorem pollsAndFetches : Obligations.PollsAndFetches := by
  refine ⟨⟨fun s fn page entries hpage hentries hdue hgen htails hnear => ?_,
    fun s fn page entries r x hpage hentries hdue hgen htails hx hrun => ?_⟩,
    fun s fn ring cqh data x n hfn hx hroom h64 hlen0 hlen hn h0 hturn => ?_⟩
  · exact ⟨_, if_pos ⟨hpage, hentries⟩, poll_miss hdue hgen htails
      (fun r hr x hx => (hnear r x hx hr).imp_right not_lt.2) rfl⟩
  · exact ⟨_, if_pos ⟨hpage, hentries⟩, poll_hit r.isLt hdue hgen htails hx hrun rfl⟩
  · exact ⟨_, (if_pos ⟨h64, hlen0, hlen⟩).trans (congrArg Host.Outcome.next (descriptorFetch_eq hfn hx hroom hn h0 hturn)),
      fetch_spec s fn ring n x data _ rfl⟩
end

section
/-! PROOFS. Doze and the lamp state (O56). -/

namespace Sys2Proof.Machine

/-! ### Folds -/

/-- What one step of a fold establishes and every step keeps, holds after it. -/
theorem foldl_establishes {α : Type} {P Q : State → Prop} {f : State → α → State} (hkeep : ∀ s y, P s → P (f s y))
    (hready : ∀ s y, Q s → Q (f s y)) {x : α} (hest : ∀ s, Q s → P (f s x)) {l : List α} (hx : x ∈ l) {s : State} (hs : Q s) :
    P (l.foldl f s) := by
  induction l generalizing s with
  | nil => exact absurd hx List.not_mem_nil
  | cons y l ih =>
    rw [List.foldl_cons]
    rcases List.mem_cons.1 hx with rfl | hl
    · exact foldl_preserves hkeep l (hest s hs)
    · exact ih hl (hready s y hs)

/-! ### An island's state -/

/-- The state with an island's live state, and a value in the state field of its register. -/
def islMoved (s : State) (g : Nat) (x : IslSt) (st : Nat) : State := setF (setIsl s g x) (R.pwrIsl g) 29 28 st

theorem pwrIsl_ne {g k : Nat} (h : k ≠ g) : R.pwrIsl k ≠ R.pwrIsl g := by
  simp only [R.pwrIsl]
  omega

theorem islOf_setF (s : State) (off hi lo v g : Nat) : islOf (setF s off hi lo v) g = islOf s g := rfl

theorem islOf_islMoved_same (s : State) (g : Nat) (x : IslSt) (st : Nat) : islOf (islMoved s g x st) g = x := by
  rw [islMoved, islOf_setF, islOf_setIsl_same]

theorem islOf_islMoved_ne (s : State) {g k : Nat} (x : IslSt) (st : Nat) (h : k ≠ g) :
    islOf (islMoved s g x st) k = islOf s k := by
  rw [islMoved, islOf_setF, islOf_setIsl_ne _ _ h]

theorem getF_islMoved_same (s : State) (g : Nat) (x : IslSt) {st : Nat} (hst : st < 4) :
    getF (islMoved s g x st) (R.pwrIsl g) 29 28 = st := by
  rw [islMoved, getF_setF_same _ _ _ (by decide) (by decide)]
  exact Nat.mod_eq_of_lt hst

theorem getF_islMoved_low (s : State) (g : Nat) (x : IslSt) (st : Nat) :
    getF (islMoved s g x st) (R.pwrIsl g) 27 0 = getF s (R.pwrIsl g) 27 0 := by
  rw [islMoved, getF_setF_apart _ _ _ (by decide) (by decide) (by decide)]
  rfl

theorem sameRegs_islMoved (s : State) (g : Nat) (x : IslSt) (st : Nat) : sameRegs s (islMoved s g x st) [R.pwrIsl g] :=
  sameRegs_setF (setIsl s g x) 29 28 st List.mem_cons_self

theorem islMoved_frame (s : State) (g : Nat) (x : IslSt) (st : Nat) :
    islMoved s g x st = { s with regs := (islMoved s g x st).regs, power := (islMoved s g x st).power } := by
  rw [islMoved]
  generalize R.pwrIsl g = off
  rfl

theorem dozing_of_getF {s : State} {g : Nat} (h : getF s (R.pwrIsl g) 29 28 = 2) : dozing s g = true := by
  rw [dozing, h]
  rfl

/-! ### Doze (R584 to R587) -/

theorem dozeEnter_of_event {s : State} {d : Die} {i : Clu} (h : wakeEvent s (cluNo d i) = true) : dozeEnter d i s = s := by
  unfold dozeEnter
  dsimp only
  rw [if_pos (by simp [h])]

theorem dozeEnter_of_idle {s : State} {d : Die} {i : Clu} (hdoze : dozing s (cluNo d i) = false) (hlamp : s.power.lamp = 0)
    (hbusy : busy s (cluNo d i) = false)
    (hidle : (islOf s (cluNo d i)).idleAt + 1000 * getF s R.pwrDozet 15 0 ≤ s.time.lamp) (hauto : flag s R.pwrCtl 8 = true)
    (hok : flag s (R.pwrIsl (cluNo d i)) 30 = true) (hexp : (slotSt s (cluNo d i)).expired = false)
    (hno : wakeEvent s (cluNo d i) = false) :
    dozeEnter d i s = islMoved s (cluNo d i) { islOf s (cluNo d i) with wake := false, waking := none, rise := none } 2 := by
  unfold dozeEnter
  dsimp only
  rw [if_neg (by simp [hdoze, hlamp, hbusy, hidle, hauto, hok, hexp, hno])]
  rfl

theorem doze_spec {s t : State} {g : Nat} {x : IslSt} (ht : t = islMoved s g x 2) :
    dozing t g = true ∧ (∀ k, k ≠ g → islOf t k = islOf s k) ∧ getF t (R.pwrIsl g) 27 0 = getF s (R.pwrIsl g) 27 0 ∧
      t = { s with regs := t.regs, power := t.power } ∧ sameRegs s t [R.pwrIsl g] := by
  subst ht
  exact ⟨dozing_of_getF (getF_islMoved_same s g x (by decide)), fun _ hk => islOf_islMoved_ne s x 2 hk,
    getF_islMoved_low s g x 2, islMoved_frame s g x 2, sameRegs_islMoved s g x 2⟩

theorem islandWake_of_event {s : State} {d : Die} {i : Clu} (hdoze : dozing s (cluNo d i) = true) (hlamp : s.power.lamp = 0)
    (hnot : (islOf s (cluNo d i)).waking = none) (hev : wakeEvent s (cluNo d i) = true) :
    islandWake d i s = setIsl s (cluNo d i) { islOf s (cluNo d i) with waking := some s.time.lamp } := by
  unfold islandWake
  dsimp only
  rw [if_neg (by simp [hdoze, hlamp, hnot, hev])]

theorem wakeComplete_early {s : State} {d : Die} {i : Clu} {t0 : Nat} (hw : (islOf s (cluNo d i)).waking = some t0)
    (h : s.time.lamp < t0 + 2000) : wakeComplete d i s = s := by
  unfold wakeComplete
  dsimp only
  rw [hw]
  dsimp only
  rw [if_pos h]

theorem wakeComplete_due {s : State} {d : Die} {i : Clu} {t0 : Nat} (hw : (islOf s (cluNo d i)).waking = some t0)
    (h : t0 + 2000 ≤ s.time.lamp) :
    wakeComplete d i s =
      islMoved s (cluNo d i) { islOf s (cluNo d i) with wake := false, waking := none, idleAt := s.time.lamp } 1 := by
  unfold wakeComplete
  dsimp only
  rw [hw]
  dsimp only
  rw [if_neg (not_lt.2 h)]
  rfl

/-! ### The end of lamp (R589) -/

/-- An island is woken into idle. -/
def wokenIsl (s : State) (g : Nat) : State :=
  islMoved s g { islOf s g with wake := false, waking := none, idleAt := s.time.lamp } 1

/-- Is an island idle since a time? -/
def IdleSince (g now : Nat) (s : State) : Prop :=
  getF s (R.pwrIsl g) 29 28 = 1 ∧ (islOf s g).idleAt = now ∧ s.time.lamp = now

theorem idleSince_wokenIsl_same {g now : Nat} {s : State} (h : s.time.lamp = now) : IdleSince g now (wokenIsl s g) := by
  refine ⟨getF_islMoved_same s g _ (by decide), ?_, ?_⟩
  · rw [wokenIsl, islOf_islMoved_same, h]
  · rw [wokenIsl, islMoved_frame]
    exact h

theorem idleSince_wokenIsl {g now : Nat} {s : State} (k : Nat) (h : IdleSince g now s) : IdleSince g now (wokenIsl s k) := by
  by_cases hk : g = k
  · subst hk
    exact idleSince_wokenIsl_same h.2.2
  · obtain ⟨hst, hat, hnow⟩ := h
    have hrd : rd (wokenIsl s k) (R.pwrIsl g) = rd s (R.pwrIsl g) :=
      sameRegs_islMoved s k _ 1 _ (by simpa using pwrIsl_ne hk)
    refine ⟨by rw [getF_congr_rd hrd, hst], by rw [wokenIsl, islOf_islMoved_ne _ _ _ hk, hat], ?_⟩
    rw [wokenIsl, islMoved_frame]
    exact hnow

/-- The parts of the state that the wakes leave as they are. -/
def State.unwoken (s : State) : ComputeSt × DeepSt × TimeSt × Nat := (s.comp, s.deep, s.time, s.power.lamp)

theorem unwoken_wokenIsl (s : State) (g : Nat) : (wokenIsl s g).unwoken = s.unwoken := by
  simp only [wokenIsl, islMoved, State.unwoken, setF_comp, setF_deep, setF_time, setF_power]
  rfl

theorem time_unwoken {s t : State} (h : t.unwoken = s.unwoken) : t.time = s.time := by
  simp only [State.unwoken, Prod.mk.injEq] at h
  exact h.2.2.1

theorem idleSince_foldl_wokenIsl {l : List Nat} (s : State) {g : Nat} (hg : g ∈ l) :
    IdleSince g s.time.lamp (l.foldl wokenIsl s) := by
  have hlamp (u : State) (k : Nat) (h : u.time.lamp = s.time.lamp) : (wokenIsl u k).time.lamp = s.time.lamp := by
    rw [time_unwoken (unwoken_wokenIsl u k), h]
  exact foldl_establishes (P := IdleSince g s.time.lamp) (Q := fun u => u.time.lamp = s.time.lamp)
    (fun _ k => idleSince_wokenIsl k) hlamp (fun _ h => idleSince_wokenIsl_same h) hg rfl

/-- A port that is OFF or DOWN and enabled begins training. -/
def lampTrain (s : State) (p : Nat) : State :=
  if (portState s p = 0 ∨ portState s p = 4) ∧ flag s (R.prtCtl p) 31 then startTraining s p else s

theorem startTraining_parts (s : State) (p : Nat) :
    (startTraining s p).power = s.power ∧ (startTraining s p).time = s.time := by
  have hset (st : Nat) : (setPortState s p st).power = s.power ∧ (setPortState s p st).time = s.time := ⟨rfl, rfl⟩
  unfold startTraining
  (repeat' split)
  · exact hset 5
  · exact hset 0
  · exact hset 1

theorem portState_setPortState (s : State) (p : Nat) {st : Nat} (h : st < 8) : portState (setPortState s p st) p = st := by
  have hrd : rd (setPortState s p st) (R.prtStat p) = rd (setF s (R.prtStat p) 2 0 st) (R.prtStat p) := rfl
  rw [portState, getF_congr_rd hrd, getF_setF_same _ _ _ (by decide) (by decide)]
  exact Nat.mod_eq_of_lt h

theorem portState_startTraining {s : State} {p : Nat} (hen : flag s (R.prtCtl p) 31 = true) (hret : flag s (R.prtStat p) 25 = false)
    (hlamp : s.power.lamp = 0) : portState (startTraining s p) p = 1 := by
  unfold startTraining
  rw [hret, if_neg Bool.false_ne_true, if_neg (by simp [hen, hlamp])]
  exact portState_setPortState s p (by decide)

/-- What training of the ports leaves as it is: the registers but `PRT_STAT` of the ports, the islands and their clock. -/
theorem lampTrain_frame (s : State) (p : Nat) : (lampTrain s p).comp = s.comp ∧ (lampTrain s p).deep = s.deep ∧
    (lampTrain s p).power = s.power ∧ (lampTrain s p).time = s.time ∧ sameRegs s (lampTrain s p) [R.prtStat p] := by
  unfold lampTrain
  split
  · obtain ⟨hdeep, hcomp, hregs⟩ := startTraining_frame s p
    obtain ⟨hpower, htime⟩ := startTraining_parts s p
    exact ⟨hcomp, hdeep, hpower, htime, hregs⟩
  · exact ⟨rfl, rfl, rfl, rfl, sameRegs_refl s _⟩

theorem prtStat_ne {p q : Nat} (h : p ≠ q) : R.prtStat p ≠ R.prtStat q := by
  simp only [R.prtStat]
  omega

theorem prtCtl_ne_prtStat (p q : Nat) : R.prtCtl p ≠ R.prtStat q := by
  simp only [R.prtCtl, R.prtStat]
  omega

/-- May a port be trained as lamp ends? -/
def TrainReady (p : Nat) (s : State) : Prop :=
  portState s p = 0 ∧ flag s (R.prtCtl p) 31 = true ∧ flag s (R.prtStat p) 25 = false ∧ s.power.lamp = 0

theorem portState_lampTrain_of_ready {p : Nat} {s : State} (h : TrainReady p s) : portState (lampTrain s p) p = 1 := by
  obtain ⟨hoff, hen, hret, hlamp⟩ := h
  rw [lampTrain, if_pos ⟨.inl hoff, hen⟩, portState_startTraining hen hret hlamp]

theorem lampTrain_of_training {p : Nat} {s : State} (h : portState s p = 1) : lampTrain s p = s := by
  rw [lampTrain, if_neg (by simp [h])]

theorem rd_lampTrain_ne {q : Nat} (s : State) {off : Nat} (h : off ≠ R.prtStat q) : rd (lampTrain s q) off = rd s off := by
  obtain ⟨-, -, -, -, hregs⟩ := lampTrain_frame s q
  exact hregs off (by simpa using h)

theorem portState_lampTrain_of_training {p : Nat} {s : State} (q : Nat) (h : portState s p = 1) :
    portState (lampTrain s q) p = 1 := by
  by_cases hq : p = q
  · subst hq
    rw [lampTrain_of_training h, h]
  · rw [portState, getF_congr_rd (rd_lampTrain_ne s (prtStat_ne hq))]
    exact h

theorem ready_or_training_lampTrain {p : Nat} {s : State} (q : Nat) (h : TrainReady p s ∨ portState s p = 1) :
    TrainReady p (lampTrain s q) ∨ portState (lampTrain s q) p = 1 := by
  rcases h with hready | htr
  · by_cases hq : p = q
    · subst hq
      exact .inr (portState_lampTrain_of_ready hready)
    · obtain ⟨hoff, hen, hret, hlamp⟩ := hready
      have hstat := rd_lampTrain_ne s (prtStat_ne hq)
      have hctl := rd_lampTrain_ne s (prtCtl_ne_prtStat p q)
      obtain ⟨-, -, hpower, -, -⟩ := lampTrain_frame s q
      exact .inl ⟨by rw [portState, getF_congr_rd hstat]; exact hoff, by rw [flag_congr_rd hctl, hen],
        by rw [flag_congr_rd hstat, hret], by rw [hpower, hlamp]⟩
  · exact .inr (portState_lampTrain_of_training q htr)

theorem portState_foldl_lampTrain {p : Nat} (hp : p < 64) {s : State} (h : TrainReady p s) :
    portState ((List.range 64).foldl lampTrain s) p = 1 :=
  foldl_establishes (P := fun u => portState u p = 1) (Q := fun u => TrainReady p u ∨ portState u p = 1)
    (fun _ q => portState_lampTrain_of_training q) (fun _ q => ready_or_training_lampTrain q)
    (fun _ hu => hu.elim portState_lampTrain_of_ready (portState_lampTrain_of_training p)) (List.mem_range.2 hp) (.inl h)

/-- The state in which the package has just left lamp. -/
def lampLeft (s : State) : State := { s with power := { s.power with lamp := 0, since := s.time.lamp } }

theorem lampExitComplete_eq {s : State} (hlamp : s.power.lamp = 2) (hdue : s.power.since + 40000 ≤ s.time.lamp) :
    lampExitComplete s = (List.range 64).foldl lampTrain ((List.range 1280).foldl wokenIsl (lampLeft s)) := by
  unfold lampExitComplete
  rw [if_neg (by simp [hlamp, hdue])]
  rfl

/-- What the training of the ports leaves as it is. -/
def State.untrained (g : Nat) (s : State) : ComputeSt × DeepSt × PowerSt × TimeSt × Nat :=
  (s.comp, s.deep, s.power, s.time, rd s (R.pwrIsl g))

theorem untrained_lampTrain {g : Nat} (hg : g < 1280) (s : State) {p : Nat} (hp : p < 64) :
    (lampTrain s p).untrained g = s.untrained g := by
  obtain ⟨hcomp, hdeep, hpower, htime, hregs⟩ := lampTrain_frame s p
  have hrd : rd (lampTrain s p) (R.pwrIsl g) = rd s (R.pwrIsl g) := by
    refine hregs _ ?_
    simp only [R.pwrIsl, R.prtStat, List.mem_singleton]
    omega
  simp only [State.untrained, hcomp, hdeep, hpower, htime, hrd]

/-- A port's registers are apart from the islands'. -/
theorem rd_foldl_wokenIsl (s : State) {off : Nat} (h : 0x1000000 ≤ off) :
    rd ((List.range 1280).foldl wokenIsl s) off = rd s off := by
  refine foldl_keeps (rd · off) (fun u g hg => ?_) s
  have hlt : g < 1280 := List.mem_range.1 hg
  refine sameRegs_islMoved u g _ 1 off ?_
  simp only [R.pwrIsl, List.mem_singleton]
  omega

theorem lampExit_spec {s t : State} (ht : t = (List.range 64).foldl lampTrain ((List.range 1280).foldl wokenIsl (lampLeft s))) :
    t.power.lamp = 0 ∧
      (∀ (d : Die) (i : Clu), getF t (R.pwrIsl (cluNo d i)) 29 28 = 1 ∧ (islOf t (cluNo d i)).idleAt = s.time.lamp) ∧
      (∀ p : Port, portState s p.val = 0 → flag s (R.prtCtl p) 31 = true → flag s (R.prtStat p) 25 = false →
        portState t p.val = 1) ∧
      t.comp = s.comp ∧ t.deep = s.deep ∧ t.time = s.time := by
  have hidle {g : Nat} (hg : g < 1280) := idleSince_foldl_wokenIsl (lampLeft s) (List.mem_range.2 hg)
  have hwoken : ((List.range 1280).foldl wokenIsl (lampLeft s)).unwoken = (s.comp, s.deep, s.time, 0) :=
    foldl_keeps State.unwoken (fun u g _ => unwoken_wokenIsl u g) (lampLeft s)
  have hrd {off : Nat} (h : 0x1000000 ≤ off) : rd ((List.range 1280).foldl wokenIsl (lampLeft s)) off = rd s off :=
    rd_foldl_wokenIsl (lampLeft s) h
  generalize (List.range 1280).foldl wokenIsl (lampLeft s) = u at *
  obtain ⟨hcomp, hdeep, htime, hlamp⟩ := by simpa only [State.unwoken, Prod.mk.injEq] using hwoken
  have hparts {g : Nat} (hg : g < 1280) : t.untrained g = u.untrained g := by
    rw [ht]
    exact foldl_keeps (State.untrained g) (fun v p hp => untrained_lampTrain hg v (List.mem_range.1 hp)) u
  obtain ⟨hcomp', hdeep', hpower', htime', -⟩ := by
    simpa only [State.untrained, Prod.mk.injEq] using hparts (g := 0) (by decide)
  refine ⟨by rw [hpower', hlamp], fun d i => ?_, fun p hoff hen hret => ?_, hcomp'.trans hcomp, hdeep'.trans hdeep,
    htime'.trans htime⟩
  · have hg := cluNo_lt d i
    obtain ⟨-, -, -, -, hrdI⟩ := by simpa only [State.untrained, Prod.mk.injEq] using hparts hg
    obtain ⟨hst, hat, -⟩ := hidle hg
    exact ⟨by rw [getF_congr_rd hrdI, hst], by rw [islOf, hpower']; exact hat⟩
  · rw [ht]
    refine portState_foldl_lampTrain p.isLt ⟨?_, ?_, ?_, hlamp⟩
    · rw [portState, getF_congr_rd (hrd (by simp only [R.prtStat]; omega))]
      exact hoff
    · rw [flag_congr_rd (hrd (by simp only [R.prtCtl]; omega)), hen]
    · rw [flag_congr_rd (hrd (by simp only [R.prtStat]; omega)), hret]

end Sys2Proof.Machine

open Sys2Proof Sys2Proof.Machine

/-- Settles O56: doze and wake of one island, and the end of lamp as a run over the islands and then over the ports. -/
theorem dozeAndLamp : Obligations.DozeAndLamp := by
  refine ⟨fun s d i hdoze hlamp hbusy hidle hauto hok hexp => ⟨fun hev => ?_, fun hno => ?_⟩,
    fun s d i hdoze hlamp hnot hev => ?_, fun s d i t0 hw => ⟨fun h => ?_, fun h => ?_⟩, fun s hlamp hne hle => ?_,
    fun s off hlamp => ⟨fun h => ?_, fun h => ?_⟩, fun s hlamp hdue => ?_⟩
  · exact congrArg Host.Outcome.next (dozeEnter_of_event hev)
  · exact ⟨_, congrArg Host.Outcome.next (dozeEnter_of_idle hdoze hlamp hbusy hidle hauto hok hexp hno), doze_spec rfl⟩
  · exact ⟨_, congrArg Host.Outcome.next (islandWake_of_event hdoze hlamp hnot hev), by rw [islOf_setIsl_same],
      fun g hg => islOf_setIsl_ne s _ hg, rfl⟩
  · exact congrArg Host.Outcome.next (wakeComplete_early hw h)
  · exact ⟨_, congrArg Host.Outcome.next (wakeComplete_due hw h), getF_islMoved_same s _ _ (by decide),
      by rw [islOf_islMoved_same], fun g hg => islOf_islMoved_ne s _ 1 hg, islMoved_frame s _ _ 1, sameRegs_islMoved s _ _ 1⟩
  · refine congrArg Host.Outcome.next ?_
    rw [lampAlarm, if_pos ⟨hne, hle⟩, lampWake, if_pos hlamp]
  · refine congrArg Host.Outcome.next ?_
    rw [bar0AccessWake, answersInLamp, decide_eq_true h, if_pos rfl]
  · refine congrArg Host.Outcome.next ?_
    rw [bar0AccessWake, answersInLamp, decide_eq_false (not_lt.2 h), if_neg Bool.false_ne_true, lampWake, if_pos hlamp]
  · exact ⟨_, congrArg Host.Outcome.next (lampExitComplete_eq hlamp hdue), lampExit_spec rfl⟩
end

section
/-! PROOFS. Health evaluations, grants and droops (O55). -/

namespace Sys2Proof.Machine

/-! ### Folds -/

/-- What only one step of a fold can change is, after the fold, what that step left of it. -/
theorem foldl_at {α β : Type} (φ : State → β) {f : State → α → State} {x : α} (h : ∀ s y, y ≠ x → φ (f s y) = φ s) {l : List α}
    (hl : l.Nodup) (hx : x ∈ l) (s : State) : ∃ u, φ u = φ s ∧ φ (l.foldl f s) = φ (f u x) := by
  induction l generalizing s with
  | nil => exact absurd hx List.not_mem_nil
  | cons y l ih =>
    obtain ⟨hy, hnodup⟩ := List.nodup_cons.1 hl
    rw [List.foldl_cons]
    rcases List.mem_cons.1 hx with rfl | hmem
    · exact ⟨s, rfl, foldl_keeps φ (fun u z hz => h u z (ne_of_mem_of_not_mem hz hy)) _⟩
    · obtain ⟨u, hu, hfold⟩ := ih hnodup hmem (f s y)
      exact ⟨u, hu.trans (h s y (ne_of_mem_of_not_mem hmem hy).symm), hfold⟩

theorem le_foldl_max {α : Type} (f : α → Int) (l : List α) (m : Int) : m ≤ l.foldl (fun m x => max m (f x)) m := by
  induction l generalizing m with
  | nil => exact le_rfl
  | cons x l ih => exact (le_max_left m (f x)).trans (ih _)

/-! ### What the sensors change (R590) -/

/-- The registers that the readings of an evaluation can change. -/
def sensedRegs : List Nat := R.pwrStat :: R.glbFault :: trapRegs

/-- What the readings of an evaluation leave: the registers but their own, a device fault that stands, the flags of `PWR_STAT`,
the bytes of the stores, and, where no device fault begins, all of the compute state. -/
structure Sensed (s t : State) : Prop where
  regs : sameRegs s t sensedRegs
  fault : flag s R.glbFault 31 = true → flag t R.glbFault 31 = true
  stat : ∀ i < 32, flag s R.pwrStat i = true → flag t R.pwrStat i = true
  comp : t.comp = s.comp ∨ (flag s R.glbFault 31 = false ∧ flag t R.glbFault 31 = true)
  store : t.comp.store = s.comp.store
  deep : t.deep = s.deep
  fab : t.fab = s.fab
  time : t.time = s.time

theorem Sensed.refl (s : State) : Sensed s s := ⟨sameRegs_refl s _, id, fun _ _ => id, .inl rfl, rfl, rfl, rfl, rfl⟩

theorem Sensed.trans {s t u : State} (h : Sensed s t) (h' : Sensed t u) : Sensed s u := by
  refine ⟨sameRegs_trans h.regs h'.regs, h'.fault ∘ h.fault, fun i hi => h'.stat i hi ∘ h.stat i hi, ?_, h'.store.trans h.store,
    h'.deep.trans h.deep, h'.fab.trans h.fab, h'.time.trans h.time⟩
  rcases h.comp with hc | ⟨hs, ht⟩
  · rcases h'.comp with hc' | ⟨ht, hu⟩
    · exact .inl (hc'.trans hc)
    · refine .inr ⟨?_, hu⟩
      cases hs : flag s R.glbFault 31 with
      | false => rfl
      | true => exact absurd (h.fault hs) (by simp [ht])
  · exact .inr ⟨hs, h'.fault ht⟩

theorem sensed_foldl {α : Type} {f : State → α → State} (h : ∀ s x, Sensed s (f s x)) (l : List α) (s : State) :
    Sensed s (l.foldl f s) :=
  foldl_preserves (P := Sensed s) (fun t x hs => hs.trans (h t x)) l (Sensed.refl s)

theorem sensed_power (s : State) (p : PowerSt) : Sensed s { s with power := p } :=
  ⟨fun _ _ => rfl, id, fun _ _ => id, .inl rfl, rfl, rfl, rfl, rfl⟩

theorem sensed_of_regs {s t : State} (hregs : t.regs = s.regs) (hcomp : t.comp = s.comp) (hdeep : t.deep = s.deep)
    (hfab : t.fab = s.fab) (htime : t.time = s.time) : Sensed s t := by
  have hflag (off i : Nat) : flag t off i = flag s off i := by rw [flag, flag, rd, rd, hregs]
  exact ⟨sameRegs_of_regs hregs _, fun h => (hflag _ _).trans h, fun i _ h => (hflag _ i).trans h, .inl hcomp, by rw [hcomp], hdeep,
    hfab, htime⟩

theorem alertLow_frame (s : State) : (alertLow s).comp = s.comp ∧ (alertLow s).deep = s.deep ∧ (alertLow s).fab = s.fab ∧
    (alertLow s).time = s.time ∧ (alertLow s).power = s.power := by
  unfold alertLow
  split <;> exact ⟨rfl, rfl, rfl, rfl, rfl⟩

theorem sensed_alertLow (s : State) : Sensed s (alertLow s) := by
  obtain ⟨hcomp, hdeep, hfab, htime, -⟩ := alertLow_frame s
  exact sensed_of_regs (alertLow_regs s) hcomp hdeep hfab htime

theorem flag_raise_mono (s : State) {off k i x : Nat} (hi : i < 32) (h : flag s x i = true) : flag (raise s off k) x i = true := by
  by_cases hx : x = off
  · subst hx
    rw [raise, flag_setF_same _ _ _ le_rfl hi]
    split
    · next hk =>
      rw [show i - k = 0 by omega]
      rfl
    · exact h
  · rw [flag, rd_raise_ne _ _ hx]
    exact h

theorem sensed_raise (s : State) (i : Nat) : Sensed s (raise s R.pwrStat i) := by
  have hf : flag (raise s R.pwrStat i) R.glbFault 31 = flag s R.glbFault 31 := by rw [flag, rd_raise_ne _ _ (by decide), flag]
  exact ⟨sameRegs_raise s i (by simp [sensedRegs]), fun h => hf.trans h, fun _ hi h => flag_raise_mono s hi h, .inl (raise_comp _ _ _),
    by rw [raise_comp], raise_deep _ _ _, raise_fab _ _ _, raise_time _ _ _⟩

theorem deviceFault_power (s : State) (cause unit : Nat) : (deviceFault s cause unit).power = s.power :=
  (congrArg State.power (deviceFault_faultless s cause unit) :)

theorem deviceFault_store (s : State) (cause unit : Nat) : (deviceFault s cause unit).comp.store = s.comp.store :=
  (congrArg (fun x : State => x.comp.store) (deviceFault_faultless s cause unit) :)

theorem sensed_deviceFault (s : State) {cause unit : Nat} (h : 256 * unit + cause < 2 ^ 31) :
    Sensed s (deviceFault s cause unit) := by
  have hregs := sameRegs_deviceFault s cause unit
  have hstat (i : Nat) : flag (deviceFault s cause unit) R.pwrStat i = flag s R.pwrStat i := by
    rw [flag, flag, rd_deviceFault_ne s cause unit (by decide)]
  refine ⟨sameRegs_mono hregs (List.subset_cons_self _ _), fun _ => flag_deviceFault s h, fun i _ hi => (hstat i).trans hi, ?_,
    deviceFault_store _ _ _, deviceFault_deep _ _ _, deviceFault_fab _ _ _, deviceFault_time _ _ _⟩
  cases hf : flag s R.glbFault 31 with
  | true => exact .inl (by rw [deviceFault_of_faulted hf])
  | false => exact .inr ⟨rfl, flag_deviceFault s h⟩

/-! ### The readings of an evaluation -/

/-- What the readings of the islands and stacks leave of the power state. -/
def State.gauges (s : State) : Int × Nat × Int × Nat × Bool :=
  (s.power.switchTemp, s.power.watts, s.power.corr, s.power.lamp, s.power.tripped)

/-- The state with what a stack's sensor read, before a device fault. -/
def stackNoted (s : State) (d : Nat) (t : Int) : State :=
  { s with power := (stackReading s d t).power }

theorem stackReading_spec (s : State) (d : Nat) (t : Int) : Sensed s (stackReading s d t) ∧
    (stackReading s d t).gauges = s.gauges ∧ (stackReading s d t).power.isl = s.power.isl := by
  unfold stackReading
  extract_lets ok bad _ p u
  have hu : Sensed s u := sensed_power s _
  have hgauges : u.gauges = s.gauges := by
    simp only [u]
    split <;> rfl
  have hisl : u.power.isl = s.power.isl := by
    simp only [u]
    split <;> rfl
  split
  · have hpower := deviceFault_power u 6 0
    exact ⟨hu.trans (sensed_deviceFault u (by decide)), by rw [State.gauges, hpower]; exact hgauges, by rw [hpower, hisl]⟩
  · exact ⟨hu, hgauges, hisl⟩

/-- The state with the readings of the switch die and the estimate. -/
def gaugesTaken (s : State) (r : Readings) : State := { s with power := { s.power with switchTemp := r.switchDie, watts := r.watts } }

/-- An island's sensor is read. -/
def islRead (s : State) (e : Nat × Int) : State :=
  if e.1 < 1280 then setIsl s e.1 { islOf s e.1 with temp := e.2 } else s

theorem takeReadings_eq (s : State) (r : Readings) : takeReadings s r =
    ((List.range 8).zip r.stackTemps).foldl (fun s e => stackReading s e.1 e.2) (r.temps.foldl islRead (gaugesTaken s r)) := by
  unfold takeReadings islRead gaugesTaken
  rfl

theorem islRead_spec (s : State) (e : Nat × Int) : Sensed s (islRead s e) ∧ (islRead s e).gauges = s.gauges := by
  unfold islRead
  split
  · exact ⟨sensed_power s _, rfl⟩
  · exact ⟨Sensed.refl s, rfl⟩

theorem takeReadings_spec (s : State) (r : Readings) : Sensed s (takeReadings s r) ∧
    (takeReadings s r).gauges = (r.switchDie, r.watts, s.power.corr, s.power.lamp, s.power.tripped) := by
  rw [takeReadings_eq]
  refine ⟨((sensed_power s _).trans (sensed_foldl (fun u e => (islRead_spec u e).1) r.temps _)).trans
    (sensed_foldl (fun u (e : Nat × Int) => (stackReading_spec u e.1 e.2).1) _ _), ?_⟩
  rw [foldl_keeps State.gauges fun u (e : Nat × Int) _ => (stackReading_spec u e.1 e.2).2.1,
    foldl_keeps State.gauges fun u e _ => (islRead_spec u e).2]
  rfl

theorem isl_takeReadings (s : State) (r : Readings) :
    (takeReadings s r).power.isl = (r.temps.foldl islRead (gaugesTaken s r)).power.isl := by
  rw [takeReadings_eq]
  exact foldl_keeps (fun u => u.power.isl) (fun u (e : Nat × Int) _ => (stackReading_spec u e.1 e.2).2.2) _

theorem temp_takeReadings_single {s : State} {r : Readings} {e : Nat × Int} (h : r.temps = [e]) (hlt : e.1 < 1280) :
    (islOf (takeReadings s r) e.1).temp = e.2 := by
  have hread : r.temps.foldl islRead (gaugesTaken s r) =
      setIsl (gaugesTaken s r) e.1 { islOf (gaugesTaken s r) e.1 with temp := e.2 } := by
    rw [h, List.foldl_cons, List.foldl_nil, islRead, if_pos hlt]
  have hisl : islOf (takeReadings s r) e.1 = islOf (r.temps.foldl islRead (gaugesTaken s r)) e.1 := by
    rw [islOf, isl_takeReadings]
    rfl
  rw [hisl, hread, islOf_setIsl_same]

/-! ### WARN and the thermal trip -/

theorem switchTemp_le_hottest (s : State) : s.power.switchTemp ≤ hottest s := by
  refine le_trans ?_ (le_foldl_max _ _ _)
  exact le_foldl_max (fun t => t) s.power.stackTemps _

/-- The state after WARN is looked at. -/
def warned (s : State) : State :=
  if (4 * getF s R.pwrTherm 7 0 : Int) ≤ hottest s then
    (if flag s R.pwrStat 2 then s else alertLow (raise s R.pwrStat 2)) else s

theorem warned_spec (s : State) : Sensed s (warned s) ∧ (warned s).power = s.power ∧
    ((4 * getF s R.pwrTherm 7 0 : Int) ≤ hottest s → flag (warned s) R.pwrStat 2 = true) := by
  unfold warned
  split
  · next hle =>
    split
    · next hflag => exact ⟨Sensed.refl s, rfl, fun _ => hflag⟩
    · obtain ⟨-, -, -, -, hpower⟩ := alertLow_frame (raise s R.pwrStat 2)
      refine ⟨(sensed_raise s 2).trans (sensed_alertLow _), by rw [hpower, raise_power], fun _ => ?_⟩
      rw [flag, rd, alertLow_regs]
      exact flag_raise_same s _ (by decide)
  · next hle => exact ⟨Sensed.refl s, rfl, fun h => absurd h hle⟩

/-- The state in which the package has tripped, before its device fault. -/
def trippedState (s : State) : State := emit { s with power := { s.power with tripped := true } } (.pin "THERMTRIP_N" false)

/-- The first island at the temperature of a trip. -/
def tripUnit (s : State) : Nat := ((List.range 1280).find? fun g => decide (432 ≤ (islOf s g).temp)).getD 0

theorem tripUnit_lt (s : State) : tripUnit s < 1280 := by
  unfold tripUnit
  cases h : (List.range 1280).find? fun g => decide (432 ≤ (islOf s g).temp) with
  | none => decide
  | some g => exact List.mem_range.1 (List.mem_of_find?_eq_some h)

theorem sensorLimits_eq (s : State) : sensorLimits s =
    if hottest s < 432 ∨ (warned s).power.tripped = true then warned s
    else deviceFault (trippedState (warned s)) 0x01 (tripUnit (warned s)) := by
  unfold sensorLimits
  dsimp only
  rw [← warned, ← trippedState, ← tripUnit]

theorem sensed_trippedState (s : State) : Sensed s (trippedState s) := sensed_of_regs rfl rfl rfl rfl rfl

theorem sensorLimits_spec (s : State) : Sensed s (sensorLimits s) ∧ (sensorLimits s).power.isl = s.power.isl ∧
    (sensorLimits s).power.watts = s.power.watts ∧ (sensorLimits s).power.corr = s.power.corr ∧
    (sensorLimits s).power.lamp = s.power.lamp ∧
    ((4 * getF s R.pwrTherm 7 0 : Int) ≤ hottest s → flag (sensorLimits s) R.pwrStat 2 = true) ∧
    (432 ≤ hottest s → (sensorLimits s).power.tripped = true ∧
      (s.power.tripped = false → flag (sensorLimits s) R.glbFault 31 = true)) := by
  obtain ⟨hw, hpower, hwarn⟩ := warned_spec s
  rw [sensorLimits_eq]
  split
  · next hcalm =>
    refine ⟨hw, by rw [hpower], by rw [hpower], by rw [hpower], by rw [hpower], hwarn, fun hhot => ?_⟩
    have htr : (warned s).power.tripped = true := hcalm.resolve_left (not_lt.2 hhot)
    exact ⟨htr, fun hno => absurd (by rw [← hpower]; exact htr) (Bool.not_eq_true _ ▸ hno)⟩
  · have hunit := tripUnit_lt (warned s)
    have hlt : 256 * tripUnit (warned s) + 0x01 < 2 ^ 31 := by omega
    have hdf := sensed_deviceFault (trippedState (warned s)) hlt
    have hp := deviceFault_power (trippedState (warned s)) 0x01 (tripUnit (warned s))
    have htp : (trippedState (warned s)).power = { s.power with tripped := true } := by rw [← hpower]; rfl
    rw [htp] at hp
    refine ⟨(hw.trans (sensed_trippedState _)).trans hdf, by rw [hp], by rw [hp], by rw [hp], by rw [hp], fun h => ?_,
      fun _ => ⟨by rw [hp], fun _ => flag_deviceFault _ hlt⟩⟩
    exact hdf.stat 2 (by decide) ((sensed_trippedState _).stat 2 (by decide) (hwarn h))

/-! ### One island's evaluation (R577 to R581) -/

/-- An island above its throttle is counted. -/
def hotCounted (s : State) (hot : Bool) : State := if hot then bump s R.pwrCntThrot 1 else s

/-- A clamp that begins shows. -/
def clampShown (s : State) (g : Nat) (begins : Bool) : State :=
  if begins then raise (bump (raise s (R.pwrIsl g) 31) R.pwrCntClamp 1) R.pwrStat 0 else s

/-- A clamp that ends no longer shows. -/
def clampCleared (s : State) (g : Nat) (ends : Bool) : State := if ends then setF s (R.pwrIsl g) 31 31 0 else s

/-- A grant that falls takes effect. -/
def grantLowered (s : State) (g old new : Nat) : State := if new < old then setGrant s g new else s

/-- The code that an evaluation finds for an island. -/
def evalCode (s0 : State) (ovr hold : Bool) (g : Nat) : Nat := (clampLimit s0 g (ownLimit s0 g ovr hold)).1

/-- An evaluation's steps on one island. -/
theorem evalIsland_eq (s0 : State) (ovr hold : Bool) (s : State) (g : Nat) : ∃ hot begins ends x,
    evalIsland s0 ovr hold s g = setIsl (grantLowered (clampCleared (clampShown (hotCounted s hot) g begins) g ends) g
      (grantOf s0 g) (evalCode s0 ovr hold g)) g x ∧ x.temp = (islOf s0 g).temp ∧
    ((4 * getF s0 R.pwrTherm 15 8 : Int) ≤ (islOf s0 g).temp → x.throt = true) := by
  refine ⟨_, _, _, _, rfl, rfl, fun h => ?_⟩
  rw [decide_eq_true h]
  rfl

theorem foldl_min_le {α : Type} (f : α → Nat) (l : List α) (m : Nat × Bool) (b : Nat × Bool → α → Bool) :
    (l.foldl (fun m x => (min m.1 (f x), b m x)) m).1 ≤ m.1 := by
  induction l generalizing m with
  | nil => exact le_rfl
  | cons x l ih => exact (ih _).trans (min_le_left _ _)

theorem clampLimit_le (s : State) (g code : Nat) : (clampLimit s g code).1 ≤ code := by
  unfold clampLimit
  dsimp only
  split
  · exact (min_le_left _ _).trans (foldl_min_le _ _ _ _)
  · exact foldl_min_le _ _ _ _

theorem evalCode_le_own (s0 : State) (ovr hold : Bool) (g : Nat) : evalCode s0 ovr hold g ≤ ownLimit s0 g ovr hold :=
  clampLimit_le _ _ _

theorem ownLimit_le_target (s : State) (g : Nat) (ovr hold : Bool) :
    ownLimit s g ovr hold ≤ getF s (R.pwrIsl g) 4 0 ∧ ownLimit s g ovr hold ≤ getF s (R.pwrIsl g) 20 16 := by
  unfold ownLimit
  dsimp only
  constructor
  · exact (min_le_left _ _).trans ((min_le_left _ _).trans (min_le_left _ _))
  · exact (min_le_left _ _).trans ((min_le_left _ _).trans (min_le_right _ _))

theorem ownLimit_of_hot {s : State} {g : Nat} (ovr hold : Bool)
    (h : (4 * getF s R.pwrTherm 15 8 : Int) ≤ (islOf s g).temp) : ownLimit s g ovr hold ≤ grantOf s g - 1 := by
  unfold ownLimit
  dsimp only
  rw [if_pos h]
  exact (min_le_left _ _).trans (min_le_right _ _)

theorem ownLimit_of_over {s : State} {g : Nat} (hold : Bool) (hbusy : busy s g = true) (hawake : dozing s g = false) :
    ownLimit s g true hold ≤ grantOf s g - 1 := by
  unfold ownLimit
  dsimp only
  rw [hbusy, hawake, if_pos rfl]
  exact (min_le_right _ _).trans (min_le_left _ _)

/-! ### What an evaluation's step leaves -/

theorem pwrIsl_ge (g : Nat) : 0x110000 ≤ R.pwrIsl g := Nat.le_add_right _ _

theorem rd_hotCounted (s : State) (hot : Bool) {off : Nat} (h : off ≠ R.pwrCntThrot) : rd (hotCounted s hot) off = rd s off := by
  unfold hotCounted
  split
  · exact rd_bump_ne s 1 h
  · rfl

theorem rd_clampShown (s : State) (g : Nat) (begins : Bool) {off : Nat} (hg : off ≠ R.pwrIsl g) (hc : off ≠ R.pwrCntClamp)
    (hs : off ≠ R.pwrStat) : rd (clampShown s g begins) off = rd s off := by
  unfold clampShown
  split
  · rw [rd_raise_ne _ _ hs, rd_bump_ne _ _ hc, rd_raise_ne _ _ hg]
  · rfl

theorem rd_clampCleared (s : State) (g : Nat) (ends : Bool) {off : Nat} (hg : off ≠ R.pwrIsl g) :
    rd (clampCleared s g ends) off = rd s off := by
  unfold clampCleared
  split
  · exact rd_setF_ne _ _ _ _ hg
  · rfl

theorem rd_grantLowered (s : State) (g old new : Nat) {off : Nat} (hg : off ≠ R.pwrIsl g) :
    rd (grantLowered s g old new) off = rd s off := by
  unfold grantLowered
  split
  · exact rd_setF_ne _ _ _ _ hg
  · rfl

/-- The fields below bit 31 of an island's register stay as a clamp begins or ends. -/
theorem getF_clampShown (s : State) (g : Nat) (begins : Bool) {hi lo : Nat} (h : hi < 31) :
    getF (clampShown s g begins) (R.pwrIsl g) hi lo = getF s (R.pwrIsl g) hi lo := by
  have hge := pwrIsl_ge g
  unfold clampShown
  split
  · have hrd : rd (raise (bump (raise s (R.pwrIsl g) 31) R.pwrCntClamp 1) R.pwrStat 0) (R.pwrIsl g) =
        rd (raise s (R.pwrIsl g) 31) (R.pwrIsl g) := by
      rw [rd_raise_ne _ _ (by simp only [R.pwrStat]; omega), rd_bump_ne _ _ (by simp only [R.pwrCntClamp]; omega)]
    rw [getF_congr_rd hrd, raise, getF_setF_apart _ _ _ le_rfl (.inl h) (by omega)]
  · rfl

theorem getF_clampCleared (s : State) (g : Nat) (ends : Bool) {hi lo : Nat} (h : hi < 31) :
    getF (clampCleared s g ends) (R.pwrIsl g) hi lo = getF s (R.pwrIsl g) hi lo := by
  unfold clampCleared
  split
  · exact getF_setF_apart _ _ _ le_rfl (.inl h) (by omega)
  · rfl

theorem getF_grantLowered (s : State) (g old new : Nat) {hi lo : Nat} (h : hi < 8 ∨ 12 < lo) (hw : hi < 32) :
    getF (grantLowered s g old new) (R.pwrIsl g) hi lo = getF s (R.pwrIsl g) hi lo := by
  unfold grantLowered
  split
  · exact getF_setF_apart _ _ _ (by decide) h hw
  · rfl

theorem grantOf_grantLowered {s : State} {g old new : Nat} (hold : grantOf s g = old) :
    grantOf (grantLowered s g old new) g = min new old := by
  have hlt : old < 32 := by rw [← hold]; exact getF_lt s _ 12 8
  unfold grantLowered
  split
  · next hnew =>
    rw [grantOf, setGrant, getF_setF_same _ _ _ (by decide) (by decide), min_eq_left hnew.le]
    exact Nat.mod_eq_of_lt (hnew.trans hlt)
  · next hnew => rw [hold, min_eq_right (not_lt.1 hnew)]

/-- What an evaluation leaves of an island: its target, its maximum and its state field, the lower of the codes, its
temperature, and THROT where it is hot. -/
structure Evaluated (s0 : State) (new : Nat) (g : Nat) (t : State) : Prop where
  target : getF t (R.pwrIsl g) 4 0 = getF s0 (R.pwrIsl g) 4 0
  upper : getF t (R.pwrIsl g) 30 16 = getF s0 (R.pwrIsl g) 30 16
  grant : grantOf t g = min new (grantOf s0 g)
  temp : (islOf t g).temp = (islOf s0 g).temp
  throt : (4 * getF s0 R.pwrTherm 15 8 : Int) ≤ (islOf s0 g).temp → (islOf t g).throt = true

theorem evaluated_congr {s0 : State} {new g : Nat} {t u : State} (hrd : rd u (R.pwrIsl g) = rd t (R.pwrIsl g))
    (hisl : islOf u g = islOf t g) (h : Evaluated s0 new g t) : Evaluated s0 new g u := by
  obtain ⟨htarget, hupper, hgrant, htemp, hthrot⟩ := h
  exact ⟨by rw [getF_congr_rd hrd, htarget], by rw [getF_congr_rd hrd, hupper], by rw [grantOf, getF_congr_rd hrd]; exact hgrant,
    by rw [hisl, htemp], by rw [hisl]; exact hthrot⟩

theorem evaluated_evalIsland {s0 s : State} {g : Nat} (ovr hold : Bool) (hrd : rd s (R.pwrIsl g) = rd s0 (R.pwrIsl g)) :
    Evaluated s0 (evalCode s0 ovr hold g) g (evalIsland s0 ovr hold s g) := by
  obtain ⟨hot, begins, ends, x, heq, htemp, hthrot⟩ := evalIsland_eq s0 ovr hold s g
  have hge := pwrIsl_ge g
  have hfield {hi lo : Nat} (h : hi < 31) : getF (clampCleared (clampShown (hotCounted s hot) g begins) g ends) (R.pwrIsl g) hi lo =
      getF s0 (R.pwrIsl g) hi lo := by
    rw [getF_clampCleared _ _ _ h, getF_clampShown _ _ _ h, getF_congr_rd (rd_hotCounted s hot (by simp only [R.pwrCntThrot]; omega)),
      getF_congr_rd hrd]
  generalize clampCleared (clampShown (hotCounted s hot) g begins) g ends = u at heq hfield
  rw [heq]
  refine ⟨?_, ?_, ?_, by rw [islOf_setIsl_same, htemp], fun h => by rw [islOf_setIsl_same]; exact hthrot h⟩
  · exact (getF_grantLowered u g _ _ (.inl (by decide)) (by decide)).trans (hfield (by decide))
  · exact (getF_grantLowered u g _ _ (.inr (by decide)) (by decide)).trans (hfield (by decide))
  · exact grantOf_grantLowered (hfield (by decide))

/-- The registers that an island's evaluation can change. -/
def evalRegs (g : Nat) : List Nat := [R.pwrIsl g, R.pwrCntThrot, R.pwrCntClamp, R.pwrStat]

theorem rd_evalIsland (s0 : State) (ovr hold : Bool) (s : State) (g : Nat) : sameRegs s (evalIsland s0 ovr hold s g) (evalRegs g) := by
  obtain ⟨hot, begins, ends, x, heq, -⟩ := evalIsland_eq s0 ovr hold s g
  intro off hoff
  obtain ⟨hg, hthrot, hclamp, hstat⟩ : off ≠ R.pwrIsl g ∧ off ≠ R.pwrCntThrot ∧ off ≠ R.pwrCntClamp ∧ off ≠ R.pwrStat := by
    simpa [evalRegs] using hoff
  rw [heq]
  refine (rd_grantLowered _ g _ _ hg).trans ?_
  rw [rd_clampCleared _ _ _ hg, rd_clampShown _ _ _ hg hclamp hstat, rd_hotCounted _ _ hthrot]

theorem flag_evalIsland {s : State} (s0 : State) (ovr hold : Bool) {g i : Nat} (hi : i < 32) (h : flag s R.pwrStat i = true) :
    flag (evalIsland s0 ovr hold s g) R.pwrStat i = true := by
  obtain ⟨hot, begins, ends, x, heq, -⟩ := evalIsland_eq s0 ovr hold s g
  have hge := pwrIsl_ge g
  have hne : R.pwrStat ≠ R.pwrIsl g := by simp only [R.pwrStat]; omega
  have hhot : flag (hotCounted s hot) R.pwrStat i = true := by rw [flag_congr_rd (rd_hotCounted s hot (by decide)), h]
  have hshown : flag (clampShown (hotCounted s hot) g begins) R.pwrStat i = true := by
    unfold clampShown
    split
    · refine flag_raise_mono _ hi ?_
      rw [flag, rd_bump_ne _ _ (by decide), rd_raise_ne _ _ hne]
      exact hhot
    · exact hhot
  rw [heq]
  have hrd := (rd_grantLowered (clampCleared (clampShown (hotCounted s hot) g begins) g ends) g (grantOf s0 g)
    (evalCode s0 ovr hold g) hne).trans (rd_clampCleared _ g ends hne)
  exact (flag_congr_rd hrd i).trans hshown

/-- What neither an island's evaluation nor its readings shown change. -/
def State.ungranted (s : State) : ComputeSt × DeepSt × FabSt × TimeSt × Bool × Nat :=
  (s.comp, s.deep, s.fab, s.time, s.power.tripped, rd s R.glbFault)

theorem ungranted_setF (s : State) {off : Nat} (hi lo v : Nat) (h : R.glbFault ≠ off) : (setF s off hi lo v).ungranted = s.ungranted := by
  have hrd := rd_setF_ne s hi lo v h
  simp only [State.ungranted, setF_comp, setF_deep, setF_fab, setF_time, setF_power, hrd]

theorem glbFault_ne_pwrIsl (g : Nat) : R.glbFault ≠ R.pwrIsl g := by
  simp only [R.glbFault, R.pwrIsl]
  omega

theorem ungranted_evalIsland (s0 : State) (ovr hold : Bool) (s : State) (g : Nat) :
    (evalIsland s0 ovr hold s g).ungranted = s.ungranted := by
  obtain ⟨hot, begins, ends, x, heq, -⟩ := evalIsland_eq s0 ovr hold s g
  have hne := glbFault_ne_pwrIsl g
  have hhot : (hotCounted s hot).ungranted = s.ungranted := by
    unfold hotCounted
    split
    · exact ungranted_setF s _ _ _ (by decide)
    · rfl
  have hshown (u : State) : (clampShown u g begins).ungranted = u.ungranted := by
    unfold clampShown
    split
    · exact (ungranted_setF _ _ _ _ (by decide)).trans ((ungranted_setF _ _ _ _ (by decide)).trans (ungranted_setF u _ _ _ hne))
    · rfl
  have hcleared (u : State) : (clampCleared u g ends).ungranted = u.ungranted := by
    unfold clampCleared
    split
    · exact ungranted_setF u _ _ _ hne
    · rfl
  have hlow (u : State) (old new : Nat) : (grantLowered u g old new).ungranted = u.ungranted := by
    unfold grantLowered
    split
    · exact ungranted_setF u _ _ _ hne
    · rfl
  have hisl (u : State) (y : IslSt) : (setIsl u g y).ungranted = u.ungranted := rfl
  rw [heq, hisl, hlow, hcleared, hshown, hhot]

/-! ### What an island shows -/

/-- A rounding uses a free value at most. -/
theorem roundFree_frame (s : State) (x d : Int) : (roundFree s x d).2 = { s with freeCtr := (roundFree s x d).2.freeCtr } := by
  unfold roundFree
  split <;> rfl

/-- What an island shows changes its own `PWR_ISLM` alone, and the free values used. -/
theorem showIsland_eq (s : State) (g : Nat) : ∃ u v w, showIsland s g =
    setF (setF u (R.pwrIslm g) 15 8 v) (R.pwrIslm g) 7 0 w ∧ u = { s with freeCtr := u.freeCtr } := by
  refine ⟨_, _, _, rfl, ?_⟩
  refine (roundFree_frame _ _ _).trans ?_
  rw [roundFree_frame s]

theorem rd_showIsland (s : State) {g off : Nat} (h : off ≠ R.pwrIslm g) : rd (showIsland s g) off = rd s off := by
  obtain ⟨u, v, w, heq, hu⟩ := showIsland_eq s g
  rw [heq, rd_setF_ne _ _ _ _ h, rd_setF_ne _ _ _ _ h, hu]
  rfl

theorem power_showIsland (s : State) (g : Nat) : (showIsland s g).power = s.power := by
  obtain ⟨u, v, w, heq, hu⟩ := showIsland_eq s g
  rw [heq, setF_power, setF_power, hu]

theorem ungranted_showIsland (s : State) (g : Nat) : (showIsland s g).ungranted = s.ungranted := by
  obtain ⟨u, v, w, heq, hu⟩ := showIsland_eq s g
  have hne : R.glbFault ≠ R.pwrIslm g := by
    simp only [R.glbFault, R.pwrIslm]
    omega
  rw [heq, ungranted_setF _ _ _ _ hne, ungranted_setF _ _ _ _ hne, hu]
  rfl

/-! ### A whole evaluation -/

/-- Does the cap hold the grants in the next evaluation? -/
def capHolds (s : State) : Bool :=
  overCap s || (s.power.capHold && decide (getF s R.pwrCap 11 0 * 98 < packageWatts s * 100))

/-- The state that an evaluation starts from: the cap is looked at. -/
def capNoted (s : State) : State :=
  { if overCap s then raise s R.pwrStat 3 else s with power := { (if overCap s then raise s R.pwrStat 3 else s).power with
      capHold := capHolds s } }

theorem healthEvaluate_lamp {s : State} {r : Readings} (h : (sensorLimits (takeReadings s r)).power.lamp ≠ 0) :
    healthEvaluate r s = sensorLimits (takeReadings s r) := by
  unfold healthEvaluate
  dsimp only
  rw [if_pos h]

theorem healthEvaluate_run {s : State} {r : Readings} (h : (sensorLimits (takeReadings s r)).power.lamp = 0) :
    healthEvaluate r s = (List.range 1280).foldl showIsland ((List.range 1280).foldl
      (evalIsland (capNoted (sensorLimits (takeReadings s r))) (overCap (sensorLimits (takeReadings s r)))
        (capHolds (sensorLimits (takeReadings s r)))) (capNoted (sensorLimits (takeReadings s r)))) := by
  unfold healthEvaluate
  dsimp only
  rw [if_neg (not_not.2 h), ← capHolds, ← capNoted]

theorem capNoted_spec (s : State) : Sensed s (capNoted s) ∧ (capNoted s).power.isl = s.power.isl ∧
    (capNoted s).power.tripped = s.power.tripped ∧ (overCap s = true → flag (capNoted s) R.pwrStat 3 = true) := by
  have hin : Sensed s (if overCap s then raise s R.pwrStat 3 else s) ∧ (if overCap s then raise s R.pwrStat 3 else s).power = s.power ∧
      (overCap s = true → flag (if overCap s then raise s R.pwrStat 3 else s) R.pwrStat 3 = true) := by
    split
    · exact ⟨sensed_raise s 3, raise_power _ _ _, fun _ => flag_raise_same s _ (by decide)⟩
    · next hno => exact ⟨Sensed.refl s, rfl, fun h => absurd h hno⟩
  unfold capNoted
  generalize (if overCap s then raise s R.pwrStat 3 else s) = u at *
  obtain ⟨hs, hpower, hflag⟩ := hin
  exact ⟨hs.trans (sensed_power u _), by rw [hpower], by rw [hpower], hflag⟩

theorem islOf_evalIsland_ne (s0 : State) (ovr hold : Bool) (s : State) {g k : Nat} (h : k ≠ g) :
    islOf (evalIsland s0 ovr hold s g) k = islOf s k := by
  obtain ⟨hot, begins, ends, x, heq, -⟩ := evalIsland_eq s0 ovr hold s g
  have hhot : (hotCounted s hot).power = s.power := by
    unfold hotCounted
    split
    · exact bump_power _ _ _
    · rfl
  have hshown (u : State) : (clampShown u g begins).power = u.power := by
    unfold clampShown
    split
    · rw [raise_power, bump_power, raise_power]
    · rfl
  have hcleared (u : State) : (clampCleared u g ends).power = u.power := by
    unfold clampCleared
    split
    · exact setF_power _ _ _ _ _
    · rfl
  have hlow (u : State) (old new : Nat) : (grantLowered u g old new).power = u.power := by
    unfold grantLowered
    split
    · exact setF_power _ _ _ _ _
    · rfl
  rw [heq, islOf_setIsl_ne _ _ h, islOf, hlow, hcleared, hshown, hhot]
  rfl

theorem islOf_showIsland (s : State) (g k : Nat) : islOf (showIsland s g) k = islOf s k := by
  rw [islOf, islOf, power_showIsland]

theorem pwrIslm_ne {g k : Nat} (h : g < 1280) : R.pwrIsl g ≠ R.pwrIslm k := by
  simp only [R.pwrIsl, R.pwrIslm]
  omega

theorem evaluated_fold (b : State) (ovr hold : Bool) {g : Nat} (hg : g < 1280) :
    Evaluated b (evalCode b ovr hold g) g
      ((List.range 1280).foldl showIsland ((List.range 1280).foldl (evalIsland b ovr hold) b)) := by
  obtain ⟨w, hw, hfold⟩ := foldl_at (fun v => (rd v (R.pwrIsl g), islOf v g)) (f := evalIsland b ovr hold) (x := g)
    (fun v k hk => by
      have hne : R.pwrIsl g ∉ evalRegs k := by
        have hge := pwrIsl_ge g
        simp only [evalRegs, List.mem_cons, List.not_mem_nil, or_false, not_or]
        refine ⟨pwrIsl_ne hk.symm, ?_, ?_, ?_⟩ <;> simp only [R.pwrCntThrot, R.pwrCntClamp, R.pwrStat] <;> omega
      rw [rd_evalIsland b ovr hold v k _ hne, islOf_evalIsland_ne _ _ _ _ hk.symm])
    List.nodup_range (List.mem_range.2 hg) b
  simp only [Prod.mk.injEq] at hw hfold
  have heval := evaluated_evalIsland ovr hold hw.1
  generalize (List.range 1280).foldl (evalIsland b ovr hold) b = u at hfold ⊢
  refine evaluated_congr ?_ ?_ (evaluated_congr hfold.1 hfold.2 heval)
  · exact foldl_keeps (rd · (R.pwrIsl g)) (fun v k _ => rd_showIsland v (pwrIslm_ne hg)) u
  · exact foldl_keeps (islOf · g) (fun v k _ => islOf_showIsland v k g) u

theorem ungranted_fold (b : State) (ovr hold : Bool) :
    ((List.range 1280).foldl showIsland ((List.range 1280).foldl (evalIsland b ovr hold) b)).ungranted = b.ungranted :=
  (foldl_keeps State.ungranted (fun u g _ => ungranted_showIsland u g) _).trans
    (foldl_keeps State.ungranted (fun u g _ => ungranted_evalIsland b ovr hold u g) b)

theorem flag_fold (b : State) (ovr hold : Bool) {i : Nat} (hi : i < 32) (h : flag b R.pwrStat i = true) :
    flag ((List.range 1280).foldl showIsland ((List.range 1280).foldl (evalIsland b ovr hold) b)) R.pwrStat i = true := by
  have hne (g : Nat) : R.pwrStat ≠ R.pwrIslm g := by
    simp only [R.pwrStat, R.pwrIslm]
    omega
  refine (flag_congr_rd (foldl_keeps (rd · R.pwrStat) (fun u g _ => rd_showIsland u (hne g)) _) i).trans ?_
  exact foldl_preserves (P := fun u => flag u R.pwrStat i = true) (fun u g hu => flag_evalIsland b ovr hold hi hu) _ h

/-- What an evaluation leaves of the state after its readings, in lamp or not. -/
structure Shown (u t : State) : Prop where
  stat : ∀ i < 32, flag u R.pwrStat i = true → flag t R.pwrStat i = true
  fault : rd t R.glbFault = rd u R.glbFault
  tripped : t.power.tripped = u.power.tripped
  temp : ∀ g < 1280, (islOf t g).temp = (islOf u g).temp
  target : ∀ g < 1280, getF t (R.pwrIsl g) 4 0 = getF u (R.pwrIsl g) 4 0
  upper : ∀ g < 1280, getF t (R.pwrIsl g) 30 16 = getF u (R.pwrIsl g) 30 16
  store : t.comp.store = u.comp.store
  deep : t.deep = u.deep
  fab : t.fab = u.fab
  time : t.time = u.time

theorem Shown.refl (u : State) : Shown u u :=
  ⟨fun _ _ => id, rfl, rfl, fun _ _ => rfl, fun _ _ => rfl, fun _ _ => rfl, rfl, rfl, rfl, rfl⟩

theorem pwrIsl_notMem_sensedRegs {g : Nat} (hg : g < 1280) : R.pwrIsl g ∉ sensedRegs := by
  simp only [sensedRegs, trapRegs, List.mem_cons, List.not_mem_nil, or_false, not_or, R.pwrIsl, R.pwrStat, R.glbFault, R.milStat,
    R.milTrap]
  omega

theorem shown_run (u : State) (ovr hold : Bool) : Shown u ((List.range 1280).foldl showIsland
    ((List.range 1280).foldl (evalIsland (capNoted u) ovr hold) (capNoted u))) := by
  obtain ⟨hcap, hisl, htrip, -⟩ := capNoted_spec u
  have heval {g : Nat} (hg : g < 1280) := evaluated_fold (capNoted u) ovr hold hg
  have hstat (i : Nat) (hi : i < 32) (h : flag (capNoted u) R.pwrStat i = true) := flag_fold (capNoted u) ovr hold hi h
  have hrd {g : Nat} (hg : g < 1280) := hcap.regs _ (pwrIsl_notMem_sensedRegs hg)
  have hcomp : (capNoted u).comp.store = u.comp.store := hcap.store
  obtain ⟨hcompF, hdeepF, hfabF, htimeF, htripF, hfaultF⟩ := by
    simpa only [State.ungranted, Prod.mk.injEq] using ungranted_fold (capNoted u) ovr hold
  have hfault : rd (capNoted u) R.glbFault = rd u R.glbFault := by
    unfold capNoted
    have hne : R.glbFault ≠ R.pwrStat := by decide
    split
    · exact rd_raise_ne u 3 hne
    · rfl
  exact ⟨fun i hi h => hstat i hi (hcap.stat i hi h), hfaultF.trans hfault, htripF.trans htrip,
    fun g hg => ((heval hg).temp).trans (by rw [islOf, hisl]; rfl),
    fun g hg => ((heval hg).target).trans (getF_congr_rd (hrd hg) _ _), fun g hg => ((heval hg).upper).trans (getF_congr_rd (hrd hg) _ _),
    (congrArg ComputeSt.store hcompF).trans hcomp, hdeepF.trans hcap.deep, hfabF.trans hcap.fab, htimeF.trans hcap.time⟩

/-- What a run of the islands' evaluations leaves of an island's grant. -/
theorem grant_run {s : State} {r : Readings} {u : State} (hu : u = sensorLimits (takeReadings s r)) {g : Nat} (hg : g < 1280)
    {t : State} (ht : t = (List.range 1280).foldl showIsland
      ((List.range 1280).foldl (evalIsland (capNoted u) (overCap u) (capHolds u)) (capNoted u))) :
    grantOf t g ≤ grantOf s g ∧ grantOf t g ≤ getF s (R.pwrIsl g) 4 0 ∧ grantOf t g ≤ getF s (R.pwrIsl g) 20 16 ∧
      ((4 * getF s R.pwrTherm 15 8 : Int) ≤ (islOf (takeReadings s r) g).temp →
        grantOf t g ≤ grantOf s g - 1 ∧ (islOf t g).throt = true) ∧
      (getF s R.pwrCap 11 0 < ((r.watts : Int) + s.power.corr).toNat → flag t R.pwrStat 3 = true ∧
        (busy s g = true → dozing s g = false →
          grantOf t g ≤ grantOf s g - 1 ∨ (flag s R.glbFault 31 = false ∧ flag t R.glbFault 31 = true))) := by
  obtain ⟨hread, hgauges⟩ := takeReadings_spec s r
  obtain ⟨hlimit, hislL, hwatts, hcorr, -⟩ := sensorLimits_spec (takeReadings s r)
  obtain ⟨hcap, hislC, -, hcapFlag⟩ := capNoted_spec u
  have heval := evaluated_fold (capNoted u) (overCap u) (capHolds u) hg
  have hflag := flag_fold (capNoted u) (overCap u) (capHolds u) (i := 3) (by decide)
  have hungr := ungranted_fold (capNoted u) (overCap u) (capHolds u)
  rw [← ht] at heval hflag hungr
  rw [← hu] at hlimit hislL hwatts hcorr
  have hsensed : Sensed s (capNoted u) := (hread.trans hlimit).trans hcap
  have hreg {off hi lo : Nat} (h : off ∉ sensedRegs) : getF (capNoted u) off hi lo = getF s off hi lo :=
    getF_congr_rd (hsensed.regs off h) hi lo
  have hgrant : grantOf (capNoted u) g = grantOf s g := hreg (pwrIsl_notMem_sensedRegs hg)
  have hle : evalCode (capNoted u) (overCap u) (capHolds u) g ≤ _ := evalCode_le_own _ _ _ _
  obtain ⟨htarget, hfmax⟩ := ownLimit_le_target (capNoted u) g (overCap u) (capHolds u)
  rw [hreg (pwrIsl_notMem_sensedRegs hg)] at htarget hfmax
  have hcode : grantOf t g ≤ evalCode (capNoted u) (overCap u) (capHolds u) g := heval.grant ▸ min_le_left _ _
  refine ⟨?_, hcode.trans (hle.trans htarget), hcode.trans (hle.trans hfmax), fun hhot => ?_, fun hover => ?_⟩
  · rw [heval.grant, hgrant]
    exact min_le_right _ _
  · have hhot' : (4 * getF (capNoted u) R.pwrTherm 15 8 : Int) ≤ (islOf (capNoted u) g).temp := by
      rw [hreg (by decide), islOf, hislC, hislL]
      exact hhot
    refine ⟨hcode.trans (hle.trans ?_), heval.throt hhot'⟩
    rw [← hgrant]
    exact ownLimit_of_hot _ _ hhot'
  · have hoverU : overCap u = true := by
      have hpw : packageWatts u = ((r.watts : Int) + s.power.corr).toNat := by
        simp only [State.gauges, Prod.mk.injEq] at hgauges
        obtain ⟨-, hw, hc, -⟩ := hgauges
        rw [packageWatts, hwatts, hcorr, hw, hc]
      have hcapReg : getF u R.pwrCap 11 0 = getF s R.pwrCap 11 0 :=
        getF_congr_rd ((hread.trans hlimit).regs R.pwrCap (by decide)) 11 0
      rw [overCap, hpw, hcapReg, decide_eq_true hover]
    refine ⟨hflag (hcapFlag hoverU), fun hbusy hawake => ?_⟩
    rcases hsensed.comp with hcomp | ⟨hno, hyes⟩
    · refine .inl (hcode.trans (hle.trans ?_))
      have hbusy' : busy (capNoted u) g = true := by
        rw [← hbusy, busy, busy, slotSt, slotSt, hcomp]
      have hawake' : dozing (capNoted u) g = false := by rw [← hawake, dozing, dozing, hreg (pwrIsl_notMem_sensedRegs hg)]
      rw [hoverU, ← hgrant]
      exact ownLimit_of_over _ hbusy' hawake'
    · refine .inr ⟨hno, ?_⟩
      simp only [State.ungranted, Prod.mk.injEq] at hungr
      obtain ⟨-, -, -, -, -, hfault⟩ := hungr
      rw [flag_congr_rd hfault, hyes]

/-- A whole evaluation. -/
theorem healthEvaluate_spec (s : State) (r : Readings) {t : State} (ht : t = healthEvaluate r s) :
    (s.power.lamp = 0 → ∀ (d : Die) (i : Clu),
      grantOf t (cluNo d i) ≤ grantOf s (cluNo d i) ∧
      grantOf t (cluNo d i) ≤ getF s (R.pwrIsl (cluNo d i)) 4 0 ∧
      grantOf t (cluNo d i) ≤ getF s (R.pwrIsl (cluNo d i)) 20 16 ∧
      ((4 * getF s R.pwrTherm 15 8 : Int) ≤ (islOf (takeReadings s r) (cluNo d i)).temp →
        grantOf t (cluNo d i) ≤ grantOf s (cluNo d i) - 1 ∧ (islOf t (cluNo d i)).throt = true) ∧
      (getF s R.pwrCap 11 0 < ((r.watts : Int) + s.power.corr).toNat → flag t R.pwrStat 3 = true ∧
        (busy s (cluNo d i) = true → dozing s (cluNo d i) = false →
          grantOf t (cluNo d i) ≤ grantOf s (cluNo d i) - 1 ∨
            (flag s R.glbFault 31 = false ∧ flag t R.glbFault 31 = true)))) ∧
    (s.power.lamp ≠ 0 → ∀ (d : Die) (i : Clu), rd t (R.pwrIsl (cluNo d i)) = rd s (R.pwrIsl (cluNo d i))) ∧
    (∀ e ∈ r.temps, e.1 < 1280 → r.temps = [e] → (islOf t e.1).temp = e.2) ∧
    ((4 * getF s R.pwrTherm 7 0 : Int) ≤ r.switchDie → flag t R.pwrStat 2 = true) ∧
    (432 ≤ r.switchDie → t.power.tripped = true ∧ (s.power.tripped = false → flag t R.glbFault 31 = true)) ∧
    (∀ (d : Die) (i : Clu), getF t (R.pwrIsl (cluNo d i)) 4 0 = getF s (R.pwrIsl (cluNo d i)) 4 0 ∧
      getF t (R.pwrIsl (cluNo d i)) 30 16 = getF s (R.pwrIsl (cluNo d i)) 30 16) ∧
    t.comp.store = s.comp.store ∧ t.deep = s.deep ∧ t.fab = s.fab ∧ t.time = s.time := by
  obtain ⟨hread, hgauges⟩ := takeReadings_spec s r
  obtain ⟨hlimit, hisl, -, -, hlamp, hwarn, htrip⟩ := sensorLimits_spec (takeReadings s r)
  simp only [State.gauges, Prod.mk.injEq] at hgauges
  obtain ⟨hswitch, -, -, hlampR, htripR⟩ := hgauges
  have hlampU : (sensorLimits (takeReadings s r)).power.lamp = s.power.lamp := hlamp.trans hlampR
  have hsensed := hread.trans hlimit
  have hle : r.switchDie ≤ hottest (takeReadings s r) := hswitch ▸ switchTemp_le_hottest _
  have hrd {g : Nat} (hg : g < 1280) := hsensed.regs _ (pwrIsl_notMem_sensedRegs hg)
  have hshown : Shown (sensorLimits (takeReadings s r)) t := by
    by_cases h0 : s.power.lamp = 0
    · rw [ht, healthEvaluate_run (hlampU.trans h0)]
      exact shown_run _ _ _
    · rw [ht, healthEvaluate_lamp (by rw [hlampU]; exact h0)]
      exact Shown.refl _
  refine ⟨fun h0 d i => grant_run rfl (cluNo_lt d i) (by rw [ht, healthEvaluate_run (hlampU.trans h0)]), fun h0 d i => ?_,
    fun e _ hlt he => ?_, fun hw => ?_, fun hhot => ?_, fun d i => ⟨?_, ?_⟩, hshown.store.trans hsensed.store,
    hshown.deep.trans hsensed.deep, hshown.fab.trans hsensed.fab, hshown.time.trans hsensed.time⟩
  · rw [ht, healthEvaluate_lamp (by rw [hlampU]; exact h0)]
    exact hrd (cluNo_lt d i)
  · rw [hshown.temp _ hlt, islOf, hisl]
    exact temp_takeReadings_single he hlt
  · refine hshown.stat 2 (by decide) (hwarn ?_)
    rw [getF_congr_rd (hread.regs R.pwrTherm (by decide))]
    exact hw.trans hle
  · obtain ⟨htr, hfault⟩ := htrip (hhot.trans hle)
    exact ⟨hshown.tripped.trans htr, fun hno => by rw [flag_congr_rd hshown.fault, hfault (htripR.trans hno)]⟩
  · rw [hshown.target _ (cluNo_lt d i), getF_congr_rd (hrd (cluNo_lt d i))]
  · rw [hshown.upper _ (cluNo_lt d i), getF_congr_rd (hrd (cluNo_lt d i))]

/-! ### An island at its limit, a rise, and droops -/

theorem getF_setGrant (s : State) (g : Nat) {c : Nat} (h : c < 32) : grantOf (setGrant s g c) g = c := by
  rw [grantOf, setGrant, getF_setF_same _ _ _ (by decide) (by decide)]
  exact Nat.mod_eq_of_lt h

theorem timesOf_setTimes_same (s : State) (q : Res) {ts : List Nat} (h : ts ≠ []) : timesOf (setTimes s q ts) q = ts := by
  have hemp : ts.isEmpty = false := by simpa using h
  have hrest : (s.flt.events.filter fun e => e.1 != q).find? (fun e => e.1 == q) = none := by
    rw [List.find?_eq_none]
    intro e he
    simpa using (List.mem_filter.1 he).2
  have hevents : (setTimes s q ts).flt.events = (s.flt.events.filter fun e => e.1 != q) ++ [(q, ts)] := by
    unfold setTimes
    dsimp only
    rw [hemp, if_neg Bool.false_ne_true]
  rw [timesOf, hevents, List.find?_append, hrest]
  simp

/-- One event on a cluster that does not mark it lasting. -/
theorem clusterEvent_noted {s : State} {g : Nat} (hret : isRetired s (.cluster g) = false) (hnot : Res.cluster g ∉ s.flt.retiring)
    (hfew : (timesOf s (.cluster g)).length + 1 < getF s R.glbFwin 3 0) :
    clusterEvent s g 1 = setTimes s (.cluster g) (lampTick s :: timesOf s (.cluster g)) := by
  have hcontains : s.flt.retiring.contains (.cluster g) = false := by simpa using hnot
  have hroom : makeRoom s (.cluster g) = s := rfl
  have htake : (List.replicate 1 (lampTick s) ++ timesOf s (.cluster g)).take (getF s R.glbFwin 3 0) =
      lampTick s :: timesOf s (.cluster g) := List.take_of_length_le (by simpa using hfew.le)
  have hevent : event s (.cluster g) 1 = (setTimes s (.cluster g) (lampTick s :: timesOf s (.cluster g)), false) := by
    unfold event
    rw [hret, hcontains, if_neg (by decide)]
    dsimp only
    rw [hroom, htake, if_neg (by rw [List.length_cons]; omega)]
  rw [clusterEvent, hevent]
  rfl

/-- An island limited to code 0, before its event. -/
def islLimited (s : State) (g : Nat) : State := setGrant (setIsl s g { islOf s g with limited := true, rise := none }) g 0

theorem thermalLimit_eq {s : State} {d : Die} {i : Clu} {t0 : Nat} (hhot : (islOf s (cluNo d i)).hot = some t0)
    (hlim : (islOf s (cluNo d i)).limited = false) (hdue : t0 + 100000 ≤ s.time.lamp) :
    thermalLimit d i s = clusterEvent (islLimited s (cluNo d i)) (cluNo d i) 1 := by
  unfold thermalLimit
  dsimp only
  rw [hhot]
  dsimp only
  rw [if_neg (by simp [hlim, hdue]), ← hhot]
  rfl

theorem islLimited_frame (s : State) (g : Nat) : (islLimited s g).flt = s.flt ∧ (islLimited s g).time = s.time ∧
    sameRegs s (islLimited s g) [R.pwrIsl g] ∧
    islLimited s g = { s with regs := (islLimited s g).regs, power := (islLimited s g).power } := by
  have hframe : islLimited s g = { s with regs := (islLimited s g).regs, power := (islLimited s g).power } := by
    unfold islLimited setGrant
    generalize R.pwrIsl g = off
    rfl
  exact ⟨(congrArg State.flt hframe :), (congrArg State.time hframe :),
    sameRegs_setF (setIsl s g _) 12 8 0 List.mem_cons_self, hframe⟩

theorem clownOff_ne_pwrIsl {g k : Nat} (hg : g < 1280) : clownOff k + 4 ≠ R.pwrIsl g := by
  simp only [clownOff, R.cpxClown, R.pwrIsl]
  omega

theorem isRetired_cluster (s : State) (g : Nat) : isRetired s (.cluster g) = fenced s g := rfl

theorem thermalLimit_spec {s : State} {d : Die} {i : Clu} {t0 : Nat} (hhot : (islOf s (cluNo d i)).hot = some t0)
    (hlim : (islOf s (cluNo d i)).limited = false) (hdue : t0 + 100000 ≤ s.time.lamp)
    (hret : isRetired s (.cluster (cluNo d i)) = false) (hnot : Res.cluster (cluNo d i) ∉ s.flt.retiring)
    (hfew : (timesOf s (.cluster (cluNo d i))).length + 1 < getF s R.glbFwin 3 0) {t : State} (ht : t = thermalLimit d i s) :
    grantOf t (cluNo d i) = 0 ∧ (islOf t (cluNo d i)).limited = true ∧
      timesOf t (.cluster (cluNo d i)) = lampTick s :: timesOf s (.cluster (cluNo d i)) ∧
      t = { s with regs := t.regs, power := t.power, flt := t.flt } ∧ sameRegs s t [R.pwrIsl (cluNo d i)] := by
  have hg := cluNo_lt d i
  rw [thermalLimit_eq hhot hlim hdue] at ht
  generalize cluNo d i = g at *
  obtain ⟨hflt, htime, hregs, hframe⟩ := islLimited_frame s g
  have htimes : timesOf (islLimited s g) (.cluster g) = timesOf s (.cluster g) := by rw [timesOf, timesOf, hflt]
  have htick : lampTick (islLimited s g) = lampTick s := by rw [lampTick, lampTick, htime]
  have hret' : isRetired (islLimited s g) (.cluster g) = false := by
    have hrd : rd (islLimited s g) (clownOff g + 4) = rd s (clownOff g + 4) :=
      hregs _ (by simpa using clownOff_ne_pwrIsl hg)
    rw [← hret, isRetired_cluster, isRetired_cluster, fenced_eq, fenced_eq, flag_congr_rd hrd]
  have hlimit : getF (islLimited s g) R.glbFwin 3 0 = getF s R.glbFwin 3 0 := by
    refine getF_congr_rd (hregs _ ?_) 3 0
    simp only [R.glbFwin, R.pwrIsl, List.mem_singleton]
    omega
  rw [clusterEvent_noted hret' (by rw [hflt]; exact hnot) (by rw [htimes, hlimit]; exact hfew), htimes, htick] at ht
  have hgrant : grantOf (islLimited s g) g = 0 := getF_setGrant _ g (by decide)
  have hisl : (islOf (islLimited s g) g).limited = true := by
    have hsame : islOf (islLimited s g) g = { islOf s g with limited := true, rise := none } :=
      (islOf_setF _ _ _ _ _ _).trans (islOf_setIsl_same _ _ _)
    rw [hsame]
  generalize islLimited s g = u at *
  subst ht
  refine ⟨hgrant, hisl, timesOf_setTimes_same u _ (by simp), ?_, hregs⟩
  rw [hframe]
  rfl

theorem grantSwitch_eq {s : State} {d : Die} {i : Clu} {c due : Nat} (hrise : (islOf s (cluNo d i)).rise = some (c, due))
    (hdue : due ≤ s.time.lamp) :
    grantSwitch d i s = setGrant (setIsl s (cluNo d i) { islOf s (cluNo d i) with rise := none }) (cluNo d i)
      (min c (min (getF s (R.pwrIsl (cluNo d i)) 4 0) (getF s (R.pwrIsl (cluNo d i)) 20 16))) := by
  unfold grantSwitch
  dsimp only
  rw [hrise]
  dsimp only
  rw [if_neg (not_lt.2 hdue)]

/-- An island's live state and its grant change, and nothing else. -/
theorem setGrant_setIsl_spec (s : State) (g : Nat) (x : IslSt) {c : Nat} (hc : c < 32) {t : State}
    (ht : t = setGrant (setIsl s g x) g c) : islOf t g = x ∧ grantOf t g = c ∧ (∀ k, k ≠ g → islOf t k = islOf s k) ∧
      t = { s with regs := t.regs, power := t.power } ∧ sameRegs s t [R.pwrIsl g] := by
  subst ht
  refine ⟨(islOf_setF _ _ _ _ _ _).trans (islOf_setIsl_same _ _ _), getF_setGrant _ g hc,
    fun k hk => (islOf_setF _ _ _ _ _ _).trans (islOf_setIsl_ne _ _ hk), ?_, sameRegs_setF (setIsl s g x) 12 8 c List.mem_cons_self⟩
  unfold setGrant
  generalize R.pwrIsl g = off
  rfl

theorem droop_eq {s : State} {d : Die} {i : Clu} (hno : (islOf s (cluNo d i)).droop = none)
    (hawake : dozing s (cluNo d i) = false) :
    droop d i s = bump (setIsl s (cluNo d i) { islOf s (cluNo d i) with droop := some s.time.lamp }) R.pwrCntDroop 1 := by
  unfold droop
  dsimp only
  rw [if_neg (by simp [hno, hawake])]

theorem droop_spec (s : State) (g : Nat) (x : IslSt) {t : State} (ht : t = bump (setIsl s g x) R.pwrCntDroop 1) :
    islOf t g = x ∧ rd t R.pwrCntDroop = min (2 ^ 32 - 1) (rd s R.pwrCntDroop % 2 ^ 32 + 1) ∧
      t = { s with regs := t.regs, power := t.power } ∧ sameRegs s t [R.pwrCntDroop] := by
  have hrd : rd (setIsl s g x) R.pwrCntDroop = rd s R.pwrCntDroop := rfl
  subst ht
  refine ⟨?_, by rw [rd_bump_same, hrd], ?_, sameRegs_bump (setIsl s g x) 1 List.mem_cons_self⟩
  · rw [islOf, bump_power]
    exact islOf_setIsl_same s g x
  · generalize R.pwrCntDroop = off
    rfl

theorem droopRecovery_early {s : State} {d : Die} {i : Clu} {t0 : Nat} (hdroop : (islOf s (cluNo d i)).droop = some t0)
    (h : s.time.lamp < t0 + ceilDiv 32000 (islandMHz s (cluNo d i))) : droopRecovery d i s = s := by
  unfold droopRecovery
  dsimp only
  rw [hdroop]
  dsimp only
  rw [if_pos h]

theorem droopRecovery_due {s : State} {d : Die} {i : Clu} {t0 : Nat} (hdroop : (islOf s (cluNo d i)).droop = some t0)
    (h : t0 + ceilDiv 32000 (islandMHz s (cluNo d i)) ≤ s.time.lamp) :
    droopRecovery d i s = setIsl s (cluNo d i) { islOf s (cluNo d i) with droop := none } := by
  unfold droopRecovery
  dsimp only
  rw [hdroop]
  dsimp only
  rw [if_neg (not_lt.2 h)]

end Sys2Proof.Machine

open Sys2Proof Sys2Proof.Machine

/-- Settles O55: an evaluation as its readings and then a run over the islands, each of which only its own step grants anew. -/
theorem grantControl : Obligations.GrantControl := by
  refine ⟨fun s r => ⟨_, rfl, healthEvaluate_spec s r rfl⟩,
    fun s d i t0 hhot hlim hdue hret hnot hfew => ⟨_, rfl, thermalLimit_spec hhot hlim hdue hret hnot hfew rfl⟩,
    fun s d i c due hrise hdue => ?_, fun s d i hno hawake => ?_, fun s d i t0 hdroop => ⟨fun h => ?_, fun h => ?_⟩, fun s w => ?_⟩
  · have hlt : min c (min (getF s (R.pwrIsl (cluNo d i)) 4 0) (getF s (R.pwrIsl (cluNo d i)) 20 16)) < 32 :=
      (min_le_right _ _).trans_lt ((min_le_left _ _).trans_lt (getF_lt s _ 4 0))
    obtain ⟨hisl, hgrant, hne, hframe, hregs⟩ :=
      setGrant_setIsl_spec s (cluNo d i) { islOf s (cluNo d i) with rise := none } hlt rfl
    exact ⟨_, congrArg Host.Outcome.next (grantSwitch_eq hrise hdue), by rw [hisl], hgrant, hne, hframe, hregs⟩
  · obtain ⟨hisl, hcount, hframe, hregs⟩ := droop_spec s (cluNo d i) { islOf s (cluNo d i) with droop := some s.time.lamp } rfl
    exact ⟨_, congrArg Host.Outcome.next (droop_eq hno hawake), by rw [hisl], hcount, hframe, hregs⟩
  · exact congrArg Host.Outcome.next (droopRecovery_early hdroop h)
  · exact ⟨_, congrArg Host.Outcome.next (droopRecovery_due hdroop h), by rw [islOf_setIsl_same],
      fun g hg => islOf_setIsl_ne s _ hg, rfl⟩
  · refine ⟨_, rfl, ?_, rfl⟩
    simp only [packageWatts, powerTelemetry]
    omega
end

section
/-! PROOFS. Frames, replays and width changes of a link (O53). -/

namespace Sys2Proof.Machine

/-! ### A port's link state -/

theorem portOf_of_ports {s t : State} (h : t.ports = s.ports) (p : Nat) : portOf t p = portOf s p := by
  rw [portOf, portOf, h]

theorem portState_of_rd {s t : State} {p : Nat} (h : rd t (R.prtStat p) = rd s (R.prtStat p)) : portState t p = portState s p :=
  getF_congr_rd h 2 0

/-! ### A unit that acknowledges (R551) -/

/-- The frames of a port that an ACK leaves unacknowledged. -/
def stillSent (s : State) (p ack : Nat) : List SentFrame := (portOf s p).unacked.filter fun f => !seqBelow f.lseq ack

theorem takeAck_spec (s : State) (p ack : Nat) : ∃ adv,
    portOf (takeAck s p ack) p = { portOf s p with unacked := stillSent s p ack, advanced := adv } ∧
      takeAck s p ack = { s with ports := (takeAck s p ack).ports } := by
  unfold takeAck stillSent
  dsimp only
  split
  · next hlen =>
    have hsame : ((portOf s p).unacked.filter fun f => !seqBelow f.lseq ack) = (portOf s p).unacked :=
      List.filter_sublist.eq_of_length hlen
    exact ⟨(portOf s p).advanced, by rw [hsame], rfl⟩
  · exact ⟨s.time.lamp, portOf_setPort_same _ _ _, rfl⟩

/-- A good frame unit arrives: the state after it was taken or discarded. -/
def frameTaken (s : State) (p lseq : Nat) (r : RxPkt) : State :=
  if lseq = (portOf s p).ack then
    { setPort s p { portOf s p with ack := ((portOf s p).ack + 1) % 16384, nak := false } with
      fab := { s.fab with rx := SMap.put s.fab.rx p (rxOf s p ++ [r]) } }
  else setPort s p { portOf s p with nak := true }

theorem linkUnitReceive_frame {s : State} {p : Port} {data : List Byte} {lseq : Nat} (hup : portState s p = 2)
    (hcrc : lcrcOk data = true) (hseq : leAt data 0 2 = lseq) (hlt : lseq < 16384) (hnak : bit (leAt data 2 2) 14 = false)
    (hfail : (portOf s p).failSent = false) :
    linkUnitReceive p data false [] s = frameTaken (takeAck s p (leAt data 2 2 % 16384)) p lseq
      ⟨Frame.ofBytes ((data.drop 8).take (data.length - 16)), bit (leAt data 2 2) 15⟩ := by
  obtain ⟨adv, hport, -⟩ := takeAck_spec s p (leAt data 2 2 % 16384)
  have hfail' : (portOf (takeAck s p (leAt data 2 2 % 16384)) p).failSent = false := by rw [hport]; exact hfail
  have hkind : lseq / 16384 = 0 := Nat.div_eq_of_lt hlt
  have hgood : ¬ (!(lcrcOk data && !false)) = true := by simp [hcrc]
  have hnone : ¬ (bit (leAt data 2 2) 14 && portState (takeAck s p (leAt data 2 2 % 16384)) p == 2 &&
      !(portOf (takeAck s p (leAt data 2 2 % 16384)) p).unacked.isEmpty) = true := by simp [hnak]
  have hcount : countFec s p [] = s := rfl
  unfold linkUnitReceive
  dsimp only
  rw [if_neg (by simp [hup]), if_neg hgood, hcount, if_neg hnone, hseq, if_pos hkind, Nat.mod_eq_of_lt hlt, frameTaken]
  generalize takeAck s p (leAt data 2 2 % 16384) = u at *
  by_cases h : lseq = (portOf u p).ack
  · rw [if_pos ⟨h, by simp [hfail']⟩, if_pos h]
    rfl
  · rw [if_neg (fun hboth => h hboth.1), if_neg h]

theorem rxOf_setPort_put (s : State) (p : Nat) (x : PortSt) (l : List RxPkt) :
    rxOf { setPort s p x with fab := { s.fab with rx := SMap.put s.fab.rx p l } } p = l := SMap.getD_put_same _ _ _ _

theorem frameTaken_spec {s : State} {p lseq : Nat} {r : RxPkt} {t : State} (ht : t = frameTaken s p lseq r) :
    (lseq = (portOf s p).ack → (portOf t p).ack = (lseq + 1) % 16384 ∧ (portOf t p).nak = false ∧ rxOf t p = rxOf s p ++ [r]) ∧
      (lseq ≠ (portOf s p).ack → (portOf t p).ack = (portOf s p).ack ∧ (portOf t p).nak = true ∧ rxOf t p = rxOf s p) ∧
      (portOf t p).unacked = (portOf s p).unacked ∧ t.regs = s.regs ∧ t.comp = s.comp ∧ t.deep = s.deep ∧ t.out = s.out := by
  unfold frameTaken at ht
  by_cases h : lseq = (portOf s p).ack
  · rw [if_pos h] at ht
    have hport : portOf t p = { portOf s p with ack := ((portOf s p).ack + 1) % 16384, nak := false } := by
      rw [ht]
      exact portOf_setPort_same s p _
    refine ⟨fun _ => ⟨by rw [hport, h], by rw [hport], by rw [ht, rxOf_setPort_put]⟩, fun hne => absurd h hne, by rw [hport], ?_⟩
    rw [ht]
    exact ⟨rfl, rfl, rfl, rfl⟩
  · rw [if_neg h] at ht
    subst ht
    refine ⟨fun he => absurd he h, fun _ => ?_, ?_, rfl, rfl, rfl, rfl⟩
    · rw [portOf_setPort_same]
      exact ⟨rfl, rfl, rfl⟩
    · rw [portOf_setPort_same]

theorem frame_spec {s : State} {p : Port} {data : List Byte} {lseq : Nat} (hup : portState s p = 2)
    (hcrc : lcrcOk data = true) (hseq : leAt data 0 2 = lseq) (hlt : lseq < 16384) (hnak : bit (leAt data 2 2) 14 = false)
    (hfail : (portOf s p).failSent = false) {t : State} (ht : t = linkUnitReceive p data false [] s) :
    (lseq = (portOf s p).ack → (portOf t p).ack = (lseq + 1) % 16384 ∧ (portOf t p).nak = false ∧
      rxOf t p = rxOf s p ++ [⟨Frame.ofBytes ((data.drop 8).take (data.length - 16)), bit (leAt data 2 2) 15⟩]) ∧
    (lseq ≠ (portOf s p).ack → (portOf t p).ack = (portOf s p).ack ∧ (portOf t p).nak = true ∧ rxOf t p = rxOf s p) ∧
    (portOf t p).unacked = (portOf s p).unacked.filter (fun f => !seqBelow f.lseq (leAt data 2 2 % 16384)) ∧
    t.regs = s.regs ∧ t.comp = s.comp ∧ t.deep = s.deep ∧ t.out = s.out := by
  rw [linkUnitReceive_frame hup hcrc hseq hlt hnak hfail] at ht
  obtain ⟨adv, hport, hframe⟩ := takeAck_spec s p (leAt data 2 2 % 16384)
  obtain ⟨htaken, hdropped, hunacked, hregs, hcomp, hdeep, hout⟩ := frameTaken_spec ht
  generalize takeAck s p (leAt data 2 2 % 16384) = u at *
  have hrx : rxOf u p = rxOf s p := by rw [hframe]; rfl
  rw [hport, hrx] at htaken hdropped
  rw [hport] at hunacked
  exact ⟨htaken, hdropped, hunacked, hregs.trans (by rw [hframe]), hcomp.trans (by rw [hframe]), hdeep.trans (by rw [hframe]),
    hout.trans (by rw [hframe])⟩

/-! ### A replay timeout (R553) -/

theorem resendAll_spec (s : State) (p : Nat) : ∃ l : List Emission, l.length = (portOf s p).unacked.length ∧
    resendAll s p = { s with out := s.out ++ l } := by
  unfold resendAll
  generalize (portOf s p).unacked = fs
  induction fs generalizing s with
  | nil => exact ⟨[], rfl, by simp⟩
  | cons f fs ih =>
    obtain ⟨l, hlen, hfold⟩ := ih (emit s (.linkUnit p (linkUnit s p 0 f.lseq true (outFrame f.e.f).toBytes)))
    refine ⟨.linkUnit p (linkUnit s p 0 f.lseq true (outFrame f.e.f).toBytes) :: l, congrArg (· + 1) hlen, hfold.trans ?_⟩
    have hout : (emit s (.linkUnit p (linkUnit s p 0 f.lseq true (outFrame f.e.f).toBytes))).out ++ l =
        s.out ++ .linkUnit p (linkUnit s p 0 f.lseq true (outFrame f.e.f).toBytes) :: l := List.append_assoc _ _ _
    rw [hout]
    rfl

/-- A link error below the limit is noted. -/
theorem linkError_noted {s : State} {p : Nat} (h : (portOf s p).errs.length + 1 < getF s (R.prtElim p) 15 0) :
    ∃ errs, linkError s p = setPort s p { portOf s p with errs := errs } := by
  refine ⟨(s.time.lamp :: (portOf s p).errs).filter fun t => decide (s.time.lamp ≤ t + getF s (R.prtElim p) 31 16 * 1000), ?_⟩
  have hle := List.length_filter_le (fun t => decide (s.time.lamp ≤ t + getF s (R.prtElim p) 31 16 * 1000))
    (s.time.lamp :: (portOf s p).errs)
  have hlimit (x : PortSt) : getF (setPort s p x) (R.prtElim p) 15 0 = getF s (R.prtElim p) 15 0 := rfl
  rw [List.length_cons] at hle
  unfold linkError
  dsimp only
  rw [hlimit, if_neg (by omega)]

theorem prtCnt_ne (p w : Nat) : R.prtElim p ≠ R.prtCnt p w ∧ R.prtStat p ≠ R.prtCnt p w := by
  simp only [R.prtElim, R.prtCnt, R.prtStat]
  omega

theorem resend_spec {s : State} {p : Nat} (h : (portOf s p).errs.length + 1 < getF s (R.prtElim p) 15 0) {t : State}
    (ht : t = resend s p) : ∃ l : List Emission, t.out = s.out ++ l ∧ l.length = (portOf s p).unacked.length ∧
      (portOf t p).unacked = (portOf s p).unacked ∧ (portOf t p).advanced = s.time.lamp ∧
      rd t (R.prtCnt p 2) = min (2 ^ 32 - 1) (rd s (R.prtCnt p 2) % 2 ^ 32 + 1) ∧ sameRegs s t [R.prtCnt p 2] ∧
      portState t p = portState s p ∧ t.comp = s.comp ∧ t.deep = s.deep := by
  obtain ⟨l, hlen, hall⟩ := resendAll_spec s p
  obtain ⟨helim, hstat⟩ := prtCnt_ne p 2
  unfold resend at ht
  rw [hall] at ht
  dsimp only at ht
  generalize R.prtCnt p 2 = off at *
  have hport : portOf (bump { s with out := s.out ++ l } off 1) p = portOf s p := rfl
  have hnoted : (portOf (setPort (bump { s with out := s.out ++ l } off 1) p { portOf s p with advanced := s.time.lamp }) p).errs.length + 1 <
      getF (setPort (bump { s with out := s.out ++ l } off 1) p { portOf s p with advanced := s.time.lamp }) (R.prtElim p) 15 0 := by
    have hrd : rd (setPort (bump { s with out := s.out ++ l } off 1) p { portOf s p with advanced := s.time.lamp }) (R.prtElim p) =
        rd s (R.prtElim p) := rd_bump_ne { s with out := s.out ++ l } 1 helim
    rw [portOf_setPort_same, getF_congr_rd hrd]
    exact h
  obtain ⟨errs, herr⟩ := linkError_noted hnoted
  have ht' : t = setPort (setPort (bump { s with out := s.out ++ l } off 1) p { portOf s p with advanced := s.time.lamp }) p
      { portOf s p with advanced := s.time.lamp, errs := errs } := by
    rw [ht]
    refine herr.trans ?_
    rw [portOf_setPort_same]
  have hrd (x : Nat) : rd t x = rd (bump { s with out := s.out ++ l } off 1) x := by rw [ht']; rfl
  have hp : portOf t p = { portOf s p with advanced := s.time.lamp, errs := errs } := by rw [ht', portOf_setPort_same]
  refine ⟨l, by rw [ht']; rfl, hlen, by rw [hp], by rw [hp], ?_, fun x hx => ?_, ?_, by rw [ht']; rfl, by rw [ht']; rfl⟩
  · rw [hrd, rd_bump_same]
    rfl
  · rw [hrd]
    exact sameRegs_bump { s with out := s.out ++ l } 1 List.mem_cons_self x hx
  · exact portState_of_rd ((hrd _).trans (rd_bump_ne { s with out := s.out ++ l } 1 hstat))

/-! ### A lane that fails (R565, R566) -/

/-- A lane moved from ACTIVE into BAD. -/
def laneMarked (s : State) (p l : Nat) : State :=
  setF (raise s (R.prtLane p) (16 + l)) (R.prtLane p) (8 + l) (8 + l) 0

/-- An event on a lane, with its retirement where that marks it lasting. -/
def laneEvent (s : State) (p l : Nat) : State :=
  if (event s (.lane (8 * p + l)) 1).2 then
    raise (recordRetired (event s (.lane (8 * p + l)) 1).1 (.lane (8 * p + l))) (R.prtLane p) (24 + l)
  else (event s (.lane (8 * p + l)) 1).1

theorem laneFail_eq {s : State} {p : Port} {l : Fin 8} (hup : portState s p = 2) (hact : flag s (R.prtLane p) (8 + l) = true) :
    laneFail p l s = askWidth (laneEvent (laneMarked s p l) p l) p := by
  have hgo : ¬ (portState s p ≠ 2 ∨ (!flag s (R.prtLane p) (8 + l)) = true) := by simp [hup, hact]
  unfold laneFail
  rw [if_neg hgo]
  rfl

theorem event_lane_frame (s : State) (n k : Nat) : (event s (.lane n) k).1 = { s with flt := (event s (.lane n) k).1.flt } := by
  unfold event
  have hroom : makeRoom s (.lane n) = s := rfl
  split
  · rfl
  · dsimp only
    rw [hroom]
    split <;> rfl

/-- What a retirement's record leaves: everything but its counter and flags, the record, and the free values used. -/
theorem recordRetired_frame (s : State) (r : Res) :
    (recordRetired s r).comp = s.comp ∧ (recordRetired s r).deep = s.deep ∧
      sameRegs s (recordRetired s r) [R.glbCntRetire, R.glbFstat] := by
  have hwrite (u : State) : (recordWrite u).2.comp = u.comp ∧ (recordWrite u).2.deep = u.deep ∧
      sameRegs u (recordWrite u).2 [R.glbFstat] := by
    unfold recordWrite
    dsimp only
    split
    · exact ⟨rfl, rfl, fun _ _ => rfl⟩
    · exact ⟨raise_comp _ _ _, raise_deep _ _ _, sameRegs_raise { u with freeCtr := u.freeCtr + 1 } 3 List.mem_cons_self⟩
  obtain ⟨hcomp, hdeep, hregs⟩ := hwrite (raise (bump s R.glbCntRetire 1) R.glbFstat 1)
  refine ⟨hcomp.trans (by rw [raise_comp, bump_comp]), hdeep.trans (by rw [raise_deep, bump_deep]), ?_⟩
  exact sameRegs_trans (sameRegs_bump s 1 (by simp))
    (sameRegs_trans (sameRegs_raise _ 1 (by simp)) (sameRegs_mono hregs (by simp)))

/-- What a lane's event leaves of the lane register: every bit but the one that retires it. -/
theorem laneEvent_spec (s : State) (p l : Nat) : (laneEvent s p l).comp = s.comp ∧ (laneEvent s p l).deep = s.deep ∧
    rd (laneEvent s p l) (R.prtStat p) = rd s (R.prtStat p) ∧
    ∀ i < 24, flag (laneEvent s p l) (R.prtLane p) i = flag s (R.prtLane p) i := by
  have hframe := event_lane_frame s (8 * p + l) 1
  have hrd (x : Nat) : rd (event s (.lane (8 * p + l)) 1).1 x = rd s x := by rw [hframe]; rfl
  have hcomp : (event s (.lane (8 * p + l)) 1).1.comp = s.comp := by rw [hframe]
  have hdeep : (event s (.lane (8 * p + l)) 1).1.deep = s.deep := by rw [hframe]
  unfold laneEvent
  split
  · obtain ⟨hcompR, hdeepR, hregsR⟩ := recordRetired_frame (event s (.lane (8 * p + l)) 1).1 (.lane (8 * p + l))
    have hlane : R.prtLane p ∉ [R.glbCntRetire, R.glbFstat] := by
      simp only [R.prtLane, R.glbCntRetire, R.glbFstat, List.mem_cons, List.not_mem_nil, or_false, not_or]
      omega
    have hstat : R.prtStat p ∉ [R.glbCntRetire, R.glbFstat] := by
      simp only [R.prtStat, R.glbCntRetire, R.glbFstat, List.mem_cons, List.not_mem_nil, or_false, not_or]
      omega
    have hne : R.prtStat p ≠ R.prtLane p := by
      simp only [R.prtStat, R.prtLane]
      omega
    refine ⟨by rw [raise_comp, hcompR, hcomp], by rw [raise_deep, hdeepR, hdeep], ?_, fun i hi => ?_⟩
    · rw [rd_raise_ne _ _ hne, hregsR _ hstat, hrd]
    · rw [raise, flag_setF_same _ _ _ le_rfl (by omega), if_neg (by omega), flag, hregsR _ hlane, hrd]
      rfl
  · exact ⟨hcomp, hdeep, hrd _, fun i _ => flag_congr_rd (hrd _) i⟩

/-- What asking for a width changes: the port's link state and what is put out. -/
theorem askWidth_frame (s : State) (p : Nat) : askWidth s p = { s with ports := (askWidth s p).ports, out := (askWidth s p).out } := by
  unfold askWidth
  dsimp only
  split <;> rfl

theorem laneFail_spec {s : State} {p : Port} {l : Fin 8} (hup : portState s p = 2) (hact : flag s (R.prtLane p) (8 + l) = true)
    {t : State} (ht : t = laneFail p l s) : flag t (R.prtLane p) (8 + l) = false ∧ flag t (R.prtLane p) (16 + l) = true ∧
      portState t p = 2 ∧ t.comp = s.comp ∧ t.deep = s.deep := by
  rw [laneFail_eq hup hact, askWidth_frame] at ht
  have hl := l.isLt
  obtain ⟨hcomp, hdeep, hstat, hflags⟩ := laneEvent_spec (laneMarked s p l) p l
  have hmarked : (laneMarked s p l).comp = s.comp ∧ (laneMarked s p l).deep = s.deep := by
    rw [laneMarked, setF_comp, setF_deep, raise_comp, raise_deep]
    exact ⟨rfl, rfl⟩
  have hrdStat : rd (laneMarked s p l) (R.prtStat p) = rd s (R.prtStat p) := by
    have hne : R.prtStat p ≠ R.prtLane p := by
      simp only [R.prtStat, R.prtLane]
      omega
    rw [laneMarked, rd_setF_ne _ _ _ _ hne, rd_raise_ne _ _ hne]
  have hbad : flag (laneMarked s p l) (R.prtLane p) (16 + l) = true := by
    rw [laneMarked, flag_setF_same _ _ _ le_rfl (by omega), if_neg (by omega)]
    exact flag_raise_same s _ (by omega)
  have hoff : flag (laneMarked s p l) (R.prtLane p) (8 + l) = false := by
    rw [laneMarked, flag_setF_same _ _ _ le_rfl (by omega), if_pos (by omega)]
    simp [bit]
  generalize laneEvent (laneMarked s p l) p l = u at *
  have hrd (x : Nat) : rd t x = rd u x := by rw [ht]; rfl
  refine ⟨?_, ?_, ?_, by rw [ht, ← hmarked.1, ← hcomp], by rw [ht, ← hmarked.2, ← hdeep]⟩
  · rw [flag_congr_rd (hrd _), hflags _ (by omega), hoff]
  · rw [flag_congr_rd (hrd _), hflags _ (by omega), hbad]
  · rw [portState_of_rd ((hrd _).trans (hstat.trans hrdStat)), hup]

/-! ### A width change (R565) -/

theorem takeControl_head {s : State} {p op a : Nat} {b : List Byte} {r : List (Nat × List Byte)}
    (hin : (portOf s p).ctlIn = (a, b) :: r) (hop : byteAt b 0 = op) :
    takeControl s p op = some (a, b, setPort s p { portOf s p with ctlIn := r }) := by
  unfold takeControl
  rw [hin]
  dsimp only
  rw [if_pos hop]

theorem one_le_widestFit {n : Nat} (h : 2 ≤ n) : 1 ≤ widestFit n := by
  unfold widestFit
  split
  · decide
  split
  · decide
  · decide

/-- A port that answers a WREQ. -/
def widthAnswered (t : State) (p : Nat) (cw : Word) (m w : Nat) : State :=
  sendControl (setPort (fresh t 16).2 p { portOf (fresh t 16).2 p with
    width := some ⟨m, w, some ((cw.toNat + switchLead t p + (fresh t 16).1) % 2 ^ 32)⟩ }) p 2 w m
      ((cw.toNat + switchLead t p + (fresh t 16).1) % 2 ^ 32)

theorem wreq_eq {s : State} {p : Port} {cw : Word} {a : Nat} {b : List Byte} {r : List (Nat × List Byte)}
    (hup : portState s p = 2) (hin : (portOf s p).ctlIn = (a, b) :: r) (hop : byteAt b 0 = 1) (hno : (portOf s p).width = none)
    (hask : 1 ≤ askedWidth s p) (hb : 1 ≤ byteAt b 1) (hlanes : 2 ≤ laneCount (byteAt b 2 &&& usableLanes s p)) {w : Nat}
    (hw : w = min (min (askedWidth s p) (byteAt b 1)) (widestFit (laneCount (byteAt b 2 &&& usableLanes s p)))) :
    wreq p cw s = widthAnswered (setPort s p { portOf s p with ctlIn := r }) p cw
      (lowestLanes (byteAt b 2 &&& usableLanes s p) (widthLanes w)) w := by
  have hfit := one_le_widestFit hlanes
  have hport := portOf_setPort_same s p { portOf s p with ctlIn := r }
  have hup' : portState (setPort s p { portOf s p with ctlIn := r }) p = 2 := hup
  have hasked : askedWidth (setPort s p { portOf s p with ctlIn := r }) p = askedWidth s p := rfl
  have huse : usableLanes (setPort s p { portOf s p with ctlIn := r }) p = usableLanes s p := by
    rw [usableLanes, hport]
    rfl
  have hnone : (portOf (setPort s p { portOf s p with ctlIn := r }) p).width = none := by rw [hport]; exact hno
  unfold wreq
  rw [takeControl_head hin hop]
  generalize setPort s p { portOf s p with ctlIn := r } = u at *
  dsimp only
  rw [if_neg (not_not.2 hup'), hnone]
  dsimp only
  rw [hasked, huse, ← hw, if_neg (by omega)]
  rfl

theorem widthAnswered_spec (s : State) (p : Nat) (cw : Word) (m w : Nat) {t : State} (ht : t = widthAnswered s p cw m w) :
    ∃ (u : List Byte) (x : WidthSt), t.out = s.out ++ [.linkUnit p u] ∧ portOf t p = { portOf s p with width := some x } ∧
      x.at0.isSome ∧ x.width = w ∧ x.mask = m ∧ t.regs = s.regs ∧ t.comp = s.comp ∧ t.deep = s.deep := by
  subst ht
  exact ⟨_, ⟨m, w, some ((cw.toNat + switchLead s p + (fresh s 16).1) % 2 ^ 32)⟩, rfl,
    portOf_setPort_same (fresh s 16).2 p _, rfl, rfl, rfl, rfl, rfl, rfl⟩

theorem wack_eq {s : State} {p : Port} {a m w : Nat} {b : List Byte} {r : List (Nat × List Byte)}
    (hin : (portOf s p).ctlIn = (a, b) :: r) (hop : byteAt b 0 = 2) (hwidth : (portOf s p).width = some ⟨m, w, none⟩) :
    wack p s = setPort (setPort s p { portOf s p with ctlIn := r }) p { portOf s p with
      ctlIn := r, width := some ⟨byteAt b 2, byteAt b 1 % 4, some (leAt b 4 4)⟩ } := by
  have hport := portOf_setPort_same s p { portOf s p with ctlIn := r }
  unfold wack
  rw [takeControl_head hin hop]
  dsimp only
  rw [hport]
  dsimp only
  rw [hwidth]

/-- The state with a new width in use. -/
def widthTaken (s : State) (p m w : Nat) : State :=
  raise (setF (setF (setPort s p { portOf s p with width := none }) (R.prtLane p) 15 8 m) (R.prtStat p) 5 4 w) (R.prtStat p) 18

theorem closeOnPort_none {s : State} (h : s.cir.live = []) (p : Nat) : closeOnPort s p = s := by
  rw [closeOnPort, liveCids, h]
  rfl

theorem dropSlots_of_not_waiting {s : State} {p : Nat} (h : ∀ x ∈ s.cir.slots, x.port ≠ p) (test : SlotFrame → Bool) :
    dropSlots s p test = { s with cir := { s.cir with slots := (dropSlots s p test).cir.slots } } := by
  have hhit : (s.cir.slots.filter fun x => x.port == p && test x) = [] := by
    rw [List.filter_eq_nil_iff]
    intro x hx
    simp [h x hx]
  unfold dropSlots
  dsimp only
  rw [hhit]
  rfl

theorem widthSwitch_frame {s : State} {p : Port} {m w at0 : Nat} (hup : portState s p = 2)
    (hwidth : (portOf s p).width = some ⟨m, w, some at0⟩) (hlive : s.cir.live = []) (hslots : ∀ x ∈ s.cir.slots, x.port ≠ p.val) :
    ∃ cir, widthSwitch p s = { widthTaken s p m w with cir := cir } := by
  unfold widthSwitch
  dsimp only
  rw [hwidth]
  dsimp only
  rw [if_neg (not_not.2 hup), ← widthTaken]
  have hcir : (widthTaken s p m w).cir = s.cir := by
    rw [widthTaken, raise_cir, setF_cir, setF_cir]
    rfl
  split
  · rw [closeOnPort_none (by rw [hcir]; exact hlive), dropSlots_of_not_waiting (by rw [hcir]; exact hslots)]
    exact ⟨_, rfl⟩
  · exact ⟨_, rfl⟩

theorem widthTaken_spec (s : State) (p : Nat) {m w : Nat} (hm : m < 256) (hw : w < 4) : (portOf (widthTaken s p m w) p).width = none ∧
    getF (widthTaken s p m w) (R.prtLane p) 15 8 = m ∧ getF (widthTaken s p m w) (R.prtStat p) 5 4 = w ∧
    flag (widthTaken s p m w) (R.prtStat p) 18 = true ∧ portState (widthTaken s p m w) p = portState s p ∧
    sameRegs s (widthTaken s p m w) [R.prtLane p, R.prtStat p] ∧ (widthTaken s p m w).comp = s.comp ∧
    (widthTaken s p m w).deep = s.deep := by
  have hne : R.prtLane p ≠ R.prtStat p := by
    simp only [R.prtLane, R.prtStat]
    omega
  have hports : (widthTaken s p m w).ports = (setPort s p { portOf s p with width := none }).ports := by
    rw [widthTaken, raise_ports, setF_ports, setF_ports]
  have hcomp : (widthTaken s p m w).comp = s.comp := by
    rw [widthTaken, raise_comp, setF_comp, setF_comp]
    rfl
  have hdeep : (widthTaken s p m w).deep = s.deep := by
    rw [widthTaken, raise_deep, setF_deep, setF_deep]
    rfl
  refine ⟨?_, ?_, ?_, flag_raise_same _ _ (by decide), ?_, ?_, hcomp, hdeep⟩
  · rw [portOf_of_ports hports, portOf_setPort_same]
  · rw [widthTaken, getF_congr_rd (rd_raise_ne _ _ hne), getF_congr_rd (rd_setF_ne _ _ _ _ hne),
      getF_setF_same _ _ _ (by decide) (by decide)]
    exact Nat.mod_eq_of_lt hm
  · rw [widthTaken, raise, getF_setF_apart _ _ _ le_rfl (by decide) (by decide), getF_setF_same _ _ _ (by decide) (by decide)]
    exact Nat.mod_eq_of_lt hw
  · rw [portState, widthTaken, raise, getF_setF_apart _ _ _ le_rfl (by decide) (by decide),
      getF_setF_apart _ _ _ (by decide) (by decide) (by decide), getF_congr_rd (rd_setF_ne _ _ _ _ hne.symm)]
    rfl
  · exact sameRegs_trans (sameRegs_setF (setPort s p _) 15 8 m (by simp))
      (sameRegs_trans (sameRegs_setF _ 5 4 w (by simp)) (sameRegs_raise _ 18 (by simp)))

end Sys2Proof.Machine

open Sys2Proof Sys2Proof.Machine

/-- Settles O53: each row of an UP port by the state that it leaves. -/
theorem linkTraffic : Obligations.LinkTraffic := by
  intro s p hup
  refine ⟨fun data lseq hcrc hseq hlt hnak hfail => ⟨_, rfl, frame_spec hup hcrc hseq hlt hnak hfail rfl⟩,
    fun hne hdue hfew => ?_, fun hno => ?_, fun l hact => ⟨_, rfl, laneFail_spec hup hact rfl⟩,
    fun a b r cw hin hop hno hask hb hlanes => ?_, fun a b r m w hin hop hwidth => ?_,
    fun m w at0 hwidth hm hw hlive hslots => ?_⟩
  · have hdue' : linkReplayTimeout p s = resend s p := if_pos ⟨hup, by simpa using hne, hdue⟩
    obtain ⟨l, hout, hlen, hunacked, hadv, hcnt, hregs, hstate, hcomp, hdeep⟩ := resend_spec hfew rfl
    exact ⟨_, l, congrArg Host.Outcome.next hdue', hout, hlen, hunacked, hadv, hcnt, hregs, hstate.trans hup, hcomp, hdeep⟩
  · exact congrArg Host.Outcome.next (if_pos ⟨hup, by rw [hno]; rfl⟩)
  · obtain ⟨u, x, hout, hport, hat0, hw, hm, hregs, hcomp, hdeep⟩ := widthAnswered_spec
      (setPort s p { portOf s p with ctlIn := r }) p cw _ _ rfl
    have hctl := congrArg PortSt.ctlIn (portOf_setPort_same s p { portOf s p with ctlIn := r })
    exact ⟨_, u, x, congrArg Host.Outcome.next (wreq_eq hup hin hop hno hask hb hlanes rfl), hout,
      (congrArg PortSt.ctlIn hport).trans hctl, congrArg PortSt.width hport, hat0, hw, by rw [hm, hw], hregs, hcomp, hdeep⟩
  · have hport := portOf_setPort_same (setPort s p { portOf s p with ctlIn := r }) p { portOf s p with
      ctlIn := r, width := some ⟨byteAt b 2, byteAt b 1 % 4, some (leAt b 4 4)⟩ }
    exact ⟨_, congrArg Host.Outcome.next (wack_eq hin hop hwidth), by rw [hport], by rw [hport], rfl, rfl, rfl, rfl⟩
  · obtain ⟨cir, hframe⟩ := widthSwitch_frame hup hwidth hlive hslots
    obtain ⟨hnone, hlane, hstat, hdrop, hstate, hregs, hcomp, hdeep⟩ := widthTaken_spec s p hm hw
    have hexec : exec (.widthSwitch p) s = .next (widthSwitch p s) := rfl
    rw [hframe] at hexec
    generalize widthTaken s p m w = u at *
    exact ⟨_, hexec, hnone, hlane, hstat, hdrop, hstate.trans hup, hregs, hcomp, hdeep⟩
end

section
/-! PROOFS. Port states and link reports (O54). -/

namespace Sys2Proof.Machine

/-! ### A port that leaves UP (Table LNK-4) -/

theorem rd_of_regs {s t : State} (h : t.regs = s.regs) (off : Nat) : rd t off = rd s off := by rw [rd, rd, h]

theorem sameRegs_setPortState (s : State) (p st : Nat) : sameRegs s (setPortState s p st) [R.prtStat p] :=
  sameRegs_setF s 2 0 st List.mem_cons_self

/-- The registers in which a port that leaves UP shows it. -/
def leftRegs (p : Nat) : List Nat := [R.prtStat p, R.prtLane p, R.cirPort p]

theorem leftUp_eq (s : State) (p st : Nat) : leftUp s p st =
    setF (setF (setF (setF (raise (setPortState s p st) (R.prtStat p) 16) (R.prtStat p) 11 8 0) (R.prtStat p) 5 4 0)
      (R.prtLane p) 15 8 0) (R.cirPort p) 31 31 0 := rfl

/-- t is s but for the registers and the ports' link states. -/
def OnlyPorts (s t : State) : Prop := t = { s with regs := t.regs, ports := t.ports }

theorem OnlyPorts.refl (s : State) : OnlyPorts s s := rfl

theorem OnlyPorts.setF {s t : State} (h : OnlyPorts s t) (off hi lo v : Nat) : OnlyPorts s (setF t off hi lo v) := by
  have hset : Machine.setF t off hi lo v = { t with regs := (Machine.setF t off hi lo v).regs } := rfl
  rw [OnlyPorts] at h ⊢
  generalize (Machine.setF t off hi lo v) = u at *
  rw [hset, h]

theorem OnlyPorts.setPort {s t : State} (h : OnlyPorts s t) (p : Nat) (x : PortSt) : OnlyPorts s (setPort t p x) := by
  have hset : Machine.setPort t p x = { t with ports := (Machine.setPort t p x).ports } := rfl
  rw [OnlyPorts] at h ⊢
  generalize (Machine.setPort t p x) = u at *
  rw [hset, h]

theorem OnlyPorts.setPortState {s t : State} (h : OnlyPorts s t) (p st : Nat) : OnlyPorts s (setPortState t p st) :=
  (h.setF _ 2 0 st).setPort p _

theorem leftUp_frame (s : State) (p st : Nat) : OnlyPorts s (leftUp s p st) := by
  rw [leftUp_eq, raise]
  exact (((((OnlyPorts.refl s).setPortState p st).setF _ 16 16 1).setF _ 11 8 0).setF _ 5 4 0 |>.setF _ 15 8 0).setF _ 31 31 0

theorem portOf_leftUp (s : State) (p st q : Nat) : portOf (leftUp s p st) q = portOf (setPortState s p st) q := by
  refine portOf_of_ports ?_ q
  rw [leftUp_eq, setF_ports, setF_ports, setF_ports, setF_ports, raise_ports]

theorem portOf_leftUp_same (s : State) (p st : Nat) : portOf (leftUp s p st) p = { portOf s p with since := s.time.lamp } := by
  rw [portOf_leftUp, setPortState, portOf_setPort_same]

theorem portOf_leftUp_ne (s : State) {p q : Nat} (st : Nat) (h : q ≠ p) : portOf (leftUp s p st) q = portOf s q := by
  rw [portOf_leftUp, setPortState, portOf_setPort_ne _ _ h]
  rfl

theorem sameRegs_leftUp (s : State) (p st : Nat) : sameRegs s (leftUp s p st) (leftRegs p) := by
  have hstat : R.prtStat p ∈ leftRegs p := List.mem_cons_self
  rw [leftUp_eq]
  exact sameRegs_trans (sameRegs_mono (sameRegs_setPortState s p st) (by simp [leftRegs]))
    (sameRegs_trans (sameRegs_raise _ 16 hstat) (sameRegs_trans (sameRegs_setF _ 11 8 0 hstat)
      (sameRegs_trans (sameRegs_setF _ 5 4 0 hstat) (sameRegs_trans (sameRegs_setF _ 15 8 0 (by simp [leftRegs]))
        (sameRegs_setF _ 31 31 0 (by simp [leftRegs]))))))

theorem prtStat_ne_others {p q : Nat} (hq : q < 64) : R.prtStat p ≠ R.prtLane q ∧ R.prtStat p ≠ R.cirPort q := by
  simp only [R.prtStat, R.prtLane, R.cirPort]
  omega

/-- What a port that leaves UP shows. -/
theorem leftUp_spec (s : State) {p st : Nat} (hp : p < 64) (hst : st < 8) : portState (leftUp s p st) p = st ∧
    flag (leftUp s p st) (R.prtStat p) 16 = true ∧ flag (leftUp s p st) (R.prtStat p) 25 = flag s (R.prtStat p) 25 ∧
    flag (leftUp s p st) (R.cirPort p) 31 = false := by
  obtain ⟨hlane, hcir⟩ := prtStat_ne_others (p := p) hp
  have hrd : rd (leftUp s p st) (R.prtStat p) = rd (setF (setF (raise (setPortState s p st) (R.prtStat p) 16) (R.prtStat p) 11 8 0)
      (R.prtStat p) 5 4 0) (R.prtStat p) := by
    rw [leftUp_eq, rd_setF_ne _ _ _ _ hcir, rd_setF_ne _ _ _ _ hlane]
  have hflag {i : Nat} (hi : 12 ≤ i) (hi' : i < 32) : flag (leftUp s p st) (R.prtStat p) i =
      flag (raise (setPortState s p st) (R.prtStat p) 16) (R.prtStat p) i := by
    rw [flag_congr_rd hrd, flag_setF_same _ _ _ (by decide) hi', if_neg (by omega), flag_setF_same _ _ _ (by decide) hi',
      if_neg (by omega)]
  refine ⟨?_, ?_, ?_, ?_⟩
  · rw [portState, getF_congr_rd hrd, getF_setF_apart _ _ _ (by decide) (by decide) (by decide),
      getF_setF_apart _ _ _ (by decide) (by decide) (by decide), raise, getF_setF_apart _ _ _ (by decide) (by decide) (by decide)]
    exact portState_setPortState s p hst
  · rw [hflag (by decide) (by decide)]
    exact flag_raise_same _ _ (by decide)
  · have hset : rd (setPortState s p st) (R.prtStat p) = rd (setF s (R.prtStat p) 2 0 st) (R.prtStat p) := rfl
    rw [hflag (by decide) (by decide), raise, flag_setF_same _ _ _ le_rfl (by decide), if_neg (by decide), flag_congr_rd hset,
      flag_setF_same _ _ _ (by decide) (by decide), if_neg (by decide)]
  · rw [leftUp_eq, flag_setF_same _ _ _ le_rfl (by decide), if_pos (by decide)]
    simp [bit]

/-! ### A port that goes DOWN (R563, R567) -/

/-- The link state of a port that is DOWN: its unacknowledged frames are in doubt. -/
def downPort (s : State) (p : Nat) : PortSt :=
  { portOf s p with
    since := s.time.lamp, doubt := (portOf s p).unacked, doubtAt := s.time.lamp, unacked := [], wasUp := false, ctlIn := []
    stopping := none, width := none, errs := [], nak := false }

/-- A port is DOWN, its frames in doubt still there. -/
def portDown (s : State) (p : Nat) : State := setPort (leftUp s p 4) p (downPort s p)

theorem goDown_eq {s : State} {p : Nat} (h : flag s (R.prtStat p) 25 = false) (ack : Option Nat) :
    goDown s p ack = match ack with
      | some a => resolveDoubt (portDown s p) p a false
      | none => sendReport (portDown s p) p := by
  unfold goDown
  dsimp only
  rw [h, if_neg Bool.false_ne_true, portOf_leftUp_same]
  cases ack <;> rfl

theorem portOf_portDown_same (s : State) (p : Nat) : portOf (portDown s p) p = downPort s p := portOf_setPort_same _ _ _

theorem portOf_portDown_ne (s : State) {p q : Nat} (h : q ≠ p) : portOf (portDown s p) q = portOf s q := by
  rw [portDown, portOf_setPort_ne _ _ h, portOf_leftUp_ne _ _ h]

theorem rd_setPort (s : State) (p : Nat) (x : PortSt) (off : Nat) : rd (setPort s p x) off = rd s off := rfl

theorem rd_portDown (s : State) (p off : Nat) : rd (portDown s p) off = rd (leftUp s p 4) off := rd_setPort _ _ _ _

theorem portDown_frame (s : State) (p : Nat) : OnlyPorts s (portDown s p) := (leftUp_frame s p 4).setPort p _

/-- The link report of a port (R568). -/
def reportOf (s : State) (p : Nat) : Frame :=
  { Frame.blank with
    typ := 0, cls := 1, dst := getF s (R.prtPeerx p) 31 16, src := getF s R.gngUep 15 0, job := 0xFFF, len := 1
    offset := 0x400 + 16 * getF s (R.prtPeerx p) 5 0
    payload := leBytes 8 Config.devid.toNat ++ leBytes 2 (portOf s p).ack ++ zeros 6 }

theorem sendReport_eq (s : State) (p : Nat) :
    sendReport s p = { s with outbox := s.outbox ++ [⟨s.nextId, reportOf s p, .device 0x7F3⟩], nextId := s.nextId + 1 } := rfl

theorem reportOf_portDown (s : State) {p : Nat} (hp : p < 64) : reportOf (portDown s p) p = reportOf s p := by
  have hregs := sameRegs_leftUp s p 4
  have hpeer : R.prtPeerx p ∉ leftRegs p := by
    simp only [leftRegs, R.prtPeerx, R.prtStat, R.prtLane, R.cirPort, List.mem_cons, List.not_mem_nil, or_false, not_or]
    omega
  have huep : R.gngUep ∉ leftRegs p := by
    simp only [leftRegs, R.gngUep, R.prtStat, R.prtLane, R.cirPort, List.mem_cons, List.not_mem_nil, or_false, not_or]
    omega
  have hack : (portOf (portDown s p) p).ack = (portOf s p).ack := by rw [portOf_portDown_same, downPort]
  have hpeer' := (rd_portDown s p _).trans (hregs _ hpeer)
  have huep' := (rd_portDown s p _).trans (hregs _ huep)
  generalize portDown s p = t at *
  rw [reportOf, reportOf, getF_congr_rd hpeer', getF_congr_rd hpeer', getF_congr_rd huep', hack]

/-- A port that goes DOWN with no ACK of its peer: what it shows, its frames in doubt, and the report it sends. -/
structure WentDown (s t : State) (p : Nat) : Prop where
  state : portState t p = 4
  event : flag t (R.prtStat p) 16 = true
  lag : flag t (R.cirPort p) 31 = false
  port : portOf t p = downPort s p
  others : ∀ q, q ≠ p → portOf t q = portOf s q
  regs : sameRegs s t (leftRegs p)
  out : ∃ g : Pkt, g.f = reportOf s p ∧ t.outbox = s.outbox ++ [g]
  frame : t = { s with regs := t.regs, ports := t.ports, outbox := t.outbox, nextId := t.nextId }

theorem goDown_none_spec {s : State} {p : Nat} (hp : p < 64) (h : flag s (R.prtStat p) 25 = false) : WentDown s (goDown s p none) p := by
  obtain ⟨hstate, hevent, -, hlag⟩ := leftUp_spec s hp (show 4 < 8 by decide)
  have hrd := rd_portDown s p
  have hregs : sameRegs s (portDown s p) (leftRegs p) := fun off hoff => (hrd off).trans (sameRegs_leftUp s p 4 off hoff)
  have hport := portOf_portDown_same s p
  have hothers {q : Nat} (hq : q ≠ p) := portOf_portDown_ne s hq
  have hframe := portDown_frame s p
  have hout : (portDown s p).outbox = s.outbox := by rw [hframe]
  rw [goDown_eq h]
  dsimp only
  rw [sendReport_eq, reportOf_portDown s hp]
  rw [portState, ← getF_congr_rd (hrd _)] at hstate
  rw [← flag_congr_rd (hrd _)] at hevent hlag
  generalize portDown s p = t at *
  refine ⟨hstate, hevent, hlag, hport, fun q hq => hothers hq, hregs, ⟨⟨t.nextId, reportOf s p, .device 0x7F3⟩, rfl, by rw [← hout]⟩, ?_⟩
  rw [hframe]

/-- Frames in doubt that are all below the peer's ACK: none is routed again. -/
theorem resolveDoubt_delivered {s : State} {p ack : Nat} (h : ∀ f ∈ (portOf s p).doubt, seqBelow f.lseq ack = true) (report : Bool) :
    resolveDoubt s p ack report = if report then
        bump (bump (setPort s p { portOf s p with doubt := [] }) (R.prtCnt p 4) (portOf s p).doubt.length) (R.prtCnt p 3) 0
      else setPort s p { portOf s p with doubt := [] } := by
  have hdone : ((portOf s p).doubt.filter fun f => seqBelow f.lseq ack) = (portOf s p).doubt := List.filter_eq_self.2 h
  have hrest : ((portOf s p).doubt.filter fun f => !seqBelow f.lseq ack) = [] :=
    List.filter_eq_nil_iff.2 fun f hf => by simp [h f hf]
  unfold resolveDoubt
  dsimp only
  rw [hdone, hrest]
  cases report <;> rfl

/-! ### A port with nothing in its queues -/

theorem clearPort_quiet {s : State} {p : Nat} (h : quietPort s p) (k : Nat) : clearPort s p k =
    { setCtl (setQueue s p { queueOf s p with frames := [] }) p [] with cir := { s.cir with slots := [] } } := by
  obtain ⟨-, hslots, hframes, hctl⟩ := h
  unfold clearPort
  dsimp only
  rw [hctl, hframes, setCtl_cir, setQueue_cir, hslots]
  rfl

theorem clearPort_quiet_frame {s : State} {p : Nat} (h : quietPort s p) (k : Nat) :
    clearPort s p k = { s with fab := (clearPort s p k).fab, cir := (clearPort s p k).cir } := by
  rw [clearPort_quiet h]
  rfl

theorem quietPort_clearPort {s : State} {p q : Nat} (h : quietPort s p) (k : Nat) (hq : quietPort s q) : quietPort (clearPort s p k) q := by
  obtain ⟨hlive, -, hframes, hctl⟩ := hq
  rw [clearPort_quiet h]
  refine ⟨hlive, rfl, ?_, ?_⟩
  · by_cases he : q = p
    · subst he
      exact congrArg PktQ.frames (queueOf_setQueue_same s q { queueOf s q with frames := [] })
    · exact (congrArg PktQ.frames (queueOf_setQueue_ne s { queueOf s p with frames := [] } he)).trans hframes
  · by_cases he : q = p
    · subst he
      exact ctlOf_setCtl_same _ q []
    · exact (ctlOf_setCtl_ne (setQueue s p { queueOf s p with frames := [] }) [] he).trans hctl

theorem quietPort_congr {s t : State} (hcir : t.cir = s.cir) (hfab : t.fab = s.fab) {q : Nat} (h : quietPort s q) : quietPort t q := by
  obtain ⟨hlive, hslots, hframes, hctl⟩ := h
  exact ⟨by rw [hcir, hlive], by rw [hcir, hslots], by rw [queueOf, hfab]; exact hframes, by rw [ctlOf, hfab]; exact hctl⟩

/-! ### Signal loss (R33, R563) -/

/-- A port that has lost its signal carries no traffic from here on. -/
def portCut (s : State) (p : Nat) : State := setF (setPortState s p 4) (R.cirPort p) 31 31 0
/-- A port that has lost its signal: its circuits closed, its queues cleared, its report sent. -/
def portLost (s : State) (p : Nat) : State := goDown (clearPort (closeOnPort s p) p 0) p none

theorem loseSignal_up {s : State} {ps : List Nat} (h : ∀ p ∈ ps, portState s p = 2) :
    loseSignal s ps = ps.foldl portLost (ps.foldl portCut s) := by
  have hall : (ps.filter fun p => portState s p == 2 || portState s p == 3) = ps :=
    List.filter_eq_self.2 fun p hp => by simp [h p hp]
  unfold loseSignal
  rw [hall]
  rfl

theorem portCut_frame (s : State) (p : Nat) : portCut s p = { s with regs := (portCut s p).regs, ports := (portCut s p).ports } := rfl

/-- What of a port its own or another's cut leaves: whether it is retired, its unacknowledged frames, its ACK. -/
theorem portCut_keeps (s : State) {p : Nat} (hp : p < 64) (q : Nat) :
    flag (portCut s p) (R.prtStat q) 25 = flag s (R.prtStat q) 25 ∧ (portOf (portCut s p) q).unacked = (portOf s q).unacked := by
  obtain ⟨-, hcir⟩ := prtStat_ne_others (p := q) hp
  have hrd : rd (portCut s p) (R.prtStat q) = rd (setF s (R.prtStat p) 2 0 4) (R.prtStat q) := rd_setF_ne _ _ _ _ hcir
  have hport : portOf (portCut s p) q = portOf (setPortState s p 4) q := portOf_of_ports (setF_ports _ _ _ _ _) q
  refine ⟨?_, ?_⟩
  · rw [flag_congr_rd hrd]
    by_cases he : q = p
    · subst he
      rw [flag_setF_same _ _ _ (by decide) (by decide), if_neg (by decide)]
    · exact flag_congr_rd (rd_setF_ne _ _ _ _ (prtStat_ne he)) 25
  · rw [hport, setPortState]
    by_cases he : q = p
    · subst he
      rw [portOf_setPort_same]
    · rw [portOf_setPort_ne _ _ he]
      rfl

theorem quietPort_portCut {s : State} {p q : Nat} (h : quietPort s q) : quietPort (portCut s p) q :=
  quietPort_congr (s := s) (by rw [portCut_frame]) (by rw [portCut_frame]) h

/-- The ports still to go DOWN are quiet and none of them is retired. -/
def Ready (s : State) (p : Nat) : Prop := quietPort s p ∧ flag s (R.prtStat p) 25 = false

theorem portLost_spec {s : State} {p : Nat} (hp : p < 64) (h : Ready s p) :
    WentDown (clearPort s p 0) (portLost s p) p ∧ ∀ q, q ≠ p → Ready s q → Ready (portLost s p) q := by
  obtain ⟨hquiet, hret⟩ := h
  obtain ⟨hlive, -⟩ := id hquiet
  have hframe := clearPort_quiet_frame hquiet 0
  have hrd (off : Nat) : rd (clearPort s p 0) off = rd s off := rd_of_regs (by rw [hframe]) off
  have hdown : WentDown (clearPort s p 0) (portLost s p) p := by
    rw [portLost, closeOnPort_none hlive]
    exact goDown_none_spec hp ((flag_congr_rd (hrd _) 25).trans hret)
  refine ⟨hdown, fun q hq hready => ⟨?_, ?_⟩⟩
  · exact quietPort_congr (by rw [hdown.frame]) (by rw [hdown.frame]) (quietPort_clearPort hquiet 0 hready.1)
  · have hne : R.prtStat q ∉ leftRegs p := by
      obtain ⟨hlane, hcir⟩ := prtStat_ne_others (p := q) hp
      simp [leftRegs, prtStat_ne hq, hlane, hcir]
    rw [flag_congr_rd (hdown.regs _ hne), flag_congr_rd (hrd _), hready.2]

/-- What the loss of a port's signal leaves, against the state before it. -/
theorem portLost_parts {s : State} {p : Nat} (hp : p < 64) (h : Ready s p) :
    portState (portLost s p) p = 4 ∧ flag (portLost s p) (R.prtStat p) 16 = true ∧ flag (portLost s p) (R.cirPort p) 31 = false ∧
      (portOf (portLost s p) p).doubt = (portOf s p).unacked ∧ (portOf (portLost s p) p).unacked = [] ∧
      (∃ g : Pkt, (portLost s p).outbox = s.outbox ++ [g] ∧ g.f.job = 0xFFF) ∧ (portLost s p).comp = s.comp ∧
      (portLost s p).deep = s.deep ∧
      ∀ q, q ≠ p → portOf (portLost s p) q = portOf s q ∧ rd (portLost s p) (R.prtStat q) = rd s (R.prtStat q) := by
  obtain ⟨hdown, -⟩ := portLost_spec hp h
  have hframe := clearPort_quiet_frame h.1 0
  have hports (q : Nat) : portOf (clearPort s p 0) q = portOf s q := portOf_of_ports (by rw [hframe]) q
  obtain ⟨g, hg, hout⟩ := hdown.out
  have hout' : (clearPort s p 0).outbox = s.outbox := by rw [hframe]
  refine ⟨hdown.state, hdown.event, hdown.lag, ?_, ?_, ⟨g, by rw [hout, hout'], by rw [hg]; rfl⟩, ?_, ?_, fun q hq => ⟨?_, ?_⟩⟩
  · rw [hdown.port, downPort, hports]
  · rw [hdown.port, downPort]
  · rw [hdown.frame, hframe]
  · rw [hdown.frame, hframe]
  · rw [hdown.others q hq, hports]
  · obtain ⟨hlane, hcir⟩ := prtStat_ne_others (p := q) hp
    rw [hdown.regs _ (by simp [leftRegs, prtStat_ne hq, hlane, hcir])]
    exact rd_of_regs (by rw [hframe]) _

/-- Ports that are cut together: what each still has. -/
theorem portsCut_spec {ps : List Nat} (hps : ∀ p ∈ ps, p < 64) (s : State) : (∀ q, Ready s q → Ready (ps.foldl portCut s) q) ∧
    (∀ q, (portOf (ps.foldl portCut s) q).unacked = (portOf s q).unacked) ∧ (ps.foldl portCut s).outbox = s.outbox ∧
    (ps.foldl portCut s).comp = s.comp ∧ (ps.foldl portCut s).deep = s.deep := by
  induction ps generalizing s with
  | nil => exact ⟨fun _ h => h, fun _ => rfl, rfl, rfl, rfl⟩
  | cons p ps ih =>
    have hp := hps p List.mem_cons_self
    obtain ⟨hready, hunacked, hout, hcomp, hdeep⟩ := ih (fun q hq => hps q (List.mem_cons_of_mem _ hq)) (portCut s p)
    refine ⟨fun q h => hready q ⟨quietPort_portCut h.1, (portCut_keeps s hp q).1.trans h.2⟩,
      fun q => (hunacked q).trans (portCut_keeps s hp q).2, ?_, ?_, ?_⟩
    · exact hout.trans (by rw [portCut_frame])
    · exact hcomp.trans (by rw [portCut_frame])
    · exact hdeep.trans (by rw [portCut_frame])

/-- Ports that go DOWN one after the other, each quiet: all of them are DOWN, and each sent its report. -/
theorem portsLost_spec {ps : List Nat} (hps : ∀ p ∈ ps, p < 64) (hone : ps.Nodup) {s : State} (h : ∀ p ∈ ps, Ready s p) :
    (∀ p ∈ ps, portState (ps.foldl portLost s) p = 4 ∧ flag (ps.foldl portLost s) (R.prtStat p) 16 = true ∧
      (portOf (ps.foldl portLost s) p).doubt = (portOf s p).unacked) ∧
    (∀ q, q ∉ ps → portOf (ps.foldl portLost s) q = portOf s q ∧
      rd (ps.foldl portLost s) (R.prtStat q) = rd s (R.prtStat q)) ∧
    (ps.foldl portLost s).outbox.length = s.outbox.length + ps.length ∧ (ps.foldl portLost s).comp = s.comp ∧
    (ps.foldl portLost s).deep = s.deep := by
  induction ps generalizing s with
  | nil => exact ⟨fun _ h => absurd h List.not_mem_nil, fun _ _ => ⟨rfl, rfl⟩, rfl, rfl, rfl⟩
  | cons p ps ih =>
    obtain ⟨hnot, hone'⟩ := List.nodup_cons.1 hone
    have hp := hps p List.mem_cons_self
    have hready := h p List.mem_cons_self
    obtain ⟨-, hkeep⟩ := portLost_spec hp hready
    obtain ⟨hstate, hevent, -, hdoubt, -, ⟨g, hout, -⟩, hcomp, hdeep, hothers⟩ := portLost_parts hp hready
    obtain ⟨hlost, hrest, hlen, hcomp', hdeep'⟩ := ih (fun q hq => hps q (List.mem_cons_of_mem _ hq)) hone' (s := portLost s p)
      fun q hq => hkeep q (ne_of_mem_of_not_mem hq hnot) (h q (List.mem_cons_of_mem _ hq))
    refine ⟨fun q hq => ?_, fun q hq => ?_, ?_, hcomp'.trans hcomp, hdeep'.trans hdeep⟩
    · rw [List.foldl_cons]
      rcases List.mem_cons.1 hq with he | hin
      · obtain ⟨hport, hrd⟩ := hrest p hnot
        rw [he, portState_of_rd hrd, flag_congr_rd hrd, hport]
        exact ⟨hstate, hevent, hdoubt⟩
      · obtain ⟨hstateq, heventq, hdoubtq⟩ := hlost q hin
        refine ⟨hstateq, heventq, ?_⟩
        rw [hdoubtq, (hothers q (ne_of_mem_of_not_mem hin hnot)).1]
    · obtain ⟨hne, hnotin⟩ := not_or.1 (fun hc => hq (List.mem_cons.2 hc))
      obtain ⟨hport, hrd⟩ := hrest q hnotin
      obtain ⟨hport', hrd'⟩ := hothers q hne
      exact ⟨hport.trans hport', hrd.trans hrd'⟩
    · rw [List.foldl_cons, hlen, hout, List.length_append, List.length_singleton, List.length_cons]
      omega

theorem linkReport_head {s : State} {k : Pkt} {rest : List Pkt} {p : Nat} (hin : s.inbox = k :: rest) (hrep : isReport k.f = true)
    (hoff : k.f.offset = 0x400 + 16 * p) (hpeer : leAt k.f.payload 0 8 = rd64 s (R.prtPeer p)) :
    linkReport s = resolveDoubt { s with inbox := rest } p (leAt k.f.payload 8 2 % 16384) true := by
  have hp : (k.f.offset - 0x400) / 16 = p := by omega
  have hpeer' : leAt k.f.payload 0 8 = rd64 { s with inbox := rest } (R.prtPeer p) := hpeer
  unfold linkReport
  rw [takeFirst_head (pick := fun p : Pkt => isReport p.f) hin hrep]
  dsimp only
  rw [hp, if_pos hpeer']

theorem resolveDoubt_counted {s : State} {p ack : Nat} (h : ∀ f ∈ (portOf s p).doubt, seqBelow f.lseq ack = true) {t : State}
    (ht : t = resolveDoubt s p ack true) : (portOf t p).doubt = [] ∧
      rd t (R.prtCnt p 4) = min (2 ^ 32 - 1) (rd s (R.prtCnt p 4) % 2 ^ 32 + (portOf s p).doubt.length) ∧
      sameRegs s t [R.prtCnt p 3, R.prtCnt p 4] ∧ t.inbox = s.inbox ∧ t.outbox = s.outbox ∧ t.comp = s.comp ∧ t.deep = s.deep := by
  have hne : R.prtCnt p 4 ≠ R.prtCnt p 3 := by
    simp only [R.prtCnt]
    omega
  rw [resolveDoubt_delivered h, if_pos rfl] at ht
  generalize R.prtCnt p 3 = c3 at *
  generalize R.prtCnt p 4 = c4 at *
  subst ht
  refine ⟨?_, ?_, ?_, rfl, rfl, rfl, rfl⟩
  · rw [portOf_of_ports (bump_ports _ _ _), portOf_of_ports (bump_ports _ _ _), portOf_setPort_same]
  · rw [rd_bump_ne _ _ hne, rd_bump_same, rd_setPort]
  · exact sameRegs_trans (sameRegs_bump (setPort s p _) _ (by simp)) (sameRegs_bump _ 0 (by simp))

theorem faultBells_frame (s : State) (cause unit : Nat) (jobs : List Nat) : (faultBells s cause unit jobs).ports = s.ports ∧
    (faultBells s cause unit jobs).comp = s.comp ∧ (faultBells s cause unit jobs).deep = s.deep := by
  have hbell (u : State) (job : Nat) : (faultBell u cause unit job).ports = u.ports ∧ (faultBell u cause unit job).comp = u.comp ∧
      (faultBell u cause unit job).deep = u.deep := by
    refine List.foldlRecOn (motive := fun t : State => t.ports = u.ports ∧ t.comp = u.comp ∧ t.deep = u.deep) _ _ ⟨rfl, rfl, rfl⟩
      fun t ht fn _ => ?_
    split
    · exact ht
    · exact ht
  refine List.foldlRecOn (motive := fun t : State => t.ports = s.ports ∧ t.comp = s.comp ∧ t.deep = s.deep) _ _ ⟨rfl, rfl, rfl⟩
    fun t ht job _ => ?_
  obtain ⟨hports, hcomp, hdeep⟩ := hbell t job
  exact ⟨hports.trans ht.1, hcomp.trans ht.2.1, hdeep.trans ht.2.2⟩

/-- The frames in doubt of a port are counted as lost. -/
def doubtLost (s : State) (p : Nat) : State :=
  raise (bump (setPort s p { portOf s p with doubt := [] }) (R.prtCnt p 5) (portOf s p).doubt.length) (R.prtStat p) 21

theorem linkReportTimeout_due {s : State} {p : Port} (hne : (portOf s p).doubt ≠ []) (hdue : (portOf s p).doubtAt + 16000 ≤ s.time.lamp) :
    linkReportTimeout p s = faultBells (doubtLost s p) 0x14 p (((portOf s p).doubt.map fun d => d.e.f.job).eraseDups) := by
  have hgo : ¬ ((portOf s p).doubt.isEmpty = true ∨ s.time.lamp < (portOf s p).doubtAt + 16000) := by
    rw [List.isEmpty_iff]
    rintro (he | hlt)
    · exact hne he
    · omega
  unfold linkReportTimeout
  dsimp only
  rw [if_neg hgo, ← doubtLost]

theorem doubtLost_spec (s : State) (p : Nat) : (portOf (doubtLost s p) p).doubt = [] ∧ flag (doubtLost s p) (R.prtStat p) 21 = true ∧
    rd (doubtLost s p) (R.prtCnt p 5) = min (2 ^ 32 - 1) (rd s (R.prtCnt p 5) % 2 ^ 32 + (portOf s p).doubt.length) ∧
    sameRegs s (doubtLost s p) [R.prtCnt p 5, R.prtStat p] ∧ (doubtLost s p).comp = s.comp ∧ (doubtLost s p).deep = s.deep := by
  have hne : R.prtCnt p 5 ≠ R.prtStat p := by
    simp only [R.prtCnt, R.prtStat]
    omega
  unfold doubtLost
  generalize R.prtCnt p 5 = c5 at *
  generalize R.prtStat p = st at *
  refine ⟨?_, flag_raise_same _ _ (by decide), ?_, ?_, by rw [raise_comp, bump_comp, setPort_comp],
    by rw [raise_deep, bump_deep, setPort_deep]⟩
  · rw [portOf_of_ports (raise_ports _ _ _), portOf_of_ports (bump_ports _ _ _), portOf_setPort_same]
  · rw [rd_raise_ne _ _ hne, rd_bump_same, rd_setPort]
  · exact sameRegs_trans (sameRegs_bump (setPort s p _) _ (by simp)) (sameRegs_raise _ _ (by simp))

/-! ### A port that trains (R556, R559, R563) -/

theorem startTraining_ready {s : State} {p : Nat} (hret : flag s (R.prtStat p) 25 = false) (hen : flag s (R.prtCtl p) 31 = true)
    (hlamp : s.power.lamp = 0) : ∃ u : List Byte, portState (startTraining s p) p = 1 ∧ (portOf (startTraining s p) p).retry = none ∧
      (startTraining s p).out = s.out ++ [.linkUnit p u] ∧ (startTraining s p).comp = s.comp ∧ (startTraining s p).deep = s.deep := by
  have hstate := portState_startTraining hen hret hlamp
  obtain ⟨hdeep, hcomp, -⟩ := startTraining_frame s p
  have heq : startTraining s p = sendTraining (setPort (setPortState s p 1) p
      { portOf (setPortState s p 1) p with result := none, retry := none, ctlIn := [] }) p := by
    unfold startTraining
    rw [hret, if_neg Bool.false_ne_true, if_neg (by simp [hen, hlamp])]
  have hout : (setPortState s p 1).out = s.out := by rw [setPortState, setPort_out, setF_out]
  rw [heq] at hstate hcomp hdeep ⊢
  generalize setPortState s p 1 = u at *
  exact ⟨trainingUnit (setPort u p { portOf u p with result := none, retry := none, ctlIn := [] }) p, hstate,
    congrArg PortSt.retry (portOf_setPort_same u p _), by rw [← hout]; rfl, hcomp, hdeep⟩

/-! ### Training (R557, R560 to R562) -/

/-- What an UP port shows of its training and its peer. -/
def trainingShown (s : State) (p peer uep port : Nat) (r : Nat × Nat × Nat) : State :=
  setF (setF (wr64 (setF (setF (setF (setF s (R.prtStat p) 11 8 r.2.2) (R.prtStat p) 5 4 r.2.1) (R.prtLane p) 15 8 r.1)
    (R.prtLane p) 23 16 0) (R.prtPeer p) peer) (R.prtPeerx p) 31 16 uep) (R.prtPeerx p) 5 0 port

theorem rd64_congr {s t : State} {off : Nat} (hlow : rd t off = rd s off) (hhigh : rd t (off + 4) = rd s (off + 4)) :
    rd64 t off = rd64 s off := by
  rw [rd64, rd64, hlow, hhigh]

theorem rd_wr64_ne (s : State) {off x : Nat} (v : Nat) (hlow : x ≠ off) (hhigh : x ≠ off + 4) : rd (wr64 s off v) x = rd s x :=
  sameRegs_wr64 s off v x (by simp [hlow, hhigh])

theorem trainingShown_spec (s : State) (p : Nat) {peer uep port : Nat} {r : Nat × Nat × Nat} (hpeer : peer < 2 ^ 64)
    (huep : uep < 2 ^ 16) (hm : r.1 < 256) (hw : r.2.1 < 4) (hl : r.2.2 < 16) :
    getF (trainingShown s p peer uep port r) (R.prtStat p) 2 0 = getF s (R.prtStat p) 2 0 ∧
      getF (trainingShown s p peer uep port r) (R.prtLane p) 15 8 = r.1 ∧
      getF (trainingShown s p peer uep port r) (R.prtStat p) 5 4 = r.2.1 ∧
      getF (trainingShown s p peer uep port r) (R.prtStat p) 11 8 = r.2.2 ∧
      rd64 (trainingShown s p peer uep port r) (R.prtPeer p) = peer ∧
      getF (trainingShown s p peer uep port r) (R.prtPeerx p) 31 16 = uep := by
  have hSX : R.prtStat p ≠ R.prtPeerx p := by simp only [R.prtStat, R.prtPeerx]; omega
  have hSP : R.prtStat p ≠ R.prtPeer p := by simp only [R.prtStat, R.prtPeer]; omega
  have hSP4 : R.prtStat p ≠ R.prtPeer p + 4 := by simp only [R.prtStat, R.prtPeer]; omega
  have hSL : R.prtStat p ≠ R.prtLane p := by simp only [R.prtStat, R.prtLane]; omega
  have hLX : R.prtLane p ≠ R.prtPeerx p := by simp only [R.prtLane, R.prtPeerx]; omega
  have hLP : R.prtLane p ≠ R.prtPeer p := by simp only [R.prtLane, R.prtPeer]; omega
  have hLP4 : R.prtLane p ≠ R.prtPeer p + 4 := by simp only [R.prtLane, R.prtPeer]; omega
  have hPX : R.prtPeer p ≠ R.prtPeerx p := by simp only [R.prtPeer, R.prtPeerx]; omega
  have hP4X : R.prtPeer p + 4 ≠ R.prtPeerx p := by simp only [R.prtPeer, R.prtPeerx]; omega
  unfold trainingShown
  have hstat (u : State) : rd (setF (setF (wr64 (setF (setF u (R.prtLane p) 15 8 r.1) (R.prtLane p) 23 16 0) (R.prtPeer p) peer)
      (R.prtPeerx p) 31 16 uep) (R.prtPeerx p) 5 0 port) (R.prtStat p) = rd u (R.prtStat p) := by
    rw [rd_setF_ne _ _ _ _ hSX, rd_setF_ne _ _ _ _ hSX, rd_wr64_ne _ _ hSP hSP4, rd_setF_ne _ _ _ _ hSL, rd_setF_ne _ _ _ _ hSL]
  refine ⟨?_, ?_, ?_, ?_, ?_, ?_⟩
  · rw [getF_congr_rd (hstat _), getF_setF_apart _ _ _ (by decide) (by decide) (by decide),
      getF_setF_apart _ _ _ (by decide) (by decide) (by decide)]
  · rw [getF_congr_rd (rd_setF_ne _ _ _ _ hLX), getF_congr_rd (rd_setF_ne _ _ _ _ hLX), getF_congr_rd (rd_wr64_ne _ _ hLP hLP4),
      getF_setF_apart _ _ _ (by decide) (by decide) (by decide), getF_setF_same _ _ _ (by decide) (by decide)]
    exact Nat.mod_eq_of_lt hm
  · rw [getF_congr_rd (hstat _), getF_setF_same _ _ _ (by decide) (by decide)]
    exact Nat.mod_eq_of_lt hw
  · rw [getF_congr_rd (hstat _), getF_setF_apart _ _ _ (by decide) (by decide) (by decide),
      getF_setF_same _ _ _ (by decide) (by decide)]
    exact Nat.mod_eq_of_lt hl
  · rw [rd64_congr (rd_setF_ne _ _ _ _ hPX) (rd_setF_ne _ _ _ _ hP4X), rd64_congr (rd_setF_ne _ _ _ _ hPX) (rd_setF_ne _ _ _ _ hP4X),
      rd64_wr64_same, Nat.mod_eq_of_lt hpeer]
  · rw [getF_setF_apart _ _ _ (by decide) (by decide) (by decide), getF_setF_same _ _ _ (by decide) (by decide)]
    exact Nat.mod_eq_of_lt huep

theorem trainingShown_frame (s : State) (p peer uep port : Nat) (r : Nat × Nat × Nat) :
    (trainingShown s p peer uep port r).ports = s.ports ∧ (trainingShown s p peer uep port r).comp = s.comp ∧
      (trainingShown s p peer uep port r).deep = s.deep := by
  simp only [trainingShown, setF_ports, setF_comp, setF_deep, wr64_ports, wr64_comp, wr64_deep, and_self]

/-- The link state of a port that comes up for the first time. -/
def freshPort (s : State) (p : Nat) : PortSt :=
  { portOf s p with
    next := 0, ack := 0, nak := false, unacked := [], advanced := s.time.lamp, wasUp := false, failSent := false, errs := []
    doubt := (portOf s p).doubt ++ (portOf s p).unacked
    doubtAt := if (portOf s p).unacked.isEmpty then (portOf s p).doubtAt else s.time.lamp }

/-- A port that comes up for the first time, with no port known behind it. -/
def cameUp (s : State) (p peer uep port : Nat) (r : Nat × Nat × Nat) : State :=
  trainingShown (setPortState (setPort s p (freshPort s p)) p 2) p peer uep port r

theorem reachUp_first {s : State} {p : Nat} (hwas : (portOf s p).wasUp = false) (hlast : (portOf s p).lastPeer = 0)
    (peer uep port rt ack : Nat) (r : Nat × Nat × Nat) : reachUp s p peer uep port rt ack r =
      startExchanges (setPort (cameUp s p peer uep port r) p { portOf (cameUp s p peer uep port r) p with lastPeer := peer }) p := by
  have hres : resume s p (rt % 2 == 1) ack = setPort s p (freshPort s p) := by
    unfold resume
    dsimp only
    rw [if_neg (by simp [hwas])]
    rfl
  unfold reachUp
  dsimp only
  rw [hres, hlast, if_neg (by simp)]
  rfl

theorem startExchanges_spec (s : State) (p : Nat) : (delayExchOf (startExchanges s p) p).left = 16 ∧
    flag (startExchanges s p) (R.gngPdly p) 31 = false ∧ sameRegs s (startExchanges s p) [R.gngPdly p] ∧
    (startExchanges s p).ports = s.ports ∧ (startExchanges s p).comp = s.comp ∧ (startExchanges s p).deep = s.deep := by
  have heq : startExchanges s p =
      setF (setDelay s p { DelaySt.start with left := 16, due := s.time.lamp }) (R.gngPdly p) 31 31 0 := rfl
  have hdelay : delayExchOf (startExchanges s p) p = { DelaySt.start with left := 16, due := s.time.lamp } := by
    rw [delayExchOf, heq, setF_delay, ← delayExchOf, delayExchOf_setDelay_same]
  rw [hdelay, heq, setF_ports, setF_comp, setF_deep]
  refine ⟨rfl, ?_, sameRegs_setF (setDelay s p _) 31 31 0 (by simp), rfl, rfl, rfl⟩
  rw [flag_setF_same _ _ _ le_rfl (by decide), if_pos (by decide)]
  simp [bit]

theorem reachUp_spec {s : State} {p : Nat} (hp : p < 64) (hwas : (portOf s p).wasUp = false) (hlast : (portOf s p).lastPeer = 0)
    {peer uep : Nat} {r : Nat × Nat × Nat} (hpeer : peer < 2 ^ 64) (huep : uep < 2 ^ 16) (hm : r.1 < 256) (hw : r.2.1 < 4)
    (hl : r.2.2 < 16) (port rt ack : Nat) {t : State} (ht : t = reachUp s p peer uep port rt ack r) : portState t p = 2 ∧
      getF t (R.prtLane p) 15 8 = r.1 ∧ getF t (R.prtStat p) 5 4 = r.2.1 ∧ getF t (R.prtStat p) 11 8 = r.2.2 ∧
      rd64 t (R.prtPeer p) = peer ∧ getF t (R.prtPeerx p) 31 16 = uep ∧ flag t (R.gngPdly p) 31 = false ∧
      (delayExchOf t p).left = 16 ∧ (portOf t p).next = 0 ∧ (portOf t p).ack = 0 ∧ t.comp = s.comp ∧ t.deep = s.deep := by
  obtain ⟨hstate, hlane, hwidth, hlvl, hpeer', huep'⟩ := trainingShown_spec (setPortState (setPort s p (freshPort s p)) p 2) p
    (port := port) hpeer huep hm hw hl
  obtain ⟨hports, hcomp, hdeep⟩ := trainingShown_frame (setPortState (setPort s p (freshPort s p)) p 2) p peer uep port r
  have hup : getF (setPortState (setPort s p (freshPort s p)) p 2) (R.prtStat p) 2 0 = 2 := portState_setPortState _ p (by decide)
  have hport : portOf (cameUp s p peer uep port r) p = { freshPort s p with since := s.time.lamp } := by
    rw [cameUp, portOf_of_ports hports, setPortState, portOf_setPort_same, portOf_setPort_same]
    rfl
  have hcomp' : (cameUp s p peer uep port r).comp = s.comp := hcomp
  have hdeep' : (cameUp s p peer uep port r).deep = s.deep := hdeep
  rw [← cameUp] at hstate hlane hwidth hlvl hpeer' huep'
  rw [reachUp_first hwas hlast, hport] at ht
  generalize cameUp s p peer uep port r = u at *
  obtain ⟨hleft, hdly, hregs, hportsE, hcompE, hdeepE⟩ := startExchanges_spec
    (setPort u p { freshPort s p with since := s.time.lamp, lastPeer := peer }) p
  have hne {off : Nat} (hoff : off ≠ R.gngPdly p) : rd t off = rd u off := by
    rw [ht]
    exact hregs off (by simpa using hoff)
  have hports' : portOf t p = { freshPort s p with since := s.time.lamp, lastPeer := peer } := by
    rw [ht, portOf_of_ports hportsE, portOf_setPort_same]
  have hstat : rd t (R.prtStat p) = rd u (R.prtStat p) := hne (by simp only [R.prtStat, R.gngPdly]; omega)
  have hlane' : rd t (R.prtLane p) = rd u (R.prtLane p) := hne (by simp only [R.prtLane, R.gngPdly]; omega)
  have hpx : rd t (R.prtPeerx p) = rd u (R.prtPeerx p) := hne (by simp only [R.prtPeerx, R.gngPdly]; omega)
  have hpl : rd t (R.prtPeer p) = rd u (R.prtPeer p) := hne (by simp only [R.prtPeer, R.gngPdly]; omega)
  have hph : rd t (R.prtPeer p + 4) = rd u (R.prtPeer p + 4) := hne (by simp only [R.prtPeer, R.gngPdly]; omega)
  refine ⟨?_, ?_, ?_, ?_, ?_, ?_, ?_, ?_, ?_, ?_, ?_, ?_⟩
  · rw [portState, getF_congr_rd hstat, hstate, hup]
  · rw [getF_congr_rd hlane', hlane]
  · rw [getF_congr_rd hstat, hwidth]
  · rw [getF_congr_rd hstat, hlvl]
  · rw [rd64_congr hpl hph, hpeer']
  · rw [getF_congr_rd hpx, huep']
  · rw [ht, hdly]
  · rw [ht, hleft]
  · rw [hports', freshPort]
  · rw [hports', freshPort]
  · rw [ht, hcompE]
    exact hcomp'
  · rw [ht, hdeepE]
    exact hdeep'

/-- A port in TRAIN that has taken the lanes it receives cleanly, RESULT and the lanes of its training, and has answered. -/
def resultTaken (s : State) (p good lanes : Nat) (r : Nat × Nat × Nat) : State :=
  let t := setPort s p { portOf s p with good := good }
  let t := sendTraining (setPort t p { portOf t p with result := some r }) p
  setPort t p { portOf t p with lanes := lanes }

theorem portOf_sendTraining (s : State) (p q : Nat) : portOf (sendTraining s p) q = portOf s q := rfl

theorem sendTraining_stores (s : State) (p : Nat) : (sendTraining s p).comp = s.comp ∧ (sendTraining s p).deep = s.deep :=
  ⟨rfl, rfl⟩

theorem resultTaken_spec (s : State) (p good lanes : Nat) (r : Nat × Nat × Nat) :
    portOf (resultTaken s p good lanes r) p = { portOf s p with good := good, result := some r, lanes := lanes } ∧
      (resultTaken s p good lanes r).comp = s.comp ∧ (resultTaken s p good lanes r).deep = s.deep := by
  unfold resultTaken
  dsimp only
  refine ⟨?_, ?_, ?_⟩
  · rw [portOf_setPort_same, portOf_sendTraining, portOf_setPort_same, portOf_setPort_same]
  · rw [setPort_comp, (sendTraining_stores _ _).1, setPort_comp, setPort_comp]
  · rw [setPort_deep, (sendTraining_stores _ _).2, setPort_deep, setPort_deep]

/-- What the peer's training unit gives a port in TRAIN that may take its RESULT (R560). -/
theorem trainingUnitReceive_told {s : State} {p : Port} {data : List Byte} {good : Byte} {u w lvl : Nat} (hstate : portState s p = 1)
    (hretry : (portOf s p).retry = none) (hcrc : leAt data 28 4 = crc32c (data.take 28)) (htold : bit (byteAt data 14) 1 = true)
    (hu : u = byteAt data 12 &&& (good.toNat &&& (255 - getF s (R.prtLane p) 31 24))) (hlanes : 2 ≤ laneCount u)
    (hw : w = min (min (askedWidth s p) (byteAt data 11)) (widestFit (laneCount u)))
    (hlvl : lvl = min (byteAt data 13 / 16) (offeredMax s p)) (hmin : max (byteAt data 13 % 16) (getF s (R.prtLvl p) 3 0) ≤ lvl)
    (hpeer : Config.devid.toNat < leAt data 0 8 ∨ (leAt data 0 8 < Config.devid.toNat ∧
      byteAt data 18 = lowestLanes u (widthLanes w) ∧ byteAt data 19 = w ∧ byteAt data 20 = lvl)) :
    trainingUnitReceive p data good s =
      reachUp (resultTaken s p good.toNat u (byteAt data 18, byteAt data 19, byteAt data 20)) p (leAt data 0 8) (leAt data 8 2)
        (byteAt data 10 % 64) (byteAt data 14) (leAt data 16 2) (byteAt data 18, byteAt data 19, byteAt data 20) := by
  have hgood : offeredGood (setPort s p { portOf s p with good := good.toNat }) p =
      good.toNat &&& (255 - getF s (R.prtLane p) 31 24) := by
    rw [offeredGood, portOf_setPort_same]
    rfl
  have hmax : offeredMax (setPort s p { portOf s p with good := good.toNat }) p = offeredMax s p := rfl
  have hask : askedWidth (setPort s p { portOf s p with good := good.toNat }) p = askedWidth s p := rfl
  have hfloor : getF (setPort s p { portOf s p with good := good.toNat }) (R.prtLvl p) 3 0 = getF s (R.prtLvl p) 3 0 := rfl
  have hwait : ¬ (portState s p ≠ 1 ∨ (portOf s p).retry.isSome = true) := by simp [hstate, hretry]
  unfold trainingUnitReceive
  dsimp only
  rw [if_neg (not_not.2 hcrc), if_neg (by omega), if_neg hwait, hgood, hmax, hask, hfloor, ← hu, ← hlvl, ← hw, if_neg (by omega),
    if_neg (by omega), if_neg (by omega), htold]
  rcases hpeer with hlow | ⟨hhigh, hm, hwid, hlv⟩
  · rw [if_neg (by omega), if_pos rfl]
    rfl
  · rw [if_pos hhigh, hm, hwid, hlv, if_pos (by simp)]
    rfl

/-! ### FAIL and going DOWN (R563, Table LNK-6) -/

/-- A port whose queues are empty has sent FAIL. -/
theorem sendFail_quiet {s : State} {p : Nat} (h : quietPort s p) : ∃ u : List Byte, (portOf (sendFail s p) p).failSent = true ∧
    (sendFail s p).out = s.out ++ [.linkUnit p u] ∧ (sendFail s p).regs = s.regs ∧ (sendFail s p).comp = s.comp ∧
    (sendFail s p).deep = s.deep := by
  have hframe := clearPort_quiet_frame h 0
  unfold sendFail
  rw [hframe]
  generalize (clearPort s p 0).fab = fab
  generalize (clearPort s p 0).cir = cir
  exact ⟨_, congrArg PortSt.failSent (portOf_setPort_same _ p _), rfl, rfl, rfl, rfl⟩

theorem failReceive_failed {s : State} {p : Port} {a : Nat} {b : List Byte} {r : List (Nat × List Byte)} (hstate : portState s p = 3)
    (hsent : (portOf s p).failSent = true) (hin : (portOf s p).ctlIn = (a, b) :: r) (hop : byteAt b 0 = 3) :
    failReceive p s = goDown (setPort s p { portOf s p with ctlIn := r }) p (some a) := by
  have hstate' : portState (setPort s p { portOf s p with ctlIn := r }) p = 3 := hstate
  have hsent' : (portOf (setPort s p { portOf s p with ctlIn := r }) p).failSent = true := by
    rw [portOf_setPort_same]
    exact hsent
  unfold failReceive
  rw [takeControl_head hin hop]
  dsimp only
  rw [hstate', if_neg (by decide), if_pos rfl, if_pos hsent']

theorem goDown_acked {s : State} {p : Nat} (hp : p < 64) (h : flag s (R.prtStat p) 25 = false) (hun : (portOf s p).unacked = []) (a : Nat)
    {t : State} (ht : t = goDown s p (some a)) : portState t p = 4 ∧ flag t (R.prtStat p) 16 = true ∧ (portOf t p).doubt = [] ∧
      t.out = s.out ∧ t.comp = s.comp ∧ t.deep = s.deep := by
  obtain ⟨hstate, hevent, -, -⟩ := leftUp_spec s hp (show 4 < 8 by decide)
  have hrd := rd_portDown s p
  have hframe := portDown_frame s p
  have hdoubt : (portOf (portDown s p) p).doubt = [] := by rw [portOf_portDown_same, downPort, hun]
  rw [goDown_eq h] at ht
  dsimp only at ht
  rw [resolveDoubt_delivered (by rw [hdoubt]; simp), if_neg Bool.false_ne_true] at ht
  rw [portState, ← getF_congr_rd (hrd _)] at hstate
  rw [← flag_congr_rd (hrd _)] at hevent
  generalize portDown s p = u at *
  subst ht
  exact ⟨hstate, hevent, congrArg PortSt.doubt (portOf_setPort_same u p _), by rw [setPort_out, hframe],
    by rw [setPort_comp, hframe], by rw [setPort_deep, hframe]⟩

/-- A failing port that has sent FAIL and hears the peer's. -/
theorem failReceive_spec {s : State} {p : Port} {a : Nat} {b : List Byte} {r : List (Nat × List Byte)} (hstate : portState s p = 3)
    (hsent : (portOf s p).failSent = true) (hin : (portOf s p).ctlIn = (a, b) :: r) (hop : byteAt b 0 = 3)
    (hun : (portOf s p).unacked = []) (hret : flag s (R.prtStat p) 25 = false) {t : State} (ht : t = failReceive p s) :
    portState t p = 4 ∧ flag t (R.prtStat p) 16 = true ∧ (portOf t p).doubt = [] ∧ t.out = s.out ∧ t.comp = s.comp ∧
      t.deep = s.deep := by
  have hport := portOf_setPort_same s p { portOf s p with ctlIn := r }
  have hret' := (flag_congr_rd (rd_setPort s p { portOf s p with ctlIn := r } (R.prtStat p)) 25).trans hret
  have hout := setPort_out s p { portOf s p with ctlIn := r }
  have hcomp := setPort_comp s p { portOf s p with ctlIn := r }
  have hdeep := setPort_deep s p { portOf s p with ctlIn := r }
  rw [failReceive_failed hstate hsent hin hop] at ht
  generalize setPort s p { portOf s p with ctlIn := r } = v at *
  rw [← hout, ← hcomp, ← hdeep]
  exact goDown_acked p.isLt hret' (by rw [hport]; exact hun) a ht

/-! ### The end of a drain (R564) -/

/-- A port that is OFF after its drain. -/
def portOff (s : State) (p : Nat) : State :=
  setPort (leftUp s p 0) p { portOf (leftUp s p 0) p with
    stopping := none, width := none, doubt := [], doubtAt := s.time.lamp, unacked := [], nak := false, ctlIn := [] }

theorem portDrainEnd_off {s : State} {p : Port} {t0 : Nat} (hstop : (portOf s p).stopping = some (0, t0))
    (hun : (portOf s p).unacked = []) (hen : flag s (R.prtCtl p) 31 = false) : portDrainEnd p s = portOff s p := by
  have hctl : R.prtCtl p ∉ leftRegs p := by
    have hp := p.isLt
    simp only [leftRegs, R.prtCtl, R.prtStat, R.prtLane, R.cirPort, List.mem_cons, List.not_mem_nil, or_false, not_or]
    omega
  have hen' (x : PortSt) : flag (setPort (leftUp s p 0) p x) (R.prtCtl p) 31 = false :=
    (flag_congr_rd ((rd_setPort _ _ _ _).trans (sameRegs_leftUp s p 0 _ hctl)) 31).trans hen
  have htime : (leftUp s p 0).time = s.time := by rw [leftUp_frame]
  have hnone (a b : State) : (if ([] : List SentFrame).isEmpty = true then a else b) = a := if_pos rfl
  unfold portDrainEnd
  dsimp only
  rw [hstop, hun]
  dsimp only
  rw [if_neg (by simp), if_neg (by decide), hnone, hen', if_neg Bool.false_ne_true, portOff, htime]

theorem portOff_spec (s : State) {p : Nat} (hp : p < 64) : portState (portOff s p) p = 0 ∧ flag (portOff s p) (R.prtStat p) 16 = true ∧
    (portOf (portOff s p) p).stopping = none ∧ (portOff s p).outbox = s.outbox ∧ (portOff s p).comp = s.comp ∧
    (portOff s p).deep = s.deep := by
  obtain ⟨hstate, hevent, -, -⟩ := leftUp_spec s hp (show 0 < 8 by decide)
  have hframe := leftUp_frame s p 0
  unfold portOff
  generalize leftUp s p 0 = u at *
  exact ⟨hstate, hevent, congrArg PortSt.stopping (portOf_setPort_same u p _), by rw [setPort_outbox, hframe],
    by rw [setPort_comp, hframe], by rw [setPort_deep, hframe]⟩

/-! ### The rows -/

theorem trainingUnitReceive_reaches {s : State} {p : Port} {data : List Byte} {good : Byte} {u w lvl : Nat} (hstate : portState s p = 1)
    (hretry : (portOf s p).retry = none) (hwas : (portOf s p).wasUp = false) (hlast : (portOf s p).lastPeer = 0)
    (hcrc : leAt data 28 4 = crc32c (data.take 28)) (htold : bit (byteAt data 14) 1 = true)
    (hu : u = byteAt data 12 &&& (good.toNat &&& (255 - getF s (R.prtLane p) 31 24))) (hlanes : 2 ≤ laneCount u)
    (hw : w = min (min (askedWidth s p) (byteAt data 11)) (widestFit (laneCount u)))
    (hlvl : lvl = min (byteAt data 13 / 16) (offeredMax s p)) (hmin : max (byteAt data 13 % 16) (getF s (R.prtLvl p) 3 0) ≤ lvl)
    (hwidth : byteAt data 19 < 4) (hlevel : byteAt data 20 < 16)
    (hpeer : Config.devid.toNat < leAt data 0 8 ∨ (leAt data 0 8 < Config.devid.toNat ∧
      byteAt data 18 = lowestLanes u (widthLanes w) ∧ byteAt data 19 = w ∧ byteAt data 20 = lvl))
    {t : State} (ht : t = trainingUnitReceive p data good s) : portState t p = 2 ∧
      getF t (R.prtLane p) 15 8 = byteAt data 18 ∧ getF t (R.prtStat p) 5 4 = byteAt data 19 ∧
      getF t (R.prtStat p) 11 8 = byteAt data 20 ∧ rd64 t (R.prtPeer p) = leAt data 0 8 ∧
      getF t (R.prtPeerx p) 31 16 = leAt data 8 2 ∧ flag t (R.gngPdly p) 31 = false ∧ (delayExchOf t p).left = 16 ∧
      (portOf t p).next = 0 ∧ (portOf t p).ack = 0 ∧ t.comp = s.comp ∧ t.deep = s.deep := by
  obtain ⟨hport, hcomp, hdeep⟩ := resultTaken_spec s p good.toNat u (byteAt data 18, byteAt data 19, byteAt data 20)
  rw [trainingUnitReceive_told hstate hretry hcrc htold hu hlanes hw hlvl hmin hpeer] at ht
  generalize resultTaken s p good.toNat u (byteAt data 18, byteAt data 19, byteAt data 20) = v at *
  rw [← hcomp, ← hdeep]
  exact reachUp_spec p.isLt (by rw [hport]; exact hwas) (by rw [hport]; exact hlast) (leAt_lt data 0 8) (leAt_lt data 8 2)
    (byteAt_lt _ _) hwidth hlevel _ _ _ ht

theorem engineOf_ports {k q : Nat} (h : q ∈ [4 * k, 4 * k + 1, 4 * k + 2, 4 * k + 3]) : engineOf q = k := by
  simp only [List.mem_cons, List.not_mem_nil, or_false] at h
  rw [engineOf]
  omega

/-- What the loss of an optical engine leaves of one of its four quiet ports (R33). -/
theorem engineLost_spec {s : State} {p : Port} {k : Fin 16} (hp : engineOf p = k)
    (hall : ∀ q, engineOf q = k → portState s q = 2 ∧ quietPort s q ∧ flag s (R.prtStat q) 25 = false) {t : State}
    (ht : t = signalLoss (.engine k) s) : portState t p = 4 ∧ flag t (R.prtStat p) 16 = true ∧
      (portOf t p).doubt = (portOf s p).unacked ∧ t.outbox.length = s.outbox.length + 4 ∧ t.comp = s.comp ∧ t.deep = s.deep := by
  have hk := k.isLt
  have hin : p.val ∈ (SignalAt.engine k).ports := by
    rw [engineOf] at hp
    simp only [SignalAt.ports, List.mem_cons, List.not_mem_nil, or_false]
    omega
  have hlt : ∀ q ∈ (SignalAt.engine k).ports, q < 64 := by
    intro q hq
    simp only [SignalAt.ports, List.mem_cons, List.not_mem_nil, or_false] at hq
    omega
  have hone : (SignalAt.engine k).ports.Nodup := by simp [SignalAt.ports]
  have hup : ∀ q ∈ (SignalAt.engine k).ports, portState s q = 2 := fun q hq => (hall q (engineOf_ports hq)).1
  obtain ⟨hready, hunacked, hout, hcomp, hdeep⟩ := portsCut_spec hlt s
  obtain ⟨hlost, -, hlen, hcomp', hdeep'⟩ := portsLost_spec hlt hone fun q hq => hready q (hall q (engineOf_ports hq)).2
  obtain ⟨hstate, hevent, hdoubt⟩ := hlost p hin
  rw [ht, signalLoss, loseSignal_up hup]
  exact ⟨hstate, hevent, hdoubt.trans (hunacked p), by rw [hlen, hout]; rfl, hcomp'.trans hcomp, hdeep'.trans hdeep⟩

/-- What the loss of one quiet port's signal leaves. -/
theorem portLostAlone_spec {s : State} {p : Port} (hup : portState s p = 2) (hquiet : quietPort s p)
    (hret : flag s (R.prtStat p) 25 = false) {t : State} (ht : t = signalLoss (.port p) s) : ∃ g : Pkt, portState t p = 4 ∧
      flag t (R.prtStat p) 16 = true ∧ flag t (R.cirPort p) 31 = false ∧ (portOf t p).doubt = (portOf s p).unacked ∧
      (portOf t p).unacked = [] ∧ t.outbox = s.outbox ++ [g] ∧ g.f.job = 0xFFF ∧ t.comp = s.comp ∧ t.deep = s.deep := by
  obtain ⟨hready, hunacked, hout, hcomp, hdeep⟩ := portsCut_spec (ps := [p.val]) (by simp) s
  obtain ⟨hstate, hevent, hlag, hdoubt, hun, ⟨g, hg, hjob⟩, hcomp', hdeep', -⟩ := portLost_parts p.isLt (hready p ⟨hquiet, hret⟩)
  have hups : ∀ q ∈ (SignalAt.port p).ports, portState s q = 2 := by simp [SignalAt.ports, hup]
  rw [ht, signalLoss, loseSignal_up hups]
  exact ⟨g, hstate, hevent, hlag, hdoubt.trans (hunacked p), hun, hg.trans (by rw [hout]), hjob, hcomp'.trans hcomp, hdeep'.trans hdeep⟩

end Sys2Proof.Machine

open Sys2Proof Sys2Proof.Machine

/-- Settles O54: each row of a port's life by the state that it leaves. -/
theorem portLife : Obligations.PortLife := by
  refine ⟨fun s p => ⟨?_, ?_, ?_, ?_, ?_, ?_, ?_, ?_, ?_⟩, ?_, ?_⟩
  · intro data good u w lvl hstate hretry hwas hlast hlen hcrc htold hu hlanes hw hlvl hmin hwidth hlevel hpeer
    exact ⟨_, if_pos hlen, trainingUnitReceive_reaches hstate hretry hwas hlast hcrc htold hu hlanes hw hlvl hmin hwidth hlevel hpeer rfl⟩
  · intro t0 hretry hstate hdue hret hen hlamp
    have hrow : trainRetry p s = startTraining s p := by
      unfold trainRetry
      rw [hretry]
      exact if_pos ⟨hstate, hdue⟩
    obtain ⟨u, hspec⟩ := startTraining_ready hret hen hlamp
    exact ⟨_, u, congrArg Host.Outcome.next hrow, hspec⟩
  · intro hstate hsent hquiet
    obtain ⟨-, -, -, hctl⟩ := id hquiet
    have hrow : failingBellsEnd p s = sendFail s p := if_pos ⟨hstate, by simp [hsent], .inl (by rw [hctl]; rfl)⟩
    obtain ⟨u, hfail, hout, hregs, hcomp, hdeep⟩ := sendFail_quiet hquiet
    exact ⟨_, u, congrArg Host.Outcome.next hrow, hfail, hout, (portState_of_rd (rd_of_regs hregs _)).trans hstate, hregs, hcomp, hdeep⟩
  · intro a b r hstate hsent hin hop hun hret
    exact ⟨_, rfl, failReceive_spec hstate hsent hin hop hun hret rfl⟩
  · intro hstate hsent hret hdue
    have hrow : failingTimeout p s = goDown s p none := if_pos ⟨hstate, hsent, hdue⟩
    have hdown := goDown_none_spec p.isLt hret
    obtain ⟨g, hg, hout⟩ := hdown.out
    refine ⟨_, g, congrArg Host.Outcome.next hrow, hdown.state, by rw [hdown.port, downPort], hout, ?_⟩
    rw [hg, hdown.frame]
    exact ⟨rfl, rfl, rfl, rfl, rfl, rfl, rfl⟩
  · intro hup hquiet hret
    obtain ⟨g, hspec⟩ := portLostAlone_spec hup hquiet hret rfl
    exact ⟨_, g, rfl, hspec⟩
  · intro k hp hall
    exact ⟨_, rfl, engineLost_spec hp hall rfl⟩
  · intro t0 hstop hun hen
    exact ⟨_, congrArg Host.Outcome.next (portDrainEnd_off hstop hun hen), portOff_spec s p.isLt⟩
  · intro hstate hdue hret hen hlamp
    have hrow : downTimeout p s = startTraining s p := if_pos ⟨hstate, hdue⟩
    obtain ⟨u, htrain, -, hspec⟩ := startTraining_ready hret hen hlamp
    exact ⟨_, u, congrArg Host.Outcome.next hrow, htrain, hspec⟩
  · intro s k rest p ack hin hrep hoff hpeer hack hall
    obtain ⟨hdoubt, hcnt, hregs, hinbox, hout, hcomp, hdeep⟩ := resolveDoubt_counted (s := { s with inbox := rest }) hall rfl
    exact ⟨_, congrArg Host.Outcome.next ((linkReport_head hin hrep hoff hpeer).trans (by rw [← hack])), hinbox, hdoubt, hcnt, hregs,
      hout, hcomp, hdeep⟩
  · intro s p hne hdue
    obtain ⟨hdoubt, hflag, hcnt, hregs, hcomp, hdeep⟩ := doubtLost_spec s p
    have hsame := sameRegs_faultBells (doubtLost s p) 0x14 p (((portOf s p).doubt.map fun d => d.e.f.job).eraseDups) []
    obtain ⟨hportsF, hcompF, hdeepF⟩ := faultBells_frame (doubtLost s p) 0x14 p (((portOf s p).doubt.map fun d => d.e.f.job).eraseDups)
    refine ⟨_, congrArg Host.Outcome.next (linkReportTimeout_due hne hdue), by rw [portOf_of_ports hportsF, hdoubt], ?_, ?_, ?_,
      hcompF.trans hcomp, hdeepF.trans hdeep⟩
    · rw [flag_congr_rd (hsame _ List.not_mem_nil), hflag]
    · rw [hsame _ List.not_mem_nil, hcnt]
    · exact fun off hoff => (hsame off List.not_mem_nil).trans (hregs off hoff)
end

section
/-! PROOFS. Port and power set-up writes (O16): the counterexample. -/

namespace Sys2Proof.Machine

/-- The row of `PWR_CTL`. -/
def pwrCtlRow : RegRow := ⟨R.pwrCtl, [], 1, [⟨8, 8, .rwl, 1⟩, ⟨1, 1, .wo, 0⟩, ⟨0, 0, .wo, 0⟩]⟩

/-- A write of `PWR_CTL` with WAKE set ends with a wake, after what its LAMP bit asks. -/
theorem write32_pwrCtl_wake {lk : Bool} {s : State} {v : Nat} (new : Nat) (h : bit v 1 = true) :
    (write32 lk s R.pwrCtl v new).1 = lampWake (if bit v 0 then lampEnter (wr s R.pwrCtl new) else wr s R.pwrCtl new) := by
  have hctl : write32 lk s R.pwrCtl v new = (if bit v 1 then
      lampWake (if bit v 0 then lampEnter (wr s R.pwrCtl new) else wr s R.pwrCtl new)
    else if bit v 0 then lampEnter (wr s R.pwrCtl new) else wr s R.pwrCtl new, 0) := rfl
  rw [hctl, if_pos h]

/-- A package that has just been told to wake is not in lamp. -/
theorem lampWake_lamp_ne_one (s : State) : (lampWake s).power.lamp ≠ 1 := by
  unfold lampWake
  split
  · show (2 : Nat) ≠ 1
    decide
  · next h => exact h

/-- The state after reset but for `PWR_CTL`, which holds a 1 in WAKE. -/
def wakeStored : State := wr State.reset R.pwrCtl 2

/-- LAMP_ENTER writes the rest of `PWR_CTL` as it stands, here WAKE with it. -/
theorem exec_lampEnter_wakeStored : ∃ s : State, exec .lampEnter wakeStored = .next (lampWake s) := by
  have hrow : regAt R.pwrCtl = some (pwrCtlRow, 0) := by decide +kernel
  have hrd : rd wakeStored R.pwrCtl = 2 := rd_wr_same _ _ _
  have hexec : exec .lampEnter wakeStored =
      .next (bar0Write false R.pwrCtl (setBits (rd wakeStored R.pwrCtl) 0 0 1) wakeStored).1 := rfl
  rw [hexec, bar0Write_word false _ hrow rfl, hrd, write32_pwrCtl_wake _ (by decide)]
  exact ⟨_, rfl⟩

end Sys2Proof.Machine

open Sys2Proof Sys2Proof.Machine

/-- Refutes O16: LAMP_ENTER writes `PWR_CTL` with the other bits as they stand, and no hypothesis says that the stored word
has WAKE at 0. In the state after reset with that bit stored as 1, the write sets LAMP and WAKE: the package is told to
wake last, and is not in lamp. -/
theorem not_portAndPowerWrites : ¬ Obligations.PortAndPowerWrites := by
  rintro ⟨-, henter, -⟩
  obtain ⟨t, hexec, hlamp, -⟩ := henter wakeStored rfl rfl rfl rfl rfl
  obtain ⟨s, hwake⟩ := exec_lampEnter_wakeStored
  have ht : t = lampWake s := (Host.Outcome.next.inj (hwake.symm.trans hexec)).symm
  exact lampWake_lamp_ne_one s (ht ▸ hlamp)
end
